-- ==== Sys2Proof/Word.lean ====
section
/-! DEFINITION. The word types of the JT2-8128 (R4-R6, R65) and the two containers the state is made of. -/

namespace Sys2Proof

/-- One byte: a location of R172. -/
abbrev Byte := BitVec 8

/-- An integer register, a CSR, an offset within a space (R65, R71, R203). -/
abbrev Word := BitVec 64

/-- A vector register (R65). -/
abbrev Vec := BitVec 128

/-- An offset of the instruction space (R129). -/
abbrev IAddr := BitVec 40

/-- A 32-byte mailbox entry (R271), byte m in bits [8m+7:8m] (R5). -/
abbrev Payload := BitVec 256

/-- A 64-byte line (R163, R165), byte m in bits [8m+7:8m]. -/
abbrev Line := BitVec 512

/-- Bytes of one memory by offset, addresses strictly rising and no byte listed that equals what an unlisted one
reads as (0: notes/assumptions/3.md). -/
abbrev Mem := List (Nat × Byte)

/-- Sparse data by number, the numbers strictly rising. -/
abbrev Map (α : Type) := List (Nat × α)

end Sys2Proof
end

