-- ==== Sys2Proof/Config.lean ====
section
/-! DEFINITION. What one implementation fixes and the manual leaves open. Every opaque constant here is a free value:
no body, so nothing can be proved of it. Most are applied to the counter `State.draw`, which each use advances. -/

namespace Sys2Proof.Config

/-- The fixed hash that gives a line's home slice from its space and offset[63:6] (R165): "Programs can observe the
hash only through timing". The model takes it mod 32. -/
opaque homeHash (space line : Nat) : Nat

/-- Extra fabric cycles of one DRAM access (R168: "not bounded"). -/
opaque dramDelay : Nat → Nat

/-- Extra fabric cycles of one access across the peer or host port (R168: "not bounded"). -/
opaque portDelay : Nat → Nat

/-- Which serial number the next thread of a program receives beyond the last one given (R74: unique). -/
opaque serialGap : Nat → Nat

/-- The value of a read that R183, R184 or R279 leaves between several values: which of two is taken. -/
opaque pick : Nat → Bool

/-- What a host answers to a read of host memory (R203: the host is outside the module). -/
opaque hostByte : Nat → Byte

/-- What the peer module answers to a read through a peer window (R219: another module). -/
opaque peerByte : Nat → Byte

/-- What the peer's home slice answers to a request for a translation (R219: the peer's own tables): the reason of its fault, if
it finds none, and the RD and WR bits of its leaf. -/
opaque peerFault : Nat → Option (Fin 4)
opaque peerLeaf : Nat → Bool × Bool × Fin 3

/-- Whether the host is unreachable for an access, and whether it answers an access with an error (R186, R221). -/
opaque hostDown : Nat → Bool
opaque hostFails : Nat → Bool

/-- What a sector beyond the 128 GiB of DRAM reads as (R3: no memory stands there). -/
opaque dramBeyond : Nat → Payload

/-- Module power over the last millisecond in units of 0.1 W (R413, R428: measured). -/
opaque power : Nat → BitVec 16

/-- The two XTS-AES-256 keys of a key number, as 64 bytes (R426: from the on-die random source, and never readable). -/
opaque keyBytes : Nat → BitVec 512

/-- Whether an image in flash or in memory carries both valid signatures (R422, R427), by its number. -/
opaque signed : Nat → Bool

/-- The security version of an image (R422). -/
opaque securityVersion : Nat → Nat

/-- The relocations of a code object that name a slot, by the object's bytes as a number (R85, R90: no rule gives their layout): file
offset, width in bytes and number of the declaration whose slot number the front end writes there. -/
opaque slotRelocs : Nat → List (Nat × Fin 9 × Nat)

/-- Bytes of an image, blob or decode table, whose number is the little-endian value of its bytes (R422: the manual gives no lengths). -/
opaque imageLength : Nat → Nat

/-- SHA-384 of the two public keys (R425: from the physically unclonable function). -/
opaque keyDigest : BitVec 384

/-- The Ed25519 and ML-DSA-65 signatures over the report's first 0x90 bytes (R425). -/
opaque ed25519 (report : Nat) : BitVec 512
opaque mlDsa65 (report : Nat) : BitVec 26472

/-- Whether the mirror columns of one matrix step disagree (R369: a fault of the circuit). -/
opaque mirrorMiss : Nat → Bool

/-- Which of the free copy ids an operation takes (R278 names none). -/
opaque choice : Nat → Nat

/-- The payload of a notice whose layout no rule gives (R310). -/
opaque notice : Nat → Payload

/-- Decode tables by revision (R79): the highest profile known, and the latest fix profile of a mandatory erratum. -/
opaque tableHighest : Nat → Nat
opaque tableMandatory : Nat → Nat

/-- Number of the decode table of an image. -/
opaque tableImage : Nat → Nat

/-- DTVER of an image's decode table, and the DTVER that its configuration blob expects (R423, R424). -/
opaque imageTable : Nat → Nat
opaque blobTable : Nat → Nat

/-- Number of the image that flash slot 0 (A) or 1 (B) holds when the module leaves the factory (R422). -/
opaque flashImage : Nat → Nat

/-- Number of the configuration blob of an image. -/
opaque imageBlob : Nat → Nat

/-- The signed configuration blob of an image (R423): default standby mask, way mask of tenant 0 in a slice, eviction records of
a cluster (R19), active slices (R165), bases of DROOT and IROOT (R204), preferred epoch (R413), cap in 0.1 W above 90 W (R428), lease, and for each window that firmware binds the line of the reflex store that holds its QCB, its
capacity less 2, tenant, class (true is latency) and weight. -/
opaque blobStandby : Nat → BitVec 32
opaque blobWays : Nat → BitVec 16
opaque blobRecords : Nat → Nat → Fin 17
opaque blobSlices : Nat → BitVec 32
opaque blobDroot : Nat → BitVec 26
opaque blobIroot : Nat → BitVec 26
opaque blobEpoch : Nat → BitVec 32
opaque blobCap : Nat → Fin 2101
opaque blobLease : Nat → BitVec 32
opaque blobWindow : Nat → Nat → Option (Fin 485000 × Fin 4000 × Byte × Bool × BitVec 4)

/-- The verified firmware copy of an image, and the tables of the datum pair at a checkpoint, as the reflex store holds them (R421: the
manual gives neither's bytes). -/
opaque firmwareCopy : Nat → List Byte
opaque tablesCopy : Nat → List Byte

/-- The region of the reflex store that holds the copy of a program's text image (R390: the manual states no choice). -/
opaque textRegion : Nat → Fin 478

/-- Regions 0-477 of the reflex store that firmware gives a program (R160: the manual states no choice). -/
opaque regionMap : Nat → BitVec 478

/-- TVAL of a trap for which the rule that raises it names none (R225: "Value given by the trapping rule"). -/
opaque openTval : Nat → Word

end Sys2Proof.Config
end

