-- ==== Sys2Proof/Machine/Bits.lean ====
section
/-! DEFINITION. Sparse maps, memories as bytes, byte order, sign extension, CRC-32C and packed strings. -/

namespace Sys2Proof.Machine

/-! ### Sparse maps -/

/-- The entry of key `k`. -/
def mget {α : Type} (m : Map α) (k : Nat) : Option α := (m.find? (fun e => e.1 == k)).map (·.2)

/-- Without key `k`. -/
def mdel {α : Type} (m : Map α) (k : Nat) : Map α := m.filter (fun e => e.1 != k)

/-- Insert before the first greater key. -/
def minsert {α : Type} (k : Nat) (v : α) : Map α → Map α
  | [] => [(k, v)]
  | e :: m => if k < e.1 then (k, v) :: e :: m else e :: minsert k v m

/-- Key `k` set to `v`. -/
def mset {α : Type} (m : Map α) (k : Nat) (v : α) : Map α := minsert k v (mdel m k)

/-- Key `k` changed by `f` if it is there. -/
def mmod {α : Type} (m : Map α) (k : Nat) (f : α → α) : Map α :=
  match mget m k with
  | some v => mset m k (f v)
  | none => m

/-! ### Memories: the canonical form of notes/assumptions/3.md -/

/-- One byte; an unlisted byte reads 0. -/
def rd8 (m : Mem) (a : Nat) : Byte := (mget m a).getD 0

/-- Store one byte; storing 0 removes the entry. -/
def wr8 (m : Mem) (a : Nat) (b : Byte) : Mem := if b = 0 then mdel m a else mset m a b

/-- Addresses strictly rising, no byte 0 listed. -/
def Memory.wf : Mem → Bool
  | [] => true
  | [e] => decide (e.2 ≠ 0)
  | e :: f :: m => decide (e.1 < f.1) && decide (e.2 ≠ 0) && Memory.wf (f :: m)

/-- `n` bytes from `a`. -/
def rdBytes (m : Mem) (a n : Nat) : List Byte := (List.range n).map (fun i => rd8 m (a + i))

/-- Store bytes from `a` upwards. -/
def wrBytes (m : Mem) (a : Nat) : List Byte → Mem
  | [] => m
  | b :: bs => wrBytes (wr8 m a b) (a + 1) bs

/-- Store the bytes whose mask is set; a missing mask bit counts as set. -/
def wrMasked (m : Mem) (a : Nat) : List Byte → List Bool → Mem
  | [], _ => m
  | b :: bs, k :: ks => wrMasked (if k then wr8 m a b else m) (a + 1) bs ks
  | b :: bs, [] => wrMasked (wr8 m a b) (a + 1) bs []

/-- Little-endian value of bytes (R5). -/
def ofBytes (l : List Byte) : Nat := l.foldr (fun b n => b.toNat + 256 * n) 0

/-- The `n` bytes of a value, little-endian (R5). -/
def toBytes (n v : Nat) : List Byte := (List.range n).map (fun i => BitVec.ofNat 8 (v / 2 ^ (8 * i)))

/-- The little-endian value of `n` bytes at `a`. -/
def rdN (m : Mem) (a n : Nat) : Nat := ofBytes (rdBytes m a n)

/-- Store the low `n` bytes of `v` at `a`. -/
def wrN (m : Mem) (a n v : Nat) : Mem := wrBytes m a (toBytes n v)

/-- Store a long block from `a` upwards: what `wrBytes` stores, with one pass over the memory. -/
def wrBlock (m : Mem) (a : Nat) (l : List Byte) : Mem :=
  let new := (l.zipIdx.filter fun e => e.1 != 0).map fun e => (a + e.2, e.1)
  m.filter (fun e => e.1 < a) ++ new ++ m.filter (fun e => a + l.length ≤ e.1)

/-- Remove every byte in `[a, a + n)`: they read 0. -/
def zeroRange (m : Mem) (a n : Nat) : Mem := m.filter (fun e => e.1 < a || a + n ≤ e.1)

/-! ### Numbers and bits -/

/-- Bits [lo + n - 1 : lo] of `v`. -/
def bits (v lo n : Nat) : Nat := v / 2 ^ lo % 2 ^ n

/-- Bit `i` of `v`. -/
def bit (v i : Nat) : Bool := v / 2 ^ i % 2 == 1

/-- The low `n` bits of `v` as a signed number. -/
def signedOf (n v : Nat) : Int := let u := v % 2 ^ n; if u < 2 ^ (n - 1) then (u : Int) else (u : Int) - 2 ^ n

/-- An integer in two's complement of `n` bits. -/
def wrapInt (n : Nat) (i : Int) : Nat := (i % (2 ^ n : Nat)).toNat

/-- A 64-bit word from a signed number. -/
def wordOfInt (i : Int) : Word := BitVec.ofInt 64 i

/-- The low `n` bits of `v`, sign-extended to 64 bits (R187). -/
def sext (n v : Nat) : Word := BitVec.ofInt 64 (signedOf n v)

/-- Replace bits [lo + n - 1 : lo] of `v`. -/
def putBits (v lo n x : Nat) : Nat := v - bits v lo n * 2 ^ lo + (x % 2 ^ n) * 2 ^ lo

/-- Round up to a multiple of `n`. -/
def roundUp (v n : Nat) : Nat := (v + n - 1) / n * n

/-- Clamp into `[lo, hi]`. -/
def clampInt (lo hi i : Int) : Int := if i < lo then lo else if hi < i then hi else i

/-! ### CRC-32C (R321) and CRC-64 (R395) -/

/-- One bit of a reflected CRC. -/
def crcBit (poly c : Nat) : Nat := if c % 2 = 1 then (c / 2) ^^^ poly else c / 2

/-- One byte of a reflected CRC. -/
def crcByte (poly c : Nat) (b : Byte) : Nat :=
  let c := c ^^^ b.toNat
  crcBit poly (crcBit poly (crcBit poly (crcBit poly (crcBit poly (crcBit poly (crcBit poly (crcBit poly c)))))))

/-- CRC-32C: Castagnoli, reflected, initial value and final XOR 0xFFFF_FFFF (R321). -/
def crc32c (l : List Byte) : BitVec 32 :=
  BitVec.ofNat 32 ((l.foldl (crcByte 0x82F63B78) 0xFFFFFFFF) ^^^ 0xFFFFFFFF)

/-- CRC-64 (ECMA-182), most significant bit first (R395). -/
def crc64 (l : List Byte) : BitVec 64 :=
  let one (c : Nat) : Nat := if 2 ^ 63 ≤ c then (2 * c % 2 ^ 64) ^^^ 0x42F0E1EBA9EA3693 else 2 * c
  BitVec.ofNat 64 (l.foldl (fun c b =>
    one (one (one (one (one (one (one (one (c ^^^ (b.toNat * 2 ^ 56)))))))))) 0)

end Sys2Proof.Machine
end

