-- ==== Sys2Proof/Machine/Crypto.lean ====
section
/-! DEFINITION. The two standard functions that rules name: SHA-384 (FIPS 180-4), by which the measurement register is extended (R422), and
XTS-AES-256 (FIPS 197, IEEE 1619), by which DRAM is encrypted (R426). -/

namespace Sys2Proof.Machine

/-! ### SHA-384 (R422) -/

/-- Round constants 0-19. -/
def sha384K0 : List Word :=
  [0x428a2f98d728ae22, 0x7137449123ef65cd, 0xb5c0fbcfec4d3b2f, 0xe9b5dba58189dbbc, 0x3956c25bf348b538,
   0x59f111f1b605d019, 0x923f82a4af194f9b, 0xab1c5ed5da6d8118, 0xd807aa98a3030242, 0x12835b0145706fbe,
   0x243185be4ee4b28c, 0x550c7dc3d5ffb4e2, 0x72be5d74f27b896f, 0x80deb1fe3b1696b1, 0x9bdc06a725c71235,
   0xc19bf174cf692694, 0xe49b69c19ef14ad2, 0xefbe4786384f25e3, 0x0fc19dc68b8cd5b5, 0x240ca1cc77ac9c65]

/-- Round constants 20-39. -/
def sha384K1 : List Word :=
  [0x2de92c6f592b0275, 0x4a7484aa6ea6e483, 0x5cb0a9dcbd41fbd4, 0x76f988da831153b5, 0x983e5152ee66dfab,
   0xa831c66d2db43210, 0xb00327c898fb213f, 0xbf597fc7beef0ee4, 0xc6e00bf33da88fc2, 0xd5a79147930aa725,
   0x06ca6351e003826f, 0x142929670a0e6e70, 0x27b70a8546d22ffc, 0x2e1b21385c26c926, 0x4d2c6dfc5ac42aed,
   0x53380d139d95b3df, 0x650a73548baf63de, 0x766a0abb3c77b2a8, 0x81c2c92e47edaee6, 0x92722c851482353b]

/-- Round constants 40-59. -/
def sha384K2 : List Word :=
  [0xa2bfe8a14cf10364, 0xa81a664bbc423001, 0xc24b8b70d0f89791, 0xc76c51a30654be30, 0xd192e819d6ef5218,
   0xd69906245565a910, 0xf40e35855771202a, 0x106aa07032bbd1b8, 0x19a4c116b8d2d0c8, 0x1e376c085141ab53,
   0x2748774cdf8eeb99, 0x34b0bcb5e19b48a8, 0x391c0cb3c5c95a63, 0x4ed8aa4ae3418acb, 0x5b9cca4f7763e373,
   0x682e6ff3d6b2b8a3, 0x748f82ee5defb2fc, 0x78a5636f43172f60, 0x84c87814a1f0ab72, 0x8cc702081a6439ec]

/-- Round constants 60-79. -/
def sha384K3 : List Word :=
  [0x90befffa23631e28, 0xa4506cebde82bde9, 0xbef9a3f7b2c67915, 0xc67178f2e372532b, 0xca273eceea26619c,
   0xd186b8c721c0c207, 0xeada7dd6cde0eb1e, 0xf57d4f7fee6ed178, 0x06f067aa72176fba, 0x0a637dc5a2c898a6,
   0x113f9804bef90dae, 0x1b710b35131c471b, 0x28db77f523047d84, 0x32caab7b40c72493, 0x3c9ebe0a15c9bebc,
   0x431d67c49c100d4c, 0x4cc5d4becb3e42b6, 0x597f299cfc657e2a, 0x5fcb6fab3ad6faec, 0x6c44198c4a475817]

/-- The 80 round constants. -/
def sha384K : List Word := sha384K0 ++ sha384K1 ++ sha384K2 ++ sha384K3

/-- The initial hash value. -/
def sha384Init : List Word :=
  [0xcbbb9d5dc1059ed8, 0x629a292a367cd507, 0x9159015a3070dd17, 0x152fecd8f70e5939, 0x67332667ffc00b31,
   0x8eb44a8768581511, 0xdb0c2e0d64f98fa7, 0x47b5481dbefa4fa4]

/-- A word from 8 bytes, the first the most significant. -/
def shaWord (l : List Byte) : Word := BitVec.ofNat 64 (ofBytes l.reverse)

/-- The message schedule of a block, the last word first: `n` more words. -/
def shaSchedule : Nat → List Word → List Word
  | 0, l => l
  | n + 1, l =>
    let x := l.getD 14 0
    let y := l.getD 1 0
    let s0 := x.rotateRight 1 ^^^ x.rotateRight 8 ^^^ (x >>> 7)
    let s1 := y.rotateRight 19 ^^^ y.rotateRight 61 ^^^ (y >>> 6)
    shaSchedule n ((s1 + l.getD 6 0 + s0 + l.getD 15 0) :: l)

/-- One round with its constant and word of the schedule. -/
def shaRound (v : List Word) (kw : Word × Word) : List Word :=
  match v with
  | [a, b, c, d, e, f, g, h] =>
    let t := h + (e.rotateRight 14 ^^^ e.rotateRight 18 ^^^ e.rotateRight 41) + ((e &&& f) ^^^ (~~~e &&& g)) + kw.1 + kw.2
    let u := (a.rotateRight 28 ^^^ a.rotateRight 34 ^^^ a.rotateRight 39) + ((a &&& b) ^^^ (a &&& c) ^^^ (b &&& c))
    [t + u, a, b, c, d + t, e, f, g]
  | l => l

/-- One block of 128 bytes. -/
def shaBlock (h : List Word) (block : List Byte) : List Word :=
  let w := (List.range 16).map fun i => shaWord ((block.drop (8 * i)).take 8)
  List.zipWith (· + ·) h ((sha384K.zip (shaSchedule 64 w.reverse).reverse).foldl shaRound h)

/-- A message with its padding. -/
def shaPadded (l : List Byte) : List Byte :=
  l ++ 0x80#8 :: toBytes ((239 - l.length % 128) % 128) 0 ++ (toBytes 16 (8 * l.length)).reverse

/-- SHA-384 of a message: 48 bytes. -/
def sha384 (l : List Byte) : List Byte :=
  let m := shaPadded l
  let h := (List.range (m.length / 128)).foldl (fun h i => shaBlock h ((m.drop (128 * i)).take 128)) sha384Init
  (h.take 6).flatMap fun w => (toBytes 8 w.toNat).reverse

/-! ### AES-256 (R426) -/

/-- Product of two bytes in the field of FIPS 197, over `n` bits of the second. -/
def gfMul : Nat → Byte → Byte → Byte
  | 0, _, _ => 0
  | n + 1, a, b => (if b.getLsbD 0 then a else 0) ^^^ gfMul n ((a <<< 1) ^^^ (if a.getLsbD 7 then 0x1B else 0)) (b >>> 1)

/-- The inverse in the field, 0 for 0: the power 254. -/
def gfInv (a : Byte) : Byte :=
  ((List.range 7).foldl (fun (x : Byte × Byte) _ =>
    let q := gfMul 8 x.1 x.1
    (q, gfMul 8 x.2 q)) (a, 1)).2

/-- The S-box and its inverse. -/
def subByte (a : Byte) : Byte :=
  let b := gfInv a
  b ^^^ b.rotateLeft 1 ^^^ b.rotateLeft 2 ^^^ b.rotateLeft 3 ^^^ b.rotateLeft 4 ^^^ 0x63
def invSubByte (a : Byte) : Byte := gfInv (a.rotateLeft 1 ^^^ a.rotateLeft 3 ^^^ a.rotateLeft 6 ^^^ 0x05)

/-- Bytes added in the field. -/
def addBytes (a b : List Byte) : List Byte := List.zipWith (· ^^^ ·) a b

/-- `2 ^ n` in the field. -/
def gfPow2 : Nat → Byte
  | 0 => 1
  | n + 1 => gfMul 8 (gfPow2 n) 2

/-- The key expansion, the last word first: `n` more words from number `i` on. -/
def aesExpand : Nat → Nat → List (List Byte) → List (List Byte)
  | 0, _, l => l
  | n + 1, i, l =>
    let t := l.headD []
    let t := if i % 8 = 0 then addBytes ((t.drop 1 ++ t.take 1).map subByte) [gfPow2 (i / 8 - 1), 0, 0, 0]
      else if i % 8 = 4 then t.map subByte else t
    aesExpand n (i + 1) (addBytes t (l.getD 7 []) :: l)

/-- The 15 round keys of a 32-byte key. -/
def aesKeys (key : List Byte) : List (List Byte) :=
  let w := (aesExpand 52 8 ((List.range 8).map fun i => (key.drop (4 * i)).take 4).reverse).reverse
  (List.range 15).map fun r => ((w.drop (4 * r)).take 4).flatten

/-- A column multiplied by the circulant matrix with first row `m`. -/
def mixColumn (m c : List Byte) : List Byte :=
  (List.range 4).map fun r => (List.range 4).foldl (fun (x : Byte) i => x ^^^ gfMul 8 (c.getD i 0) (m.getD ((i + 4 - r) % 4) 0)) 0

/-- The four columns of a block multiplied. -/
def mixColumns (m b : List Byte) : List Byte := (List.range 4).flatMap fun i => mixColumn m ((b.drop (4 * i)).take 4)

/-- ShiftRows by `k` columns for each row number. -/
def shiftRows (k : Nat) (b : List Byte) : List Byte := (List.range 16).map fun i => b.getD ((i + 4 * k * (i % 4)) % 16) 0

/-- AES encryption of a 16-byte block under round keys. -/
def aesEncrypt (k : List (List Byte)) (b : List Byte) : List Byte :=
  let b := ((k.drop 1).take 13).foldl (fun b r => addBytes (mixColumns [2, 3, 1, 1] (shiftRows 1 (b.map subByte))) r) (addBytes b (k.getD 0 []))
  addBytes (shiftRows 1 (b.map subByte)) (k.getD 14 [])

/-- AES decryption of a 16-byte block under round keys. -/
def aesDecrypt (k : List (List Byte)) (b : List Byte) : List Byte :=
  let b := ((k.drop 1).take 13).reverse.foldl (fun b r =>
    mixColumns [14, 11, 13, 9] (addBytes ((shiftRows 3 b).map invSubByte) r)) (addBytes b (k.getD 14 []))
  addBytes ((shiftRows 3 b).map invSubByte) (k.getD 0 [])

/-! ### XTS (R426) -/

/-- A tweak multiplied by the primitive element. -/
def xtsNext (t : List Byte) : List Byte :=
  let n := 2 * ofBytes t
  toBytes 16 (if n < 2 ^ 128 then n else (n - 2 ^ 128) ^^^ 0x87)

/-- The data unit of a 32-byte sector under a 64-byte key: both blocks by `cipher`, masked with their tweaks. -/
def xts (cipher : List (List Byte) → List Byte → List Byte) (key : List Byte) (unit : Nat) (d : Payload) : Payload :=
  let k := aesKeys (key.take 32)
  let t := aesEncrypt (aesKeys (key.drop 32)) (toBytes 16 unit)
  let l := toBytes 32 d.toNat
  let block (t b : List Byte) : List Byte := addBytes (cipher k (addBytes b t)) t
  BitVec.ofNat 256 (ofBytes (block t (l.take 16) ++ block (xtsNext t) (l.drop 16)))

/-- A 32-byte sector at physical address `a` as it reads under key number `new` when it was stored under key number `old`: the
decryption of its ciphertext (R426). -/
def xtsReread (old new a : Nat) (d : Payload) : Payload :=
  let unit := bits a 5 41
  xts aesDecrypt (toBytes 64 (Config.keyBytes new).toNat) unit (xts aesEncrypt (toBytes 64 (Config.keyBytes old).toNat) unit d)

end Sys2Proof.Machine
end

