-- ==== Sys2Proof/Syntax.lean ====
section
/-! DEFINITION. The steps of the JT2-8128: one constructor for each row of spec/opcode_table.json. The first 245 are
instructions, their arguments the fields of R60 that the row leaves free; guard and S bit belong to the word, not to
the instruction (R53, R59). The rest are the events of the part; what one of them carries is its Event
(Machine/Messages.lean), which the state holds while the event is taken. -/

namespace Sys2Proof

inductive Instr where
  /-- BEQ (R131). -/
  | beq (a : BitVec 4) (b : BitVec 4) (off : BitVec 9)
  /-- BNE (R131). -/
  | bne (a : BitVec 4) (b : BitVec 4) (off : BitVec 9)
  /-- BLT (R131). -/
  | blt (a : BitVec 4) (b : BitVec 4) (off : BitVec 9)
  /-- BGE (R131). -/
  | bge (a : BitVec 4) (b : BitVec 4) (off : BitVec 9)
  /-- BLTU (R131). -/
  | bltu (a : BitVec 4) (b : BitVec 4) (off : BitVec 9)
  /-- BGEU (R131). -/
  | bgeu (a : BitVec 4) (b : BitVec 4) (off : BitVec 9)
  /-- BPT (R132). -/
  | bpt (a : BitVec 4) (off : BitVec 9)
  /-- BPF (R132). -/
  | bpf (a : BitVec 4) (off : BitVec 9)
  /-- J (R133). -/
  | j (off : BitVec 20)
  /-- CALL (R133). -/
  | call (off : BitVec 20)
  /-- JR (R134). -/
  | jr (a : BitVec 5) (imm : BitVec 7)
  /-- JALR (R134). -/
  | jalr (d : BitVec 5) (a : BitVec 5) (imm : BitVec 7)
  /-- LOOP (R135). -/
  | loop (d : BitVec 5) (a : BitVec 5) (imm : BitVec 7)
  /-- LIW (R136). -/
  | liw (d : BitVec 5) (literal : BitVec 32)
  /-- LIWH (R136). -/
  | liwh (d : BitVec 5) (literal : BitVec 32)
  /-- LD8 (R187). -/
  | ld8 (d : BitVec 5) (a : BitVec 5) (off : BitVec 7)
  /-- LD8U (R187). -/
  | ld8u (d : BitVec 5) (a : BitVec 5) (off : BitVec 7)
  /-- LD16 (R187). -/
  | ld16 (d : BitVec 5) (a : BitVec 5) (off : BitVec 7)
  /-- LD16U (R187). -/
  | ld16u (d : BitVec 5) (a : BitVec 5) (off : BitVec 7)
  /-- LD32 (R187). -/
  | ld32 (d : BitVec 5) (a : BitVec 5) (off : BitVec 7)
  /-- LD32U (R187). -/
  | ld32u (d : BitVec 5) (a : BitVec 5) (off : BitVec 7)
  /-- LD64 (R187). -/
  | ld64 (d : BitVec 5) (a : BitVec 5) (off : BitVec 7)
  /-- ST8 (R187). -/
  | st8 (d : BitVec 5) (a : BitVec 5) (off : BitVec 7)
  /-- ST16 (R187). -/
  | st16 (d : BitVec 5) (a : BitVec 5) (off : BitVec 7)
  /-- ST32 (R187). -/
  | st32 (d : BitVec 5) (a : BitVec 5) (off : BitVec 7)
  /-- ST64 (R187). -/
  | st64 (d : BitVec 5) (a : BitVec 5) (off : BitVec 7)
  /-- LDA32 (R188). -/
  | lda32 (d : BitVec 5) (a : BitVec 5) (scope : BitVec 3)
  /-- LDA64 (R188). -/
  | lda64 (d : BitVec 5) (a : BitVec 5) (scope : BitVec 3)
  /-- STL32 (R188). -/
  | stl32 (d : BitVec 5) (a : BitVec 5) (scope : BitVec 3)
  /-- STL64 (R188). -/
  | stl64 (d : BitVec 5) (a : BitVec 5) (scope : BitVec 3)
  /-- LDP (R189). -/
  | ldp (d : BitVec 5) (a : BitVec 5) (off : BitVec 7)
  /-- STP (R189). -/
  | stp (d : BitVec 5) (a : BitVec 5) (off : BitVec 7)
  /-- LDF64 (R190). -/
  | ldf64 (d : BitVec 5) (a : BitVec 5) (off : BitVec 7)
  /-- STF64 (R190). -/
  | stf64 (d : BitVec 5) (a : BitVec 5) (off : BitVec 7)
  /-- VLD (R191). -/
  | vld (d : BitVec 5) (a : BitVec 5) (off : BitVec 7)
  /-- VLDB (R191). -/
  | vldb (d : BitVec 5) (a : BitVec 5) (off : BitVec 7)
  /-- VLDS (R191). -/
  | vlds (d : BitVec 5) (a : BitVec 5) (b : BitVec 5)
  /-- VLDS_PI (R191). -/
  | vldsPi (d : BitVec 5) (a : BitVec 5) (b : BitVec 5)
  /-- VST (R191). -/
  | vst (d : BitVec 5) (a : BitVec 5) (off : BitVec 7)
  /-- VSTM (R191). -/
  | vstm (d : BitVec 5) (a : BitVec 5) (b : BitVec 5)
  /-- AMOADD (R193). -/
  | amoadd (v : BitVec 5) (a : BitVec 5) (w : BitVec 1) (ord : BitVec 2) (scope : BitVec 3)
  /-- AMOAND (R193). -/
  | amoand (v : BitVec 5) (a : BitVec 5) (w : BitVec 1) (ord : BitVec 2) (scope : BitVec 3)
  /-- AMOOR (R193). -/
  | amoor (v : BitVec 5) (a : BitVec 5) (w : BitVec 1) (ord : BitVec 2) (scope : BitVec 3)
  /-- AMOOR_FENCE (R178). -/
  | amoorFence (a : BitVec 5) (w : BitVec 1) (ord : BitVec 2) (scope : BitVec 3)
  /-- AMOXOR (R193). -/
  | amoxor (v : BitVec 5) (a : BitVec 5) (w : BitVec 1) (ord : BitVec 2) (scope : BitVec 3)
  /-- AMOMIN (R193). -/
  | amomin (v : BitVec 5) (a : BitVec 5) (w : BitVec 1) (ord : BitVec 2) (scope : BitVec 3)
  /-- AMOMAX (R193). -/
  | amomax (v : BitVec 5) (a : BitVec 5) (w : BitVec 1) (ord : BitVec 2) (scope : BitVec 3)
  /-- AMOMINU (R193). -/
  | amominu (v : BitVec 5) (a : BitVec 5) (w : BitVec 1) (ord : BitVec 2) (scope : BitVec 3)
  /-- AMOMAXU (R193). -/
  | amomaxu (v : BitVec 5) (a : BitVec 5) (w : BitVec 1) (ord : BitVec 2) (scope : BitVec 3)
  /-- AMOSWP (R193). -/
  | amoswp (v : BitVec 5) (a : BitVec 5) (w : BitVec 1) (ord : BitVec 2) (scope : BitVec 3)
  /-- CAS32 (R194). -/
  | cas32 (v : BitVec 5) (a : BitVec 5) (ord : BitVec 2) (scope : BitVec 3)
  /-- CAS64 (R194). -/
  | cas64 (v : BitVec 5) (a : BitVec 5) (ord : BitVec 2) (scope : BitVec 3)
  /-- AMOFADD (R195). -/
  | amofadd (v : BitVec 5) (a : BitVec 5) (w : BitVec 1) (ord : BitVec 2) (scope : BitVec 3)
  /-- AMOFMIN (R195). -/
  | amofmin (v : BitVec 5) (a : BitVec 5) (w : BitVec 1) (ord : BitVec 2) (scope : BitVec 3)
  /-- AMOFMAX (R195). -/
  | amofmax (v : BitVec 5) (a : BitVec 5) (w : BitVec 1) (ord : BitVec 2) (scope : BitVec 3)
  /-- CWB (R196). -/
  | cwb (a : BitVec 5)
  /-- CINV (R197). -/
  | cinv (a : BitVec 5)
  /-- CINV_RC (R197). -/
  | cinvRc (a : BitVec 5)
  /-- CINV_D (R197). -/
  | cinvD (a : BitVec 5)
  /-- PREF (R198). -/
  | pref (a : BitVec 5)
  /-- PREF_SC (R198). -/
  | prefSc (a : BitVec 5)
  /-- ICINV (R199). -/
  | icinv (a : BitVec 5)
  /-- ENQ (R328). -/
  | enq (d : BitVec 5) (a : BitVec 5) (b : BitVec 5)
  /-- ENQT (R328). -/
  | enqt (d : BitVec 5) (a : BitVec 5) (b : BitVec 5) (mod : BitVec 2)
  /-- DEQ (R329). -/
  | deq (d : BitVec 5) (a : BitVec 5) (b : BitVec 5)
  /-- DEQT (R329). -/
  | deqt (d : BitVec 5) (a : BitVec 5) (b : BitVec 5) (mod : BitVec 2)
  /-- QINIT (R333). -/
  | qinit (d : BitVec 5) (a : BitVec 5) (b : BitVec 5)
  /-- QSTAT (R334). -/
  | qstat (d : BitVec 5) (a : BitVec 5) (b : BitVec 5)
  /-- QDRAIN (R335). -/
  | qdrain (d : BitVec 5) (a : BitVec 5)
  /-- QRESET (R336). -/
  | qreset (d : BitVec 5) (a : BitVec 5)
  /-- PINIT (R343). -/
  | pinit (d : BitVec 5) (a : BitVec 5) (b : BitVec 5)
  /-- PSTAT (R344). -/
  | pstat (d : BitVec 5) (a : BitVec 5) (b : BitVec 5)
  /-- BALLOC (R345). -/
  | balloc (d : BitVec 5) (a : BitVec 5)
  /-- BFREE (R345). -/
  | bfree (d : BitVec 5) (a : BitVec 5) (b : BitVec 5)
  /-- BTAPP (R348). -/
  | btapp (d : BitVec 5) (a : BitVec 5)
  /-- BTGET (R348). -/
  | btget (d : BitVec 5) (a : BitVec 5) (b : BitVec 5)
  /-- BTFORK (R349). -/
  | btfork (d : BitVec 5) (a : BitVec 5) (b : BitVec 5)
  /-- BTREL (R348). -/
  | btrel (d : BitVec 5) (a : BitVec 5)
  /-- SEND (R275). -/
  | send (d : BitVec 5) (a : BitVec 5) (b : BitVec 5)
  /-- SEND_ACK (R276). -/
  | sendAck (d : BitVec 5) (a : BitVec 5) (b : BitVec 5)
  /-- SEND_TRAP (R276). -/
  | sendTrap (d : BitVec 5) (a : BitVec 5) (b : BitVec 5)
  /-- SENDV (R275). -/
  | sendv (d : BitVec 5) (a : BitVec 5) (b : BitVec 5)
  /-- SENDV_ACK (R276). -/
  | sendvAck (d : BitVec 5) (a : BitVec 5) (b : BitVec 5)
  /-- SENDV_TRAP (R276). -/
  | sendvTrap (d : BitVec 5) (a : BitVec 5) (b : BitVec 5)
  /-- RECV (R277). -/
  | recv (d : BitVec 5) (a : BitVec 5) (b : BitVec 5)
  /-- RECVT (R277). -/
  | recvt (d : BitVec 5) (a : BitVec 5) (b : BitVec 5)
  /-- CPY (R282). -/
  | cpy (d : BitVec 5) (a : BitVec 5) (b : BitVec 5)
  /-- CPY2D (R285). -/
  | cpy2d (d : BitVec 5) (a : BitVec 5)
  /-- CPY2D_ST (R285). -/
  | cpy2dSt (d : BitVec 5) (a : BitVec 5)
  /-- CPYG (R286). -/
  | cpyg (d : BitVec 5) (a : BitVec 5) (b : BitVec 5)
  /-- CPYS (R286). -/
  | cpys (d : BitVec 5) (a : BitVec 5) (b : BitVec 5)
  /-- CPYH (R287). -/
  | cpyh (d : BitVec 5) (a : BitVec 5) (b : BitVec 5)
  /-- CPYQ (R288). -/
  | cpyq (d : BitVec 5) (a : BitVec 5) (b : BitVec 5)
  /-- STRM (R292). -/
  | strm (d : BitVec 5) (a : BitVec 5)
  /-- STRM_W (R292). -/
  | strmW (d : BitVec 5) (a : BitVec 5)
  /-- STRMX (R293). -/
  | strmx (d : BitVec 5)
  /-- XSEND (R299). -/
  | xsend (a : BitVec 5)
  /-- XRECV (R300). -/
  | xrecv (a : BitVec 5)
  /-- XPHASE (R298). -/
  | xphase (d : BitVec 5) (a : BitVec 5)
  /-- SSTEP (R297). -/
  | sstep (d : BitVec 5)
  /-- GJOIN (R301). -/
  | gjoin (d : BitVec 5) (a : BitVec 5)
  /-- GLEAVE (R301). -/
  | gleave (d : BitVec 5)
  /-- GBAR (R302). -/
  | gbar (d : BitVec 5)
  /-- GARR (R302). -/
  | garr (d : BitVec 5)
  /-- GWAIT (R302). -/
  | gwait (a : BitVec 5)
  /-- SPAWN (R303). -/
  | spawn (d : BitVec 5) (a : BitVec 5) (b : BitVec 5)
  /-- MIGR (R305). -/
  | migr (a : BitVec 5)
  /-- MIGR_LD (R305). -/
  | migrLd (d : BitVec 5) (a : BitVec 5)
  /-- TGROW (R307). -/
  | tgrow (d : BitVec 5) (a : BitVec 5)
  /-- TIDX (R307). -/
  | tidx (d : BitVec 5)
  /-- TIDX_NX (R307). -/
  | tidxNx (d : BitVec 5)
  /-- PROBE (R309). -/
  | probe (d : BitVec 5) (a : BitVec 5) (b : BitVec 5)
  /-- XMPUB (R312). -/
  | xmpub (d : BitVec 5) (a : BitVec 5) (b : BitVec 5)
  /-- XMRD (R313). -/
  | xmrd (d : BitVec 5) (a : BitVec 5) (b : BitVec 5)
  /-- XMRDT (R313). -/
  | xmrdt (d : BitVec 5) (a : BitVec 5) (b : BitVec 5)
  /-- STAKE (R315). -/
  | stake (d : BitVec 5) (a : BitVec 5) (b : BitVec 5)
  /-- UNSTAKE (R317). -/
  | unstake (d : BitVec 5) (a : BitVec 5)
  /-- LVINIT (R375). -/
  | lvinit (d : BitVec 5) (a : BitVec 5) (b : BitVec 5)
  /-- LVINV (R375). -/
  | lvinv (d : BitVec 5) (a : BitVec 5)
  /-- LVSTAT (R375). -/
  | lvstat (d : BitVec 5) (a : BitVec 5) (b : BitVec 5)
  /-- WREG (R373). -/
  | wreg (d : BitVec 5) (a : BitVec 5) (b : BitVec 5)
  /-- WUNREG (R373). -/
  | wunreg (d : BitVec 5) (a : BitVec 5)
  /-- SSREX (R266). -/
  | ssrex (d : BitVec 5) (a : BitVec 5) (b : BitVec 5)
  /-- SSRIM (R265). -/
  | ssrim (d : BitVec 5) (a : BitVec 5) (b : BitVec 5)
  /-- CSRR (R149). -/
  | csrr (d : BitVec 5) (csr : BitVec 12)
  /-- CSRW (R149). -/
  | csrw (d : BitVec 5) (csr : BitVec 12)
  /-- CSRS (R149). -/
  | csrs (d : BitVec 5) (csr : BitVec 12)
  /-- CSRC (R149). -/
  | csrc (d : BitVec 5) (csr : BitVec 12)
  /-- TRAP (R151). -/
  | trap (a : BitVec 5)
  /-- TRAP_BRK (R151). -/
  | trapBrk (a : BitVec 5)
  /-- TIME (R155). -/
  | time (d : BitVec 5)
  /-- TALARM (R156). -/
  | talarm (d : BitVec 5) (a : BitVec 5) (b : BitVec 5)
  /-- ADD (R139). -/
  | add (d : BitVec 5) (a : BitVec 5) (b : BitVec 5)
  /-- SUB (R139). -/
  | sub (d : BitVec 5) (a : BitVec 5) (b : BitVec 5)
  /-- AND (R139). -/
  | and (d : BitVec 5) (a : BitVec 5) (b : BitVec 5)
  /-- OR (R139). -/
  | or (d : BitVec 5) (a : BitVec 5) (b : BitVec 5)
  /-- XOR (R139). -/
  | xor (d : BitVec 5) (a : BitVec 5) (b : BitVec 5)
  /-- SLL (R139). -/
  | sll (d : BitVec 5) (a : BitVec 5) (b : BitVec 5)
  /-- SRL (R139). -/
  | srl (d : BitVec 5) (a : BitVec 5) (b : BitVec 5)
  /-- SRA (R139). -/
  | sra (d : BitVec 5) (a : BitVec 5) (b : BitVec 5)
  /-- SLT (R139). -/
  | slt (d : BitVec 5) (a : BitVec 5) (b : BitVec 5)
  /-- SLTU (R139). -/
  | sltu (d : BitVec 5) (a : BitVec 5) (b : BitVec 5)
  /-- MIN (R139). -/
  | min (d : BitVec 5) (a : BitVec 5) (b : BitVec 5)
  /-- MAX (R139). -/
  | max (d : BitVec 5) (a : BitVec 5) (b : BitVec 5)
  /-- MINU (R139). -/
  | minu (d : BitVec 5) (a : BitVec 5) (b : BitVec 5)
  /-- MAXU (R139). -/
  | maxu (d : BitVec 5) (a : BitVec 5) (b : BitVec 5)
  /-- ADDI (R140). -/
  | addi (d : BitVec 5) (a : BitVec 5) (imm : BitVec 7)
  /-- ANDI (R140). -/
  | andi (d : BitVec 5) (a : BitVec 5) (imm : BitVec 7)
  /-- ORI (R140). -/
  | ori (d : BitVec 5) (a : BitVec 5) (imm : BitVec 7)
  /-- XORI (R140). -/
  | xori (d : BitVec 5) (a : BitVec 5) (imm : BitVec 7)
  /-- SLLI (R140). -/
  | slli (d : BitVec 5) (a : BitVec 5) (imm : BitVec 6)
  /-- SRLI (R140). -/
  | srli (d : BitVec 5) (a : BitVec 5) (imm : BitVec 6)
  /-- SRAI (R140). -/
  | srai (d : BitVec 5) (a : BitVec 5) (imm : BitVec 6)
  /-- SLTI (R140). -/
  | slti (d : BitVec 5) (a : BitVec 5) (imm : BitVec 7)
  /-- MUL (R141). -/
  | mul (d : BitVec 5) (a : BitVec 5) (b : BitVec 5)
  /-- MULH (R141). -/
  | mulh (d : BitVec 5) (a : BitVec 5) (b : BitVec 5)
  /-- MULHU (R141). -/
  | mulhu (d : BitVec 5) (a : BitVec 5) (b : BitVec 5)
  /-- DIV (R118). -/
  | div (d : BitVec 5) (a : BitVec 5) (b : BitVec 5)
  /-- DIVU (R118). -/
  | divu (d : BitVec 5) (a : BitVec 5) (b : BitVec 5)
  /-- REM (R118). -/
  | rem (d : BitVec 5) (a : BitVec 5) (b : BitVec 5)
  /-- REMU (R118). -/
  | remu (d : BitVec 5) (a : BitVec 5) (b : BitVec 5)
  /-- LUI (R137). -/
  | lui (d : BitVec 5) (imm : BitVec 15)
  /-- ADDPC (R138). -/
  | addpc (d : BitVec 5) (imm : BitVec 15)
  /-- CLZ (R142). -/
  | clz (d : BitVec 5) (a : BitVec 5)
  /-- CTZ (R142). -/
  | ctz (d : BitVec 5) (a : BitVec 5)
  /-- POPC (R142). -/
  | popc (d : BitVec 5) (a : BitVec 5)
  /-- BSWAP (R142). -/
  | bswap (d : BitVec 5) (a : BitVec 5)
  /-- PEQ (R146). -/
  | peq (d : BitVec 5) (a : BitVec 5) (b : BitVec 5)
  /-- PNE (R146). -/
  | pne (d : BitVec 5) (a : BitVec 5) (b : BitVec 5)
  /-- PLT (R146). -/
  | plt (d : BitVec 5) (a : BitVec 5) (b : BitVec 5)
  /-- PGE (R146). -/
  | pge (d : BitVec 5) (a : BitVec 5) (b : BitVec 5)
  /-- PLTU (R146). -/
  | pltu (d : BitVec 5) (a : BitVec 5) (b : BitVec 5)
  /-- PGEU (R146). -/
  | pgeu (d : BitVec 5) (a : BitVec 5) (b : BitVec 5)
  /-- PAND (R147). -/
  | pand (d : BitVec 5) (a : BitVec 5) (b : BitVec 5)
  /-- POR (R147). -/
  | por (d : BitVec 5) (a : BitVec 5) (b : BitVec 5)
  /-- PXOR (R147). -/
  | pxor (d : BitVec 5) (a : BitVec 5) (b : BitVec 5)
  /-- PNOT (R147). -/
  | pnot (d : BitVec 5) (a : BitVec 5)
  /-- SEL (R145). -/
  | sel (d : BitVec 5) (a : BitVec 5) (b : BitVec 5)
  /-- MOVPW (R148). -/
  | movpw (d : BitVec 5)
  /-- MOVWP (R148). -/
  | movwp (a : BitVec 5)
  /-- ADDSH (R143). -/
  | addsh (d : BitVec 5) (a : BitVec 5) (b : BitVec 5)
  /-- PART (R144). -/
  | part (d : BitVec 5) (a : BitVec 5) (b : BitVec 5)
  /-- VADD (R253). -/
  | vadd (d : BitVec 5) (a : BitVec 5) (b : BitVec 5)
  /-- VSUB (R253). -/
  | vsub (d : BitVec 5) (a : BitVec 5) (b : BitVec 5)
  /-- VMUL (R253). -/
  | vmul (d : BitVec 5) (a : BitVec 5) (b : BitVec 5)
  /-- VMIN (R253). -/
  | vmin (d : BitVec 5) (a : BitVec 5) (b : BitVec 5)
  /-- VMAX (R253). -/
  | vmax (d : BitVec 5) (a : BitVec 5) (b : BitVec 5)
  /-- VAND (R253). -/
  | vand (d : BitVec 5) (a : BitVec 5) (b : BitVec 5)
  /-- VOR (R253). -/
  | vor (d : BitVec 5) (a : BitVec 5) (b : BitVec 5)
  /-- VXOR (R253). -/
  | vxor (d : BitVec 5) (a : BitVec 5) (b : BitVec 5)
  /-- VSHL (R253). -/
  | vshl (d : BitVec 5) (a : BitVec 5) (b : BitVec 5)
  /-- VSHR (R253). -/
  | vshr (d : BitVec 5) (a : BitVec 5) (b : BitVec 5)
  /-- VSRA (R253). -/
  | vsra (d : BitVec 5) (a : BitVec 5) (b : BitVec 5)
  /-- VFADD (R254). -/
  | vfadd (d : BitVec 5) (a : BitVec 5) (b : BitVec 5)
  /-- VFSUB (R254). -/
  | vfsub (d : BitVec 5) (a : BitVec 5) (b : BitVec 5)
  /-- VFMUL (R254). -/
  | vfmul (d : BitVec 5) (a : BitVec 5) (b : BitVec 5)
  /-- VFMA (R254). -/
  | vfma (d : BitVec 5) (a : BitVec 5) (b : BitVec 5)
  /-- VFMIN (R254). -/
  | vfmin (d : BitVec 5) (a : BitVec 5) (b : BitVec 5)
  /-- VFMAX (R254). -/
  | vfmax (d : BitVec 5) (a : BitVec 5) (b : BitVec 5)
  /-- VFABS (R254). -/
  | vfabs (d : BitVec 5) (a : BitVec 5)
  /-- VFNEG (R254). -/
  | vfneg (d : BitVec 5) (a : BitVec 5)
  /-- VRCP (R255). -/
  | vrcp (d : BitVec 5) (a : BitVec 5)
  /-- VRSQ (R255). -/
  | vrsq (d : BitVec 5) (a : BitVec 5)
  /-- VSQRT (R255). -/
  | vsqrt (d : BitVec 5) (a : BitVec 5)
  /-- VEXP2 (R255). -/
  | vexp2 (d : BitVec 5) (a : BitVec 5)
  /-- VLOG2 (R255). -/
  | vlog2 (d : BitVec 5) (a : BitVec 5)
  /-- VDIV (R255). -/
  | vdiv (d : BitVec 5) (a : BitVec 5) (b : BitVec 5)
  /-- VCVT (R257). -/
  | vcvt (d : BitVec 5) (a : BitVec 5) (b : BitVec 5)
  /-- VCVTS (R257). -/
  | vcvts (d : BitVec 5) (a : BitVec 5) (b : BitVec 5)
  /-- VQNT (R258). -/
  | vqnt (d : BitVec 5) (a : BitVec 5) (b : BitVec 5)
  /-- VRSUM (R259). -/
  | vrsum (d : BitVec 5) (a : BitVec 5) (b : BitVec 5)
  /-- VRMAX (R259). -/
  | vrmax (d : BitVec 5) (a : BitVec 5) (b : BitVec 5)
  /-- VRMIN (R259). -/
  | vrmin (d : BitVec 5) (a : BitVec 5) (b : BitVec 5)
  /-- VSHUF (R260). -/
  | vshuf (d : BitVec 5) (a : BitVec 5) (b : BitVec 5)
  /-- VBCAST (R260). -/
  | vbcast (d : BitVec 5) (a : BitVec 5) (b : BitVec 5)
  /-- VEXT (R260). -/
  | vext (d : BitVec 5) (a : BitVec 5) (b : BitVec 5)
  /-- VINS (R260). -/
  | vins (d : BitVec 5) (a : BitVec 5) (b : BitVec 5)
  /-- VCMP (R261). -/
  | vcmp (d : BitVec 5) (a : BitVec 5) (b : BitVec 5)
  /-- VSEL (R261). -/
  | vsel (d : BitVec 5) (a : BitVec 5) (b : BitVec 5)
  /-- VREC (R264). -/
  | vrec (d : BitVec 5) (a : BitVec 5) (b : BitVec 5)
  /-- VEMA (R264). -/
  | vema (d : BitVec 5) (b : BitVec 5)
  /-- VMOVX (R262). -/
  | vmovx (d : BitVec 5) (a : BitVec 5) (b : BitVec 5)
  /-- VMOVV (R262). -/
  | vmovv (d : BitVec 5) (a : BitVec 5)
  /-- VSPLAT (R262). -/
  | vsplat (d : BitVec 5) (a : BitVec 5)
  /-- VLOOP (R247). -/
  | vloop (d : BitVec 5) (a : BitVec 5)
  /-- MCFG (R358). -/
  | mcfg (a : BitVec 4)
  /-- MLDA (R359). -/
  | mlda (a : BitVec 4)
  /-- MLDB (R361). -/
  | mldb (a : BitVec 4) (w : BitVec 6)
  /-- MMA (R363). -/
  | mma (t : BitVec 6) (w : BitVec 6)
  /-- MMAS (R363). -/
  | mmas (t : BitVec 6) (w : BitVec 6)
  /-- MROT (R364). -/
  | mrot (t : BitVec 6) (w : BitVec 6)
  /-- MDQ (R378). -/
  | mdq (a : BitVec 4)
  /-- MDELTA (R379). -/
  | mdelta (t : BitVec 6) (a : BitVec 4) (w : BitVec 6)
  /-- MZERO (R366). -/
  | mzero (t : BitVec 6)
  /-- MST (R366). -/
  | mst (t : BitVec 6) (a : BitVec 4) (w : BitVec 4)
  /-- MSCALE (R367). -/
  | mscale (t : BitVec 6) (w : BitVec 5)
  /-- MRED_MAX (R368). -/
  | mredMax (t : BitVec 6) (w : BitVec 5)
  /-- MRED_SUM (R368). -/
  | mredSum (t : BitVec 6) (w : BitVec 5)
  /-- MCHK (R369). -/
  | mchk (a : BitVec 4)
  /-- NOP (R130). -/
  | nop
  /-- SYNCI (R200). -/
  | synci
  /-- EXIT (R304). -/
  | exit
  /-- YIELD (R306). -/
  | yield
  /-- TRET (R152). -/
  | tret
  /-- HALT (R153). -/
  | halt
  /-- REFLEX_RELEASE (R385). -/
  | reflexRelease
  /-- SHADOW_BANK_SWITCH (R16). -/
  | shadowBankSwitch
  /-- DEADLINE_MISS (R387). -/
  | deadlineMiss
  /-- BUDGET_EXCEEDED (R386). -/
  | budgetExceeded
  /-- STARVATION_GUARD (R38). -/
  | starvationGuard
  /-- ADMISSION (R35). -/
  | admission
  /-- TASK_DISPATCH (R27). -/
  | taskDispatch
  /-- BANK_RELEASE (R304). -/
  | bankRelease
  /-- CLEARING (R37). -/
  | clearing
  /-- PROGRAM_COMPLETION (R318). -/
  | programCompletion
  /-- MIGRATION_ARRIVAL (R41). -/
  | migrationArrival
  /-- MIGRATION_RESEND (R42). -/
  | migrationResend
  /-- PREEMPTION (R44). -/
  | preemption
  /-- SEIZE (R47). -/
  | seize
  /-- CONTEXT_STREAM_END (R46). -/
  | contextStreamEnd
  /-- RESTORE (R45). -/
  | restore
  /-- RETRY_RESEND (R45). -/
  | retryResend
  /-- STAKE_REQUEST (R49). -/
  | stakeRequest
  /-- STAKE_GRANT (R316). -/
  | stakeGrant
  /-- STANDBY_MASK_WRITE (R392). -/
  | standbyMaskWrite
  /-- MAILBOX_ARRIVAL (R273). -/
  | mailboxArrival
  /-- SEND_ACKNOWLEDGEMENT (R276). -/
  | sendAcknowledgement
  /-- SAVED_CONTEXT_DELIVERY (R270). -/
  | savedContextDelivery
  /-- ALARM_FIRE (R156). -/
  | alarmFire
  /-- SLICE_REQUEST (R213). -/
  | sliceRequest
  /-- PAGE_WALK_COMPLETE (R209). -/
  | pageWalkComplete
  /-- CONFIRMATION (R169). -/
  | confirmation
  /-- ACCESS_REPLY (R168). -/
  | accessReply
  /-- TRANSLATION_FAULT (R221). -/
  | translationFault
  /-- FAULT_MESSAGE_RESEND (R221). -/
  | faultMessageResend
  /-- FAULT_REPLY_RESUME (R223). -/
  | faultReplyResume
  /-- FAULT_REPLY_RETRY_LATER (R223). -/
  | faultReplyRetryLater
  /-- FAULT_REPLY_KILL (R223). -/
  | faultReplyKill
  /-- OVERFLOW_MESSAGE (R171). -/
  | overflowMessage
  /-- OVERFLOW_RECALL (R171). -/
  | overflowRecall
  /-- OVERFLOW_RECALL_ANSWER (R171). -/
  | overflowRecallAnswer
  /-- CACHE_OP_COMPLETE (R196). -/
  | cacheOpComplete
  /-- SLICE_GATE (R166). -/
  | sliceGate
  /-- SLICE_WAKE (R166). -/
  | sliceWake
  /-- SLICE_WAKE_COMPLETE (R166). -/
  | sliceWakeComplete
  /-- SHOOTDOWN_DATA_RANGE (R215). -/
  | shootdownDataRange
  /-- SHOOTDOWN_DATA_SPACE (R215). -/
  | shootdownDataSpace
  /-- SHOOTDOWN_INSTRUCTION_RANGE (R215). -/
  | shootdownInstructionRange
  /-- SHOOTDOWN_INSTRUCTION_PROGRAM (R215). -/
  | shootdownInstructionProgram
  /-- SHOOTDOWN_EVERYTHING (R215). -/
  | shootdownEverything
  /-- SHOOTDOWN_NODE (R216). -/
  | shootdownNode
  /-- SHOOTDOWN_COMPLETION (R218). -/
  | shootdownCompletion
  /-- REGION_TABLE_UPDATE (R373). -/
  | regionTableUpdate
  /-- PEER_TRANSLATION_REQUEST (R219). -/
  | peerTranslationRequest
  /-- PEER_TRANSLATION_REPLY (R219). -/
  | peerTranslationReply
  /-- LEASE_EXPIRY (R219). -/
  | leaseExpiry
  /-- DEBUG_HALT (R235). -/
  | debugHalt
  /-- DEBUG_RESUME (R235). -/
  | debugResume
  /-- DEBUG_STEP (R235). -/
  | debugStep
  /-- DEBUG_QUIESCE (R236). -/
  | debugQuiesce
  /-- DEBUG_STATUS (R235). -/
  | debugStatus
  /-- DEBUG_DUMP (R235). -/
  | debugDump
  /-- COPY_SECTOR_REPLY (R278). -/
  | copySectorReply
  /-- COPY_COMPLETION (R278). -/
  | copyCompletion
  /-- LANDING_HANDLER_INVOCATION (R287). -/
  | landingHandlerInvocation
  /-- CPYQ_RETRY (R288). -/
  | cpyqRetry
  /-- STREAM_REFILL (R292). -/
  | streamRefill
  /-- EXCHANGE_WINDOW (R299). -/
  | exchangeWindow
  /-- EXCHANGE_ARRIVAL (R299). -/
  | exchangeArrival
  /-- BARRIER_ARRIVAL (R297). -/
  | barrierArrival
  /-- SSTEP_RELEASE (R297). -/
  | sstepRelease
  /-- SUPERSTEP_REPLAY (R402). -/
  | superstepReplay
  /-- PROBE_HOP (R309). -/
  | probeHop
  /-- AUTO_PROBE (R310). -/
  | autoProbe
  /-- XMPUB_COMMIT (R312). -/
  | xmpubCommit
  /-- XMRD_COMPLETION (R313). -/
  | xmrdCompletion
  /-- HOME_CONTROLLER_OPERATION (R331). -/
  | homeControllerOperation
  /-- HOME_CONTROLLER_REPLY (R331). -/
  | homeControllerReply
  /-- QUEUE_GRANT (R330). -/
  | queueGrant
  /-- WAITER_WITHDRAWAL (R337). -/
  | waiterWithdrawal
  /-- WAITER_RECORD_RETURN (R330). -/
  | waiterRecordReturn
  /-- CREDIT_MESSAGE (R339). -/
  | creditMessage
  /-- PEER_UNREACHABLE (R340). -/
  | peerUnreachable
  /-- SLOT_FILL_COMPLETE (R361). -/
  | slotFillComplete
  /-- ROTATION_DATA_ARRIVAL (R364). -/
  | rotationDataArrival
  /-- ROTATION_CREDIT_ARRIVAL (R364). -/
  | rotationCreditArrival
  /-- PAIR_HASH_ARRIVAL (R395). -/
  | pairHashArrival
  /-- PAIR_MATCH_TIMEOUT (R395). -/
  | pairMatchTimeout
  /-- COUNTER_SNAPSHOT (R413). -/
  | counterSnapshot
  /-- FIRMWARE_CHECKPOINT (R421). -/
  | firmwareCheckpoint
  /-- RECOVERY (R421). -/
  | recovery
  /-- RECOVERY_END (R421). -/
  | recoveryEnd
  /-- HEARTBEAT_SEND (R407). -/
  | heartbeatSend
  /-- HEARTBEAT_RECEIVE (R407). -/
  | heartbeatReceive
  /-- HEARTBEAT_MISS (R407). -/
  | heartbeatMiss
  /-- HEARTBEAT_ACK_MISS (R407). -/
  | heartbeatAckMiss
  /-- XEGAR_LINK_UP (R404). -/
  | xegarLinkUp
  /-- MIRROR_UPDATE (R405). -/
  | mirrorUpdate
  /-- HOST_QUEUE_ENQUEUE (R414). -/
  | hostQueueEnqueue
  /-- HOST_QUEUE_DEQUEUE (R414). -/
  | hostQueueDequeue
  /-- HOST_SLOT_CONTROL_READ (R415). -/
  | hostSlotControlRead
  /-- HOST_SLOT_DATA_WRITE (R415). -/
  | hostSlotDataWrite
  /-- HOST_SLOT_COMMIT (R415). -/
  | hostSlotCommit
  /-- HOST_SLOT_RELEASE (R415). -/
  | hostSlotRelease
  /-- HOST_BAR2_ACCESS (R416). -/
  | hostBar2Access
  /-- HOST_REGISTER_WRITE (R412). -/
  | hostRegisterWrite
  /-- COMMAND_DISPATCH (R34). -/
  | commandDispatch
  /-- PACKET_SIGNAL_RELEASE (R34). -/
  | packetSignalRelease
  /-- LOAD (R418). -/
  | load
  /-- LAUNCH (R419). -/
  | launch
  /-- ARM (R384). -/
  | arm
  /-- DISARM (R385). -/
  | disarm
  /-- SIGNAL (R418). -/
  | signal
  /-- MAPQ (R432). -/
  | mapq
  /-- MAPBAR (R416). -/
  | mapbar
  /-- MAPWIN (R418). -/
  | mapwin
  /-- GRANT (R311). -/
  | grant
  /-- HOLDREL (R389). -/
  | holdrel
  /-- TENANT_CREATE (R426). -/
  | tenantCreate
  /-- TENANT_DESTROY (R426). -/
  | tenantDestroy
  /-- ATTEST (R425). -/
  | attest
  /-- CAP (R428). -/
  | cap
  /-- UPDATE (R427). -/
  | update
  /-- UPDATE_COMMIT (R427). -/
  | updateCommit
  /-- UPDATE_REVERT (R427). -/
  | updateRevert
  /-- MSIX (R418). -/
  | msix
  /-- DECODE_TABLE_LOAD (R424). -/
  | decodeTableLoad
  /-- POWER_CAP_CHECK (R428). -/
  | powerCapCheck
  /-- THERM_ALERT (R428). -/
  | thermAlert
  /-- THERM_ALERT_CLEAR (R428). -/
  | thermAlertClear
  /-- PERST_N (R429). -/
  | perstN
  /-- MODULE_RESET (R429). -/
  | moduleReset
  /-- BOOT (R422). -/
  | boot
  /-- PTM_SYNCHRONISATION (R155). -/
  | ptmSynchronisation
  /-- REMOTE_ACCESS (R160). -/
  | remoteAccess
  /-- LINK_WORD_ARRIVAL (R250). -/
  | linkWordArrival
  /-- HEARTBEAT_ACKNOWLEDGEMENT (R407). -/
  | heartbeatAcknowledgement
  /-- MIRROR_ACKNOWLEDGEMENT (R405). -/
  | mirrorAcknowledgement
  deriving DecidableEq, Repr

end Sys2Proof
end

