-- ==== Sys2Proof/WellFormed.lean ====
section
/-! DEFINITION. Which instructions a word can hold: the operand limits of R62 and R68, and those of R189 (LDP), R194 (CAS),
R269 (STRM, SENDV) and R357 (MSCALE, MRED). An event of the part is held by no word. -/

namespace Sys2Proof

/-- An integer register field of 5 bits (R62). -/
def isX (r : BitVec 5) : Bool := decide (r.toNat < 16)

/-- A vector pair vN, vN + 1: N even and at most 26 (R269, R357). -/
def isPair (r : BitVec 5) : Bool := decide (r.toNat % 2 = 0) && decide (r.toNat ≤ 26)

/-- A register that STRM can bind (R269). -/
def isStream (r : BitVec 5) : Bool := decide (20 ≤ r.toNat) && decide (r.toNat ≤ 23)

/-- The CSR indices of R71. -/
def isCsr (c : BitVec 12) : Bool :=
  let n := c.toNat
  decide (n ≤ 0x007) || decide (0x100 ≤ n ∧ n ≤ 0x106) || decide (0x200 ≤ n ∧ n ≤ 0x205) ||
  decide (0x210 ≤ n ∧ n ≤ 0x215) || decide (0x300 ≤ n ∧ n ≤ 0x301) || decide (0x400 ≤ n ∧ n ≤ 0x401)

/-- The instruction is one that a word can hold. -/
def Instr.wf : Instr → Bool
  | .beq _ _ _ => true
  | .bne _ _ _ => true
  | .blt _ _ _ => true
  | .bge _ _ _ => true
  | .bltu _ _ _ => true
  | .bgeu _ _ _ => true
  | .bpt a _ => decide (a.toNat < 8)
  | .bpf a _ => decide (a.toNat < 8)
  | .j _ => true
  | .call _ => true
  | .jr a _ => isX a
  | .jalr d a _ => isX d && isX a
  | .loop d a _ => isX d && isX a
  | .liw d _ => isX d
  | .liwh d _ => isX d
  | .ld8 d a _ => isX d && isX a
  | .ld8u d a _ => isX d && isX a
  | .ld16 d a _ => isX d && isX a
  | .ld16u d a _ => isX d && isX a
  | .ld32 d a _ => isX d && isX a
  | .ld32u d a _ => isX d && isX a
  | .ld64 d a _ => isX d && isX a
  | .st8 d a _ => isX d && isX a
  | .st16 d a _ => isX d && isX a
  | .st32 d a _ => isX d && isX a
  | .st64 d a _ => isX d && isX a
  | .lda32 d a scope => isX d && isX a && decide (scope.toNat ≤ 4)
  | .lda64 d a scope => isX d && isX a && decide (scope.toNat ≤ 4)
  | .stl32 d a scope => isX d && isX a && decide (scope.toNat ≤ 4)
  | .stl64 d a scope => isX d && isX a && decide (scope.toNat ≤ 4)
  | .ldp d a _ => decide (d.toNat ≤ 14) && isX a
  | .stp d a _ => decide (d.toNat ≤ 14) && isX a
  | .ldf64 d a _ => isX d && isX a
  | .stf64 d a _ => isX d && isX a
  | .vld _ a _ => isX a
  | .vldb _ a _ => isX a
  | .vlds _ a b => isX a && isX b
  | .vldsPi _ a b => isX a && isX b
  | .vst _ a _ => isX a
  | .vstm _ a _ => isX a
  | .amoadd v a _ _ scope => isX v && isX a && decide (scope.toNat ≤ 4)
  | .amoand v a _ _ scope => isX v && isX a && decide (scope.toNat ≤ 4)
  | .amoor v a _ _ scope => isX v && v != 0 && isX a && decide (scope.toNat ≤ 4)
  | .amoorFence a _ _ scope => isX a && decide (scope.toNat ≤ 4)
  | .amoxor v a _ _ scope => isX v && isX a && decide (scope.toNat ≤ 4)
  | .amomin v a _ _ scope => isX v && isX a && decide (scope.toNat ≤ 4)
  | .amomax v a _ _ scope => isX v && isX a && decide (scope.toNat ≤ 4)
  | .amominu v a _ _ scope => isX v && isX a && decide (scope.toNat ≤ 4)
  | .amomaxu v a _ _ scope => isX v && isX a && decide (scope.toNat ≤ 4)
  | .amoswp v a _ _ scope => isX v && isX a && decide (scope.toNat ≤ 4)
  | .cas32 v a _ scope => decide (v.toNat ≤ 14) && isX a && decide (scope.toNat ≤ 4)
  | .cas64 v a _ scope => decide (v.toNat ≤ 14) && isX a && decide (scope.toNat ≤ 4)
  | .amofadd v a _ _ scope => isX v && isX a && decide (scope.toNat ≤ 4)
  | .amofmin v a _ _ scope => isX v && isX a && decide (scope.toNat ≤ 4)
  | .amofmax v a _ _ scope => isX v && isX a && decide (scope.toNat ≤ 4)
  | .cwb a => isX a
  | .cinv a => isX a
  | .cinvRc a => isX a
  | .cinvD a => isX a
  | .pref a => isX a
  | .prefSc a => isX a
  | .icinv a => isX a
  | .enq d a b => isX d && isX a && isX b
  | .enqt d a b _ => isX d && isX a && isX b
  | .deq d a b => isX d && isX a && isX b
  | .deqt d a b _ => isX d && isX a && isX b
  | .qinit d a b => isX d && isX a && isX b
  | .qstat d a b => isX d && isX a && isX b
  | .qdrain d a => isX d && isX a
  | .qreset d a => isX d && isX a
  | .pinit d a b => isX d && isX a && isX b
  | .pstat d a b => isX d && isX a && isX b
  | .balloc d a => isX d && isX a
  | .bfree d a b => isX d && isX a && isX b
  | .btapp d a => isX d && isX a
  | .btget d a b => isX d && isX a && isX b
  | .btfork d a b => isX d && isX a && isX b
  | .btrel d a => isX d && isX a
  | .send d a b => isX d && isX a && isX b
  | .sendAck d a b => isX d && isX a && isX b
  | .sendTrap d a b => isX d && isX a && isX b
  | .sendv d a b => isX d && isX a && isPair b
  | .sendvAck d a b => isX d && isX a && isPair b
  | .sendvTrap d a b => isX d && isX a && isPair b
  | .recv d a b => isX d && isX a && isX b
  | .recvt d a b => isX d && isX a && isX b
  | .cpy d a b => isX d && isX a && isX b
  | .cpy2d d a => isX d && isX a
  | .cpy2dSt d a => isX d && isX a
  | .cpyg d a b => isX d && isX a && isX b
  | .cpys d a b => isX d && isX a && isX b
  | .cpyh d a b => isX d && isX a && isX b
  | .cpyq d a b => isX d && isX a && isX b
  | .strm d a => isStream d && isX a
  | .strmW d a => isStream d && isX a
  | .strmx d => isStream d
  | .xsend a => isX a
  | .xrecv a => isX a
  | .xphase d a => isX d && isX a
  | .sstep d => isX d
  | .gjoin d a => isX d && isX a
  | .gleave d => isX d
  | .gbar d => isX d
  | .garr d => isX d
  | .gwait a => isX a
  | .spawn d a b => isX d && isX a && isX b
  | .migr a => isX a
  | .migrLd d a => isX d && isX a
  | .tgrow d a => isX d && isX a
  | .tidx d => isX d
  | .tidxNx d => isX d
  | .probe d a b => isX d && isX a && isX b
  | .xmpub d a b => isX d && isX a && isX b
  | .xmrd d a b => isX d && isX a && isX b
  | .xmrdt d a b => isX d && isX a && isX b
  | .stake d a b => isX d && isX a && isX b
  | .unstake d a => isX d && isX a
  | .lvinit d a b => isX d && isX a && isX b
  | .lvinv d a => isX d && isX a
  | .lvstat d a b => isX d && isX a && isX b
  | .wreg d a b => isX d && isX a && isX b
  | .wunreg d a => isX d && isX a
  | .ssrex d a b => isX d && isX a && isX b
  | .ssrim d a b => isX d && isX a && isX b
  | .csrr d csr => isX d && isCsr csr
  | .csrw d csr => isX d && isCsr csr
  | .csrs d csr => isX d && isCsr csr
  | .csrc d csr => isX d && isCsr csr
  | .trap a => isX a
  | .trapBrk a => isX a
  | .time d => isX d
  | .talarm d a b => isX d && isX a && isX b
  | .add d a b => isX d && isX a && isX b
  | .sub d a b => isX d && isX a && isX b
  | .and d a b => isX d && isX a && isX b
  | .or d a b => isX d && isX a && isX b
  | .xor d a b => isX d && isX a && isX b
  | .sll d a b => isX d && isX a && isX b
  | .srl d a b => isX d && isX a && isX b
  | .sra d a b => isX d && isX a && isX b
  | .slt d a b => isX d && isX a && isX b
  | .sltu d a b => isX d && isX a && isX b
  | .min d a b => isX d && isX a && isX b
  | .max d a b => isX d && isX a && isX b
  | .minu d a b => isX d && isX a && isX b
  | .maxu d a b => isX d && isX a && isX b
  | .addi d a _ => isX d && isX a
  | .andi d a _ => isX d && isX a
  | .ori d a _ => isX d && isX a
  | .xori d a _ => isX d && isX a
  | .slli d a _ => isX d && isX a
  | .srli d a _ => isX d && isX a
  | .srai d a _ => isX d && isX a
  | .slti d a _ => isX d && isX a
  | .mul d a b => isX d && isX a && isX b
  | .mulh d a b => isX d && isX a && isX b
  | .mulhu d a b => isX d && isX a && isX b
  | .div d a b => isX d && isX a && isX b
  | .divu d a b => isX d && isX a && isX b
  | .rem d a b => isX d && isX a && isX b
  | .remu d a b => isX d && isX a && isX b
  | .lui d _ => isX d
  | .addpc d _ => isX d
  | .clz d a => isX d && isX a
  | .ctz d a => isX d && isX a
  | .popc d a => isX d && isX a
  | .bswap d a => isX d && isX a
  | .peq d a b => decide (d.toNat < 8) && isX a && isX b
  | .pne d a b => decide (d.toNat < 8) && isX a && isX b
  | .plt d a b => decide (d.toNat < 8) && isX a && isX b
  | .pge d a b => decide (d.toNat < 8) && isX a && isX b
  | .pltu d a b => decide (d.toNat < 8) && isX a && isX b
  | .pgeu d a b => decide (d.toNat < 8) && isX a && isX b
  | .pand d a b => decide (d.toNat < 8) && decide (a.toNat < 8) && decide (b.toNat < 8)
  | .por d a b => decide (d.toNat < 8) && decide (a.toNat < 8) && decide (b.toNat < 8)
  | .pxor d a b => decide (d.toNat < 8) && decide (a.toNat < 8) && decide (b.toNat < 8)
  | .pnot d a => decide (d.toNat < 8) && decide (a.toNat < 8)
  | .sel d a b => isX d && isX a && isX b
  | .movpw d => isX d
  | .movwp a => isX a
  | .addsh d a b => isX d && isX a && isX b
  | .part d a b => isX d && isX a && isX b
  | .vadd _ _ _ => true
  | .vsub _ _ _ => true
  | .vmul _ _ _ => true
  | .vmin _ _ _ => true
  | .vmax _ _ _ => true
  | .vand _ _ _ => true
  | .vor _ _ _ => true
  | .vxor _ _ _ => true
  | .vshl _ _ _ => true
  | .vshr _ _ _ => true
  | .vsra _ _ _ => true
  | .vfadd _ _ _ => true
  | .vfsub _ _ _ => true
  | .vfmul _ _ _ => true
  | .vfma _ _ _ => true
  | .vfmin _ _ _ => true
  | .vfmax _ _ _ => true
  | .vfabs _ _ => true
  | .vfneg _ _ => true
  | .vrcp _ _ => true
  | .vrsq _ _ => true
  | .vsqrt _ _ => true
  | .vexp2 _ _ => true
  | .vlog2 _ _ => true
  | .vdiv _ _ _ => true
  | .vcvt _ _ _ => true
  | .vcvts _ _ _ => true
  | .vqnt _ _ _ => true
  | .vrsum _ _ _ => true
  | .vrmax _ _ _ => true
  | .vrmin _ _ _ => true
  | .vshuf _ _ _ => true
  | .vbcast _ _ _ => true
  | .vext d _ _ => isX d
  | .vins _ a _ => isX a
  | .vcmp _ _ _ => true
  | .vsel _ _ _ => true
  | .vrec _ _ b => isX b
  | .vema _ b => isX b
  | .vmovx _ a b => isX a && isX b
  | .vmovv _ _ => true
  | .vsplat _ a => isX a
  | .vloop _ a => isX a
  | .mcfg _ => true
  | .mlda _ => true
  | .mldb _ _ => true
  | .mma _ _ => true
  | .mmas _ _ => true
  | .mrot _ _ => true
  | .mdq _ => true
  | .mdelta _ _ _ => true
  | .mzero _ => true
  | .mst _ _ _ => true
  | .mscale _ w => isPair w
  | .mredMax _ w => isPair w
  | .mredSum _ w => isPair w
  | .mchk _ => true
  | .nop => true
  | .synci => true
  | .exit => true
  | .yield => true
  | .tret => true
  | .halt => true
  | .reflexRelease => false
  | .shadowBankSwitch => false
  | .deadlineMiss => false
  | .budgetExceeded => false
  | .starvationGuard => false
  | .admission => false
  | .taskDispatch => false
  | .bankRelease => false
  | .clearing => false
  | .programCompletion => false
  | .migrationArrival => false
  | .migrationResend => false
  | .preemption => false
  | .seize => false
  | .contextStreamEnd => false
  | .restore => false
  | .retryResend => false
  | .stakeRequest => false
  | .stakeGrant => false
  | .standbyMaskWrite => false
  | .mailboxArrival => false
  | .sendAcknowledgement => false
  | .savedContextDelivery => false
  | .alarmFire => false
  | .sliceRequest => false
  | .pageWalkComplete => false
  | .confirmation => false
  | .accessReply => false
  | .translationFault => false
  | .faultMessageResend => false
  | .faultReplyResume => false
  | .faultReplyRetryLater => false
  | .faultReplyKill => false
  | .overflowMessage => false
  | .overflowRecall => false
  | .overflowRecallAnswer => false
  | .cacheOpComplete => false
  | .sliceGate => false
  | .sliceWake => false
  | .sliceWakeComplete => false
  | .shootdownDataRange => false
  | .shootdownDataSpace => false
  | .shootdownInstructionRange => false
  | .shootdownInstructionProgram => false
  | .shootdownEverything => false
  | .shootdownNode => false
  | .shootdownCompletion => false
  | .regionTableUpdate => false
  | .peerTranslationRequest => false
  | .peerTranslationReply => false
  | .leaseExpiry => false
  | .debugHalt => false
  | .debugResume => false
  | .debugStep => false
  | .debugQuiesce => false
  | .debugStatus => false
  | .debugDump => false
  | .copySectorReply => false
  | .copyCompletion => false
  | .landingHandlerInvocation => false
  | .cpyqRetry => false
  | .streamRefill => false
  | .exchangeWindow => false
  | .exchangeArrival => false
  | .barrierArrival => false
  | .sstepRelease => false
  | .superstepReplay => false
  | .probeHop => false
  | .autoProbe => false
  | .xmpubCommit => false
  | .xmrdCompletion => false
  | .homeControllerOperation => false
  | .homeControllerReply => false
  | .queueGrant => false
  | .waiterWithdrawal => false
  | .waiterRecordReturn => false
  | .creditMessage => false
  | .peerUnreachable => false
  | .slotFillComplete => false
  | .rotationDataArrival => false
  | .rotationCreditArrival => false
  | .pairHashArrival => false
  | .pairMatchTimeout => false
  | .counterSnapshot => false
  | .firmwareCheckpoint => false
  | .recovery => false
  | .recoveryEnd => false
  | .heartbeatSend => false
  | .heartbeatReceive => false
  | .heartbeatMiss => false
  | .heartbeatAckMiss => false
  | .xegarLinkUp => false
  | .mirrorUpdate => false
  | .hostQueueEnqueue => false
  | .hostQueueDequeue => false
  | .hostSlotControlRead => false
  | .hostSlotDataWrite => false
  | .hostSlotCommit => false
  | .hostSlotRelease => false
  | .hostBar2Access => false
  | .hostRegisterWrite => false
  | .commandDispatch => false
  | .packetSignalRelease => false
  | .load => false
  | .launch => false
  | .arm => false
  | .disarm => false
  | .signal => false
  | .mapq => false
  | .mapbar => false
  | .mapwin => false
  | .grant => false
  | .holdrel => false
  | .tenantCreate => false
  | .tenantDestroy => false
  | .attest => false
  | .cap => false
  | .update => false
  | .updateCommit => false
  | .updateRevert => false
  | .msix => false
  | .decodeTableLoad => false
  | .powerCapCheck => false
  | .thermAlert => false
  | .thermAlertClear => false
  | .perstN => false
  | .moduleReset => false
  | .boot => false
  | .ptmSynchronisation => false
  | .remoteAccess => false
  | .linkWordArrival => false
  | .heartbeatAcknowledgement => false
  | .mirrorAcknowledgement => false

end Sys2Proof
end

