-- ==== Sys2Proof/Decode.lean ====
section
/-! DEFINITION. Words to instructions and back (R53, R60-R68). A word is S, guard G and the 27-bit code: OP and the
operand fields of its layout. Decoding is total; a code that is no instruction is refused by the name of its trap (R68),
the opcode cases before the operand cases (R69). -/

namespace Sys2Proof

/-- The two fates of R68. -/
inductive DecodeError where
  | illegalOpcode | illegalOperand
  deriving DecidableEq, Repr

/-- Accept `i` when its zero fields are zero and its operands are within their limits, else ILLEGAL_OPERAND (R68). -/
def accept (zeros : Bool) (i : Instr) : Except DecodeError Instr :=
  if zeros && i.wf then .ok i else .error .illegalOperand

/-- OP 0x00 of R66. -/
def decode00 (c : BitVec 20) : Except DecodeError Instr :=
  accept (c.extractLsb' 0 20 == 0#20) (.nop)

/-- OP 0x01 of R66. -/
def decode01 (c : BitVec 20) : Except DecodeError Instr :=
  match (c.extractLsb' 9 3).toNat with
  | 0 => accept (true) (.beq (c.extractLsb' 16 4) (c.extractLsb' 12 4) (c.extractLsb' 0 9))
  | 1 => accept (true) (.bne (c.extractLsb' 16 4) (c.extractLsb' 12 4) (c.extractLsb' 0 9))
  | 2 => accept (true) (.blt (c.extractLsb' 16 4) (c.extractLsb' 12 4) (c.extractLsb' 0 9))
  | 3 => accept (true) (.bge (c.extractLsb' 16 4) (c.extractLsb' 12 4) (c.extractLsb' 0 9))
  | 4 => accept (true) (.bltu (c.extractLsb' 16 4) (c.extractLsb' 12 4) (c.extractLsb' 0 9))
  | 5 => accept (true) (.bgeu (c.extractLsb' 16 4) (c.extractLsb' 12 4) (c.extractLsb' 0 9))
  | _ => .error .illegalOpcode

/-- OP 0x02 of R66. -/
def decode02 (c : BitVec 20) : Except DecodeError Instr :=
  match (c.extractLsb' 9 3).toNat with
  | 0 => accept (c.extractLsb' 12 4 == 0#4) (.bpt (c.extractLsb' 16 4) (c.extractLsb' 0 9))
  | 1 => accept (c.extractLsb' 12 4 == 0#4) (.bpf (c.extractLsb' 16 4) (c.extractLsb' 0 9))
  | _ => .error .illegalOpcode

/-- OP 0x03 of R66. -/
def decode03 (c : BitVec 20) : Except DecodeError Instr :=
  accept (true) (.j (c.extractLsb' 0 20))

/-- OP 0x04 of R66. -/
def decode04 (c : BitVec 20) : Except DecodeError Instr :=
  accept (true) (.call (c.extractLsb' 0 20))

/-- OP 0x05 of R66. -/
def decode05 (c : BitVec 20) : Except DecodeError Instr :=
  match (c.extractLsb' 7 3).toNat with
  | 0 => accept (c.extractLsb' 15 5 == 0#5) (.jr (c.extractLsb' 10 5) (c.extractLsb' 0 7))
  | 1 => accept (true) (.jalr (c.extractLsb' 15 5) (c.extractLsb' 10 5) (c.extractLsb' 0 7))
  | _ => .error .illegalOpcode

/-- OP 0x06 of R66. -/
def decode06 (c : BitVec 20) : Except DecodeError Instr :=
  match (c.extractLsb' 7 3).toNat with
  | 0 => accept (true) (.loop (c.extractLsb' 15 5) (c.extractLsb' 10 5) (c.extractLsb' 0 7))
  | _ => .error .illegalOpcode

/-- OP 0x07 of R66. -/
def decode07 (c : BitVec 20) (lit : BitVec 32) : Except DecodeError Instr :=
  match (c.extractLsb' 14 1).toNat with
  | 0 => accept (c.extractLsb' 0 14 == 0#14) (.liw (c.extractLsb' 15 5) lit)
  | 1 => accept (c.extractLsb' 0 14 == 0#14) (.liwh (c.extractLsb' 15 5) lit)
  | _ => .error .illegalOpcode

/-- OP 0x08 of R66. -/
def decode08 (c : BitVec 20) : Except DecodeError Instr :=
  match (c.extractLsb' 7 3).toNat with
  | 0 => accept (true) (.ld8 (c.extractLsb' 15 5) (c.extractLsb' 10 5) (c.extractLsb' 0 7))
  | 1 => accept (true) (.ld8u (c.extractLsb' 15 5) (c.extractLsb' 10 5) (c.extractLsb' 0 7))
  | 2 => accept (true) (.ld16 (c.extractLsb' 15 5) (c.extractLsb' 10 5) (c.extractLsb' 0 7))
  | 3 => accept (true) (.ld16u (c.extractLsb' 15 5) (c.extractLsb' 10 5) (c.extractLsb' 0 7))
  | 4 => accept (true) (.ld32 (c.extractLsb' 15 5) (c.extractLsb' 10 5) (c.extractLsb' 0 7))
  | 5 => accept (true) (.ld32u (c.extractLsb' 15 5) (c.extractLsb' 10 5) (c.extractLsb' 0 7))
  | 6 => accept (true) (.ld64 (c.extractLsb' 15 5) (c.extractLsb' 10 5) (c.extractLsb' 0 7))
  | _ => .error .illegalOpcode

/-- OP 0x09 of R66. -/
def decode09 (c : BitVec 20) : Except DecodeError Instr :=
  match (c.extractLsb' 7 3).toNat with
  | 0 => accept (true) (.st8 (c.extractLsb' 15 5) (c.extractLsb' 10 5) (c.extractLsb' 0 7))
  | 1 => accept (true) (.st16 (c.extractLsb' 15 5) (c.extractLsb' 10 5) (c.extractLsb' 0 7))
  | 2 => accept (true) (.st32 (c.extractLsb' 15 5) (c.extractLsb' 10 5) (c.extractLsb' 0 7))
  | 3 => accept (true) (.st64 (c.extractLsb' 15 5) (c.extractLsb' 10 5) (c.extractLsb' 0 7))
  | _ => .error .illegalOpcode

/-- OP 0x0A of R66. -/
def decode0A (c : BitVec 20) : Except DecodeError Instr :=
  match (c.extractLsb' 8 2).toNat with
  | 0 => accept (c.extractLsb' 0 5 == 0#5) (.lda32 (c.extractLsb' 15 5) (c.extractLsb' 10 5) (c.extractLsb' 5 3))
  | 1 => accept (c.extractLsb' 0 5 == 0#5) (.lda64 (c.extractLsb' 15 5) (c.extractLsb' 10 5) (c.extractLsb' 5 3))
  | _ => .error .illegalOpcode

/-- OP 0x0B of R66. -/
def decode0B (c : BitVec 20) : Except DecodeError Instr :=
  match (c.extractLsb' 8 2).toNat with
  | 0 => accept (c.extractLsb' 0 5 == 0#5) (.stl32 (c.extractLsb' 15 5) (c.extractLsb' 10 5) (c.extractLsb' 5 3))
  | 1 => accept (c.extractLsb' 0 5 == 0#5) (.stl64 (c.extractLsb' 15 5) (c.extractLsb' 10 5) (c.extractLsb' 5 3))
  | _ => .error .illegalOpcode

/-- OP 0x0C of R66. -/
def decode0C (c : BitVec 20) : Except DecodeError Instr :=
  match (c.extractLsb' 7 3).toNat with
  | 0 => accept (true) (.ldp (c.extractLsb' 15 5) (c.extractLsb' 10 5) (c.extractLsb' 0 7))
  | 1 => accept (true) (.stp (c.extractLsb' 15 5) (c.extractLsb' 10 5) (c.extractLsb' 0 7))
  | _ => .error .illegalOpcode

/-- OP 0x0D of R66. -/
def decode0D (c : BitVec 20) : Except DecodeError Instr :=
  match (c.extractLsb' 7 3).toNat with
  | 0 => accept (true) (.ldf64 (c.extractLsb' 15 5) (c.extractLsb' 10 5) (c.extractLsb' 0 7))
  | 1 => accept (true) (.stf64 (c.extractLsb' 15 5) (c.extractLsb' 10 5) (c.extractLsb' 0 7))
  | _ => .error .illegalOpcode

/-- OP 0x0E of R66. -/
def decode0E (c : BitVec 20) : Except DecodeError Instr :=
  match (c.extractLsb' 7 3).toNat with
  | 0 => accept (true) (.vld (c.extractLsb' 15 5) (c.extractLsb' 10 5) (c.extractLsb' 0 7))
  | 1 => accept (true) (.vldb (c.extractLsb' 15 5) (c.extractLsb' 10 5) (c.extractLsb' 0 7))
  | 2 => match (c.extractLsb' 0 2).toNat with
    | 0 => accept (true) (.vlds (c.extractLsb' 15 5) (c.extractLsb' 10 5) (c.extractLsb' 2 5))
    | 1 => accept (true) (.vldsPi (c.extractLsb' 15 5) (c.extractLsb' 10 5) (c.extractLsb' 2 5))
    | _ => .error .illegalOperand
  | _ => .error .illegalOpcode

/-- OP 0x0F of R66. -/
def decode0F (c : BitVec 20) : Except DecodeError Instr :=
  match (c.extractLsb' 7 3).toNat with
  | 0 => accept (true) (.vst (c.extractLsb' 15 5) (c.extractLsb' 10 5) (c.extractLsb' 0 7))
  | 1 => accept (c.extractLsb' 0 2 == 0#2) (.vstm (c.extractLsb' 15 5) (c.extractLsb' 10 5) (c.extractLsb' 2 5))
  | _ => .error .illegalOpcode

/-- OP 0x10 of R66. -/
def decode10 (c : BitVec 20) : Except DecodeError Instr :=
  match (c.extractLsb' 6 4).toNat with
  | 0 => accept (true) (.amoadd (c.extractLsb' 15 5) (c.extractLsb' 10 5) (c.extractLsb' 5 1) (c.extractLsb' 3 2) (c.extractLsb' 0 3))
  | 1 => accept (true) (.amoand (c.extractLsb' 15 5) (c.extractLsb' 10 5) (c.extractLsb' 5 1) (c.extractLsb' 3 2) (c.extractLsb' 0 3))
  | 2 => if c.extractLsb' 15 5 == 0#5 then accept (true) (.amoorFence (c.extractLsb' 10 5) (c.extractLsb' 5 1) (c.extractLsb' 3 2) (c.extractLsb' 0 3))
    else accept (true) (.amoor (c.extractLsb' 15 5) (c.extractLsb' 10 5) (c.extractLsb' 5 1) (c.extractLsb' 3 2) (c.extractLsb' 0 3))
  | 3 => accept (true) (.amoxor (c.extractLsb' 15 5) (c.extractLsb' 10 5) (c.extractLsb' 5 1) (c.extractLsb' 3 2) (c.extractLsb' 0 3))
  | 4 => accept (true) (.amomin (c.extractLsb' 15 5) (c.extractLsb' 10 5) (c.extractLsb' 5 1) (c.extractLsb' 3 2) (c.extractLsb' 0 3))
  | 5 => accept (true) (.amomax (c.extractLsb' 15 5) (c.extractLsb' 10 5) (c.extractLsb' 5 1) (c.extractLsb' 3 2) (c.extractLsb' 0 3))
  | 6 => accept (true) (.amominu (c.extractLsb' 15 5) (c.extractLsb' 10 5) (c.extractLsb' 5 1) (c.extractLsb' 3 2) (c.extractLsb' 0 3))
  | 7 => accept (true) (.amomaxu (c.extractLsb' 15 5) (c.extractLsb' 10 5) (c.extractLsb' 5 1) (c.extractLsb' 3 2) (c.extractLsb' 0 3))
  | 8 => accept (true) (.amoswp (c.extractLsb' 15 5) (c.extractLsb' 10 5) (c.extractLsb' 5 1) (c.extractLsb' 3 2) (c.extractLsb' 0 3))
  | _ => .error .illegalOpcode

/-- OP 0x11 of R66. -/
def decode11 (c : BitVec 20) : Except DecodeError Instr :=
  match (c.extractLsb' 6 4).toNat with
  | 0 => accept (c.extractLsb' 5 1 == 0#1) (.cas32 (c.extractLsb' 15 5) (c.extractLsb' 10 5) (c.extractLsb' 3 2) (c.extractLsb' 0 3))
  | 1 => accept (c.extractLsb' 5 1 == 0#1) (.cas64 (c.extractLsb' 15 5) (c.extractLsb' 10 5) (c.extractLsb' 3 2) (c.extractLsb' 0 3))
  | _ => .error .illegalOpcode

/-- OP 0x12 of R66. -/
def decode12 (c : BitVec 20) : Except DecodeError Instr :=
  match (c.extractLsb' 6 4).toNat with
  | 0 => accept (true) (.amofadd (c.extractLsb' 15 5) (c.extractLsb' 10 5) (c.extractLsb' 5 1) (c.extractLsb' 3 2) (c.extractLsb' 0 3))
  | 1 => accept (true) (.amofmin (c.extractLsb' 15 5) (c.extractLsb' 10 5) (c.extractLsb' 5 1) (c.extractLsb' 3 2) (c.extractLsb' 0 3))
  | 2 => accept (true) (.amofmax (c.extractLsb' 15 5) (c.extractLsb' 10 5) (c.extractLsb' 5 1) (c.extractLsb' 3 2) (c.extractLsb' 0 3))
  | _ => .error .illegalOpcode

/-- OP 0x13 of R66. -/
def decode13 (c : BitVec 20) : Except DecodeError Instr :=
  match (c.extractLsb' 2 3).toNat with
  | 0 => accept (c.extractLsb' 15 5 == 0#5 && c.extractLsb' 5 5 == 0#5 && c.extractLsb' 0 2 == 0#2) (.cwb (c.extractLsb' 10 5))
  | 1 => match (c.extractLsb' 0 2).toNat with
    | 0 => accept (c.extractLsb' 15 5 == 0#5 && c.extractLsb' 5 5 == 0#5) (.cinv (c.extractLsb' 10 5))
    | 1 => accept (c.extractLsb' 15 5 == 0#5 && c.extractLsb' 5 5 == 0#5) (.cinvRc (c.extractLsb' 10 5))
    | 2 => accept (c.extractLsb' 15 5 == 0#5 && c.extractLsb' 5 5 == 0#5) (.cinvD (c.extractLsb' 10 5))
    | _ => .error .illegalOperand
  | 2 => match (c.extractLsb' 0 2).toNat with
    | 0 => accept (c.extractLsb' 15 5 == 0#5 && c.extractLsb' 5 5 == 0#5) (.pref (c.extractLsb' 10 5))
    | 1 => accept (c.extractLsb' 15 5 == 0#5 && c.extractLsb' 5 5 == 0#5) (.prefSc (c.extractLsb' 10 5))
    | _ => .error .illegalOperand
  | 3 => accept (c.extractLsb' 15 5 == 0#5 && c.extractLsb' 5 5 == 0#5 && c.extractLsb' 0 2 == 0#2) (.icinv (c.extractLsb' 10 5))
  | 4 => accept (c.extractLsb' 15 5 == 0#5 && c.extractLsb' 10 5 == 0#5 && c.extractLsb' 5 5 == 0#5 && c.extractLsb' 0 2 == 0#2) (.synci)
  | _ => .error .illegalOpcode

/-- OP 0x14 of R66. -/
def decode14 (c : BitVec 20) : Except DecodeError Instr :=
  match (c.extractLsb' 2 3).toNat with
  | 0 => accept (c.extractLsb' 0 2 == 0#2) (.enq (c.extractLsb' 15 5) (c.extractLsb' 10 5) (c.extractLsb' 5 5))
  | 1 => accept (true) (.enqt (c.extractLsb' 15 5) (c.extractLsb' 10 5) (c.extractLsb' 5 5) (c.extractLsb' 0 2))
  | _ => .error .illegalOpcode

/-- OP 0x15 of R66. -/
def decode15 (c : BitVec 20) : Except DecodeError Instr :=
  match (c.extractLsb' 2 3).toNat with
  | 0 => accept (c.extractLsb' 0 2 == 0#2) (.deq (c.extractLsb' 15 5) (c.extractLsb' 10 5) (c.extractLsb' 5 5))
  | 1 => accept (true) (.deqt (c.extractLsb' 15 5) (c.extractLsb' 10 5) (c.extractLsb' 5 5) (c.extractLsb' 0 2))
  | _ => .error .illegalOpcode

/-- OP 0x16 of R66. -/
def decode16 (c : BitVec 20) : Except DecodeError Instr :=
  match (c.extractLsb' 2 3).toNat with
  | 0 => accept (c.extractLsb' 0 2 == 0#2) (.qinit (c.extractLsb' 15 5) (c.extractLsb' 10 5) (c.extractLsb' 5 5))
  | 1 => accept (c.extractLsb' 0 2 == 0#2) (.qstat (c.extractLsb' 15 5) (c.extractLsb' 10 5) (c.extractLsb' 5 5))
  | 2 => accept (c.extractLsb' 5 5 == 0#5 && c.extractLsb' 0 2 == 0#2) (.qdrain (c.extractLsb' 15 5) (c.extractLsb' 10 5))
  | 3 => accept (c.extractLsb' 5 5 == 0#5 && c.extractLsb' 0 2 == 0#2) (.qreset (c.extractLsb' 15 5) (c.extractLsb' 10 5))
  | _ => .error .illegalOpcode

/-- OP 0x17 of R66. -/
def decode17 (c : BitVec 20) : Except DecodeError Instr :=
  match (c.extractLsb' 2 3).toNat with
  | 0 => accept (c.extractLsb' 0 2 == 0#2) (.pinit (c.extractLsb' 15 5) (c.extractLsb' 10 5) (c.extractLsb' 5 5))
  | 1 => accept (c.extractLsb' 0 2 == 0#2) (.pstat (c.extractLsb' 15 5) (c.extractLsb' 10 5) (c.extractLsb' 5 5))
  | 2 => accept (c.extractLsb' 5 5 == 0#5 && c.extractLsb' 0 2 == 0#2) (.balloc (c.extractLsb' 15 5) (c.extractLsb' 10 5))
  | 3 => accept (c.extractLsb' 0 2 == 0#2) (.bfree (c.extractLsb' 15 5) (c.extractLsb' 10 5) (c.extractLsb' 5 5))
  | _ => .error .illegalOpcode

/-- OP 0x18 of R66. -/
def decode18 (c : BitVec 20) : Except DecodeError Instr :=
  match (c.extractLsb' 2 3).toNat with
  | 0 => accept (c.extractLsb' 5 5 == 0#5 && c.extractLsb' 0 2 == 0#2) (.btapp (c.extractLsb' 15 5) (c.extractLsb' 10 5))
  | 1 => accept (c.extractLsb' 0 2 == 0#2) (.btget (c.extractLsb' 15 5) (c.extractLsb' 10 5) (c.extractLsb' 5 5))
  | 2 => accept (c.extractLsb' 0 2 == 0#2) (.btfork (c.extractLsb' 15 5) (c.extractLsb' 10 5) (c.extractLsb' 5 5))
  | 3 => accept (c.extractLsb' 5 5 == 0#5 && c.extractLsb' 0 2 == 0#2) (.btrel (c.extractLsb' 15 5) (c.extractLsb' 10 5))
  | _ => .error .illegalOpcode

/-- OP 0x19 of R66. -/
def decode19 (c : BitVec 20) : Except DecodeError Instr :=
  match (c.extractLsb' 2 3).toNat with
  | 0 => match (c.extractLsb' 0 2).toNat with
    | 0 => accept (true) (.send (c.extractLsb' 15 5) (c.extractLsb' 10 5) (c.extractLsb' 5 5))
    | 1 => accept (true) (.sendAck (c.extractLsb' 15 5) (c.extractLsb' 10 5) (c.extractLsb' 5 5))
    | 2 => accept (true) (.sendTrap (c.extractLsb' 15 5) (c.extractLsb' 10 5) (c.extractLsb' 5 5))
    | _ => .error .illegalOperand
  | 1 => match (c.extractLsb' 0 2).toNat with
    | 0 => accept (true) (.sendv (c.extractLsb' 15 5) (c.extractLsb' 10 5) (c.extractLsb' 5 5))
    | 1 => accept (true) (.sendvAck (c.extractLsb' 15 5) (c.extractLsb' 10 5) (c.extractLsb' 5 5))
    | 2 => accept (true) (.sendvTrap (c.extractLsb' 15 5) (c.extractLsb' 10 5) (c.extractLsb' 5 5))
    | _ => .error .illegalOperand
  | 2 => accept (c.extractLsb' 0 2 == 0#2) (.recv (c.extractLsb' 15 5) (c.extractLsb' 10 5) (c.extractLsb' 5 5))
  | 3 => accept (c.extractLsb' 0 2 == 0#2) (.recvt (c.extractLsb' 15 5) (c.extractLsb' 10 5) (c.extractLsb' 5 5))
  | _ => .error .illegalOpcode

/-- OP 0x1A of R66. -/
def decode1A (c : BitVec 20) : Except DecodeError Instr :=
  match (c.extractLsb' 2 3).toNat with
  | 0 => accept (c.extractLsb' 0 2 == 0#2) (.cpy (c.extractLsb' 15 5) (c.extractLsb' 10 5) (c.extractLsb' 5 5))
  | 1 => match (c.extractLsb' 0 2).toNat with
    | 0 => accept (c.extractLsb' 5 5 == 0#5) (.cpy2d (c.extractLsb' 15 5) (c.extractLsb' 10 5))
    | 1 => accept (c.extractLsb' 5 5 == 0#5) (.cpy2dSt (c.extractLsb' 15 5) (c.extractLsb' 10 5))
    | _ => .error .illegalOperand
  | 2 => accept (c.extractLsb' 0 2 == 0#2) (.cpyg (c.extractLsb' 15 5) (c.extractLsb' 10 5) (c.extractLsb' 5 5))
  | 3 => accept (c.extractLsb' 0 2 == 0#2) (.cpys (c.extractLsb' 15 5) (c.extractLsb' 10 5) (c.extractLsb' 5 5))
  | 4 => accept (c.extractLsb' 0 2 == 0#2) (.cpyh (c.extractLsb' 15 5) (c.extractLsb' 10 5) (c.extractLsb' 5 5))
  | 5 => accept (c.extractLsb' 0 2 == 0#2) (.cpyq (c.extractLsb' 15 5) (c.extractLsb' 10 5) (c.extractLsb' 5 5))
  | _ => .error .illegalOpcode

/-- OP 0x1B of R66. -/
def decode1B (c : BitVec 20) : Except DecodeError Instr :=
  match (c.extractLsb' 2 3).toNat with
  | 0 => match (c.extractLsb' 0 2).toNat with
    | 0 => accept (c.extractLsb' 5 5 == 0#5) (.strm (c.extractLsb' 15 5) (c.extractLsb' 10 5))
    | 1 => accept (c.extractLsb' 5 5 == 0#5) (.strmW (c.extractLsb' 15 5) (c.extractLsb' 10 5))
    | _ => .error .illegalOperand
  | 1 => accept (c.extractLsb' 10 5 == 0#5 && c.extractLsb' 5 5 == 0#5 && c.extractLsb' 0 2 == 0#2) (.strmx (c.extractLsb' 15 5))
  | _ => .error .illegalOpcode

/-- OP 0x1C of R66. -/
def decode1C (c : BitVec 20) : Except DecodeError Instr :=
  match (c.extractLsb' 2 3).toNat with
  | 0 => accept (c.extractLsb' 15 5 == 0#5 && c.extractLsb' 5 5 == 0#5 && c.extractLsb' 0 2 == 0#2) (.xsend (c.extractLsb' 10 5))
  | 1 => accept (c.extractLsb' 15 5 == 0#5 && c.extractLsb' 5 5 == 0#5 && c.extractLsb' 0 2 == 0#2) (.xrecv (c.extractLsb' 10 5))
  | 2 => accept (c.extractLsb' 5 5 == 0#5 && c.extractLsb' 0 2 == 0#2) (.xphase (c.extractLsb' 15 5) (c.extractLsb' 10 5))
  | 3 => accept (c.extractLsb' 10 5 == 0#5 && c.extractLsb' 5 5 == 0#5 && c.extractLsb' 0 2 == 0#2) (.sstep (c.extractLsb' 15 5))
  | _ => .error .illegalOpcode

/-- OP 0x1D of R66. -/
def decode1D (c : BitVec 20) : Except DecodeError Instr :=
  match (c.extractLsb' 2 3).toNat with
  | 0 => accept (c.extractLsb' 5 5 == 0#5 && c.extractLsb' 0 2 == 0#2) (.gjoin (c.extractLsb' 15 5) (c.extractLsb' 10 5))
  | 1 => accept (c.extractLsb' 10 5 == 0#5 && c.extractLsb' 5 5 == 0#5 && c.extractLsb' 0 2 == 0#2) (.gleave (c.extractLsb' 15 5))
  | 2 => accept (c.extractLsb' 10 5 == 0#5 && c.extractLsb' 5 5 == 0#5 && c.extractLsb' 0 2 == 0#2) (.gbar (c.extractLsb' 15 5))
  | 3 => accept (c.extractLsb' 10 5 == 0#5 && c.extractLsb' 5 5 == 0#5 && c.extractLsb' 0 2 == 0#2) (.garr (c.extractLsb' 15 5))
  | 4 => accept (c.extractLsb' 15 5 == 0#5 && c.extractLsb' 5 5 == 0#5 && c.extractLsb' 0 2 == 0#2) (.gwait (c.extractLsb' 10 5))
  | _ => .error .illegalOpcode

/-- OP 0x1E of R66. -/
def decode1E (c : BitVec 20) : Except DecodeError Instr :=
  match (c.extractLsb' 2 3).toNat with
  | 0 => accept (c.extractLsb' 0 2 == 0#2) (.spawn (c.extractLsb' 15 5) (c.extractLsb' 10 5) (c.extractLsb' 5 5))
  | 1 => accept (c.extractLsb' 15 5 == 0#5 && c.extractLsb' 10 5 == 0#5 && c.extractLsb' 5 5 == 0#5 && c.extractLsb' 0 2 == 0#2) (.exit)
  | 2 => match (c.extractLsb' 0 2).toNat with
    | 0 => accept (c.extractLsb' 15 5 == 0#5 && c.extractLsb' 5 5 == 0#5) (.migr (c.extractLsb' 10 5))
    | 1 => accept (c.extractLsb' 5 5 == 0#5) (.migrLd (c.extractLsb' 15 5) (c.extractLsb' 10 5))
    | _ => .error .illegalOperand
  | 3 => accept (c.extractLsb' 15 5 == 0#5 && c.extractLsb' 10 5 == 0#5 && c.extractLsb' 5 5 == 0#5 && c.extractLsb' 0 2 == 0#2) (.yield)
  | _ => .error .illegalOpcode

/-- OP 0x1F of R66. -/
def decode1F (c : BitVec 20) : Except DecodeError Instr :=
  match (c.extractLsb' 2 3).toNat with
  | 0 => accept (c.extractLsb' 5 5 == 0#5 && c.extractLsb' 0 2 == 0#2) (.tgrow (c.extractLsb' 15 5) (c.extractLsb' 10 5))
  | 1 => match (c.extractLsb' 0 2).toNat with
    | 0 => accept (c.extractLsb' 10 5 == 0#5 && c.extractLsb' 5 5 == 0#5) (.tidx (c.extractLsb' 15 5))
    | 1 => accept (c.extractLsb' 10 5 == 0#5 && c.extractLsb' 5 5 == 0#5) (.tidxNx (c.extractLsb' 15 5))
    | _ => .error .illegalOperand
  | 2 => accept (c.extractLsb' 0 2 == 0#2) (.probe (c.extractLsb' 15 5) (c.extractLsb' 10 5) (c.extractLsb' 5 5))
  | _ => .error .illegalOpcode

/-- OP 0x20 of R66. -/
def decode20 (c : BitVec 20) : Except DecodeError Instr :=
  match (c.extractLsb' 2 3).toNat with
  | 0 => accept (c.extractLsb' 0 2 == 0#2) (.xmpub (c.extractLsb' 15 5) (c.extractLsb' 10 5) (c.extractLsb' 5 5))
  | 1 => accept (c.extractLsb' 0 2 == 0#2) (.xmrd (c.extractLsb' 15 5) (c.extractLsb' 10 5) (c.extractLsb' 5 5))
  | 2 => accept (c.extractLsb' 0 2 == 0#2) (.xmrdt (c.extractLsb' 15 5) (c.extractLsb' 10 5) (c.extractLsb' 5 5))
  | _ => .error .illegalOpcode

/-- OP 0x21 of R66. -/
def decode21 (c : BitVec 20) : Except DecodeError Instr :=
  match (c.extractLsb' 2 3).toNat with
  | 0 => accept (c.extractLsb' 0 2 == 0#2) (.stake (c.extractLsb' 15 5) (c.extractLsb' 10 5) (c.extractLsb' 5 5))
  | 1 => accept (c.extractLsb' 5 5 == 0#5 && c.extractLsb' 0 2 == 0#2) (.unstake (c.extractLsb' 15 5) (c.extractLsb' 10 5))
  | _ => .error .illegalOpcode

/-- OP 0x22 of R66. -/
def decode22 (c : BitVec 20) : Except DecodeError Instr :=
  match (c.extractLsb' 2 3).toNat with
  | 0 => accept (c.extractLsb' 0 2 == 0#2) (.lvinit (c.extractLsb' 15 5) (c.extractLsb' 10 5) (c.extractLsb' 5 5))
  | 1 => accept (c.extractLsb' 5 5 == 0#5 && c.extractLsb' 0 2 == 0#2) (.lvinv (c.extractLsb' 15 5) (c.extractLsb' 10 5))
  | 2 => accept (c.extractLsb' 0 2 == 0#2) (.lvstat (c.extractLsb' 15 5) (c.extractLsb' 10 5) (c.extractLsb' 5 5))
  | _ => .error .illegalOpcode

/-- OP 0x23 of R66. -/
def decode23 (c : BitVec 20) : Except DecodeError Instr :=
  match (c.extractLsb' 2 3).toNat with
  | 0 => accept (c.extractLsb' 0 2 == 0#2) (.wreg (c.extractLsb' 15 5) (c.extractLsb' 10 5) (c.extractLsb' 5 5))
  | 1 => accept (c.extractLsb' 5 5 == 0#5 && c.extractLsb' 0 2 == 0#2) (.wunreg (c.extractLsb' 15 5) (c.extractLsb' 10 5))
  | _ => .error .illegalOpcode

/-- OP 0x24 of R66. -/
def decode24 (c : BitVec 20) : Except DecodeError Instr :=
  match (c.extractLsb' 2 3).toNat with
  | 0 => accept (c.extractLsb' 0 2 == 0#2) (.ssrex (c.extractLsb' 15 5) (c.extractLsb' 10 5) (c.extractLsb' 5 5))
  | 1 => accept (c.extractLsb' 0 2 == 0#2) (.ssrim (c.extractLsb' 15 5) (c.extractLsb' 10 5) (c.extractLsb' 5 5))
  | _ => .error .illegalOpcode

/-- OP 0x25 of R66. -/
def decode25 (c : BitVec 20) : Except DecodeError Instr :=
  match (c.extractLsb' 13 2).toNat with
  | 0 => accept (c.extractLsb' 12 1 == 0#1) (.csrr (c.extractLsb' 15 5) (c.extractLsb' 0 12))
  | 1 => accept (c.extractLsb' 12 1 == 0#1) (.csrw (c.extractLsb' 15 5) (c.extractLsb' 0 12))
  | 2 => accept (c.extractLsb' 12 1 == 0#1) (.csrs (c.extractLsb' 15 5) (c.extractLsb' 0 12))
  | 3 => accept (c.extractLsb' 12 1 == 0#1) (.csrc (c.extractLsb' 15 5) (c.extractLsb' 0 12))
  | _ => .error .illegalOpcode

/-- OP 0x26 of R66. -/
def decode26 (c : BitVec 20) : Except DecodeError Instr :=
  match (c.extractLsb' 2 3).toNat with
  | 0 => match (c.extractLsb' 0 2).toNat with
    | 0 => accept (c.extractLsb' 15 5 == 0#5 && c.extractLsb' 5 5 == 0#5) (.trap (c.extractLsb' 10 5))
    | 1 => accept (c.extractLsb' 15 5 == 0#5 && c.extractLsb' 5 5 == 0#5) (.trapBrk (c.extractLsb' 10 5))
    | _ => .error .illegalOperand
  | 1 => accept (c.extractLsb' 15 5 == 0#5 && c.extractLsb' 10 5 == 0#5 && c.extractLsb' 5 5 == 0#5 && c.extractLsb' 0 2 == 0#2) (.tret)
  | 2 => accept (c.extractLsb' 15 5 == 0#5 && c.extractLsb' 10 5 == 0#5 && c.extractLsb' 5 5 == 0#5 && c.extractLsb' 0 2 == 0#2) (.halt)
  | _ => .error .illegalOpcode

/-- OP 0x27 of R66. -/
def decode27 (c : BitVec 20) : Except DecodeError Instr :=
  match (c.extractLsb' 2 3).toNat with
  | 0 => accept (c.extractLsb' 10 5 == 0#5 && c.extractLsb' 5 5 == 0#5 && c.extractLsb' 0 2 == 0#2) (.time (c.extractLsb' 15 5))
  | 1 => accept (c.extractLsb' 0 2 == 0#2) (.talarm (c.extractLsb' 15 5) (c.extractLsb' 10 5) (c.extractLsb' 5 5))
  | _ => .error .illegalOpcode

/-- OP 0x40 of R66. -/
def decode40 (c : BitVec 20) : Except DecodeError Instr :=
  match (c.extractLsb' 0 5).toNat with
  | 0 => accept (true) (.add (c.extractLsb' 15 5) (c.extractLsb' 10 5) (c.extractLsb' 5 5))
  | 1 => accept (true) (.sub (c.extractLsb' 15 5) (c.extractLsb' 10 5) (c.extractLsb' 5 5))
  | 2 => accept (true) (.and (c.extractLsb' 15 5) (c.extractLsb' 10 5) (c.extractLsb' 5 5))
  | 3 => accept (true) (.or (c.extractLsb' 15 5) (c.extractLsb' 10 5) (c.extractLsb' 5 5))
  | 4 => accept (true) (.xor (c.extractLsb' 15 5) (c.extractLsb' 10 5) (c.extractLsb' 5 5))
  | 5 => accept (true) (.sll (c.extractLsb' 15 5) (c.extractLsb' 10 5) (c.extractLsb' 5 5))
  | 6 => accept (true) (.srl (c.extractLsb' 15 5) (c.extractLsb' 10 5) (c.extractLsb' 5 5))
  | 7 => accept (true) (.sra (c.extractLsb' 15 5) (c.extractLsb' 10 5) (c.extractLsb' 5 5))
  | 8 => accept (true) (.slt (c.extractLsb' 15 5) (c.extractLsb' 10 5) (c.extractLsb' 5 5))
  | 9 => accept (true) (.sltu (c.extractLsb' 15 5) (c.extractLsb' 10 5) (c.extractLsb' 5 5))
  | 10 => accept (true) (.min (c.extractLsb' 15 5) (c.extractLsb' 10 5) (c.extractLsb' 5 5))
  | 11 => accept (true) (.max (c.extractLsb' 15 5) (c.extractLsb' 10 5) (c.extractLsb' 5 5))
  | 12 => accept (true) (.minu (c.extractLsb' 15 5) (c.extractLsb' 10 5) (c.extractLsb' 5 5))
  | 13 => accept (true) (.maxu (c.extractLsb' 15 5) (c.extractLsb' 10 5) (c.extractLsb' 5 5))
  | _ => .error .illegalOpcode

/-- OP 0x41 of R66. -/
def decode41 (c : BitVec 20) : Except DecodeError Instr :=
  match (c.extractLsb' 7 3).toNat with
  | 0 => accept (true) (.addi (c.extractLsb' 15 5) (c.extractLsb' 10 5) (c.extractLsb' 0 7))
  | 1 => accept (true) (.andi (c.extractLsb' 15 5) (c.extractLsb' 10 5) (c.extractLsb' 0 7))
  | 2 => accept (true) (.ori (c.extractLsb' 15 5) (c.extractLsb' 10 5) (c.extractLsb' 0 7))
  | 3 => accept (true) (.xori (c.extractLsb' 15 5) (c.extractLsb' 10 5) (c.extractLsb' 0 7))
  | 4 => accept (c.extractLsb' 6 1 == 0#1) (.slli (c.extractLsb' 15 5) (c.extractLsb' 10 5) (c.extractLsb' 0 6))
  | 5 => accept (c.extractLsb' 6 1 == 0#1) (.srli (c.extractLsb' 15 5) (c.extractLsb' 10 5) (c.extractLsb' 0 6))
  | 6 => accept (c.extractLsb' 6 1 == 0#1) (.srai (c.extractLsb' 15 5) (c.extractLsb' 10 5) (c.extractLsb' 0 6))
  | 7 => accept (true) (.slti (c.extractLsb' 15 5) (c.extractLsb' 10 5) (c.extractLsb' 0 7))
  | _ => .error .illegalOpcode

/-- OP 0x42 of R66. -/
def decode42 (c : BitVec 20) : Except DecodeError Instr :=
  match (c.extractLsb' 0 5).toNat with
  | 0 => accept (true) (.mul (c.extractLsb' 15 5) (c.extractLsb' 10 5) (c.extractLsb' 5 5))
  | 1 => accept (true) (.mulh (c.extractLsb' 15 5) (c.extractLsb' 10 5) (c.extractLsb' 5 5))
  | 2 => accept (true) (.mulhu (c.extractLsb' 15 5) (c.extractLsb' 10 5) (c.extractLsb' 5 5))
  | 3 => accept (true) (.div (c.extractLsb' 15 5) (c.extractLsb' 10 5) (c.extractLsb' 5 5))
  | 4 => accept (true) (.divu (c.extractLsb' 15 5) (c.extractLsb' 10 5) (c.extractLsb' 5 5))
  | 5 => accept (true) (.rem (c.extractLsb' 15 5) (c.extractLsb' 10 5) (c.extractLsb' 5 5))
  | 6 => accept (true) (.remu (c.extractLsb' 15 5) (c.extractLsb' 10 5) (c.extractLsb' 5 5))
  | _ => .error .illegalOpcode

/-- OP 0x43 of R66. -/
def decode43 (c : BitVec 20) : Except DecodeError Instr :=
  accept (true) (.lui (c.extractLsb' 15 5) (c.extractLsb' 0 15))

/-- OP 0x44 of R66. -/
def decode44 (c : BitVec 20) : Except DecodeError Instr :=
  accept (true) (.addpc (c.extractLsb' 15 5) (c.extractLsb' 0 15))

/-- OP 0x45 of R66. -/
def decode45 (c : BitVec 20) : Except DecodeError Instr :=
  match (c.extractLsb' 0 5).toNat with
  | 0 => accept (c.extractLsb' 5 5 == 0#5) (.clz (c.extractLsb' 15 5) (c.extractLsb' 10 5))
  | 1 => accept (c.extractLsb' 5 5 == 0#5) (.ctz (c.extractLsb' 15 5) (c.extractLsb' 10 5))
  | 2 => accept (c.extractLsb' 5 5 == 0#5) (.popc (c.extractLsb' 15 5) (c.extractLsb' 10 5))
  | 3 => accept (c.extractLsb' 5 5 == 0#5) (.bswap (c.extractLsb' 15 5) (c.extractLsb' 10 5))
  | _ => .error .illegalOpcode

/-- OP 0x46 of R66. -/
def decode46 (c : BitVec 20) : Except DecodeError Instr :=
  match (c.extractLsb' 0 5).toNat with
  | 0 => accept (true) (.peq (c.extractLsb' 15 5) (c.extractLsb' 10 5) (c.extractLsb' 5 5))
  | 1 => accept (true) (.pne (c.extractLsb' 15 5) (c.extractLsb' 10 5) (c.extractLsb' 5 5))
  | 2 => accept (true) (.plt (c.extractLsb' 15 5) (c.extractLsb' 10 5) (c.extractLsb' 5 5))
  | 3 => accept (true) (.pge (c.extractLsb' 15 5) (c.extractLsb' 10 5) (c.extractLsb' 5 5))
  | 4 => accept (true) (.pltu (c.extractLsb' 15 5) (c.extractLsb' 10 5) (c.extractLsb' 5 5))
  | 5 => accept (true) (.pgeu (c.extractLsb' 15 5) (c.extractLsb' 10 5) (c.extractLsb' 5 5))
  | _ => .error .illegalOpcode

/-- OP 0x47 of R66. -/
def decode47 (c : BitVec 20) : Except DecodeError Instr :=
  match (c.extractLsb' 0 5).toNat with
  | 0 => accept (true) (.pand (c.extractLsb' 15 5) (c.extractLsb' 10 5) (c.extractLsb' 5 5))
  | 1 => accept (true) (.por (c.extractLsb' 15 5) (c.extractLsb' 10 5) (c.extractLsb' 5 5))
  | 2 => accept (true) (.pxor (c.extractLsb' 15 5) (c.extractLsb' 10 5) (c.extractLsb' 5 5))
  | 3 => accept (c.extractLsb' 5 5 == 0#5) (.pnot (c.extractLsb' 15 5) (c.extractLsb' 10 5))
  | _ => .error .illegalOpcode

/-- OP 0x48 of R66. -/
def decode48 (c : BitVec 20) : Except DecodeError Instr :=
  match (c.extractLsb' 0 5).toNat with
  | 0 => accept (true) (.sel (c.extractLsb' 15 5) (c.extractLsb' 10 5) (c.extractLsb' 5 5))
  | _ => .error .illegalOpcode

/-- OP 0x49 of R66. -/
def decode49 (c : BitVec 20) : Except DecodeError Instr :=
  match (c.extractLsb' 0 5).toNat with
  | 0 => accept (c.extractLsb' 10 5 == 0#5 && c.extractLsb' 5 5 == 0#5) (.movpw (c.extractLsb' 15 5))
  | 1 => accept (c.extractLsb' 15 5 == 0#5 && c.extractLsb' 5 5 == 0#5) (.movwp (c.extractLsb' 10 5))
  | _ => .error .illegalOpcode

/-- OP 0x4A of R66. -/
def decode4A (c : BitVec 20) : Except DecodeError Instr :=
  match (c.extractLsb' 0 5).toNat with
  | 0 => accept (true) (.addsh (c.extractLsb' 15 5) (c.extractLsb' 10 5) (c.extractLsb' 5 5))
  | _ => .error .illegalOpcode

/-- OP 0x4B of R66. -/
def decode4B (c : BitVec 20) : Except DecodeError Instr :=
  match (c.extractLsb' 0 5).toNat with
  | 0 => accept (true) (.part (c.extractLsb' 15 5) (c.extractLsb' 10 5) (c.extractLsb' 5 5))
  | _ => .error .illegalOpcode

/-- OP 0x50 of R66. -/
def decode50 (c : BitVec 20) : Except DecodeError Instr :=
  match (c.extractLsb' 0 5).toNat with
  | 0 => accept (true) (.vadd (c.extractLsb' 15 5) (c.extractLsb' 10 5) (c.extractLsb' 5 5))
  | 1 => accept (true) (.vsub (c.extractLsb' 15 5) (c.extractLsb' 10 5) (c.extractLsb' 5 5))
  | 2 => accept (true) (.vmul (c.extractLsb' 15 5) (c.extractLsb' 10 5) (c.extractLsb' 5 5))
  | 3 => accept (true) (.vmin (c.extractLsb' 15 5) (c.extractLsb' 10 5) (c.extractLsb' 5 5))
  | 4 => accept (true) (.vmax (c.extractLsb' 15 5) (c.extractLsb' 10 5) (c.extractLsb' 5 5))
  | 5 => accept (true) (.vand (c.extractLsb' 15 5) (c.extractLsb' 10 5) (c.extractLsb' 5 5))
  | 6 => accept (true) (.vor (c.extractLsb' 15 5) (c.extractLsb' 10 5) (c.extractLsb' 5 5))
  | 7 => accept (true) (.vxor (c.extractLsb' 15 5) (c.extractLsb' 10 5) (c.extractLsb' 5 5))
  | 8 => accept (true) (.vshl (c.extractLsb' 15 5) (c.extractLsb' 10 5) (c.extractLsb' 5 5))
  | 9 => accept (true) (.vshr (c.extractLsb' 15 5) (c.extractLsb' 10 5) (c.extractLsb' 5 5))
  | 10 => accept (true) (.vsra (c.extractLsb' 15 5) (c.extractLsb' 10 5) (c.extractLsb' 5 5))
  | _ => .error .illegalOpcode

/-- OP 0x51 of R66. -/
def decode51 (c : BitVec 20) : Except DecodeError Instr :=
  match (c.extractLsb' 0 5).toNat with
  | 0 => accept (true) (.vfadd (c.extractLsb' 15 5) (c.extractLsb' 10 5) (c.extractLsb' 5 5))
  | 1 => accept (true) (.vfsub (c.extractLsb' 15 5) (c.extractLsb' 10 5) (c.extractLsb' 5 5))
  | 2 => accept (true) (.vfmul (c.extractLsb' 15 5) (c.extractLsb' 10 5) (c.extractLsb' 5 5))
  | 3 => accept (true) (.vfma (c.extractLsb' 15 5) (c.extractLsb' 10 5) (c.extractLsb' 5 5))
  | 4 => accept (true) (.vfmin (c.extractLsb' 15 5) (c.extractLsb' 10 5) (c.extractLsb' 5 5))
  | 5 => accept (true) (.vfmax (c.extractLsb' 15 5) (c.extractLsb' 10 5) (c.extractLsb' 5 5))
  | 6 => accept (c.extractLsb' 5 5 == 0#5) (.vfabs (c.extractLsb' 15 5) (c.extractLsb' 10 5))
  | 7 => accept (c.extractLsb' 5 5 == 0#5) (.vfneg (c.extractLsb' 15 5) (c.extractLsb' 10 5))
  | _ => .error .illegalOpcode

/-- OP 0x52 of R66. -/
def decode52 (c : BitVec 20) : Except DecodeError Instr :=
  match (c.extractLsb' 0 5).toNat with
  | 0 => accept (c.extractLsb' 5 5 == 0#5) (.vrcp (c.extractLsb' 15 5) (c.extractLsb' 10 5))
  | 1 => accept (c.extractLsb' 5 5 == 0#5) (.vrsq (c.extractLsb' 15 5) (c.extractLsb' 10 5))
  | 2 => accept (c.extractLsb' 5 5 == 0#5) (.vsqrt (c.extractLsb' 15 5) (c.extractLsb' 10 5))
  | 3 => accept (c.extractLsb' 5 5 == 0#5) (.vexp2 (c.extractLsb' 15 5) (c.extractLsb' 10 5))
  | 4 => accept (c.extractLsb' 5 5 == 0#5) (.vlog2 (c.extractLsb' 15 5) (c.extractLsb' 10 5))
  | 5 => accept (true) (.vdiv (c.extractLsb' 15 5) (c.extractLsb' 10 5) (c.extractLsb' 5 5))
  | _ => .error .illegalOpcode

/-- OP 0x53 of R66. -/
def decode53 (c : BitVec 20) : Except DecodeError Instr :=
  match (c.extractLsb' 0 5).toNat with
  | 0 => accept (true) (.vcvt (c.extractLsb' 15 5) (c.extractLsb' 10 5) (c.extractLsb' 5 5))
  | 1 => accept (true) (.vcvts (c.extractLsb' 15 5) (c.extractLsb' 10 5) (c.extractLsb' 5 5))
  | 2 => accept (true) (.vqnt (c.extractLsb' 15 5) (c.extractLsb' 10 5) (c.extractLsb' 5 5))
  | _ => .error .illegalOpcode

/-- OP 0x54 of R66. -/
def decode54 (c : BitVec 20) : Except DecodeError Instr :=
  match (c.extractLsb' 0 5).toNat with
  | 0 => accept (true) (.vrsum (c.extractLsb' 15 5) (c.extractLsb' 10 5) (c.extractLsb' 5 5))
  | 1 => accept (true) (.vrmax (c.extractLsb' 15 5) (c.extractLsb' 10 5) (c.extractLsb' 5 5))
  | 2 => accept (true) (.vrmin (c.extractLsb' 15 5) (c.extractLsb' 10 5) (c.extractLsb' 5 5))
  | _ => .error .illegalOpcode

/-- OP 0x55 of R66. -/
def decode55 (c : BitVec 20) : Except DecodeError Instr :=
  match (c.extractLsb' 0 5).toNat with
  | 0 => accept (true) (.vshuf (c.extractLsb' 15 5) (c.extractLsb' 10 5) (c.extractLsb' 5 5))
  | 1 => accept (true) (.vbcast (c.extractLsb' 15 5) (c.extractLsb' 10 5) (c.extractLsb' 5 5))
  | 2 => accept (true) (.vext (c.extractLsb' 15 5) (c.extractLsb' 10 5) (c.extractLsb' 5 5))
  | 3 => accept (true) (.vins (c.extractLsb' 15 5) (c.extractLsb' 10 5) (c.extractLsb' 5 5))
  | _ => .error .illegalOpcode

/-- OP 0x56 of R66. -/
def decode56 (c : BitVec 20) : Except DecodeError Instr :=
  match (c.extractLsb' 0 5).toNat with
  | 0 => accept (true) (.vcmp (c.extractLsb' 15 5) (c.extractLsb' 10 5) (c.extractLsb' 5 5))
  | 1 => accept (true) (.vsel (c.extractLsb' 15 5) (c.extractLsb' 10 5) (c.extractLsb' 5 5))
  | _ => .error .illegalOpcode

/-- OP 0x57 of R66. -/
def decode57 (c : BitVec 20) : Except DecodeError Instr :=
  match (c.extractLsb' 0 5).toNat with
  | 0 => accept (true) (.vrec (c.extractLsb' 15 5) (c.extractLsb' 10 5) (c.extractLsb' 5 5))
  | 1 => accept (c.extractLsb' 10 5 == 0#5) (.vema (c.extractLsb' 15 5) (c.extractLsb' 5 5))
  | _ => .error .illegalOpcode

/-- OP 0x58 of R66. -/
def decode58 (c : BitVec 20) : Except DecodeError Instr :=
  match (c.extractLsb' 0 5).toNat with
  | 0 => accept (true) (.vmovx (c.extractLsb' 15 5) (c.extractLsb' 10 5) (c.extractLsb' 5 5))
  | 1 => accept (c.extractLsb' 5 5 == 0#5) (.vmovv (c.extractLsb' 15 5) (c.extractLsb' 10 5))
  | 2 => accept (c.extractLsb' 5 5 == 0#5) (.vsplat (c.extractLsb' 15 5) (c.extractLsb' 10 5))
  | _ => .error .illegalOpcode

/-- OP 0x59 of R66. -/
def decode59 (c : BitVec 20) : Except DecodeError Instr :=
  match (c.extractLsb' 0 5).toNat with
  | 0 => accept (c.extractLsb' 5 5 == 0#5) (.vloop (c.extractLsb' 15 5) (c.extractLsb' 10 5))
  | _ => .error .illegalOpcode

/-- OP 0x60 of R66. -/
def decode60 (c : BitVec 20) : Except DecodeError Instr :=
  match (c.extractLsb' 0 4).toNat with
  | 0 => accept (c.extractLsb' 14 6 == 0#6 && c.extractLsb' 4 6 == 0#6) (.mcfg (c.extractLsb' 10 4))
  | _ => .error .illegalOpcode

/-- OP 0x61 of R66. -/
def decode61 (c : BitVec 20) : Except DecodeError Instr :=
  match (c.extractLsb' 0 4).toNat with
  | 0 => accept (c.extractLsb' 14 6 == 0#6 && c.extractLsb' 4 6 == 0#6) (.mlda (c.extractLsb' 10 4))
  | 1 => accept (c.extractLsb' 14 6 == 0#6) (.mldb (c.extractLsb' 10 4) (c.extractLsb' 4 6))
  | _ => .error .illegalOpcode

/-- OP 0x62 of R66. -/
def decode62 (c : BitVec 20) : Except DecodeError Instr :=
  match (c.extractLsb' 0 4).toNat with
  | 0 => accept (c.extractLsb' 10 4 == 0#4) (.mma (c.extractLsb' 14 6) (c.extractLsb' 4 6))
  | 1 => accept (c.extractLsb' 10 4 == 0#4) (.mmas (c.extractLsb' 14 6) (c.extractLsb' 4 6))
  | _ => .error .illegalOpcode

/-- OP 0x63 of R66. -/
def decode63 (c : BitVec 20) : Except DecodeError Instr :=
  match (c.extractLsb' 0 4).toNat with
  | 0 => accept (c.extractLsb' 10 4 == 0#4) (.mrot (c.extractLsb' 14 6) (c.extractLsb' 4 6))
  | _ => .error .illegalOpcode

/-- OP 0x64 of R66. -/
def decode64 (c : BitVec 20) : Except DecodeError Instr :=
  match (c.extractLsb' 0 4).toNat with
  | 0 => accept (c.extractLsb' 14 6 == 0#6 && c.extractLsb' 4 6 == 0#6) (.mdq (c.extractLsb' 10 4))
  | 1 => accept (true) (.mdelta (c.extractLsb' 14 6) (c.extractLsb' 10 4) (c.extractLsb' 4 6))
  | _ => .error .illegalOpcode

/-- OP 0x65 of R66. -/
def decode65 (c : BitVec 20) : Except DecodeError Instr :=
  match (c.extractLsb' 0 4).toNat with
  | 0 => accept (c.extractLsb' 10 4 == 0#4 && c.extractLsb' 4 6 == 0#6) (.mzero (c.extractLsb' 14 6))
  | 1 => accept (c.extractLsb' 8 2 == 0#2) (.mst (c.extractLsb' 14 6) (c.extractLsb' 10 4) (c.extractLsb' 4 4))
  | 2 => accept (c.extractLsb' 10 4 == 0#4 && c.extractLsb' 9 1 == 0#1) (.mscale (c.extractLsb' 14 6) (c.extractLsb' 4 5))
  | 3 => if c.extractLsb' 9 1 == 0#1 then accept (c.extractLsb' 10 4 == 0#4) (.mredMax (c.extractLsb' 14 6) (c.extractLsb' 4 5))
    else accept (c.extractLsb' 10 4 == 0#4) (.mredSum (c.extractLsb' 14 6) (c.extractLsb' 4 5))
  | _ => .error .illegalOpcode

/-- OP 0x66 of R66. -/
def decode66 (c : BitVec 20) : Except DecodeError Instr :=
  match (c.extractLsb' 0 4).toNat with
  | 0 => accept (c.extractLsb' 14 6 == 0#6 && c.extractLsb' 4 6 == 0#6) (.mchk (c.extractLsb' 10 4))
  | _ => .error .illegalOpcode

/-- The operand fields `c` of primary opcode `op` (R66); `lit` is word 1 of the bundle, read by a wide word only. -/
def decodeFields (op : Nat) (c : BitVec 20) (lit : BitVec 32) : Except DecodeError Instr :=
  match op with
  | 0 => decode00 c
  | 1 => decode01 c
  | 2 => decode02 c
  | 3 => decode03 c
  | 4 => decode04 c
  | 5 => decode05 c
  | 6 => decode06 c
  | 7 => decode07 c lit
  | 8 => decode08 c
  | 9 => decode09 c
  | 10 => decode0A c
  | 11 => decode0B c
  | 12 => decode0C c
  | 13 => decode0D c
  | 14 => decode0E c
  | 15 => decode0F c
  | 16 => decode10 c
  | 17 => decode11 c
  | 18 => decode12 c
  | 19 => decode13 c
  | 20 => decode14 c
  | 21 => decode15 c
  | 22 => decode16 c
  | 23 => decode17 c
  | 24 => decode18 c
  | 25 => decode19 c
  | 26 => decode1A c
  | 27 => decode1B c
  | 28 => decode1C c
  | 29 => decode1D c
  | 30 => decode1E c
  | 31 => decode1F c
  | 32 => decode20 c
  | 33 => decode21 c
  | 34 => decode22 c
  | 35 => decode23 c
  | 36 => decode24 c
  | 37 => decode25 c
  | 38 => decode26 c
  | 39 => decode27 c
  | 64 => decode40 c
  | 65 => decode41 c
  | 66 => decode42 c
  | 67 => decode43 c
  | 68 => decode44 c
  | 69 => decode45 c
  | 70 => decode46 c
  | 71 => decode47 c
  | 72 => decode48 c
  | 73 => decode49 c
  | 74 => decode4A c
  | 75 => decode4B c
  | 80 => decode50 c
  | 81 => decode51 c
  | 82 => decode52 c
  | 83 => decode53 c
  | 84 => decode54 c
  | 85 => decode55 c
  | 86 => decode56 c
  | 87 => decode57 c
  | 88 => decode58 c
  | 89 => decode59 c
  | 96 => decode60 c
  | 97 => decode61 c
  | 98 => decode62 c
  | 99 => decode63 c
  | 100 => decode64 c
  | 101 => decode65 c
  | 102 => decode66 c
  | _ => .error .illegalOpcode

/-- The instruction of a 27-bit code. -/
def decodeCode (w : BitVec 27) (lit : BitVec 32) : Except DecodeError Instr :=
  decodeFields (w.extractLsb' 20 7).toNat (w.extractLsb' 0 20) lit

/-- The 27-bit code of an instruction: OP and the fields of its layout (R60, R66). Events have no code. -/
def Instr.code : Instr → BitVec 27
  | .nop => 0#7 ++ 0#20
  | .beq a b off => 1#7 ++ a ++ b ++ 0#3 ++ off
  | .bne a b off => 1#7 ++ a ++ b ++ 1#3 ++ off
  | .blt a b off => 1#7 ++ a ++ b ++ 2#3 ++ off
  | .bge a b off => 1#7 ++ a ++ b ++ 3#3 ++ off
  | .bltu a b off => 1#7 ++ a ++ b ++ 4#3 ++ off
  | .bgeu a b off => 1#7 ++ a ++ b ++ 5#3 ++ off
  | .bpt a off => 2#7 ++ a ++ 0#4 ++ 0#3 ++ off
  | .bpf a off => 2#7 ++ a ++ 0#4 ++ 1#3 ++ off
  | .j off => 3#7 ++ off
  | .call off => 4#7 ++ off
  | .jr a imm => 5#7 ++ 0#5 ++ a ++ 0#3 ++ imm
  | .jalr d a imm => 5#7 ++ d ++ a ++ 1#3 ++ imm
  | .loop d a imm => 6#7 ++ d ++ a ++ 0#3 ++ imm
  | .liw d _ => 7#7 ++ d ++ 0#1 ++ 0#14
  | .liwh d _ => 7#7 ++ d ++ 1#1 ++ 0#14
  | .ld8 d a off => 8#7 ++ d ++ a ++ 0#3 ++ off
  | .ld8u d a off => 8#7 ++ d ++ a ++ 1#3 ++ off
  | .ld16 d a off => 8#7 ++ d ++ a ++ 2#3 ++ off
  | .ld16u d a off => 8#7 ++ d ++ a ++ 3#3 ++ off
  | .ld32 d a off => 8#7 ++ d ++ a ++ 4#3 ++ off
  | .ld32u d a off => 8#7 ++ d ++ a ++ 5#3 ++ off
  | .ld64 d a off => 8#7 ++ d ++ a ++ 6#3 ++ off
  | .st8 d a off => 9#7 ++ d ++ a ++ 0#3 ++ off
  | .st16 d a off => 9#7 ++ d ++ a ++ 1#3 ++ off
  | .st32 d a off => 9#7 ++ d ++ a ++ 2#3 ++ off
  | .st64 d a off => 9#7 ++ d ++ a ++ 3#3 ++ off
  | .lda32 d a scope => 10#7 ++ d ++ a ++ 0#2 ++ scope ++ 0#5
  | .lda64 d a scope => 10#7 ++ d ++ a ++ 1#2 ++ scope ++ 0#5
  | .stl32 d a scope => 11#7 ++ d ++ a ++ 0#2 ++ scope ++ 0#5
  | .stl64 d a scope => 11#7 ++ d ++ a ++ 1#2 ++ scope ++ 0#5
  | .ldp d a off => 12#7 ++ d ++ a ++ 0#3 ++ off
  | .stp d a off => 12#7 ++ d ++ a ++ 1#3 ++ off
  | .ldf64 d a off => 13#7 ++ d ++ a ++ 0#3 ++ off
  | .stf64 d a off => 13#7 ++ d ++ a ++ 1#3 ++ off
  | .vld d a off => 14#7 ++ d ++ a ++ 0#3 ++ off
  | .vldb d a off => 14#7 ++ d ++ a ++ 1#3 ++ off
  | .vlds d a b => 14#7 ++ d ++ a ++ 2#3 ++ b ++ 0#2
  | .vldsPi d a b => 14#7 ++ d ++ a ++ 2#3 ++ b ++ 1#2
  | .vst d a off => 15#7 ++ d ++ a ++ 0#3 ++ off
  | .vstm d a b => 15#7 ++ d ++ a ++ 1#3 ++ b ++ 0#2
  | .amoadd v a w ord scope => 16#7 ++ v ++ a ++ 0#4 ++ w ++ ord ++ scope
  | .amoand v a w ord scope => 16#7 ++ v ++ a ++ 1#4 ++ w ++ ord ++ scope
  | .amoor v a w ord scope => 16#7 ++ v ++ a ++ 2#4 ++ w ++ ord ++ scope
  | .amoorFence a w ord scope => 16#7 ++ 0#5 ++ a ++ 2#4 ++ w ++ ord ++ scope
  | .amoxor v a w ord scope => 16#7 ++ v ++ a ++ 3#4 ++ w ++ ord ++ scope
  | .amomin v a w ord scope => 16#7 ++ v ++ a ++ 4#4 ++ w ++ ord ++ scope
  | .amomax v a w ord scope => 16#7 ++ v ++ a ++ 5#4 ++ w ++ ord ++ scope
  | .amominu v a w ord scope => 16#7 ++ v ++ a ++ 6#4 ++ w ++ ord ++ scope
  | .amomaxu v a w ord scope => 16#7 ++ v ++ a ++ 7#4 ++ w ++ ord ++ scope
  | .amoswp v a w ord scope => 16#7 ++ v ++ a ++ 8#4 ++ w ++ ord ++ scope
  | .cas32 v a ord scope => 17#7 ++ v ++ a ++ 0#4 ++ 0#1 ++ ord ++ scope
  | .cas64 v a ord scope => 17#7 ++ v ++ a ++ 1#4 ++ 0#1 ++ ord ++ scope
  | .amofadd v a w ord scope => 18#7 ++ v ++ a ++ 0#4 ++ w ++ ord ++ scope
  | .amofmin v a w ord scope => 18#7 ++ v ++ a ++ 1#4 ++ w ++ ord ++ scope
  | .amofmax v a w ord scope => 18#7 ++ v ++ a ++ 2#4 ++ w ++ ord ++ scope
  | .cwb a => 19#7 ++ 0#5 ++ a ++ 0#5 ++ 0#3 ++ 0#2
  | .cinv a => 19#7 ++ 0#5 ++ a ++ 0#5 ++ 1#3 ++ 0#2
  | .cinvRc a => 19#7 ++ 0#5 ++ a ++ 0#5 ++ 1#3 ++ 1#2
  | .cinvD a => 19#7 ++ 0#5 ++ a ++ 0#5 ++ 1#3 ++ 2#2
  | .pref a => 19#7 ++ 0#5 ++ a ++ 0#5 ++ 2#3 ++ 0#2
  | .prefSc a => 19#7 ++ 0#5 ++ a ++ 0#5 ++ 2#3 ++ 1#2
  | .icinv a => 19#7 ++ 0#5 ++ a ++ 0#5 ++ 3#3 ++ 0#2
  | .synci => 19#7 ++ 0#5 ++ 0#5 ++ 0#5 ++ 4#3 ++ 0#2
  | .enq d a b => 20#7 ++ d ++ a ++ b ++ 0#3 ++ 0#2
  | .enqt d a b mod => 20#7 ++ d ++ a ++ b ++ 1#3 ++ mod
  | .deq d a b => 21#7 ++ d ++ a ++ b ++ 0#3 ++ 0#2
  | .deqt d a b mod => 21#7 ++ d ++ a ++ b ++ 1#3 ++ mod
  | .qinit d a b => 22#7 ++ d ++ a ++ b ++ 0#3 ++ 0#2
  | .qstat d a b => 22#7 ++ d ++ a ++ b ++ 1#3 ++ 0#2
  | .qdrain d a => 22#7 ++ d ++ a ++ 0#5 ++ 2#3 ++ 0#2
  | .qreset d a => 22#7 ++ d ++ a ++ 0#5 ++ 3#3 ++ 0#2
  | .pinit d a b => 23#7 ++ d ++ a ++ b ++ 0#3 ++ 0#2
  | .pstat d a b => 23#7 ++ d ++ a ++ b ++ 1#3 ++ 0#2
  | .balloc d a => 23#7 ++ d ++ a ++ 0#5 ++ 2#3 ++ 0#2
  | .bfree d a b => 23#7 ++ d ++ a ++ b ++ 3#3 ++ 0#2
  | .btapp d a => 24#7 ++ d ++ a ++ 0#5 ++ 0#3 ++ 0#2
  | .btget d a b => 24#7 ++ d ++ a ++ b ++ 1#3 ++ 0#2
  | .btfork d a b => 24#7 ++ d ++ a ++ b ++ 2#3 ++ 0#2
  | .btrel d a => 24#7 ++ d ++ a ++ 0#5 ++ 3#3 ++ 0#2
  | .send d a b => 25#7 ++ d ++ a ++ b ++ 0#3 ++ 0#2
  | .sendAck d a b => 25#7 ++ d ++ a ++ b ++ 0#3 ++ 1#2
  | .sendTrap d a b => 25#7 ++ d ++ a ++ b ++ 0#3 ++ 2#2
  | .sendv d a b => 25#7 ++ d ++ a ++ b ++ 1#3 ++ 0#2
  | .sendvAck d a b => 25#7 ++ d ++ a ++ b ++ 1#3 ++ 1#2
  | .sendvTrap d a b => 25#7 ++ d ++ a ++ b ++ 1#3 ++ 2#2
  | .recv d a b => 25#7 ++ d ++ a ++ b ++ 2#3 ++ 0#2
  | .recvt d a b => 25#7 ++ d ++ a ++ b ++ 3#3 ++ 0#2
  | .cpy d a b => 26#7 ++ d ++ a ++ b ++ 0#3 ++ 0#2
  | .cpy2d d a => 26#7 ++ d ++ a ++ 0#5 ++ 1#3 ++ 0#2
  | .cpy2dSt d a => 26#7 ++ d ++ a ++ 0#5 ++ 1#3 ++ 1#2
  | .cpyg d a b => 26#7 ++ d ++ a ++ b ++ 2#3 ++ 0#2
  | .cpys d a b => 26#7 ++ d ++ a ++ b ++ 3#3 ++ 0#2
  | .cpyh d a b => 26#7 ++ d ++ a ++ b ++ 4#3 ++ 0#2
  | .cpyq d a b => 26#7 ++ d ++ a ++ b ++ 5#3 ++ 0#2
  | .strm d a => 27#7 ++ d ++ a ++ 0#5 ++ 0#3 ++ 0#2
  | .strmW d a => 27#7 ++ d ++ a ++ 0#5 ++ 0#3 ++ 1#2
  | .strmx d => 27#7 ++ d ++ 0#5 ++ 0#5 ++ 1#3 ++ 0#2
  | .xsend a => 28#7 ++ 0#5 ++ a ++ 0#5 ++ 0#3 ++ 0#2
  | .xrecv a => 28#7 ++ 0#5 ++ a ++ 0#5 ++ 1#3 ++ 0#2
  | .xphase d a => 28#7 ++ d ++ a ++ 0#5 ++ 2#3 ++ 0#2
  | .sstep d => 28#7 ++ d ++ 0#5 ++ 0#5 ++ 3#3 ++ 0#2
  | .gjoin d a => 29#7 ++ d ++ a ++ 0#5 ++ 0#3 ++ 0#2
  | .gleave d => 29#7 ++ d ++ 0#5 ++ 0#5 ++ 1#3 ++ 0#2
  | .gbar d => 29#7 ++ d ++ 0#5 ++ 0#5 ++ 2#3 ++ 0#2
  | .garr d => 29#7 ++ d ++ 0#5 ++ 0#5 ++ 3#3 ++ 0#2
  | .gwait a => 29#7 ++ 0#5 ++ a ++ 0#5 ++ 4#3 ++ 0#2
  | .spawn d a b => 30#7 ++ d ++ a ++ b ++ 0#3 ++ 0#2
  | .exit => 30#7 ++ 0#5 ++ 0#5 ++ 0#5 ++ 1#3 ++ 0#2
  | .migr a => 30#7 ++ 0#5 ++ a ++ 0#5 ++ 2#3 ++ 0#2
  | .migrLd d a => 30#7 ++ d ++ a ++ 0#5 ++ 2#3 ++ 1#2
  | .yield => 30#7 ++ 0#5 ++ 0#5 ++ 0#5 ++ 3#3 ++ 0#2
  | .tgrow d a => 31#7 ++ d ++ a ++ 0#5 ++ 0#3 ++ 0#2
  | .tidx d => 31#7 ++ d ++ 0#5 ++ 0#5 ++ 1#3 ++ 0#2
  | .tidxNx d => 31#7 ++ d ++ 0#5 ++ 0#5 ++ 1#3 ++ 1#2
  | .probe d a b => 31#7 ++ d ++ a ++ b ++ 2#3 ++ 0#2
  | .xmpub d a b => 32#7 ++ d ++ a ++ b ++ 0#3 ++ 0#2
  | .xmrd d a b => 32#7 ++ d ++ a ++ b ++ 1#3 ++ 0#2
  | .xmrdt d a b => 32#7 ++ d ++ a ++ b ++ 2#3 ++ 0#2
  | .stake d a b => 33#7 ++ d ++ a ++ b ++ 0#3 ++ 0#2
  | .unstake d a => 33#7 ++ d ++ a ++ 0#5 ++ 1#3 ++ 0#2
  | .lvinit d a b => 34#7 ++ d ++ a ++ b ++ 0#3 ++ 0#2
  | .lvinv d a => 34#7 ++ d ++ a ++ 0#5 ++ 1#3 ++ 0#2
  | .lvstat d a b => 34#7 ++ d ++ a ++ b ++ 2#3 ++ 0#2
  | .wreg d a b => 35#7 ++ d ++ a ++ b ++ 0#3 ++ 0#2
  | .wunreg d a => 35#7 ++ d ++ a ++ 0#5 ++ 1#3 ++ 0#2
  | .ssrex d a b => 36#7 ++ d ++ a ++ b ++ 0#3 ++ 0#2
  | .ssrim d a b => 36#7 ++ d ++ a ++ b ++ 1#3 ++ 0#2
  | .csrr d csr => 37#7 ++ d ++ 0#2 ++ 0#1 ++ csr
  | .csrw d csr => 37#7 ++ d ++ 1#2 ++ 0#1 ++ csr
  | .csrs d csr => 37#7 ++ d ++ 2#2 ++ 0#1 ++ csr
  | .csrc d csr => 37#7 ++ d ++ 3#2 ++ 0#1 ++ csr
  | .trap a => 38#7 ++ 0#5 ++ a ++ 0#5 ++ 0#3 ++ 0#2
  | .trapBrk a => 38#7 ++ 0#5 ++ a ++ 0#5 ++ 0#3 ++ 1#2
  | .tret => 38#7 ++ 0#5 ++ 0#5 ++ 0#5 ++ 1#3 ++ 0#2
  | .halt => 38#7 ++ 0#5 ++ 0#5 ++ 0#5 ++ 2#3 ++ 0#2
  | .time d => 39#7 ++ d ++ 0#5 ++ 0#5 ++ 0#3 ++ 0#2
  | .talarm d a b => 39#7 ++ d ++ a ++ b ++ 1#3 ++ 0#2
  | .add d a b => 64#7 ++ d ++ a ++ b ++ 0#5
  | .sub d a b => 64#7 ++ d ++ a ++ b ++ 1#5
  | .and d a b => 64#7 ++ d ++ a ++ b ++ 2#5
  | .or d a b => 64#7 ++ d ++ a ++ b ++ 3#5
  | .xor d a b => 64#7 ++ d ++ a ++ b ++ 4#5
  | .sll d a b => 64#7 ++ d ++ a ++ b ++ 5#5
  | .srl d a b => 64#7 ++ d ++ a ++ b ++ 6#5
  | .sra d a b => 64#7 ++ d ++ a ++ b ++ 7#5
  | .slt d a b => 64#7 ++ d ++ a ++ b ++ 8#5
  | .sltu d a b => 64#7 ++ d ++ a ++ b ++ 9#5
  | .min d a b => 64#7 ++ d ++ a ++ b ++ 10#5
  | .max d a b => 64#7 ++ d ++ a ++ b ++ 11#5
  | .minu d a b => 64#7 ++ d ++ a ++ b ++ 12#5
  | .maxu d a b => 64#7 ++ d ++ a ++ b ++ 13#5
  | .addi d a imm => 65#7 ++ d ++ a ++ 0#3 ++ imm
  | .andi d a imm => 65#7 ++ d ++ a ++ 1#3 ++ imm
  | .ori d a imm => 65#7 ++ d ++ a ++ 2#3 ++ imm
  | .xori d a imm => 65#7 ++ d ++ a ++ 3#3 ++ imm
  | .slli d a imm => 65#7 ++ d ++ a ++ 4#3 ++ 0#1 ++ imm
  | .srli d a imm => 65#7 ++ d ++ a ++ 5#3 ++ 0#1 ++ imm
  | .srai d a imm => 65#7 ++ d ++ a ++ 6#3 ++ 0#1 ++ imm
  | .slti d a imm => 65#7 ++ d ++ a ++ 7#3 ++ imm
  | .mul d a b => 66#7 ++ d ++ a ++ b ++ 0#5
  | .mulh d a b => 66#7 ++ d ++ a ++ b ++ 1#5
  | .mulhu d a b => 66#7 ++ d ++ a ++ b ++ 2#5
  | .div d a b => 66#7 ++ d ++ a ++ b ++ 3#5
  | .divu d a b => 66#7 ++ d ++ a ++ b ++ 4#5
  | .rem d a b => 66#7 ++ d ++ a ++ b ++ 5#5
  | .remu d a b => 66#7 ++ d ++ a ++ b ++ 6#5
  | .lui d imm => 67#7 ++ d ++ imm
  | .addpc d imm => 68#7 ++ d ++ imm
  | .clz d a => 69#7 ++ d ++ a ++ 0#5 ++ 0#5
  | .ctz d a => 69#7 ++ d ++ a ++ 0#5 ++ 1#5
  | .popc d a => 69#7 ++ d ++ a ++ 0#5 ++ 2#5
  | .bswap d a => 69#7 ++ d ++ a ++ 0#5 ++ 3#5
  | .peq d a b => 70#7 ++ d ++ a ++ b ++ 0#5
  | .pne d a b => 70#7 ++ d ++ a ++ b ++ 1#5
  | .plt d a b => 70#7 ++ d ++ a ++ b ++ 2#5
  | .pge d a b => 70#7 ++ d ++ a ++ b ++ 3#5
  | .pltu d a b => 70#7 ++ d ++ a ++ b ++ 4#5
  | .pgeu d a b => 70#7 ++ d ++ a ++ b ++ 5#5
  | .pand d a b => 71#7 ++ d ++ a ++ b ++ 0#5
  | .por d a b => 71#7 ++ d ++ a ++ b ++ 1#5
  | .pxor d a b => 71#7 ++ d ++ a ++ b ++ 2#5
  | .pnot d a => 71#7 ++ d ++ a ++ 0#5 ++ 3#5
  | .sel d a b => 72#7 ++ d ++ a ++ b ++ 0#5
  | .movpw d => 73#7 ++ d ++ 0#5 ++ 0#5 ++ 0#5
  | .movwp a => 73#7 ++ 0#5 ++ a ++ 0#5 ++ 1#5
  | .addsh d a b => 74#7 ++ d ++ a ++ b ++ 0#5
  | .part d a b => 75#7 ++ d ++ a ++ b ++ 0#5
  | .vadd d a b => 80#7 ++ d ++ a ++ b ++ 0#5
  | .vsub d a b => 80#7 ++ d ++ a ++ b ++ 1#5
  | .vmul d a b => 80#7 ++ d ++ a ++ b ++ 2#5
  | .vmin d a b => 80#7 ++ d ++ a ++ b ++ 3#5
  | .vmax d a b => 80#7 ++ d ++ a ++ b ++ 4#5
  | .vand d a b => 80#7 ++ d ++ a ++ b ++ 5#5
  | .vor d a b => 80#7 ++ d ++ a ++ b ++ 6#5
  | .vxor d a b => 80#7 ++ d ++ a ++ b ++ 7#5
  | .vshl d a b => 80#7 ++ d ++ a ++ b ++ 8#5
  | .vshr d a b => 80#7 ++ d ++ a ++ b ++ 9#5
  | .vsra d a b => 80#7 ++ d ++ a ++ b ++ 10#5
  | .vfadd d a b => 81#7 ++ d ++ a ++ b ++ 0#5
  | .vfsub d a b => 81#7 ++ d ++ a ++ b ++ 1#5
  | .vfmul d a b => 81#7 ++ d ++ a ++ b ++ 2#5
  | .vfma d a b => 81#7 ++ d ++ a ++ b ++ 3#5
  | .vfmin d a b => 81#7 ++ d ++ a ++ b ++ 4#5
  | .vfmax d a b => 81#7 ++ d ++ a ++ b ++ 5#5
  | .vfabs d a => 81#7 ++ d ++ a ++ 0#5 ++ 6#5
  | .vfneg d a => 81#7 ++ d ++ a ++ 0#5 ++ 7#5
  | .vrcp d a => 82#7 ++ d ++ a ++ 0#5 ++ 0#5
  | .vrsq d a => 82#7 ++ d ++ a ++ 0#5 ++ 1#5
  | .vsqrt d a => 82#7 ++ d ++ a ++ 0#5 ++ 2#5
  | .vexp2 d a => 82#7 ++ d ++ a ++ 0#5 ++ 3#5
  | .vlog2 d a => 82#7 ++ d ++ a ++ 0#5 ++ 4#5
  | .vdiv d a b => 82#7 ++ d ++ a ++ b ++ 5#5
  | .vcvt d a b => 83#7 ++ d ++ a ++ b ++ 0#5
  | .vcvts d a b => 83#7 ++ d ++ a ++ b ++ 1#5
  | .vqnt d a b => 83#7 ++ d ++ a ++ b ++ 2#5
  | .vrsum d a b => 84#7 ++ d ++ a ++ b ++ 0#5
  | .vrmax d a b => 84#7 ++ d ++ a ++ b ++ 1#5
  | .vrmin d a b => 84#7 ++ d ++ a ++ b ++ 2#5
  | .vshuf d a b => 85#7 ++ d ++ a ++ b ++ 0#5
  | .vbcast d a b => 85#7 ++ d ++ a ++ b ++ 1#5
  | .vext d a b => 85#7 ++ d ++ a ++ b ++ 2#5
  | .vins d a b => 85#7 ++ d ++ a ++ b ++ 3#5
  | .vcmp d a b => 86#7 ++ d ++ a ++ b ++ 0#5
  | .vsel d a b => 86#7 ++ d ++ a ++ b ++ 1#5
  | .vrec d a b => 87#7 ++ d ++ a ++ b ++ 0#5
  | .vema d b => 87#7 ++ d ++ 0#5 ++ b ++ 1#5
  | .vmovx d a b => 88#7 ++ d ++ a ++ b ++ 0#5
  | .vmovv d a => 88#7 ++ d ++ a ++ 0#5 ++ 1#5
  | .vsplat d a => 88#7 ++ d ++ a ++ 0#5 ++ 2#5
  | .vloop d a => 89#7 ++ d ++ a ++ 0#5 ++ 0#5
  | .mcfg a => 96#7 ++ 0#6 ++ a ++ 0#6 ++ 0#4
  | .mlda a => 97#7 ++ 0#6 ++ a ++ 0#6 ++ 0#4
  | .mldb a w => 97#7 ++ 0#6 ++ a ++ w ++ 1#4
  | .mma t w => 98#7 ++ t ++ 0#4 ++ w ++ 0#4
  | .mmas t w => 98#7 ++ t ++ 0#4 ++ w ++ 1#4
  | .mrot t w => 99#7 ++ t ++ 0#4 ++ w ++ 0#4
  | .mdq a => 100#7 ++ 0#6 ++ a ++ 0#6 ++ 0#4
  | .mdelta t a w => 100#7 ++ t ++ a ++ w ++ 1#4
  | .mzero t => 101#7 ++ t ++ 0#4 ++ 0#6 ++ 0#4
  | .mst t a w => 101#7 ++ t ++ a ++ 0#2 ++ w ++ 1#4
  | .mscale t w => 101#7 ++ t ++ 0#4 ++ 0#1 ++ w ++ 2#4
  | .mredMax t w => 101#7 ++ t ++ 0#4 ++ 0#1 ++ w ++ 3#4
  | .mredSum t w => 101#7 ++ t ++ 0#4 ++ 1#1 ++ w ++ 3#4
  | .mchk a => 102#7 ++ 0#6 ++ a ++ 0#6 ++ 0#4
  | .reflexRelease => 0#27
  | .shadowBankSwitch => 0#27
  | .deadlineMiss => 0#27
  | .budgetExceeded => 0#27
  | .starvationGuard => 0#27
  | .admission => 0#27
  | .taskDispatch => 0#27
  | .bankRelease => 0#27
  | .clearing => 0#27
  | .programCompletion => 0#27
  | .migrationArrival => 0#27
  | .migrationResend => 0#27
  | .preemption => 0#27
  | .seize => 0#27
  | .contextStreamEnd => 0#27
  | .restore => 0#27
  | .retryResend => 0#27
  | .stakeRequest => 0#27
  | .stakeGrant => 0#27
  | .standbyMaskWrite => 0#27
  | .mailboxArrival => 0#27
  | .sendAcknowledgement => 0#27
  | .savedContextDelivery => 0#27
  | .alarmFire => 0#27
  | .sliceRequest => 0#27
  | .pageWalkComplete => 0#27
  | .confirmation => 0#27
  | .accessReply => 0#27
  | .translationFault => 0#27
  | .faultMessageResend => 0#27
  | .faultReplyResume => 0#27
  | .faultReplyRetryLater => 0#27
  | .faultReplyKill => 0#27
  | .overflowMessage => 0#27
  | .overflowRecall => 0#27
  | .overflowRecallAnswer => 0#27
  | .cacheOpComplete => 0#27
  | .sliceGate => 0#27
  | .sliceWake => 0#27
  | .sliceWakeComplete => 0#27
  | .shootdownDataRange => 0#27
  | .shootdownDataSpace => 0#27
  | .shootdownInstructionRange => 0#27
  | .shootdownInstructionProgram => 0#27
  | .shootdownEverything => 0#27
  | .shootdownNode => 0#27
  | .shootdownCompletion => 0#27
  | .regionTableUpdate => 0#27
  | .peerTranslationRequest => 0#27
  | .peerTranslationReply => 0#27
  | .leaseExpiry => 0#27
  | .debugHalt => 0#27
  | .debugResume => 0#27
  | .debugStep => 0#27
  | .debugQuiesce => 0#27
  | .debugStatus => 0#27
  | .debugDump => 0#27
  | .copySectorReply => 0#27
  | .copyCompletion => 0#27
  | .landingHandlerInvocation => 0#27
  | .cpyqRetry => 0#27
  | .streamRefill => 0#27
  | .exchangeWindow => 0#27
  | .exchangeArrival => 0#27
  | .barrierArrival => 0#27
  | .sstepRelease => 0#27
  | .superstepReplay => 0#27
  | .probeHop => 0#27
  | .autoProbe => 0#27
  | .xmpubCommit => 0#27
  | .xmrdCompletion => 0#27
  | .homeControllerOperation => 0#27
  | .homeControllerReply => 0#27
  | .queueGrant => 0#27
  | .waiterWithdrawal => 0#27
  | .waiterRecordReturn => 0#27
  | .creditMessage => 0#27
  | .peerUnreachable => 0#27
  | .slotFillComplete => 0#27
  | .rotationDataArrival => 0#27
  | .rotationCreditArrival => 0#27
  | .pairHashArrival => 0#27
  | .pairMatchTimeout => 0#27
  | .counterSnapshot => 0#27
  | .firmwareCheckpoint => 0#27
  | .recovery => 0#27
  | .recoveryEnd => 0#27
  | .heartbeatSend => 0#27
  | .heartbeatReceive => 0#27
  | .heartbeatMiss => 0#27
  | .heartbeatAckMiss => 0#27
  | .xegarLinkUp => 0#27
  | .mirrorUpdate => 0#27
  | .hostQueueEnqueue => 0#27
  | .hostQueueDequeue => 0#27
  | .hostSlotControlRead => 0#27
  | .hostSlotDataWrite => 0#27
  | .hostSlotCommit => 0#27
  | .hostSlotRelease => 0#27
  | .hostBar2Access => 0#27
  | .hostRegisterWrite => 0#27
  | .commandDispatch => 0#27
  | .packetSignalRelease => 0#27
  | .load => 0#27
  | .launch => 0#27
  | .arm => 0#27
  | .disarm => 0#27
  | .signal => 0#27
  | .mapq => 0#27
  | .mapbar => 0#27
  | .mapwin => 0#27
  | .grant => 0#27
  | .holdrel => 0#27
  | .tenantCreate => 0#27
  | .tenantDestroy => 0#27
  | .attest => 0#27
  | .cap => 0#27
  | .update => 0#27
  | .updateCommit => 0#27
  | .updateRevert => 0#27
  | .msix => 0#27
  | .decodeTableLoad => 0#27
  | .powerCapCheck => 0#27
  | .thermAlert => 0#27
  | .thermAlertClear => 0#27
  | .perstN => 0#27
  | .moduleReset => 0#27
  | .boot => 0#27
  | .ptmSynchronisation => 0#27
  | .remoteAccess => 0#27
  | .linkWordArrival => 0#27
  | .heartbeatAcknowledgement => 0#27
  | .mirrorAcknowledgement => 0#27

/-- The literal word of a wide instruction (R60), 0 for the others. -/
def Instr.literal : Instr → BitVec 32
  | .liw _ l => l
  | .liwh _ l => l
  | _ => 0

/-- OP 0x07: the bundle is wide (R54). -/
def isWideCode (w : BitVec 27) : Bool := w.extractLsb' 20 7 == 7#7

/-- The words of an instruction with S bit `s` and guard `g` (R53): two for a wide instruction. -/
def encode (i : Instr) (s : BitVec 1) (g : BitVec 4) : List (BitVec 32) :=
  let w : BitVec 32 := s ++ g ++ i.code
  if isWideCode i.code then [w, i.literal] else [w]

/-- The instruction of an opcode-table word: bits 31-0 the first word, bits 63-32 the word after it. A word whose guard is
0b1000 is skipped without being decoded (R59). -/
def decodeTableWord (nbits w : Nat) : Option Instr :=
  let v := BitVec.ofNat 64 (w % 2 ^ nbits)
  if v.extractLsb' 27 4 == 8#4 then none
  else match decodeCode (v.extractLsb' 0 27) (v.extractLsb' 32 32) with
    | .ok i => some i
    | .error _ => none

end Sys2Proof
end

