-- ==== Sys2Proof/Machine/Messages.lean ====
section
/-! DEFINITION. What messages and events of the JT2-8128 carry. A core is named by its CORE_ID (R76) as a number,
a home by 0-31 (the slices) or 32 (the reflex-store controller, R14), a thread by its program and serial (R74). -/

namespace Sys2Proof

/-- Privilege levels in the encoding of TSTATUS.LEVEL (R225). -/
inductive Level where
  | task | service | firmware
  deriving DecidableEq, Repr

/-- A thread wherever it is: program and serial of THREAD_ID (R74: kept through every move). -/
structure Who where
  prog : Nat
  serial : Nat
  deriving DecidableEq, Repr

/-- A mailbox message (R275): `src` the sending core, `who` and `id` the thread and the number of its request, which the
acknowledgement names (R276, R304), `form` what made it (0 SEND in any form, 3 a fault message, 5 a notice). `level` and
`who.prog` travel with it (R160). -/
structure Msg where
  src : Nat
  dst : Nat
  mb : Nat
  body : Payload
  level : Level
  who : Who
  id : Nat
  form : Nat
  deriving DecidableEq, Repr

/-- Where a core's context goes when it is vacated (R44, R49): the core record's vacate kind. -/
inductive Vacate where
  | live (dest : Nat)
  | evict (record : Nat)
  | stake (record : Nat) (request : Nat)
  deriving DecidableEq, Repr

/-- A STAKE on its way to the arbiter (R315). -/
structure StakeReq where
  id : Nat
  core : Nat
  who : Who
  stake : Nat
  count : Nat
  mask : BitVec 32
  deriving DecidableEq, Repr

/-- What failed a translation (R221): a thread's access or fetch by its number, or a copy id. -/
inductive FaultOf where
  | access (id : Nat)
  | copy (id : Nat)
  deriving DecidableEq, Repr

/-- A failed translation with the fields of its fault message (R221). -/
structure FaultRec where
  core : Nat
  who : Who
  bank : Nat
  of_ : FaultOf
  offset : Nat
  space : Nat
  kind : Nat
  reason : Nat
  tenant : Nat
  word : Nat
  deriving DecidableEq, Repr

/-- A shoot-down request (R215): kinds 0-4 in `kind`, the completion's core and mailbox. -/
structure Shoot where
  kind : Nat
  keep : Bool
  subject : Nat
  seq : Nat
  first : Nat
  length : Nat
  core : Nat
  mb : Nat
  deriving DecidableEq, Repr

/-- What an access does at its place (R186, R193-R195). -/
inductive Machine.MemOp where
  | probe (write : Bool)
  /-- A probe of the access kind "atomic" (R319). -/
  | confirm
  | read
  | write (data : List Byte) (mask : List Bool)
  | amo (fn : Nat) (wide : Bool) (a : Word)
  | cas (wide : Bool) (expect new : Word)
  | amof (fn : Nat) (pair : Bool) (a : Word)
  /-- SSRIM's claim of a 64-byte record for an owner (R265). -/
  | claim (owner : Nat)
  deriving DecidableEq, Repr

/-- Exchange data in flight (R299). -/
structure XMsg where
  src : Nat
  dst : Nat
  prog : Nat
  offset : Nat
  index : Nat
  data : List Byte
  deriving DecidableEq, Repr

/-- A probe on its way (R309): the thread and the copy id that sent it, the start thread and the threads recorded. `auto` marks a
service core's own probe (R310). -/
structure Probe where
  who : Who
  core : Nat
  copy : Nat
  auto : Bool
  start : Who
  at_ : Who
  found : List Word
  deriving DecidableEq, Repr

/-- A grant that wakes a parked producer or consumer (R330): its status (R327) and, for a consumer, the element. -/
structure Grant where
  who : Who
  core : Nat
  ticket : Nat
  consumer : Bool
  status : Nat
  desc : Word
  data : List Byte
  deriving DecidableEq, Repr

/-- A command packet as dequeued from window `window` under `tenant` (R417). -/
structure Packet where
  window : Nat
  tenant : Nat
  body : Line
  deriving DecidableEq, Repr

/-- What the active module mirrors (R405). -/
inductive Mirror where
  | publication (slot version : Nat) (time : Nat) (data : List Byte)
  | arm (index : Nat) (entry : Line)
  | disarm (index : Nat)
  | record (offset : Nat) (data : List Byte)
  | enqueue (home : Nat) (qcb : Nat) (space tenant : Nat) (data : List Byte)
  | dequeue (home : Nat) (qcb : Nat) (space tenant : Nat)
  | handover (home : Nat) (qcb : Nat) (space tenant : Nat)
  | queue (home : Nat) (qcb : Nat) (space tenant : Nat) (image storage : List Byte)
  deriving DecidableEq, Repr

/-- What this module sends across the peer port (R404-R407, R219, R339). -/
inductive PeerMsg where
  | linkUp (lease role epoch : Nat)
  | heartbeat (seq epoch time lastMirror : Nat)
  | heartbeatAck (seq : Nat)
  | mirror (seq : Nat) (m : Mirror)
  | mirrorAck (seq : Nat)
  | translate (id space offset : Nat)
  /-- The leaf's RD, WR and bytes, or the reason of the fault, and the lease in microseconds that the peer has reported as its L. -/
  | translation (id : Nat) (reason : Option Nat) (rd wr : Bool) (size lease : Nat)
  | access (id space offset size : Nat) (op : Machine.MemOp)
  /-- What an access of the other module returns: its bytes, or the reason of its failure. -/
  | accessReply (id : Nat) (reason : Option Nat) (data : List Byte)
  | enqueue (qcb space : Nat) (data : List Byte)
  | credits (qcb space count : Nat)
  | enqueueAck (qcb space status : Nat)
  deriving DecidableEq, Repr

/-- An enqueue that the other module sends to a MULTI queue homed here (R339). -/
structure PeerEnq where
  home : Nat
  qcb : Nat
  space : Nat
  tenant : Nat
  data : List Byte
  deriving DecidableEq, Repr

/-- An access that leaves by the host port (R203): the PCIe address that the window descriptor gives, and what is asked there. -/
structure HostReq where
  address : Nat
  size : Nat
  op : Machine.MemOp
  deriving DecidableEq, Repr

/-- What an event carries: one constructor for each event row of spec/opcode_table.json. -/
inductive Event where
  /-- REFLEX_RELEASE (R385). -/
  | reflexRelease (entry k : Nat)
  /-- SHADOW_BANK_SWITCH (R16). -/
  | shadowBankSwitch (core slot : Nat)
  /-- DEADLINE_MISS (R387). -/
  | deadlineMiss (entry k : Nat)
  /-- BUDGET_EXCEEDED (R386). -/
  | budgetExceeded (core bank : Nat)
  /-- STARVATION_GUARD (R38). -/
  | starvationGuard (core slot : Nat)
  /-- ADMISSION (R35). -/
  | admission
  /-- TASK_DISPATCH (R27). -/
  | taskDispatch (prog : Nat)
  /-- BANK_RELEASE (R304). -/
  | bankRelease (core bank : Nat)
  /-- CLEARING (R37). -/
  | clearing (core : Nat)
  /-- PROGRAM_COMPLETION (R318). -/
  | programCompletion (prog : Nat)
  /-- MIGRATION_ARRIVAL (R41). -/
  | migrationArrival (id : Nat)
  /-- MIGRATION_RESEND (R42). -/
  | migrationResend (id : Nat)
  /-- PREEMPTION (R44). -/
  | preemption (core : Nat) (dest : Option Nat)
  /-- SEIZE (R47). -/
  | seize (core : Nat) (how : Vacate)
  /-- CONTEXT_STREAM_END (R46). -/
  | contextStreamEnd (id : Nat)
  /-- RESTORE (R45). -/
  | restore (core id : Nat)
  /-- RETRY_RESEND (R45). -/
  | retryResend (id : Nat)
  /-- STAKE_REQUEST (R49). -/
  | stakeRequest (r : StakeReq)
  /-- STAKE_GRANT (R316). -/
  | stakeGrant (core id : Nat)
  /-- STANDBY_MASK_WRITE (R392). -/
  | standbyMaskWrite (mask : BitVec 32)
  /-- MAILBOX_ARRIVAL (R273). -/
  | mailboxArrival (m : Msg)
  /-- SEND_ACKNOWLEDGEMENT (R276). -/
  | sendAcknowledgement (who : Who) (id status : Nat)
  /-- SAVED_CONTEXT_DELIVERY (R270). -/
  | savedContextDelivery (who : Who) (kind mb : Nat) (body : Payload)
  /-- ALARM_FIRE (R156). -/
  | alarmFire (who : Who)
  /-- SLICE_REQUEST (R213). -/
  | sliceRequest (id : Nat)
  /-- PAGE_WALK_COMPLETE (R209). -/
  | pageWalkComplete (id : Nat)
  /-- CONFIRMATION (R169). -/
  | confirmation (id : Nat)
  /-- ACCESS_REPLY (R168). -/
  | accessReply (id : Nat)
  /-- TRANSLATION_FAULT (R221). -/
  | translationFault (f : FaultRec)
  /-- FAULT_MESSAGE_RESEND (R221). -/
  | faultMessageResend (core fid : Nat)
  /-- FAULT_REPLY_RESUME (R223). -/
  | faultReplyResume (core fid : Nat)
  /-- FAULT_REPLY_RETRY_LATER (R223). -/
  | faultReplyRetryLater (core fid : Nat)
  /-- FAULT_REPLY_KILL (R223). -/
  | faultReplyKill (core fid : Nat)
  /-- OVERFLOW_MESSAGE (R171). -/
  | overflowMessage (slice tenant space line cluster : Nat)
  /-- OVERFLOW_RECALL (R171). -/
  | overflowRecall (id : Nat)
  /-- OVERFLOW_RECALL_ANSWER (R171). -/
  | overflowRecallAnswer (id : Nat)
  /-- CACHE_OP_COMPLETE (R196). -/
  | cacheOpComplete (id : Nat)
  /-- SLICE_GATE (R166). -/
  | sliceGate (slice : Nat)
  /-- SLICE_WAKE (R166). -/
  | sliceWake (slice : Nat)
  /-- SLICE_WAKE_COMPLETE (R166). -/
  | sliceWakeComplete (slice : Nat)
  /-- SHOOTDOWN_DATA_RANGE (R215). -/
  | shootdownDataRange (r : Shoot)
  /-- SHOOTDOWN_DATA_SPACE (R215). -/
  | shootdownDataSpace (r : Shoot)
  /-- SHOOTDOWN_INSTRUCTION_RANGE (R215). -/
  | shootdownInstructionRange (r : Shoot)
  /-- SHOOTDOWN_INSTRUCTION_PROGRAM (R215). -/
  | shootdownInstructionProgram (r : Shoot)
  /-- SHOOTDOWN_EVERYTHING (R215). -/
  | shootdownEverything (r : Shoot)
  /-- SHOOTDOWN_NODE (R216). -/
  | shootdownNode (cluster : Nat)
  /-- SHOOTDOWN_COMPLETION (R218). -/
  | shootdownCompletion
  /-- REGION_TABLE_UPDATE (R373). -/
  | regionTableUpdate (node id : Nat)
  /-- PEER_TRANSLATION_REQUEST (R219); with an access, the peer's access itself under the translation it was given. -/
  | peerTranslationRequest (id space offset : Nat) (access : Option (Nat × Machine.MemOp))
  /-- PEER_TRANSLATION_REPLY (R219): the reason of a failure, or the RD and WR bits of the leaf. -/
  | peerTranslationReply (id : Nat) (reason : Option Nat) (rd wr : Bool) (size : Nat)
  /-- LEASE_EXPIRY (R219). -/
  | leaseExpiry (slice space page : Nat)
  /-- DEBUG_HALT (R235). -/
  | debugHalt (core : Nat)
  /-- DEBUG_RESUME (R235). -/
  | debugResume (core : Nat)
  /-- DEBUG_STEP (R235). -/
  | debugStep (core slot : Nat)
  /-- DEBUG_QUIESCE (R236). -/
  | debugQuiesce (core : Nat)
  /-- DEBUG_STATUS (R235). -/
  | debugStatus (core replyCore mb : Nat)
  /-- DEBUG_DUMP (R235). -/
  | debugDump (core offset replyCore mb : Nat)
  /-- COPY_SECTOR_REPLY (R278). -/
  | copySectorReply (core copy : Nat)
  /-- COPY_COMPLETION (R278). -/
  | copyCompletion (core copy : Nat)
  /-- LANDING_HANDLER_INVOCATION (R287). -/
  | landingHandlerInvocation (core : Nat)
  /-- CPYQ_RETRY (R288). -/
  | cpyqRetry (core copy : Nat)
  /-- STREAM_REFILL (R292). -/
  | streamRefill (core copy : Nat)
  /-- EXCHANGE_WINDOW (R299). -/
  | exchangeWindow (who : Who) (id entry : Nat)
  /-- EXCHANGE_ARRIVAL (R299). -/
  | exchangeArrival (x : XMsg)
  /-- BARRIER_ARRIVAL (R297). -/
  | barrierArrival (who : Who)
  /-- SSTEP_RELEASE (R297). -/
  | sstepRelease (prog copy : Nat)
  /-- SUPERSTEP_REPLAY (R402). -/
  | superstepReplay (prog copy : Nat)
  /-- PROBE_HOP (R309). -/
  | probeHop (p : Probe)
  /-- AUTO_PROBE (R310). -/
  | autoProbe (who : Who)
  /-- XMPUB_COMMIT (R312). -/
  | xmpubCommit (core copy : Nat)
  /-- XMRD_COMPLETION (R313). -/
  | xmrdCompletion (core copy : Nat)
  /-- HOME_CONTROLLER_OPERATION (R331). -/
  | homeControllerOperation (id : Nat) (peer : Option PeerEnq)
  /-- HOME_CONTROLLER_REPLY (R331); for an enqueue that has crossed, the status of the other module's acknowledgement (R339). -/
  | homeControllerReply (id : Nat) (ack : Option Nat)
  /-- QUEUE_GRANT (R330). -/
  | queueGrant (g : Grant)
  /-- WAITER_WITHDRAWAL (R337). -/
  | waiterWithdrawal (home ticket : Nat) (who : Who)
  /-- WAITER_RECORD_RETURN (R330). -/
  | waiterRecordReturn (home : Nat)
  /-- CREDIT_MESSAGE (R339). -/
  | creditMessage (home qcb space tenant count : Nat)
  /-- PEER_UNREACHABLE (R340). -/
  | peerUnreachable
  /-- SLOT_FILL_COMPLETE (R361). -/
  | slotFillComplete (core slot fill : Nat)
  /-- ROTATION_DATA_ARRIVAL (R364). -/
  | rotationDataArrival (core : Nat) (isA : Bool) (prog : Nat) (data : List Byte) (tag : Option (Nat × Nat)) (full : Bool)
  /-- ROTATION_CREDIT_ARRIVAL (R364). -/
  | rotationCreditArrival (core : Nat) (isA : Bool) (prog : Nat)
  /-- PAIR_HASH_ARRIVAL (R395). -/
  | pairHashArrival (id : Nat) (hash : BitVec 64)
  /-- PAIR_MATCH_TIMEOUT (R395). -/
  | pairMatchTimeout (id : Nat)
  /-- COUNTER_SNAPSHOT (R413). -/
  | counterSnapshot
  /-- FIRMWARE_CHECKPOINT (R421). -/
  | firmwareCheckpoint
  /-- RECOVERY (R421). -/
  | recovery
  /-- RECOVERY_END (R421). -/
  | recoveryEnd
  /-- HEARTBEAT_SEND (R407). -/
  | heartbeatSend
  /-- HEARTBEAT_RECEIVE (R407). -/
  | heartbeatReceive (seq epoch time lastMirror : Nat) (check : Bool)
  /-- HEARTBEAT_MISS (R407). -/
  | heartbeatMiss
  /-- HEARTBEAT_ACK_MISS (R407). -/
  | heartbeatAckMiss
  /-- XEGAR_LINK_UP (R404). -/
  | xegarLinkUp (up : Bool) (lease role epoch : Nat)
  /-- MIRROR_UPDATE (R405). -/
  | mirrorUpdate (seq epoch : Nat) (m : Mirror)
  /-- HOST_QUEUE_ENQUEUE (R414). -/
  | hostQueueEnqueue (window offset : Nat) (data : List Byte)
  /-- HOST_QUEUE_DEQUEUE (R414). -/
  | hostQueueDequeue (window offset size : Nat)
  /-- HOST_SLOT_CONTROL_READ (R415). -/
  | hostSlotControlRead (slot : Nat)
  /-- HOST_SLOT_DATA_WRITE (R415). -/
  | hostSlotDataWrite (slot offset : Nat) (data : List Byte)
  /-- HOST_SLOT_COMMIT (R415). -/
  | hostSlotCommit (slot : Nat) (time : Word)
  /-- HOST_SLOT_RELEASE (R415). -/
  | hostSlotRelease (slot : Nat)
  /-- HOST_BAR2_ACCESS (R416). -/
  | hostBar2Access (write : Bool) (offset size : Nat) (data : List Byte)
  /-- HOST_REGISTER_WRITE (R412). -/
  | hostRegisterWrite (offset : Nat) (data : List Byte)
  /-- COMMAND_DISPATCH (R34). -/
  | commandDispatch
  /-- PACKET_SIGNAL_RELEASE (R34). -/
  | packetSignalRelease (window : Nat)
  /-- LOAD (R418). -/
  | load (p : Packet)
  /-- LAUNCH (R419). -/
  | launch (p : Packet)
  /-- ARM (R384). -/
  | arm (p : Packet)
  /-- DISARM (R385). -/
  | disarm (p : Packet)
  /-- SIGNAL (R418). -/
  | signal (p : Packet)
  /-- MAPQ (R432). -/
  | mapq (p : Packet)
  /-- MAPBAR (R416). -/
  | mapbar (p : Packet)
  /-- MAPWIN (R418). -/
  | mapwin (p : Packet)
  /-- GRANT (R311). -/
  | grant (p : Packet)
  /-- HOLDREL (R389). -/
  | holdrel (p : Packet)
  /-- TENANT_CREATE (R426). -/
  | tenantCreate (p : Packet)
  /-- TENANT_DESTROY (R426). -/
  | tenantDestroy (p : Packet)
  /-- ATTEST (R425). -/
  | attest (p : Packet)
  /-- CAP (R428). -/
  | cap (p : Packet)
  /-- UPDATE (R427). -/
  | update (p : Packet)
  /-- UPDATE_COMMIT (R427). -/
  | updateCommit
  /-- UPDATE_REVERT (R427). -/
  | updateRevert
  /-- MSIX (R418). -/
  | msix (p : Packet)
  /-- DECODE_TABLE_LOAD (R424). -/
  | decodeTableLoad (core revision : Nat) (image : Nat)
  /-- POWER_CAP_CHECK (R428). -/
  | powerCapCheck
  /-- THERM_ALERT (R428). -/
  | thermAlert
  /-- THERM_ALERT_CLEAR (R428). -/
  | thermAlertClear
  /-- PERST_N (R429). -/
  | perstN (low : Bool)
  /-- MODULE_RESET (R429): of PWR_GOOD (`power`) or of MOD_RST_N. -/
  | moduleReset (power low : Bool)
  /-- BOOT (R422). -/
  | boot
  /-- PTM_SYNCHRONISATION (R155). -/
  | ptmSynchronisation (hostTime : Nat)
  /-- REMOTE_ACCESS (R160). -/
  | remoteAccess (id : Nat)
  /-- LINK_WORD_ARRIVAL (R250). -/
  | linkWordArrival (core port : Nat) (prog : Nat) (v : Vec) (hops : List Nat)
  /-- HEARTBEAT_ACKNOWLEDGEMENT (R407). -/
  | heartbeatAcknowledgement (seq : Nat)
  /-- MIRROR_ACKNOWLEDGEMENT (R405). -/
  | mirrorAcknowledgement (seq : Nat)
  deriving DecidableEq, Repr

/-- What a core's event arbiter takes (R237): the core, and the rank of its kind among the events that reach the port in the
same cycle. A debug command is a message to mailbox 14, a fault reply one to mailbox 1. -/
def Event.arrival : Event → Option (Nat × Nat)
  | .seize c _ => some (c, 0)
  | .stakeGrant c _ => some (c, 3)
  | .mailboxArrival m => some (m.dst, if m.mb = 14 then 1 else if m.mb = 1 then 2 else 4 + m.mb)
  | _ => none

/-- The step of the opcode table that takes the event. -/
def Event.step : Event → Instr
  | .reflexRelease _ _ => .reflexRelease
  | .shadowBankSwitch _ _ => .shadowBankSwitch
  | .deadlineMiss _ _ => .deadlineMiss
  | .budgetExceeded _ _ => .budgetExceeded
  | .starvationGuard _ _ => .starvationGuard
  | .admission => .admission
  | .taskDispatch _ => .taskDispatch
  | .bankRelease _ _ => .bankRelease
  | .clearing _ => .clearing
  | .programCompletion _ => .programCompletion
  | .migrationArrival _ => .migrationArrival
  | .migrationResend _ => .migrationResend
  | .preemption _ _ => .preemption
  | .seize _ _ => .seize
  | .contextStreamEnd _ => .contextStreamEnd
  | .restore _ _ => .restore
  | .retryResend _ => .retryResend
  | .stakeRequest _ => .stakeRequest
  | .stakeGrant _ _ => .stakeGrant
  | .standbyMaskWrite _ => .standbyMaskWrite
  | .mailboxArrival _ => .mailboxArrival
  | .sendAcknowledgement _ _ _ => .sendAcknowledgement
  | .savedContextDelivery _ _ _ _ => .savedContextDelivery
  | .alarmFire _ => .alarmFire
  | .sliceRequest _ => .sliceRequest
  | .pageWalkComplete _ => .pageWalkComplete
  | .confirmation _ => .confirmation
  | .accessReply _ => .accessReply
  | .translationFault _ => .translationFault
  | .faultMessageResend _ _ => .faultMessageResend
  | .faultReplyResume _ _ => .faultReplyResume
  | .faultReplyRetryLater _ _ => .faultReplyRetryLater
  | .faultReplyKill _ _ => .faultReplyKill
  | .overflowMessage _ _ _ _ _ => .overflowMessage
  | .overflowRecall _ => .overflowRecall
  | .overflowRecallAnswer _ => .overflowRecallAnswer
  | .cacheOpComplete _ => .cacheOpComplete
  | .sliceGate _ => .sliceGate
  | .sliceWake _ => .sliceWake
  | .sliceWakeComplete _ => .sliceWakeComplete
  | .shootdownDataRange _ => .shootdownDataRange
  | .shootdownDataSpace _ => .shootdownDataSpace
  | .shootdownInstructionRange _ => .shootdownInstructionRange
  | .shootdownInstructionProgram _ => .shootdownInstructionProgram
  | .shootdownEverything _ => .shootdownEverything
  | .shootdownNode _ => .shootdownNode
  | .shootdownCompletion => .shootdownCompletion
  | .regionTableUpdate _ _ => .regionTableUpdate
  | .peerTranslationRequest _ _ _ _ => .peerTranslationRequest
  | .peerTranslationReply _ _ _ _ _ => .peerTranslationReply
  | .leaseExpiry _ _ _ => .leaseExpiry
  | .debugHalt _ => .debugHalt
  | .debugResume _ => .debugResume
  | .debugStep _ _ => .debugStep
  | .debugQuiesce _ => .debugQuiesce
  | .debugStatus _ _ _ => .debugStatus
  | .debugDump _ _ _ _ => .debugDump
  | .copySectorReply _ _ => .copySectorReply
  | .copyCompletion _ _ => .copyCompletion
  | .landingHandlerInvocation _ => .landingHandlerInvocation
  | .cpyqRetry _ _ => .cpyqRetry
  | .streamRefill _ _ => .streamRefill
  | .exchangeWindow _ _ _ => .exchangeWindow
  | .exchangeArrival _ => .exchangeArrival
  | .barrierArrival _ => .barrierArrival
  | .sstepRelease _ _ => .sstepRelease
  | .superstepReplay _ _ => .superstepReplay
  | .probeHop _ => .probeHop
  | .autoProbe _ => .autoProbe
  | .xmpubCommit _ _ => .xmpubCommit
  | .xmrdCompletion _ _ => .xmrdCompletion
  | .homeControllerOperation _ _ => .homeControllerOperation
  | .homeControllerReply _ _ => .homeControllerReply
  | .queueGrant _ => .queueGrant
  | .waiterWithdrawal _ _ _ => .waiterWithdrawal
  | .waiterRecordReturn _ => .waiterRecordReturn
  | .creditMessage _ _ _ _ _ => .creditMessage
  | .peerUnreachable => .peerUnreachable
  | .slotFillComplete _ _ _ => .slotFillComplete
  | .rotationDataArrival _ _ _ _ _ _ => .rotationDataArrival
  | .rotationCreditArrival _ _ _ => .rotationCreditArrival
  | .pairHashArrival _ _ => .pairHashArrival
  | .pairMatchTimeout _ => .pairMatchTimeout
  | .counterSnapshot => .counterSnapshot
  | .firmwareCheckpoint => .firmwareCheckpoint
  | .recovery => .recovery
  | .recoveryEnd => .recoveryEnd
  | .heartbeatSend => .heartbeatSend
  | .heartbeatReceive _ _ _ _ _ => .heartbeatReceive
  | .heartbeatMiss => .heartbeatMiss
  | .heartbeatAckMiss => .heartbeatAckMiss
  | .xegarLinkUp _ _ _ _ => .xegarLinkUp
  | .mirrorUpdate _ _ _ => .mirrorUpdate
  | .hostQueueEnqueue _ _ _ => .hostQueueEnqueue
  | .hostQueueDequeue _ _ _ => .hostQueueDequeue
  | .hostSlotControlRead _ => .hostSlotControlRead
  | .hostSlotDataWrite _ _ _ => .hostSlotDataWrite
  | .hostSlotCommit _ _ => .hostSlotCommit
  | .hostSlotRelease _ => .hostSlotRelease
  | .hostBar2Access _ _ _ _ => .hostBar2Access
  | .hostRegisterWrite _ _ => .hostRegisterWrite
  | .commandDispatch => .commandDispatch
  | .packetSignalRelease _ => .packetSignalRelease
  | .load _ => .load
  | .launch _ => .launch
  | .arm _ => .arm
  | .disarm _ => .disarm
  | .signal _ => .signal
  | .mapq _ => .mapq
  | .mapbar _ => .mapbar
  | .mapwin _ => .mapwin
  | .grant _ => .grant
  | .holdrel _ => .holdrel
  | .tenantCreate _ => .tenantCreate
  | .tenantDestroy _ => .tenantDestroy
  | .attest _ => .attest
  | .cap _ => .cap
  | .update _ => .update
  | .updateCommit => .updateCommit
  | .updateRevert => .updateRevert
  | .msix _ => .msix
  | .decodeTableLoad _ _ _ => .decodeTableLoad
  | .powerCapCheck => .powerCapCheck
  | .thermAlert => .thermAlert
  | .thermAlertClear => .thermAlertClear
  | .perstN _ => .perstN
  | .moduleReset _ _ => .moduleReset
  | .boot => .boot
  | .ptmSynchronisation _ => .ptmSynchronisation
  | .remoteAccess _ => .remoteAccess
  | .linkWordArrival _ _ _ _ _ => .linkWordArrival
  | .heartbeatAcknowledgement _ => .heartbeatAcknowledgement
  | .mirrorAcknowledgement _ => .mirrorAcknowledgement

end Sys2Proof
end

