-- ==== Sys2Proof/Machine/State.lean ====
section
/-! DEFINITION. The state of the module as plain data (R3-R52, R71-R90 and the state rules of every chapter), the reasons a
step can stop, and the state after reset. INVENTORY.md lists each field's rule and reset value. -/

namespace Sys2Proof.Machine

/-- Why the model stops: never. Every step of the manual has an effect, a trap among them, and time passes when nothing
is due, so this type has no constructor. -/
inductive Fault where
  deriving DecidableEq, Repr

/-- Why the model refuses an instruction. -/
inductive Refusal where
  /-- Raised by `exec` alone, for a row of the opcode table that has no meaning yet. Safe. -/
  | notModelled (mnemonic : String)
  deriving DecidableEq, Repr

/-! ### Threads (R16, R20, R21) -/

/-- What a Blocked thread waits on: the wait kinds of R233 with what R277, R302 and R308 need of them. -/
inductive Wait where
  | recv (mask : BitVec 16)
  | deq
  | enq
  | gbar (episode : Nat)
  | gwait (episode : Nat)
  | xrecv (entry : Nat)
  | sstep
  | link (port : Nat)
  /-- MROT waits on the neighbour of `port` (R364), whose wait kind is the link read's. -/
  | rotation (port : Nat)
  | faultReply
  | slot
  deriving DecidableEq, Repr

/-- R20. Free is the absence of a thread from its bank, Saved and Moving the places a context is kept in. -/
inductive TState where
  | ready | blocked (w : Wait) | ended
  deriving DecidableEq, Repr

/-- How the thread was started (R31, R287, R303), and what the manual then keeps of it. -/
inductive Kind where
  | gang (prog rank : Nat) | taskSet (index : Nat) | reflex (entry release : Nat) | spawned | landing (copy : Nat) | firmware
  deriving DecidableEq, Repr

/-- One trap bank: TSTATUS, TCAUSE, TVAL, TEPC, TVEC, TSCRATCH (R225). -/
structure TrapBank where
  held : Bool := false
  level : Level := .task
  pwsave : Byte := 0
  cause : Byte := 0
  tval : Word := 0
  tepc : IAddr := 0
  tvec : IAddr := 0
  scratch : Word := 0
  deriving DecidableEq, Repr

/-- The binding of one of v20-v23 (R289-R293). `strips` are the prefetched strips of a read stream or the appended
ones of a write stream; `n` is how many strips of the pattern the engine has fetched or written. -/
structure Stream where
  desc : Nat
  write : Bool
  /-- The descriptor as it was read at the binding or at the last restore (R291). -/
  image : Payload := 0
  killed : Bool := false
  fault : Bool := false
  i0 : Nat := 0
  i1 : Nat := 0
  i2 : Nat := 0
  copy : Nat
  space : Nat
  strips : List Vec := []
  n : Nat := 0
  deriving DecidableEq, Repr

/-- What answers a word that waits (R169, R270, R276, R331, R395). -/
inductive Reply where
  /-- The value of a load or atomic, or 0 for an acknowledgement. -/
  | value (v : Nat)
  /-- A mailbox entry taken for a Blocked RECV (R277). -/
  | message (mb : Nat) (body : Payload)
  /-- x[d], whether the status is OK, and bytes for the own TCM (R329, R334). -/
  | result (xd : Word) (ok : Bool) (data : List Byte)
  | trap (cause : Nat) (tval : Word)
  deriving DecidableEq, Repr

/-- A word of the thread that has sent a request: `word` is its place in the bundle. -/
structure Pend where
  word : Nat
  id : Nat
  reply : Option Reply
  deriving DecidableEq, Repr

/-- One thread context (R21), with what the manual keeps about a thread beside its registers. -/
structure Thread where
  st : TState := .ready
  kind : Kind := .spawned
  prog : Nat := 0
  serial : Nat := 0
  tenant : Nat := 0
  level : Level := .task
  latency : Bool := false
  profile : Nat := 0
  pc : IAddr := 0
  x : Vector Word 16 := Vector.replicate 16 0
  pw : Byte := 1
  v : Vector Vec 28 := Vector.replicate 28 0
  space : BitVec 16 := 0
  farsp : BitVec 16 := 0
  vconf : Word := 0
  trap0 : TrapBank := {}
  trap1 : TrapBank := {}
  streams : Map Stream := []
  planbase : Word := 0
  gangid : Word := 0
  /-- The argument block it was launched with, which the threads it spawns share (R31). -/
  arg : Word := 0
  /-- The alarm: meridian time and mailbox (R156). -/
  alarm : Option (Nat × Nat) := none
  /-- The core it stayed on when the thread migrated (R157). -/
  alarmOn : Option Nat := none
  /-- The ticket of the operation that the core withdrew as it was vacated (R47, R233). -/
  withdrawn : Nat := 0
  /-- Words of the bundle at pc that wait for a reply (R169, R270, R276, R331). -/
  pend : List Pend := []
  /-- Stores and atomics that have left and are not acknowledged (R174, R182). -/
  unacked : List Nat := []
  /-- CWB, CINV and ICINV not yet completed (R196-R200). -/
  cacheOps : List Nat := []
  /-- Messages not yet acknowledged (R304, R318). -/
  sends : Nat := 0
  /-- The outstanding fault of its own access or fetch (R221, R224): fault id and record. -/
  fault : Option (Nat × FaultRec) := none
  /-- Barrier domain of its group, and the episode it has arrived in (R24, R301, R302). -/
  group : Option Nat := none
  arrived : Nat := 0
  /-- Stakes held: id and cores (R315). -/
  stakes : Map (List Nat) := []
  /-- Stakes whose grant has not come (R315). -/
  staking : List Nat := []
  /-- Cycles Ready without issue (R38), cycles Ready since release (R386), BUDGET_EXCEEDED raised (R386). -/
  starve : Nat := 0
  budget : Nat := 0
  overBudget : Bool := false
  /-- The fabric cycle at which it became Blocked (R310). -/
  since : Nat := 0
  /-- The earliest core cycle in which its next word may issue (R39, R126). -/
  notBefore : Nat := 0
  /-- The word just issued was a YIELD, which leaves the count running (R306). -/
  yielded : Bool := false
  /-- It has arrived by migration and not issued yet (R40). -/
  fresh : Bool := false
  /-- The word at pc is a migrate-hint load that travels with the thread (R305). -/
  hinted : Bool := false
  /-- Back-pointers: core and forwarding entry (R234). -/
  back : List (Nat × Nat) := []
  /-- The superstep's LATE condition is kept in the plan header (R295); this marks a rerun of a reflex pair (R396). -/
  reruns : Nat := 0
  /-- Compared requests made in this release (R395), and how many had been at the last SSTEP (R402). -/
  compared : Nat := 0
  comparedAt : Nat := 0
  /-- An activation's end found by the pair partner (R387). -/
  ran : Bool := false
  /-- Registers whose result is not ready yet, with the core cycle from which words may use them (R126, R155). -/
  xAt : Map Nat := []
  /-- The bundle as it was fetched, while a word of it waits (R200). -/
  fetched : Option (IAddr × BitVec 64) := none
  deriving DecidableEq, Repr

/-! ### Cores (R15) -/

/-- A memory with its poisoned 8-byte units (R393). -/
structure Sram where
  bytes : Mem := []
  bad : List Nat := []
  deriving DecidableEq, Repr

/-- One queued vector word (R243, R244) with the integer operands and VCONF captured at issue. `await` is the access its
head waits for, `got` the bytes read. -/
structure SeqEntry where
  bank : Nat
  word : Instr
  wordAddr : IAddr
  ops : List Word := []
  vconf : Word := 0
  await : Option Nat := none
  got : Option Nat := none
  fresh : Bool := false
  paired : Bool := false
  old : Option (Nat × Vec) := none
  /-- Queued behind the VLOOP of its thread. -/
  late : Bool := false
  /-- The first repetition of a loop word, whose place and operands the loop's body holds (R247). -/
  loop : Bool := false
  /-- The word as fetched (R233). -/
  raw : BitVec 32 := 0
  /-- The number of the compared request that a queued store is (R395), in program order. -/
  num : Nat := 0
  /-- Its age: requests and queued words numbered below this one were issued before the word (R244). -/
  after : Nat := 0
  deriving DecidableEq, Repr

/-- A VLOOP in the sequencer (R247): how many words its body still lacks, the body, what remains of the repetition that
runs, and how many repetitions follow it. The first repetition runs from the queue as its words issue, so that `left` is the count until
the body is complete. -/
structure VLoop where
  bank : Nat
  left : Nat
  length : Nat
  toIssue : Nat
  body : List SeqEntry := []
  rest : List SeqEntry := []
  deriving DecidableEq, Repr

/-- A line of the L0 data cache (R163). -/
structure L0Line where
  space : Nat
  tenant : Nat
  line : Nat
  writable : Bool
  data : Line
  /-- Its poisoned 8-byte units (R393). -/
  bad : List Nat := []
  deriving DecidableEq, Repr

/-- A line of the L0 instruction cache (R164, R390). -/
structure L0ILine where
  prog : Nat
  line : Nat
  locked : Bool
  data : Line
  /-- Its poisoned 8-byte units (R393). -/
  bad : List Nat := []
  deriving DecidableEq, Repr

/-- Weight slot states (R352). -/
inductive SlotState where
  | empty | loading (fill : Nat) | full
  deriving DecidableEq, Repr

/-- A weight slot (R352, R372): image, state and tag. -/
structure WSlot where
  state : SlotState := .empty
  image : Mem := []
  tag : Option (Nat × Nat) := none
  deriving DecidableEq, Repr

/-- What a copy id is used for, with the operands it was issued with (R280, R282-R288, R292, R293, R312, R313). Block copies
keep the contiguous side, the blocks' space, base and log2 size, the table entries as read, and where the table lies. A
`tail` are strips appended before STRMX, with their addresses. A publication or fetch has its buffer once it has begun. -/
inductive CopyWork where
  | linear (src dst : Nat)
  | tensor (record : Line) (base : Nat) (store : Bool)
  | blocks (gather : Bool) (flat space base log : Nat) (entries : List Nat) (tspace table : Nat)
  | handler (src dst entry desc : Nat)
  | elements (src qcb elem : Nat)
  | stream (reg : Nat)
  | tail (l : List (Nat × Vec))
  | publish (slot src : Nat) (buffer : Option Nat)
  | fetch (slot dst : Nat) (time : Option Nat) (buffer : Option Nat)
  | probe (area : Nat)
  | refused
  deriving DecidableEq, Repr

/-- A copy in flight (R278-R281): the record's fields and what the engine needs beside them. `sectors` is the completed
prefix. -/
structure Copy where
  kind : Nat
  state : Nat := 0
  slot : Nat
  who : Who
  space : Nat
  tenant : Nat
  level : Level
  faultId : Nat := 0
  src : Nat := 0
  dst : Nat := 0
  length : Nat := 0
  sectors : Nat := 0
  work : CopyWork
  /-- Kind of its entry in mailbox 0 (R274). -/
  entry : Nat := 1
  status : Nat := 0
  a : Nat := 0
  b : Nat := 0
  c : Nat := 0
  /-- How its thread was started, and the number of the issue among the thread's compared requests (R393, R395). -/
  kind_ : Kind
  number : Nat := 0
  /-- The compared request that it waits for (R395). -/
  waitPair : Option Nat := none
  /-- A request that it waits for is outstanding (R236, R288). -/
  busy : Bool := false
  fault : Option FaultRec := none
  deriving DecidableEq, Repr

/-- A forwarding entry (R43): the thread (`who.serial` ≠ 0) or whole core context that left, and where it is now. -/
structure Forward where
  prog : Nat
  thread : Option Who
  dest : Nat
  deriving DecidableEq, Repr

/-- One core. Compute cores are 0-15 of clusters 0-33; 16 is a service core; clusters 62 and 63 the front end (R76). -/
structure Core where
  /-- Bank number to the context in it; an absent bank is Free (R16, R20). -/
  banks : Map Thread := []
  /-- The bank each slot runs, where it is not the live bank of the slot's number (R16). -/
  running : Map Nat := []
  tcm : Sram := {}
  tiles : Mem := []
  latch : Mem := []
  slots : Map WSlot := []
  mconf : Word := 0x0000000003000000
  landA : Option (List Byte) := none
  landB : Option (List Byte × Option (Nat × Nat) × Bool) := none
  /-- Headers in the Levain header cache: record offset and image (R374). -/
  headers : List (Nat × Line) := []
  mirrors : Nat := 0
  /-- The words in the coprocessor queue and the engine (R15, R353): the core cycle in which each ends, and its bank. -/
  mx : List (Nat × Nat) := []
  seq : List SeqEntry := []
  vloop : Option VLoop := none
  linkcfg : Word := 0
  /-- Inbound FIFOs of ports N, E, S, W (R249). -/
  fifo : Map (List Vec) := []
  mail : Map (List Payload) := []
  copies : Map Copy := []
  /-- Record cache: space, tenant, address, record; most recent first (R284). -/
  records : List (Nat × Nat × Nat × Line) := []
  /-- Completions that wait for room in mailbox 0, and the grant register (R273). -/
  waiting0 : List Payload := []
  grants : List (Who × Payload) := []
  l0d : List L0Line := []
  l0i : List L0ILine := []
  /-- Reach map: compute cores and cluster scratchpads of a program (R160). -/
  reach : List (Nat × Nat) := []
  reachPads : List (Nat × Nat) := []
  regions : BitVec 512 := 0
  forwards : Map Forward := []
  back : List (Nat × Nat) := []
  /-- Threads in the migration run queue (R42). -/
  runQueue : List Nat := []
  halted : Bool := false
  stepSlot : Option Nat := none
  quiesce : Bool := false
  /-- The thread that has staked this core (R50). -/
  staked : Option Who := none
  /-- Bank 3 is reserved for landing handlers; sectors that have landed and wait (R287): copy, address, offset, data. -/
  reserved : Bool := false
  landing : List (Nat × Nat × Nat × Payload) := []
  table : Nat := 0
  rr : Nat := 0
  /-- One more than the core cycle of the last issue (R39). -/
  lastIssue : Nat := 0
  /-- The fabric cycle in which the egress buffer will have drained (R12). -/
  egress : Nat := 0
  /-- The core cycle from which the divider is free (R126). -/
  divFree : Nat := 0
  /-- One more than the fabric cycle in which the event arbiter last took an event (R237). -/
  arb : Nat := 0
  /-- Bulk slots that have been Ready for 256 cycles, in order (R38). -/
  guarded : List Nat := []
  /-- Undo log (R400, R401): written granules of this superstep, entries used, OVERFLOW. -/
  undo : Option (List Nat) := none
  undoUsed : Nat := 0
  undoOver : Bool := false
  faultIds : Nat := 0
  /-- Fault messages kept while mailbox 4 is full: fault id and target (R221). -/
  keptFaults : List Nat := []
  /-- Clearing (R37) or vacating (R47) in progress: nothing issues, nothing is placed. -/
  clearing : Bool := false
  seized : Option Vacate := none
  /-- The service core's overflow table (R171): tenant, space, line and the clusters of its sharers. -/
  overflow : List ((Nat × Nat × Nat) × List Nat) := []
  deriving DecidableEq, Repr

/-! ### Slices, homes and memories -/

/-- A 32-byte sector in a slice (R165); `bad` its poisoned 8-byte units (R393). -/
structure Sector where
  data : Payload
  dirty : Bool
  bad : List Nat := []
  deriving DecidableEq, Repr

/-- A line of a slice with its directory entry (R165, R170, R171). `frame` is the physical line it was filled from, `way` its
way in its set. -/
structure SLine where
  instr : Bool := false
  tenant : Nat
  space : Nat
  line : Nat
  frame : Nat
  key : Nat
  lo : Option Sector := none
  hi : Option Sector := none
  sharers : List Nat := []
  overflowed : Bool := false
  way : Nat := 0
  deriving DecidableEq, Repr

/-- A cached translation (R208, R213, R219): page base offset, its size, frame and leaf bits. `lease` is the meridian
time at which a peer translation is discarded. -/
structure Tlb where
  tenant : Nat
  space : Nat
  page : Nat
  size : Nat
  frame : Nat
  rd : Bool
  wr : Bool
  hint : Bool
  pinned : Bool
  region : Nat
  key : Nat
  /-- Physical address of the leaf entry, whose D bit a confirmed write sets (R210). -/
  entry : Nat
  lease : Option Nat := none
  deriving DecidableEq, Repr

/-- A waiter record (R330). -/
structure Waiter where
  ticket : Nat
  who : Who
  core : Nat
  bank : Nat := 0
  desc : Word
  data : List Byte
  deriving DecidableEq, Repr

/-- An active queue (R320-R324): the QCB's fields, its waiters, and for a shadow (R339) its credits in `free`. -/
structure Queue where
  qcb : Nat
  space : Nat
  tenant : Nat
  head : Nat := 0
  tail : Nat := 0
  free : Nat := 0
  capacity : Nat
  elem : Nat
  flags : BitVec 16
  baseSpace : Nat
  base : Nat
  credits : Nat := 0
  producers : List Waiter := []
  consumers : List Waiter := []
  shadow : Bool := false
  /-- The image as a store to the line while active has left it (R324). -/
  stored : Option (List Byte) := none
  /-- Enqueues of a shadow that have crossed and are not acknowledged (R339). -/
  crossing : List Nat := []
  mirrored : Nat := 0
  used : Nat := 0
  deriving DecidableEq, Repr

/-- An active pool (R341, R346). -/
structure Pool where
  addr : Nat
  space : Nat
  tenant : Nat
  base : Nat
  meta_ : Nat
  count : Nat
  free : Nat
  head : Nat
  blockSpace : Nat
  log : Nat
  scope : Nat
  corrupt : Bool := false
  /-- Bits [7:4] of the last byte of word 3, which are 0 in a pool that is not corrupt, and the image as a store to the line has
  left it (R341, R346). -/
  high : Nat := 0
  stored : Option (List Byte) := none
  used : Nat := 0
  deriving DecidableEq, Repr

/-- Power state of a slice (R166). -/
inductive Power where
  | awake | gated | waking
  deriving DecidableEq, Repr

/-- An entry of a weight-region table (R371). -/
structure Region where
  valid : Bool := false
  tenant : Nat := 0
  space : Nat := 0
  base : Nat := 0
  length : Nat := 0
  version : Nat := 0
  deriving DecidableEq, Repr

/-- A WREG or WUNREG on its way (R373): the entry to write, or none to release it. -/
structure RegionReq where
  core : Nat
  who : Who
  tenant : Nat
  index : Nat
  entry : Option Region
  deriving DecidableEq, Repr

/-- What the root of the tree of R217 serves, one at a time: a shoot-down, or the region update of a number. -/
inductive RootOp where
  | shoot (r : Shoot) | region (id : Nat)
  deriving DecidableEq, Repr

/-- A home: slice 0-31, or the reflex-store controller 32 (R14, R320). -/
structure Home where
  lines : List SLine := []
  tlb : List Tlb := []
  queues : List Queue := []
  pools : List Pool := []
  ticket : Nat := 0
  /-- Waiters whose records the service core holds (R330): ticket and place. -/
  spilled : Map Nat := []
  regions : Map Region := []
  /-- Way masks of tenants (R165): empty for tenant 0 and full for the others until firmware sets them. -/
  ways : Map Nat := []
  power : Power := .awake
  /-- Requests that wait for the wake, in arrival order (R166). -/
  waking : List Event := []
  /-- The tree of each set that approximates least recent use (R165). -/
  plru : Map Nat := []
  deriving DecidableEq, Repr

/-- An LXM buffer (R311). -/
structure Buffer where
  version : Nat := 0
  time : Nat := 0
  readers : Nat := 0
  complete : Bool := false
  epoch : Nat := 0
  data : Mem := []
  bad : List Nat := []
  deriving DecidableEq, Repr

/-- An LXM slot (R311, R415). -/
structure LxmSlot where
  size : Nat
  readers : Nat
  buffers : Map Buffer := []
  latest : Option Nat := none
  last : Nat := 0
  /-- The buffer a publication in progress writes (R312). -/
  writing : Option Nat := none
  owner : Nat
  granted : List Nat := []
  mirrored : Bool := false
  hostLatch : Option Nat := none
  hostClaim : Option Nat := none
  hostStatus : Nat := 3
  deriving DecidableEq, Repr

/-! ### Accesses and requests in flight -/

/-- Who takes the result of an access. -/
inductive For where
  /-- The word of the thread's bundle that waits (R169). -/
  | word (index : Nat)
  /-- A store that does not wait. -/
  | store
  /-- The head of the core's vector sequencer. -/
  | seq
  /-- A fetch of the thread's bundle (R164). -/
  | fetch
  /-- A weight-slot fill (R361): slot, fill number, and the image's first byte in its lines and length. -/
  | fill (slot fill first len : Nat)
  /-- A prefetch (R198); `l0` fills the issuing core's cache. -/
  | prefetch (l0 : Bool)
  /-- CWB, CINV or ICINV (R196-R199): kind 0, 1, 2 (cinv.d), 3. -/
  | cacheOp (kind : Nat)
  deriving DecidableEq, Repr

/-- An access in flight (R168, R169, R186). `todo` are the places still to be accessed, `done` the bytes got. -/
structure Acc where
  core : Nat
  bank : Nat
  who : Who
  tenant : Nat
  level : Level
  space : Nat
  op : MemOp
  size : Nat
  todo : List Nat
  done : List Byte := []
  forWhom : For
  wordAddr : Nat
  /-- Regions and versions reported for the lines of an MLDB image (R372). -/
  tags : List (Option (Nat × Nat)) := []
  deriving DecidableEq, Repr

/-- An operation on its way to a home controller or its reply on its way back (R319-R349). -/
structure QOp where
  home : Nat
  core : Nat
  who : Who
  word : Nat
  tenant : Nat
  space : Nat
  op : Instr
  a : Word
  b : Word
  data : List Byte := []
  reply : Option Reply := none
  /-- Set for a CPYQ element or a host window's operation, which no thread waits for. -/
  copy : Option Nat := none
  deriving DecidableEq, Repr

/-- A compared request of a paired thread (R395): its pair, a schedule entry below 64 or 2^16 × (program + 1) + rank, its number, the hash of what it asks, the event that
forwards it, and once matched the partner's request that shares its replies. -/
structure PairReq where
  number : Nat
  pair : Nat
  primary : Bool
  who : Who
  hash : BitVec 64
  go : Event
  delay : Nat
  arrived : Bool := false
  twin : Option Nat := none
  deriving DecidableEq, Repr

/-- A core's context away from any core: streaming or Saved (R21, R45, R46). -/
structure Context where
  origin : Nat
  cluster : Nat
  record : Option Nat
  /-- The core that a live migration or a restore streams into. -/
  dest : Option Nat := none
  /-- Streaming out (`true`) or in; a Saved context streams neither way. -/
  moving : Bool
  stake : Option Nat := none
  order : Nat
  prog : Nat
  gangMember : Bool
  core : Core
  arrivals : List (Nat × Nat × Payload) := []
  deriving DecidableEq, Repr

/-- A thread in a migration message or in a run queue (R41, R42). -/
structure Moving where
  src : Nat
  dest : Nat
  bank : Nat
  hint : Bool
  arrived : Bool := false
  /-- The 192 bytes of R232 as packed. -/
  message : List Byte := []
  /-- The forwarding entry left behind at the source (R41). -/
  entry : Nat := 0
  thread : Thread
  deriving DecidableEq, Repr

/-! ### Programs and the front end -/

/-- An exchange plan section (R85, R88). -/
structure Plan where
  tcm : Nat
  first : Nat
  last : Nat
  data : List Byte
  deriving DecidableEq, Repr

/-- A task descriptor (R89). -/
structure TaskDesc where
  entry : Nat
  reads : List (Nat × Nat)
  writes : List (Nat × Nat)
  deriving DecidableEq, Repr

/-- The barrier of one copy of a gang (R297, R402): serials of the ranks that have arrived, the cycle of the last arrival,
the replay mark, and how often this superstep has been replayed. -/
structure Superstep where
  arrived : List Nat := []
  last : Nat := 0
  marked : Bool := false
  replays : Nat := 0
  deriving DecidableEq, Repr

/-- One run of a program (R27, R35, R318, R419). -/
structure Run where
  gang : Bool
  latency : Bool
  rollback : Bool
  paired : Bool
  count : Nat
  count0 : Nat := 0
  next : Nat := 0
  arg : Word
  clusterMask : BitVec 32
  coreMask : BitVec 16
  domain : Nat
  domains : Nat
  grouped : Bool
  tvec : IAddr
  entry : Nat
  reads : List (Nat × Nat)
  writes : List (Nat × Nat)
  window : Nat
  seq : Nat
  opcode : Nat
  /-- Cores held; for a gang, its clusters and those of the twin copy (R25, R397). -/
  cores : List Nat := []
  clusters : List Nat := []
  twins : List Nat := []
  gangNo : Nat := 0
  links : List Nat := []
  admitted : Bool := false
  /-- DTVER of the cores that it runs on (R78). -/
  table : Nat := 0
  order : Nat
  /-- The error that ended it: cause and TVAL (R230). -/
  ended : Option (Nat × Word) := none
  unstaked : Nat := 0
  /-- SSTEP of the gang and of its twin copy (R297, R397). -/
  step0 : Superstep := {}
  step1 : Superstep := {}
  /-- Members of the launch's group so far (R419). -/
  members : Nat := 0
  deriving DecidableEq, Repr

/-- A loaded program (R79, R87-R90). -/
structure Prog where
  tenant : Nat
  space : Nat
  profile : Nat
  entry : Nat
  stack : Nat
  text : List (Nat × Nat)
  image : Mem
  tasks : List TaskDesc
  plans : List Plan
  slots : List Nat
  serial : Nat := 0
  reflexTvec : IAddr := 0
  run : Option Run := none
  /-- The error that has ended a reflex program, which has no run (R230, R388). -/
  error : Option (Nat × Word) := none
  /-- Threads that ended UNSTAKED while it had no run (R317). -/
  unstaked : Nat := 0
  deriving DecidableEq, Repr

/-- A barrier group (R23, R24, R302): members, those arrived in the open episode, those that joined while it was open. -/
structure Group where
  members : List Who
  arrived : List Who := []
  late : List Who := []
  completed : BitVec 32 := 0
  isOpen : Bool := false
  deriving DecidableEq, Repr

/-- A reflex schedule entry (R383, R385): the 64-byte image, whose H fields are kept beside it. -/
structure Reflex where
  image : Line
  armed : Bool
  shadow : Bool := false
  overruns : Nat := 0
  misses : Nat := 0
  consecutive : Nat := 0
  /-- Meridian time of release 0 and the number of the next release. -/
  first : Nat := 0
  next : Nat := 0
  /-- A release waits for its slot or for a landing handler (R29). -/
  waiting : Option Nat := none
  /-- The activation that runs: release number, whether it was missed, reruns, threads that ended. -/
  active : Option Nat := none
  missed : Bool := false
  reruns : Nat := 0
  endedTwins : List Nat := []
  /-- After a takeover, the release that must be the first to end on time for the gap to be one period (R408). -/
  gap : Option Nat := none
  /-- The last releases that ended on time, with the time of each end, latest first. -/
  ends : List (Nat × Nat) := []
  deriving DecidableEq, Repr

/-- A queue window (R414, R432). -/
structure Window where
  qcb : Nat
  space : Nat
  tenant : Nat
  cmd : Bool
  latency : Bool
  weight : Nat
  served : Nat := 0
  drops : Nat := 0
  rebind : Option (Line × Nat) := none
  deriving DecidableEq, Repr

/-- The pins of R430 that the module reads; `true` is the high level. -/
structure Pins where
  pwrGood : Bool := true
  perstN : Bool := true
  modRstN : Bool := true
  thermAlertN : Bool := true
  peerRole : Bool := true
  deriving DecidableEq, Repr

/-- A firmware update in progress (R427). -/
structure Update where
  image : Nat
  queues : List Nat
  packet : Packet
  counts : List Nat := [0, 0, 0, 0]
  deriving DecidableEq, Repr

/-- BAR2's mapping (R416). -/
structure Bar2 where
  space : Nat
  offset : Nat
  length : Nat
  tenant : Nat
  deriving DecidableEq, Repr

/-- Registers and records of the front end, the release unit, the stake arbiter, the host port and the peer port. -/
structure Front where
  cycle0 : Nat := 0
  progs : Map Prog := []
  /-- Runs waiting for admission, in arrival order, latency and bulk (R35). -/
  latQueue : List Nat := []
  bulkQueue : List Nat := []
  /-- The latency program for which cores are being vacated, and the cores it is to receive (R44). -/
  wanted : Option (Nat × List Nat) := none
  orders : Nat := 0
  gangs : Nat := 0
  windows : Map Window := []
  /-- Windows whose first packet is held at a signal (R34), and packets dequeued without a completion (R421). -/
  held : Map Packet := []
  /-- Held packets whose signal has held, which their class has still to serve (R34). -/
  freed : Map Packet := []
  dequeued : List Packet := []
  bar2 : Option Bar2 := none
  msix : Map Nat := []
  raised : List Nat := []
  tenants : Map Nat := []
  keys : Nat := 0
  standby : BitVec 32 := 0
  /-- The mask last written, whose clusters join as R392 allows. -/
  standbyNext : BitVec 32 := 0
  /-- The stake arbiter (R48): cores claimed, requests granted but not yet sent, stream places in use. -/
  stakes : Map (StakeReq × List Nat × List Nat) := []
  places : Map Nat := []
  reflex : Map Reflex := []
  groups : Map Group := []
  reflexGroups : Map Group := []
  hold : Bool := true
  /-- Latched event bits of HCAUSE (R389): second and third condition. -/
  latched : BitVec 4 := 0
  boot : Nat := 0
  bootSlot : Nat := 0
  booted : Bool := false
  epoch : Nat := 0
  active : Bool := false
  isolated : Bool := false
  pwr : BitVec 16 := 0
  cap : Nat := 3000
  capBefore : Option Nat := none
  throttled : Bool := false
  lease : Nat := 50
  peerLease : Nat := 50
  linkUp : Bool := false
  spare : Bool := false
  beatSeq : Nat := 0
  lastBeat : Option (Nat × Nat) := none
  beatMisses : Nat := 0
  ackMisses : Nat := 0
  ackDue : Bool := false
  mirrorSeq : Nat := 0
  mirroring : Bool := false
  /-- Replies and grants of mirrored queue operations that wait for the spare's acknowledgement, by its sequence (R405). -/
  mirrorWait : List (Nat × Event) := []
  /-- Answers to host reads of a MULTI queue that wait so (R405), and the MULTI queues that this module keeps for the other: home, QCB offset,
  space. -/
  hostHeld : List (Nat × List Byte) := []
  mirrored : List (Nat × Nat × Nat) := []
  peerOut : List PeerMsg := []
  /-- Last answer to a host read (R414, R416). -/
  hostRead : List Byte := []
  /-- Errors reported by AER (R410). -/
  aer : Nat := 0
  /-- The last report that ATTEST wrote, with its host address (R425). -/
  report : Option (Nat × List Byte) := none
  update : Option Update := none
  flash : Map Nat := []
  counter : Nat := 0
  measure : BitVec 384 := 0
  images : Map Nat := []
  pins : Pins := {}
  checkpoint : Option Nat := none
  /-- The root of the tree of R217: requests in the order received, the first of them running; the nodes that have still to
  acknowledge it; gated slices skipped; region updates by their number (R373). -/
  rootQ : List RootOp := []
  rootWait : List Nat := []
  skipped : Nat := 0
  regionReqs : Map RegionReq := []
  droot : Word := 0
  iroot : Word := 0
  /-- The active slice map (R165): the slices that lines are homed at, in ascending order. -/
  slices : List Nat := List.range 32
  /-- Accesses that left by the host port (R203), and translations lent to the peer with their ends (R219, R220). -/
  hostOut : List HostReq := []
  lent : List (Tlb × Nat) := []
  /-- Next free DRAM frame of 64 KiB for tables and sections that the loader places. -/
  frames : Nat := 0
  deriving DecidableEq, Repr

/-! ### Bit errors (R393) -/

/-- Where a bit error falls. `elsewhere` is any SRAM that the table of R393 names no consumer of: tags, directories, the weight
buffer, the accumulators, register files. -/
inductive Struck where
  | tcm (core : Nat) | pad (cluster : Nat) | reflexStore | slice (home : Nat) | dram | lxm (slot buffer : Nat)
  | l0d (core : Nat) | l0i (core : Nat) | elsewhere
  deriving DecidableEq, Repr

/-- A bit error: the unit that counts it, where it falls, its byte address there (for a slice, the physical address that the
line was filled from; for an L0 cache, the offset or instruction-space address of its line), and whether ECC corrects it. -/
structure Upset where
  unit : Nat
  place : Struck
  addr : Nat
  corrected : Bool
  deriving DecidableEq, Repr

/-! ### The machine -/

/-- Which word of a bundle is executed (R54, R55). -/
inductive Form where
  | par0 | par1 | ser0 | ser1 | wide
  deriving DecidableEq, Repr

/-- How the word ended: it took effect, it trapped, or it waits and will be tried again. -/
inductive Stat where
  | done | trapped (cause : Nat) (tval : Word) | held
  deriving DecidableEq, Repr

/-- The state of the module. While a word executes, the context of its thread is in `th` and the rest of its core in
`co`; `src` is the context as the bundle found it (R55). Between steps the cores in `cores` are what counts. -/
structure State where
  /-- Fabric cycles, 1 ns each, since module reset (R4); CYCLE is half of it (R77). -/
  now : Nat := 0
  /-- Meridian time minus `now`, and the slewing still to be done (R155). -/
  meridian : Int := 0
  slew : Int := 0
  /-- Events in flight, by the time they are due. -/
  agenda : List (Nat × Event) := []
  /-- What the outside world does, by the time it happens. -/
  inputs : List (Nat × Event) := []
  /-- The bit errors that the outside world brings (R393), by the time each falls. -/
  upsets : List (Nat × Upset) := []
  /-- The event being taken. -/
  event : Event := .admission
  /-- Messages and requests that were answered RETRY and are sent again (R45). -/
  kept : Map Event := []
  cores : Map Core := []
  pads : Map Sram := []
  /-- Eviction records of each cluster, where they are not Cfg's (R19). -/
  evictions : Map Nat := []
  contexts : Map Context := []
  moving : Map Moving := []
  homes : Map Home := []
  dram : Mem := []
  dramBad : List Nat := []
  /-- The key number each 32-byte sector of DRAM was written under (R426). -/
  dramKey : Map Nat := []
  reflexStore : Sram := {}
  lxm : Map LxmSlot := []
  accs : Map Acc := []
  qops : Map QOp := []
  pairs : Map PairReq := []
  /-- The error counters, by 16 * unit + counter (R403), and the copy of them that BAR0 shows (R413). -/
  counters : Map Nat := []
  snapshot : Map Nat := []
  ibuf : Map (List Tlb) := []
  front : Front := {}
  /-- Next number of an access, request or context. -/
  nextId : Nat := 1
  /-- Counter that a free value is drawn with. -/
  draw : Nat := 0
  cid : Nat := 0
  bank : Nat := 0
  form : Form := .ser0
  /-- Address of the bundle, and word 0 or 1 as fetched. -/
  bundle : IAddr := 0
  raw : BitVec 32 := 0
  th : Thread := {}
  src : Thread := {}
  co : Core := {}
  stat : Stat := .done
  deriving DecidableEq, Repr

/-- The module right after reset (R6, R422, R429): every field at the value that INVENTORY.md names, nothing running,
memory with nothing listed. The board's pins are at their inactive levels, so the boot sequence follows. -/
def State.reset : State := {}

end Sys2Proof.Machine
end

