-- ==== Sys2Proof/Machine/Ops.lean ====
section
/-! DEFINITION. The named operations over the state: registers of the issuing thread, cores and threads wherever they are,
events, counters, how a word ends, taking a trap (R228-R231) and returning from one (R229). -/

namespace Sys2Proof.Machine

/-- The answer of a step. -/
abbrev Out := Host.Outcome State Fault Refusal

/-! ### Registers (R65, R72) -/

/-- x[r]: x0 reads 0 (R65). -/
def Thread.getX (t : Thread) (r : Nat) : Word :=
  if r % 16 = 0 then 0 else t.x[r % 16]'(Nat.mod_lt _ (by decide))

/-- x[r] := w: a write of x0 is discarded (R65). -/
def Thread.setX (t : Thread) (r : Nat) (w : Word) : Thread :=
  if r % 16 = 0 then t else { t with x := t.x.set (r % 16) w (Nat.mod_lt _ (by decide)) }

/-- Predicate p: p0 reads 1 (R65). -/
def Thread.getP (t : Thread) (p : Nat) : Bool := if p = 0 then true else t.pw.getLsbD p

/-- p := b: a write of p0 is discarded (R65). -/
def Thread.setP (t : Thread) (p : Nat) (b : Bool) : Thread :=
  if p = 0 then t
  else { t with pw := if b then t.pw ||| (1#8 <<< p) else t.pw &&& ~~~(1#8 <<< p) }

/-- v[n] for n < 28 (R65); the link ports are no storage. -/
def Thread.getV (t : Thread) (n : Nat) : Vec := if h : n < 28 then t.v[n] else 0

/-- v[n] := w for n < 28. -/
def Thread.setV (t : Thread) (n : Nat) (w : Vec) : Thread := if h : n < 28 then { t with v := t.v.set n w } else t

/-- A source register of the word, as the bundle found it (R55). -/
def State.x (s : State) (r : BitVec 5) : Word := s.src.getX r.toNat

/-- A source register named by a 4-bit field (B and MX formats, R62). -/
def State.x4 (s : State) (r : BitVec 4) : Word := s.src.getX r.toNat

/-- A source predicate. -/
def State.p (s : State) (p : Nat) : Bool := s.src.getP p

/-- Write a destination register. -/
def State.setX (s : State) (r : BitVec 5) (w : Word) : State := { s with th := s.th.setX r.toNat w }

/-- Write a destination predicate. -/
def State.setP (s : State) (p : Nat) (b : Bool) : State := { s with th := s.th.setP p b }

/-- The result of x[r] is ready for a word that issues in core cycle `t` (R126, R243). -/
def Thread.readyAt (th : Thread) (r t : Nat) : Thread := { th with xAt := mset th.xAt r t }

/-! ### Cores, places and hops (R10, R13, R14, R76) -/

/-- Cluster of a CORE_ID. -/
def clusterOf (c : Nat) : Nat := c / 256

/-- Core number within its cluster. -/
def coreNo (c : Nat) : Nat := c % 256

/-- CORE_ID from cluster and number. -/
def coreId (cluster n : Nat) : Nat := cluster * 256 + n

def isFront (c : Nat) : Bool := clusterOf c ≥ 62
def isService (c : Nat) : Bool := clusterOf c < 62 && coreNo c == 16
def isCompute (c : Nat) : Bool := clusterOf c < 34 && coreNo c < 16
def isReflex (c : Nat) : Bool := (clusterOf c == 32 || clusterOf c == 33) && coreNo c < 16
def isDelib (c : Nat) : Bool := clusterOf c < 32 && coreNo c < 16

/-- A reflex-array core: clusters 32 and 33, service cores included (R14). -/
def inReflexArray (c : Nat) : Bool := clusterOf c == 32 || clusterOf c == 33

/-- ValidTarget's cores: the nodes that exist (R15, R275). -/
def isCore (c : Nat) : Bool :=
  (clusterOf c ≤ 33 && coreNo c ≤ 16) || (clusterOf c == 62 && coreNo c ≤ 1) || (clusterOf c == 63 && coreNo c ≤ 5)

/-- Register banks of a core (R15). -/
def bankCount (c : Nat) : Nat := if isReflex c then 8 else 4

/-- Slot of a bank (R16). -/
def slotOf (bank : Nat) : Nat := bank % 4

/-- Router (row, column) of a cluster number (R10). -/
def routerOf (cluster : Nat) : Nat × Nat :=
  if cluster < 32 then (1 + cluster / 8, cluster % 8)
  else if cluster = 32 then (5, 3) else if cluster = 33 then (5, 4) else if cluster = 62 then (0, 3) else (0, 4)

/-- Distance of two numbers. -/
def dist (a b : Nat) : Nat := (a - b) + (b - a)

/-- Mesh hops between two routers (R11). -/
def hopsR (a b : Nat × Nat) : Nat := dist a.1 b.1 + dist a.2 b.2

/-- Hops between the routers of two clusters. -/
def hops (a b : Nat) : Nat := hopsR (routerOf a) (routerOf b)

/-- Hops from a cluster to a home: a slice, or the nearer port of the reflex-store controller (R14). -/
def hopsHome (cluster home : Nat) : Nat :=
  if home < 32 then hops cluster home else min (hops cluster 32) (hops cluster 33)

/-- Hops to the nearer LXM port (R314). -/
def hopsLxm (cluster : Nat) : Nat := min (hopsR (routerOf cluster) (5, 2)) (hopsR (routerOf cluster) (5, 5))

/-- The core with number `c`, wherever it was touched before; an untouched core holds nothing. -/
def State.core (s : State) (c : Nat) : Core := (mget s.cores c).getD {}

def State.setCore (s : State) (c : Nat) (k : Core) : State := { s with cores := mset s.cores c k }

def State.modCore (s : State) (c : Nat) (f : Core → Core) : State := s.setCore c (f (s.core c))

/-- Put the issuing thread and its core back among the cores. -/
def State.store (s : State) : State :=
  s.setCore s.cid { s.co with banks := mset s.co.banks s.bank s.th }

/-- Take the thread and core that issue out of the cores again. -/
def State.reload (s : State) : State :=
  let k := s.core s.cid
  { s with co := k, th := (mget k.banks s.bank).getD s.th }

/-- Work on the whole module from within a word. -/
def State.onModule (s : State) (f : State → State) : State := (f s.store).reload

/-- Begin a word of the thread in bank `b` of core `c`. -/
def State.enter (s : State) (c b : Nat) : State :=
  let k := s.core c
  let t := (mget k.banks b).getD {}
  { s with cid := c, bank := b, co := k, th := t, src := t, stat := .done }

def State.pad (s : State) (cl : Nat) : Sram := (mget s.pads cl).getD {}
def State.setPad (s : State) (cl : Nat) (m : Sram) : State := { s with pads := mset s.pads cl m }
def State.home (s : State) (h : Nat) : Home := (mget s.homes h).getD {}
def State.setHome (s : State) (h : Nat) (x : Home) : State := { s with homes := mset s.homes h x }
def State.modHome (s : State) (h : Nat) (f : Home → Home) : State := s.setHome h (f (s.home h))
def State.prog? (s : State) (p : Nat) : Option Prog := mget s.front.progs p
def State.modFront (s : State) (f : Front → Front) : State := { s with front := f s.front }
def State.modProg (s : State) (p : Nat) (f : Prog → Prog) : State :=
  s.modFront fun r => { r with progs := mmod r.progs p f }
def State.modRun (s : State) (p : Nat) (f : Run → Run) : State :=
  s.modProg p fun g => { g with run := g.run.map f }

/-- Eviction records of a cluster (R19): 16 in a standby cluster, else what firmware has set, 16 until then. -/
def State.records (s : State) (cl : Nat) : Nat :=
  if s.front.standby.getLsbD cl then 16 else (mget s.evictions cl).getD 16

/-- Lowest eviction record of a cluster: the end of the program region (R19). -/
def State.padLimit (s : State) (cl : Nat) : Nat := 0x1C0000 - s.records cl * 0x13000

/-! ### Time and events -/

/-- Core cycles since module reset: the CYCLE register (R77). -/
def State.cycle (s : State) : Nat := (s.now - s.front.cycle0) / 2

/-- Meridian time (R155). -/
def State.meridianNow (s : State) : Nat := ((s.now : Int) + s.meridian).toNat

/-- Event `e`, due at `t`, goes before `x`: it is due earlier, or a core's arbiter takes it earlier in the same cycle (R237). -/
def precedes (t : Nat) (e : Event) (x : Nat × Event) : Bool :=
  t < x.1 || (t == x.1 && match e.arrival, x.2.arrival with
    | some a, some b => a.1 == b.1 && a.2 < b.2
    | _, _ => false)

/-- Insert behind every event that it does not precede. -/
def insertEvent (t : Nat) (e : Event) : List (Nat × Event) → List (Nat × Event)
  | [] => [(t, e)]
  | x :: l => if precedes t e x then (t, e) :: x :: l else x :: insertEvent t e l

/-- Event `e` comes about `delay` fabric cycles from now. -/
def State.post (s : State) (delay : Nat) (e : Event) : State :=
  { s with agenda := insertEvent (s.now + delay) e s.agenda }

/-- Event `e` comes about when meridian time first reaches `t`. -/
def State.postAt (s : State) (t : Nat) (e : Event) : State := s.post (t - s.meridianNow) e

/-- Withdraw events in flight. -/
def State.unpost (s : State) (f : Event → Bool) : State := { s with agenda := s.agenda.filter fun e => !f e.2 }

/-- A fresh number, and the state that has given it away. -/
def State.fresh (s : State) : Nat × State := (s.nextId, { s with nextId := s.nextId + 1 })

/-- The counter for a free value, and the state that has advanced it. -/
def State.drawn (s : State) : Nat × State := (s.draw, { s with draw := s.draw + 1 })

/-- Fabric cycles of one DRAM access (R168: not bounded): at least one. -/
def State.dramTime (s : State) : Nat × State := (1 + Config.dramDelay s.draw, { s with draw := s.draw + 1 })

/-- Flits of a message of `n` bytes (R11). -/
def flitsOf (n : Nat) : Nat := max 1 ((n + 63) / 64)

/-- The egress buffer has room for `f` more flits at `now` (R12: 8 flits, of which one leaves in every fabric cycle). -/
def Core.egressRoom (k : Core) (now f : Nat) : Bool := k.egress - now + f ≤ 8

/-- A message of `f` flits enters the egress buffer: the fabric cycles until its head flit leaves, and the core (R12, R238). A word
waits for room before it sends (`egressRoom`); a message of an engine or router that finds no room waits at its source in the order
of the messages, and leaves when it would have from the buffer: `egress` counts the flits of both. -/
def Core.enterEgress (k : Core) (now f : Nat) : Nat × Core := (k.egress - now, { k with egress := max k.egress now + f })

/-- Core `c` puts a message of `f` flits into its egress buffer; event `e` comes about `delay` after the head flit has left. -/
def State.emit (s : State) (c f delay : Nat) (e : Event) : State :=
  let r := (s.core c).enterEgress s.now f
  (s.setCore c r.2).post (r.1 + delay) e

/-- The same for the core whose word executes. -/
def State.emitOwn (s : State) (f delay : Nat) (e : Event) : State :=
  let r := s.co.enterEgress s.now f
  ({ s with co := r.2 } : State).post (r.1 + delay) e

/-- Core cycles as fabric cycles (R4). -/
def cyc (n : Nat) : Nat := 2 * n

/-! ### Error counters (R403, R413) -/

/-- Counter numbers in the order of R403's table. -/
def ctrEccCorr : Nat := 0
def ctrEccUncorr : Nat := 1
def ctrPoisonUse : Nat := 2
def ctrMboxDrop : Nat := 3
def ctrLinkDrop : Nat := 4
def ctrRefused : Nat := 5
def ctrPairMismatch : Nat := 6
def ctrMirror : Nat := 7
def ctrReplay : Nat := 8
def ctrUndoOverflow : Nat := 9
def ctrWaiterDrop : Nat := 10
def ctrPoolErr : Nat := 11
def ctrCmdBad : Nat := 12
def ctrOverrun : Nat := 13
def ctrDeadline : Nat := 14
def ctrHostErr : Nat := 15

/-- Unit number of a core (R413). -/
def unitCore (c : Nat) : Nat :=
  if clusterOf c < 34 then 17 * clusterOf c + coreNo c else if clusterOf c = 62 then 578 + coreNo c else 580 + coreNo c

/-- Unit number of a home (R413). -/
def unitHome (h : Nat) : Nat := if h < 32 then 586 + h else 618

/-- Unit number of the router of a cluster (R413). -/
def unitRouter (cluster : Nat) : Nat := 619 + 8 * (routerOf cluster).1 + (routerOf cluster).2

/-- Count once, saturating at 32 bits. -/
def State.count (s : State) (unit ctr : Nat) : State :=
  let k := 16 * unit + ctr
  { s with counters := mset s.counters k (min ((mget s.counters k).getD 0 + 1) 0xFFFFFFFF) }

/-- A host access that the device answers with an error: counted, and reported by AER as non-fatal (R410, R413). -/
def State.countHost (s : State) : State :=
  let t := s.count 578 ctrHostErr
  { t with front := { t.front with aer := t.front.aer + 1 } }

/-! ### Words that complete while their context is away (R47, R270, R276) -/

/-- Trap causes (R226). -/
def illegalOpcode : Nat := 0x01
def illegalOperand : Nat := 0x02
def targetMisaligned : Nat := 0x03
def dataMisaligned : Nat := 0x04
def privilege : Nat := 0x05
def softwareTrap : Nat := 0x06
def breakpoint : Nat := 0x07
def reflexDramAccess : Nat := 0x08
def qcbCorrupt : Nat := 0x09
def queuePoisoned : Nat := 0x0A
def poolCorrupt : Nat := 0x0B
def blockTableRange : Nat := 0x0C
def exchangeSlot : Nat := 0x0D
def mailboxOverflow : Nat := 0x0E
def linkFault : Nat := 0x0F
def matrixConfig : Nat := 0x10
def reuseRecordCorrupt : Nat := 0x11
def handlerNotPinned : Nat := 0x12
def streamFault : Nat := 0x13
def pageFaultKilled : Nat := 0x14
def spaceInvalid : Nat := 0x15
def onchipRange : Nat := 0x16
def budgetExceeded : Nat := 0x17

/-- Trap bank `b` of a thread. -/
def Thread.trapBank (t : Thread) (b : Nat) : TrapBank := if b = 0 then t.trap0 else t.trap1

/-- Replace trap bank `b`. -/
def Thread.setTrapBank (t : Thread) (b : Nat) (k : TrapBank) : Thread :=
  if b = 0 then { t with trap0 := k } else { t with trap1 := k }

/-- The word that a thread waits at by itself, as it was fetched, and the address behind it. -/
def Thread.waitingWord (t : Thread) : Option (Instr × IAddr) :=
  match t.fetched with
  | none => none
  | some (a, b) =>
    let w0 := b.extractLsb' 0 32
    let alone (w : BitVec 32) (next : IAddr) : Option (Instr × IAddr) :=
      match decodeCode (w.extractLsb' 0 27) 0 with
      | .ok i => some (i, next)
      | .error _ => none
    if t.pc = a + 4 then alone (b.extractLsb' 32 32) (a + 8)
    else if t.pc = a && w0.getLsbD 31 && !isWideCode (w0.extractLsb' 0 27) then alone w0 (a + 4)
    else none

/-- What the reply of a waiting word writes into the context, where the word has no other effect (R47, R270, R276): the result of
a load, atomic, queue operation, SEND or barrier. -/
def landsOn (i : Instr) (r : Reply) (t : Thread) : Option Thread :=
  let value (d : BitVec 5) (f : Nat → Word) : Option Thread := match r with
    | .value v => some (t.setX d.toNat (f v))
    | _ => none
  let result (d : BitVec 5) (p : Option Nat) : Option Thread := match r with
    | .result xd ok _ =>
      let u := t.setX d.toNat xd
      some (match p with
        | some p => u.setP p ok
        | none => u)
    | _ => none
  let done : Option Thread := match r with
    | .value _ => some t
    | _ => none
  match i with
  | .ld8 d _ _ => value d (sext 8)
  | .ld8u d _ _ => value d (BitVec.ofNat 64)
  | .ld16 d _ _ => value d (sext 16)
  | .ld16u d _ _ => value d (BitVec.ofNat 64)
  | .ld32 d _ _ => value d (sext 32)
  | .ld32u d _ _ => value d (BitVec.ofNat 64)
  | .ld64 d _ _ => value d (BitVec.ofNat 64)
  | .lda32 d _ _ => value d (BitVec.ofNat 64)
  | .lda64 d _ _ => value d (BitVec.ofNat 64)
  | .ldf64 d _ _ => value d (BitVec.ofNat 64)
  | .amoadd v _ _ _ _ => value v (BitVec.ofNat 64)
  | .amoand v _ _ _ _ => value v (BitVec.ofNat 64)
  | .amoor v _ _ _ _ => value v (BitVec.ofNat 64)
  | .amoxor v _ _ _ _ => value v (BitVec.ofNat 64)
  | .amomin v _ _ _ _ => value v (BitVec.ofNat 64)
  | .amomax v _ _ _ _ => value v (BitVec.ofNat 64)
  | .amominu v _ _ _ _ => value v (BitVec.ofNat 64)
  | .amomaxu v _ _ _ _ => value v (BitVec.ofNat 64)
  | .amoswp v _ _ _ _ => value v (BitVec.ofNat 64)
  | .amofadd v _ _ _ _ => value v (BitVec.ofNat 64)
  | .amofmin v _ _ _ _ => value v (BitVec.ofNat 64)
  | .amofmax v _ _ _ _ => value v (BitVec.ofNat 64)
  | .cas32 v _ _ _ => value v (BitVec.ofNat 64)
  | .cas64 v _ _ _ => value v (BitVec.ofNat 64)
  | .st8 _ _ _ => done
  | .st16 _ _ _ => done
  | .st32 _ _ _ => done
  | .st64 _ _ _ => done
  | .stl32 _ _ _ => done
  | .stl64 _ _ _ => done
  | .stp _ _ _ => done
  | .stf64 _ _ _ => done
  | .enq d _ _ => result d none
  | .deq d _ _ => result d none
  | .enqt d _ _ m => result d (some (4 + m.toNat))
  | .deqt d _ _ m => result d (some (4 + m.toNat))
  | .qdrain d _ => result d none
  | .qreset d _ => result d none
  | .balloc d _ => result d none
  | .btapp d _ => result d none
  | .btrel d _ => result d none
  | .qinit d _ _ => result d none
  | .qstat d _ _ => result d none
  | .pinit d _ _ => result d none
  | .pstat d _ _ => result d none
  | .bfree d _ _ => result d none
  | .btget d _ _ => result d none
  | .btfork d _ _ => result d none
  | .sendAck d _ _ => value d (BitVec.ofNat 64)
  | .sendvAck d _ _ => value d (BitVec.ofNat 64)
  | .sendTrap d _ _ => if r = .value 1 then none else value d (BitVec.ofNat 64)
  | .sendvTrap d _ _ => if r = .value 1 then none else value d (BitVec.ofNat 64)
  | .ldp d _ _ => match r with
    | .value v => some ((t.setX d.toNat (BitVec.ofNat 64 (v % 2 ^ 64))).setX (d.toNat + 1) (BitVec.ofNat 64 (v / 2 ^ 64)))
    | _ => none
  | .gbar d => value d (BitVec.ofNat 64)
  | .gwait _ => done
  | _ => none

/-- The trap that a reply brings to the waiting word: its own, or MAILBOX_OVERFLOW of SEND.TRAP (R276). -/
def trapOn (i : Instr) (r : Reply) (t : Thread) : Option (Nat × Word) :=
  match i, r with
  | .sendTrap _ a _, .value 1 => some (mailboxOverflow, t.getX a.toNat)
  | .sendvTrap _ a _, .value 1 => some (mailboxOverflow, t.getX a.toNat)
  | _, .trap c v => some (c, v)
  | _, _ => none

/-- In a context that streams or is Saved, a word whose reply has come completes there: its registers are written and pc moves on,
or its trap is entered (R47, R228, R270, R276). A thread that is parked stays so until the restore, also with its grant (R233). The other words of R270 and R276 complete by `State.chooseAway`. -/
def Thread.completeAway (t : Thread) : Thread :=
  if t.st != .ready then t else
  match t.pend, t.waitingWord with
  | [⟨0, _, some r⟩], some (i, next) =>
    match landsOn i r t, trapOn i r t with
    | _, some (c, v) =>
      if t.trap0.held || t.trap0.tvec = 0 then t
      else
        { t with
          pend := [], fetched := none, pc := t.trap0.tvec
          trap0 := { t.trap0 with
            held := true, level := t.level, pwsave := t.pw, cause := BitVec.ofNat 8 c, tval := v, tepc := t.pc } }
    | some u, none => { u with pend := [], fetched := none, pc := next }
    | none, none => t
  | _, _ => t

/-! ### Threads wherever they are (R43, R74) -/

def Thread.who (t : Thread) : Who := ⟨t.prog, t.serial⟩

/-- THREAD_ID (R74). -/
def Thread.id (t : Thread) (bank : Nat) : Word :=
  BitVec.ofNat 64 (t.prog % 2 ^ 16 * 2 ^ 48 + t.serial % 2 ^ 32 * 2 ^ 16 + bank % 8)

/-- The program and serial that a THREAD_ID names. -/
def whoOfId (w : Word) : Who := ⟨w.toNat / 2 ^ 48, bits w.toNat 16 32⟩

/-- Where a thread's context is. -/
inductive Loc where
  | live (core bank : Nat) | saved (ctx bank : Nat) | moving (id : Nat)
  deriving DecidableEq, Repr

/-- The bank of a core that holds a thread which has not ended. -/
def Core.bankOf (k : Core) (w : Who) : Option Nat :=
  (k.banks.find? fun b => b.2.who == w && b.2.st != .ended).map (·.1)

/-- Find a thread: in a core, in a context that streams or is Saved, or on its way (R20, R43). -/
def State.locate (s : State) (w : Who) : Option Loc :=
  match s.cores.findSome? (fun c => (c.2.bankOf w).map (Loc.live c.1)) with
  | some l => some l
  | none =>
    match s.contexts.findSome? (fun c => (c.2.core.bankOf w).map (Loc.saved c.1)) with
    | some l => some l
    | none => (s.moving.find? fun m => m.2.arrived && m.2.thread.who == w).map (fun m => Loc.moving m.1)

def Core.modBank (k : Core) (b : Nat) (f : Thread → Thread) : Core := { k with banks := mmod k.banks b f }

/-- Change a thread wherever it is. -/
def State.modThread (s : State) (w : Who) (f : Thread → Thread) : State :=
  match s.locate w with
  | some (.live c b) => s.modCore c fun k => k.modBank b f
  | some (.saved i b) => { s with contexts := mmod s.contexts i fun x => { x with
      core := x.core.modBank b fun t => (f t).completeAway } }
  | some (.moving i) => { s with moving := mmod s.moving i fun m => { m with thread := f m.thread } }
  | none => s

/-- A thread's context wherever it is. -/
def State.thread? (s : State) (w : Who) : Option Thread :=
  match s.locate w with
  | some (.live c b) => mget (s.core c).banks b
  | some (.saved i b) => (mget s.contexts i).bind fun x => mget x.core.banks b
  | some (.moving i) => (mget s.moving i).map (·.thread)
  | none => none

/-- Change the core context that holds a thread: its core, or its Saved or streaming context (R43, R45). -/
def State.modCoreOf (s : State) (w : Who) (f : Core → Core) : State :=
  match s.locate w with
  | some (.live c _) => s.modCore c f
  | some (.saved i _) => { s with contexts := mmod s.contexts i fun x => { x with core := f x.core } }
  | _ => s

/-- The core a thread runs on, if it runs on one. -/
def State.coreOf? (s : State) (w : Who) : Option Nat :=
  match s.locate w with
  | some (.live c _) => some c
  | _ => none

/-- Whether any thread of a program is in a core (R275: ended threads that still drain count as held). -/
def Core.holds (k : Core) (prog : Nat) : Bool := k.banks.any fun b => b.2.prog == prog

/-- Make a thread Ready. -/
def Thread.wake (t : Thread) : Thread := match t.st with
  | .blocked _ => { t with st := .ready }
  | _ => t

/-- Deliver the reply to word `word` of request `id`, and make the thread Ready (R270). -/
def Thread.answer (t : Thread) (id : Nat) (r : Reply) : Thread :=
  if t.pend.any (·.id == id) then
    ({ t with pend := t.pend.map fun (p : Pend) => if p.id = id then { p with reply := some r } else p }).wake
  else t

def State.answer1 (s : State) (w : Who) (id : Nat) (r : Reply) : State := s.modThread w fun t => t.answer id r

/-- Deliver a reply, to the partner of a matched request too: replies return to both twins (R395). -/
def State.answer (s : State) (w : Who) (id : Nat) (r : Reply) : State :=
  let s := s.answer1 w id r
  match mget s.pairs id with
  | some q =>
    match q.twin with
    | some j =>
      let s := { s with pairs := mdel s.pairs id }
      match mget s.pairs j with
      | some t => { s with pairs := mdel s.pairs j }.answer1 t.who j r
      | none => s
    | none => s
  | none => s

/-! ### How a word ends -/

/-- What executing a word comes to: it takes effect, it transfers control, it traps (with the address for TEPC when it
is not the word's own), or it waits. -/
inductive Res where
  | ok (s : State)
  | jump (s : State) (target : IAddr)
  | trap (cause : Nat) (tval : Word) (epc : Option IAddr)
  | wait (s : State)

/-- Word 1 of the bundle. -/
def State.isWord1 (s : State) : Bool := s.form == .par1 || s.form == .ser1

/-- Index of the word within a bundle that acts as one unit. -/
def State.widx (s : State) : Nat := if s.form == .par1 then 1 else 0

/-- Address of the word, or of the bundle it acts with (R55, R56). -/
def State.wordAddr (s : State) : IAddr := if s.form == .ser1 then s.bundle + 4 else s.bundle

/-- Address of the word itself. -/
def State.selfAddr (s : State) : IAddr := if s.isWord1 then s.bundle + 4 else s.bundle

/-- The address after the word: the return address of R58. -/
def State.nextAddr (s : State) : IAddr := if s.form == .ser0 then s.bundle + 4 else s.bundle + 8

/-- The word zero-extended: TVAL of the encoding traps (R68). -/
def State.rawWord (s : State) : Word := s.raw.setWidth 64

/-- Move pc past a word that has taken effect; word 1 of a parallel bundle leaves pc to word 0 (R54-R56). -/
def State.advance (s : State) : State :=
  if s.form == .par1 then { s with stat := .done }
  else { s with stat := .done, th := { s.th with pc := s.nextAddr } }

/-- R31, R230: the program ends with error status; its completion ends every thread of it. -/
def State.endProgram (s : State) (prog cause : Nat) (tval : Word) : State :=
  (s.modProg prog fun g => match g.run with
    | some r => if r.ended.isSome then g else { g with run := some { r with ended := some (cause, tval) } }
    | none => if g.error.isSome then g else { g with error := some (cause, tval) }).post 0 (.programCompletion prog)

/-- The crash record of R231; `word` is the address of the trapping word. -/
def crashRecord (s : State) (cause : Nat) (tval : Word) (word : IAddr) : List Byte :=
  toBytes 8 (0x1F + cause * 2 ^ 8 + slotOf s.bank * 2 ^ 16) ++ toBytes 8 tval.toNat ++ toBytes 8 word.toNat ++
  toBytes 8 s.th.trap0.tepc.toNat ++ toBytes 8 (s.th.trap0.cause.toNat + s.th.trap1.cause.toNat * 2 ^ 8) ++
  toBytes 8 s.th.trap1.tepc.toNat ++ toBytes 8 s.th.trap1.tval.toNat ++ toBytes 8 s.cycle

/-- Fault messages of the context of core `c` that still have no reply are sent again. -/
def State.resendOf (s : State) (c : Nat) (k : Core) : State :=
  let s := k.copies.foldl (fun s y =>
    if y.2.faultId ≠ 0 && y.2.state = 1 then s.post (cyc 6) (.faultMessageResend c y.2.faultId) else s) s
  k.banks.foldl (fun s b => match b.2.fault with
    | some f => s.post (cyc 6) (.faultMessageResend c f.1)
    | none => s) s

/-- The same for every core of a cluster and every context Saved there, when its service core is reset (R224). -/
def State.resendFaults (s : State) (cl : Nat) : State :=
  let s := s.cores.foldl (fun s c => if clusterOf c.1 = cl then s.resendOf c.1 c.2 else s) s
  s.contexts.foldl (fun s x => if x.2.cluster = cl && x.2.record.isSome then s.resendOf x.2.origin x.2.core else s) s

/-- A core after the reset of a third-level trap (R231): its TCM holds the crash record alone; what is locked in its caches stays
loaded (R390, R424). -/
def Core.afterCrash (k : Core) (record : List Byte) : Core :=
  { ({} : Core) with
    tcm := { bytes := wrBytes [] 0xBFC0 record }, table := k.table, l0i := k.l0i.filter (·.locked), egress := k.egress }

/-- A third-level trap (R231): crash record, every thread of the core ended and its registers cleared, the core reset, a notice
to datum-pair core 0; a datum-pair core takes its partner with it, and recovery follows (R421). The thread is in `th`. R231 gives the
notice no payload: the model sends the first 32 bytes of the crash record (DESIGN CHOICE, notes/assumptions/107.md). -/
def State.thirdLevel (s : State) (cause : Nat) (tval : Word) (word : IAddr) : State :=
  let rec_ := crashRecord s cause tval word
  let th : Thread := { st := .ended, kind := s.th.kind, prog := s.th.prog, serial := s.th.serial, tenant := s.th.tenant }
  let s := { s with th := th, co := { s.co.afterCrash rec_ with banks := [(s.bank, th)] } }
  let cl := clusterOf s.cid
  let s := s.post (cyc (6 + 2 * hops cl 62)) (.mailboxArrival
      ⟨s.cid, coreId 62 0, 15, BitVec.ofNat 256 (ofBytes (rec_.take 32)), .firmware, ⟨0, 0⟩, 0, 0⟩)
  if cl = 62 then
    (s.modCore (coreId 62 (1 - coreNo s.cid)) fun k => { k.afterCrash [] with tcm := {} }).post 0 .recovery
  else
    let s := s.post 0 (.bankRelease s.cid s.bank)
    if isService s.cid then s.resendFaults cl else s

/-- The trap bank that a trap enters: the lowest with HELD = 0 (R228); compute cores have bank 0 alone (R225). -/
def State.freeTrapBank (s : State) : Option Nat :=
  if !s.th.trap0.held then some 0
  else if !isCompute s.cid && !s.th.trap1.held then some 1 else none

/-- NestedLimit of R228: R230 on a compute core, R231 elsewhere; `word` is the address of the trapping word. -/
def State.nestedLimit (s : State) (cause : Nat) (tval : Word) (word : IAddr) : State :=
  if isCompute s.cid then s.endProgram s.th.prog cause tval
  else s.thirdLevel cause tval word

/-- Taking a trap (R228): the cause, value and resume address go to the lowest free trap bank, PW and the level are
saved, pc becomes the vector. Words of the bundle that waited are given up. `word` is the trapping word, which `epc` is not for
SOFTWARE_TRAP (R151). -/
def State.takeTrap (s : State) (cause : Nat) (tval : Word) (epc word : IAddr) : State :=
  let s := { s with stat := .trapped cause tval, th := { s.th.wake with pend := [], fetched := none, notBefore := s.cycle + 2 } }
  match s.freeTrapBank with
  | none => s.nestedLimit cause tval word
  | some b =>
    let k := s.th.trapBank b
    if k.tvec = 0 then s.nestedLimit cause tval word
    else
      let k' : TrapBank := { k with
        held := true, level := s.th.level, pwsave := s.th.pw, cause := BitVec.ofNat 8 cause, tval := tval, tepc := epc }
      { s with th := { s.th.setTrapBank b k' with pc := k.tvec } }

/-- A trap whose TEPC is the word's own address. -/
def trapR (cause : Nat) (tval : Word) : Res := .trap cause tval none

/-- A trap for which the rule gives no TVAL: a free value. -/
def State.trapOpen (s : State) (cause : Nat) : Res := trapR cause (Config.openTval s.draw)

/-- End a word begun in `s`: a trap undoes everything the word has done (R7) and is then taken. -/
def finish (s : State) : Res → Out
  | .ok t => .next t.advance
  | .jump t a => .next { t with stat := .done, th := { t.th with pc := a, notBefore := s.cycle + 2 } }
  | .trap c v epc => .next (({ s with draw := s.draw + 1 } : State).takeTrap c v (epc.getD s.wordAddr) s.wordAddr)
  | .wait t => .next { t with stat := .held, th := { t.th with notBefore := s.cycle + 1 } }

/-- Returning from a trap (R152, R229): the highest bank with HELD = 1 gives PW[7:1] and the resume address. -/
def State.heldTrapBank (s : State) : Option Nat :=
  if s.src.trap1.held then some 1 else if s.src.trap0.held then some 0 else none

/-- PW[7:1] := PWSAVE[7:1] and HELD := 0 of bank `b` (R229). -/
def State.leaveTrap (s : State) (b : Nat) : State :=
  let k := s.th.trapBank b
  { s with th := { (s.th.setTrapBank b { k with held := false }) with pw := k.pwsave ||| 1#8 } }

/-! ### Compared requests of a pair (R395) -/

/-- The pair a thread on core `core` belongs to, and whether it is the primary: a reflex thread whose entry has PAIR (R383), or
a gang thread of a paired gang (R397). -/
def State.pairOf (s : State) (core : Nat) (k : Kind) : Option (Nat × Bool) :=
  match k with
  | .reflex e _ =>
    match mget s.front.reflex e with
    | some r => if bit r.image.toNat (8 * 0x2E) then some (e, bits r.image.toNat (8 * 0x28) 16 == core) else none
    | none => none
  | .gang p rank =>
    match (s.prog? p).bind (·.run) with
    | some r => if r.paired then some (2 ^ 16 * (p + 1) + rank, !r.twins.contains (clusterOf core)) else none
    | none => none
  | _ => none

/-- Mark the superstep of a gang for replay, in both copies (R393, R396, R398). -/
def State.markReplay (s : State) (prog : Nat) : State :=
  s.modRun prog fun r => if r.rollback then
    { r with step0 := { r.step0 with marked := true }, step1 := { r.step1 with marked := true } } else r

def Kind.isGang : Kind → Bool
  | .gang _ _ => true
  | _ => false

/-- What the hash of a compared request covers: its kind, its space (0 where it has none), and its destination and payload (R395). Kinds
are 1 store, 2 to 5 the atomics, 6 copy write, 7 and 8 XMPUB, 9 CPYQ, 10 WREG and WUNREG, 11 SEND, 12 STAKE, 13 UNSTAKE, 14 SPAWN, 15
queue and pool operations. -/
def requestHash (kind space : Nat) (l : List Byte) : List Byte := toBytes 1 kind ++ toBytes 4 space ++ l

/-- Send request `id` of thread `t` on core `core`. For a paired thread the request waits for its match; `what` is the
request's destination, kind and payload, which the hash covers (R395). -/
def State.sendFor (s : State) (core : Nat) (t : Thread) (number id delay : Nat) (e : Event) (what : List Byte) : State :=
  match s.pairOf core t.kind with
  | none => s.post delay e
  | some (pair, primary) =>
    let h := crc64 what
    let q : PairReq := { number := number, pair := pair, primary := primary, who := t.who, hash := h, go := e, delay := delay }
    (({ s with pairs := mset s.pairs id q } : State).post (if primary then 0 else cyc 8) (.pairHashArrival id h)).post
      (cyc 4096) (.pairMatchTimeout id)

/-- Send a compared request of the issuing thread. Its number leaves room for the sector writes of an engine (R395). -/
def State.sendReq (s : State) (id delay : Nat) (e : Event) (what : List Byte) : State :=
  let n := s.th.compared
  let r := s.co.enterEgress s.now 1
  (({ s with th := { s.th with compared := n + 1 }, co := r.2 } : State)).sendFor s.cid s.th (n * 2 ^ 20) id (r.1 + delay) e what

/-! ### Words that wait for a reply -/

/-- The request of this word, if it has sent one. -/
def State.pending (s : State) : Option Pend := s.th.pend.find? (·.word == s.widx)

/-- The first time, `send` with a fresh number and wait; once the reply has come, go on with it (R169, R270). -/
def ask (s : State) (send : Nat → State → State) (k : Reply → State → Res) : Res :=
  match s.pending with
  | none =>
    let i := s.fresh
    let s := i.2
    .wait (send i.1 { s with th := { s.th with pend := ⟨s.widx, i.1, none⟩ :: s.th.pend } })
  | some ⟨_, _, none⟩ => .wait s
  | some ⟨_, _, some r⟩ =>
    match r with
    | .trap c v => trapR c v
    | r => k r { s with th := { s.th with pend := s.th.pend.filter fun p => p.word != s.widx } }

/-- The wait kinds that publish a target (R308). -/
def Wait.hasTarget : Wait → Bool
  | .sstep => true
  | .gbar _ => true
  | .gwait _ => true
  | .xrecv _ => true
  | .link _ => true
  | .rotation _ => true
  | _ => false

/-- Block the issuing thread with wait `w` (R20); one with a target is probed after 1 ms (R310). -/
def State.block (s : State) (w : Wait) : State :=
  let s := { s with th := { s.th with st := .blocked w, since := s.now } }
  if w.hasTarget then s.post 1000000 (.autoProbe s.th.who) else s

/-- The word without its request. -/
def State.dropPending (s : State) : State := { s with th := { s.th with pend := s.th.pend.filter fun p => p.word != s.widx } }

/-- Block the word on `w` with a request of a fresh number, which the event answers (R270). -/
def State.blockWord (s : State) (w : Wait) : State :=
  let i := s.fresh
  ({ i.2 with th := { i.2.th with pend := ⟨s.widx, i.1, none⟩ :: i.2.th.pend } } : State).block w

/-- Every earlier access of the thread has been performed: what a release waits for (R174, R196). -/
def State.quiet (s : State) : Bool := s.th.unacked.isEmpty && s.th.cacheOps.isEmpty

end Sys2Proof.Machine
end

