-- ==== Sys2Proof/Machine/Memory.lean ====
section
/-! DEFINITION. Windows and places (R158-R160), DRAM and its keys (R426), page tables (R203-R212), slices with their lines
and directory (R165, R170, R171), the images of active queues and pools (R321, R324, R341), the TCM with its undo log
(R401), and reading and writing at each place. -/

namespace Sys2Proof.Machine

/-! ### On-chip windows (R158) -/

/-- A well-formed on-chip offset. -/
inductive Win where
  | ownTcm (off : Nat) | ownPad (off : Nat) | tcm (core off : Nat) | pad (cluster off : Nat) | rstore (off : Nat)
  deriving DecidableEq, Repr

/-- Bits [63:56] are 0xFF: the offset is on-chip (R158). -/
def onChip (ea : Nat) : Bool := bits ea 56 8 == 0xFF

/-- The table of R158. -/
def window (ea : Nat) : Option Win :=
  let off := bits ea 0 16
  let cl := bits ea 24 6
  match bits ea 48 16 with
  | 0xFF00 => if bits ea 16 32 = 0 ∧ off < 0xC000 then some (.ownTcm off) else none
  | 0xFF01 => if bits ea 21 27 = 0 then some (.ownPad (bits ea 0 21)) else none
  | 0xFF02 =>
    let c := coreId cl (bits ea 16 5)
    if bits ea 30 18 = 0 ∧ bits ea 21 3 = 0 ∧ isCore c ∧ off < 0xC000 then some (.tcm c off) else none
  | 0xFF03 => if bits ea 30 18 = 0 ∧ bits ea 21 3 = 0 ∧ cl ≤ 33 then some (.pad cl (bits ea 0 21)) else none
  | 0xFF04 => if bits ea 25 23 = 0 then some (.rstore (bits ea 0 25)) else none
  | _ => none

/-- The own-TCM offset of an address that must be one (R275, R277, R366): a well-formed own-TCM address. -/
def ownTcm? (ea : Word) : Option Nat :=
  match window ea.toNat with
  | some (.ownTcm off) => some off
  | _ => none

/-- An own-TCM address that is a multiple of `al` and whose `n` bytes stay below 0xC000. -/
def ownTcmAt (ea : Word) (al n : Nat) : Option Nat :=
  match ownTcm? ea with
  | some off => if off % al = 0 ∧ off + n ≤ 0xC000 then some off else none
  | none => none

/-! ### Scratch memories with poison (R393) -/

/-- Any of the 8-byte units of `[a, a + n)` is poisoned. -/
def Sram.poisoned (m : Sram) (a n : Nat) : Bool := m.bad.any fun u => a / 8 ≤ u && u ≤ (a + n - 1) / 8

/-- The `n` bytes written at `a` cover all 8 bytes of unit `u`: every byte that the mask names, where there is one. -/
def coversUnit (a n : Nat) (mask : List Bool) (u : Nat) : Bool :=
  a ≤ 8 * u && 8 * u + 8 ≤ a + n && (mask.isEmpty || ((mask.drop (8 * u - a)).take 8).all id)

/-- Store bytes; a unit that is wholly written loses its poison (R393). -/
def Sram.write (m : Sram) (a : Nat) (data : List Byte) (mask : List Bool) : Sram :=
  { bytes := wrMasked m.bytes a data mask, bad := m.bad.filter fun u => !coversUnit a data.length mask u }

/-- Granules of 256 bytes that `[a, a + n)` touches (R400). -/
def granules (a n : Nat) : List Nat := (List.range (a % 256 + n + 255)).filterMap fun i =>
  if i % 256 = 0 ∧ i < a % 256 + n then some (a / 256 + i / 256) else none

/-- Scratchpad offset of a core's undo log (R19, R399). -/
def undoBase (cid : Nat) : Nat := 0x1C0000 + coreNo cid * 0x4000

/-- The first write to granule `g` saves its old 256 bytes (R401); `old` are the bytes it holds. -/
def logGranule (cid : Nat) (old : List Byte) (g : Nat) (k : Core × Sram) : Core × Sram :=
  match k.1.undo with
  | none => k
  | some w =>
    if w.contains g then k
    else if 60 ≤ k.1.undoUsed then
      ({ k.1 with undo := some (g :: w), undoOver := true },
        { k.2 with bytes := wrN k.2.bytes (undoBase cid + 0x98) 8 (60 + 256) })
    else
      let e := k.1.undoUsed
      let b := wrBytes k.2.bytes (undoBase cid + 0x400 + 256 * e) old
      let b := wrN b (undoBase cid + 0x300 + 4 * e) 4 g
      let b := wrN b (undoBase cid + 0x98) 8 (e + 1)
      ({ k.1 with undo := some (g :: w), undoUsed := e + 1 }, { k.2 with bytes := b })

/-- A write to a core's TCM from whatever source: undo log (R401), cached Levain headers (R374), poison (R393). -/
def tcmStore (cid : Nat) (k : Core × Sram) (a : Nat) (data : List Byte) (mask : List Bool) : Core × Sram :=
  let k := (granules a data.length).foldl
    (fun k g => logGranule cid (rdBytes k.1.tcm.bytes (256 * g) 256) g k) k
  let hit (h : Nat × Line) : Bool := h.1 < a + data.length && a < h.1 + 64
  ({ k.1 with tcm := k.1.tcm.write a data mask, headers := k.1.headers.filter fun h => !hit h }, k.2)

/-- The 8-byte unit `u` is marked poisoned where it lies (R393). -/
def poisonUnit (bad : List Nat) (u : Nat) : List Nat := if bad.contains u then bad else u :: bad

def Sram.spoilUnit (m : Sram) (a : Nat) : Sram := { m with bad := poisonUnit m.bad (a / 8) }

/-- A write to tile bytes (R401: granules 192-255 are the tiles). -/
def tileStore (cid : Nat) (k : Core × Sram) (t : Nat) (a : Nat) (data : List Byte) : Core × Sram :=
  let k := logGranule cid (rdBytes k.1.tiles (256 * t) 256) (192 + t) k
  ({ k.1 with tiles := wrBytes k.1.tiles (256 * t + a) data }, k.2)

/-- Store into the issuing core's own TCM. -/
def State.wrOwnMasked (s : State) (a : Nat) (data : List Byte) (mask : List Bool) : State :=
  let r := tcmStore s.cid (s.co, s.pad (clusterOf s.cid)) a data mask
  let s := { s with co := r.1 }
  if s.co.undo.isSome then s.setPad (clusterOf s.cid) r.2 else s

/-- Store into the issuing core's own TCM. -/
def State.wrOwn (s : State) (a : Nat) (data : List Byte) : State := s.wrOwnMasked a data []

/-- Store into any core's TCM. -/
def State.wrTcm (s : State) (c a : Nat) (data : List Byte) (mask : List Bool) : State :=
  let k := s.core c
  let r := tcmStore c (k, s.pad (clusterOf c)) a data mask
  let s := s.setCore c r.1
  if k.undo.isSome then s.setPad (clusterOf c) r.2 else s

/-- Read the issuing core's own TCM. -/
def State.rdOwn (s : State) (a n : Nat) : List Byte := rdBytes s.co.tcm.bytes a n

/-! ### DRAM (R3, R426) -/

/-- The number of the key that a tenant's KEY field names now; tenant 0 has key 0, and a tenant without a key one that nothing was or will
be written under. -/
def State.keyOf (s : State) (key : Nat) : Nat := if key = 0 then 0 else (mget s.front.tenants key).getD (2 ^ 64 + key)

/-- Bytes of DRAM: 128 GiB (R3), from physical address 0. -/
def dramSize : Nat := 2 ^ 37

/-- The 32 bytes at `a` (a multiple of 32) as they read under `key` (R426); no memory stands beyond the 128 GiB. -/
def State.dramSector (s : State) (a key : Nat) : Payload :=
  if dramSize ≤ a then Config.dramBeyond a else
  let raw : Payload := BitVec.ofNat 256 (rdN s.dram a 32)
  match mget s.dramKey (a / 32) with
  | some k => if k = s.keyOf key then raw else xtsReread k (s.keyOf key) a raw
  | none => raw

/-- Store a whole sector under `key`; every poisoned unit in it is overwritten. Beyond the DRAM nothing is stored. -/
def State.setDramSector (s : State) (a key : Nat) (d : Payload) : State :=
  if dramSize ≤ a then s else
  { s with
    dram := wrN s.dram a 32 d.toNat
    dramKey := mset s.dramKey (a / 32) (s.keyOf key)
    dramBad := s.dramBad.filter fun u => !(a / 8 ≤ u && u < a / 8 + 4) }

/-- Change a few bytes of DRAM within one sector (R165, R210). -/
def State.pokeDram (s : State) (a key : Nat) (data : List Byte) (mask : List Bool) : State :=
  let base := a / 32 * 32
  let old := wrN [] 0 32 (s.dramSector base key).toNat
  let bad := s.dramBad.filter fun u =>
    !(a ≤ 8 * u && 8 * u + 8 ≤ a + data.length && mask.isEmpty)
  let s := s.setDramSector base key (BitVec.ofNat 256 (rdN (wrMasked old (a - base) data mask) 0 32))
  { s with dramBad := bad }

/-- An 8-byte table entry, read from DRAM directly (R210). -/
def State.entry8 (s : State) (a : Nat) : Nat := bits (s.dramSector (a / 32 * 32) 0).toNat (8 * (a % 32)) 64

/-- The indivisible 8-byte OR of R210. -/
def State.orEntry (s : State) (a v : Nat) : State := s.pokeDram a 0 (toBytes 8 (s.entry8 a ||| v)) []

/-! ### Spaces and page tables (R203-R212) -/

/-- An entry of the space table (R205). -/
def State.spaceEntry (s : State) (sp : Nat) : Nat × Nat :=
  let a := bits s.front.droot.toNat 20 26 * 2 ^ 20 + 16 * sp
  (s.entry8 a, s.entry8 (a + 8))

def spaceValid (e : Nat × Nat) : Bool := bit e.1 63
def spaceTenant (e : Nat × Nat) : Nat := bits e.1 48 8

/-- Step 5 of R186 (R206): the thread of `tenant` may use the space. -/
def State.spaceOk (s : State) (sp tenant : Nat) : Bool :=
  let e := s.spaceEntry sp
  spaceValid e && (tenant == 0 || spaceTenant e == tenant)

def isPeer (sp : Nat) : Bool := 0xFF00 ≤ sp && sp ≤ 0xFFEF
def isHost (sp : Nat) : Bool := 0xFFF0 ≤ sp
def isLocal (sp : Nat) : Bool := sp < 0xFF00

/-- What a data access needs of a leaf (R209). -/
inductive Need where
  | read | write | atomic
  deriving DecidableEq, Repr

/-- A walk's result: a translation or the reason of its fault. -/
inductive Walked where
  | leaf (t : Tlb) | fail (reason : Nat)
  deriving DecidableEq, Repr

/-- A non-leaf entry has every field other than V and PA zero (R208). -/
def nonLeafOk (e : Nat) : Bool := bits e 46 18 == 0 && bits e 1 15 == 0

/-- A leaf at a level whose page has `2 ^ pageBits` bytes keeps its zero fields and alignment (R208). -/
def leafOk (e pageBits : Nat) : Bool := bits e 46 4 == 0 && bits e 8 8 == 0 && bits e 16 (pageBits - 16) == 0

/-- Make a cached translation of a leaf (R208). -/
def leafTlb (e pageBits sp tenant ea addr : Nat) : Tlb :=
  { tenant := tenant, space := sp, page := ea / 2 ^ pageBits * 2 ^ pageBits, size := 2 ^ pageBits
    frame := bits e 16 30 * 2 ^ 16, rd := bit e 2, wr := bit e 3, hint := bit e 4, pinned := bit e 5
    region := bits e 50 6, key := bits e 56 8, entry := addr }

/-- One level of the data walk (R207-R209): the levels below are given by how many remain. -/
def State.walkFrom (s : State) (sp tenant ea : Nat) : Nat → Nat → Walked
  | 0, _ => .fail 3
  | fuel + 1, table =>
    let level := 3 - fuel
    let idx := match level with
      | 0 => bits ea 55 9 | 1 => bits ea 42 13 | 2 => bits ea 29 13 | _ => bits ea 16 13
    let pageBits := match level with
      | 0 => 55 | 1 => 42 | 2 => 29 | _ => 16
    let a := table + 8 * idx
    let e := s.entry8 a
    if !bit e 0 then .fail 0
    else if bit e 1 then
      if level = 0 || !leafOk e pageBits then .fail 3
      else if tenant ≠ 0 && bits e 56 8 ≠ tenant then .fail 2
      else .leaf (leafTlb e pageBits sp tenant ea a)
    else if fuel = 0 || !nonLeafOk e then .fail 3
    else s.walkFrom sp tenant ea fuel (bits e 16 30 * 2 ^ 16)

/-- The data walk of R207 from the root of the space. -/
def State.walk (s : State) (sp ea : Nat) : Walked :=
  let e := s.spaceEntry sp
  s.walkFrom sp (spaceTenant e) ea 4 (bits e.1 16 30 * 2 ^ 16)

/-- The permissions of R209. -/
def Tlb.permits (t : Tlb) : Need → Bool
  | .read => t.rd
  | .write => t.wr
  | .atomic => t.rd && t.wr

/-- The instruction walk of R212 for program `p`. -/
def State.walkInstr (s : State) (p ea : Nat) : Walked :=
  let r := bits s.front.iroot.toNat 20 26 * 2 ^ 20 + 16 * p
  let e := s.entry8 r
  let tenant := bits e 48 8
  if !bit e 63 then .fail 0
  else if bits e 56 7 ≠ 0 || bits e 46 2 ≠ 0 || bits e 0 13 ≠ 0 || s.entry8 (r + 8) ≠ 0 then .fail 3
  else
    let a0 := bits e 13 33 * 2 ^ 13 + 8 * bits ea 30 10
    let e0 := s.entry8 a0
    if !bit e0 0 then .fail 0
    else if bits e0 46 18 ≠ 0 || bits e0 1 11 ≠ 0 then .fail 3
    else
      let a1 := bits e0 12 34 * 2 ^ 12 + 8 * bits ea 21 9
      let e1 := s.entry8 a1
      if !bit e1 0 then .fail 0
      else if !bit e1 1 || bits e1 46 10 ≠ 0 || bits e1 7 14 ≠ 0 || bits e1 3 2 ≠ 0 then .fail 3
      else if tenant ≠ 0 && bits e1 56 8 ≠ tenant then .fail 2
      else if !bit e1 2 then .fail 1
      else .leaf
        { tenant := tenant, space := p, page := ea / 2 ^ 21 * 2 ^ 21, size := 2 ^ 21, frame := bits e1 21 25 * 2 ^ 21
          rd := true, wr := false, hint := false, pinned := bit e1 5, region := 0, key := bits e1 56 8, entry := a1 }

/-- Does a cached translation cover the offset? -/
def Tlb.covers (t : Tlb) (sp tenant ea : Nat) : Bool :=
  t.space == sp && t.tenant == tenant && t.page ≤ ea && ea < t.page + t.size

/-- Physical address of an offset it covers. -/
def Tlb.phys (t : Tlb) (ea : Nat) : Nat := t.frame + (ea - t.page)

/-- The home slice of a translated line: the hash taken over the slices of the active slice map (R165). -/
def State.homeOf (s : State) (sp ea : Nat) : Nat :=
  (s.front.slices.getD (Config.homeHash sp (ea / 64) % max 1 s.front.slices.length) 0) % 32

/-! ### Images of active queues and pools (R321, R341) -/

/-- Occupied elements (R323). -/
def Queue.occupied (q : Queue) : Nat := q.capacity - q.free - q.credits

/-- Bytes 0x00-0x3B of a QCB (R321). -/
def Queue.body (q : Queue) : List Byte :=
  toBytes 4 q.head ++ toBytes 4 q.tail ++ toBytes 4 q.free ++ toBytes 4 q.capacity ++ toBytes 2 q.elem ++
  toBytes 2 q.flags.toNat ++ toBytes 2 q.baseSpace ++ toBytes 2 0 ++ toBytes 8 q.base ++
  toBytes 4 ((q.producers.head?.map (·.ticket)).getD 0) ++ toBytes 4 ((q.consumers.head?.map (·.ticket)).getD 0) ++
  toBytes 4 q.credits ++ toBytes 16 0

/-- POISONED (R322). -/
def Queue.poisoned (q : Queue) : Bool := q.flags.getLsbD 4
def Queue.closed (q : Queue) : Bool := q.flags.getLsbD 7
def Queue.multi (q : Queue) : Bool := q.flags.getLsbD 3

/-- Bytes of a QCB that no field of the controller holds: 0x16-0x17, 0x2C-0x3B, and once the line has been stored to, the waiter
heads and the check, which nothing then recomputes (R321, R324). -/
def queueFree (i : Nat) : Bool := i = 0x16 || i = 0x17 || (0x20 ≤ i && i < 0x28) || 0x2C ≤ i

/-- Bytes of a pool descriptor that no field of the controller holds (R341, R346). -/
def poolFree (i : Nat) : Bool := 0x20 ≤ i

/-- An image of 60 bytes with its check; where the line has been stored to, `stored` gives the bytes that `f` picks. -/
def overlay (body : List Byte) (stored : Option (List Byte)) (f : Nat → Bool) : List Byte :=
  let l := body ++ toBytes 4 (crc32c body).toNat
  match stored with
  | none => l
  | some w => l.zipIdx.map fun e => if f e.2 then w.getD e.2 0 else e.1

/-- The 64-byte image: a valid check, unless software has written the line, whose bytes then stand (R324). -/
def Queue.image (q : Queue) : List Byte := overlay q.body q.stored queueFree

/-- What deactivation writes back: the waiter heads 0 and the check recomputed (R320). -/
def Queue.written (q : Queue) : List Byte :=
  let l := ({ q with producers := [], consumers := [] } : Queue).image.take 60
  let l := l.take 0x20 ++ toBytes 8 0 ++ l.drop 0x28
  l ++ toBytes 4 (crc32c l).toNat

/-- The fields of a QCB image (R321), waiters apart. -/
def queueOf (qcb sp tenant : Nat) (l : List Byte) : Queue :=
  let n := ofBytes l
  { qcb := qcb, space := sp, tenant := tenant, head := bits n 0 32, tail := bits n 32 32, free := bits n 64 32
    capacity := bits n 96 32, elem := bits n 128 16, flags := BitVec.ofNat 16 (bits n 144 16)
    baseSpace := bits n 160 16, base := bits n 192 64, credits := bits n 320 32 }

/-- Bytes 0x00-0x3B of a pool descriptor (R341). -/
def Pool.body (p : Pool) : List Byte :=
  toBytes 8 p.base ++ toBytes 8 p.meta_ ++ toBytes 4 p.count ++ toBytes 4 p.free ++ toBytes 4 p.head ++
  toBytes 2 p.blockSpace ++ toBytes 1 p.log ++ toBytes 1 (p.scope + (if p.corrupt then 8 else 0) + p.high * 16) ++ toBytes 28 0

/-- The 64-byte image, as `Queue.image` (R346). -/
def Pool.image (p : Pool) : List Byte := overlay p.body p.stored poolFree

/-- What deactivation writes back. -/
def Pool.written (p : Pool) : List Byte :=
  let l := p.image.take 60
  l ++ toBytes 4 (crc32c l).toNat

/-- The fields of a pool descriptor (R341). -/
def poolOf (addr sp tenant : Nat) (l : List Byte) : Pool :=
  let n := ofBytes l
  { addr := addr, space := sp, tenant := tenant, base := bits n 0 64, meta_ := bits n 64 64, count := bits n 128 32
    free := bits n 160 32, head := bits n 192 32, blockSpace := bits n 224 16, log := bits n 240 8, scope := bits n 248 3
    corrupt := bit n 251, high := bits n 252 4 }

/-- The image that covers an active line, if there is one (R324, R346). -/
def Home.imageAt (h : Home) (sp tenant line : Nat) : Option (List Byte) :=
  match h.queues.find? fun q => q.space == sp && q.tenant == tenant && q.qcb / 64 == line && !q.shadow with
  | some q => some q.image
  | none => (h.pools.find? fun p => p.space == sp && p.tenant == tenant && p.addr / 64 == line).map Pool.image

/-- A write to an active line: it takes effect on the image and poisons the queue, or marks the pool corrupt (R324, R346). -/
def Home.pokeImage (h : Home) (sp tenant line off : Nat) (data : List Byte) (mask : List Bool) : Home :=
  let upd (l : List Byte) : List Byte := rdBytes (wrMasked (wrBytes [] 0 l) off data mask) 0 64
  { h with
    queues := h.queues.map fun q =>
      if (q.space == sp && q.tenant == tenant && q.qcb / 64 == line && !q.shadow) then
        let l := upd q.image
        let n := queueOf q.qcb sp tenant l
        { n with
          flags := n.flags ||| 0x10#16, producers := q.producers, consumers := q.consumers, mirrored := q.mirrored, used := q.used
          stored := some l }
      else q
    pools := h.pools.map fun p =>
      if (p.space == sp && p.tenant == tenant && p.addr / 64 == line) then
        { poolOf p.addr sp tenant (upd p.image) with corrupt := true, used := p.used, stored := some (upd p.image) }
      else p }

/-! ### Lines of a slice (R165, R170) -/

def SLine.is (l : SLine) (instr : Bool) (tenant sp line : Nat) : Bool :=
  l.instr == instr && l.tenant == tenant && l.space == sp && l.line == line

/-- Way mask of a tenant (R165). -/
def Home.wayMask (h : Home) (tenant : Nat) : Nat := (mget h.ways tenant).getD (if tenant = 0 then 0 else 0xFFFF)

/-- Poisoned units of a DRAM sector, as unit numbers 0-3. -/
def State.dramBadOf (s : State) (a : Nat) : List Nat :=
  (List.range 4).filter fun u => s.dramBad.contains (a / 8 + u)

/-- Sector of a line: as cached, else as DRAM holds it. -/
def State.sectorOf (s : State) (l : SLine) (hi : Bool) : Sector :=
  match (if hi then l.hi else l.lo) with
  | some c => c
  | none =>
    let a := l.frame + if hi then 32 else 0
    { data := s.dramSector a l.key, dirty := false, bad := s.dramBadOf a }

/-- The line, cached or about to be. -/
def State.lineOf (s : State) (h : Nat) (instr : Bool) (t : Tlb) (ea : Nat) : SLine :=
  ((s.home h).lines.find? fun l => l.is instr t.tenant t.space (ea / 64)).getD
    { instr := instr, tenant := t.tenant, space := t.space, line := ea / 64, frame := t.phys (ea / 64 * 64), key := t.key }

/-- Remove a line from the L0 data caches of the cores that `f` picks (R163, R170). -/
def State.dropL0 (s : State) (sp line : Nat) (f : Nat → Bool) : State :=
  { s with
    cores := s.cores.map fun c =>
      if f c.1 then (c.1, { c.2 with l0d := c.2.l0d.filter fun l => !(l.space == sp && l.line == line) }) else c }

/-! ### Sets, ways and replacement (R3, R165) -/

/-- The set of a line: a slice has 2,048 sets of 16 ways, 2 MiB in all (R3, R165). The manual names no index; the model takes the
line number (DESIGN CHOICE, notes/assumptions/41.md). -/
def setOf (line : Nat) : Nat := line % 2048

/-- The tree of a set after way `w` was used: every node above it points away (R165). Node 1 is the root, 16 + w the leaf. -/
def plruTouch (t w : Nat) : Nat :=
  [1, 2, 3, 4].foldl (fun t i => putBits t ((16 + w) / 2 ^ i) 1 (if bit (16 + w) (i - 1) then 0 else 1)) t

/-- The way that the tree leads to among those of the mask (R165). -/
def plruPick (t mask : Nat) : Nat :=
  let has (node d : Nat) : Bool := bits mask (node * 2 ^ (4 - d) - 16) (2 ^ (4 - d)) != 0
  [1, 2, 3, 4].foldl (fun node d =>
    let far := 2 * node + (if bit t node then 1 else 0)
    let near := 2 * node + (if bit t node then 0 else 1)
    if has far d then far else near) 1 - 16

/-- Way `w` of the set of `line` was used. -/
def Home.touch (x : Home) (line w : Nat) : Home :=
  { x with plru := mset x.plru (setOf line) (plruTouch ((mget x.plru (setOf line)).getD 0) w) }

/-- The lines of a slice but this one. -/
def Home.otherLines (x : Home) (l : SLine) : List SLine := x.lines.filter fun y => !y.is l.instr l.tenant l.space l.line

/-- Write a line's dirty sectors to DRAM. -/
def State.writeBack (s : State) (l : SLine) : State :=
  let put (s : State) (c : Option Sector) (a : Nat) : State := match c with
    | some c =>
      if c.dirty then
        let s := s.setDramSector a l.key c.data
        { s with dramBad := s.dramBad ++ c.bad.map (a / 8 + ·) }
      else s
    | none => s
  put (put s l.lo l.frame) l.hi (l.frame + 32)

/-- The recall of an overflowed line (R171): the handler invalidates it in all cores of the clusters of its mask, of all clusters
when a reset has lost the entry (R231), and frees the entry. -/
def State.recall (s : State) (h : Nat) (l : SLine) : State :=
  if !l.overflowed then s
  else
    let c := coreId h 16
    let key := (l.tenant, l.space, l.line)
    let cls := (((s.core c).overflow.find? fun e => e.1 == key).map (·.2)).getD (List.range 34)
    (s.dropL0 l.space l.line fun k => cls.contains (clusterOf k)).modCore c fun k =>
      { k with overflow := k.overflow.filter fun e => e.1 != key }

/-- Invalidate a line and every L0 copy of it (R170, R171, R197). -/
def State.dropLine (s : State) (h : Nat) (l : SLine) : State :=
  let s := (s.recall h l).dropL0 l.space l.line fun _ => true
  s.modHome h fun x => { x with lines := x.otherLines l }

/-- The lines of a set, and the way that a new line of the set takes among those of `mask`: one that nothing uses, else the
least recently used by the tree. -/
def Home.pickWay (x : Home) (set mask : Nat) : Nat :=
  let here := x.lines.filter fun y => setOf y.line == set
  match (List.range 16).find? fun w => bit mask w && here.all (·.way != w) with
  | some w => w
  | none => plruPick ((mget x.plru set).getD 0) mask

/-- Put a line into a slice: where it is, else into a way of its tenant's mask, whose line leaves with its L0 copies and is
written back; a tenant with an empty mask allocates nothing (R165, R170). -/
def State.putLine (s : State) (h : Nat) (l : SLine) : State :=
  let x := s.home h
  match x.lines.find? fun y => y.is l.instr l.tenant l.space l.line with
  | some y => s.modHome h fun x => { x.touch l.line y.way with lines := { l with way := y.way } :: x.otherLines l }
  | none =>
    let mask := x.wayMask l.tenant
    if mask % 2 ^ 16 = 0 then s
    else
      let w := x.pickWay (setOf l.line) mask
      let s := match x.lines.find? fun y => setOf y.line == setOf l.line && y.way == w with
        | some y => (s.writeBack y).dropLine h y
        | none => s
      s.modHome h fun x => { x.touch l.line w with lines := { l with way := w } :: x.lines }

/-- Read `n` bytes that lie in one sector of a translated line: bytes, whether they are poisoned, and the slice after the
fill (R165, R324, R393). -/
def State.rdSlice (s : State) (h : Nat) (t : Tlb) (ea n : Nat) : List Byte × Bool × State :=
  match (s.home h).imageAt t.space t.tenant (ea / 64) with
  | some img => ((img.drop (ea % 64)).take n, false, s)
  | none =>
    let l := s.lineOf h false t ea
    let hi := 32 ≤ ea % 64
    let c := s.sectorOf l hi
    let l := if hi then { l with hi := some c } else { l with lo := some c }
    let o := ea % 32
    (toBytes n (bits c.data.toNat (8 * o) (8 * n)),
      c.bad.any (fun u => o / 8 ≤ u && u ≤ (o + n - 1) / 8), s.putLine h l)

/-- A version is 32 bits wide (R371). -/
def Region.raised (r : Region) : Region := { r with version := (r.version + 1) % 2 ^ 32 }

/-- Weight regions (R372): a covered write raises the version of its entry in every copy of the DRAM table, also in one that the
entry's registration has not reached. -/
def State.bumpRegion (s : State) (t : Tlb) (ea : Nat) : State :=
  if !t.hint then s
  else
    let covered := match mget (s.home (s.homeOf t.space ea)).regions t.region with
      | some r => r.valid && r.space == t.space && r.base ≤ ea && ea < r.base + r.length
      | none => false
    if !covered then s
    else (List.range 32).foldl (fun s h => s.modHome h fun x =>
      { x with regions := mset x.regions t.region ((mget x.regions t.region).getD {}).raised }) s

/-- The same for the reflex table (R372): every entry whose range the write falls in. -/
def State.bumpReflexRegions (s : State) (off n : Nat) : State :=
  s.modHome 32 fun x => { x with regions := x.regions.map fun e =>
    if e.2.valid && e.2.base < off + n && off < e.2.base + e.2.length then
      (e.1, e.2.raised) else e }

/-- Write bytes that lie in one sector of a translated line: every L0 copy but the writer's is invalidated, versions rise
first, then the write is performed (R165, R170, R324, R372). The writer's own copy is updated by its core (R163). -/
def State.wrSlice (s : State) (h : Nat) (t : Tlb) (ea : Nat) (data : List Byte) (mask : List Bool)
    (writer : Option Nat) : State :=
  let s := s.dropL0 t.space (ea / 64) fun c => some c != writer
  let s := s.bumpRegion t ea
  let s := s.orEntry t.entry 0x80
  if ((s.home h).imageAt t.space t.tenant (ea / 64)).isSome then
    s.modHome h fun x => x.pokeImage t.space t.tenant (ea / 64) (ea % 64) data mask
  else if (s.home h).wayMask t.tenant = 0 && !(s.home h).lines.any fun l => l.is false t.tenant t.space (ea / 64) then
    s.pokeDram (t.phys ea) t.key data mask
  else
    let l := s.lineOf h false t ea
    let hi := 32 ≤ ea % 64
    let c := s.sectorOf l hi
    let o := ea % 32
    let m := wrMasked (wrN [] 0 32 c.data.toNat) o data mask
    let c := { data := BitVec.ofNat 256 (rdN m 0 32), dirty := true, bad := c.bad.filter fun u => !coversUnit o data.length mask u }
    let keep := match writer with
      | some w => l.sharers.filter (· == w)
      | none => []
    let s := s.recall h l
    let l := { l with sharers := keep, overflowed := false }
    s.putLine h (if hi then { l with hi := some c } else { l with lo := some c })

/-- Write a line's dirty sectors to DRAM; the line stays valid and clean (R196). -/
def State.cleanLine (s : State) (h : Nat) (l : SLine) : State :=
  (s.writeBack l).putLine h { l with lo := l.lo.map ({ · with dirty := false }), hi := l.hi.map ({ · with dirty := false }) }

/-! ### Power of a slice (R166) -/

/-- Parent of a slice in the tree of R217. -/
def treeParent (c : Nat) : Nat := if 8 ≤ c then c - 8 else if c < 3 then c + 1 else if 3 < c then c - 1 else 3

/-- The nearest awake ancestor of a slice. -/
def State.awakeParent (s : State) : Nat → Nat → Nat
  | 0, c => c
  | fuel + 1, c =>
    let p := treeParent c
    if (s.home p).power = .awake then p else s.awakeParent fuel p

/-- A slice that is not awake powers up empty, with the region table of its parent (R166, R371). -/
def State.wakeNow (s : State) (h : Nat) : State :=
  if (s.home h).power = .awake then s
  else
    let table := (s.home (s.awakeParent 12 h)).regions
    s.modHome h fun x => { x with power := .awake, regions := table, tlb := [], lines := [], plru := [] }

/-- A request for a slice that is not awake waits at its router, in arrival order (R166). -/
def State.awaitWake (s : State) (h : Nat) (e : Event) : State :=
  let gated := (s.home h).power = .gated
  let s := s.modHome h fun x => { x with waking := x.waking ++ [e] }
  if gated then s.post 0 (.sliceWake h) else s

/-! ### Translation at a home (R213, R214) -/

/-- Look the page up in a slice's translation cache (R213); peer leases that have run out do not count (R219). -/
def State.tlbHit (s : State) (h sp ea : Nat) : Option Tlb :=
  (s.home h).tlb.find? fun t => t.covers sp (spaceTenant (s.spaceEntry sp)) ea &&
    (match t.lease with | some e => s.meridianNow < e | none => true)

/-- Enter a translation, with A set (R210). Of 1,024 the one entered first leaves (R213; DESIGN CHOICE, notes/assumptions/94.md). -/
def State.addTlb (s : State) (h : Nat) (t : Tlb) : State :=
  (s.modHome h fun x => { x with tlb := (t :: x.tlb).take 1024 }).orEntry t.entry 0x40

/-- Translate at the home on behalf of an engine or a controller, which wakes it (R166): walking on a miss, and the permission
(R209). -/
def State.translate (s : State) (h sp ea : Nat) (n : Need) : Except Nat (Tlb × State) :=
  let s := s.wakeNow h
  match s.tlbHit h sp ea with
  | some t => if t.permits n then .ok (t, s) else .error 1
  | none =>
    match s.walk sp ea with
    | .fail r => .error r
    | .leaf t => if t.permits n then .ok (t, s.addTlb h t) else .error 1

/-- A leaf of the data space of a page, read without entering it anywhere; a space that does not exist, or that is a window, maps none
(R203, R205, R227, R325). -/
def State.leafOf (s : State) (sp ea : Nat) : Option Tlb :=
  if !isLocal sp || !spaceValid (s.spaceEntry sp) then none
  else match s.walk sp ea with
    | .leaf t => some t
    | .fail _ => none

/-- The step `o` of an event that an engine or a controller performs: where it needs a slice that is not awake, nothing happens yet
and the event waits at that slice in its turn, to be done whole once the slice serves it (R166; DEDUCED, notes/assumptions/93.md). -/
def State.orWait (s : State) (o : Out) : Out :=
  match o with
  | .next t => match (List.range 32).find? fun h => (s.home h).power != .awake && (t.home h).power == .awake with
    | some h => .next (s.awaitWake h s.event)
    | none => .next t
  | o => o

/-- Read translated bytes of any length on behalf of an engine or a controller: reason of the first failure, else the
bytes, whether any was poisoned, and the state. Sector by sector. -/
def State.rdVirtual (s : State) (sp ea : Nat) : Nat → Nat → Except Nat (List Byte × Bool × State)
  | 0, _ => .ok ([], false, s)
  | fuel + 1, n =>
    if n = 0 then .ok ([], false, s)
    else
      let k := min n (32 - ea % 32)
      let h := s.homeOf sp ea
      match s.translate h sp ea .read with
      | .error r => .error r
      | .ok (t, s) =>
        let r := s.rdSlice h t ea k
        match r.2.2.rdVirtual sp (ea + k) fuel (n - k) with
        | .error e => .error e
        | .ok (l, b, s) => .ok (r.1 ++ l, r.2.1 || b, s)

/-- Write translated bytes on behalf of an engine or a controller. -/
def State.wrVirtual (s : State) (sp ea : Nat) : Nat → List Byte → Except Nat State
  | 0, _ => .ok s
  | fuel + 1, l =>
    if l.isEmpty then .ok s
    else
      let k := min l.length (32 - ea % 32)
      let h := s.homeOf sp ea
      match s.translate h sp ea .write with
      | .error r => .error r
      | .ok (t, s) => (s.wrSlice h t ea (l.take k) [] none).wrVirtual sp (ea + k) fuel (l.drop k)

/-- Enough steps for `n` bytes in sectors. -/
def sectorFuel (n : Nat) : Nat := n / 32 + 2

/-! ### Atomics (R193-R195 compute on the old value; AMOF's arithmetic is in Fp.lean) -/

/-- `new` of R193. -/
def amoNew (fn : Nat) (n old a : Nat) : Nat :=
  let so := signedOf n old
  let sa := signedOf n a
  match fn with
  | 0 => (old + a) % 2 ^ n
  | 1 => old &&& a
  | 2 => old ||| a
  | 3 => old ^^^ a
  | 4 => if so < sa then old else a
  | 5 => if so < sa then a else old
  | 6 => min old a
  | 7 => max old a
  | _ => a

end Sys2Proof.Machine
end

