-- ==== Sys2Proof/Machine/Forward.lean ====
section
/-! DEFINITION. Forwarding entries and where they lead (R43, R45, R160), answers of RETRY (R42, R45), messages on their way
(R273, R275), and what an ended thread still waits for (R304). -/

namespace Sys2Proof.Machine

/-! ### Places: a core by its number, a context away from any core by 2^20 and its number -/

/-- The place of a context that streams or is Saved. -/
def ctxPlace (id : Nat) : Nat := 2 ^ 20 + id

/-- The context that a place names, if it names one. -/
def ctxOf? (place : Nat) : Option Nat := if 2 ^ 20 ≤ place then some (place - 2 ^ 20) else none

/-- The entry of a core that redirects a departed context of program `prog` (R43). -/
def Core.forwardOf (k : Core) (prog : Nat) : Option Forward :=
  (k.forwards.find? fun f => f.2.prog == prog && f.2.thread.isNone).map (·.2)

/-- Where what is addressed to core `c` for program `prog` goes; entries are rewritten at every move, so that a few hops
always suffice (R43). -/
def State.follow (s : State) (prog : Nat) : Nat → Nat → Nat
  | 0, place => place
  | fuel + 1, place =>
    if 2 ^ 20 ≤ place then place
    else match (s.core place).forwardOf prog with
      | some f => s.follow prog fuel f.dest
      | none => place

/-- Where what is addressed to core `c` for program `prog` goes. -/
def State.placeOf (s : State) (prog c : Nat) : Nat := s.follow prog 4 c

/-- The core of a place, as a core or as the context's own. -/
def State.coreAt (s : State) (place : Nat) : Core :=
  match ctxOf? place with
  | some i => ((mget s.contexts i).map (·.core)).getD {}
  | none => s.core place

/-- Change the core of a place. -/
def State.modCoreAt (s : State) (place : Nat) (f : Core → Core) : State :=
  match ctxOf? place with
  | some i => { s with contexts := mmod s.contexts i fun x => { x with core := f x.core } }
  | none => s.modCore place f

/-- An answer of RETRY: the sender keeps the message and sends it again after 64 cycles (R42, R45, R233, R273). -/
def State.keep (s : State) (e : Event) : State :=
  let i := s.fresh
  ({ i.2 with kept := mset i.2.kept i.1 e } : State).post (cyc 64) (.retryResend i.1)

/-! ### Threads that have ended -/

/-- The bank of a thread, ended or not. -/
def Core.bankOfAny (k : Core) (w : Who) : Option Nat := (k.banks.find? fun b => b.2.who == w).map (·.1)

/-- The place and bank of a thread, ended or not. -/
def State.locateAny (s : State) (w : Who) : Option (Nat × Nat) :=
  match s.cores.findSome? (fun c => (c.2.bankOfAny w).map fun b => (c.1, b)) with
  | some r => some r
  | none => s.contexts.findSome? fun c => (c.2.core.bankOfAny w).map fun b => (ctxPlace c.1, b)

/-- Change a thread, ended or not. -/
def State.modAny (s : State) (w : Who) (f : Thread → Thread) : State :=
  match s.locateAny w with
  | some (p, b) => s.modCoreAt p fun k => k.modBank b fun t => if (ctxOf? p).isSome then (f t).completeAway else f t
  | none => s.modThread w f

/-- The thread has a copy in flight on some engine. -/
def State.hasCopies (s : State) (w : Who) : Bool :=
  s.cores.any (fun c => c.2.copies.any fun y => y.2.who == w) || s.contexts.any fun c => c.2.core.copies.any fun y => y.2.who == w

/-- The access changes memory where it is performed. -/
def MemOp.writes : MemOp → Bool
  | .probe _ => false
  | .read => false
  | _ => true

/-- A store or atomic of a thread that `f` picks is on its way (R304, R318). -/
def State.writesOut (s : State) (f : Who → Bool) : Bool := s.accs.any fun a => f a.2.who && a.2.op.writes

/-- Nothing of the thread is outstanding (R304, R318): its copies, sends, atomics and stores. -/
def State.drained (s : State) (t : Thread) : Bool :=
  t.unacked.isEmpty && t.sends == 0 && !s.hasCopies t.who && !s.writesOut fun w => w == t.who

/-- An ended thread that has drained frees its bank (R304); of one without a bank, its program waits for what it has issued (R318). -/
def State.releaseIfDrained (s : State) (w : Who) : State :=
  match s.locateAny w with
  | some (p, b) =>
    match mget (s.coreAt p).banks b with
    | some t => if t.st == .ended && s.drained t then s.post 0 (.bankRelease p b) else s
    | none => s
  | none => if (s.thread? w).isSome then s else s.post 0 (.programCompletion w.prog)

/-- A store or atomic of a thread is acknowledged (R174, R304). -/
def State.acked1 (s : State) (w : Who) (id : Nat) : State :=
  (s.modAny w fun t => { t with unacked := t.unacked.filter (· != id) }).releaseIfDrained w

/-- The acknowledgement of a store that does not wait; it returns to both twins of a pair (R395). -/
def State.acked (s : State) (w : Who) (id : Nat) : State :=
  let s := s.acked1 w id
  match (mget s.pairs id).bind (·.twin) with
  | some j =>
    match mget s.pairs j with
    | some t =>
      let s := { s with pairs := mdel (mdel s.pairs j) id, accs := mdel s.accs j }
      s.acked1 t.who j
    | none => { s with pairs := mdel s.pairs id }
  | none => { s with pairs := mdel s.pairs id }

/-! ### Messages -/

/-- A message from core `src` to mailbox `mb` of core `dst` that no thread waits for. -/
def State.mailFrom (s : State) (src dst mb : Nat) (body : List Byte) (level : Level) (prog form : Nat) : State :=
  let d := cyc (6 + 2 * hops (clusterOf src) (clusterOf dst))
  let e : Event := .mailboxArrival ⟨src, dst, mb, BitVec.ofNat 256 (ofBytes body), level, ⟨prog, 0⟩, 0, form⟩
  if isCore src then s.emit src 1 d e else s.post d e

/-- The service core that takes a core's fault messages (R221). -/
def faultTarget (c : Nat) : Nat := if isFront c then coreId 62 0 else coreId (clusterOf c) 16

/-- A fault message (R221); `bank` and `copy` say whose the fault is. -/
def faultBody (f : FaultRec) (fid : Nat) : List Byte :=
  let copy : Nat := match f.of_ with | .copy id => id | .access _ => 0xFF
  toBytes 8 f.offset ++ toBytes 2 f.space ++ toBytes 1 f.kind ++ toBytes 1 f.reason ++ toBytes 4 fid ++ toBytes 2 f.core ++
  toBytes 1 f.bank ++ toBytes 1 copy ++ toBytes 2 f.who.prog ++ toBytes 1 f.tenant ++ toBytes 1 0 ++ toBytes 8 f.word

/-- Core `c` sends a fault message (R221); after a move it is the core that holds the context (R224). -/
def State.mailFault (s : State) (c : Nat) (f : FaultRec) (fid : Nat) : State :=
  s.mailFrom c (faultTarget c) 4 (faultBody f fid) .firmware f.who.prog 3

/-- The tenant a thread's accesses carry, and how it was started. -/
def State.kindOf (s : State) (w : Who) : Kind := ((s.thread? w).map (·.kind)).getD .spawned

/-- A core is being vacated: its router answers RETRY (R45). -/
def State.streaming (s : State) (place : Nat) : Bool :=
  match ctxOf? place with
  | some i => ((mget s.contexts i).map (·.moving)).getD false
  | none => (s.core place).seized.isSome

/-- All 32 places for arrivals of a Saved context are taken (R233). -/
def State.arrivalsFull (s : State) (i : Nat) : Bool :=
  32 ≤ ((mget s.contexts i).map fun x => x.arrivals.length).getD 0

/-! ### Acknowledgements that return to both twins (R395) -/

/-- The threads of request `id`: its thread, and the partner that shares the replies (R395). -/
def State.threadsOfOp (s : State) (id : Nat) (w : Who) : List Who :=
  match ((mget s.pairs id).bind (·.twin)).bind fun j => mget s.pairs j with
  | some t => [w, t.who]
  | none => [w]

/-- Apply `f` for request `id` of thread `w`, and for the request of its partner that shares the replies. -/
def State.forTwins (s : State) (w : Who) (id : Nat) (f : State → Who → Nat → State) : State :=
  let s := f s w id
  match (mget s.pairs id).bind (·.twin) with
  | some j =>
    match mget s.pairs j with
    | some t => f { s with pairs := mdel (mdel s.pairs j) id } t.who j
    | none => { s with pairs := mdel s.pairs id }
  | none => { s with pairs := mdel s.pairs id }

end Sys2Proof.Machine
end

