-- ==== Sys2Proof/Machine/Fp.lean ====
section
/-! DEFINITION. Numbers of the formats of R91-R100 as exact dyadic values (R92-R94), exact arithmetic on them, and the
functions of R117 to as many bits as decide their rounding. Rounding and its flags are in Flags.lean. -/

namespace Sys2Proof.Machine

/-- A value: (-1)^neg * m * 2^e exactly, an infinity, or a NaN. -/
inductive Num where
  | fin (neg : Bool) (m : Nat) (e : Int)
  | inf (neg : Bool)
  | nan
  deriving DecidableEq, Repr

/-- Rounding modes (R110). -/
inductive Rnd where
  | nearest | zero | up | down
  deriving DecidableEq, Repr

/-- The mode of VCONF.RM (R110). -/
def rndOf (rm : Nat) : Rnd := match rm % 4 with
  | 0 => .nearest | 1 => .zero | 2 => .up | _ => .down

/-- A floating-point format (R92): widths, bias, the greatest finite magnitude's encoding, whether the top exponent stands
for infinities and NaNs, and the canonical NaN if it has one. -/
structure Fmt where
  eb : Nat
  fb : Nat
  bias : Nat
  top : Nat
  infs : Bool
  nan : Option Nat
  deriving DecidableEq, Repr

def fp32 : Fmt := ⟨8, 23, 127, 0x7F7FFFFF, true, some 0x7FC00000⟩
def bf16 : Fmt := ⟨8, 7, 127, 0x7F7F, true, some 0x7FC0⟩
def fp16 : Fmt := ⟨5, 10, 15, 0x7BFF, true, some 0x7E00⟩
def e4m3 : Fmt := ⟨4, 3, 7, 0x7E, false, some 0x7F⟩
def e5m2 : Fmt := ⟨5, 2, 15, 0x7B, true, some 0x7E⟩
def e3m2 : Fmt := ⟨3, 2, 3, 0x1F, false, none⟩
def e2m3 : Fmt := ⟨2, 3, 1, 0x1F, false, none⟩
def e2m1 : Fmt := ⟨2, 1, 1, 0x7, false, none⟩

/-- Stored bits of an element (R91). -/
def Fmt.width (f : Fmt) : Nat := 1 + f.eb + f.fb

/-- The sign bit's weight if `neg`. -/
def Fmt.signBit (f : Fmt) (neg : Bool) : Nat := if neg then 2 ^ (f.eb + f.fb) else 0

/-- Exponent of the smallest normal value. -/
def Fmt.emin (f : Fmt) : Int := 1 - (f.bias : Int)

/-- The encoding of an infinity, in a format that has them. -/
def Fmt.infinity (f : Fmt) (neg : Bool) : Nat := f.signBit neg + (2 ^ f.eb - 1) * 2 ^ f.fb

/-- The value of an encoding (R93). -/
def Fmt.num (f : Fmt) (w : Nat) : Num :=
  let neg := bit w (f.eb + f.fb)
  let e := bits w f.fb f.eb
  let m := bits w 0 f.fb
  if f.infs && e == 2 ^ f.eb - 1 then (if m = 0 then .inf neg else .nan)
  else if f.nan.isSome && !f.infs && bits w 0 (f.eb + f.fb) == 2 ^ (f.eb + f.fb) - 1 then .nan
  else if e = 0 then .fin neg m (f.emin - f.fb)
  else .fin neg (m + 2 ^ f.fb) ((e : Int) - f.bias - f.fb)

/-- A signalling NaN: in a format with infinities, a NaN whose top mantissa bit is 0 (R93). -/
def Fmt.signalling (f : Fmt) (w : Nat) : Bool :=
  f.infs && bits w f.fb f.eb == 2 ^ f.eb - 1 && bits w 0 f.fb != 0 && !bit w (f.fb - 1)

/-- An integer as a value; 0 is +0. -/
def Num.ofInt (i : Int) : Num := .fin (i < 0) i.natAbs 0

/-- Number of bits of `m`; 0 for 0. -/
def blen (m : Nat) : Nat := if m = 0 then 0 else m.log2 + 1

def Num.isNan : Num → Bool
  | .nan => true
  | _ => false

def Num.isInf : Num → Bool
  | .inf _ => true
  | _ => false

def Num.isNeg : Num → Bool
  | .fin n _ _ => n
  | .inf n => n
  | .nan => false

def Num.isZero : Num → Bool
  | .fin _ 0 _ => true
  | _ => false

/-- Negation. -/
def Num.neg : Num → Num
  | .fin n m e => .fin (!n) m e
  | .inf n => .inf (!n)
  | .nan => .nan

/-- Exact sum of two finite values as a signed mantissa and an exponent. -/
def addFin (n1 : Bool) (m1 : Nat) (e1 : Int) (n2 : Bool) (m2 : Nat) (e2 : Int) : Int × Int :=
  let e := min e1 e2
  let s1 : Int := (m1 * 2 ^ (e1 - e).toNat : Nat)
  let s2 : Int := (m2 * 2 ^ (e2 - e).toNat : Nat)
  ((if n1 then -s1 else s1) + (if n2 then -s2 else s2), e)

/-- Sum. An exact zero from operands that are not zeros of one sign is +0, or -0 in RDN (R111). -/
def Num.add (r : Rnd) : Num → Num → Num
  | .nan, _ => .nan
  | _, .nan => .nan
  | .inf a, .inf b => if a == b then .inf a else .nan
  | .inf a, _ => .inf a
  | _, .inf b => .inf b
  | .fin n1 m1 e1, .fin n2 m2 e2 =>
    let s := addFin n1 m1 e1 n2 m2 e2
    if s.1 = 0 then .fin (if m1 = 0 ∧ m2 = 0 ∧ n1 = n2 then n1 else r == .down) 0 0
    else .fin (s.1 < 0) s.1.natAbs s.2

/-- Exact product; an infinity times a zero is NaN (R103, R112). -/
def Num.mul : Num → Num → Num
  | .nan, _ => .nan
  | _, .nan => .nan
  | .inf a, .inf b => .inf (a != b)
  | .inf a, .fin n m _ => if m = 0 then .nan else .inf (a != n)
  | .fin n m _, .inf b => if m = 0 then .nan else .inf (n != b)
  | .fin n1 m1 e1, .fin n2 m2 e2 => .fin (n1 != n2) (m1 * m2) (e1 + e2)

/-- `a < b` for numbers that are not NaN; zeros are equal. -/
def Num.lt (a b : Num) : Bool :=
  match a, b with
  | .nan, _ => false
  | _, .nan => false
  | .inf x, .inf y => x && !y
  | .inf x, _ => x
  | _, .inf y => !y
  | .fin n1 m1 e1, .fin n2 m2 e2 => decide ((addFin n1 m1 e1 (!n2) m2 e2).1 < 0)

/-- Equality of values; zeros are equal. -/
def Num.eq (a b : Num) : Bool :=
  match a, b with
  | .nan, _ => false
  | _, .nan => false
  | .inf x, .inf y => x == y
  | .fin n1 m1 e1, .fin n2 m2 e2 => decide ((addFin n1 m1 e1 (!n2) m2 e2).1 = 0)
  | _, _ => false

/-- The lesser of two values, -0 below +0; a NaN loses against a number, and two NaNs give NaN (R112). -/
def Num.min (a b : Num) : Num :=
  if a.isNan then b else if b.isNan then a
  else if a.lt b then a else if b.lt a then b else if a.isNeg then a else b

/-- The greater of two values, +0 above -0 (R112). -/
def Num.max (a b : Num) : Num :=
  if a.isNan then b else if b.isNan then a
  else if a.lt b then b else if b.lt a then a else if a.isNeg then b else a

/-! ### Quotients, roots, powers and logarithms (R117)

Each gives a lower bound of the magnitude with at least 64 bits, and whether the exact value lies strictly above it. No value
of R117 that is not exact comes nearer than that to a value at which rounding decides (notes/assumptions/21.md). -/

/-- A value known from below: the exact one is `num`, or strictly above it in magnitude by less than its last bit. -/
structure Approx where
  num : Num
  sticky : Bool := false
  deriving DecidableEq, Repr

/-- `m1 * 2^e1 / (m2 * 2^e2)` for nonzero mantissas. -/
def divApprox (neg : Bool) (m1 : Nat) (e1 : Int) (m2 : Nat) (e2 : Int) : Approx :=
  let k := 96 + blen m2
  let n := m1 * 2 ^ k
  ⟨.fin neg (n / m2) (e1 - e2 - k), n % m2 != 0⟩

/-- Integer square root by bits: `fuel` bits below `2 ^ fuel` are tried from the top. -/
def isqrtFrom (n : Nat) : Nat → Nat → Nat
  | 0, r => r
  | fuel + 1, r =>
    let c := r + 2 ^ fuel
    isqrtFrom n fuel (if c * c ≤ n then c else r)

/-- The greatest r with r * r ≤ n. -/
def isqrt (n : Nat) : Nat := isqrtFrom n (blen n / 2 + 1) 0

/-- An even exponent and a mantissa of at least 192 bits for `m * 2^e`. -/
def evenForm (m : Nat) (e : Int) : Nat × Int :=
  let k : Nat := 192 + (e % 2).toNat
  (m * 2 ^ k, e - k)

/-- The square root of a positive value. -/
def sqrtApprox (m : Nat) (e : Int) : Approx :=
  let f := evenForm m e
  let r := isqrt f.1
  ⟨.fin false r (f.2 / 2), r * r != f.1⟩

/-- The reciprocal square root of a positive value. -/
def rsqrtApprox (m : Nat) (e : Int) : Approx :=
  let f := evenForm m e
  let k := blen f.1 + 96
  let r := isqrt (2 ^ (2 * k) / f.1)
  ⟨.fin false r (-(f.2 / 2) - k), r * r * f.1 != 2 ^ (2 * k)⟩

/-- Working precision of the power. -/
def expBits : Nat := 224

/-- The product of 2^(1/2^i) over the set bits of a fraction of `fuel` bits, most significant first; `root` is the last
root of 2, times 2^expBits. -/
def exp2Bits (frac : Nat) : Nat → Nat → Nat → Nat
  | 0, _, acc => acc
  | fuel + 1, root, acc =>
    let r := isqrt (root * 2 ^ expBits)
    exp2Bits frac fuel r (if bit frac fuel then acc * r / 2 ^ expBits else acc)

/-- 2 to the power of a finite nonzero value. -/
def exp2Approx (neg : Bool) (m : Nat) (e : Int) : Approx :=
  let top : Int := e + blen m
  if 16 < top then (if neg then ⟨.fin false 1 (-70000), true⟩ else ⟨.fin false 1 70000, true⟩)
  else if top < -40 then
    (if neg then ⟨.fin false (2 ^ 64 - 1) (-64), true⟩ else ⟨.fin false 1 0, true⟩)
  else
    let w : Nat := (-e).toNat
    let v : Int := (m * 2 ^ e.toNat : Nat)
    let x : Int := if neg then -v else v
    let i : Int := x / (2 ^ w : Nat)
    let f : Nat := (x % (2 ^ w : Nat)).toNat
    if f = 0 then ⟨.fin false 1 i, false⟩
    else ⟨.fin false (exp2Bits f w (2 ^ (expBits + 1)) (2 ^ expBits)) (i - expBits), true⟩

/-- Working precision of the logarithm, and the fraction bits taken. -/
def logBits : Nat := 384
def logSteps : Nat := 160

/-- Fraction bits of log2 of `y / 2^logBits` in [1, 2), by squaring. -/
def logFrac : Nat → Nat → Nat → Nat
  | 0, _, acc => acc
  | fuel + 1, y, acc =>
    let q := y * y / 2 ^ logBits
    if 2 ^ (logBits + 1) ≤ q then logFrac fuel (q / 2) (2 * acc + 1) else logFrac fuel q (2 * acc)

/-- log2 of a positive value. -/
def log2Approx (m : Nat) (e : Int) : Approx :=
  let b := m.log2
  let ex : Int := e + b
  if m = 2 ^ b then ⟨.fin (ex < 0) ex.natAbs 0, false⟩
  else
    let f := logFrac logSteps (m * 2 ^ logBits / 2 ^ b) 0
    let v : Int := ex * (2 ^ logSteps : Nat) + f
    if 0 ≤ v then ⟨.fin false v.toNat (-(logSteps : Int)), true⟩
    else ⟨.fin true (v.natAbs - 1) (-(logSteps : Int)), true⟩

end Sys2Proof.Machine
end

