-- ==== Sys2Proof/Machine/Flags.lean ====
section
/-! DEFINITION. The one rounding of every converting or computing instruction, and the sticky flags it raises (R107,
R110-R117, R121, R122). -/

namespace Sys2Proof.Machine

/-! ### The sticky flags, in the order of VCONF[13:8] (R121, R239) -/

/-- Flags raised: NV, OF, UF, NX, DZ, SAT from bit 0. -/
abbrev Flags := BitVec 6

def flNV : Flags := 1
def flOF : Flags := 2
def flUF : Flags := 4
def flNX : Flags := 8
def flDZ : Flags := 16
def flSAT : Flags := 32

/-- A flag if its condition holds. -/
def raised (c : Bool) (f : Flags) : Flags := if c then f else 0

/-- Sticky flags are ORed into VCONF (R122). -/
def orFlags (vconf : Word) (f : Flags) : Word := vconf ||| (f.setWidth 64 <<< 8)

/-- A result's bits and the flags it raises. -/
structure Flagged where
  bits : Nat
  fl : Flags := 0
  deriving DecidableEq, Repr

/-! ### Rounding -/

/-- `m * 2^e` cut to an integer multiple of `2^q` and rounded: the integer and whether it was inexact. `sticky` says that
the exact value lies strictly above the one given, by less than 2^e. -/
def roundAt (r : Rnd) (neg : Bool) (m : Nat) (e : Int) (q : Int) (sticky : Bool) : Nat × Bool :=
  if q ≤ e then
    let k := m * 2 ^ (e - q).toNat
    (if sticky && (match r with | .up => !neg | .down => neg | _ => false) then k + 1 else k, sticky)
  else
    let d := (q - e).toNat
    let k := m / 2 ^ d
    let rem := m % 2 ^ d
    let half := 2 ^ (d - 1)
    let inexact := rem != 0 || sticky
    let up := match r with
      | .nearest => half < rem || (rem == half && (sticky || k % 2 == 1))
      | .zero => false
      | .down => neg && inexact
      | .up => !neg && inexact
    (if up then k + 1 else k, inexact)

/-- Does an overflow under the mode give an infinity (R110)? -/
def overflowsToInf (r : Rnd) (neg : Bool) : Bool :=
  match r with
  | .nearest => true | .zero => false | .up => !neg | .down => neg

/-- An overflow from a finite value (R114). -/
def Fmt.overflowed (f : Fmt) (r : Rnd) (neg sat : Bool) : Flagged :=
  let mx := f.signBit neg + f.top
  if sat then ⟨mx, flSAT ||| flNX⟩
  else if f.infs then ⟨if overflowsToInf r neg then f.infinity neg else mx, flOF ||| flNX⟩
  else match f.nan with
    | some n => ⟨if overflowsToInf r neg then n else mx, flOF ||| flNX⟩
    | none => ⟨mx, flSAT ||| flNX⟩

/-- An infinite input (R114). -/
def Fmt.ofInf (f : Fmt) (neg sat : Bool) : Flagged :=
  let mx := f.signBit neg + f.top
  if sat then ⟨mx, flSAT⟩
  else if f.infs then ⟨f.infinity neg, 0⟩
  else match f.nan with
    | some n => ⟨n, flNV⟩
    | none => ⟨mx, flSAT⟩

/-- A finite nonzero value, steps 1-3 of R113; tininess is judged after rounding (R111, R113). -/
def Fmt.ofFin (f : Fmt) (r : Rnd) (neg : Bool) (m : Nat) (e : Int) (sticky sat : Bool) : Flagged :=
  let top : Int := e + blen m - 1
  if 2 ^ f.eb < top then f.overflowed r neg sat
  else
    -- a value far below the grid is as good as its own last bit
    let far := top < f.emin - f.fb - 4
    let (m, e, sticky) : Nat × Int × Bool := if far then (1, f.emin - f.fb - 4, true) else (m, e, sticky)
    let top : Int := e + blen m - 1
    let k := roundAt r neg m e (max top f.emin - f.fb) sticky
    let (k', q') : Nat × Int :=
      if 2 ^ (f.fb + 1) ≤ k.1 then (k.1 / 2, max top f.emin - f.fb + 1) else (k.1, max top f.emin - f.fb)
    let enc := if k' < 2 ^ f.fb then k' else (q' + f.fb + f.bias).toNat * 2 ^ f.fb + (k' - 2 ^ f.fb)
    if f.top < enc then f.overflowed r neg sat
    else
      let u := roundAt r neg m e (top - f.fb) sticky
      let tiny := if 2 ^ (f.fb + 1) ≤ u.1 then top + 1 < f.emin else top < f.emin
      ⟨f.signBit neg + enc, raised k.2 flNX ||| raised (k.2 && tiny) flUF⟩

/-- Convert an exact value (R113, R114). A NaN gives the canonical one; NV of a signalling source is the caller's. -/
def Fmt.conv (f : Fmt) (r : Rnd) (a : Approx) (sat : Bool) : Flagged :=
  match a.num with
  | .nan => match f.nan with
    | some n => ⟨n, 0⟩
    | none => ⟨0, flNV⟩
  | .inf n => f.ofInf n sat
  | .fin neg 0 _ => ⟨f.signBit neg, 0⟩
  | .fin neg m e => f.ofFin r neg m e a.sticky sat

/-- Round the result of an operation into its element type (R111). -/
def Fmt.round (f : Fmt) (r : Rnd) (v : Num) : Flagged := f.conv r ⟨v, false⟩ false

/-- Convert an exact value to an integer of `n` bits (R113, R114). A value outside the target raises the flag of R114's integer row and
no other: NX of R113's step 1 is not raised beside it when the value was no integer (DESIGN CHOICE, notes/assumptions/63.md). -/
def intConv (signed : Bool) (n : Nat) (r : Rnd) (v : Num) (sat : Bool) : Flagged :=
  let lo : Int := if signed then -(2 ^ (n - 1) : Nat) else 0
  let hi : Int := if signed then (2 ^ (n - 1) : Nat) - 1 else (2 ^ n : Nat) - 1
  let off := if sat then flSAT else flNV
  match v with
  | .nan => ⟨0, off⟩
  | .inf neg => ⟨wrapInt n (if neg then lo else hi), off⟩
  | .fin neg m e =>
    if 200 < e + blen m ∧ m ≠ 0 then ⟨wrapInt n (if neg then lo else hi), off⟩
    else
      let k := roundAt r neg m e 0 false
      let i : Int := if neg then -(k.1 : Int) else k.1
      if i < lo then ⟨wrapInt n lo, off⟩
      else if hi < i then ⟨wrapInt n hi, off⟩
      else ⟨wrapInt n i, raised k.2 flNX⟩

/-! ### Operations of one element (R112, R117) -/

/-- NV if one of the encodings is a signalling NaN. -/
def Fmt.sigNV (f : Fmt) (l : List Nat) : Flags := raised (l.any f.signalling) flNV

/-- The canonical NaN with flags. -/
def Fmt.nanWith (f : Fmt) (fl : Flags) : Flagged := ⟨f.nan.getD 0, fl⟩

/-- VFADD, and VFSUB with the second operand negated (R112). -/
def Fmt.add (f : Fmt) (r : Rnd) (a b : Nat) (sub : Bool) : Flagged :=
  let x := f.num a
  let y := if sub then (f.num b).neg else f.num b
  let v := x.add r y
  let inv := v.isNan && !x.isNan && !y.isNan
  let o := f.round r v
  ⟨o.bits, o.fl ||| f.sigNV [a, b] ||| raised inv flNV⟩

/-- VFMUL (R112). -/
def Fmt.mul (f : Fmt) (r : Rnd) (a b : Nat) : Flagged :=
  let x := f.num a
  let y := f.num b
  let v := x.mul y
  let o := f.round r v
  ⟨o.bits, o.fl ||| f.sigNV [a, b] ||| raised (v.isNan && !x.isNan && !y.isNan) flNV⟩

/-- VFMA: a * b + c rounded once; an infinity times a zero is invalid whatever c is (R112). -/
def Fmt.fma (f : Fmt) (r : Rnd) (a b c : Nat) : Flagged :=
  let x := f.num a
  let y := f.num b
  let z := f.num c
  let p := x.mul y
  let v := p.add r z
  let inv := (p.isNan && !x.isNan && !y.isNan) || (v.isNan && !p.isNan && !z.isNan)
  let o := f.round r v
  ⟨o.bits, o.fl ||| f.sigNV [a, b, c] ||| raised inv flNV⟩

/-- VFMIN, VFMAX (R112): the operand itself, or the canonical NaN for two NaNs. -/
def Fmt.minmax (f : Fmt) (mx : Bool) (a b : Nat) : Flagged :=
  let x := f.num a
  let y := f.num b
  let nv := f.sigNV [a, b]
  if x.isNan && y.isNan then f.nanWith nv
  else if x.isNan then ⟨b, nv⟩
  else if y.isNan then ⟨a, nv⟩
  else ⟨if mx then (if (x.lt y) || (!(y.lt x) && x.isNeg) then b else a)
    else (if (x.lt y) || (!(y.lt x) && x.isNeg) then a else b), nv⟩

/-- VDIV (R117). -/
def Fmt.div (f : Fmt) (r : Rnd) (a b : Nat) : Flagged :=
  let nv := f.sigNV [a, b]
  match f.num a, f.num b with
  | .nan, _ => f.nanWith nv
  | _, .nan => f.nanWith nv
  | .inf _, .inf _ => f.nanWith flNV
  | .inf n, .fin k _ _ => ⟨f.infinity (n != k), 0⟩
  | .fin n _ _, .inf k => ⟨f.signBit (n != k), 0⟩
  | .fin n m e, .fin k m' e' =>
    if m' = 0 then (if m = 0 then f.nanWith flNV else ⟨f.infinity (n != k), flDZ⟩)
    else if m = 0 then ⟨f.signBit (n != k), 0⟩
    else f.conv r (divApprox (n != k) m e m' e') false

/-- VRCP (R117). -/
def Fmt.rcp (f : Fmt) (r : Rnd) (a : Nat) : Flagged :=
  match f.num a with
  | .nan => f.nanWith (f.sigNV [a])
  | .inf n => ⟨f.signBit n, 0⟩
  | .fin n 0 _ => ⟨f.infinity n, flDZ⟩
  | .fin n m e => f.conv r (divApprox n 1 0 m e) false

/-- VRSQ (R117). -/
def Fmt.rsq (f : Fmt) (r : Rnd) (a : Nat) : Flagged :=
  match f.num a with
  | .nan => f.nanWith (f.sigNV [a])
  | .inf n => if n then f.nanWith flNV else ⟨0, 0⟩
  | .fin n 0 _ => ⟨f.infinity n, flDZ⟩
  | .fin n m e => if n then f.nanWith flNV else f.conv r (rsqrtApprox m e) false

/-- VSQRT (R117). -/
def Fmt.sqrt (f : Fmt) (r : Rnd) (a : Nat) : Flagged :=
  match f.num a with
  | .nan => f.nanWith (f.sigNV [a])
  | .inf n => if n then f.nanWith flNV else ⟨f.infinity false, 0⟩
  | .fin n 0 _ => ⟨f.signBit n, 0⟩
  | .fin n m e => if n then f.nanWith flNV else f.conv r (sqrtApprox m e) false

/-- VEXP2 (R117). -/
def Fmt.exp2 (f : Fmt) (r : Rnd) (a : Nat) : Flagged :=
  match f.num a with
  | .nan => f.nanWith (f.sigNV [a])
  | .inf n => if n then ⟨0, 0⟩ else ⟨f.infinity false, 0⟩
  | .fin _ 0 _ => f.conv r ⟨.fin false 1 0, false⟩ false
  | .fin n m e => f.conv r (exp2Approx n m e) false

/-- VLOG2 (R117). -/
def Fmt.log2 (f : Fmt) (r : Rnd) (a : Nat) : Flagged :=
  match f.num a with
  | .nan => f.nanWith (f.sigNV [a])
  | .inf n => if n then f.nanWith flNV else ⟨f.infinity false, 0⟩
  | .fin _ 0 _ => ⟨f.infinity true, flDZ⟩
  | .fin n m e => if n then f.nanWith flNV else f.conv r (log2Approx m e) false

/-- AMOF on one FP32 lane, always to nearest and without flags (R195). -/
def amofLane (fn : Nat) (old a : Nat) : Nat :=
  match fn with
  | 0 => (fp32.add .nearest old a false).bits
  | 1 => (fp32.minmax false old a).bits
  | _ => (fp32.minmax true old a).bits

end Sys2Proof.Machine
end

