-- ==== Sys2Proof/Machine/Access.lean ====
section
/-! DEFINITION. Access(kind, space, ea, size) of R186 for the word that executes: its checks, the places it can be performed at
once, and the requests it sends otherwise (R159-R163, R169, R186-R195). -/

namespace Sys2Proof.Machine

/-! ### What an access does to the bytes it finds -/

def MemOp.need : MemOp → Need
  | .probe true => .write
  | .probe false => .read
  | .read => .read
  | .write _ _ => .write
  | _ => .atomic

def MemOp.isAtomic (op : MemOp) : Bool := op.need == .atomic
def MemOp.isWrite (op : MemOp) : Bool := op.need != .read

/-- Access kind of a fault message (R221). -/
def MemOp.faultKind : MemOp → Nat
  | .probe true => 1
  | .probe false => 0
  | .read => 0
  | .write _ _ => 1
  | _ => 2

/-- 64-bit value of a 32-bit old value that the instruction sign-extends. -/
def sext32 (v : Nat) : Nat := (sext 32 v).toNat

/-- VALID and LOCK of a stream state record (R263). -/
def recValid (r : Nat) : Bool := bit r (8 * 0x24 + 1)
def recLocked (r : Nat) : Bool := bit r (8 * 0x24)

/-- A record claimed for `owner` (R265). -/
def recClaimed (r owner : Nat) : Nat := putBits (putBits r (8 * 0x24) 1 1) (8 * 0x18) 64 owner

/-- What is stored, if anything, and what is returned (R193-R195); `old` are the bytes at the place. -/
def MemOp.perform (op : MemOp) (old : List Byte) : Option (List Byte × List Bool) × List Byte :=
  let o := ofBytes old
  match op with
  | .probe _ => (none, [])
  | .confirm => (none, [])
  | .read => (none, old)
  | .write d m => (some (d, m), [])
  | .amo fn true a => (some (toBytes 8 (amoNew fn 64 o a.toNat), []), toBytes 8 o)
  | .amo fn false a => (some (toBytes 4 (amoNew fn 32 o (a.toNat % 2 ^ 32)), []), toBytes 8 (sext32 o))
  | .cas true e n => (if o = e.toNat then some (toBytes 8 n.toNat, []) else none, toBytes 8 o)
  | .cas false e n => (if o = e.toNat % 2 ^ 32 then some (toBytes 4 n.toNat, []) else none, toBytes 8 (sext32 o))
  | .amof fn false a => (some (toBytes 4 (amofLane fn o (bits a.toNat 0 32)), []), toBytes 8 o)
  | .amof fn true a =>
    (some (toBytes 4 (amofLane fn (bits o 0 32) (bits a.toNat 0 32)) ++
      toBytes 4 (amofLane fn (bits o 32 32) (bits a.toNat 32 32)), []), toBytes 8 o)
  | .claim owner =>
    (if recValid o && !recLocked o then some (toBytes 64 (recClaimed o owner), []) else none, toBytes 64 o)

/-- What a read of poisoned data comes to: 0 is received and an atomic writes nothing (R393). -/
def MemOp.poisoned (op : MemOp) (n : Nat) : Option (List Byte × List Bool) × List Byte :=
  match op with
  | .write d m => (some (d, m), [])
  | .probe _ => (none, [])
  | .confirm => (none, [])
  | _ => (none, toBytes (max n 8) 0)

/-- A consumption of poisoned data is counted, and marks the superstep of a gang thread with rollback (R393). -/
def State.usePoison (s : State) (core prog : Nat) (k : Kind) : State :=
  let s := s.count (unitCore core) ctrPoisonUse
  if k.isGang then s.markReplay prog else s

/-! ### The checks of R186 -/

/-- The table of R159 for the issuing core; `lv` is the level of the access. -/
def State.winAllowed (s : State) (lv : Level) (prog : Nat) (w : Win) : Bool :=
  let c := s.cid
  let staked := s.co.staked.isSome
  let open_ (cl off : Nat) : Bool := lv != .task || off < s.padLimit cl
  match w with
  | .ownTcm _ => true
  | .ownPad off => !isFront c && !staked && open_ (clusterOf c) off
  | .tcm t _ =>
    if staked then t == c
    else if isDelib c then isCompute t && s.co.reach.contains (prog, t)
    else if isReflex c then isReflex t || ((s.core t).staked.map (·.prog)) == some prog
    else if isService c then lv != .task && isCompute t && clusterOf t == clusterOf c
    else true
  | .pad cl off =>
    !staked && open_ cl off &&
    (if isDelib c then s.co.reachPads.contains (prog, cl)
     else if isReflex c then cl == 32 || cl == 33
     else if isService c then cl == clusterOf c else true)
  | .rstore off =>
    if isDelib c && !staked then false
    else if isCompute c then s.co.regions.getLsbD (off / 0x10000)
    else if isService c then inReflexArray c else true

/-- Where an access is performed. -/
inductive Route where
  | ownTcm (off : Nat) | ownPad (off : Nat) | far (w : Win) | virt
  deriving DecidableEq, Repr

/-- The core reaches DRAM-backed addresses by no path (R14, R50, R186 step 6). -/
def State.noDram (s : State) : Bool := inReflexArray s.cid || s.co.staked.isSome

/-- The own-cluster scratchpad as a thread reaches it: a paired one through its router, where its writes are compared (R395). -/
def State.padRoute (s : State) (off : Nat) : Route :=
  if (s.pairOf s.cid s.src.kind).isSome then .far (.pad (clusterOf s.cid) off) else .ownPad off

/-- Steps 4 to 7 of R186. -/
def State.routeTo (s : State) (sp ea : Nat) (atomic : Bool) : Except (Nat × Word) Route :=
  let tv : Word := BitVec.ofNat 64 ea
  if onChip ea then
    match window ea with
    | none => .error (onchipRange, tv)
    | some w =>
      if 0xFF00 ≤ sp || !s.winAllowed s.src.level s.src.prog w then .error (onchipRange, tv)
      else if !s.spaceOk sp s.src.tenant then .error (spaceInvalid, BitVec.ofNat 64 sp)
      else match w with
        | .ownTcm off => .ok (.ownTcm off)
        | .ownPad off => .ok (s.padRoute off)
        | .tcm c off => .ok (if c = s.cid then .ownTcm off else .far w)
        | .pad cl off => .ok (if cl = clusterOf s.cid then s.padRoute off else .far w)
        | .rstore _ => .ok (.far w)
  else if !s.spaceOk sp s.src.tenant then .error (spaceInvalid, BitVec.ofNat 64 sp)
  else if s.noDram then .error (reflexDramAccess, tv)
  else if isHost sp && atomic then .error (illegalOperand, s.rawWord)
  else .ok .virt

/-- Steps 3 to 7 of R186. -/
def State.routeFor (s : State) (sp ea n : Nat) (atomic : Bool) : Except (Nat × Word) Route :=
  if ea % n ≠ 0 then .error (dataMisaligned, BitVec.ofNat 64 ea) else s.routeTo sp ea atomic

/-! ### Requests -/

/-- An access of the issuing word. -/
def State.newAcc (s : State) (w : For) (sp : Nat) (op : MemOp) (n : Nat) (todo : List Nat) : Acc :=
  { core := s.cid, bank := s.bank, who := s.th.who, tenant := s.src.tenant, level := s.src.level, space := sp, op := op
    size := n, todo := todo, forWhom := w, wordAddr := s.wordAddr.toNat }

/-- Half the uncontended latency of R168 from the issuing core to a place, in fabric cycles. -/
def State.leg (s : State) (r : Route) (sp ea : Nat) : Nat :=
  let cl := clusterOf s.cid
  match r with
  | .far (.tcm c _) => cyc (3 + hops cl (clusterOf c))
  | .far (.pad t _) => cyc (3 + hops cl t)
  | .far (.rstore _) => cyc (7 + if inReflexArray s.cid then 0 else hopsHome cl 32)
  | _ => cyc (6 + hopsHome cl (s.homeOf sp ea))

/-- What the hash of an access covers (R395). -/
def accHash (sp ea : Nat) (op : MemOp) : List Byte :=
  let of_ (kind : Nat) (l : List Byte) : List Byte := requestHash kind sp (toBytes 8 ea ++ l)
  match op with
  | .write d m => of_ 1 (d ++ m.map fun b => if b then 1 else 0)
  | .amo fn w a => of_ 2 (toBytes 1 fn ++ [if w then 1 else 0] ++ toBytes 8 a.toNat)
  | .cas w e n => of_ 3 ([if w then 1 else 0] ++ toBytes 8 e.toNat ++ toBytes 8 n.toNat)
  | .amof fn w a => of_ 4 (toBytes 1 fn ++ [if w then 1 else 0] ++ toBytes 8 a.toNat)
  | .claim o => of_ 5 (toBytes 8 o)
  | _ => []

/-- Put access `id` on its way; a request that writes is compared when the thread is paired (R395), but not an access of a gang
thread to a TCM of its gang (R397). -/
def State.sendAcc (s : State) (id : Nat) (a : Acc) (r : Route) : State :=
  let ea := a.todo.headD 0
  let e : Event := match r with
    | .virt => .sliceRequest id
    | _ => .remoteAccess id
  let s := { s with accs := mset s.accs id a }
  let d := s.leg r a.space ea
  let within := s.th.kind.isGang && (match r with
    | .far (.tcm _ _) => true
    | _ => false)
  if within then s.emitOwn 1 d e else
  match a.op with
  | .write _ _ => s.sendReq id d e (accHash a.space ea a.op)
  | .amo _ _ _ => s.sendReq id d e (accHash a.space ea a.op)
  | .cas _ _ _ => s.sendReq id d e (accHash a.space ea a.op)
  | .amof _ _ _ => s.sendReq id d e (accHash a.space ea a.op)
  | .claim _ => s.sendReq id d e (accHash a.space ea a.op)
  | _ => s.emitOwn 1 d e

/-- Nothing may leave yet: an earlier access has not been performed (R174), or the egress buffer is full (R12). -/
def State.holdsBack (s : State) : Bool := !s.th.unacked.isEmpty || !s.co.egressRoom s.now 1

/-- Send the word's access and wait for its answer; earlier accesses that have left come first (R169, R174). -/
def State.request (s : State) (sp : Nat) (op : MemOp) (n : Nat) (todo : List Nat) (r : Route)
    (k : Nat → State → Res) : Res :=
  if s.pending.isNone && s.holdsBack then .wait s
  else ask s (fun id s => s.sendAcc id (s.newAcc (.word s.widx) sp op n todo) r) fun r s =>
    match r with
    | .value v => k v s
    | _ => k 0 s

/-- Send an access that the word does not wait for (R168). -/
def State.fire (s : State) (sp : Nat) (op : MemOp) (n ea : Nat) (r : Route) : Res :=
  if s.holdsBack then .wait s
  else
    let i := s.fresh
    let s := i.2
    let s := s.sendAcc i.1 (s.newAcc .store sp op n [ea]) r
    .ok { s with th := { s.th with unacked := i.1 :: s.th.unacked } }

/-! ### The L0 data cache (R163) -/

/-- The line that a load of the thread hits. -/
def State.l0Line (s : State) (sp ea : Nat) : Option L0Line :=
  s.co.l0d.find? fun l => l.space == sp && l.tenant == s.src.tenant && l.line == ea / 64

/-- What a load of `n` bytes takes from a line it hits: a poisoned line gives 0, which is counted (R163, R393). -/
def State.l0Read (s : State) (l : L0Line) (ea n : Nat) : Nat × State :=
  if l.bad.any fun u => ea % 64 / 8 ≤ u && u ≤ (ea % 64 + n - 1) / 8 then (0, s.usePoison s.cid s.th.prog s.th.kind)
  else (bits l.data.toNat (8 * (ea % 64)) (8 * n), s)

/-- Update a present line of core `c` with a store that its home slice performs (R163). -/
def State.l0Store (s : State) (c sp ea : Nat) (data : List Byte) (mask : List Bool) : State :=
  let upd (l : L0Line) : L0Line := { l with
    data := BitVec.ofNat 512 (rdN (wrMasked (wrN [] 0 64 l.data.toNat) (ea % 64) data mask) 0 64)
    bad := l.bad.filter fun u => !coversUnit (ea % 64) data.length mask u }
  s.modCore c fun k => { k with
    l0d := k.l0d.map fun l => if l.space == sp && l.line == ea / 64 then upd l else l }

/-! ### Accesses still queued in the vector sequencer (R174) -/

/-- A queued vector word that accesses memory. -/
def SeqEntry.isMem (e : SeqEntry) : Bool :=
  match e.word with
  | .vld _ _ _ => true
  | .vldb _ _ _ => true
  | .vlds _ _ _ => true
  | .vldsPi _ _ _ => true
  | .vst _ _ _ => true
  | .vstm _ _ _ => true
  | .vrec _ _ _ => true
  | .vema _ _ => true
  | _ => false

/-- One name for each on-chip byte of the issuing core and its cluster (R158). -/
def State.canon (s : State) (ea : Nat) : Nat :=
  match window ea with
  | some (.tcm c off) => if c = s.cid then 0xFF00 * 2 ^ 48 + off else ea
  | some (.pad cl off) => if cl = clusterOf s.cid then 0xFF01 * 2 ^ 48 + off else ea
  | _ => ea

/-- The ranges a queued vector word accesses: space, first byte, length. The address is its first captured operand, the
space its last. -/
def SeqEntry.ranges (e : SeqEntry) : List (Nat × Nat × Nat) :=
  let a := (e.ops.headD 0).toNat
  let sp := (e.ops.getLastD 0).toNat
  let eb := match e.vconf.toNat % 8 with | 0 => 1 | 2 => 4 | 3 => 8 | 6 => 4 | _ => 2
  match e.word with
  | .vldb _ _ _ => [(sp, a, eb)]
  | .vlds _ _ _ => (List.range (16 / eb)).map fun i => (sp, (a + i * (e.ops.getD 1 0).toNat) % 2 ^ 64, eb)
  | .vldsPi _ _ _ => (List.range (16 / eb)).map fun i => (sp, (a + i * (e.ops.getD 1 0).toNat) % 2 ^ 64, eb)
  | .vrec _ _ _ => [(sp, 0xFF00 * 2 ^ 48 + a % 2 ^ 16, 64)]
  | .vema _ _ => [(sp, 0xFF00 * 2 ^ 48 + a % 2 ^ 16, 64)]
  | _ => [(sp, a, 16)]

/-- Every vector word in the sequencer, those of a loop among them (R174, R243, R264). -/
def Core.queued (k : Core) : List SeqEntry :=
  k.seq ++ match k.vloop with
    | some v => v.body ++ v.rest
    | none => []

/-- A queued vector access of the issuing thread overlaps `n` bytes at `ea`. -/
def State.overlapsQueued (s : State) (sp ea n : Nat) : Bool :=
  let b := s.canon ea
  s.co.queued.any fun e => e.bank == s.bank && !e.fresh && e.isMem && e.ranges.any fun r =>
    let a := s.canon r.2.1
    (r.1 == sp || onChip ea) && a < b + n && b < a + r.2.2

/-- A vector access of the issuing thread is still queued. -/
def State.queuedMem (s : State) : Bool := s.co.queued.any fun e => e.bank == s.bank && !e.fresh && e.isMem

/-! ### Loads, stores and atomics of a word -/

/-- Perform an access at one of the issuing core's own memories: the bytes returned, and the state. -/
def State.atOwn (s : State) (r : Route) (n : Nat) (op : MemOp) : List Byte × State :=
  match r with
  | .ownTcm off =>
    let bad := s.co.tcm.poisoned off n
    let w := if bad then op.poisoned n else op.perform (s.rdOwn off n)
    let s := if bad && !op.isWrite || bad && op.isAtomic then s.usePoison s.cid s.th.prog s.th.kind else s
    (w.2, match w.1 with
      | some (d, m) => s.wrOwnMasked off d m
      | none => s)
  | .ownPad off =>
    let p := s.pad (clusterOf s.cid)
    let bad := p.poisoned off n
    let w := if bad then op.poisoned n else op.perform (rdBytes p.bytes off n)
    let s := if bad && !op.isWrite || bad && op.isAtomic then s.usePoison s.cid s.th.prog s.th.kind else s
    (w.2, match w.1 with
      | some (d, m) => s.setPad (clusterOf s.cid) (p.write off d m)
      | none => s)
  | _ => ([], s)

/-- Four streams hold every scratchpad bank of cluster `cl` (R46). -/
def State.padBusy (s : State) (cl : Nat) : Bool := 4 ≤ (mget s.front.places cl).getD 0

/-- A word that would write to the undo log in the scratchpad waits while streams hold its banks (R46, R401). -/
def State.logged (s : State) (r : Res) : Res :=
  match r with
  | .ok t => if s.co.undo.isSome && s.padBusy (clusterOf s.cid) && t.co.undo != s.co.undo then .wait s else .ok t
  | r => r

/-- The access needs the scratchpad of the issuing core's cluster, itself or for the undo log, while streams hold it (R46, R401). -/
def State.ownBusy (s : State) (r : Route) (op : MemOp) : Bool :=
  s.padBusy (clusterOf s.cid) && (match r with
    | .ownPad _ => true
    | .ownTcm _ => op.isWrite && s.co.undo.isSome
    | _ => false)

/-- What an access that releases has still to wait for (R174). -/
def State.unreleased (s : State) : Bool := !s.quiet || s.queuedMem

/-- A word whose access passes the checks of R186 goes on with its place once nothing earlier overlaps it, a release once everything
earlier has been performed; a word that has sent its request goes on with that, wherever it is now (R174, R202). -/
def State.access (s : State) (sp ea n : Nat) (op : MemOp) (rel : Bool) (again : Res) (k : Route → Res) : Res :=
  if s.pending.isSome then again
  else match s.routeFor sp ea n op.isAtomic with
    | .error (c, v) => trapR c v
    | .ok r =>
      if (rel && s.unreleased) || s.overlapsQueued sp ea n || s.ownBusy r op then .wait s else k r

/-- Access(Load, space, ea, n) of the word; `k` goes on with the value. -/
def State.loadRes (s : State) (sp ea n : Nat) (k : Nat → State → Res) : Res :=
  s.access sp ea n .read false (s.request sp .read n [ea] .virt k) fun r =>
  match r with
  | .far w => s.request sp .read n [ea] (.far w) k
  | .virt =>
    match s.l0Line sp ea with
    | some l =>
      if !s.th.unacked.isEmpty then .wait s
      else let r := s.l0Read l ea n; k r.1 r.2
    | none => s.request sp .read n [ea] .virt k
  | r => let a := s.atOwn r n .read; k (ofBytes a.1) a.2

/-- Access(Store, space, ea, size) of the word; `rel` makes it a release. -/
def State.storeRes (s : State) (sp ea : Nat) (data : List Byte) (mask : List Bool) (rel : Bool := false) : Res :=
  let op : MemOp := .write data mask
  let confirmed (r : Route) : Res := s.request sp op data.length [ea] r fun _ s => .ok s
  s.access sp ea data.length op rel (confirmed .virt) fun r =>
  match r with
  | .far w => s.fire sp op data.length ea (.far w)
  | .virt =>
    match s.l0Line sp ea with
    | some l => if l.writable then s.fire sp op data.length ea .virt else confirmed .virt
    | none => confirmed .virt
  | r => .ok (s.atOwn r data.length op).2

/-- An atomic of the word on `n` bytes (R192-R195); `k` goes on with what it returns. -/
def State.atomicRes (s : State) (sp ea n : Nat) (op : MemOp) (rel : Bool) (k : Nat → State → Res) : Res :=
  s.access sp ea n op rel (s.request sp op n [ea] .virt k) fun r =>
  match r with
  | .far w => s.request sp op n [ea] (.far w) k
  | .virt => s.request sp op n [ea] .virt k
  | r => let a := s.atOwn r n op; k (ofBytes a.1) a.2

/-- A release: waits until every earlier access of the thread has been performed (R174). -/
def State.release (s : State) (k : State → Res) : Res :=
  if s.pending.isNone && s.unreleased then .wait s else k s

/-- The address checks that an engine's range passes at issue: first and last byte (R279). -/
def State.rangeOk (s : State) (sp ea n : Nat) : Except (Nat × Word) Unit :=
  if n = 0 then .ok ()
  else match s.routeTo sp ea false with
    | .error e => .error e
    | .ok _ =>
      match s.routeTo sp ((ea + n - 1) % 2 ^ 64) false with
      | .error e => .error e
      | .ok _ => .ok ()

end Sys2Proof.Machine
end

