-- ==== Sys2Proof/Machine/Lanes.lean ====
section
/-! DEFINITION. What the vector instructions compute on their lanes (R108, R109, R119, R253-R264): from the values read, the
integer operands and VCONF to the result and the flags raised. -/

namespace Sys2Proof.Machine

/-! ### VCONF's fields (R239) and the lanes (R108) -/

def vtype (vc : Word) : Nat := vc.toNat % 8
def vRnd (vc : Word) : Rnd := rndOf (bits vc.toNat 3 2)
def vSat (vc : Word) : Bool := vc.getLsbD 5
def vUns (vc : Word) : Bool := vc.getLsbD 6
def vQfmt (vc : Word) : Nat := bits vc.toNat 16 4

/-- Lane width of an element type (R109). -/
def laneBits (ty : Nat) : Nat := match ty with
  | 0 => 8 | 1 => 16 | 2 => 32 | 3 => 64 | 4 => 16 | 5 => 16 | _ => 32

/-- Lane count. -/
def laneCount (ty : Nat) : Nat := 128 / laneBits ty

/-- The floating-point format of types 4-6. -/
def vFmt (ty : Nat) : Fmt := match ty with
  | 4 => fp16 | 5 => bf16 | _ => fp32

def isFloat (ty : Nat) : Bool := 4 ≤ ty && ty ≤ 6

/-- Lane `i` of width `w` (R108). -/
def lane (v : Vec) (w i : Nat) : Nat := bits v.toNat (w * i) w

/-- Elements of `w` bits, element 0 lowest (R95). -/
def packBits (w : Nat) (l : List Nat) : Nat := l.foldr (fun x n => x % 2 ^ w + 2 ^ w * n) 0

def vecOf (n : Nat) : Vec := BitVec.ofNat 128 n

/-- Results of the lanes as a register and the flags they raise (R122). -/
def gather (w : Nat) (l : List Flagged) : Vec × Flags :=
  (vecOf (packBits w (l.map (·.bits))), l.foldl (fun f x => f ||| x.fl) 0)

/-- Lane by lane on two registers. -/
def lanes2 (ty : Nat) (f : Nat → Nat → Flagged) (a b : Vec) : Vec × Flags :=
  let w := laneBits ty
  gather w ((List.range (laneCount ty)).map fun i => f (lane a w i) (lane b w i))

/-- Lane by lane on one register. -/
def lanes1 (ty : Nat) (f : Nat → Flagged) (a : Vec) : Vec × Flags := lanes2 ty (fun x _ => f x) a 0

/-! ### VINT (R253) -/

/-- A lane as an integer in the signedness of U. -/
def laneInt (u : Bool) (w x : Nat) : Int := if u then (x : Int) else signedOf w x

/-- Least and greatest integer of `w` bits. -/
def intLim (u : Bool) (w : Nat) : Int × Int :=
  if u then (0, (2 ^ w : Nat) - 1) else (-(2 ^ (w - 1) : Nat), (2 ^ (w - 1) : Nat) - 1)

/-- An exact integer as a lane: wrapped, or clamped with SAT when S = 1. -/
def intResult (u s : Bool) (w : Nat) (r : Int) : Flagged :=
  let lim := intLim u w
  if s && (r < lim.1 || lim.2 < r) then ⟨wrapInt w (clampInt lim.1 lim.2 r), flSAT⟩ else ⟨wrapInt w r, 0⟩

/-- VADD, VSUB, VMUL. -/
def vintArith (vc : Word) (f : Int → Int → Int) (a b : Vec) : Vec × Flags :=
  let ty := vtype vc
  let w := laneBits ty
  let u := vUns vc
  lanes2 ty (fun x y => intResult u (vSat vc) w (f (laneInt u w x) (laneInt u w y))) a b

/-- VMIN, VMAX. -/
def vintPick (vc : Word) (mx : Bool) (a b : Vec) : Vec × Flags :=
  let ty := vtype vc
  let w := laneBits ty
  let u := vUns vc
  lanes2 ty (fun x y =>
    let lt := decide (laneInt u w x < laneInt u w y)
    ⟨if lt == mx then y else x, 0⟩) a b

/-- VSHL, VSHR, VSRA: kind 0, 1, 2. -/
def vintShift (vc : Word) (kind : Nat) (a b : Vec) : Vec × Flags :=
  let ty := vtype vc
  let w := laneBits ty
  lanes2 ty (fun x c =>
    ⟨match kind with
      | 0 => if w ≤ c then 0 else x * 2 ^ c % 2 ^ w
      | 1 => if w ≤ c then 0 else x / 2 ^ c
      | _ => wrapInt w (signedOf w x / (2 ^ min c w : Nat)), 0⟩) a b

/-! ### Conversions (R256-R258) -/

/-- An element: an integer or a floating-point number. -/
inductive Elem where
  | int (signed : Bool) (w : Nat) | fp (f : Fmt)
  deriving DecidableEq, Repr

def Elem.width : Elem → Nat
  | .int _ w => w
  | .fp f => f.width

/-- The type of VCONF.TYPE; U makes an integer type unsigned. -/
def typeElem (vc : Word) : Elem :=
  let ty := vtype vc
  if isFloat ty then .fp (vFmt ty) else .int (!vUns vc) (laneBits ty)

/-- The format of a conversion code (R256). -/
def codeElem (c : Nat) : Elem := match c with
  | 0 => .int true 8 | 1 => .int true 16 | 2 => .int true 32 | 3 => .int true 64
  | 4 => .fp fp16 | 5 => .fp bf16 | 6 => .fp fp32 | 7 => .int false 8
  | 8 => .fp e4m3 | 9 => .fp e5m2 | 10 => .fp e3m2 | 11 => .fp e2m3 | 12 => .fp e2m1
  | 13 => .int true 4 | _ => .int false 4

/-- The value of an element. -/
def Elem.num (e : Elem) (x : Nat) : Num := match e with
  | .int s w => .ofInt (if s then signedOf w x else x)
  | .fp f => f.num x

/-- A signalling NaN. -/
def Elem.signalling (e : Elem) (x : Nat) : Bool := match e with
  | .int _ _ => false
  | .fp f => f.signalling x

/-- Convert a value; `sig` says that a signalling NaN was consumed, which the formats with a NaN report (R114). -/
def Elem.conv (e : Elem) (r : Rnd) (v : Num) (sig sat : Bool) : Flagged := match e with
  | .int s w => intConv s w r v sat
  | .fp f =>
    let o := f.conv r ⟨v, false⟩ sat
    ⟨o.bits, o.fl ||| raised (sig && f.nan.isSome) flNV⟩

/-- VCVT, VCVTS: `e` is [4] D, [3:0] code. -/
def vConvert (vc : Word) (e : Nat) (sat : Bool) (a : Vec) : Vec × Flags :=
  let t := typeElem vc
  let c := codeElem (e % 16)
  let (src, dst) := if bit e 4 then (c, t) else (t, c)
  let k := 128 / max src.width dst.width
  gather dst.width ((List.range k).map fun j =>
    let x := lane a src.width j
    dst.conv (vRnd vc) (src.num x) (src.signalling x) sat)

/-- VQNT: the exact product is converted once, saturating. -/
def vQuantise (vc : Word) (a b : Vec) : Vec × Flags :=
  let ty := vtype vc
  let f := vFmt ty
  let w := laneBits ty
  let dst := codeElem (vQfmt vc)
  gather dst.width ((List.range (laneCount ty)).map fun i =>
    let x := lane a w i
    let y := lane b w i
    let p := (f.num x).mul (f.num y)
    let inv := p.isNan && !(f.num x).isNan && !(f.num y).isNan
    let sig := f.signalling x || f.signalling y
    let o := dst.conv (vRnd vc) p sig true
    ⟨o.bits, o.fl ||| raised inv flNV⟩)

/-! ### Reductions (R259) -/

/-- The values that a reduction takes: the lanes of va and lane 0 of vb. -/
def redInputs (ty : Nat) (a b : Vec) : List Nat :=
  let w := laneBits ty
  (List.range (laneCount ty)).map (lane a w) ++ [lane b w 0]

/-- VRSUM. -/
def vSum (vc : Word) (a b : Vec) : Vec × Flags :=
  let ty := vtype vc
  let l := redInputs ty a b
  if isFloat ty then
    let f := vFmt ty
    let r := vRnd vc
    let nums := l.map f.num
    let v := match nums with
      | x :: l => l.foldl (Num.add r) x
      | [] => .nan
    let nanIn := nums.any Num.isNan
    let o := f.round r v
    gather 128 [⟨o.bits, o.fl ||| f.sigNV l ||| raised (v.isNan && !nanIn) flNV⟩]
  else
    let w := laneBits ty
    let u := vUns vc
    gather 128 [intResult u (vSat vc) w ((l.map (laneInt u w)).foldl (· + ·) 0)]

/-- VRMAX, VRMIN. -/
def vPick (vc : Word) (mx : Bool) (a b : Vec) : Vec × Flags :=
  let ty := vtype vc
  let l := redInputs ty a b
  let w := laneBits ty
  if isFloat ty then
    let f := vFmt ty
    match l.filter fun x => !(f.num x).isNan with
    | [] => gather 128 [f.nanWith (f.sigNV l)]
    | x :: r => gather 128 [⟨r.foldl (fun m y => (f.minmax mx m y).bits) x, f.sigNV l⟩]
  else
    let u := vUns vc
    match l with
    | x :: r => gather 128 [⟨r.foldl (fun m y => if decide (laneInt u w m < laneInt u w y) == mx then y else m) x, 0⟩]
    | [] => (0, 0)

/-! ### Permutations, comparisons, moves (R260-R262) -/

/-- Every lane holds `x`. -/
def splat (ty x : Nat) : Vec := vecOf (packBits (laneBits ty) (List.replicate (laneCount ty) x))

/-- VSHUF: byte selection from vb : va by the old vd. -/
def vShuffle (a b d : Vec) : Vec :=
  let src := a.toNat + b.toNat * 2 ^ 128
  vecOf (packBits 8 ((List.range 16).map fun m =>
    let x := lane d 8 m
    if bit x 7 then 0 else bits src (8 * (x % 32)) 8))

/-- VINS: lane `e` of vd replaced. -/
def vInsert (ty : Nat) (d : Vec) (e : Nat) (x : Word) : Vec := vecOf (putBits d.toNat (laneBits ty * e) (laneBits ty) x.toNat)

/-- VEXT: the value for x[d]. -/
def vExtract (vc : Word) (a : Vec) (e : Nat) : Word :=
  let ty := vtype vc
  let x := lane a (laneBits ty) e
  if !vUns vc && ty ≤ 3 then sext (laneBits ty) x else BitVec.ofNat 64 x

/-- VCMP. -/
def vCompare (vc : Word) (a b : Vec) : Vec × Flags :=
  let ty := vtype vc
  let w := laneBits ty
  let ones := 2 ^ w - 1
  if isFloat ty then
    let f := vFmt ty
    lanes2 ty (fun x y => ⟨if (f.num x).lt (f.num y) then ones else 0, f.sigNV [x, y]⟩) a b
  else lanes2 ty (fun x y => ⟨if laneInt (vUns vc) w x < laneInt (vUns vc) w y then ones else 0, 0⟩) a b

/-- VSEL. -/
def vSelect (ty : Nat) (a b d : Vec) : Vec :=
  let w := laneBits ty
  vecOf (packBits w ((List.range (laneCount ty)).map fun i =>
    if bit (lane d w i) (w - 1) then lane a w i else lane b w i))

/-! ### Recurrences (R119, R264) -/

/-- One element: VREC with coefficient `a`, or VEMA with the record's α. -/
def recStep (f : Fmt) (r : Rnd) (ema : Bool) (a y x : Nat) : Flagged :=
  if ema then
    let vy := f.num y
    let vx := f.num x
    let d := vx.add r vy.neg
    let p := (f.num a).mul d
    let v := vy.add r p
    let inv := (d.isNan && !vx.isNan && !vy.isNan) || (p.isNan && !(f.num a).isNan && !d.isNan) ||
      (v.isNan && !vy.isNan && !p.isNan)
    let o := f.round r v
    ⟨o.bits, o.fl ||| f.sigNV [a, y, x] ||| raised inv flNV⟩
  else f.fma r a y x

/-- The elements of a chunk: outputs, the carried state and the flags. -/
def recurrence (f : Fmt) (r : Rnd) (ema : Bool) (rho : Nat) : List (Bool × Nat × Nat) → Nat → List Nat × Nat × Flags
  | [], y => ([], y, 0)
  | (reset, a, x) :: l, y =>
    let o := recStep f r ema a (if reset then rho else y) x
    let n := recurrence f r ema rho l o.bits
    (o.bits :: n.1, n.2.1, o.fl ||| n.2.2)

/-! ### Registers and results of a word (R240, R249, R252) -/

/-- Vector registers a word reads, in the order of R249: a, b, then d. -/
def vReads : Instr → List Nat
  | .vadd _ a b => [a.toNat, b.toNat]
  | .vsub _ a b => [a.toNat, b.toNat]
  | .vmul _ a b => [a.toNat, b.toNat]
  | .vmin _ a b => [a.toNat, b.toNat]
  | .vmax _ a b => [a.toNat, b.toNat]
  | .vand _ a b => [a.toNat, b.toNat]
  | .vor _ a b => [a.toNat, b.toNat]
  | .vxor _ a b => [a.toNat, b.toNat]
  | .vshl _ a b => [a.toNat, b.toNat]
  | .vshr _ a b => [a.toNat, b.toNat]
  | .vsra _ a b => [a.toNat, b.toNat]
  | .vfadd _ a b => [a.toNat, b.toNat]
  | .vfsub _ a b => [a.toNat, b.toNat]
  | .vfmul _ a b => [a.toNat, b.toNat]
  | .vfma d a b => [a.toNat, b.toNat, d.toNat]
  | .vfmin _ a b => [a.toNat, b.toNat]
  | .vfmax _ a b => [a.toNat, b.toNat]
  | .vfabs _ a => [a.toNat]
  | .vfneg _ a => [a.toNat]
  | .vrcp _ a => [a.toNat]
  | .vrsq _ a => [a.toNat]
  | .vsqrt _ a => [a.toNat]
  | .vexp2 _ a => [a.toNat]
  | .vlog2 _ a => [a.toNat]
  | .vdiv _ a b => [a.toNat, b.toNat]
  | .vcvt _ a _ => [a.toNat]
  | .vcvts _ a _ => [a.toNat]
  | .vqnt _ a b => [a.toNat, b.toNat]
  | .vrsum _ a b => [a.toNat, b.toNat]
  | .vrmax _ a b => [a.toNat, b.toNat]
  | .vrmin _ a b => [a.toNat, b.toNat]
  | .vshuf d a b => [a.toNat, b.toNat, d.toNat]
  | .vbcast _ a _ => [a.toNat]
  | .vext _ a _ => [a.toNat]
  | .vins d _ _ => [d.toNat]
  | .vcmp _ a b => [a.toNat, b.toNat]
  | .vsel d a b => [a.toNat, b.toNat, d.toNat]
  | .vrec d a _ => [a.toNat, d.toNat]
  | .vema d _ => [d.toNat]
  | .vmovv _ a => [a.toNat]
  | .vst d _ _ => [d.toNat]
  | .vstm d _ b => [b.toNat, d.toNat]
  | _ => []

/-- The vector register a word writes. -/
def vWrite : Instr → Option Nat
  | .vadd d _ _ => some d.toNat
  | .vsub d _ _ => some d.toNat
  | .vmul d _ _ => some d.toNat
  | .vmin d _ _ => some d.toNat
  | .vmax d _ _ => some d.toNat
  | .vand d _ _ => some d.toNat
  | .vor d _ _ => some d.toNat
  | .vxor d _ _ => some d.toNat
  | .vshl d _ _ => some d.toNat
  | .vshr d _ _ => some d.toNat
  | .vsra d _ _ => some d.toNat
  | .vfadd d _ _ => some d.toNat
  | .vfsub d _ _ => some d.toNat
  | .vfmul d _ _ => some d.toNat
  | .vfma d _ _ => some d.toNat
  | .vfmin d _ _ => some d.toNat
  | .vfmax d _ _ => some d.toNat
  | .vfabs d _ => some d.toNat
  | .vfneg d _ => some d.toNat
  | .vrcp d _ => some d.toNat
  | .vrsq d _ => some d.toNat
  | .vsqrt d _ => some d.toNat
  | .vexp2 d _ => some d.toNat
  | .vlog2 d _ => some d.toNat
  | .vdiv d _ _ => some d.toNat
  | .vcvt d _ _ => some d.toNat
  | .vcvts d _ _ => some d.toNat
  | .vqnt d _ _ => some d.toNat
  | .vrsum d _ _ => some d.toNat
  | .vrmax d _ _ => some d.toNat
  | .vrmin d _ _ => some d.toNat
  | .vshuf d _ _ => some d.toNat
  | .vbcast d _ _ => some d.toNat
  | .vins d _ _ => some d.toNat
  | .vcmp d _ _ => some d.toNat
  | .vsel d _ _ => some d.toNat
  | .vrec d _ _ => some d.toNat
  | .vema d _ => some d.toNat
  | .vmovx d _ _ => some d.toNat
  | .vmovv d _ => some d.toNat
  | .vsplat d _ => some d.toNat
  | .vld d _ _ => some d.toNat
  | .vldb d _ _ => some d.toNat
  | .vlds d _ _ => some d.toNat
  | .vldsPi d _ _ => some d.toNat
  | _ => none

/-- Integer operands a word captures (R243). -/
def vCaptures : Instr → Nat
  | .vins _ _ _ => 1
  | .vrec _ _ _ => 1
  | .vema _ _ => 1
  | .vmovx _ _ _ => 2
  | .vsplat _ _ => 1
  | .vld _ _ _ => 1
  | .vldb _ _ _ => 1
  | .vlds _ _ _ => 2
  | .vldsPi _ _ _ => 2
  | .vst _ _ _ => 1
  | .vstm _ _ _ => 1
  | _ => 0

/-- Nth value read. -/
def rd (l : List Vec) (i : Nat) : Vec := l.getD i 0

/-- The result for vd of a word that reads no memory, from the values read in the order of `vReads` and the captured
integer operands. -/
def vResult (i : Instr) (vc : Word) (ops : List Word) (l : List Vec) : Vec × Flags :=
  let ty := vtype vc
  let f := vFmt ty
  let r := vRnd vc
  let a := rd l 0
  let b := rd l 1
  let c := rd l 2
  match i with
  | .vadd _ _ _ => vintArith vc (· + ·) a b
  | .vsub _ _ _ => vintArith vc (· - ·) a b
  | .vmul _ _ _ => vintArith vc (· * ·) a b
  | .vmin _ _ _ => vintPick vc false a b
  | .vmax _ _ _ => vintPick vc true a b
  | .vand _ _ _ => (a &&& b, 0)
  | .vor _ _ _ => (a ||| b, 0)
  | .vxor _ _ _ => (a ^^^ b, 0)
  | .vshl _ _ _ => vintShift vc 0 a b
  | .vshr _ _ _ => vintShift vc 1 a b
  | .vsra _ _ _ => vintShift vc 2 a b
  | .vfadd _ _ _ => lanes2 ty (fun x y => f.add r x y false) a b
  | .vfsub _ _ _ => lanes2 ty (fun x y => f.add r x y true) a b
  | .vfmul _ _ _ => lanes2 ty (f.mul r) a b
  | .vfma _ _ _ =>
    let w := laneBits ty
    gather w ((List.range (laneCount ty)).map fun i => f.fma r (lane a w i) (lane b w i) (lane c w i))
  | .vfmin _ _ _ => lanes2 ty (f.minmax false) a b
  | .vfmax _ _ _ => lanes2 ty (f.minmax true) a b
  | .vfabs _ _ => lanes1 ty (fun x => ⟨x % 2 ^ (f.width - 1), 0⟩) a
  | .vfneg _ _ => lanes1 ty (fun x => ⟨x ^^^ 2 ^ (f.width - 1), 0⟩) a
  | .vrcp _ _ => lanes1 ty (f.rcp r) a
  | .vrsq _ _ => lanes1 ty (f.rsq r) a
  | .vsqrt _ _ => lanes1 ty (f.sqrt r) a
  | .vexp2 _ _ => lanes1 ty (f.exp2 r) a
  | .vlog2 _ _ => lanes1 ty (f.log2 r) a
  | .vdiv _ _ _ => lanes2 ty (f.div r) a b
  | .vcvt _ _ e => vConvert vc e.toNat false a
  | .vcvts _ _ e => vConvert vc e.toNat true a
  | .vqnt _ _ _ => vQuantise vc a b
  | .vrsum _ _ _ => vSum vc a b
  | .vrmax _ _ _ => vPick vc true a b
  | .vrmin _ _ _ => vPick vc false a b
  | .vshuf _ _ _ => (vShuffle a b c, 0)
  | .vbcast _ _ e => (splat ty (lane a (laneBits ty) e.toNat), 0)
  | .vins _ _ e => (vInsert ty a e.toNat (ops.getD 0 0), 0)
  | .vcmp _ _ _ => vCompare vc a b
  | .vsel _ _ _ => (vSelect ty a b c, 0)
  | .vmovx _ _ _ => (ops.getD 1 0 ++ ops.getD 0 0, 0)
  | .vmovv _ _ => (a, 0)
  | .vsplat _ _ => (splat ty ((ops.getD 0 0).toNat % 2 ^ laneBits ty), 0)
  | _ => (0, 0)

/-- The checks on TYPE, lanes and codes at issue (R241, R252, R256, R258): true when the word may be queued. -/
def vLegal (i : Instr) (vc : Word) : Bool :=
  let ty := vtype vc
  let n := laneCount ty
  match i with
  | .vand _ _ _ => true
  | .vor _ _ _ => true
  | .vxor _ _ _ => true
  | .vshuf _ _ _ => true
  | .vmovx _ _ _ => true
  | .vmovv _ _ => true
  | .vld _ _ _ => true
  | .vst _ _ _ => true
  | .vstm _ _ _ => true
  | .vfadd _ _ _ => isFloat ty
  | .vfsub _ _ _ => isFloat ty
  | .vfmul _ _ _ => isFloat ty
  | .vfma _ _ _ => isFloat ty
  | .vfmin _ _ _ => isFloat ty
  | .vfmax _ _ _ => isFloat ty
  | .vfabs _ _ => isFloat ty
  | .vfneg _ _ => isFloat ty
  | .vrcp _ _ => isFloat ty
  | .vrsq _ _ => isFloat ty
  | .vsqrt _ _ => isFloat ty
  | .vexp2 _ _ => isFloat ty
  | .vlog2 _ _ => isFloat ty
  | .vdiv _ _ _ => isFloat ty
  | .vqnt _ _ _ => isFloat ty && vQfmt vc != 15 && (codeElem (vQfmt vc)).width ≤ laneBits ty
  | .vrec _ _ _ => isFloat ty
  | .vema _ _ => isFloat ty
  | .vcvt _ _ e => ty != 7 && e.toNat % 16 != 15
  | .vcvts _ _ e => ty != 7 && e.toNat % 16 != 15
  | .vbcast _ _ e => ty != 7 && e.toNat < n
  | .vext _ _ e => ty != 7 && e.toNat < n
  | .vins _ _ e => ty != 7 && e.toNat < n
  | _ => ty != 7

end Sys2Proof.Machine
end

