-- ==== Sys2Proof/Machine/Sequencer.lean ====
section
/-! DEFINITION. The vector sequencer of a core (R243, R244, R247): what its queued words read and write, when the oldest of
a thread can be served, link ports (R248-R250), stream registers (R251), and draining. -/

namespace Sys2Proof.Machine

/-! ### Links (R13, R248-R250) -/

/-- Opposite port: N and S, E and W. -/
def oppPort (p : Nat) : Nat := (p + 2) % 4

/-- The torus neighbour on the side of port N = 0, E = 1, S = 2, W = 3 (R13). -/
def neighbour (c port : Nat) : Nat :=
  let row := coreNo c / 4
  let col := coreNo c % 4
  let (row, col) := match port with
    | 0 => ((row + 3) % 4, col) | 1 => (row, (col + 1) % 4) | 2 => ((row + 1) % 4, col) | _ => (row, (col + 3) % 4)
  coreId (clusterOf c) (4 * row + col)

/-- Words in flight to port `p` of core `c`. -/
def State.inFlight (s : State) (c p : Nat) : Nat :=
  (s.agenda.filter fun e => match e.2 with
    | .linkWordArrival c' p' _ _ _ => c' == c && p' == p
    | _ => false).length

/-- Free places of the FIFO that a push out of port `p` of core `c` enters (R249). -/
def State.linkRoom (s : State) (c p : Nat) : Nat :=
  let n := neighbour c p
  4 - (((mget (s.core n).fifo (oppPort p)).getD []).length + s.inFlight n (oppPort p))

/-- Push a word out of port `p` of core `c`. -/
def State.pushLink (s : State) (c p prog : Nat) (v : Vec) : State :=
  s.post 2 (.linkWordArrival (neighbour c p) (oppPort p) prog v [])

/-- A port whose popped words are forwarded (R248). -/
def Core.forwards? (k : Core) (p : Nat) : Bool := k.linkcfg.getLsbD p

/-- `n` link words are discarded at a core: DROP of LINKCFG (R248). -/
def Core.dropLink (k : Core) (n : Nat) : Core :=
  let v := k.linkcfg.toNat
  { k with linkcfg := BitVec.ofNat 64 (putBits v 16 16 (min (bits v 16 16 + n) 0xFFFF)) }

/-! ### Serving one queued word -/

/-- Strip counts of a stream descriptor (R289). -/
def stripCounts (d : Payload) : Nat × Nat × Nat := (bits d.toNat 64 16, bits d.toNat 80 16, bits d.toNat 96 16)

/-- Strips in the pattern. -/
def stripTotal (d : Payload) : Nat :=
  let c := stripCounts d
  c.1 * c.2.1 * c.2.2

/-- Offset of the `n`th strip, i0 fastest (R289). -/
def stripOffset (d : Payload) (n : Nat) : Nat :=
  let c := stripCounts d
  let c0 := max c.1 1
  let c1 := max c.2.1 1
  let stride (lo : Nat) : Int := signedOf 32 (bits d.toNat lo 32)
  wrapInt 64 ((bits d.toNat 0 64 : Int) + (n % c0 : Int) * stride 128 + (n / c0 % c1 : Int) * stride 160 +
    (n / (c0 * c1) : Int) * stride 192)

/-- The position (i0, i1, i2) of the `n`th strip. -/
def stripAt (d : Payload) (n : Nat) : Nat × Nat × Nat :=
  let c := stripCounts d
  let c0 := max c.1 1
  let c1 := max c.2.1 1
  (n % c0, n / c0 % c1, n / (c0 * c1))

/-- The descriptor at an own-TCM offset. -/
def descriptorAt (m : Mem) (desc : Nat) : Payload := BitVec.ofNat 256 (rdN m desc 32)

/-- A register that is bound for reading or writing. -/
def Thread.stream? (t : Thread) (n : Nat) : Option Stream := mget t.streams n

/-- How often a list names `n`. -/
def times (l : List Nat) (n : Nat) : Nat := (l.filter (· == n)).length

/-- The first link port a word waits for, if it waits for one (R249). -/
def State.linkWait (s : State) (c : Nat) (k : Core) (i : Instr) : Option Nat :=
  let rs := vReads i
  [28, 29, 30, 31].findSome? fun v =>
    let p := v - 28
    let n := times rs v
    let emptyF := ((mget k.fifo p).getD []).length < n
    let fwd := 0 < n && k.forwards? p && s.linkRoom c (oppPort p) < n
    let wr := vWrite i == some v && s.linkRoom c p < 1 + (if k.forwards? (oppPort p) then times rs (28 + oppPort p) else 0)
    if emptyF || fwd || wr then some p else none

/-- The strips that the reads of a word need are there (R251). -/
def stripsReady (t : Thread) (i : Instr) : Bool :=
  [20, 21, 22, 23].all fun v => match t.stream? v with
    | some st => st.write || times (vReads i) v ≤ st.strips.length
    | none => true

/-- Read a register for a queued word: a pop of a port, a strip, or the register (R249, R251); `old` is the register that
word 0 of its bundle has overwritten (R55). -/
def State.popV (s : State) (c b : Nat) (old : Option (Nat × Vec)) (n : Nat) : Vec × State :=
  let k := s.core c
  let t := (mget k.banks b).getD {}
  if 28 ≤ n then
    let p := n - 28
    match (mget k.fifo p).getD [] with
    | v :: l =>
      let s := s.setCore c { k with fifo := mset k.fifo p l }
      (v, if k.forwards? p then s.pushLink c (oppPort p) t.prog v else s)
    | [] => (0, s)
  else match t.stream? n with
    | some st =>
      if st.write then (t.getV n, s)
      else match st.strips with
        | v :: l =>
          let i := stripAt st.image (st.n - l.length)
          let st := { st with strips := l, i0 := i.1, i1 := i.2.1, i2 := i.2.2 }
          (v, (s.setCore c (k.modBank b fun t => { t with streams := mset t.streams n st })).post 2 (.streamRefill c st.copy))
        | [] => (0, s)
    | none => match old with
      | some (m, v) => (if m = n then v else t.getV n, s)
      | none => (t.getV n, s)

/-- Read several registers in order. -/
def State.popAll (s : State) (c b : Nat) (old : Option (Nat × Vec)) : List Nat → List Vec × State
  | [] => ([], s)
  | n :: l =>
    let r := s.popV c b old n
    let q := r.2.popAll c b old l
    (r.1 :: q.1, q.2)

/-- Write a register for a queued word: a push, a strip appended, or the register. -/
def State.putV (s : State) (c b n : Nat) (v : Vec) : State :=
  let k := s.core c
  let t := (mget k.banks b).getD {}
  if 28 ≤ n then s.pushLink c (n - 28) t.prog v
  else match t.stream? n with
    | some st =>
      if st.killed then s
      else
        let i := stripAt st.image (st.n + st.strips.length + 1)
        let st := { st with strips := st.strips ++ [v], i0 := i.1, i1 := i.2.1, i2 := i.2.2 }
        (s.setCore c (k.modBank b fun t => { t with streams := mset t.streams n st })).post 2 (.streamRefill c st.copy)
    | none => s.setCore c (k.modBank b fun t => t.setV n v)

/-- Raise flags in the thread's VCONF (R122). -/
def State.raise (s : State) (c b : Nat) (f : Flags) : State :=
  s.modCore c fun k => k.modBank b fun t => { t with vconf := orFlags t.vconf f }

/-- Elements of a VREC or VEMA: the count that applies (R264). -/
def recCount (ctl : Word) (n : Nat) : Nat := let c := bits ctl.toNat 16 4; if c = 0 then n else c

/-- VREC or VEMA in the sequencer (R264): result for vd, flags, and the record written back. -/
def State.runRec (s : State) (c b : Nat) (ema : Bool) (vc ctl : Word) (coef d : Vec) : Vec × Flags × State :=
  let ty := vtype vc
  let f := vFmt ty
  let w := laneBits ty
  let n := laneCount ty
  let off := bits ctl.toNat 0 16
  let r := ofBytes (rdBytes (s.core c).tcm.bytes off 64)
  let cnt := recCount ctl n
  let alpha := bits r 128 w
  let steps := (List.range cnt).map fun t => (bit ctl.toNat (48 + t), if ema then alpha else lane coef w t, lane d w t)
  let o := recurrence f (vRnd vc) ema (bits r 64 w) steps (bits r 0 w)
  let vd := vecOf (packBits w (o.1 ++ (List.range (n - cnt)).map fun i => lane d w (cnt + i)))
  let flags := bits r (8 * 0x25) 6 ||| o.2.2.toNat
  let s := s.wrTcm c off (toBytes 8 o.2.1) []
  let s := s.wrTcm c (off + 0x25) (toBytes 1 (putBits (bits r (8 * 0x25) 8) 0 6 flags)) []
  let s := s.wrTcm c (off + 0x28) (toBytes 8 (bits r (8 * 0x28) 64 + cnt)) []
  ((vd, o.2.2, s.raise c b o.2.2))

/-! ### Memory accesses of queued words (R191) -/

/-- Bytes of one element (R191). -/
def elemBytes (vc : Word) : Nat := laneBits (vtype vc) / 8

/-- The addresses a vector load or store accesses, each with its size (R191); the record of a VREC or VEMA lies in the own TCM (R264). -/
def SeqEntry.places (e : SeqEntry) : List Nat × Nat :=
  let a := (e.ops.headD 0).toNat
  let eb := elemBytes e.vconf
  let strided : List Nat × Nat :=
    ((List.range (16 / eb)).map fun i => (a + i * (e.ops.getD 1 0).toNat) % 2 ^ 64, eb)
  let record : List Nat × Nat := ([0xFF00 * 2 ^ 48 + a % 2 ^ 16], 64)
  match e.word with
  | .vldb _ _ _ => ([a], eb)
  | .vlds _ _ _ => strided
  | .vldsPi _ _ _ => strided
  | .vrec _ _ _ => record
  | .vema _ _ => record
  | _ => ([a], 16)

/-- The result of a vector load from the bytes read (R191). -/
def SeqEntry.loaded (e : SeqEntry) (v : Nat) : Vec :=
  match e.word with
  | .vldb _ _ _ => splat (vtype e.vconf) v
  | _ => vecOf v

/-- Read `n` bytes at an own place of core `c`. -/
def State.rdPlace (s : State) (c : Nat) (w : Win) (n : Nat) : List Byte :=
  match w with
  | .ownTcm off => rdBytes (s.core c).tcm.bytes off n
  | .ownPad off => rdBytes (s.pad (clusterOf c)).bytes off n
  | _ => []

/-- The window of an address as core `c` sees it: its own TCM and scratchpad under either name. -/
def winFor (c ea : Nat) : Option Win :=
  match window ea with
  | some (.tcm c' off) => if c' = c then some (.ownTcm off) else some (.tcm c' off)
  | some (.pad cl off) => if cl = clusterOf c then some (.ownPad off) else some (.pad cl off)
  | w => w

def Win.isOwn : Win → Bool
  | .ownTcm _ => true
  | .ownPad _ => true
  | _ => false

/-- Does the access of a queued word stay in the core's own memories? A paired thread reaches its cluster's scratchpad through the router
(R395). -/
def State.ownPlaces (s : State) (c b : Nat) (l : List Nat) : Bool := l.all fun ea => match winFor c ea with
  | some (.ownTcm _) => true
  | some (.ownPad _) => (s.pairOf c (((mget (s.core c).banks b).getD {}).kind)).isNone
  | _ => false

/-- The bytes of an own access; poisoned ones read 0 and are counted (R393). -/
def State.rdOwnPlaces (s : State) (c b n : Nat) : List Nat → List Byte × State
  | [] => ([], s)
  | ea :: l =>
    let r := match winFor c ea with
      | some w =>
        let bad := match w with
          | .ownTcm off => (s.core c).tcm.poisoned off n
          | .ownPad off => (s.pad (clusterOf c)).poisoned off n
          | _ => false
        let t := (mget (s.core c).banks b).getD {}
        if bad then (toBytes n 0, s.usePoison c t.prog t.kind) else (s.rdPlace c w n, s)
      | none => (toBytes n 0, s)
    let q := r.2.rdOwnPlaces c b n l
    (r.1 ++ q.1, q.2)

/-- Send the access of a queued word; a store is compared when the thread is paired (R395). -/
def State.sendSeq (s : State) (c b : Nat) (e : SeqEntry) (op : MemOp) (store : Bool) : State × Nat :=
  let t := (mget (s.core c).banks b).getD {}
  let i := s.fresh
  let s := i.2
  let sp := (e.ops.getLastD 0).toNat
  let p := e.places
  let a : Acc := { core := c, bank := b, who := t.who, tenant := t.tenant, level := t.level, space := sp, op := op
                   size := p.2, todo := p.1, forWhom := if store then .store else .seq, wordAddr := e.wordAddr.toNat }
  let ea := p.1.headD 0
  let r : Route := match winFor c ea with
    | some (.ownPad off) => .far (.pad (clusterOf c) off)
    | some w => if onChip ea then .far w else .virt
    | none => .virt
  let d := ({ s with cid := c } : State).leg r sp ea
  let ev : Event := match r with | .virt => .sliceRequest i.1 | _ => .remoteAccess i.1
  let s := { s with accs := mset s.accs i.1 a }
  let s := if store then
      let s := s.modCore c fun k => k.modBank b fun t => { t with unacked := i.1 :: t.unacked }
      let r := (s.core c).enterEgress s.now 1
      (s.setCore c r.2).sendFor c t (e.num * 2 ^ 20) i.1 (r.1 + d) ev (accHash sp ea op)
    else s.emit c 1 d ev
  (s, i.1)

/-- Byte mask of VSTM: bit 7 of each byte of vm. -/
def maskOf (m : Vec) : List Bool := (List.range 16).map fun i => m.getLsbD (8 * i + 7)

/-- Serve a queued vector load: the state, and the value when it is there. -/
def State.serveLoad (s : State) (c : Nat) (e : SeqEntry) : State × Option Nat :=
  let p := e.places
  if s.ownPlaces c e.bank p.1 then
    let r := s.rdOwnPlaces c e.bank p.2 p.1
    (r.2, some (ofBytes r.1))
  else match e.got with
    | some v => (s, some v)
    | none => (s, none)

/-- Perform a queued vector store of `data`. -/
def State.serveStore (s : State) (c : Nat) (e : SeqEntry) (data : List Byte) (mask : List Bool) : State :=
  match winFor c (e.places.1.headD 0) with
  | some (.ownTcm off) => s.wrTcm c off data mask
  | some (.ownPad off) =>
    if s.ownPlaces c e.bank [e.places.1.headD 0] then s.setPad (clusterOf c) ((s.pad (clusterOf c)).write off data mask)
    else (s.sendSeq c e.bank e (.write data mask) true).1
  | _ => (s.sendSeq c e.bank e (.write data mask) true).1

/-! ### Order and draining (R244, R247) -/

/-- The result of trying a queued word: not now, started (it waits for its access), or done. -/
inductive Served where
  | no | started (s : State) (e : SeqEntry) | done (s : State)

/-- The queued word stores to memory. -/
def SeqEntry.writesMem (e : SeqEntry) : Bool :=
  match e.word with
  | .vst _ _ _ => true
  | .vstm _ _ _ => true
  | .vrec _ _ _ => true
  | .vema _ _ => true
  | _ => false

/-- Try one queued word on core `c`. One that needs the scratchpad, itself or for the undo log, waits while streams hold it (R46). -/
def State.serve (s : State) (c : Nat) (e : SeqEntry) : Served :=
  let k := s.core c
  match mget k.banks e.bank with
  | none => .done s
  | some t =>
    let pads := e.isMem && s.padBusy (clusterOf c) && e.places.1.any fun ea => match winFor c ea with
      | some (.ownPad _) => true
      | some (.ownTcm _) => k.undo.isSome && e.writesMem
      | _ => false
    if (s.linkWait c k e.word).isSome || !stripsReady t e.word || pads then .no
    else
      let far := e.isMem && (match e.word with | .vrec _ _ _ => false | .vema _ _ => false | _ => !s.ownPlaces c e.bank e.places.1)
      let isLoad := match e.word with
        | .vld _ _ _ => true | .vldb _ _ _ => true | .vlds _ _ _ => true | .vldsPi _ _ _ => true | _ => false
      if far && t.unacked.any (fun i => i < e.after || (mget s.accs i).any fun a => a.forWhom == .store) && e.await.isNone then .no
      else if isLoad && far && e.await.isNone then
        let r := s.sendSeq c e.bank e .read false
        .started r.1 { e with await := some r.2 }
      else if isLoad then
        match s.serveLoad c e with
        | (_, none) => .no
        | (s, some v) => .done (match vWrite e.word with
          | some d => s.putV c e.bank d (e.loaded v)
          | none => s)
      else
        let r := s.popAll c e.bank e.old (vReads e.word)
        let s := r.2
        match e.word with
        | .vst _ _ _ => .done (s.serveStore c e (toBytes 16 (rd r.1 0).toNat) [])
        | .vstm _ _ _ => .done (s.serveStore c e (toBytes 16 (rd r.1 1).toNat) (maskOf (rd r.1 0)))
        | .vrec d _ _ =>
          let o := s.runRec c e.bank false e.vconf (e.ops.headD 0) (rd r.1 0) (rd r.1 1)
          .done (o.2.2.putV c e.bank d.toNat o.1)
        | .vema d _ =>
          let o := s.runRec c e.bank true e.vconf (e.ops.headD 0) 0 (rd r.1 0)
          .done (o.2.2.putV c e.bank d.toNat o.1)
        | .vext d _ i =>
          .done (s.modCore c fun k => k.modBank e.bank fun t =>
            (t.setX d.toNat (vExtract e.vconf (rd r.1 0) i.toNat)).readyAt d.toNat (s.cycle + 4))
        | i =>
          let o := vResult i e.vconf e.ops r.1
          .done ((match vWrite i with
            | some d => s.putV c e.bank d o.1
            | none => s).raise c e.bank o.2)

/-- The value of vd before the word, for a word 1 queued behind it in one bundle (R55). -/
def State.before (s : State) (c : Nat) (e : SeqEntry) : Option (Nat × Vec) :=
  (vWrite e.word).map fun d => (d, ((mget (s.core c).banks e.bank).getD {}).getV d)

/-- Remove the `i`th entry; a paired one behind it keeps what the bundle found. -/
def dropEntry (l : List SeqEntry) (i : Nat) (old : Option (Nat × Vec)) : List SeqEntry :=
  l.take i ++ match l.drop (i + 1) with
    | e :: r => (if e.paired then { e with old := old, paired := false } else e) :: r
    | [] => []

/-- Positions of the entries that are the oldest of their thread and not behind its loop. -/
def heads (l : List SeqEntry) : List (Nat × SeqEntry) :=
  ((l.zipIdx).map fun p => (p.2, p.1)).filter fun p =>
    !p.2.late && (l.take p.1).all fun e => e.bank != p.2.bank

/-- After the loop's last repetition the words queued behind it follow (R247). -/
def Core.endLoop (k : Core) (b : Nat) : Core :=
  { k with vloop := none, seq := k.seq.map fun (e : SeqEntry) => if e.bank = b then { e with late := false } else e }

/-- The loop of a core whose turn it is: complete, and with no older word of its thread queued. -/
def Core.loopTurn (k : Core) : Option VLoop :=
  k.vloop.filter fun v => v.toIssue == 0 && !k.seq.any fun e => e.bank == v.bank && !e.late

/-- One word of the loop, or the start of a repetition or the end of the loop. -/
def State.serveLoop (s : State) (c : Nat) : Option State :=
  let k := s.core c
  match k.loopTurn with
  | none => none
  | some v =>
    match v.rest with
      | [] =>
        if v.left = 0 then some (s.setCore c (k.endLoop v.bank))
        else some (s.setCore c { k with vloop := some { v with left := v.left - 1, rest := v.body } })
      | e :: r =>
        let pop (s : State) : State := s.modCore c fun k => { k with vloop := some { v with rest := r } }
        match s.serve c e with
        | .no => none
        | .started s e => some (s.modCore c fun k => { k with vloop := some { v with rest := e :: r } })
        | .done s => some (pop s)

/-- One of the words at the heads of their threads' queues. -/
def State.serveHeads (s : State) (c : Nat) (l : List (Nat × SeqEntry)) : Option State :=
  l.findSome? fun p =>
    match s.serve c p.2 with
    | .no => none
    | .started t e => some (t.modCore c fun k => { k with seq := k.seq.set p.1 e })
    | .done t => some (t.modCore c fun k => { k with seq := dropEntry k.seq p.1 (s.before c p.2) })

/-- The loop's next word is older than this one. -/
def Core.loopBefore (k : Core) (e : SeqEntry) : Bool :=
  match k.loopTurn with
  | some v => match v.rest with
    | w :: _ => w.after < e.after
    | [] => true
  | none => false

/-- Start one word of core `c` if one can be served: the oldest first, a loop's word at its own age (R244, R247). -/
def State.seqStep (s : State) (c : Nat) : Option State :=
  let k := s.core c
  let h := heads k.seq
  match s.serveHeads c (h.filter fun p => !k.loopBefore p.2) with
  | some t => some t
  | none => match s.serveLoop c with
    | some t => some t
    | none => s.serveHeads c (h.filter fun p => k.loopBefore p.2)

/-- Drain the sequencers of a list of cores; a word that is served may make room at the neighbours. -/
def State.drainLoop (s : State) : Nat → List Nat → State
  | 0, _ => s
  | _, [] => s
  | fuel + 1, c :: l =>
    match s.seqStep c with
    | none => s.drainLoop fuel l
    | some t =>
      let near := if isCompute c then (List.range 4).map (neighbour c) else []
      t.drainLoop fuel (c :: (near ++ l).eraseDups)

/-- Work queued in the sequencers of a cluster. -/
def State.seqWork (s : State) (cl : Nat) : Nat :=
  s.cores.foldl (fun n c => if clusterOf c.1 = cl then
    n + 2 * c.2.seq.length + (match c.2.vloop with
      | some v => (v.left + 1) * (2 * v.length + 1) + 2 * v.rest.length + 2
      | none => 0) else n) 1

/-- The port on which the thread of bank `b` must wait: its oldest queued word waits for it (R249). -/
def State.linkPort (s : State) (c b : Nat) (k : Core) : Option Nat :=
  let head : Option SeqEntry := match k.seq.find? fun (e : SeqEntry) => e.bank == b && !e.late with
    | some e => some e
    | none => match k.vloop with
      | some v => if v.bank = b && v.toIssue = 0 then v.rest.head?.or v.body.head? else none
      | none => none
  head.bind fun e => s.linkWait c k e.word

/-- A thread is Blocked on a link read while its oldest queued word waits for a link (R20, R249). -/
def State.linkBlocked (s : State) (c : Nat) : State :=
  let k := s.core c
  let upd (b : Nat) (t : Thread) : Thread :=
    match s.linkPort c b k with
    | some p => if t.st = .ready then { t with st := .blocked (.link p), since := s.now } else t
    | none => match t.st with
      | .blocked (.link _) => { t with st := .ready }
      | _ => t
  let blocks := k.banks.filter fun b => b.2.st == .ready && (s.linkPort c b.1 k).isSome
  let s := s.setCore c { k with banks := k.banks.map fun b => (b.1, upd b.1 b.2) }
  blocks.foldl (fun s b => s.post 1000000 (.autoProbe b.2.who)) s

/-- A word of OP 0x50-0x58 that the open VLOOP of bank `b` counts into its body; `none` stands for one whose guard failed. A word with
an effect is queued for the first repetition. With the last word the other repetitions follow; a count of 0 discards the body (R247). -/
def Core.bodyWord (k : Core) (b : Nat) (e : Option SeqEntry) : Core :=
  match k.vloop with
  | some v =>
    if v.bank = b && v.toIssue ≠ 0 then
      let body := v.body ++ (e.toList.map fun (e : SeqEntry) => { e with paired := false, fresh := false, old := none })
      let first := if v.left = 0 then [] else e.toList.map fun (e : SeqEntry) => { e with loop := true }
      let k := { k with seq := k.seq ++ first }
      if v.toIssue = 1 then
        if v.left = 0 then { k with vloop := none }
        else { k with vloop := some { v with toIssue := 0, body := body, left := v.left - 1 } }
      else { k with vloop := some { v with toIssue := v.toIssue - 1, body := body } }
    else k
  | none => k

/-- The VLOOP of bank `b` still lacks words of its body. -/
def Core.inBody (k : Core) (b : Nat) : Bool :=
  match k.vloop with
  | some v => v.bank == b && v.toIssue != 0
  | none => false

/-- Drain core `c` and, through the links, its neighbours. -/
def State.drain (s : State) (c : Nat) : State :=
  let k := s.core c
  if k.seq.isEmpty && k.vloop.isNone then s
  else
    let s := s.drainLoop (8 * s.seqWork (clusterOf c) + 16) [c]
    let s := s.linkBlocked c
    if isCompute c then ((List.range 4).map (neighbour c)).foldl State.linkBlocked s else s

/-- LINK_WORD_ARRIVAL (R249, R250): a word reaches the FIFO of port `p`; on a core without a thread of its program it is
discarded and counted. -/
def execLinkWordArrival (s : State) : Out :=
  match s.event with
  | .linkWordArrival c p prog v _ => .next (
    if (s.core c).holds prog then
      (s.modCore c fun k => { k with fifo := mset k.fifo p ((mget k.fifo p).getD [] ++ [v]) }).drain c
    else (s.modCore c fun k => k.dropLink 1).count (unitCore c) ctrLinkDrop)
  | _ => .next s

end Sys2Proof.Machine
end

