-- ==== Sys2Proof/Machine/Issue.lean ====
section
/-! DEFINITION. Fetching and issuing bundles (R38, R39, R53-R59, R68-R70), and how time passes between steps. -/

namespace Sys2Proof.Machine

/-! ### Destinations (R57) -/

/-- What a word can name as a destination. -/
inductive Dest where
  | x (n : Nat) | p (n : Nat) | v (n : Nat) | t (n : Nat)
  deriving DecidableEq, Repr

/-- p1-p7: the destinations of a write of PW (R125). -/
def allP : List Dest := [.p 1, .p 2, .p 3, .p 4, .p 5, .p 6, .p 7]

/-- Destinations of an instruction for the check of R57, with those of R125, R189, R191, R269, R326 and R357. -/
def destsOf : Instr → List Dest
  | .beq _ _ _ => []
  | .bne _ _ _ => []
  | .blt _ _ _ => []
  | .bge _ _ _ => []
  | .bltu _ _ _ => []
  | .bgeu _ _ _ => []
  | .bpt _ _ => []
  | .bpf _ _ => []
  | .j _ => []
  | .call _ => [.x 1]
  | .jr _ _ => []
  | .jalr d _ _ => [.x d.toNat]
  | .loop d _ _ => [.x d.toNat]
  | .liw d _ => [.x d.toNat]
  | .liwh d _ => [.x d.toNat]
  | .ld8 d _ _ => [.x d.toNat]
  | .ld8u d _ _ => [.x d.toNat]
  | .ld16 d _ _ => [.x d.toNat]
  | .ld16u d _ _ => [.x d.toNat]
  | .ld32 d _ _ => [.x d.toNat]
  | .ld32u d _ _ => [.x d.toNat]
  | .ld64 d _ _ => [.x d.toNat]
  | .st8 _ _ _ => []
  | .st16 _ _ _ => []
  | .st32 _ _ _ => []
  | .st64 _ _ _ => []
  | .lda32 d _ _ => [.x d.toNat]
  | .lda64 d _ _ => [.x d.toNat]
  | .stl32 _ _ _ => []
  | .stl64 _ _ _ => []
  | .ldp d _ _ => [.x d.toNat, .x (d.toNat + 1)]
  | .stp _ _ _ => []
  | .ldf64 d _ _ => [.x d.toNat]
  | .stf64 _ _ _ => []
  | .vld d _ _ => [.v d.toNat]
  | .vldb d _ _ => [.v d.toNat]
  | .vlds d _ _ => [.v d.toNat]
  | .vldsPi d a _ => [.v d.toNat, .x a.toNat]
  | .vst _ _ _ => []
  | .vstm _ _ _ => []
  | .amoadd v _ _ _ _ => [.x v.toNat]
  | .amoand v _ _ _ _ => [.x v.toNat]
  | .amoor v _ _ _ _ => [.x v.toNat]
  | .amoorFence _ _ _ _ => []
  | .amoxor v _ _ _ _ => [.x v.toNat]
  | .amomin v _ _ _ _ => [.x v.toNat]
  | .amomax v _ _ _ _ => [.x v.toNat]
  | .amominu v _ _ _ _ => [.x v.toNat]
  | .amomaxu v _ _ _ _ => [.x v.toNat]
  | .amoswp v _ _ _ _ => [.x v.toNat]
  | .cas32 v _ _ _ => [.x v.toNat]
  | .cas64 v _ _ _ => [.x v.toNat]
  | .amofadd v _ _ _ _ => [.x v.toNat]
  | .amofmin v _ _ _ _ => [.x v.toNat]
  | .amofmax v _ _ _ _ => [.x v.toNat]
  | .cwb _ => []
  | .cinv _ => []
  | .cinvRc _ => []
  | .cinvD _ => []
  | .pref _ => []
  | .prefSc _ => []
  | .icinv _ => []
  | .enq d _ _ => [.x d.toNat]
  | .enqt d _ _ mod => [.x d.toNat, .p (4 + mod.toNat)]
  | .deq d _ _ => [.x d.toNat]
  | .deqt d _ _ mod => [.x d.toNat, .p (4 + mod.toNat)]
  | .qinit d _ _ => [.x d.toNat]
  | .qstat d _ _ => [.x d.toNat]
  | .qdrain d _ => [.x d.toNat]
  | .qreset d _ => [.x d.toNat]
  | .pinit d _ _ => [.x d.toNat]
  | .pstat d _ _ => [.x d.toNat]
  | .balloc d _ => [.x d.toNat]
  | .bfree d _ _ => [.x d.toNat]
  | .btapp d _ => [.x d.toNat]
  | .btget d _ _ => [.x d.toNat]
  | .btfork d _ _ => [.x d.toNat]
  | .btrel d _ => [.x d.toNat]
  | .send d _ _ => [.x d.toNat]
  | .sendAck d _ _ => [.x d.toNat]
  | .sendTrap d _ _ => [.x d.toNat]
  | .sendv d _ _ => [.x d.toNat]
  | .sendvAck d _ _ => [.x d.toNat]
  | .sendvTrap d _ _ => [.x d.toNat]
  | .recv d _ _ => [.x d.toNat]
  | .recvt d _ _ => [.x d.toNat]
  | .cpy d _ _ => [.x d.toNat]
  | .cpy2d d _ => [.x d.toNat]
  | .cpy2dSt d _ => [.x d.toNat]
  | .cpyg d _ _ => [.x d.toNat]
  | .cpys d _ _ => [.x d.toNat]
  | .cpyh d _ _ => [.x d.toNat]
  | .cpyq d _ _ => [.x d.toNat]
  | .strm _ _ => []
  | .strmW _ _ => []
  | .strmx _ => []
  | .xsend _ => []
  | .xrecv _ => []
  | .xphase d _ => [.x d.toNat]
  | .sstep d => [.x d.toNat]
  | .gjoin d _ => [.x d.toNat]
  | .gleave d => [.x d.toNat]
  | .gbar d => [.x d.toNat]
  | .garr d => [.x d.toNat]
  | .gwait _ => []
  | .spawn d _ _ => [.x d.toNat]
  | .migr _ => []
  | .migrLd d _ => [.x d.toNat]
  | .tgrow d _ => [.x d.toNat]
  | .tidx d => [.x d.toNat]
  | .tidxNx d => [.x d.toNat]
  | .probe d _ _ => [.x d.toNat]
  | .xmpub d _ _ => [.x d.toNat]
  | .xmrd d _ _ => [.x d.toNat]
  | .xmrdt d _ _ => [.x d.toNat]
  | .stake d _ _ => [.x d.toNat]
  | .unstake d _ => [.x d.toNat]
  | .lvinit d _ _ => [.x d.toNat]
  | .lvinv d _ => [.x d.toNat]
  | .lvstat d _ _ => [.x d.toNat]
  | .wreg d _ _ => [.x d.toNat]
  | .wunreg d _ => [.x d.toNat]
  | .ssrex d _ _ => [.x d.toNat]
  | .ssrim d _ _ => [.x d.toNat]
  | .csrr d _ => [.x d.toNat]
  | .csrw _ csr => if csr = 0 then allP else []
  | .csrs _ csr => if csr = 0 then allP else []
  | .csrc _ csr => if csr = 0 then allP else []
  | .trap _ => []
  | .trapBrk _ => []
  | .time d => [.x d.toNat]
  | .talarm d _ _ => [.x d.toNat]
  | .add d _ _ => [.x d.toNat]
  | .sub d _ _ => [.x d.toNat]
  | .and d _ _ => [.x d.toNat]
  | .or d _ _ => [.x d.toNat]
  | .xor d _ _ => [.x d.toNat]
  | .sll d _ _ => [.x d.toNat]
  | .srl d _ _ => [.x d.toNat]
  | .sra d _ _ => [.x d.toNat]
  | .slt d _ _ => [.x d.toNat]
  | .sltu d _ _ => [.x d.toNat]
  | .min d _ _ => [.x d.toNat]
  | .max d _ _ => [.x d.toNat]
  | .minu d _ _ => [.x d.toNat]
  | .maxu d _ _ => [.x d.toNat]
  | .addi d _ _ => [.x d.toNat]
  | .andi d _ _ => [.x d.toNat]
  | .ori d _ _ => [.x d.toNat]
  | .xori d _ _ => [.x d.toNat]
  | .slli d _ _ => [.x d.toNat]
  | .srli d _ _ => [.x d.toNat]
  | .srai d _ _ => [.x d.toNat]
  | .slti d _ _ => [.x d.toNat]
  | .mul d _ _ => [.x d.toNat]
  | .mulh d _ _ => [.x d.toNat]
  | .mulhu d _ _ => [.x d.toNat]
  | .div d _ _ => [.x d.toNat]
  | .divu d _ _ => [.x d.toNat]
  | .rem d _ _ => [.x d.toNat]
  | .remu d _ _ => [.x d.toNat]
  | .lui d _ => [.x d.toNat]
  | .addpc d _ => [.x d.toNat]
  | .clz d _ => [.x d.toNat]
  | .ctz d _ => [.x d.toNat]
  | .popc d _ => [.x d.toNat]
  | .bswap d _ => [.x d.toNat]
  | .peq d _ _ => [.p d.toNat]
  | .pne d _ _ => [.p d.toNat]
  | .plt d _ _ => [.p d.toNat]
  | .pge d _ _ => [.p d.toNat]
  | .pltu d _ _ => [.p d.toNat]
  | .pgeu d _ _ => [.p d.toNat]
  | .pand d _ _ => [.p d.toNat]
  | .por d _ _ => [.p d.toNat]
  | .pxor d _ _ => [.p d.toNat]
  | .pnot d _ => [.p d.toNat]
  | .sel d _ _ => [.x d.toNat]
  | .movpw d => [.x d.toNat]
  | .movwp _ => allP
  | .addsh d _ _ => [.x d.toNat]
  | .part d _ _ => [.x d.toNat]
  | .vadd d _ _ => [.v d.toNat]
  | .vsub d _ _ => [.v d.toNat]
  | .vmul d _ _ => [.v d.toNat]
  | .vmin d _ _ => [.v d.toNat]
  | .vmax d _ _ => [.v d.toNat]
  | .vand d _ _ => [.v d.toNat]
  | .vor d _ _ => [.v d.toNat]
  | .vxor d _ _ => [.v d.toNat]
  | .vshl d _ _ => [.v d.toNat]
  | .vshr d _ _ => [.v d.toNat]
  | .vsra d _ _ => [.v d.toNat]
  | .vfadd d _ _ => [.v d.toNat]
  | .vfsub d _ _ => [.v d.toNat]
  | .vfmul d _ _ => [.v d.toNat]
  | .vfma d _ _ => [.v d.toNat]
  | .vfmin d _ _ => [.v d.toNat]
  | .vfmax d _ _ => [.v d.toNat]
  | .vfabs d _ => [.v d.toNat]
  | .vfneg d _ => [.v d.toNat]
  | .vrcp d _ => [.v d.toNat]
  | .vrsq d _ => [.v d.toNat]
  | .vsqrt d _ => [.v d.toNat]
  | .vexp2 d _ => [.v d.toNat]
  | .vlog2 d _ => [.v d.toNat]
  | .vdiv d _ _ => [.v d.toNat]
  | .vcvt d _ _ => [.v d.toNat]
  | .vcvts d _ _ => [.v d.toNat]
  | .vqnt d _ _ => [.v d.toNat]
  | .vrsum d _ _ => [.v d.toNat]
  | .vrmax d _ _ => [.v d.toNat]
  | .vrmin d _ _ => [.v d.toNat]
  | .vshuf d _ _ => [.v d.toNat]
  | .vbcast d _ _ => [.v d.toNat]
  | .vext d _ _ => [.x d.toNat]
  | .vins d _ _ => [.v d.toNat]
  | .vcmp d _ _ => [.v d.toNat]
  | .vsel d _ _ => [.v d.toNat]
  | .vrec d _ _ => [.v d.toNat]
  | .vema d _ => [.v d.toNat]
  | .vmovx d _ _ => [.v d.toNat]
  | .vmovv d _ => [.v d.toNat]
  | .vsplat d _ => [.v d.toNat]
  | .vloop _ _ => []
  | .mcfg _ => []
  | .mlda _ => []
  | .mldb _ _ => []
  | .mma t _ => [.t t.toNat]
  | .mmas t _ => [.t t.toNat]
  | .mrot t _ => [.t t.toNat]
  | .mdq _ => []
  | .mdelta t _ _ => [.t t.toNat]
  | .mzero t => [.t t.toNat]
  | .mst _ _ _ => []
  | .mscale t _ => [.t t.toNat]
  | .mredMax _ w => [.v w.toNat, .v (w.toNat + 1)]
  | .mredSum _ w => [.v w.toNat, .v (w.toNat + 1)]
  | .mchk _ => []
  | .nop => []
  | .synci => []
  | .exit => []
  | .yield => []
  | .tret => []
  | .halt => []
  | .reflexRelease => []
  | .shadowBankSwitch => []
  | .deadlineMiss => []
  | .budgetExceeded => []
  | .starvationGuard => []
  | .admission => []
  | .taskDispatch => []
  | .bankRelease => []
  | .clearing => []
  | .programCompletion => []
  | .migrationArrival => []
  | .migrationResend => []
  | .preemption => []
  | .seize => []
  | .contextStreamEnd => []
  | .restore => []
  | .retryResend => []
  | .stakeRequest => []
  | .stakeGrant => []
  | .standbyMaskWrite => []
  | .mailboxArrival => []
  | .sendAcknowledgement => []
  | .savedContextDelivery => []
  | .alarmFire => []
  | .sliceRequest => []
  | .pageWalkComplete => []
  | .confirmation => []
  | .accessReply => []
  | .translationFault => []
  | .faultMessageResend => []
  | .faultReplyResume => []
  | .faultReplyRetryLater => []
  | .faultReplyKill => []
  | .overflowMessage => []
  | .overflowRecall => []
  | .overflowRecallAnswer => []
  | .cacheOpComplete => []
  | .sliceGate => []
  | .sliceWake => []
  | .sliceWakeComplete => []
  | .shootdownDataRange => []
  | .shootdownDataSpace => []
  | .shootdownInstructionRange => []
  | .shootdownInstructionProgram => []
  | .shootdownEverything => []
  | .shootdownNode => []
  | .shootdownCompletion => []
  | .regionTableUpdate => []
  | .peerTranslationRequest => []
  | .peerTranslationReply => []
  | .leaseExpiry => []
  | .debugHalt => []
  | .debugResume => []
  | .debugStep => []
  | .debugQuiesce => []
  | .debugStatus => []
  | .debugDump => []
  | .copySectorReply => []
  | .copyCompletion => []
  | .landingHandlerInvocation => []
  | .cpyqRetry => []
  | .streamRefill => []
  | .exchangeWindow => []
  | .exchangeArrival => []
  | .barrierArrival => []
  | .sstepRelease => []
  | .superstepReplay => []
  | .probeHop => []
  | .autoProbe => []
  | .xmpubCommit => []
  | .xmrdCompletion => []
  | .homeControllerOperation => []
  | .homeControllerReply => []
  | .queueGrant => []
  | .waiterWithdrawal => []
  | .waiterRecordReturn => []
  | .creditMessage => []
  | .peerUnreachable => []
  | .slotFillComplete => []
  | .rotationDataArrival => []
  | .rotationCreditArrival => []
  | .pairHashArrival => []
  | .pairMatchTimeout => []
  | .counterSnapshot => []
  | .firmwareCheckpoint => []
  | .recovery => []
  | .recoveryEnd => []
  | .heartbeatSend => []
  | .heartbeatReceive => []
  | .heartbeatMiss => []
  | .heartbeatAckMiss => []
  | .xegarLinkUp => []
  | .mirrorUpdate => []
  | .hostQueueEnqueue => []
  | .hostQueueDequeue => []
  | .hostSlotControlRead => []
  | .hostSlotDataWrite => []
  | .hostSlotCommit => []
  | .hostSlotRelease => []
  | .hostBar2Access => []
  | .hostRegisterWrite => []
  | .commandDispatch => []
  | .packetSignalRelease => []
  | .load => []
  | .launch => []
  | .arm => []
  | .disarm => []
  | .signal => []
  | .mapq => []
  | .mapbar => []
  | .mapwin => []
  | .grant => []
  | .holdrel => []
  | .tenantCreate => []
  | .tenantDestroy => []
  | .attest => []
  | .cap => []
  | .update => []
  | .updateCommit => []
  | .updateRevert => []
  | .msix => []
  | .decodeTableLoad => []
  | .powerCapCheck => []
  | .thermAlert => []
  | .thermAlertClear => []
  | .perstN => []
  | .moduleReset => []
  | .boot => []
  | .ptmSynchronisation => []
  | .remoteAccess => []
  | .linkWordArrival => []
  | .heartbeatAcknowledgement => []
  | .mirrorAcknowledgement => []

/-- A destination that conflicts when two words name it: not x0, not p0 (R57). -/
def Dest.counts : Dest → Bool
  | .x 0 => false
  | .p 0 => false
  | _ => true

/-- The conflict of R57. -/
def conflict (i j : Instr) : Bool := (destsOf i).any fun d => d.counts && (destsOf j).contains d

/-- Source registers among x0-x15 of an instruction (R126, R243); the others read none. -/
def srcsOf : Instr → List Nat
  | .beq a b _ => [a.toNat, b.toNat]
  | .bne a b _ => [a.toNat, b.toNat]
  | .blt a b _ => [a.toNat, b.toNat]
  | .bge a b _ => [a.toNat, b.toNat]
  | .bltu a b _ => [a.toNat, b.toNat]
  | .bgeu a b _ => [a.toNat, b.toNat]
  | .jr a _ => [a.toNat]
  | .jalr _ a _ => [a.toNat]
  | .loop _ a _ => [a.toNat]
  | .liwh d _ => [d.toNat]
  | .ld8 _ a _ => [a.toNat]
  | .ld8u _ a _ => [a.toNat]
  | .ld16 _ a _ => [a.toNat]
  | .ld16u _ a _ => [a.toNat]
  | .ld32 _ a _ => [a.toNat]
  | .ld32u _ a _ => [a.toNat]
  | .ld64 _ a _ => [a.toNat]
  | .st8 d a _ => [a.toNat, d.toNat]
  | .st16 d a _ => [a.toNat, d.toNat]
  | .st32 d a _ => [a.toNat, d.toNat]
  | .st64 d a _ => [a.toNat, d.toNat]
  | .lda32 _ a _ => [a.toNat]
  | .lda64 _ a _ => [a.toNat]
  | .stl32 d a _ => [a.toNat, d.toNat]
  | .stl64 d a _ => [a.toNat, d.toNat]
  | .ldp _ a _ => [a.toNat]
  | .stp d a _ => [a.toNat, d.toNat, d.toNat + 1]
  | .ldf64 _ a _ => [a.toNat]
  | .stf64 d a _ => [a.toNat, d.toNat]
  | .vld _ a _ => [a.toNat]
  | .vldb _ a _ => [a.toNat]
  | .vlds _ a b => [a.toNat, b.toNat]
  | .vldsPi _ a b => [a.toNat, b.toNat]
  | .vst _ a _ => [a.toNat]
  | .vstm _ a _ => [a.toNat]
  | .amoadd v a _ _ _ => [v.toNat, a.toNat]
  | .amoand v a _ _ _ => [v.toNat, a.toNat]
  | .amoor v a _ _ _ => [v.toNat, a.toNat]
  | .amoxor v a _ _ _ => [v.toNat, a.toNat]
  | .amomin v a _ _ _ => [v.toNat, a.toNat]
  | .amomax v a _ _ _ => [v.toNat, a.toNat]
  | .amominu v a _ _ _ => [v.toNat, a.toNat]
  | .amomaxu v a _ _ _ => [v.toNat, a.toNat]
  | .amoswp v a _ _ _ => [v.toNat, a.toNat]
  | .cas32 v a _ _ => [v.toNat, v.toNat + 1, a.toNat]
  | .cas64 v a _ _ => [v.toNat, v.toNat + 1, a.toNat]
  | .amofadd v a _ _ _ => [v.toNat, a.toNat]
  | .amofmin v a _ _ _ => [v.toNat, a.toNat]
  | .amofmax v a _ _ _ => [v.toNat, a.toNat]
  | .cwb a => [a.toNat]
  | .cinv a => [a.toNat]
  | .cinvRc a => [a.toNat]
  | .cinvD a => [a.toNat]
  | .pref a => [a.toNat]
  | .prefSc a => [a.toNat]
  | .icinv a => [a.toNat]
  | .enq _ a b => [a.toNat, b.toNat]
  | .enqt _ a b _ => [a.toNat, b.toNat]
  | .deq _ a b => [a.toNat, b.toNat]
  | .deqt _ a b _ => [a.toNat, b.toNat]
  | .qinit _ a b => [a.toNat, b.toNat]
  | .qstat _ a b => [a.toNat, b.toNat]
  | .qdrain _ a => [a.toNat]
  | .qreset _ a => [a.toNat]
  | .pinit _ a b => [a.toNat, b.toNat]
  | .pstat _ a b => [a.toNat, b.toNat]
  | .balloc _ a => [a.toNat]
  | .bfree _ a b => [a.toNat, b.toNat]
  | .btapp _ a => [a.toNat]
  | .btget _ a b => [a.toNat, b.toNat]
  | .btfork _ a b => [a.toNat, b.toNat]
  | .btrel _ a => [a.toNat]
  | .send _ a b => [a.toNat, b.toNat]
  | .sendAck _ a b => [a.toNat, b.toNat]
  | .sendTrap _ a b => [a.toNat, b.toNat]
  | .sendv _ a _ => [a.toNat]
  | .sendvAck _ a _ => [a.toNat]
  | .sendvTrap _ a _ => [a.toNat]
  | .recv _ a b => [a.toNat, b.toNat]
  | .recvt _ a b => [a.toNat, b.toNat]
  | .cpy d a b => [a.toNat, b.toNat, d.toNat]
  | .cpy2d _ a => [a.toNat]
  | .cpy2dSt _ a => [a.toNat]
  | .cpyg d a b => [a.toNat, b.toNat, d.toNat]
  | .cpys d a b => [a.toNat, b.toNat, d.toNat]
  | .cpyh d a b => [a.toNat, b.toNat, d.toNat]
  | .cpyq d a b => [a.toNat, b.toNat, d.toNat]
  | .strm _ a => [a.toNat]
  | .strmW _ a => [a.toNat]
  | .xsend a => [a.toNat]
  | .xrecv a => [a.toNat]
  | .xphase _ a => [a.toNat]
  | .gjoin _ a => [a.toNat]
  | .gwait a => [a.toNat]
  | .spawn d a b => [a.toNat, b.toNat, d.toNat]
  | .migr a => [a.toNat]
  | .migrLd _ a => [a.toNat]
  | .tgrow _ a => [a.toNat]
  | .probe _ a b => [a.toNat, b.toNat]
  | .xmpub _ a b => [a.toNat, b.toNat]
  | .xmrd _ a b => [a.toNat, b.toNat]
  | .xmrdt d a b => [a.toNat, b.toNat, d.toNat]
  | .stake _ a b => [a.toNat, b.toNat]
  | .unstake _ a => [a.toNat]
  | .lvinit _ a b => [a.toNat, b.toNat]
  | .lvinv _ a => [a.toNat]
  | .lvstat _ a b => [a.toNat, b.toNat]
  | .wreg _ a b => [a.toNat, b.toNat]
  | .wunreg _ a => [a.toNat]
  | .ssrex _ a b => [a.toNat, b.toNat]
  | .ssrim _ a b => [a.toNat, b.toNat]
  | .csrw d _ => [d.toNat]
  | .csrs d _ => [d.toNat]
  | .csrc d _ => [d.toNat]
  | .trap a => [a.toNat]
  | .trapBrk a => [a.toNat]
  | .talarm _ a b => [a.toNat, b.toNat]
  | .add _ a b => [a.toNat, b.toNat]
  | .sub _ a b => [a.toNat, b.toNat]
  | .and _ a b => [a.toNat, b.toNat]
  | .or _ a b => [a.toNat, b.toNat]
  | .xor _ a b => [a.toNat, b.toNat]
  | .sll _ a b => [a.toNat, b.toNat]
  | .srl _ a b => [a.toNat, b.toNat]
  | .sra _ a b => [a.toNat, b.toNat]
  | .slt _ a b => [a.toNat, b.toNat]
  | .sltu _ a b => [a.toNat, b.toNat]
  | .min _ a b => [a.toNat, b.toNat]
  | .max _ a b => [a.toNat, b.toNat]
  | .minu _ a b => [a.toNat, b.toNat]
  | .maxu _ a b => [a.toNat, b.toNat]
  | .addi _ a _ => [a.toNat]
  | .andi _ a _ => [a.toNat]
  | .ori _ a _ => [a.toNat]
  | .xori _ a _ => [a.toNat]
  | .slli _ a _ => [a.toNat]
  | .srli _ a _ => [a.toNat]
  | .srai _ a _ => [a.toNat]
  | .slti _ a _ => [a.toNat]
  | .mul _ a b => [a.toNat, b.toNat]
  | .mulh _ a b => [a.toNat, b.toNat]
  | .mulhu _ a b => [a.toNat, b.toNat]
  | .div _ a b => [a.toNat, b.toNat]
  | .divu _ a b => [a.toNat, b.toNat]
  | .rem _ a b => [a.toNat, b.toNat]
  | .remu _ a b => [a.toNat, b.toNat]
  | .clz _ a => [a.toNat]
  | .ctz _ a => [a.toNat]
  | .popc _ a => [a.toNat]
  | .bswap _ a => [a.toNat]
  | .peq _ a b => [a.toNat, b.toNat]
  | .pne _ a b => [a.toNat, b.toNat]
  | .plt _ a b => [a.toNat, b.toNat]
  | .pge _ a b => [a.toNat, b.toNat]
  | .pltu _ a b => [a.toNat, b.toNat]
  | .pgeu _ a b => [a.toNat, b.toNat]
  | .sel d a b => [a.toNat, b.toNat, d.toNat]
  | .movwp a => [a.toNat]
  | .addsh _ a b => [a.toNat, b.toNat]
  | .part _ a b => [a.toNat, b.toNat]
  | .vins _ a _ => [a.toNat]
  | .vrec _ _ b => [b.toNat]
  | .vema _ b => [b.toNat]
  | .vmovx _ a b => [a.toNat, b.toNat]
  | .vsplat _ a => [a.toNat]
  | .vloop _ a => [a.toNat]
  | .mcfg a => [a.toNat]
  | .mlda a => [a.toNat]
  | .mldb a _ => [a.toNat]
  | .mdq a => [a.toNat]
  | .mdelta _ a _ => [a.toNat]
  | .mst _ a _ => [a.toNat]
  | .mchk a => [a.toNat]
  | _ => []

/-- The registers x1-x15 that an instruction writes (R57). -/
def xDests (i : Instr) : List Nat := (destsOf i).filterMap fun d => match d with
  | .x r => if r % 16 = 0 then none else some r
  | _ => none

/-- The word reads a register whose result is not ready yet (R126), or reads or writes the register of a VEXT that has not completed
(R243). -/
def State.unready (s : State) (i : Instr) : Bool :=
  let late (r : Nat) : Bool := r % 16 != 0 && (mget s.src.xAt r).any (s.cycle < ·)
  let vext (r : Nat) : Bool := r % 16 != 0 && s.co.queued.any fun e => e.bank == s.bank && match e.word with
    | .vext d _ _ => d.toNat == r
    | _ => false
  (srcsOf i).any (fun r => late r || vext r) || (xDests i).any vext

/-! ### Fetch (R164, R390, R421) -/

/-- Bundle address of an instruction-space address. -/
def bundleOf (a : IAddr) : IAddr := a &&& ~~~7#40

/-- Offset in the reflex store of the firmware copy that front-end cores execute (R421: regions 496-511). -/
def firmwareBase : Nat := 496 * 0x10000

/-- The 64-byte lines of a program's text. -/
def Prog.textLines (g : Prog) : List Nat :=
  (g.text.flatMap fun x => (List.range ((x.2 + x.1 % 64 + 63) / 64)).map fun i => x.1 / 64 + i).eraseDups

/-- Offset in the reflex store of line `i` of the text image of program `p` (R390); which region firmware takes no rule says (DESIGN
CHOICE, notes/assumptions/11.md). -/
def textAt (p i : Nat) : Nat := (Config.textRegion p).val * 0x10000 + 64 * i

/-- The bundle in the copy of a program's text that the reflex store holds (R390): what a core without a path to DRAM fetches when
its line has been invalidated. -/
def State.reflexText (s : State) (a : IAddr) : Option (BitVec 64) :=
  if !s.noDram then none
  else match s.prog? s.src.prog with
    | some g =>
      if g.text.any fun r => r.1 ≤ a.toNat && a.toNat < r.1 + r.2 then
        some (BitVec.ofNat 64 (rdN s.reflexStore.bytes (textAt s.src.prog (g.textLines.idxOf (a.toNat / 64)) + a.toNat % 64) 8))
      else none
    | none => none

/-- The line of the L0 instruction cache that holds the bundle; a poisoned one is fetched again (R393). -/
def State.l0iLine (s : State) (a : IAddr) : Option L0ILine :=
  s.co.l0i.find? fun l => l.prog == s.src.prog && l.line == a.toNat / 64 && l.bad.isEmpty

/-- The 64 bits of the bundle, if the core can read them now. -/
def State.bundleAt (s : State) (a : IAddr) : Option (BitVec 64) :=
  if isFront s.cid then some (BitVec.ofNat 64 (rdN s.reflexStore.bytes (firmwareBase + a.toNat % 0x100000) 8))
  else match s.l0iLine a with
    | some l => some (l.data.extractLsb' (8 * (a.toNat % 64)) 64)
    | none => s.reflexText a

/-- The bundle that the thread executes: as it was fetched while a word of it waits (R200), else as the core can read it. -/
def State.bundleHere (s : State) : Option (BitVec 64) :=
  match s.src.fetched with
  | some (a, b) => if a = bundleOf s.src.pc then some b else s.bundleAt (bundleOf s.src.pc)
  | none => s.bundleAt (bundleOf s.src.pc)

/-- Ask the home slice for the instruction line of the bundle at `a`, also where the L0 line is poisoned; the thread waits (R164, R221,
R393). -/
def State.fetchLine (s : State) (word : Nat) (a : IAddr) : State :=
  let poisoned := s.co.l0i.any fun l => l.prog == s.src.prog && l.line == a.toNat / 64 && !l.bad.isEmpty
  let i := (if poisoned then s.usePoison s.cid s.src.prog s.src.kind else s).fresh
  let s := i.2
  let acc := { s.newAcc .fetch s.src.prog .read 64 [a.toNat] with wordAddr := s.bundle.toNat }
  { (({ s with accs := mset s.accs i.1 acc } : State).emitOwn 1 (s.leg .virt s.src.prog a.toNat) (.sliceRequest i.1)) with
    th := { s.th with pend := ⟨word, i.1, none⟩ :: s.th.pend } }

/-- The target check of R70 for a transfer to `t` (R129): word 1 only of a serial bundle that is not wide. The target's
line is fetched when it is needed and absent; the fetch is no request of the word, and the word may still trap. -/
def checkTarget (s : State) (t : Int) (k : State → IAddr → Res) : Res :=
  let tv : Word := BitVec.ofInt 64 t
  if t < 0 ∨ 2 ^ 40 ≤ t then trapR targetMisaligned tv
  else
    let a : IAddr := BitVec.ofInt 40 t
    if a.toNat % 4 ≠ 0 then trapR targetMisaligned tv
    else if a.toNat % 8 = 0 then k s a
    else match s.bundleAt (bundleOf a) with
      | some b =>
        if b.getLsbD 31 && !isWideCode (b.extractLsb' 0 27) then
          k { s with th := { s.th with pend := s.th.pend.filter (·.word != 4) } } a
        else trapR targetMisaligned tv
      | none =>
        match s.th.pend.find? (·.word == 4) with
        | some ⟨_, _, some (.trap c v)⟩ => trapR c v
        | some ⟨_, _, none⟩ => .wait s
        | _ => .wait (({ s with
            th := { s.th with pend := s.th.pend.filter (·.word != 4) } } : State).fetchLine 4 a)

/-! ### Decoding a word in its place (R54, R59, R68) -/

/-- Primary opcode of a word. -/
def opOf (w : BitVec 32) : Nat := (w.extractLsb' 20 7).toNat

/-- Guard field of a word. -/
def guardOf (w : BitVec 32) : Nat := (w.extractLsb' 27 4).toNat

/-- !p0: skipped without being decoded (R59). -/
def skipped (w : BitVec 32) : Bool := guardOf w == 8

/-- The test of R59. -/
def State.guardHolds (s : State) (w : BitVec 32) : Bool :=
  let g := guardOf w
  s.src.getP (g % 8) != (8 ≤ g)

/-- OP 0x60-0x66: matrix words, which service and front-end cores do not have (R68). -/
def isMatrixOp (op : Nat) : Bool := 0x60 ≤ op && op ≤ 0x66

/-- The ILLEGAL_OPCODE cases of R68 that depend on where the word stands. -/
def misplaced (cid : Nat) (f : Form) (op : Nat) : Bool :=
  (f == .par1 && op < 0x40 && op != 0) || (f == .par0 && 0x40 ≤ op) ||
  ((f == .par1 || f == .ser1) && op == 7) || (isMatrixOp op && !isCompute cid)

/-- CSR of an instruction, for the bank-1 case of R68. -/
def csrOf : Instr → Option Nat
  | .csrr _ c => some c.toNat
  | .csrw _ c => some c.toNat
  | .csrs _ c => some c.toNat
  | .csrc _ c => some c.toNat
  | _ => none

/-- Trap bank 1, which a compute core does not have (R68, R225). -/
def bank1Csr (i : Instr) : Bool :=
  match csrOf i with
  | some n => 0x210 ≤ n && n ≤ 0x215
  | none => false

/-- Steps 2 and 3 of R69: the instruction of a word in its place, or the cause of its trap. -/
def decodeWord (cid : Nat) (f : Form) (w lit : BitVec 32) : Except Nat Instr :=
  if misplaced cid f (opOf w) then .error illegalOpcode
  else match decodeCode (w.extractLsb' 0 27) lit with
    | .error .illegalOpcode => .error illegalOpcode
    | .error .illegalOperand => .error illegalOperand
    | .ok i =>
      if (f == .par1 || f == .ser1) && w.getLsbD 31 then .error illegalOperand
      else if bank1Csr i && isCompute cid then .error illegalOperand
      else .ok i

/-! ### Issue of one bundle or word -/

/-- OP 0x50-0x58: the words that a VLOOP counts into its body (R247). -/
def isBodyOp (op : Nat) : Bool := 0x50 ≤ op && op ≤ 0x58

/-- A word whose guard fails, or that is skipped: only the step past it, and its place in the body of an open VLOOP. -/
def State.passOver (s : State) (w : BitVec 32) : Res :=
  .ok (if isBodyOp (opOf w) then { s with co := s.co.bodyWord s.bank none } else s)

/-- Execute a decoded word in its place; a guard that does not hold leaves only its step past the word (R59), and a word whose
registers are not ready waits (R126). -/
def runWord (run : Instr → State → Out) (s : State) (f : Form) (w : BitVec 32) (i : Instr) : Out :=
  let s := { s with form := f, raw := w }
  if !s.guardHolds w then finish s (s.passOver w)
  else if s.unready i then finish s (.wait s)
  else run i s

/-- Execute a word in its place from its bits. -/
def issueWord (run : Instr → State → Out) (s : State) (f : Form) (w lit : BitVec 32) : Out :=
  let s := { s with form := f, raw := w }
  if skipped w then finish s (s.passOver w)
  else match decodeWord s.cid f w lit with
    | .error c => finish s (trapR c s.rawWord)
    | .ok i => runWord run s f w i

/-- How a word ended in the state it answered. -/
def statOf : Out → Stat
  | .next t => t.stat
  | _ => .done

/-- Word 0, tried on the bundle's state, has passed its checks: it has sent its request or blocks the thread. A trap that only the
reply to that request would bring is not known yet (DEDUCED, notes/assumptions/92.md). -/
def State.committed (s : State) : Bool := s.th.st != .ready || s.th.pend.any (·.word == 0)

/-- Two decoded words of a parallel bundle (R55): word 1 is tried first on the bundle's state, so that nothing happens
unless both words take effect; then word 0, then word 1 on top of it with the sources the bundle found. A word 1 that cannot
take effect behind word 0 holds or traps for the bundle as it was; its trap waits while word 0 may still trap. -/
def runPair (r0 r1 : State → Out) (s : State) : Out :=
  let one := r1 s
  let zero := r0 s
  match statOf zero, statOf one with
  | .trapped _ _, _ => zero
  | .held, .trapped _ _ => match zero with
    | .next t => if t.committed then one else zero
    | _ => one
  | .done, .trapped _ _ => one
  | _, .held => one
  | .held, .done => zero
  | .done, .done =>
    match zero with
    | .next t =>
      match r1 t with
      | .next u =>
        match u.stat with
        | .done => .next u
        | .held => finish { s with form := .par0 } (.wait s)
        | .trapped c v => finish { s with form := .par0 } (trapR c v)
      | o => o
    | o => o

/-- A parallel bundle (R54, R55, R57, R69). -/
def issueParallel (run : Instr → State → Out) (s : State) (w0 w1 : BitVec 32) : Out :=
  let e0 := { s with form := .par0, raw := w0 }
  let e1 := { s with form := .par1, raw := w1 }
  let d0 : Except Nat (Option Instr) := if skipped w0 then .ok none else (decodeWord s.cid .par0 w0 0).map some
  let d1 : Except Nat (Option Instr) := if skipped w1 then .ok none else (decodeWord s.cid .par1 w1 0).map some
  let word (f : Form) (w : BitVec 32) (i : Option Instr) (s : State) : Out := match i with
    | some i => runWord run s f w i
    | none => finish { s with form := f, raw := w } (({ s with form := f, raw := w } : State).passOver w)
  match d0, d1 with
  | .error c, _ => finish e0 (trapR c e0.rawWord)
  | .ok _, .error c => finish e1 (trapR c e1.rawWord)
  | .ok i0, .ok i1 =>
    let clash := match i0, i1 with
      | some i, some j => conflict i j
      | _, _ => false
    if clash then finish e1 (trapR illegalOperand e1.rawWord)
    else runPair (word .par0 w0 i0) (word .par1 w1 i1) s

/-- The bundle at pc, decoded and executed (R54, R56, R69, R70). -/
def issueBundle (run : Instr → State → Out) (s : State) (b : BitVec 64) : Out :=
  let w0 := b.extractLsb' 0 32
  let w1 := b.extractLsb' 32 32
  let wide := opOf w0 == 7
  if s.src.pc.toNat % 8 ≠ 0 then
    if wide || !w0.getLsbD 31 || s.src.pc.toNat % 4 ≠ 0 then
      finish { s with form := .ser1 } (trapR targetMisaligned (s.src.pc.setWidth 64))
    else issueWord run s .ser1 w1 0
  else if wide then issueWord run s .wide w0 w1
  else if w0.getLsbD 31 then issueWord run s .ser0 w0 0
  else issueParallel run s w0 w1

/-- A trap that reached the thread outside its words: a killed fetch, or a killed store that had left (R223), which a word
that waits for a reply goes before. -/
def State.lateTrap (s : State) : Option (Nat × Word × IAddr) :=
  let held := s.th.pend.any (·.word < 2)
  s.th.pend.findSome? fun p => if held && p.word != 2 then none else match p.reply with
    | some (.trap c v) =>
      if p.word = 2 then some (c, v, s.bundle)
      else if p.word = 3 then some (c, v, BitVec.ofNat 40 (((mget s.accs p.id).map (·.wordAddr)).getD s.bundle.toNat))
      else none
    | _ => none

/-- One issue of the thread that has been entered: late traps, fetch, then the bundle. -/
def issueHere (run : Instr → State → Out) (s : State) : Out :=
  let s := { s with bundle := bundleOf s.src.pc }
  match s.lateTrap with
  | some (c, v, epc) => .next (s.takeTrap c v epc epc)
  | none =>
    let s := { s with th := { s.th with pend := s.th.pend.filter (·.word != 2) } }
    match s.bundleHere with
    | some b => issueBundle run s b
    | none => .next { s.fetchLine 2 s.bundle with stat := .held }

/-- Requests of the thread's words that are outstanding or answered. -/
def Thread.asked (t : Thread) : List Pend := t.pend.filter (·.word < 2)

/-- Book an issue cycle: the core has issued in this cycle, the slot's count restarts unless the word was a YIELD, and the
round-robin pointer moves past the slot (R38, R39); the count goes on through the cycle of a YIELD. Latency-class and bulk slots share one pointer, which any issue moves (DESIGN
CHOICE, notes/assumptions/61.md). -/
def State.takeCycle (s : State) : State :=
  { s with
    th := { s.th with starve := if s.th.yielded then s.th.starve + 1 else 0 }
    co := { s.co with lastIssue := s.cycle + 1, rr := slotOf s.bank + 1, guarded := s.co.guarded.filter (· != slotOf s.bank) } }

/-- The registers x1-x15 that the words issued from a bundle write, by their place and guard. -/
def State.writtenBy (s : State) (b : BitVec 64) : List Nat :=
  let word (w lit : BitVec 32) : List Nat :=
    if skipped w || !s.guardHolds w then [] else match decodeCode (w.extractLsb' 0 27) lit with
      | .ok i => xDests i
      | .error _ => []
  let w0 := b.extractLsb' 0 32
  let w1 := b.extractLsb' 32 32
  if s.src.pc.toNat % 8 ≠ 0 then word w1 0
  else if opOf w0 == 7 then word w0 w1
  else if w0.getLsbD 31 then word w0 0 else word w0 0 ++ word w1 0

/-- A register that has been written again is ready when its new result is (R126). -/
def Thread.rewritten (t old : Thread) (l : List Nat) : Thread :=
  { t with xAt := t.xAt.filter fun e => !(l.contains e.1 && mget old.xAt e.1 == some e.2) }

/-- Book the issue. A word that sends a request issues in that cycle, and its end takes none; a word that only waits takes no
issue cycle (R126). -/
def State.booked (s src : State) : State :=
  let sent := src.th.asked.length < s.th.asked.length
  let answered := src.th.asked.any (·.reply.isSome)
  let s := if sent || (s.stat != .held && !answered) then s.takeCycle else s
  if s.stat == .held then { s with th := { s.th with fetched := src.bundleHere.map fun b => (bundleOf src.src.pc, b) } }
  else
    { s with
      th := { s.th.rewritten src.th ((src.bundleHere.map src.writtenBy).getD []) with
        yielded := false, fresh := false, fetched := none }
      co := { s.co with
        halted := s.co.halted || s.co.stepSlot == some (slotOf s.bank)
        stepSlot := if s.co.stepSlot == some (slotOf s.bank) then none else s.co.stepSlot
        seq := s.co.seq.map fun (e : SeqEntry) => { e with fresh := false } }
      bundle := if s.stat == .done then s.bundle else bundleOf src.src.pc }

/-- Issue for bank `b` of core `c`. -/
def issue (run : Instr → State → Out) (s : State) (c b : Nat) : Out :=
  let s := s.enter c b
  match issueHere run s with
  | .next t => .next ((t.booked s).store.drain c)
  | o => o

/-! ### Which slot issues (R38) -/

/-- Fabric cycles into the core cycle (R4, R77). -/
def State.phase (s : State) : Nat := (s.now - s.front.cycle0) % 2

/-- The bank a slot runs (R16). -/
def Core.bankOfSlot (k : Core) (slot : Nat) : Nat := (mget k.running slot).getD slot

/-- A thread that has been moved here issues nothing while an access made before the move is outstanding, one of its queued words
among them (R47, R182). -/
def Core.unsettled (k : Core) (b : Nat) (t : Thread) : Bool :=
  t.fresh && (!t.unacked.isEmpty || k.queued.any fun e => e.bank == b && e.await.isSome && e.got.isNone)

/-- The thread of a slot, if it may issue now. A halt stops issue and falls before a word or after it (R153, R202, R236): a word whose
request has been answered still completes. -/
def State.ready (s : State) (c : Nat) (k : Core) (slot : Nat) : Option Thread :=
  let cy := s.cycle
  if s.phase != 0 || k.clearing || k.seized.isSome || k.lastIssue == cy + 1 then none
  else match mget k.banks (k.bankOfSlot slot) with
    | some t =>
      let bulk := !t.latency && k.staked.isNone
      let stopped := k.halted && k.stepSlot != some slot && t.asked.isEmpty
      if t.st == .ready && !stopped && !k.unsettled (k.bankOfSlot slot) t && t.pend.all (·.reply.isSome) && t.notBefore ≤ cy &&
        !(bulk && s.front.throttled && isDelib c) then some t else none
    | none => none

/-- Priority of a reflex slot: higher criticality, then earlier deadline, then lower slot (R38). -/
def State.reflexKey (s : State) (slot : Nat) (t : Thread) : Option (Nat × Nat × Nat) :=
  match t.kind with
  | .reflex e k =>
    match mget s.front.reflex e with
    | some r =>
      let n := r.image.toNat
      some (15 - bits n (8 * 0x2D) 4, r.first + k * bits n 0 64 + bits n (8 * 0x10) 32, slot)
    | none => some (15, 0, slot)
  | _ => none

def keyLt (a b : Nat × Nat × Nat) : Bool :=
  a.1 < b.1 || (a.1 == b.1 && (a.2.1 < b.2.1 || (a.2.1 == b.2.1 && a.2.2 < b.2.2)))

/-- Slots in round-robin order from the core's pointer. -/
def Core.rrOrder (k : Core) : List Nat := (List.range 4).map fun i => (k.rr + i) % 4

/-- The slot a core issues for in this cycle (R38). -/
def State.chooseSlot (s : State) (c : Nat) (k : Core) : Option Nat :=
  let can (i : Nat) : Bool := (s.ready c k i).isSome
  let latency (i : Nat) : Bool := match s.ready c k i with
    | some t => t.latency || k.staked.isSome
    | none => false
  match (if k.staked.isSome then none else k.guarded.find? can) with
  | some i => some i
  | none =>
    let reflex := (List.range 4).filterMap fun i => (s.ready c k i).bind (s.reflexKey i)
    match reflex with
    | x :: l => some (l.foldl (fun a b => if keyLt b a then b else a) x).2.2
    | [] =>
      match k.rrOrder.find? latency with
      | some i => some i
      | none => k.rrOrder.find? can

/-- A core and bank that can issue now. -/
def State.chooseIssue (s : State) : Option (Nat × Nat) :=
  s.cores.findSome? fun c => (s.chooseSlot c.1 c.2).map fun i => (c.1, c.2.bankOfSlot i)

/-! ### Words that complete in a context away from its core (R47, R270, R276) -/

/-- Word 0 of the parallel bundle at pc, and whether word 1 stays clear of the matrix engine. -/
def Thread.waitingPair (t : Thread) : Option (Instr × Bool) :=
  match t.fetched with
  | none => none
  | some (a, b) =>
    let w0 := b.extractLsb' 0 32
    if t.pc != a || w0.getLsbD 31 || opOf w0 == 7 then none
    else match decodeCode (w0.extractLsb' 0 27) 0 with
      | .ok i => some (i, !isMatrixOp (opOf (b.extractLsb' 32 32)))
      | .error _ => none

/-- The reply to the one word that waits ends it: both words of a parallel bundle take effect (R55), or a trap is taken. -/
def Thread.endsAway (t : Thread) : Bool :=
  match t.pend with
  | [⟨0, _, some r⟩] => t.st == .ready && match t.waitingPair, t.waitingWord with
    | some (i, free), _ => (trapOn i r t).isSome || (free && (landsOn i r t).isSome)
    | none, some (i, _) => (trapOn i r t).isSome
    | none, none => false
  | _ => false

/-- A streaming or Saved context and bank whose word ends there. -/
def State.chooseAway (s : State) : Option (Nat × Nat) :=
  s.contexts.findSome? fun x => (x.2.core.banks.find? fun b => b.2.endsAway).map fun b => (x.1, b.1)

/-- The word of bank `b` of context `i` ends: the context stands in its core's place while it does. A word that does not end after all
waits for the restore. -/
def State.issueAway (s : State) (run : Instr → State → Out) (i b : Nat) : Out :=
  match mget s.contexts i with
  | none => .next s
  | some x =>
    let back (u : State) : State :=
      { u with
        contexts := mmod u.contexts i fun y => { y with core := u.core x.origin }
        cores := mset u.cores x.origin (s.core x.origin) }
    let e := (s.setCore x.origin x.core).enter x.origin b
    match issueHere run e with
    | .next t =>
      if t.stat != .held then .next (back (t.booked e).store)
      else .next { s with contexts := mmod s.contexts i fun y => { y with core := y.core.modBank b fun t => { t with fetched := none } } }
    | o => o

/-! ### What comes about by itself, and time -/

/-- Inputs that are due join the events in flight, in the order of the core's arbiter (R237). -/
def State.takeInputs (s : State) : State :=
  { s with
    agenda := (s.inputs.filter fun e => e.1 ≤ s.now).foldl (fun l e => insertEvent e.1 e.2 l) s.agenda
    inputs := s.inputs.filter fun e => s.now < e.1 }

/-- The arbiter of the event's core has taken an event in this cycle (R237). -/
def State.arbiterBusy (s : State) (e : Event) : Bool :=
  match e.arrival with
  | some a => (s.core a.1).arb == s.now + 1
  | none => false

/-- The first event of a list that is due and can be taken, and the list without it. -/
def State.firstDue (s : State) : List (Nat × Event) → Option (Event × List (Nat × Event))
  | [] => none
  | (t, e) :: l =>
    if s.now < t then none
    else if s.arbiterBusy e then (s.firstDue l).map fun r => (r.1, (t, e) :: r.2)
    else some (e, l)

/-- A core's arbiter takes the event (R237). -/
def State.arbitrate (s : State) (e : Event) : State :=
  match e.arrival with
  | some a => s.modCore a.1 fun k => { k with arb := s.now + 1 }
  | none => s

/-- An event that is due, of those in flight and the inputs. -/
def State.due (s : State) : Option (Event × State) :=
  let s := s.takeInputs
  (s.firstDue s.agenda).map fun r => (r.1, ({ s with agenda := r.2 } : State).arbitrate r.1)

/-- Budgets that have run out (R386) and bulk slots that have been Ready for 256 cycles (R38). -/
def State.trigger (s : State) : Option Event :=
  s.cores.findSome? fun c => c.2.banks.findSome? fun b =>
    let t := b.2
    match t.kind with
    | .reflex e _ =>
      let limit := ((mget s.front.reflex e).map fun r => bits r.image.toNat (8 * 0x14) 32).getD 0
      if t.st == .ready && limit ≤ t.budget && !t.overBudget && t.pend.isEmpty then some (.budgetExceeded c.1 b.1) else none
    | _ =>
      if t.st == .ready && !t.latency && 256 ≤ t.starve && c.2.staked.isNone && c.2.bankOfSlot (slotOf b.1) == b.1 &&
        !c.2.guarded.contains (slotOf b.1) then some (.starvationGuard c.1 (slotOf b.1)) else none

/-- The pins that let the module leave reset (R422). -/
def Pins.released (p : Pins) : Bool := p.pwrGood && p.perstN && p.modRstN

/-- Core cycles pass: Ready threads count them (R38, R386); of the thread that has issued in the first of them, `issued`, that
cycle does not count as one without issue. -/
def Thread.tick (d : Nat) (issued : Bool) (t : Thread) : Thread :=
  if t.st == .ready then { t with starve := t.starve + (if issued then d - 1 else d), budget := t.budget + d } else t

/-- Events whose time is a meridian time (R156, R385, R387, R407, R413, R219). -/
def isMeridian : Event → Bool
  | .reflexRelease _ _ => true
  | .deadlineMiss _ _ => true
  | .alarmFire _ => true
  | .heartbeatSend => true
  | .heartbeatMiss => true
  | .counterSnapshot => true
  | .leaseExpiry _ _ _ => true
  | _ => false

/-- Meridian time is slewed by `a` nanoseconds (R155); what is due at a meridian time comes with it. -/
def State.slewBy (s : State) (a : Int) : State :=
  if a = 0 then s
  else
    let shift (e : Nat × Event) : Nat × Event := if isMeridian e.2 then (((e.1 : Int) - a).toNat, e.2) else e
    { s with
      meridian := s.meridian + a, slew := s.slew - a
      agenda := (s.agenda.map shift).foldl (fun l e => insertEvent e.1 e.2 l) [] }

/-- The uncorrectable error `u` marks its 8 bytes poisoned where they lie; DRAM carries a check of each sector (R393). -/
def State.spoilAt (s : State) (u : Upset) : State :=
  let w := u.addr / 8
  match u.place with
  | .tcm c => s.setCore c { s.core c with tcm := (s.core c).tcm.spoilUnit u.addr }
  | .pad cl => s.setPad cl ((s.pad cl).spoilUnit u.addr)
  | .reflexStore => { s with reflexStore := s.reflexStore.spoilUnit u.addr }
  | .slice h => s.modHome h fun x =>
    let hit (c : Option Sector) : Option Sector := c.map fun c => { c with bad := poisonUnit c.bad (w % 4) }
    { x with lines := x.lines.map fun l =>
        if l.frame / 64 != u.addr / 64 then l
        else if u.addr % 64 < 32 then { l with lo := hit l.lo } else { l with hi := hit l.hi } }
  | .dram => { s with dramBad := [0, 1, 2, 3].foldl (fun b i => poisonUnit b (u.addr / 32 * 4 + i)) s.dramBad }
  | .lxm n b => { s with lxm := mmod s.lxm n fun l => { l with
      buffers := mmod l.buffers b fun x => { x with bad := poisonUnit x.bad w } } }
  | .l0d c => s.modCore c fun k => { k with l0d := k.l0d.map fun l =>
      if l.line = u.addr / 64 then { l with bad := poisonUnit l.bad (w % 8) } else l }
  | .l0i c => s.modCore c fun k => { k with l0i := k.l0i.map fun l =>
      if l.line = u.addr / 64 then { l with bad := poisonUnit l.bad (w % 8) } else l }
  | .elsewhere => s

/-- A bit error (R393): an SRAM's is counted, corrected or not (R403); one that ECC does not correct poisons its bytes. -/
def State.strike (s : State) (u : Upset) : State :=
  let s := if u.place == .dram then s else s.count u.unit (if u.corrected then ctrEccCorr else ctrEccUncorr)
  if u.corrected then s else s.spoilAt u

/-- The bit errors that are due fall (R393). -/
def State.upsetsFall (s : State) : State :=
  let due := s.upsets.filter fun u => u.1 ≤ s.now
  due.foldl (fun s u => s.strike u.2) { s with upsets := s.upsets.filter fun u => s.now < u.1 }

/-- Time passes until something is due; cycle by cycle while a thread is Ready or meridian time is slewed, by at most 1 ns a
core cycle. -/
def State.pass (s : State) : State :=
  let busy := s.slew != 0 || s.cores.any fun c => !c.2.halted && c.2.banks.any fun b => b.2.st == .ready
  let cycleEnd := s.now + 2 - s.phase
  let heads := (s.agenda.head?.map (·.1)).toList ++ (s.inputs.head?.map (·.1)).toList
  let next := heads.foldl min (heads.headD cycleEnd)
  let t := max (s.now + 1) (if busy then min cycleEnd next else next)
  let d := (t - s.front.cycle0) / 2 - (s.now - s.front.cycle0) / 2
  let s : State := { s with
    now := t
    cores := s.cores.map fun c => (c.1, { c.2 with banks := c.2.banks.map fun b =>
      (b.1, b.2.tick d (c.2.lastIssue == s.cycle + 1 && c.2.rr == slotOf b.1 + 1)) }) }
  let s := s.upsetsFall
  s.slewBy (if d = 0 then 0 else clampInt (-1) 1 s.slew)

/-- The module is in reset with its pins released: the boot sequence follows (R422). -/
def State.bootDue (s : State) : Bool := !s.front.booted && s.front.pins.released

/-! ### Placing a word -/

/-- The bundle that makes an opcode-table word the next to execute: a wide bundle as it stands; a word with S = 1 as word
0 of a serial bundle whose word 1 is NOP; a word with S = 0 as word 1 of a serial bundle whose word 0 is NOP. -/
def wordBundle (nbits w : Nat) : BitVec 64 × Bool :=
  let v := BitVec.ofNat 64 (w % 2 ^ nbits)
  let w0 := v.extractLsb' 0 32
  if isWideCode (w0.extractLsb' 0 27) then (v, false)
  else if w0.getLsbD 31 then (0#32 ++ w0, false)
  else (w0 ++ 0x80000000#32, true)

/-- R53, R164: the bundle at address 0 of program 1, thread 1 of which is Ready in bank 0 of core 0 of cluster 0. -/
def State.placeWord (s : State) (nbits w : Nat) : State :=
  let b := wordBundle nbits w
  let t : Thread := { prog := 1, serial := 1, pc := if b.2 then 4 else 0 }
  let k : Core := { banks := [(0, t)], l0i := [{ prog := 1, line := 0, locked := true, data := b.1.setWidth 512 }] }
  { s with cores := [(0, k)], agenda := [], inputs := [] }

end Sys2Proof.Machine
end

