-- ==== Sys2Proof/Machine/Operands.lean ====
section
/-! DEFINITION. Operand forms: immediates and offsets (R62), effective addresses (R186-R191), branch targets (R129-R135). -/

namespace Sys2Proof.Machine

/-- imm7 or imm15 as a signed 64-bit value (R62). -/
def simm {n : Nat} (i : BitVec n) : Word := i.signExtend 64

/-- ea = x[base] + SignExtend(off7) * size, wrapping at 2^64 (R186, R187). -/
def State.eaOff (s : State) (base : BitVec 5) (off : BitVec 7) (size : Nat) : Nat :=
  (s.x base + simm off * BitVec.ofNat 64 size).toNat

/-- ea = x[base], the O and A formats (R188, R193). -/
def State.eaReg (s : State) (base : BitVec 5) : Nat := (s.x base).toNat

/-- SPACE as a number. -/
def State.sp (s : State) : Nat := s.src.space.toNat

/-- FARSP as a number (R190). -/
def State.fsp (s : State) : Nat := s.src.farsp.toNat

/-- BundleAddr + SignExtend(off) * 8 as an unbounded integer (R129, R131, R133, R135). -/
def State.branchTo {n : Nat} (s : State) (off : BitVec n) : Int := s.bundle.toNat + off.toInt * 8

/-- The target of JR and JALR: x[a] + SignExtend(imm7) * 4 (R134). -/
def State.jumpTo (s : State) (a : BitVec 5) (imm : BitVec 7) : Int := (s.x a).toNat + imm.toInt * 4

/-- Transfer(t) of R129; `w` makes the instruction's writes, which happen only if the transfer does not trap. -/
def transfer (s : State) (t : Int) (w : State → State) : Res := checkTarget s t fun s a => .jump (w s) a

/-- The return address as a register value (R58). -/
def State.link (s : State) : Word := s.nextAddr.setWidth 64

end Sys2Proof.Machine
end

