-- ==== Sys2Proof/Machine/Scalar.lean ====
section
/-! DEFINITION. Scalar and control instructions (R124-R148). Each meaning writes its destination once, from sources as the
bundle found them. -/

namespace Sys2Proof.Machine

/-- x[d] := w. -/
def writeX (s : State) (d : BitVec 5) (w : Word) : Out := finish s (.ok (s.setX d w))

/-- x[d] := w, ready for words that issue at least `l` cycles later (R126). -/
def writeLater (s : State) (d : BitVec 5) (w : Word) (l : Nat) : Out :=
  let t := s.setX d w
  finish s (.ok { t with th := t.th.readyAt d.toNat (s.cycle + l) })

/-- A divide: it waits for the core's divider, and its result is ready after 20 cycles (R126). -/
def divide (s : State) (d : BitVec 5) (w : Word) : Out :=
  if s.cycle < s.co.divFree then finish s (.wait s)
  else
    let t := s.setX d w
    finish s (.ok { t with th := t.th.readyAt d.toNat (s.cycle + 20), co := { t.co with divFree := s.cycle + 20 } })

/-- p[d] := b. -/
def writeP (s : State) (d : BitVec 5) (b : Bool) : Out := finish s (.ok (s.setP d.toNat b))

/-- 1 or 0. -/
def boolWord (b : Bool) : Word := if b then 1 else 0

/-- Signed comparison (R131, R139). -/
def sless (a b : Word) : Bool := decide (a.toInt < b.toInt)

/-- Unsigned comparison. -/
def uless (a b : Word) : Bool := decide (a.toNat < b.toNat)

/-- A branch of R131 or R132: taken when `c` holds. -/
def branch (s : State) (c : Bool) (off : BitVec 9) : Out :=
  finish s (if c then transfer s (s.branchTo off) fun s => s else .ok s)

/-- NOP (R130). -/
def execNop (s : State) : Out := finish s (.ok s)

/-- BEQ (R131). -/
def execBeq (a b : BitVec 4) (off : BitVec 9) (s : State) : Out := branch s (s.x4 a == s.x4 b) off

/-- BNE (R131). -/
def execBne (a b : BitVec 4) (off : BitVec 9) (s : State) : Out := branch s (s.x4 a != s.x4 b) off

/-- BLT (R131). -/
def execBlt (a b : BitVec 4) (off : BitVec 9) (s : State) : Out := branch s (sless (s.x4 a) (s.x4 b)) off

/-- BGE (R131). -/
def execBge (a b : BitVec 4) (off : BitVec 9) (s : State) : Out := branch s (!sless (s.x4 a) (s.x4 b)) off

/-- BLTU (R131). -/
def execBltu (a b : BitVec 4) (off : BitVec 9) (s : State) : Out := branch s (uless (s.x4 a) (s.x4 b)) off

/-- BGEU (R131). -/
def execBgeu (a b : BitVec 4) (off : BitVec 9) (s : State) : Out := branch s (!uless (s.x4 a) (s.x4 b)) off

/-- BPT (R132). -/
def execBpt (a : BitVec 4) (off : BitVec 9) (s : State) : Out := branch s (s.p a.toNat) off

/-- BPF (R132). -/
def execBpf (a : BitVec 4) (off : BitVec 9) (s : State) : Out := branch s (!s.p a.toNat) off

/-- J (R133). -/
def execJ (off : BitVec 20) (s : State) : Out := finish s (transfer s (s.branchTo off) fun s => s)

/-- CALL (R133). -/
def execCall (off : BitVec 20) (s : State) : Out := finish s (transfer s (s.branchTo off) fun s => s.setX 1 s.link)

/-- JR (R134). -/
def execJr (a : BitVec 5) (imm : BitVec 7) (s : State) : Out := finish s (transfer s (s.jumpTo a imm) fun s => s)

/-- JALR (R134). -/
def execJalr (d a : BitVec 5) (imm : BitVec 7) (s : State) : Out := finish s (transfer s (s.jumpTo a imm) fun s => s.setX d s.link)

/-- A taken LOOP costs no cycle (R126). -/
def noDelay (s : State) : Out → Out
  | .next t => .next (if t.stat == .done then { t with th := { t.th with notBefore := s.th.notBefore } } else t)
  | o => o

/-- LOOP (R135): the test is made on x[a] - 1. -/
def execLoop (d a : BitVec 5) (imm : BitVec 7) (s : State) : Out :=
  let n := s.x a - 1
  if n = 0 then writeX s d n else noDelay s (finish s (transfer s (s.branchTo imm) fun s => s.setX d n))

/-- LIW (R136). -/
def execLiw (d : BitVec 5) (literal : BitVec 32) (s : State) : Out := writeX s d (literal.signExtend 64)

/-- LIWH (R136): the low half is unchanged. -/
def execLiwh (d : BitVec 5) (literal : BitVec 32) (s : State) : Out :=
  writeX s d (literal ++ (s.x d).extractLsb' 0 32)

/-- LUI (R137). -/
def execLui (d : BitVec 5) (imm : BitVec 15) (s : State) : Out := writeX s d (simm imm * 65536)

/-- ADDPC (R138). -/
def execAddpc (d : BitVec 5) (imm : BitVec 15) (s : State) : Out := writeX s d (s.bundle.setWidth 64 + simm imm * 8)

/-- ADD (R139). -/
def execAdd (d a b : BitVec 5) (s : State) : Out := writeX s d (s.x a + s.x b)

/-- SUB (R139). -/
def execSub (d a b : BitVec 5) (s : State) : Out := writeX s d (s.x a - s.x b)

/-- AND (R139). -/
def execAnd (d a b : BitVec 5) (s : State) : Out := writeX s d (s.x a &&& s.x b)

/-- OR (R139). -/
def execOr (d a b : BitVec 5) (s : State) : Out := writeX s d (s.x a ||| s.x b)

/-- XOR (R139). -/
def execXor (d a b : BitVec 5) (s : State) : Out := writeX s d (s.x a ^^^ s.x b)

/-- SLL (R139). -/
def execSll (d a b : BitVec 5) (s : State) : Out := writeX s d (s.x a <<< ((s.x b).toNat % 64))

/-- SRL (R139). -/
def execSrl (d a b : BitVec 5) (s : State) : Out := writeX s d (s.x a >>> ((s.x b).toNat % 64))

/-- SRA (R139). -/
def execSra (d a b : BitVec 5) (s : State) : Out := writeX s d ((s.x a).sshiftRight ((s.x b).toNat % 64))

/-- SLT (R139). -/
def execSlt (d a b : BitVec 5) (s : State) : Out := writeX s d (boolWord (sless (s.x a) (s.x b)))

/-- SLTU (R139). -/
def execSltu (d a b : BitVec 5) (s : State) : Out := writeX s d (boolWord (uless (s.x a) (s.x b)))

/-- MIN (R139). -/
def execMin (d a b : BitVec 5) (s : State) : Out := writeX s d (if sless (s.x b) (s.x a) then s.x b else s.x a)

/-- MAX (R139). -/
def execMax (d a b : BitVec 5) (s : State) : Out := writeX s d (if sless (s.x a) (s.x b) then s.x b else s.x a)

/-- MINU (R139). -/
def execMinu (d a b : BitVec 5) (s : State) : Out := writeX s d (if uless (s.x b) (s.x a) then s.x b else s.x a)

/-- MAXU (R139). -/
def execMaxu (d a b : BitVec 5) (s : State) : Out := writeX s d (if uless (s.x a) (s.x b) then s.x b else s.x a)

/-- ADDI (R140). -/
def execAddi (d a : BitVec 5) (imm : BitVec 7) (s : State) : Out := writeX s d (s.x a + simm imm)

/-- ANDI (R140). -/
def execAndi (d a : BitVec 5) (imm : BitVec 7) (s : State) : Out := writeX s d (s.x a &&& simm imm)

/-- ORI (R140). -/
def execOri (d a : BitVec 5) (imm : BitVec 7) (s : State) : Out := writeX s d (s.x a ||| simm imm)

/-- XORI (R140). -/
def execXori (d a : BitVec 5) (imm : BitVec 7) (s : State) : Out := writeX s d (s.x a ^^^ simm imm)

/-- SLLI (R140). -/
def execSlli (d a : BitVec 5) (imm : BitVec 6) (s : State) : Out := writeX s d (s.x a <<< imm.toNat)

/-- SRLI (R140). -/
def execSrli (d a : BitVec 5) (imm : BitVec 6) (s : State) : Out := writeX s d (s.x a >>> imm.toNat)

/-- SRAI (R140). -/
def execSrai (d a : BitVec 5) (imm : BitVec 6) (s : State) : Out := writeX s d ((s.x a).sshiftRight imm.toNat)

/-- SLTI (R140). -/
def execSlti (d a : BitVec 5) (imm : BitVec 7) (s : State) : Out := writeX s d (boolWord (sless (s.x a) (simm imm)))

/-- The signed quotient, rounded towards zero; -1 for b = 0, and the most negative value for the one overflow (R118). -/
def divS (a b : Word) : Word := if b = 0 then -1 else BitVec.ofInt 64 (a.toInt.tdiv b.toInt)

/-- The unsigned quotient; all ones for b = 0 (R118). -/
def divU (a b : Word) : Word := if b = 0 then -1 else BitVec.ofNat 64 (a.toNat / b.toNat)

/-- The signed remainder with the sign of a; a for b = 0 (R118). -/
def remS (a b : Word) : Word := if b = 0 then a else BitVec.ofInt 64 (a.toInt.tmod b.toInt)

/-- The unsigned remainder; a for b = 0 (R118). -/
def remU (a b : Word) : Word := if b = 0 then a else BitVec.ofNat 64 (a.toNat % b.toNat)

/-- MUL (R141). -/
def execMul (d a b : BitVec 5) (s : State) : Out := writeLater s d (s.x a * s.x b) 3

/-- MULH (R141). -/
def execMulh (d a b : BitVec 5) (s : State) : Out := writeLater s d (BitVec.ofInt 64 ((s.x a).toInt * (s.x b).toInt / 2 ^ 64)) 3

/-- MULHU (R141). -/
def execMulhu (d a b : BitVec 5) (s : State) : Out := writeLater s d (BitVec.ofNat 64 ((s.x a).toNat * (s.x b).toNat / 2 ^ 64)) 3

/-- DIV (R141). -/
def execDiv (d a b : BitVec 5) (s : State) : Out := divide s d (divS (s.x a) (s.x b))

/-- DIVU (R141). -/
def execDivu (d a b : BitVec 5) (s : State) : Out := divide s d (divU (s.x a) (s.x b))

/-- REM (R141). -/
def execRem (d a b : BitVec 5) (s : State) : Out := divide s d (remS (s.x a) (s.x b))

/-- REMU (R141). -/
def execRemu (d a b : BitVec 5) (s : State) : Out := divide s d (remU (s.x a) (s.x b))

/-- Leading zero bits; 64 for 0. -/
def leadingZeros (w : Word) : Nat := 64 - blen w.toNat

/-- Trailing zero bits; 64 for 0. -/
def trailingZeros (w : Word) : Nat := ((List.range 64).find? fun i => w.getLsbD i).getD 64

/-- One bits. -/
def popCount (w : Word) : Nat := ((List.range 64).filter fun i => w.getLsbD i).length

/-- Bytes in reverse order. -/
def byteSwap (w : Word) : Word := BitVec.ofNat 64 (ofBytes (toBytes 8 w.toNat).reverse)

/-- CLZ (R142). -/
def execClz (d a : BitVec 5) (s : State) : Out := writeX s d (BitVec.ofNat 64 (leadingZeros (s.x a)))

/-- CTZ (R142). -/
def execCtz (d a : BitVec 5) (s : State) : Out := writeX s d (BitVec.ofNat 64 (trailingZeros (s.x a)))

/-- POPC (R142). -/
def execPopc (d a : BitVec 5) (s : State) : Out := writeX s d (BitVec.ofNat 64 (popCount (s.x a)))

/-- BSWAP (R142). -/
def execBswap (d a : BitVec 5) (s : State) : Out := writeX s d (byteSwap (s.x a))

/-- ADDSH (R143). -/
def execAddsh (d a b : BitVec 5) (s : State) : Out := writeX s d (s.x a + (s.x b <<< 3))

/-- The field that PART extracts (R144). -/
def partField (a b : Word) : Word :=
  let pos := bits b.toNat 0 6
  let len := min (bits b.toNat 8 7) 64
  let f := bits a.toNat pos len
  if b.getLsbD 15 && 0 < len then sext len f else BitVec.ofNat 64 f

/-- PART (R144). -/
def execPart (d a b : BitVec 5) (s : State) : Out := writeX s d (partField (s.x a) (s.x b))

/-- SEL (R145). -/
def execSel (d a b : BitVec 5) (s : State) : Out := writeX s d (if s.x d ≠ 0 then s.x a else s.x b)

/-- PEQ (R146). -/
def execPeq (d a b : BitVec 5) (s : State) : Out := writeP s d (s.x a == s.x b)

/-- PNE (R146). -/
def execPne (d a b : BitVec 5) (s : State) : Out := writeP s d (s.x a != s.x b)

/-- PLT (R146). -/
def execPlt (d a b : BitVec 5) (s : State) : Out := writeP s d (sless (s.x a) (s.x b))

/-- PGE (R146). -/
def execPge (d a b : BitVec 5) (s : State) : Out := writeP s d (!sless (s.x a) (s.x b))

/-- PLTU (R146). -/
def execPltu (d a b : BitVec 5) (s : State) : Out := writeP s d (uless (s.x a) (s.x b))

/-- PGEU (R146). -/
def execPgeu (d a b : BitVec 5) (s : State) : Out := writeP s d (!uless (s.x a) (s.x b))

/-- PAND (R147). -/
def execPand (d a b : BitVec 5) (s : State) : Out := writeP s d (s.p a.toNat && s.p b.toNat)

/-- POR (R147). -/
def execPor (d a b : BitVec 5) (s : State) : Out := writeP s d (s.p a.toNat || s.p b.toNat)

/-- PXOR (R147). -/
def execPxor (d a b : BitVec 5) (s : State) : Out := writeP s d (s.p a.toNat != s.p b.toNat)

/-- PNOT (R147). -/
def execPnot (d a : BitVec 5) (s : State) : Out := writeP s d (!s.p a.toNat)

/-- MOVPW (R148). -/
def execMovpw (d : BitVec 5) (s : State) : Out := writeX s d ((s.src.pw ||| 1).setWidth 64)

/-- MOVWP (R148): PW[7:1] := x[a][7:1]. -/
def execMovwp (a : BitVec 5) (s : State) : Out :=
  finish s (.ok { s with th := { s.th with pw := (s.x a).setWidth 8 ||| 1 } })

end Sys2Proof.Machine
end

