-- ==== Sys2Proof/Machine/LoadStore.lean ====
section
/-! DEFINITION. Scalar loads and stores (R186-R190), atomics (R192-R195) and cache operations (R196-R201). -/

namespace Sys2Proof.Machine

/-! ### Loads and stores -/

/-- LD of `n` bytes, widened by `f` (R187). -/
def loadX (s : State) (sp ea n : Nat) (d : BitVec 5) (f : Nat → Word) : Res :=
  s.loadRes sp ea n fun v s => .ok (s.setX d (f v))

/-- The bytes ST writes: x[sd][8n-1:0] (R187). -/
def State.storeBytes (s : State) (d : BitVec 5) (n : Nat) : List Byte := toBytes n (s.x d).toNat

/-- A zero-extended value. -/
def zext64 (v : Nat) : Word := BitVec.ofNat 64 v

/-- LD8 (R187). -/
def execLd8 (d a : BitVec 5) (off : BitVec 7) (s : State) : Out := finish s (loadX s s.sp (s.eaOff a off 1) 1 d (sext 8))

/-- LD8U (R187). -/
def execLd8u (d a : BitVec 5) (off : BitVec 7) (s : State) : Out := finish s (loadX s s.sp (s.eaOff a off 1) 1 d zext64)

/-- LD16 (R187). -/
def execLd16 (d a : BitVec 5) (off : BitVec 7) (s : State) : Out := finish s (loadX s s.sp (s.eaOff a off 2) 2 d (sext 16))

/-- LD16U (R187). -/
def execLd16u (d a : BitVec 5) (off : BitVec 7) (s : State) : Out := finish s (loadX s s.sp (s.eaOff a off 2) 2 d zext64)

/-- LD32 (R187). -/
def execLd32 (d a : BitVec 5) (off : BitVec 7) (s : State) : Out := finish s (loadX s s.sp (s.eaOff a off 4) 4 d (sext 32))

/-- LD32U (R187). -/
def execLd32u (d a : BitVec 5) (off : BitVec 7) (s : State) : Out := finish s (loadX s s.sp (s.eaOff a off 4) 4 d zext64)

/-- LD64 (R187). -/
def execLd64 (d a : BitVec 5) (off : BitVec 7) (s : State) : Out := finish s (loadX s s.sp (s.eaOff a off 8) 8 d zext64)

/-- ST8 (R187). -/
def execSt8 (d a : BitVec 5) (off : BitVec 7) (s : State) : Out :=
  finish s (s.storeRes s.sp (s.eaOff a off 1) (s.storeBytes d 1) [])

/-- ST16 (R187). -/
def execSt16 (d a : BitVec 5) (off : BitVec 7) (s : State) : Out :=
  finish s (s.storeRes s.sp (s.eaOff a off 2) (s.storeBytes d 2) [])

/-- ST32 (R187). -/
def execSt32 (d a : BitVec 5) (off : BitVec 7) (s : State) : Out :=
  finish s (s.storeRes s.sp (s.eaOff a off 4) (s.storeBytes d 4) [])

/-- ST64 (R187). -/
def execSt64 (d a : BitVec 5) (off : BitVec 7) (s : State) : Out :=
  finish s (s.storeRes s.sp (s.eaOff a off 8) (s.storeBytes d 8) [])

/-- LDA32 (R188): an acquire; later words wait for its value at every scope (notes/assumptions/1.md). -/
def execLda32 (d a : BitVec 5) (_scope : BitVec 3) (s : State) : Out := finish s (loadX s s.sp (s.eaReg a) 4 d zext64)

/-- LDA64 (R188). -/
def execLda64 (d a : BitVec 5) (_scope : BitVec 3) (s : State) : Out := finish s (loadX s s.sp (s.eaReg a) 8 d zext64)

/-- STL32 (R188): a release. -/
def execStl32 (d a : BitVec 5) (_scope : BitVec 3) (s : State) : Out :=
  finish s (s.storeRes s.sp (s.eaReg a) (s.storeBytes d 4) [] true)

/-- STL64 (R188). -/
def execStl64 (d a : BitVec 5) (_scope : BitVec 3) (s : State) : Out :=
  finish s (s.storeRes s.sp (s.eaReg a) (s.storeBytes d 8) [] true)

/-- The register after `d` of a pair (R189, R194). -/
def nextReg (d : BitVec 5) : BitVec 5 := d + 1

/-- LDP (R189). -/
def execLdp (d a : BitVec 5) (off : BitVec 7) (s : State) : Out :=
  finish s (s.loadRes s.sp (s.eaOff a off 16) 16 fun v s =>
    .ok ((s.setX d (zext64 (v % 2 ^ 64))).setX (nextReg d) (zext64 (v / 2 ^ 64))))

/-- STP (R189). -/
def execStp (d a : BitVec 5) (off : BitVec 7) (s : State) : Out :=
  finish s (s.storeRes s.sp (s.eaOff a off 16) (s.storeBytes d 8 ++ s.storeBytes (nextReg d) 8) [])

/-- LDF64 (R190). -/
def execLdf64 (d a : BitVec 5) (off : BitVec 7) (s : State) : Out := finish s (loadX s s.fsp (s.eaOff a off 8) 8 d zext64)

/-- STF64 (R190). -/
def execStf64 (d a : BitVec 5) (off : BitVec 7) (s : State) : Out :=
  finish s (s.storeRes s.fsp (s.eaOff a off 8) (s.storeBytes d 8) [])

/-! ### Atomics -/

/-- An atomic with its ordering: the release part waits first; the acquire part is met since the word waits for its value. -/
def atomic (s : State) (ord : BitVec 2) (sp ea n : Nat) (op : MemOp) (v : BitVec 5) : Res :=
  s.atomicRes sp ea n op (ord.getLsbD 1) fun r s => .ok (s.setX v (zext64 r))

/-- AMO `fn` (R193). -/
def amo (fn : Nat) (v a : BitVec 5) (w : BitVec 1) (ord : BitVec 2) (s : State) : Out :=
  let wide := w == 1
  finish s (atomic s ord s.sp (s.eaReg a) (if wide then 8 else 4) (.amo fn wide (s.x v)) v)

/-- AMOADD (R193). -/
def execAmoadd (v a : BitVec 5) (w : BitVec 1) (ord : BitVec 2) (_scope : BitVec 3) (s : State) : Out := amo 0 v a w ord s

/-- AMOAND (R193). -/
def execAmoand (v a : BitVec 5) (w : BitVec 1) (ord : BitVec 2) (_scope : BitVec 3) (s : State) : Out := amo 1 v a w ord s

/-- AMOOR (R193). -/
def execAmoor (v a : BitVec 5) (w : BitVec 1) (ord : BitVec 2) (_scope : BitVec 3) (s : State) : Out := amo 2 v a w ord s

/-- AMOOR with v = 0, the fence form (R178): no access, no address trap; its release part waits for what came before, its
acquire part is met since reads wait for their values. Relaxed, it has no effect. -/
def execAmoorFence (_a : BitVec 5) (_w : BitVec 1) (ord : BitVec 2) (_scope : BitVec 3) (s : State) : Out :=
  finish s (if ord = 0 then .ok s else s.release fun s => .ok s)

/-- AMOXOR (R193). -/
def execAmoxor (v a : BitVec 5) (w : BitVec 1) (ord : BitVec 2) (_scope : BitVec 3) (s : State) : Out := amo 3 v a w ord s

/-- AMOMIN (R193). -/
def execAmomin (v a : BitVec 5) (w : BitVec 1) (ord : BitVec 2) (_scope : BitVec 3) (s : State) : Out := amo 4 v a w ord s

/-- AMOMAX (R193). -/
def execAmomax (v a : BitVec 5) (w : BitVec 1) (ord : BitVec 2) (_scope : BitVec 3) (s : State) : Out := amo 5 v a w ord s

/-- AMOMINU (R193). -/
def execAmominu (v a : BitVec 5) (w : BitVec 1) (ord : BitVec 2) (_scope : BitVec 3) (s : State) : Out := amo 6 v a w ord s

/-- AMOMAXU (R193). -/
def execAmomaxu (v a : BitVec 5) (w : BitVec 1) (ord : BitVec 2) (_scope : BitVec 3) (s : State) : Out := amo 7 v a w ord s

/-- AMOSWP (R193). -/
def execAmoswp (v a : BitVec 5) (w : BitVec 1) (ord : BitVec 2) (_scope : BitVec 3) (s : State) : Out := amo 8 v a w ord s

/-- CAS (R194). -/
def cas (wide : Bool) (v a : BitVec 5) (ord : BitVec 2) (s : State) : Out :=
  finish s (atomic s ord s.sp (s.eaReg a) (if wide then 8 else 4) (.cas wide (s.x v) (s.x (nextReg v))) v)

/-- CAS32 (R194). -/
def execCas32 (v a : BitVec 5) (ord : BitVec 2) (_scope : BitVec 3) (s : State) : Out := cas false v a ord s

/-- CAS64 (R194). -/
def execCas64 (v a : BitVec 5) (ord : BitVec 2) (_scope : BitVec 3) (s : State) : Out := cas true v a ord s

/-- AMOF `fn` (R195): W = 1 is the pair. -/
def amof (fn : Nat) (v a : BitVec 5) (w : BitVec 1) (ord : BitVec 2) (s : State) : Out :=
  let pair := w == 1
  finish s (atomic s ord s.sp (s.eaReg a) (if pair then 8 else 4) (.amof fn pair (s.x v)) v)

/-- AMOFADD (R195). -/
def execAmofadd (v a : BitVec 5) (w : BitVec 1) (ord : BitVec 2) (_scope : BitVec 3) (s : State) : Out := amof 0 v a w ord s

/-- AMOFMIN (R195). -/
def execAmofmin (v a : BitVec 5) (w : BitVec 1) (ord : BitVec 2) (_scope : BitVec 3) (s : State) : Out := amof 1 v a w ord s

/-- AMOFMAX (R195). -/
def execAmofmax (v a : BitVec 5) (w : BitVec 1) (ord : BitVec 2) (_scope : BitVec 3) (s : State) : Out := amof 2 v a w ord s

/-! ### Cache operations -/

/-- Send a request that no word waits for: a cache operation or a prefetch, at the home of a line. -/
def State.sendLine (s : State) (w : For) (sp ea : Nat) : Nat × State :=
  let i := s.fresh
  let s := i.2
  (i.1, ({ s with accs := mset s.accs i.1 (s.newAcc w sp (.probe false) 64 [ea / 64 * 64]) } : State).emitOwn 1
    (s.leg .virt sp ea) (.sliceRequest i.1))

/-- Issue cache operation `kind` on a line: what it covers has been performed, and earlier cache operations have completed, so that
an ICINV comes after the CWB of the line (R183). -/
def State.issueCacheOp (s : State) (kind sp ea : Nat) : Res :=
  if s.holdsBack || !s.th.cacheOps.isEmpty then .wait s
  else
    let r := s.sendLine (.cacheOp kind) sp ea
    .ok { r.2 with th := { r.2.th with cacheOps := r.1 :: r.2.th.cacheOps } }

/-- CWB and CINV of a translated line, which completes later; the thread's own queued stores to the line come first (R174). A space the
thread may not use holds no line of it. -/
def cacheOp (kind : Nat) (a : BitVec 5) (s : State) : Out :=
  let ea := (s.x a).toNat
  finish s (if onChip ea then .ok s
    else if s.noDram then trapR reflexDramAccess (s.x a)
    else if !s.spaceOk s.sp s.src.tenant || !isLocal s.sp then .ok s
    else if s.overlapsQueued s.sp (ea / 64 * 64) 64 then .wait s
    else s.issueCacheOp kind s.sp ea)

/-- CWB (R196, R201). -/
def execCwb (a : BitVec 5) (s : State) : Out := cacheOp 0 a s

/-- CINV (R197, R201). -/
def execCinv (a : BitVec 5) (s : State) : Out := cacheOp 1 a s

/-- cinv.rc (R197): records of the issuing core's record cache that lie in the line. -/
def execCinvRc (a : BitVec 5) (s : State) : Out :=
  let ea := (s.x a).toNat
  let hit (r : Nat × Nat × Nat × Line) : Bool := r.1 == s.sp && r.2.1 == s.src.tenant && r.2.2.1 / 64 == ea / 64
  finish s (.ok { s with co := { s.co with records := s.co.records.filter fun r => !hit r } })

/-- Invalidate a line without writing it back; each dirty sector may have been written back before (R197). -/
def State.discardLine (s : State) (sp ea : Nat) : State :=
  let h := s.homeOf sp ea
  let tenant := spaceTenant (s.spaceEntry sp)
  match (s.home h).lines.find? fun l => l.is false tenant sp (ea / 64) with
  | none => s
  | some l =>
    let i := s.drawn
    let j := i.2.drawn
    let s := j.2
    let keep (c : Option Sector) (b : Bool) : Option Sector := c.map fun c => if b then c else { c with dirty := false }
    let l' := { l with lo := keep l.lo (Config.pick i.1), hi := keep l.hi (Config.pick j.1) }
    (s.cleanLine h l').dropLine h l

/-- cinv.d (R197, R201): confirmed for writing, then discarded; the thread's own queued stores to the line come first (R174). -/
def execCinvD (a : BitVec 5) (s : State) : Out :=
  let ea := (s.x a).toNat
  let confirm (s : State) : Res := s.request s.sp (.probe true) 64 [ea / 64 * 64] .virt fun _ s =>
    .ok (s.onModule fun s => s.discardLine s.src.space.toNat ea)
  finish s (if onChip ea then .ok s
    else if s.noDram then trapR reflexDramAccess (s.x a)
    else s.access s.sp (ea / 64 * 64) 64 (.probe true) false (confirm s) fun _ => confirm s)

/-- PREF and PREF.SC (R198, R201); under a peer or host window, whose lines no cache of this module may hold (R163), nothing is fetched
(DEDUCED, notes/assumptions/106.md). -/
def prefetch (l0 : Bool) (a : BitVec 5) (s : State) : Out :=
  let ea := (s.x a).toNat
  finish s (if onChip ea then .ok s
    else if s.noDram then trapR reflexDramAccess (s.x a)
    else if !s.spaceOk s.sp s.src.tenant || !isLocal s.sp then .ok s
    else if !s.co.egressRoom s.now 1 then .wait s
    else .ok (s.sendLine (.prefetch l0) s.sp ea).2)

/-- PREF (R198). -/
def execPref (a : BitVec 5) (s : State) : Out := prefetch true a s

/-- PREF.SC (R198). -/
def execPrefSc (a : BitVec 5) (s : State) : Out := prefetch false a s

/-- ICINV (R199, R201): the instruction space is DRAM-backed, so such a core always traps. -/
def execIcinv (a : BitVec 5) (s : State) : Out :=
  let ea := (s.x a).toNat
  finish s (if s.noDram then trapR reflexDramAccess (s.x a)
    else if 2 ^ 40 ≤ ea then .ok s
    else s.issueCacheOp 3 s.src.prog ea)

/-- SYNCI (R200): waits for the thread's cache operations; the next word is fetched after it. -/
def execSynci (s : State) : Out := finish s (if s.th.cacheOps.isEmpty then .ok s else .wait s)

end Sys2Proof.Machine
end

