-- ==== Sys2Proof/Machine/MemoryEvents.lean ====
section
/-! DEFINITION. Accesses at their places: home slices (R165-R171, R186, R192, R206-R214), remote memories (R160, R192), peer
and host windows (R205, R219), page faults (R221-R224), the overflow handler (R171), and the power of a slice (R166). -/

namespace Sys2Proof.Machine

/-! ### Answers on their way back -/

/-- Half the latency of R168 from the core of an access to its place. -/
def State.legOf (s : State) (a : Acc) (ea : Nat) : Nat :=
  let r : Route := match winFor a.core ea with
    | some w => if onChip ea then .far w else .virt
    | none => .virt
  ({ s with cid := a.core } : State).leg r a.space ea

/-- A probe asks for the confirmation alone (R169, R191, R319). -/
def MemOp.isProbe : MemOp → Bool
  | .probe _ => true
  | .confirm => true
  | _ => false

/-- A plain write (R169: confirmed before it is acknowledged). -/
def MemOp.isPlainWrite : MemOp → Bool
  | .write _ _ => true
  | _ => false

/-- The thread's word waits for this access. -/
def For.isWord : For → Bool
  | .word _ => true
  | _ => false

/-- The access is done at one place: go on with the next, or send the confirmation and the reply after `extra` more fabric
cycles (R168, R169). -/
def State.accGot (s : State) (id : Nat) (a : Acc) (ea : Nat) (got : List Byte) (extra : Nat) : State :=
  let a := { a with todo := a.todo.drop 1, done := a.done ++ got }
  let s := { s with accs := mset s.accs id a }
  match a.todo with
  | next :: _ => s.post extra (if onChip next then .remoteAccess id else .sliceRequest id)
  | [] =>
    let d := s.legOf a ea
    let s := if onChip ea || !a.forWhom.isWord then s else s.post d (.confirmation id)
    if a.op.isProbe && a.forWhom.isWord then s
    else s.post (d + extra + if a.op.isAtomic then cyc 2 else 0) (.accessReply id)

/-- A consumption of poisoned data by the access's thread (R393). -/
def State.poisonFor (s : State) (a : Acc) : State := s.usePoison a.core a.who.prog (s.kindOf a.who)

/-! ### L0 fills (R163, R170, R171) -/

/-- Both sectors of a line as 64 bytes, read into the slice. -/
def State.lineData (s : State) (h : Nat) (t : Tlb) (ea : Nat) : Line × Bool × State :=
  let b := ea / 64 * 64
  let r := s.rdSlice h t b 32
  let q := r.2.2.rdSlice h t (b + 32) 32
  (BitVec.ofNat 512 (ofBytes (r.1 ++ q.1)), r.2.1 || q.2.1, q.2.2)

/-- Record core `c` as a sharer of a line; a fifth one overflows (R170, R171). -/
def State.share (s : State) (h : Nat) (l : SLine) (c : Nat) : State :=
  if l.sharers.contains c then s
  else if l.sharers.length < 4 then s.putLine h { l with sharers := c :: l.sharers }
  else (s.putLine h { l with overflowed := true }).post (cyc 6)
    (.overflowMessage h l.tenant l.space l.line (clusterOf c))

/-- A fill that no thread waits for (R198). -/
def For.isPrefetch : For → Bool
  | .prefetch _ => true
  | _ => false

/-- Fill the L0 data cache of the access's core, if the thread is still there or the line is prefetched (R198), the core may hold lines,
and the slice holds the line; at most 128 lines, the oldest leaves (R163). -/
def State.fillL0 (s : State) (h : Nat) (t : Tlb) (a : Acc) (ea : Nat) : State :=
  if isFront a.core || (!a.forWhom.isPrefetch && s.coreOf? a.who != some a.core) ||
      ((s.home h).imageAt t.space t.tenant (ea / 64)).isSome then s
  else
    let r := s.lineData h t ea
    let s := r.2.2
    match (s.home h).lines.find? fun l => l.is false t.tenant t.space (ea / 64) with
    | none => s
    | some l =>
      if r.2.1 then s
      else
        let n : L0Line := { space := t.space, tenant := a.tenant, line := ea / 64, writable := t.wr, data := r.1 }
        let s := s.modCore a.core fun k => { k with
          l0d := (n :: k.l0d.filter fun y => !(y.space == n.space && y.tenant == n.tenant && y.line == n.line)).take 128 }
        s.share h l a.core

/-! ### Performing an access at its home slice -/

/-- Read the bytes of an access at a slice; an access of 64 bytes lies in two sectors. -/
def State.rdAt (s : State) (h : Nat) (t : Tlb) (ea n : Nat) : List Byte × Bool × State :=
  if n ≤ 32 then s.rdSlice h t ea n
  else
    let r := s.rdSlice h t ea 32
    let q := r.2.2.rdSlice h t (ea + 32) (n - 32)
    (r.1 ++ q.1, r.2.1 || q.2.1, q.2.2)

/-- Write the bytes of an access at a slice. -/
def State.wrAt (s : State) (h : Nat) (t : Tlb) (ea : Nat) (d : List Byte) (m : List Bool) (w : Option Nat) : State :=
  if d.length ≤ 32 then s.wrSlice h t ea d m w
  else (s.wrSlice h t ea (d.take 32) [] w).wrSlice h t (ea + 32) (d.drop 32) [] w

/-- A weight-slot fill notes for each line the entry that covers it and its version; a poisoned line notes nothing, which
leaves the slot empty (R361, R372, R393). -/
def Acc.noteLine (a : Acc) (bad : Bool) (tag : Option (Nat × Nat)) : Acc :=
  match a.forWhom with
  | .fill _ _ _ _ => if bad then a else { a with tags := a.tags ++ [tag] }
  | _ => a

/-- The DRAM entry that covers an offset of a page, with its version, in the home's own copy (R372). -/
def State.coverTag (s : State) (h : Nat) (t : Tlb) (ea : Nat) : Option (Nat × Nat) :=
  if !t.hint then none
  else match mget (s.home h).regions t.region with
    | some r => if r.valid && r.space == t.space && r.base ≤ ea && ea < r.base + r.length then some (t.region, r.version) else none
    | none => none

/-- The reflex entry that covers an offset of the reflex store (R372). -/
def State.reflexTag (s : State) (off : Nat) : Option (Nat × Nat) :=
  ((s.home 32).regions.find? fun e => e.2.valid && e.2.base ≤ off && off < e.2.base + e.2.length).map fun e => (e.1, e.2.version)

/-- The access performed at home slice `h` through translation `t`, at once and whole (R165, R170, R192, R372, R393). -/
def State.performSlice (s : State) (id : Nat) (a : Acc) (h : Nat) (t : Tlb) (ea extra : Nat) : State :=
  match a.op with
  | .probe _ => s.accGot id a ea [] extra
  | .confirm => s.accGot id a ea [] extra
  | op =>
    let r := s.rdAt h t ea a.size
    let bad := r.2.1 && !op.isPlainWrite
    let a := a.noteLine bad (s.coverTag h t ea)
    let o := if bad then op.poisoned a.size else op.perform r.1
    let s := if bad then r.2.2.poisonFor a else r.2.2
    let writer := if a.forWhom == .store then some a.core else none
    let s := match o.1 with
      | some (d, m) =>
        let s := s.wrAt h t ea d m writer
        if writer.isSome then s.l0Store a.core a.space ea d m else s
      | none => match op with
        | .read => if a.forWhom == For.seq || a.forWhom.isWord then s.fillL0 h t a ea else s
        | _ => s
    s.accGot id a ea (match op with
      | .write _ _ => []
      | _ => o.2) extra

/-- A prefetch (R198): the line into the slice, and for the plain form into the L0 data cache. -/
def State.performPrefetch (s : State) (id : Nat) (a : Acc) (h : Nat) (t : Tlb) (ea : Nat) : State :=
  let s := { s with accs := mdel s.accs id }
  let s := if ((s.home h).imageAt t.space t.tenant (ea / 64)).isSome then s else (s.lineData h t ea).2.2
  match a.forWhom with
  | .prefetch true => s.fillL0 h t a ea
  | _ => s

/-- The L0 instruction cache after line `n` has come: 256 lines in all, the locked ones stay, the oldest of the others leaves
(R164, R390). -/
def Core.fillL0I (k : Core) (n : L0ILine) : Core :=
  let locked := k.l0i.filter (·.locked)
  let others := k.l0i.filter fun y => !y.locked && !(y.prog == n.prog && y.line == n.line)
  { k with l0i := locked ++ (n :: others).take (256 - locked.length) }

/-- A sector of an instruction line; one that is poisoned in the slice is fetched once more from DRAM (R393). -/
def State.textSector (s : State) (l : SLine) (hi : Bool) : Sector :=
  let c := s.sectorOf l hi
  if c.bad.isEmpty then c else s.sectorOf { l with lo := none, hi := none } hi

/-- An instruction line (R164, R212): into the slice's instruction copies and the L0 instruction cache of the thread's core;
text that is poisoned in DRAM too ends the program (R393). -/
def State.performFetch (s : State) (id : Nat) (a : Acc) (h : Nat) (t : Tlb) (ea extra : Nat) : State :=
  let l := s.lineOf h true t ea
  let lo := s.textSector l false
  let hi := s.textSector l true
  let s := s.putLine h { l with lo := some lo, hi := some hi }
  let s := if (s.sectorOf l false).bad.isEmpty && (s.sectorOf l true).bad.isEmpty then s else s.poisonFor a
  if !(lo.bad.isEmpty && hi.bad.isEmpty) then
    s.endProgram a.who.prog 0x19 (BitVec.ofNat 64 a.wordAddr)
  else
    let n : L0ILine := { prog := a.who.prog, line := ea / 64, locked := false, data := hi.data ++ lo.data }
    let s := if s.coreOf? a.who != some a.core then s
      else s.modCore a.core fun k => k.fillL0I n
    s.accGot id a ea [] extra

/-! ### Cache operations at the home (R196-R199) -/

/-- A line of the instruction space is mapped (R199, R212). -/
def State.mappedInstr (s : State) (cl p ea : Nat) : Bool :=
  ((mget s.ibuf cl).getD []).any (fun t => t.covers p t.tenant ea) || (match s.walkInstr p ea with
    | .leaf _ => true
    | .fail _ => false)

/-- CWB, CINV, ICINV on the line of an access: `kind` 0 cleans, 1 cleans and drops, 3 drops the instruction line and every
L0 copy of it; CWB and ICINV ignore a line that is not mapped (R196, R199), CINV takes whatever line the slice holds (R197). -/
def State.performCacheOp (s : State) (id : Nat) (a : Acc) (kind ea : Nat) : State :=
  let h := s.homeOf a.space ea
  let s := if kind = 3 then
      if !s.mappedInstr (clusterOf a.core) a.space ea then s else
      let s := s.modHome h fun x => { x with lines := x.lines.filter fun l => !(l.instr && l.space == a.space && l.line == ea / 64) }
      { s with cores := s.cores.map fun c =>
          (c.1, { c.2 with l0i := c.2.l0i.filter fun l => !(l.prog == a.space && l.line == ea / 64) }) }
    else if kind = 0 && (s.tlbHit h a.space ea).isNone && (s.leafOf a.space ea).isNone then s
    else match (s.home h).lines.find? fun l => l.is false (spaceTenant (s.spaceEntry a.space)) a.space (ea / 64) with
      | some l => if kind = 1 then (s.cleanLine h l).dropLine h l else s.cleanLine h l
      | none => s
  s.post (s.legOf a ea) (.cacheOpComplete id)

/-! ### Failed translations (R221) -/

/-- The access of number `id` has failed with `reason`. A prefetch is dropped (R198). -/
def State.failAcc (s : State) (id : Nat) (a : Acc) (ea reason : Nat) : State :=
  match a.forWhom with
  | .prefetch _ => { s with accs := mdel s.accs id }
  | w =>
    let kind := if w = .fetch then 3 else a.op.faultKind
    s.post (s.legOf a ea) (.translationFault
      { core := a.core, who := a.who, bank := a.bank, of_ := .access id, offset := ea, space := a.space, kind := kind
        reason := reason, tenant := a.tenant, word := a.wordAddr })

/-! ### Peer and host windows (R205, R219) -/

/-- The window descriptor's check: reason of the failure, if it fails. -/
def windowCheck (e : Nat × Nat) (n : Need) (ea : Nat) : Option Nat :=
  let rd := bit e.1 61
  let wr := bit e.1 62
  let ok := match n with | .read => rd | .write => wr | .atomic => rd && wr
  if !ok then some 1 else if bits e.1 0 32 * 0x10000 ≤ ea then some 4 else none

/-- Bytes that another machine answers with, each a free value. -/
def State.foreign (s : State) (f : Nat → Byte) : Nat → List Byte × State
  | 0 => ([], s)
  | n + 1 =>
    let i := s.drawn
    let r := i.2.foreign f n
    (f i.1 :: r.1, r.2)

/-- Fabric cycles of one access across the peer or host port. -/
def State.portTime (s : State) : Nat × State := (1 + Config.portDelay s.draw, { s with draw := s.draw + 1 })

/-- An access performed outside the module: what it returns is not the module's, what it writes leaves it; `f` are the bytes that the
other machine holds there. -/
def State.performAway (s : State) (id : Nat) (a : Acc) (ea : Nat) (f : Nat → Byte) : State :=
  let d := s.portTime
  match a.op with
  | .probe _ => d.2.accGot id a ea [] d.1
  | .confirm => d.2.accGot id a ea [] d.1
  | .write _ _ => d.2.accGot id a ea [] d.1
  | _ =>
    let r := d.2.foreign f (max a.size 8)
    let got := match a.op with
      | .read => r.1.take a.size
      | .amo _ false _ => toBytes 8 (sext32 (ofBytes (r.1.take 4)))
      | .cas false _ _ => toBytes 8 (sext32 (ofBytes (r.1.take 4)))
      | .amof _ false _ => r.1.take 4
      | _ => r.1.take (max a.size 8)
    r.2.accGot id a ea got d.1

/-- An access under a peer window: the descriptor, the port, the leased translation or a request for one, and the permission of
its leaf (R219). What the peer answers is a free value. -/
def State.peerAccess (s : State) (id : Nat) (a : Acc) (h ea : Nat) : State :=
  let e := s.spaceEntry a.space
  let there := (e.2 + ea) % 2 ^ 64
  let say (s : State) (m : PeerMsg) : State := s.modFront fun f => { f with peerOut := f.peerOut ++ [m] }
  match windowCheck e a.op.need ea with
  | some r => s.failAcc id a ea r
  | none =>
    if !s.front.linkUp then s.failAcc id a ea 5
    else match s.tlbHit h a.space ea with
      | some t =>
        if !t.permits a.op.need then s.failAcc id a ea 1
        else (say s (.access id (bits e.1 32 16) there a.size a.op)).performAway id a ea Config.peerByte
      | none =>
        let i := s.drawn
        let d := i.2.portTime
        let leaf := Config.peerLeaf i.1
        (say d.2 (.translate id (bits e.1 32 16) there)).post d.1
          (.peerTranslationReply id ((Config.peerFault i.1).map (·.val)) leaf.1 leaf.2.1 leaf.2.2.val)

/-- An access under a host window: its descriptor, which gives the PCIe address, is read at every access (R203, R220). A host that cannot
be reached is a page fault (R221); a load that the host answers with an error returns all ones and is counted (R186). -/
def State.hostAccess (s : State) (id : Nat) (a : Acc) (ea : Nat) : State :=
  let e := s.spaceEntry a.space
  match windowCheck e a.op.need ea with
  | some r => s.failAcc id a ea r
  | none =>
    let i := s.drawn
    let s := i.2
    if Config.hostDown i.1 then s.failAcc id a ea 5
    else if a.op.isProbe then s.performAway id a ea Config.hostByte
    else
      let s := s.modFront fun f => { f with hostOut := f.hostOut ++ [⟨(e.2 + ea) % 2 ^ 64, a.size, a.op⟩] }
      if a.op == .read && Config.hostFails i.1 then
        let d := s.countHost.portTime
        d.2.accGot id a ea (List.replicate a.size 0xFF) d.1
      else s.performAway id a ea Config.hostByte

/-! ### A request at its home slice (R213) -/

/-- A translated local access that has its translation; a write to an overflowed line is recalled first (R171). -/
def State.translated (s : State) (id : Nat) (a : Acc) (h : Nat) (t : Tlb) (ea extra : Nat) : State :=
  if !t.permits a.op.need then s.failAcc id a ea 1
  else
    let overflown := (s.home h).lines.any fun l => l.is false t.tenant t.space (ea / 64) && l.overflowed
    match a.forWhom with
    | .prefetch _ => s.performPrefetch id a h t ea
    | _ =>
      if overflown && a.op.isWrite && !a.op.isProbe then s.post (cyc 6) (.overflowRecall id)
      else s.performSlice id a h t ea extra

/-- Tenant of a program's instruction space (R212). -/
def State.instrTenant (s : State) (p : Nat) : Nat := bits (s.entry8 (bits s.front.iroot.toNat 20 26 * 2 ^ 20 + 16 * p)) 48 8

/-- The root entry of an instruction space is valid. -/
def State.instrRoot (s : State) (p : Nat) : Bool := bit (s.entry8 (bits s.front.iroot.toNat 20 26 * 2 ^ 20 + 16 * p)) 63

/-- A fetch at its home slice: the check of R206 against the tenant of the root entry, the cluster's translation buffer,
else the walk (R212). -/
def State.fetchRequest (s : State) (id : Nat) (a : Acc) (h ea : Nat) : State :=
  let p := a.who.prog
  if !s.instrRoot p || (a.tenant ≠ 0 && s.instrTenant p ≠ a.tenant) then
    s.answer a.who id (.trap spaceInvalid (BitVec.ofNat 64 p))
  else match ((mget s.ibuf (clusterOf a.core)).getD []).find? fun t => t.covers p (s.instrTenant p) ea with
    | some t => s.performFetch id a h t ea 0
    | none => let d := s.dramTime; d.2.post d.1 (.pageWalkComplete id)

/-- Serve access `id` at home slice `h`, which is awake. -/
def State.serveSlice (s : State) (id : Nat) (a : Acc) (h ea : Nat) : State :=
  match a.forWhom with
  | .cacheOp kind => s.performCacheOp id a kind ea
  | .fetch => s.fetchRequest id a h ea
  | _ =>
    if isHost a.space then s.hostAccess id a ea
    else if isPeer a.space then s.peerAccess id a h ea
    else match s.tlbHit h a.space ea with
      | some t => s.translated id a h t ea 0
      | none => let d := s.dramTime; d.2.post d.1 (.pageWalkComplete id)

/-- Access `id` arrives at its home slice; a gated slice is woken and the request waits (R166). -/
def State.sliceRequest (s : State) (id : Nat) : State :=
  match mget s.accs id with
  | none => s
  | some a =>
    let ea := a.todo.headD 0
    let h := s.homeOf a.space ea
    if (s.home h).power = .awake then s.serveSlice id a h ea else s.awaitWake h (.sliceRequest id)

/-- SLICE_REQUEST (R213). -/
def execSliceRequest (s : State) : Out :=
  match s.event with
  | .sliceRequest id => .next (s.sliceRequest id)
  | _ => .next s

/-- Enter a leaf in the instruction translation buffer of a cluster. Of 64 the one entered first leaves (R212; DESIGN CHOICE,
notes/assumptions/94.md). -/
def State.addIbuf (s : State) (cl : Nat) (t : Tlb) : State :=
  { s with ibuf := mset s.ibuf cl ((t :: (mget s.ibuf cl).getD []).take 64) }

/-- The walk of access `id` has ended (R207-R210, R212). -/
def State.walkDone (s : State) (id : Nat) : State :=
  match mget s.accs id with
  | none => s
  | some a =>
    let ea := a.todo.headD 0
    let h := s.homeOf a.space ea
    let d := s.dramTime
    if a.forWhom = .fetch then
      match s.walkInstr a.who.prog ea with
      | .fail r => s.failAcc id a ea r
      | .leaf t =>
        let cl := clusterOf a.core
        let s := d.2.orEntry t.entry 0x40
        let s := s.addIbuf cl t
        s.performFetch id a h t ea d.1
    else match s.walk a.space ea with
      | .fail r => s.failAcc id a ea r
      | .leaf t => if t.permits a.op.need then (d.2.addTlb h t).translated id a h t ea d.1 else s.failAcc id a ea 1

/-- PAGE_WALK_COMPLETE (R209). -/
def execPageWalkComplete (s : State) : Out :=
  match s.event with
  | .pageWalkComplete id => .next (s.walkDone id)
  | _ => .next s

/-! ### Remote memories (R160, R192) -/

/-- Read `n` bytes of a core's TCM at a place. -/
def State.rdTcmAt (s : State) (place off n : Nat) : List Byte × Bool :=
  let k := s.coreAt place
  (rdBytes k.tcm.bytes off n, k.tcm.poisoned off n)

/-- Scratchpad offset of eviction record `n` (R19). -/
def recordAt (n : Nat) : Nat := 0x1C0000 - (n + 1) * 0x13000

/-- Write a core's TCM at a place: at a core, or in a Saved image, with the undo log of the core it left (R401). -/
def State.wrTcmAt (s : State) (place off : Nat) (d : List Byte) (m : List Bool) : State :=
  match ctxOf? place with
  | none => s.wrTcm place off d m
  | some i =>
    match mget s.contexts i with
    | some x =>
      let r := tcmStore x.origin (x.core, s.pad x.cluster) off d m
      let s := { s with contexts := mset s.contexts i { x with core := r.1 } }
      let s := if x.core.undo.isSome then s.setPad x.cluster r.2 else s
      match x.record with
      | some n =>
        let p := s.pad x.cluster
        s.setPad x.cluster { p with bytes := wrMasked p.bytes (recordAt n + 0x6B00 + off) d m }
      | none => s
    | none => s

/-- An access performed at a scratch memory whose bytes are `old`. -/
def State.performAt (s : State) (id : Nat) (a : Acc) (ea : Nat) (old : List Byte × Bool)
    (put : State → List Byte → List Bool → State) : State :=
  let bad := old.2 && !a.op.isPlainWrite
  let a := a.noteLine bad (match window ea with
    | some (.rstore off) => s.reflexTag off
    | _ => none)
  let o := if bad then a.op.poisoned a.size else a.op.perform old.1
  let s := if bad then s.poisonFor a else s
  let s := match o.1 with
    | some (d, m) => put s d m
    | none => s
  s.accGot id a ea (match a.op with
    | .write _ _ => []
    | _ => o.2) 0

/-- A refused access returns 0 and writes nothing (R160). -/
def State.refuseAcc (s : State) (id : Nat) (a : Acc) (ea c : Nat) : State :=
  (s.count (unitRouter (clusterOf c)) ctrRefused).accGot id a ea (toBytes (max a.size 8) 0) 0

/-- The target router's check of R160: the occupying context belongs to the program, or the access is not at task level. A staked core on
which no thread has been placed has no occupying context, and refuses the staking program's accesses too (DESIGN CHOICE,
notes/assumptions/62.md). -/
def State.serves (s : State) (place : Nat) (a : Acc) : Bool := a.level != .task || (s.coreAt place).holds a.who.prog

/-- Line tag of on-chip structures: they have no space and no tenant. -/
def spaceOnChip : Nat := 0x10000

/-- A write to the reflex store: versions of covered regions (R372), images of active structures (R324, R346), bytes. -/
def State.wrReflex (s : State) (off : Nat) (d : List Byte) (m : List Bool) : State :=
  let s := s.bumpReflexRegions off d.length
  let ea := 0xFF04 * 2 ^ 48 + off
  if ((s.home 32).imageAt spaceOnChip 0 (ea / 64)).isSome then
    s.modHome 32 fun x => x.pokeImage spaceOnChip 0 (ea / 64) (ea % 64) d m
  else { s with reflexStore := s.reflexStore.write off d m }

/-- Read the reflex store. -/
def State.rdReflex (s : State) (off n : Nat) : List Byte × Bool :=
  let ea := 0xFF04 * 2 ^ 48 + off
  match (s.home 32).imageAt spaceOnChip 0 (ea / 64) with
  | some img => ((img.drop (ea % 64)).take n, false)
  | none => (rdBytes s.reflexStore.bytes off n, s.reflexStore.poisoned off n)

/-- A write to the TCM at a place goes to the undo log too, or the TCM is an image in an eviction record, while streams hold the
scratchpad (R46, R401). -/
def State.logBusy (s : State) (place : Nat) : Bool :=
  match ctxOf? place with
  | some i => match mget s.contexts i with
    | some x => s.padBusy x.cluster
    | none => false
  | none => (s.core place).undo.isSome && s.padBusy (clusterOf place)

/-- Access `id` arrives at a remote TCM, scratchpad or the reflex store. A scratchpad whose banks four streams hold is waited for (R46). -/
def State.remoteAccess (s : State) (id : Nat) : State :=
  match mget s.accs id with
  | none => s
  | some a =>
    let ea := a.todo.headD 0
    let atTcm (c off : Nat) : State :=
      let place := if a.level = .task then s.placeOf a.who.prog c else c
      if s.streaming place then s.keep (.remoteAccess id)
      else if ((ctxOf? place).isSome || a.op.isWrite) && s.logBusy place then s.post (cyc 1) (.remoteAccess id)
      else if s.serves place a then
        s.performAt id a ea (s.rdTcmAt place off a.size) fun s d m => s.wrTcmAt place off d m
      else s.refuseAcc id a ea c
    let atPad (cl off : Nat) : State :=
      let p := s.pad cl
      if s.padBusy cl then s.post (cyc 1) (.remoteAccess id) else
      s.performAt id a ea (rdBytes p.bytes off a.size, p.poisoned off a.size) fun s d m =>
        s.setPad cl ((s.pad cl).write off d m)
    match window ea with
    | some (.rstore off) => s.performAt id a ea (s.rdReflex off a.size) fun s d m => s.wrReflex off d m
    | some (.tcm c off) => atTcm c off
    | some (.pad cl off) => atPad cl off
    | some (.ownTcm off) => atTcm a.core off
    | some (.ownPad off) => atPad (clusterOf a.core) off
    | none => s

/-- REMOTE_ACCESS (R160). -/
def execRemoteAccess (s : State) : Out :=
  match s.event with
  | .remoteAccess id => .next (s.remoteAccess id)
  | _ => .next s

/-! ### Confirmation and reply (R168, R169) -/

/-- The home slice has confirmed access `id`: a word that waited only for this completes, a store staying outstanding. -/
def State.confirmed (s : State) (id : Nat) : State :=
  match mget s.accs id with
  | none => s
  | some a =>
    if a.op.isProbe then { s with accs := mdel s.accs id }.answer a.who id (.value 0)
    else if a.op.isPlainWrite then
      (s.modThread a.who fun t => { t with unacked := id :: t.unacked }).answer a.who id (.value 0)
    else s

/-- CONFIRMATION (R169). -/
def execConfirmation (s : State) : Out :=
  match s.event with
  | .confirmation id => .next (s.confirmed id)
  | _ => .next s

/-- The value of a queued vector load arrives in the context that holds its thread. -/
def State.seqGot (s : State) (w : Who) (id v : Nat) : State :=
  let upd (e : SeqEntry) : SeqEntry := if e.await = some id then { e with got := some v } else e
  s.modCoreOf w fun k => { k with
    seq := k.seq.map upd, vloop := k.vloop.map fun v => { v with rest := v.rest.map upd } }

/-- Drain the core a thread is on. -/
def State.drainOf (s : State) (w : Who) : State :=
  match s.coreOf? w with
  | some c => s.drain c
  | none => s

/-- Store `id` of the thread was confirmed before, and is outstanding. -/
def State.isUnacked (s : State) (w : Who) (id : Nat) : Bool :=
  match s.locateAny w with
  | some (p, b) => ((mget (s.coreAt p).banks b).map fun t => t.unacked.contains id).getD false
  | none => ((s.thread? w).map fun t => t.unacked.contains id).getD false

/-- The acknowledgement of store `id` has returned to its thread, and to the twin; queued words of both may go on (R395). -/
def State.ackedAndDrained (s : State) (w : Who) (id : Nat) : State :=
  let mate := ((mget s.pairs id).bind (·.twin)).bind fun j => (mget s.pairs j).map (·.who)
  let s := (s.acked w id).drainOf w
  match mate with
  | some v => s.drainOf v
  | none => s

/-- The reply of access `id` reaches its thread, wherever the context is (R47, R168, R182). -/
def State.replied (s : State) (id : Nat) : State :=
  match mget s.accs id with
  | none => s
  | some a =>
    let gone := { s with accs := mdel s.accs id }
    match a.forWhom with
    | .word _ =>
      if s.isUnacked a.who id then gone.ackedAndDrained a.who id
      else (gone.answer a.who id (.value (ofBytes a.done))).releaseIfDrained a.who
    | .store => gone.ackedAndDrained a.who id
    | .seq => (gone.seqGot a.who id (ofBytes a.done)).drainOf a.who
    | .fetch => gone.answer a.who id (.value 0)
    | .fill slot fill _ _ => s.post 0 (.slotFillComplete a.core slot fill)
    | .prefetch _ => gone
    | .cacheOp _ => gone

/-- ACCESS_REPLY (R168). -/
def execAccessReply (s : State) : Out :=
  match s.event with
  | .accessReply id => .next (s.replied id)
  | _ => .next s

/-- CWB, CINV or ICINV number `id` has completed (R196-R200). -/
def State.cacheOpDone (s : State) (id : Nat) : State :=
  match mget s.accs id with
  | none => s
  | some a =>
    { s with accs := mdel s.accs id }.modAny a.who fun t => { t with cacheOps := t.cacheOps.filter (· != id) }

/-- CACHE_OP_COMPLETE (R196). -/
def execCacheOpComplete (s : State) : Out :=
  match s.event with
  | .cacheOpComplete id => .next (s.cacheOpDone id)
  | _ => .next s

end Sys2Proof.Machine
end

