-- ==== Sys2Proof/Machine/FaultEvents.lean ====
section
/-! DEFINITION. Page faults and their replies (R221-R224), the overflow handler (R171), the power of a slice (R166), removing
translations (R215-R218), region updates along the same tree (R373), and peer translations (R219). -/

namespace Sys2Proof.Machine

/-! ### Fault messages (R221) -/

/-- The core that sends for the context of a place: a Saved context's cluster has its service core do so (R47, R224). -/
def State.senderOf (s : State) (place : Nat) : Nat :=
  match ctxOf? place with
  | some i => ((mget s.contexts i).map fun x => coreId x.cluster 16).getD 0
  | none => place

/-- The places that what was addressed to the context of core `c` may have come to: the core, a context that left it or that is Saved
in the cluster of a service core, and the cores its entries lead to (R43, R224). -/
def State.placesOf (s : State) (c : Nat) : List Nat :=
  c :: ((s.contexts.filter fun x => x.2.origin == c || isService c && x.2.cluster == clusterOf c).map fun x => ctxPlace x.1) ++
    ((s.core c).forwards.filter fun f => f.2.thread.isNone).map fun f => f.2.dest

/-- A failed fill leaves its slot empty (R361, R362). -/
def State.failFill (s : State) (a : Acc) : State :=
  match a.forWhom with
  | .fill slot n _ _ => s.modCore a.core fun k => { k with
      slots := mmod k.slots slot fun w => if w.state == .loading n then { w with state := .empty } else w }
  | _ => s

/-- The access of a thread that no longer runs is given up. -/
def State.dropAcc (s : State) (id : Nat) (a : Acc) : State :=
  (({ s with accs := mdel s.accs id } : State).failFill a).acked1 a.who id

/-- The next fault id of the core that a fault message names (R221). -/
def State.newFaultId (s : State) (c : Nat) : Nat × State :=
  let n := (s.core c).faultIds + 1
  (n, s.modCore c fun k => { k with faultIds := n })

/-- Fault `f` of a thread's access or fetch: a fault id of the core it names, the thread Blocked on its reply, the message to the
service core. An older fault of the same thread is answered first. -/
def State.threadFault (s : State) (f : FaultRec) (id : Nat) : State :=
  if (mget s.accs id).isNone && (mget s.qops id).isNone then s
  else
    match s.thread? f.who with
    | none => match mget s.accs id with
      | some a => s.dropAcc id a
      | none => { s with qops := mdel s.qops id }
    | some t =>
      if t.fault.isSome then s.post (cyc 64) (.translationFault f)
      else
        let place := match s.locate f.who with
          | some (.live c _) => c
          | some (.saved i _) => ctxPlace i
          | _ => f.core
        let i := s.newFaultId f.core
        (i.2.modThread f.who fun t => { t with fault := some (i.1, f), st := .blocked .faultReply, since := s.now }).mailFault
          (s.senderOf place) f i.1

/-- Fault `f` of copy `id`: the copy stops at the sector (R221, R281); a stream refill sets FAULT (R292). -/
def State.copyFault (s : State) (f : FaultRec) (id : Nat) : State :=
  match (s.placesOf f.core).find? fun p => ((mget (s.coreAt p).copies id).map (·.who)) == some f.who with
  | none => s
  | some p =>
    let i := s.newFaultId f.core
    let fid := i.1
    let s := i.2.modCoreAt p fun k => { k with
      copies := mmod k.copies id fun y => { y with state := 1, faultId := fid, fault := some f, busy := false }
      banks := k.banks.map fun b => (b.1, { b.2 with
        streams := b.2.streams.map fun e => if e.2.copy == id then (e.1, { e.2 with fault := true }) else e }) }
    s.mailFault (s.senderOf p) f fid

/-- TRANSLATION_FAULT (R221). -/
def execTranslationFault (s : State) : Out :=
  match s.event with
  | .translationFault f => .next (match f.of_ with
    | .access id => s.threadFault f id
    | .copy id => s.copyFault f id)
  | _ => .next s

/-- What fault `fid` of core `c` is among those of a context: of the thread in a bank, or of a copy. -/
def Core.faultOf (k : Core) (c fid : Nat) : Option (FaultRec × Option Nat) :=
  match k.banks.findSome? fun b => match b.2.fault with
    | some (i, f) => if i = fid ∧ f.core = c then some f else none
    | none => none with
  | some f => some (f, none)
  | none => k.copies.findSome? fun y =>
    if y.2.faultId = fid ∧ fid ≠ 0 then (y.2.fault.filter (·.core == c)).map fun f => (f, some y.1) else none

/-- The place where fault `fid` of core `c` is outstanding now (R224). -/
def State.faultPlace (s : State) (c fid : Nat) : Option Nat :=
  (s.placesOf c).find? fun p => ((s.coreAt p).faultOf c fid).isSome

/-- FAULT_MESSAGE_RESEND (R221, R224): the message is sent again while the fault is outstanding. -/
def execFaultMessageResend (s : State) : Out :=
  match s.event with
  | .faultMessageResend c fid => .next (
    let s := s.modCore c fun k => { k with keptFaults := k.keptFaults.filter (· != fid) }
    match s.faultPlace c fid with
    | some p => match (s.coreAt p).faultOf c fid with
      | some (f, _) => s.mailFault (s.senderOf p) f fid
      | none => s
    | none => s)
  | _ => .next s

/-! ### Fault replies (R222, R223) -/

/-- The reply of R222 as it is appended to a Saved context (R233). -/
def faultReply (fid code : Nat) (f : FaultRec × Option Nat) : Payload :=
  BitVec.ofNat 256 (fid % 2 ^ 32 + code * 2 ^ 32 + f.1.bank % 256 * 2 ^ 40 + (f.2.getD 0xFF) % 256 * 2 ^ 48)

/-- Entries of mailbox 1 that answer fault `fid` (R222). -/
def Core.repliesTo (k : Core) (fid : Nat) : List Payload := ((mget k.mail 1).getD []).filter fun b => bits b.toNat 0 32 == fid % 2 ^ 32

/-- The core that the fault of a context which a reply answers was raised on: the reply names the bank or the copy beside the fault id
(R221, R222). -/
def Core.faultCore (k : Core) (b : Payload) : Option Nat :=
  let fid := bits b.toNat 0 32
  let bank := bits b.toNat 40 8
  let copy := bits b.toNat 48 8
  let own (f : Nat → Bool) : Option Nat := k.banks.findSome? fun e => e.2.fault.bind fun x =>
    if x.1 = fid && f x.2.bank then some x.2.core else none
  let copied (f : Nat → Bool) : Option Nat := k.copies.findSome? fun y =>
    if y.2.faultId = fid && f y.1 then y.2.fault.map (·.core) else none
  if copy = 0xFF then (own (· == bank)).or (own fun _ => true) else (copied (· == copy)).or (copied fun _ => true)

/-- The core takes the reply to fault `fid` out of mailbox 1 (R273). -/
def Core.takeReply (k : Core) (fid : Nat) : Core :=
  { k with mail := mmod k.mail 1 fun l => l.filter fun b => bits b.toNat 0 32 != fid % 2 ^ 32 }

/-- The service core appends an arrival to the eviction record of a Saved context, which has room for it (R233). -/
def State.append (s : State) (i kind mb : Nat) (body : Payload) : State :=
  match mget s.contexts i with
  | none => s
  | some x =>
    let s : State := { s with contexts := mset s.contexts i { x with arrivals := x.arrivals ++ [(kind, mb, body)] } }
    match x.record with
    | some n =>
      let p := s.pad x.cluster
      let entry := toBytes 1 kind ++ toBytes 1 mb ++ toBytes 6 0 ++ toBytes 32 body.toNat
      s.setPad x.cluster { p with bytes := wrBytes p.bytes (recordAt n + 0x12B00 + 40 * x.arrivals.length) entry }
    | none => s

/-- Apply a fault reply at the place of the fault; one that lies in mailbox 1 of a core that is being vacated travels with its context
(R52), and a Saved context takes it among its arrivals (R45, R233); a reply that matches no outstanding fault is dropped and counted (R223). -/
def State.onReply (s : State) (c fid code : Nat) (act : State → Nat → FaultRec → Option Nat → State) : State :=
  match s.faultPlace c fid with
  | none => ((s.placesOf c).foldl (fun s p => s.modCoreAt p fun k => k.takeReply fid) s).count (unitCore c) ctrCmdBad
  | some p =>
    match (s.coreAt p).faultOf c fid with
    | none => s
    | some f =>
      if s.streaming p || (ctxOf? p).isSome then
        if !((s.coreAt p).repliesTo fid).isEmpty then s
        else match ctxOf? p with
          | some i =>
            if s.streaming p || s.arrivalsFull i then s.keep s.event
            else s.append i 2 1 (faultReply fid code f)
          | none => s.keep s.event
      else act (s.modCoreAt p fun k => k.takeReply fid) p f.1 f.2

/-- Try access `id` again from step 8 of R186, from the core its thread is on now (R223). -/
def State.retryAcc (s : State) (id : Nat) : State :=
  match mget s.accs id with
  | none => match mget s.qops id with
    | some o =>
      ({ s with qops := mset s.qops id { o with core := (s.coreOf? o.who).getD o.core } } : State).post (cyc 8)
        (.homeControllerOperation id none)
    | none => s
  | some a =>
    let a := { a with core := (s.coreOf? a.who).getD a.core }
    ({ s with accs := mset s.accs id a } : State).post (s.legOf a (a.todo.headD 0)) (.sliceRequest id)

/-- The copy of a fault loses its fault; a bound stream its FAULT bit. -/
def State.clearCopyFault (s : State) (p copy state : Nat) : State :=
  s.modCoreAt p fun k => { k with
    copies := mmod k.copies copy fun y => { y with state := state, faultId := 0, fault := none }
    banks := k.banks.map fun b => (b.1, { b.2 with
      streams := b.2.streams.map fun e => if e.2.copy == copy then (e.1, { e.2 with fault := false }) else e }) }

/-- RESUME: the access or fetch is tried again; a copy or refill goes on at the faulting sector. -/
def State.resumeFault (s : State) (p : Nat) (f : FaultRec) (copy : Option Nat) : State :=
  match copy, f.of_ with
  | some y, _ => (s.clearCopyFault p y 0).post 2 (.copySectorReply p y)
  | none, .access id => (s.modThread f.who fun t => { t with fault := none }.wake).retryAcc id
  | none, .copy _ => s

/-- FAULT_REPLY_RESUME (R223). -/
def execFaultReplyResume (s : State) : Out :=
  match s.event with
  | .faultReplyResume c fid => .next (s.onReply c fid 0 fun s p f y => s.resumeFault p f y)
  | _ => .next s

/-- FAULT_REPLY_RETRY_LATER (R223): the thread stays Blocked, the copy stopped, the fault outstanding. -/
def execFaultReplyRetryLater (s : State) : Out :=
  match s.event with
  | .faultReplyRetryLater c fid => .next (s.onReply c fid 1 fun s _ _ _ => s)
  | _ => .next s

/-- KILL of a thread's access: PAGE_FAULT_KILLED reaches the word that waits, or the thread before its next word when the
word had gone on (a store, a queued vector load, a slot fill, which leaves its slot empty). -/
def State.killAcc (s : State) (f : FaultRec) (id : Nat) : State :=
  let tr : Reply := .trap pageFaultKilled (BitVec.ofNat 64 f.offset)
  let s := s.modThread f.who fun t => { t with fault := none }.wake
  match mget s.accs id with
  | none => if (mget s.qops id).isSome then { s with qops := mdel s.qops id }.answer f.who id tr else s
  | some a =>
    let late (s : State) : State :=
      s.modThread f.who fun t => { t with pend := ⟨3, id, some tr⟩ :: t.pend, unacked := t.unacked.filter (· != id) }
    match a.forWhom with
    | .word _ => if s.isUnacked a.who id then late s else { s with accs := mdel s.accs id }.answer a.who id tr
    | .fetch => { s with accs := mdel s.accs id }.answer a.who id tr
    | .seq => late (s.modCoreOf f.who fun k => { k with seq := k.seq.filter fun e => e.await != some id })
    | .fill _ _ _ _ => late (s.failFill a)
    | _ => late s

/-- KILL of a copy (R281): it ends with status KILLED; a killed stream is marked (R223, R292). -/
def State.killCopy (s : State) (p copy : Nat) : State :=
  let s := s.clearCopyFault p copy 3
  let s := s.modCoreAt p fun k => { k with
    copies := mmod k.copies copy fun y => { y with status := 1 }
    banks := k.banks.map fun b => (b.1, { b.2 with
      streams := b.2.streams.map fun e => if e.2.copy == copy then (e.1, { e.2 with killed := true }) else e }) }
  match mget (s.coreAt p).copies copy with
  | some { work := .stream _, .. } => s
  | _ => s.post 2 (.copyCompletion p copy)

/-- FAULT_REPLY_KILL (R223). -/
def execFaultReplyKill (s : State) : Out :=
  match s.event with
  | .faultReplyKill c fid => .next (s.onReply c fid 2 fun s p f y => match y, f.of_ with
    | some y, _ => s.killCopy p y
    | none, .access id => s.killAcc f id
    | none, .copy _ => s)
  | _ => .next s

/-! ### The overflow handler (R171) -/

/-- Invalidate a line in all 17 cores of the clusters named. -/
def State.dropInClusters (s : State) (sp line : Nat) (l : List Nat) : State := s.dropL0 sp line fun c => l.contains (clusterOf c)

/-- Clear a line's overflow bit; its copies in clusters `cls` are gone, and the pointers to others stay. -/
def State.clearOverflowBit (s : State) (h : Nat) (key : Nat × Nat × Nat) (cls : List Nat) : State :=
  s.modHome h fun x => { x with lines := x.lines.map fun (l : SLine) =>
    if (l.is false key.1 key.2.1 key.2.2) then
      { l with overflowed := false, sharers := l.sharers.filter fun c => !cls.contains (clusterOf c) } else l }

/-- Note cluster `cl` for a line; a full table first recalls its oldest entry (R171). -/
def State.overflowNote (s : State) (h : Nat) (key : Nat × Nat × Nat) (cl : Nat) : State :=
  let c := coreId h 16
  let tbl := (s.core c).overflow
  if tbl.any (fun e => e.1 == key) then
    s.modCore c fun k => { k with overflow := tbl.map fun e => if e.1 == key && !e.2.contains cl then (e.1, cl :: e.2) else e }
  else
    let s := match tbl with
      | (old, cls) :: l =>
        if 2048 ≤ tbl.length then
          ((s.modCore c fun k => { k with overflow := l }).dropInClusters old.2.1 old.2.2 cls).clearOverflowBit h old cls
        else s
      | [] => s
    s.modCore c fun k => { k with overflow := k.overflow ++ [(key, [cl])] }

/-- OVERFLOW_MESSAGE (R171). -/
def execOverflowMessage (s : State) : Out :=
  match s.event with
  | .overflowMessage h tenant sp line cl => .next (s.overflowNote h (tenant, sp, line) cl)
  | _ => .next s

/-- The line key of an access. -/
def State.lineKey (s : State) (a : Acc) : Nat × Nat × Nat := (spaceTenant (s.spaceEntry a.space), a.space, a.todo.headD 0 / 64)

/-- OVERFLOW_RECALL (R171): the handler invalidates the line in every cluster of the mask (in all of them when a reset has
lost the entry, R231), frees the entry and answers the slice. -/
def execOverflowRecall (s : State) : Out :=
  match s.event with
  | .overflowRecall id => .next (match mget s.accs id with
    | none => s
    | some a =>
      let key := s.lineKey a
      let c := coreId (s.homeOf a.space (a.todo.headD 0)) 16
      let cls := (((s.core c).overflow.find? fun e => e.1 == key).map (·.2)).getD (List.range 34)
      ((s.dropInClusters key.2.1 key.2.2 cls).modCore c fun k => { k with
        overflow := k.overflow.filter fun e => e.1 != key }).post (cyc 6) (.overflowRecallAnswer id))
  | _ => .next s

/-- OVERFLOW_RECALL_ANSWER (R171): the slice clears the bit and goes on with the write. -/
def execOverflowRecallAnswer (s : State) : Out :=
  match s.event with
  | .overflowRecallAnswer id => .next (match mget s.accs id with
    | none => s
    | some a => (s.clearOverflowBit (s.homeOf a.space (a.todo.headD 0)) (s.lineKey a) []).sliceRequest id)
  | _ => .next s

/-! ### Power of a slice (R166) -/

/-- No thread is left on a cluster, and none has its context there (R428). -/
def State.clusterIdle (s : State) (cl : Nat) : Bool :=
  (s.cores.all fun c => clusterOf c.1 != cl || c.2.banks.isEmpty) && s.contexts.all fun x => x.2.cluster != cl

/-- SLICE_GATE (R166, R428): only the slice of an idle cluster, with empty tables and no overflow; every dirty line is written back and
nothing stays. -/
def execSliceGate (s : State) : Out :=
  match s.event with
  | .sliceGate h => .next (
    let x := s.home h
    if x.power ≠ .awake || !x.queues.isEmpty || !x.pools.isEmpty || !x.spilled.isEmpty ||
        x.lines.any (·.overflowed) || 32 ≤ h || !s.clusterIdle h then s
    else
      let s := x.lines.foldl (fun s l => (s.cleanLine h l).dropLine h l) s
      s.modHome h fun x => { x with lines := [], tlb := [], plru := [], power := .gated })
  | _ => .next s

/-- SLICE_WAKE (R166): up within 1,200 cycles. -/
def execSliceWake (s : State) : Out :=
  match s.event with
  | .sliceWake h => .next (
    if (s.home h).power ≠ .gated then s
    else (s.modHome h fun x => { x with power := .waking }).post (cyc 1200) (.sliceWakeComplete h))
  | _ => .next s

/-- SLICE_WAKE_COMPLETE (R166, R371): the region table comes from the parent, then the waiting requests are served in their
order. -/
def execSliceWakeComplete (s : State) : Out :=
  match s.event with
  | .sliceWakeComplete h => .next (
    let waiting := (s.home h).waking
    let s := (s.wakeNow h).modHome h fun x => { x with waking := [] }
    waiting.foldl (fun s e => s.post 0 e) s)
  | _ => .next s

/-! ### The tree of R217 -/

/-- Depth of a node below the root. -/
def treeDepth (c : Nat) : Nat := if c = 32 ∨ c = 33 then 8 else dist (c % 8) 3 + c / 8

/-- Start the request at the head of the root's queue. -/
def State.rootStart (s : State) : State :=
  match s.front.rootQ with
  | [] => s
  | .shoot _ :: _ =>
    let s := s.modFront fun f => { f with rootWait := List.range 34, skipped := 0 }
    (List.range 34).foldl (fun s c => s.post (cyc (2 * treeDepth c)) (.shootdownNode c)) s
  | .region id :: _ =>
    let s := s.modFront fun f => { f with rootWait := List.range 32 }
    (List.range 32).foldl (fun s c => s.post (cyc (2 * treeDepth c)) (.regionTableUpdate c id)) s

/-- A request reaches the root: served one at a time, in the order received (R217). -/
def State.rootPush (s : State) (r : RootOp) : State :=
  let idle := s.front.rootQ.isEmpty
  let s := s.modFront fun f => { f with rootQ := f.rootQ ++ [r] }
  if idle then s.rootStart else s

/-- A node has acknowledged; whether it was the last. -/
def State.rootAck (s : State) (c : Nat) : Bool × State :=
  let w := s.front.rootWait.filter (· != c)
  (w.isEmpty && !s.front.rootWait.isEmpty, s.modFront fun f => { f with rootWait := w })

/-- The head of the queue is done. -/
def State.rootNext (s : State) : State := (s.modFront fun f => { f with rootQ := f.rootQ.drop 1 }).rootStart

/-- SHOOTDOWN_DATA_RANGE (R215): the request reaches the root. -/
def execShootdownDataRange (s : State) : Out :=
  match s.event with
  | .shootdownDataRange r => .next (s.rootPush (.shoot r))
  | _ => .next s

/-- SHOOTDOWN_DATA_SPACE (R215). -/
def execShootdownDataSpace (s : State) : Out :=
  match s.event with
  | .shootdownDataSpace r => .next (s.rootPush (.shoot r))
  | _ => .next s

/-- SHOOTDOWN_INSTRUCTION_RANGE (R215). -/
def execShootdownInstructionRange (s : State) : Out :=
  match s.event with
  | .shootdownInstructionRange r => .next (s.rootPush (.shoot r))
  | _ => .next s

/-- SHOOTDOWN_INSTRUCTION_PROGRAM (R215). -/
def execShootdownInstructionProgram (s : State) : Out :=
  match s.event with
  | .shootdownInstructionProgram r => .next (s.rootPush (.shoot r))
  | _ => .next s

/-- SHOOTDOWN_EVERYTHING (R215). -/
def execShootdownEverything (s : State) : Out :=
  match s.event with
  | .shootdownEverything r => .next (s.rootPush (.shoot r))
  | _ => .next s

/-- Whether a data translation or line of `[a, a + n)` in space `sp` is named by a request (R215). -/
def shootNamesData (r : Shoot) (sp a n : Nat) : Bool :=
  match r.kind with
  | 0 => sp == r.subject && a < r.first + r.length && r.first < a + n
  | 1 => sp == r.subject
  | 4 => true
  | _ => false

/-- R216 at the node of cluster `c`. A kind that concerns instructions empties the slice's instruction copies, the cluster's instruction
translation buffer and its L0 instruction caches. -/
def State.shootNode (s : State) (r : Shoot) (c : Nat) : State :=
  let s :=
    if 32 ≤ c || (s.home c).power = .gated then s
    else
      let s := s.modHome c fun x => { x with tlb := x.tlb.filter fun t => !(shootNamesData r t.space t.page t.size) }
      let s := if r.keep then s
        else ((s.home c).lines.filter fun l => !l.instr && shootNamesData r l.space (64 * l.line) 64).foldl
          (fun s l => (s.cleanLine c l).dropLine c l) s
      if r.kind < 2 then s else s.modHome c fun x => { x with lines := x.lines.filter fun l => !l.instr }
  if r.kind < 2 then s
  else
    { s with
      ibuf := mdel s.ibuf c
      cores := s.cores.map fun k => if clusterOf k.1 = c then (k.1, { k.2 with l0i := [] }) else k }

/-- SHOOTDOWN_NODE (R216, R217). -/
def execShootdownNode (s : State) : Out :=
  match s.event with
  | .shootdownNode c => .next (match s.front.rootQ with
    | .shoot r :: _ =>
      let gated := c < 32 && (s.home c).power ≠ .awake
      let s := s.shootNode r c
      let s := if gated then s.modFront fun f => { f with skipped := f.skipped + 1 } else s
      let q := s.rootAck c
      if q.1 then q.2.post (cyc 20) .shootdownCompletion else q.2
    | _ => s)
  | _ => .next s

/-- SHOOTDOWN_COMPLETION (R218): the completion to the mailbox named; the next request starts. -/
def execShootdownCompletion (s : State) : Out :=
  match s.event with
  | .shootdownCompletion => .next (match s.front.rootQ with
    | .shoot r :: _ =>
      (s.mailFrom (coreId 3 31) r.core r.mb (toBytes 4 r.seq ++ toBytes 4 s.front.skipped) .firmware 0 5).rootNext
    | _ => s)
  | _ => .next s

/-! ### Region updates (R373) -/

/-- An entry is valid for another tenant. -/
def regionHeld (r : Region) (tenant : Nat) : Bool := r.valid && r.tenant != tenant && tenant != 0

/-- Write an entry; its version rises and never falls back. -/
def updateRegion (old : Region) (q : RegionReq) : Region :=
  match q.entry with
  | some e => { e with valid := true, tenant := q.tenant, version := (old.version + 1) % 2 ^ 32 }
  | none => { old with valid := false, version := (old.version + 1) % 2 ^ 32 }

/-- Entry `i` of a home's table. -/
def Home.region (h : Home) (i : Nat) : Region := (mget h.regions i).getD {}

/-- Change an entry of a home's table. -/
def Home.setRegion (h : Home) (q : RegionReq) : Home :=
  { h with regions := mset h.regions q.index (updateRegion (h.region q.index) q) }

/-- The update at a slice: the root's copy takes the new entry, every other awake slice the entry of the node above it, and a slice
that is not awake is skipped (R217, R373). -/
def State.regionNode (s : State) (c : Nat) (q : RegionReq) : State :=
  if c = 3 then s.modHome 3 fun h => h.setRegion q
  else if (s.home c).power ≠ .awake then s
  else s.modHome c fun h => { h with regions := mset h.regions q.index ((s.home (s.awakeParent 12 c)).region q.index) }

/-- The new version as the instruction's result: 32 bits, or −1. -/
def State.answerRegion (s : State) (id : Nat) (q : RegionReq) (v : Word) : State :=
  ((s.modFront fun f => { f with regionReqs := mdel f.regionReqs id }).post (cyc (6 + hops (clusterOf q.core) 3))
    (.homeControllerReply id none))
  |> fun s => { s with qops := mmod s.qops id fun o => { o with reply := some (.value v.toNat) } }

/-- REGION_TABLE_UPDATE (R373). Node 100 is the root as it takes a request for the DRAM table, 0-31 a slice's copy, 32 the
reflex-store controller with the only copy of the reflex table. -/
def execRegionTableUpdate (s : State) : Out :=
  match s.event with
  | .regionTableUpdate node id => .next (match mget s.front.regionReqs id with
    | none => s
    | some q =>
      if node = 100 then s.rootPush (.region id)
      else
        let old := ((mget (s.home node).regions q.index).getD {})
        if node = 32 then
          if regionHeld old q.tenant then s.answerRegion id q (-1)
          else (s.modHome 32 fun h => h.setRegion q).answerRegion id q (BitVec.ofNat 64 ((old.version + 1) % 2 ^ 32))
        else
          let held := regionHeld ((mget (s.home 3).regions q.index).getD {}) q.tenant && s.front.rootWait.length = 32
          if held then
            ((s.modFront fun f => { f with rootWait := [] }).unpost (isRegionOf id)).answerRegion id q (-1) |>.rootNext
          else
            let a := (s.regionNode node q).rootAck node
            if a.1 then
              (a.2.answerRegion id q (BitVec.ofNat 64 (((mget (a.2.home 3).regions q.index).getD {}).version))).rootNext
            else a.2)
  | _ => .next s
where
  /-- The remaining node updates of request `id`. -/
  isRegionOf (id : Nat) : Event → Bool
    | .regionTableUpdate n i => i == id && n < 32
    | _ => false

/-! ### Peer translations (R219) -/

/-- Bytes of a leaf's page (R207): 64 KiB, 512 MiB or 4 TiB. -/
def leafSize (k : Nat) : Nat := match k with | 0 => 2 ^ 16 | 1 => 2 ^ 29 | _ => 2 ^ 42

/-- A lease in nanoseconds: L is 10 to 1,000 microseconds (R219). -/
def leaseTime (l : Nat) : Nat := 1000 * max 10 (min 1000 l)

/-- Tell the peer. -/
def State.sayPeer (s : State) (m : PeerMsg) : State := s.modFront fun f => { f with peerOut := f.peerOut ++ [m] }

/-- The peer asks for a translation: the home slice walks and answers with the leaf. The peer holds it for its own L after the
answer has come, and its accesses are served for 10 microseconds more (R219, R220). -/
def State.lendPeer (s : State) (id sp off : Nat) : State :=
  let deny (r : Nat) : State := s.sayPeer (.translation id (some r) false false 0 s.front.peerLease)
  if !isLocal sp || !spaceValid (s.spaceEntry sp) then deny 0
  else match s.walk sp off with
    | .fail r => deny r
    | .leaf t =>
      let stop := s.meridianNow + leaseTime s.front.peerLease + 10000
      let s := (s.orEntry t.entry 0x40).modFront fun f => { f with
        lent := (t, stop) :: f.lent.filter fun e => s.meridianNow < e.2 }
      s.sayPeer (.translation id none t.rd t.wr t.size s.front.peerLease)

/-- The frame of a lent page is still the one that this module reads at the offset: as the slice has cached the line, else as the
tables map it now. -/
def State.sameFrame (s : State) (h : Nat) (t : Tlb) (ea : Nat) : Bool :=
  match (s.home h).lines.find? fun l => l.is false t.tenant t.space (ea / 64) with
  | some l => l.frame == t.phys (ea / 64 * 64)
  | none => ((s.leafOf t.space ea).map fun u => u.phys ea) == some (t.phys ea)

/-- Read `n` bytes of the frame of a lent page in DRAM, at most two sectors of it, and whether any is poisoned. -/
def State.rdFrame (s : State) (t : Tlb) (ea n : Nat) : List Byte × Bool :=
  let a := t.phys ea
  let b := a / 32 * 32
  let two := (s.dramSector b t.key).toNat + (s.dramSector (b + 32) t.key).toNat * 2 ^ 256
  (toBytes n (bits two (8 * (a - b)) (8 * n)), (List.range ((a + n - 1) / 8 + 1 - a / 8)).any fun i => s.dramBad.contains (a / 8 + i))

/-- Write bytes of the frame of a lent page in DRAM, sector by sector. -/
def State.wrFrame (s : State) (t : Tlb) (ea : Nat) (d : List Byte) (m : List Bool) : State :=
  let k := 32 - t.phys ea % 32
  if d.length ≤ k then s.pokeDram (t.phys ea) t.key d m
  else (s.pokeDram (t.phys ea) t.key (d.take k) (m.take k)).pokeDram (t.phys ea + k) t.key (d.drop k) (m.drop k)

/-- The peer's access, performed by its home slice here under a translation whose lease is in force. Where the page has been mapped
to another frame since, the access reads or writes the old frame (R186, R219, R220). -/
def State.servePeer (s : State) (id sp off n : Nat) (op : MemOp) : State :=
  match s.front.lent.find? fun e => s.meridianNow < e.2 && e.1.covers sp e.1.tenant off with
  | none => s.sayPeer (.accessReply id (some 0) [])
  | some (t, _) =>
    if !t.permits op.need then s.sayPeer (.accessReply id (some 1) [])
    else
      let h := s.homeOf sp off
      let here := s.sameFrame h t off
      let old := s.rdFrame t off n
      let r := if here then s.rdAt h t off n else (old.1, old.2, s)
      let o := if r.2.1 && !op.isPlainWrite then op.poisoned n else op.perform r.1
      let s := match o.1 with
        | some (d, m) => if here then r.2.2.wrAt h t off d m none else r.2.2.wrFrame t off d m
        | none => r.2.2
      s.sayPeer (.accessReply id none (if op.isPlainWrite then [] else o.2))

/-- PEER_TRANSLATION_REQUEST (R219): a request of the peer that finds its home slice gated wakes it and waits (R166). -/
def execPeerTranslationRequest (s : State) : Out :=
  match s.event with
  | .peerTranslationRequest id sp off what => .next (
    let h := s.homeOf sp off
    if (s.home h).power ≠ .awake then s.awaitWake h s.event
    else match what with
      | none => s.lendPeer id sp off
      | some (n, op) => s.servePeer id sp off n op)
  | _ => .next s

/-- The home slice of an offset under a peer window caches the page of `size` bytes that the peer has lent, for this module's own L:
the offsets of the window that lie in that page (R219). -/
def State.takeLease (s : State) (sp ea : Nat) (rd wr : Bool) (size : Nat) : State :=
  let h := s.homeOf sp ea
  let n := leafSize size
  let before := min ea (((s.spaceEntry sp).2 + ea) % n)
  let page := ea - before
  let stop := s.meridianNow + leaseTime s.front.lease
  let t : Tlb := { tenant := spaceTenant (s.spaceEntry sp), space := sp, page := page
                   size := n - ((s.spaceEntry sp).2 + ea) % n + before, frame := 0
                   rd := rd, wr := wr, hint := false, pinned := false, region := 0, key := 0, entry := 0, lease := some stop }
  (s.modHome h fun x => { x with tlb := (t :: x.tlb).take 1024 }).postAt stop (.leaseExpiry h sp page)

/-- PEER_TRANSLATION_REPLY (R219): a failure is the access's fault; else the slice caches the page for the lease and performs the
access. -/
def execPeerTranslationReply (s : State) : Out :=
  match s.event with
  | .peerTranslationReply id reason rd wr size => .next (match mget s.accs id with
    | none => s
    | some a =>
      let ea := a.todo.headD 0
      match reason with
      | some r => s.failAcc id a ea r
      | none =>
        (s.takeLease a.space ea rd wr size).sliceRequest id)
  | _ => .next s

/-- LEASE_EXPIRY (R219). -/
def execLeaseExpiry (s : State) : Out :=
  match s.event with
  | .leaseExpiry h sp page => .next (s.modHome h fun x => { x with tlb := x.tlb.filter fun t =>
      !(t.space == sp && t.page == page && (match t.lease with | some e => decide (e ≤ s.meridianNow) | none => false)) })
  | _ => .next s

end Sys2Proof.Machine
end

