-- ==== Sys2Proof/Machine/System.lean ====
section
/-! DEFINITION. CSR access (R71-R77, R123, R149, R150, R204, R225, R227, R239, R248, R272, R290, R294, R355), traps, return
and halt (R151-R154), time and alarms (R155-R157). -/

namespace Sys2Proof.Machine

/-! ### Values of the CSRs -/

/-- TSTATUS (R225). -/
def TrapBank.status (k : TrapBank) : Word :=
  BitVec.ofNat 64 (k.pwsave.toNat + (match k.level with | .task => 0 | .service => 1 | .firmware => 2) * 2 ^ 16 +
    (if k.held then 2 ^ 31 else 0))

/-- Register `i` of a trap bank, in the order of R225. -/
def TrapBank.reg (k : TrapBank) (i : Nat) : Word :=
  match i with
  | 0 => k.status
  | 1 => k.cause.setWidth 64
  | 2 => k.tval
  | 3 => k.tepc.setWidth 64
  | 4 => k.tvec.setWidth 64
  | _ => k.scratch

/-- Store register `i` of a trap bank; reserved and RO fields keep their values. -/
def TrapBank.setReg (k : TrapBank) (i : Nat) (w : Word) : TrapBank :=
  match i with
  | 0 => { k with pwsave := w.setWidth 8 }
  | 1 => { k with cause := w.setWidth 8 }
  | 2 => { k with tval := w }
  | 3 => { k with tepc := w.setWidth 40 }
  | 4 => { k with tvec := w.setWidth 40 }
  | _ => { k with scratch := w }

/-- STRMST (R290). -/
def Thread.strmst (t : Thread) : Word :=
  BitVec.ofNat 64 (t.streams.foldl (fun n e =>
    let k := e.1 - 20
    n + 2 ^ k + (if e.2.write then 2 ^ (4 + k) else 0) + (if e.2.killed then 2 ^ (8 + k) else 0) +
      (if e.2.fault then 2 ^ (12 + k) else 0)) 0)

/-- A write of STRMST's KILLED field (R290). -/
def Thread.setStrmst (t : Thread) (w : Word) : Thread :=
  { t with streams := t.streams.map fun (e : Nat × Stream) => (e.1, { e.2 with killed := w.getLsbD (8 + (e.1 - 20)) }) }

/-- MBOXSTAT (R272). -/
def Core.mboxstat (k : Core) : Word :=
  BitVec.ofNat 64 (k.mail.foldl (fun n e => if e.1 = 1 ∨ e.1 = 14 then n else n + e.2.length * 16 ^ e.1) 0)

/-- CSR `n` as it reads; fields outside a register's layout read 0. -/
def State.csr (s : State) (n : Nat) : Word :=
  let t := s.src
  match n with
  | 0x000 => (t.pw ||| 1).setWidth 64
  | 0x001 => t.space.setWidth 64
  | 0x002 => t.farsp.setWidth 64
  | 0x003 => t.vconf
  | 0x004 => t.strmst
  | 0x005 => t.id s.bank
  | 0x006 => BitVec.ofNat 64 (t.tenant % 256)
  | 0x007 => boolWord (t.latency || s.co.staked.isSome)
  | 0x100 => BitVec.ofNat 64 s.cid
  | 0x101 => s.co.linkcfg
  | 0x102 => s.co.mboxstat
  | 0x103 => BitVec.ofNat 64 s.cycle
  | 0x104 => t.planbase
  | 0x105 => t.gangid
  | 0x106 => s.co.mconf
  | 0x300 => s.front.iroot
  | 0x301 => s.front.droot
  | 0x400 => BitVec.ofNat 64 (0x20000 + s.co.table % 2 ^ 16)
  | 0x401 => BitVec.ofNat 64 (t.profile % 2 ^ 16)
  | _ => if n / 16 = 0x21 then t.trap1.reg (n % 16) else t.trap0.reg (n % 16)

/-- The access columns of R71. -/
inductive CsrAccess where
  | none | ro | rw
  deriving DecidableEq, Repr

def csrAccess (lv : Level) (n : Nat) : CsrAccess :=
  if n ≤ 0x003 then .rw
  else if n = 0x004 ∨ n = 0x104 ∨ n = 0x105 then (if lv = .task then .ro else .rw)
  else if n = 0x006 then (if lv = .firmware then .rw else .ro)
  else if n = 0x101 ∨ (0x200 ≤ n ∧ n ≤ 0x205) then .rw
  else if 0x210 ≤ n ∧ n ≤ 0x215 ∨ n = 0x300 ∨ n = 0x301 then (if lv = .task then .none else .rw)
  else .ro

/-- The RW fields of a register that may be written (R72-R75, R204, R225, R239, R248, R290, R294). -/
def csrFields (n : Nat) : Word :=
  match n with
  | 0x000 => 0xFE
  | 0x001 => 0xFFFF
  | 0x002 => 0xFFFF
  | 0x003 => 0xF3F7F
  | 0x004 => 0xF00
  | 0x006 => 0xFF
  | 0x101 => 0xF
  | 0x104 => 0xFFE0
  | 0x105 => 0xFFFFFFFF3F3F
  | 0x300 => 0x3FFFFFF00000
  | 0x301 => 0x3FFFFFF00000
  | _ =>
    if n / 16 = 0x20 ∨ n / 16 = 0x21 then
      match n % 16 with
      | 0 => 0xFF
      | 1 => 0xFF
      | 3 => 0xFFFFFFFFFF
      | 4 => 0xFFFFFFFFFF
      | _ => 0xFFFFFFFFFFFFFFFF
    else 0

/-- Merge of R149: only the RW fields take the new value. -/
def csrMerge (n : Nat) (old w : Word) : Word := (old &&& ~~~csrFields n) ||| (w &&& csrFields n)

/-- R204: every translation cache, instruction translation buffer and L0 cache is flushed. A reflex core reads its text again from the
reflex store (R390). -/
def State.flushTranslations (s : State) : State :=
  let flush (k : Core) : Core := { k with l0d := [], l0i := [] }
  { s with
    homes := s.homes.map fun h => (h.1, { h.2 with
      tlb := [], lines := h.2.lines.map fun (l : SLine) => { l with sharers := [], overflowed := false } })
    ibuf := []
    cores := s.cores.map fun c => (c.1, flush c.2)
    co := flush s.co }

/-- Store a CSR; `w` has been merged. -/
def State.setCsr (s : State) (n : Nat) (w : Word) : State :=
  let t := s.th
  match n with
  | 0x000 => { s with th := { t with pw := w.setWidth 8 ||| 1 } }
  | 0x001 => { s with th := { t with space := w.setWidth 16 } }
  | 0x002 => { s with th := { t with farsp := w.setWidth 16 } }
  | 0x003 => { s with th := { t with vconf := w } }
  | 0x004 => { s with th := t.setStrmst w }
  | 0x006 => { s with th := { t with tenant := w.toNat % 256 } }
  | 0x101 => { s with co := { s.co with linkcfg := w } }
  | 0x104 => { s with th := { t with planbase := w } }
  | 0x105 => { s with th := { t with gangid := w } }
  | 0x300 => ({ s with front := { s.front with iroot := w } } : State).flushTranslations
  | 0x301 => ({ s with front := { s.front with droot := w } } : State).flushTranslations
  | _ =>
    if n / 16 = 0x20 then { s with th := { t with trap0 := t.trap0.setReg (n % 16) w } }
    else if n / 16 = 0x21 then { s with th := { t with trap1 := t.trap1.setReg (n % 16) w } }
    else s

/-! ### Checks and waits -/

/-- Vector-sequencer work of the issuing thread is not complete (R123, R150). -/
def State.seqBusy (s : State) : Bool :=
  s.co.seq.any (fun e => e.bank == s.bank && !e.fresh) || (s.co.vloop.map (·.bank)) == some s.bank

/-- A vector or matrix word of the issuing thread has still to complete and set its flags (R123). -/
def State.vconfBusy (s : State) : Bool := s.seqBusy || s.co.mx.any fun e => e.2 == s.bank && s.cycle < e.1

/-- The check of R227 on a nonzero value for TVEC of trap bank `b`; `none` when it passes. -/
def State.tvecCheck (s : State) (b : Nat) (v : Word) : Option (Nat × Word) :=
  if v.toNat % 8 ≠ 0 then some (targetMisaligned, v)
  else match s.walkInstr s.src.prog v.toNat with
    | .fail _ => some (handlerNotPinned, v)
    | .leaf e =>
      if !e.pinned then some (handlerNotPinned, v)
      else
        let ts := (s.src.trapBank b).scratch.toNat
        if onChip ts then none
        else match s.leafOf s.src.space.toNat ts with
          | some d => if d.pinned then none else some (handlerNotPinned, v)
          | none => some (handlerNotPinned, v)

/-- A write of CSR `n` with value `w` before the merge (R71, R149, R150, R227). -/
def csrWrite (s : State) (n : Nat) (w : Word → Word) : Res :=
  match csrAccess s.src.level n with
  | .none => trapR privilege s.rawWord
  | .ro => .ok s
  | .rw =>
    if (n = 0x003 ∧ s.vconfBusy) ∨ (n = 0x101 ∧ s.seqBusy) then .wait s
    else
      let old := s.csr n
      let v := csrMerge n old (w old)
      let isTvec := n = 0x204 ∨ n = 0x214
      match (if isTvec ∧ v ≠ 0 then s.tvecCheck (if n = 0x204 then 0 else 1) v else none) with
      | some (c, tv) => trapR c tv
      | none => .ok (s.setCsr n v)

/-- CSRR (R149). -/
def execCsrr (d : BitVec 5) (csr : BitVec 12) (s : State) : Out :=
  finish s (match csrAccess s.src.level csr.toNat with
    | .none => trapR privilege s.rawWord
    | _ =>
      if (csr.toNat = 0x003 ∧ s.vconfBusy) ∨ (csr.toNat = 0x106 ∧ s.co.mx.any (s.cycle < ·.1)) then .wait s
      else .ok (s.setX d (s.csr csr.toNat)))

/-- CSRW (R149). -/
def execCsrw (d : BitVec 5) (csr : BitVec 12) (s : State) : Out := finish s (csrWrite s csr.toNat fun _ => s.x d)

/-- CSRS (R149). -/
def execCsrs (d : BitVec 5) (csr : BitVec 12) (s : State) : Out := finish s (csrWrite s csr.toNat fun old => old ||| s.x d)

/-- CSRC (R149). -/
def execCsrc (d : BitVec 5) (csr : BitVec 12) (s : State) : Out :=
  finish s (csrWrite s csr.toNat fun old => old &&& ~~~(s.x d))

/-! ### Traps, return, halt -/

/-- TRAP (R151). -/
def execTrap (a : BitVec 5) (s : State) : Out := finish s (.trap softwareTrap (s.x a) (some s.nextAddr))

/-- TRAP.BRK (R151). -/
def execTrapBrk (a : BitVec 5) (s : State) : Out := finish s (.trap breakpoint (s.x a) (some s.selfAddr))

/-- TRET (R152, R229). -/
def execTret (s : State) : Out :=
  finish s (match s.heldTrapBank with
    | none => trapR privilege s.rawWord
    | some b => transfer s (s.th.trapBank b).tepc.toNat fun s => s.leaveTrap b)

/-- HALT (R153). -/
def execHalt (s : State) : Out :=
  finish s (if s.src.level = .task then trapR privilege s.rawWord
    else
      let s := { s with co := { s.co with halted := true } }
      .ok (if clusterOf s.cid = 62 then s.modCore (coreId 62 (1 - coreNo s.cid)) fun k => { k with halted := true } else s))

/-! ### Time and alarms -/

/-- TIME (R155), ready after 4 cycles (R126). -/
def execTime (d : BitVec 5) (s : State) : Out := writeLater s d (BitVec.ofNat 64 s.meridianNow) 4

/-- Is it the alarm of this thread? -/
def isAlarmOf (w : Who) : Event → Bool
  | .alarmFire v => v == w
  | _ => false

/-- TALARM (R156). -/
def execTalarm (d a b : BitVec 5) (s : State) : Out :=
  let was := boolWord s.th.alarm.isSome
  let t := (s.x a).toNat
  let mb := (s.x b).toNat
  let w := s.th.who
  if t = 0 then
    let s' := ({ s with th := { s.th with alarm := none, alarmOn := none } } : State).unpost (isAlarmOf w)
    finish s (.ok (s'.setX d was))
  else if mb < 2 ∨ 13 < mb then writeX s d 2
  else
    let s' := (({ s with th := { s.th with alarm := some (t, mb), alarmOn := none } } : State).unpost (isAlarmOf w)).postAt t (.alarmFire w)
    finish s (.ok (s'.setX d was))

end Sys2Proof.Machine
end

