-- ==== Sys2Proof/Machine/Vector.lean ====
section
/-! DEFINITION. Issue of vector words (R191, R240-R251), VLOOP (R247), and the export and import of stream state records
(R263-R267). What a queued word computes stands in Lanes.lean and Sequencer.lean. -/

namespace Sys2Proof.Machine

/-! ### Checks at issue (R242) -/

/-- The first link port a word names that it may not use (R65, R250). A thread of the neighbour that has ended and drains is none that it
holds (DESIGN CHOICE, notes/assumptions/111.md). -/
def State.linkFault? (s : State) (i : Instr) : Option Nat :=
  ((vReads i ++ (vWrite i).toList).filter (28 ≤ ·)).findSome? fun v =>
    let p := v - 28
    let ok := isCompute s.cid && s.co.staked.isNone &&
      (s.core (neighbour s.cid p)).banks.any fun b => b.2.prog == s.src.prog && b.2.st != .ended
    if ok then none else some p

/-- Reads of stream register `v` that queued words of the thread still make, repetitions of a loop included. -/
def State.queuedReads (s : State) (v : Nat) : Nat :=
  let count (l : List SeqEntry) : Nat := l.foldl (fun n e => if e.bank = s.bank then n + times (vReads e.word) v else n) 0
  count s.co.seq + (match s.co.vloop with
    | some l => count l.rest + (if l.toIssue = 0 then l.left else l.left - 1) * count l.body
    | none => 0)

/-- What is wrong with the stream registers a word names (R251, R223): STREAM_FAULT, or a killed read stream. -/
inductive StreamBad where
  | none | fault | killed (offset : Nat)
  deriving DecidableEq, Repr

/-- The checks of R251; `reps` is how often the word is performed. -/
def State.streamBad (s : State) (i : Instr) (reps : Nat) : StreamBad :=
  let one (v : Nat) : StreamBad :=
    match s.src.stream? v with
    | none => .none
    | some st =>
      let n := times (vReads i) v
      if (0 < n && st.write) || (vWrite i == some v && !st.write) then .fault
      else if 0 < n && st.killed then .killed (((mget s.co.copies st.copy).bind (·.fault)).elim 0 (·.offset))
      else if 0 < n && stripTotal st.image < (st.n - st.strips.length) + s.queuedReads v + n * reps then .fault
      else .none
  [20, 21, 22, 23].foldl (fun b v => if b = .none then one v else b) .none

/-- The entries that take a place: queued words and the body of a loop, which keeps the words of every repetition (R244, R247). -/
def Core.seqEntries (k : Core) : List SeqEntry :=
  k.seq.filter (fun (e : SeqEntry) => !e.loop) ++ (k.vloop.map (·.body)).getD []

/-- Places of the sequencer in use. -/
def Core.seqUsed (k : Core) : Nat := k.seqEntries.length

/-- Captured operands in use (R243). -/
def Core.captured (k : Core) : Nat := k.seqEntries.foldl (fun n e => n + vCaptures e.word) 0

/-- Is there a place and room for the operands of the word (R243, R244)? -/
def State.seqRoom (s : State) (i : Instr) : Bool :=
  s.co.seqUsed < 16 && s.co.captured + vCaptures i ≤ 4

/-- The queued form of a word. -/
def State.seqEntry (s : State) (i : Instr) (ops : List Word) : SeqEntry :=
  { bank := s.bank, word := i, wordAddr := s.wordAddr, ops := ops, vconf := s.src.vconf, fresh := s.form == .par0
    paired := s.form == .par1 && (s.co.seq.getLast?.map (·.fresh)) == some true
    raw := s.raw
    late := (s.co.vloop.map fun v => v.bank == s.bank && v.toIssue == 0) == some true }

/-- The word is one that an open VLOOP counts into its body: OP 0x50-0x58, vector loads and stores apart (R247). -/
def inLoopBody (i : Instr) : Bool :=
  match i with
  | .vld _ _ _ => false
  | .vldb _ _ _ => false
  | .vlds _ _ _ => false
  | .vldsPi _ _ _ => false
  | .vst _ _ _ => false
  | .vstm _ _ _ => false
  | _ => true

/-- Queue a word, counting it into the open loop's body, and let the sequencer go on; word 0 of a parallel bundle leaves that
to the end of the bundle (R55). -/
def State.enqueue (s : State) (i : Instr) (ops : List Word) : State :=
  let n := s.fresh
  let s := n.2
  let e := { s.seqEntry i ops with num := s.th.compared, after := n.1 }
  let s := { s with th := { s.th with compared := s.th.compared + 1 } }
  let s := if s.co.inBody s.bank && inLoopBody i then { s with co := s.co.bodyWord s.bank (some e) }
    else { s with co := { s.co with seq := s.co.seq ++ [e] } }
  if s.form == .par0 then s else s.onModule fun s => s.drain s.cid

/-- Repetitions of a word that issues now: the count of an open loop for a word of its body, else one. -/
def State.reps (s : State) (i : Instr) : Nat :=
  match s.co.vloop with
  | some v => if v.bank = s.bank && v.toIssue ≠ 0 && inLoopBody i then v.left else 1
  | none => 1

/-- A word 1 behind a word 0 that has sent its request: its checks were made before, and what has changed since comes after the bundle
(R55, R202; DEDUCED, notes/assumptions/101.md). -/
def State.checkedBefore (s : State) : Bool := s.form == .par1 && s.src.pend.any fun p => p.word == 0

/-- The checks that every vector word makes at issue; then `k`. R242 gives the checks no order: the model makes them in that of the text
(DESIGN CHOICE, notes/assumptions/109.md), and TVAL of the first is the word (DEDUCED, notes/assumptions/108.md). -/
def State.vecChecked (s : State) (i : Instr) (k : State → Res) : Res :=
  if !vLegal i s.src.vconf then trapR illegalOperand s.rawWord
  else if s.checkedBefore then k s
  else match s.linkFault? i with
    | some p => trapR linkFault (BitVec.ofNat 64 p)
    | none =>
      match s.streamBad i (s.reps i) with
      | .fault => s.trapOpen streamFault
      | .killed off => trapR pageFaultKilled (BitVec.ofNat 64 off)
      | .none => k s

/-- A word without memory access: checked, then queued (R242, R243). -/
def vec (i : Instr) (ops : List Word) (s : State) : Out :=
  finish s (s.vecChecked i fun s => if s.seqRoom i then .ok (s.enqueue i ops) else .wait s)

/-! ### VINT, VFP, VSPEC, conversions, reductions, permutations, moves -/

/-- VADD (R253). -/
def execVadd (d a b : BitVec 5) (s : State) : Out := vec (.vadd d a b) [] s

/-- VSUB (R253). -/
def execVsub (d a b : BitVec 5) (s : State) : Out := vec (.vsub d a b) [] s

/-- VMUL (R253). -/
def execVmul (d a b : BitVec 5) (s : State) : Out := vec (.vmul d a b) [] s

/-- VMIN (R253). -/
def execVmin (d a b : BitVec 5) (s : State) : Out := vec (.vmin d a b) [] s

/-- VMAX (R253). -/
def execVmax (d a b : BitVec 5) (s : State) : Out := vec (.vmax d a b) [] s

/-- VAND (R253). -/
def execVand (d a b : BitVec 5) (s : State) : Out := vec (.vand d a b) [] s

/-- VOR (R253). -/
def execVor (d a b : BitVec 5) (s : State) : Out := vec (.vor d a b) [] s

/-- VXOR (R253). -/
def execVxor (d a b : BitVec 5) (s : State) : Out := vec (.vxor d a b) [] s

/-- VSHL (R253). -/
def execVshl (d a b : BitVec 5) (s : State) : Out := vec (.vshl d a b) [] s

/-- VSHR (R253). -/
def execVshr (d a b : BitVec 5) (s : State) : Out := vec (.vshr d a b) [] s

/-- VSRA (R253). -/
def execVsra (d a b : BitVec 5) (s : State) : Out := vec (.vsra d a b) [] s

/-- VFADD (R254). -/
def execVfadd (d a b : BitVec 5) (s : State) : Out := vec (.vfadd d a b) [] s

/-- VFSUB (R254). -/
def execVfsub (d a b : BitVec 5) (s : State) : Out := vec (.vfsub d a b) [] s

/-- VFMUL (R254). -/
def execVfmul (d a b : BitVec 5) (s : State) : Out := vec (.vfmul d a b) [] s

/-- VFMA (R254). -/
def execVfma (d a b : BitVec 5) (s : State) : Out := vec (.vfma d a b) [] s

/-- VFMIN (R254). -/
def execVfmin (d a b : BitVec 5) (s : State) : Out := vec (.vfmin d a b) [] s

/-- VFMAX (R254). -/
def execVfmax (d a b : BitVec 5) (s : State) : Out := vec (.vfmax d a b) [] s

/-- VFABS (R254). -/
def execVfabs (d a : BitVec 5) (s : State) : Out := vec (.vfabs d a) [] s

/-- VFNEG (R254). -/
def execVfneg (d a : BitVec 5) (s : State) : Out := vec (.vfneg d a) [] s

/-- VRCP (R255). -/
def execVrcp (d a : BitVec 5) (s : State) : Out := vec (.vrcp d a) [] s

/-- VRSQ (R255). -/
def execVrsq (d a : BitVec 5) (s : State) : Out := vec (.vrsq d a) [] s

/-- VSQRT (R255). -/
def execVsqrt (d a : BitVec 5) (s : State) : Out := vec (.vsqrt d a) [] s

/-- VEXP2 (R255). -/
def execVexp2 (d a : BitVec 5) (s : State) : Out := vec (.vexp2 d a) [] s

/-- VLOG2 (R255). -/
def execVlog2 (d a : BitVec 5) (s : State) : Out := vec (.vlog2 d a) [] s

/-- VDIV (R255). -/
def execVdiv (d a b : BitVec 5) (s : State) : Out := vec (.vdiv d a b) [] s

/-- VCVT (R257). -/
def execVcvt (d a b : BitVec 5) (s : State) : Out := vec (.vcvt d a b) [] s

/-- VCVTS (R257). -/
def execVcvts (d a b : BitVec 5) (s : State) : Out := vec (.vcvts d a b) [] s

/-- VQNT (R258). -/
def execVqnt (d a b : BitVec 5) (s : State) : Out := vec (.vqnt d a b) [] s

/-- VRSUM (R259). -/
def execVrsum (d a b : BitVec 5) (s : State) : Out := vec (.vrsum d a b) [] s

/-- VRMAX (R259). -/
def execVrmax (d a b : BitVec 5) (s : State) : Out := vec (.vrmax d a b) [] s

/-- VRMIN (R259). -/
def execVrmin (d a b : BitVec 5) (s : State) : Out := vec (.vrmin d a b) [] s

/-- VSHUF (R260). -/
def execVshuf (d a b : BitVec 5) (s : State) : Out := vec (.vshuf d a b) [] s

/-- VBCAST (R260). -/
def execVbcast (d a b : BitVec 5) (s : State) : Out := vec (.vbcast d a b) [] s

/-- VEXT (R260): not in the body of a loop (R247). -/
def execVext (d a b : BitVec 5) (s : State) : Out :=
  if s.co.inBody s.bank then finish s (trapR illegalOperand s.rawWord) else vec (.vext d a b) [] s

/-- VINS (R260). -/
def execVins (d a b : BitVec 5) (s : State) : Out := vec (.vins d a b) [s.x a] s

/-- VCMP (R261). -/
def execVcmp (d a b : BitVec 5) (s : State) : Out := vec (.vcmp d a b) [] s

/-- VSEL (R261). -/
def execVsel (d a b : BitVec 5) (s : State) : Out := vec (.vsel d a b) [] s

/-- VMOVX (R262). -/
def execVmovx (d a b : BitVec 5) (s : State) : Out := vec (.vmovx d a b) [s.x a, s.x b] s

/-- VMOVV (R262). -/
def execVmovv (d a : BitVec 5) (s : State) : Out := vec (.vmovv d a) [] s

/-- VSPLAT (R262). -/
def execVsplat (d a : BitVec 5) (s : State) : Out := vec (.vsplat d a) [s.x a] s

/-! ### Recurrences (R264) -/

/-- THREAD_ID[63:16], which owns stream state records (R263). -/
def Thread.ownerId (t : Thread) : Nat := (t.id 0).toNat / 2 ^ 16

/-- A queued VREC, VEMA aside, overlaps the own-TCM bytes. -/
def State.overlapsOther (s : State) (off n : Nat) : Bool :=
  s.co.seq.any fun e => e.bank == s.bank && !e.fresh && e.isMem &&
    (match e.word with | .vrec _ _ _ => false | .vema _ _ => false | _ => true) && e.ranges.any fun r =>
      let a := s.canon r.2.1
      let b := 0xFF00 * 2 ^ 48 + off
      a < b + n && b < a + r.2.2

/-- VREC and VEMA: the checks of the control word, then queued. -/
def recWord (i : Instr) (b : BitVec 5) (s : State) : Out :=
  finish s (s.vecChecked i fun s =>
    let ctl := s.x b
    let off := bits ctl.toNat 0 16
    let n := laneCount (vtype s.src.vconf)
    if off % 64 ≠ 0 ∨ 0xC000 < off + 64 ∨ n < recCount ctl n then trapR streamFault ctl
    else if s.overlapsOther off 64 then .wait s
    else
      let r := ofBytes (s.rdOwn off 64)
      if !recValid r || !recLocked r || bits r (8 * 0x18) 48 ≠ s.src.ownerId ||
          bits r (8 * 0x24 + 2) 3 ≠ vtype s.src.vconf then trapR streamFault ctl
      else if s.seqRoom i then .ok (s.enqueue i [ctl, 0]) else .wait s)

/-- VREC (R264). -/
def execVrec (d a b : BitVec 5) (s : State) : Out := recWord (.vrec d a b) b s

/-- VEMA (R264). -/
def execVema (d b : BitVec 5) (s : State) : Out := recWord (.vema d b) b s

/-! ### VLOOP (R247) -/

/-- VLOOP: a body of e words; one loop of a core at a time. -/
def execVloop (d a : BitVec 5) (s : State) : Out :=
  finish s (
    if !vLegal (.vloop d a) s.src.vconf || d.toNat = 0 || 16 ≤ d.toNat || s.co.inBody s.bank then
      trapR illegalOperand s.rawWord
    else if 65535 < (s.x a).toNat then trapR illegalOperand (s.x a)
    else if s.co.vloop.isSome then .wait s
    else .ok { s with
      co := { s.co with
        vloop := some { bank := s.bank, left := (s.x a).toNat, length := d.toNat, toIssue := d.toNat } } })

/-! ### Vector loads and stores (R191) -/

/-- Steps 3-7 of R186 for each address of a vector access. -/
def State.routesOk (s : State) (sp n : Nat) : List Nat → Except (Nat × Word) Unit
  | [] => .ok ()
  | ea :: l =>
    match s.routeFor sp ea n false with
    | .error e => .error e
    | .ok _ => s.routesOk sp n l

/-- The addresses that a vector access must have confirmed (R169): translated ones that miss the L0 cache, or that a store
finds there without write permission. -/
def State.toConfirm (s : State) (sp : Nat) (store : Bool) (l : List Nat) : List Nat :=
  l.filter fun ea => !onChip ea && (match s.l0Line sp ea with
    | some c => store && !c.writable
    | none => true)

/-- A vector load or store: checks at issue, confirmation, then queued; `upd` are the integer writes of the word. -/
def vecMem (i : Instr) (store : Bool) (eas : List Nat) (n : Nat) (ops : List Word) (upd : State → State) (s : State) : Out :=
  let bound := match vWrite i with
    | some v => (s.src.stream? v).isSome
    | none => false
  let queue (s : State) : Res := .ok ((upd s).enqueue i (ops ++ [BitVec.ofNat 64 s.sp]))
  finish s (
    if s.pending.isSome then
      if s.seqRoom i then s.request s.sp (.probe store) n [] .virt fun _ s => queue s else .wait s
    else if bound then s.trapOpen streamFault
    else s.vecChecked i fun s =>
      match s.routesOk s.sp n eas with
      | .error (c, v) => trapR c v
      | .ok _ =>
        if !s.seqRoom i then .wait s
        else
          match s.toConfirm s.sp store eas with
          | [] => queue s
          | l => s.request s.sp (.probe store) n l .virt fun _ s => queue s)

/-- VLD (R191). -/
def execVld (d a : BitVec 5) (off : BitVec 7) (s : State) : Out :=
  let ea := s.eaOff a off 16
  vecMem (.vld d a off) false [ea] 16 [BitVec.ofNat 64 ea] (fun s => s) s

/-- VLDB (R191): under type 7 it traps. -/
def execVldb (d a : BitVec 5) (off : BitVec 7) (s : State) : Out :=
  let e := elemBytes s.src.vconf
  let ea := s.eaOff a off e
  vecMem (.vldb d a off) false [ea] e [BitVec.ofNat 64 ea] (fun s => s) s

/-- The element addresses of VLDS. -/
def State.strided (s : State) (a b : BitVec 5) : List Nat :=
  let e := elemBytes s.src.vconf
  (List.range (16 / e)).map fun i => (s.x a + BitVec.ofNat 64 i * s.x b).toNat

/-- VLDS (R191). -/
def execVlds (d a b : BitVec 5) (s : State) : Out :=
  vecMem (.vlds d a b) false (s.strided a b) (elemBytes s.src.vconf) [s.x a, s.x b] (fun s => s) s

/-- VLDS.PI (R191): x[a] moves past the elements. -/
def execVldsPi (d a b : BitVec 5) (s : State) : Out :=
  let n := 16 / elemBytes s.src.vconf
  vecMem (.vldsPi d a b) false (s.strided a b) (elemBytes s.src.vconf) [s.x a, s.x b]
    (fun s => s.setX a (s.x a + BitVec.ofNat 64 n * s.x b)) s

/-- VST (R191). -/
def execVst (d a : BitVec 5) (off : BitVec 7) (s : State) : Out :=
  let ea := s.eaOff a off 16
  vecMem (.vst d a off) true [ea] 16 [BitVec.ofNat 64 ea] (fun s => s) s

/-- VSTM (R191). -/
def execVstm (d a b : BitVec 5) (s : State) : Out :=
  let ea := s.eaReg a
  vecMem (.vstm d a b) true [ea] 16 [BitVec.ofNat 64 ea] (fun s => s) s

/-! ### Stream state records away from the core (R265, R266) -/

/-- Steps 2-5 and 7 of R186 on the other record, step 6 except under a peer window (R265). -/
def State.routeRec (s : State) (ea : Nat) : Except (Nat × Word) Route :=
  if ea % 64 ≠ 0 then .error (dataMisaligned, BitVec.ofNat 64 ea)
  else match s.routeTo s.fsp ea true with
    | .error (c, v) => if c = reflexDramAccess ∧ isPeer s.fsp then .ok .virt else .error (c, v)
    | .ok r => .ok r

/-- The address checks of SSRIM and SSREX, and the wait for the thread's accesses to either record (R174). -/
def recMove (a b : BitVec 5) (s : State) (k : Nat → Nat → Route → Res) : Res :=
  let off := (s.x a).toNat
  let ea := (s.x b).toNat
  if s.pending.isSome then k off ea .virt
  else if !vLegal (.ssrex 0 a b) s.src.vconf then trapR illegalOperand s.rawWord
  else if off % 64 ≠ 0 ∨ 0xC000 < off + 64 then trapR dataMisaligned (s.x a)
  else match s.routeRec ea with
    | .error (c, v) => trapR c v
    | .ok r =>
      if s.overlapsQueued s.sp (0xFF00 * 2 ^ 48 + off) 64 || s.overlapsQueued s.fsp ea 64 || s.ownBusy r (.claim 0) then .wait s
      else k off ea r

/-- SSRIM (R265). -/
def execSsrim (d a b : BitVec 5) (s : State) : Out :=
  finish s (recMove a b s fun off ea r =>
    let dst := ofBytes (s.rdOwn off 64)
    if s.pending.isNone && recValid dst && recLocked dst then .ok (s.setX d 3)
    else
      let got (v : Nat) (s : State) : Res :=
        if !recValid v then .ok (s.setX d 2)
        else if recLocked v then .ok (s.setX d 1)
        else
          let n := recClaimed v s.src.ownerId
          let n := putBits n (8 * 0x20) 32 (bits n (8 * 0x20) 32 + 1)
          s.logged (.ok ((s.wrOwn off (toBytes 64 n)).setX d 0))
      match r with
      | .ownTcm _ => let q := s.atOwn r 64 (.claim s.src.ownerId); got (ofBytes q.1) q.2
      | .ownPad _ => let q := s.atOwn r 64 (.claim s.src.ownerId); got (ofBytes q.1) q.2
      | r => s.request s.fsp (.claim s.src.ownerId) 64 [ea] r got)

/-- SSREX (R266): a release. -/
def execSsrex (d a b : BitVec 5) (s : State) : Out :=
  finish s (recMove a b s fun off ea r => s.release fun s =>
    let v := ofBytes (s.rdOwn off 64)
    if s.pending.isNone && (!recValid v || !recLocked v || bits v (8 * 0x18) 48 ≠ s.src.ownerId) then .ok (s.setX d 1)
    else
      let out := putBits (putBits (putBits v (8 * 0x24) 1 0) (8 * 0x18) 64 0) (8 * 0x20) 32 (bits v (8 * 0x20) 32 + 1)
      let fin (s : State) : Res :=
        s.logged (.ok ((s.wrOwn (off + 0x24) (toBytes 1 (putBits (bits v (8 * 0x24) 8) 0 1 0))).setX d 0))
      match r with
      | .ownTcm _ => fin (s.atOwn r 64 (.write (toBytes 64 out) [])).2
      | .ownPad _ => fin (s.atOwn r 64 (.write (toBytes 64 out) [])).2
      | r => s.request s.fsp (.write (toBytes 64 out) []) 64 [ea] r fun _ s => fin s)

end Sys2Proof.Machine
end

