-- ==== Sys2Proof/Machine/Matrix.lean ====
section
/-! DEFINITION. The matrix engine (R352-R370): operand formats and scales (R91-R101), steps (R102-R107, R363), loads and stores of
its state, and rotation over the torus (R364, R365). A queued word's effects stand from its acceptance, in the order of issue (R353). -/

namespace Sys2Proof.Machine

/-! ### MCONF (R355) -/

def cAfmt (m : Word) : Nat := bits m.toNat 0 5
def cBfmt (m : Word) : Nat := bits m.toNat 5 5
def cAcc (m : Word) : Nat := bits m.toNat 10 5
def cM (m : Word) : Nat := bits m.toNat 16 3 + 1
def cN (m : Word) : Nat := bits m.toNat 19 3 + 1
def cMirror (m : Word) : Bool := bit m.toNat 22
def cDelta (m : Word) : Bool := bit m.toNat 23
def cStride (m : Word) : Nat := bits m.toNat 32 16
def cAsrc (m : Word) : Nat := bits m.toNat 48 16

/-- Bits of MCONF that hardware sets and clears. -/
def bBcred : Nat := 24
def bAcred : Nat := 25
def bBin : Nat := 26
def bAin : Nat := 27
def bExpect : Nat := 28
def bRbroken : Nat := 30
def bWempty : Nat := 31

def mbit (m : Word) (i : Nat) : Bool := bit m.toNat i

/-- Replace a field of MCONF. -/
def mput (m : Word) (lo n x : Nat) : Word := BitVec.ofNat 64 (putBits m.toNat lo n x)

/-- Change MCONF of the issuing core. -/
def State.setMconf (s : State) (lo n x : Nat) : State := { s with co := { s.co with mconf := mput s.co.mconf lo n x } }

/-! ### Formats (R91-R101) -/

/-- Stored width of an element (R91). -/
def fmtWidth (c : Nat) : Nat := match c with
  | 0 => 32 | 1 => 16 | 2 => 16 | 5 => 6 | 6 => 6 | 7 => 4 | 10 => 4 | 11 => 4 | 12 => 2 | 15 => 6 | 16 => 6 | 17 => 4 | 18 => 4
  | 20 => 4 | 21 => 4 | 23 => 4 | 25 => 4 | 26 => 3 | _ => 8

/-- What an element of a code is, scales, sparsity and codebooks apart (R91). -/
def fmtElem (c : Nat) : Elem := match c with
  | 0 => .fp fp32 | 1 => .fp bf16 | 2 => .fp fp16
  | 3 => .fp e4m3 | 13 => .fp e4m3 | 22 => .fp e4m3 | 4 => .fp e5m2 | 14 => .fp e5m2
  | 5 => .fp e3m2 | 15 => .fp e3m2 | 6 => .fp e2m3 | 16 => .fp e2m3
  | 7 => .fp e2m1 | 17 => .fp e2m1 | 18 => .fp e2m1 | 23 => .fp e2m1
  | 9 => .int false 8 | 10 => .int true 4 | 20 => .int true 4 | 21 => .int true 4 | 11 => .int false 4 | 12 => .int true 2
  | _ => .int true 8

/-- Codes with a scale per 16 elements, and the bytes of a scale (R91, R96). -/
def isScaled (c : Nat) : Bool := 13 ≤ c && c ≤ 21
def scaleBytes (c : Nat) : Nat := if c = 21 then 4 else 1

def isSparse (c : Nat) : Bool := 22 ≤ c && c ≤ 24
def isCodebook (c : Nat) : Bool := c == 25 || c == 26

/-- The A column and the B column of R91. -/
def okA (c : Nat) : Bool := c ≤ 21 || c == 27
def okB (c : Nat) : Bool := c ≤ 26

/-- The legal combinations of R101. -/
def legalFormats (a b acc : Nat) : Bool :=
  okA a && okB b && fmtWidth b ≤ fmtWidth a &&
  (acc == 0 || (acc == 1 && 8 ≤ a && a ≤ 12 && ((8 ≤ b && b ≤ 12) || b == 24)))

/-- Elements of K in the latch (R359). -/
def cKa (a : Nat) : Nat := 384 / fmtWidth a

/-- Value of a scaled element with stored value `q` and a scale's bits (R96, R97). -/
def scaledNum (c : Nat) (q : Num) (sc : Nat) : Num :=
  if c = 21 then
    match q with
    | .fin neg m e => (fp16.num (bits sc 0 16)).mul
        (Num.ofInt ((if neg then -(m : Int) else m) * 2 ^ e.toNat - signedOf 4 (bits sc 16 4)))
    | v => v
  else
    let v : Num := if c = 18 then e4m3.num (bits sc 0 8)
      else if bits sc 0 8 = 0xFF then .nan else .fin false 1 ((bits sc 0 8 : Int) - 127)
    v.mul q

/-- Element `k` of a packed array (R95). -/
def packed (row w k : Nat) : Nat := bits row (w * k) w

/-- Element `k` of an operand row whose scales are the packed array `scales`. -/
def elemAt (c row scales k : Nat) : Num :=
  let v := (fmtElem c).num (packed row (fmtWidth c) k)
  if isScaled c then scaledNum c v (packed scales (8 * scaleBytes c) (k / 16)) else v

/-! ### The coprocessor queue (R15, R353, R354) -/

/-- The queue and the engine are idle. -/
def State.mxIdle (s : State) : Bool := s.co.mx.all (·.1 ≤ s.cycle)

/-- A matrix word whose checks have passed enters the queue of two behind the word in the engine, which it occupies for `n` cycles;
it waits at issue while the queue is full, and while it needs the undo log and cannot reach it (R46). -/
def State.engine (s : State) (n : Nat) (k : State → Res) : Res :=
  let busy := s.co.mx.filter (s.cycle < ·.1)
  if 3 ≤ busy.length then .wait s
  else s.logged <| k { s with co := { s.co with mx := busy ++ [(max s.cycle ((busy.getLast?.map (·.1)).getD 0) + n, s.bank)] } }

/-- Cycles of a step (R354). -/
def stepTime (m : Word) : Nat := if cAfmt m = 12 then 2 else 1

/-- A step reads the own TCM: scales or the second half-rows (R359). -/
def readsTcm (m : Word) : Bool := isScaled (cAfmt m) || isSparse (cBfmt m)

/-! ### Operands of a step (R359, R360, R363) -/

/-- Bytes of elements in an A row (R359). -/
def rowBytes (b : Nat) : Nat := if isSparse b then 96 else 48

/-- Bytes of scales behind an A row (R359). -/
def rowScales (a b : Nat) : Nat := if isScaled a then (if isSparse b then 2 else 1) * (cKa a / 16) * scaleBytes a else 0

/-- Row `i` of the A operand: the latch, the second half-row in TCM under a sparse B format, and the scales in TCM. -/
def State.aRow (s : State) (i : Nat) : Nat × Nat :=
  let m := s.co.mconf
  let at_ := cAsrc m + i * cStride m
  let lo := rdN s.co.latch (48 * i) 48
  let hi := if isSparse (cBfmt m) then rdN s.co.tcm.bytes (at_ + 48) 48 else 0
  (lo + 2 ^ 384 * hi, rdN s.co.tcm.bytes (at_ + rowBytes (cBfmt m)) (rowScales (cAfmt m) (cBfmt m)))

/-- Value of A element `k` of row `i` (R363). -/
def State.aVal (s : State) (row : Nat × Nat) (k : Nat) : Num := elemAt (cAfmt s.co.mconf) row.1 row.2 k

/-- K range of a slot image (R360). -/
def slotK (a b : Nat) : Nat := if isSparse b then 2 * cKa a else cKa a

/-- Size of a slot image (R360). -/
def slotSize (a b : Nat) : Nat :=
  let ks := slotK a b
  if isSparse b then 8 * (ks * fmtWidth b / 16) + 8 * (ks / 8)
  else if isCodebook b then (if b = 25 then 32 else 16) + ks * fmtWidth b
  else 8 * (ks * fmtWidth b / 8) + (if isScaled b then 8 * ((ks + 15) / 16 * scaleBytes b) else 0)

/-- Column `j` of a slot image as the products' K positions and values, in the order of R104. A column of a codebook image may begin
within a byte: C = 4.5 bytes under FP32 and the 3-bit code (R360). -/
def bColumn (a b : Nat) (img : Mem) (j : Nat) : List (Nat × Num) :=
  let ks := slotK a b
  let w := fmtWidth b
  if isSparse b then
    let v := ks * w / 16
    let vals := rdN img (j * v) v
    let idx := rdN img (8 * v + j * (ks / 8)) (ks / 8)
    (List.range (ks / 4)).flatMap fun g =>
      let e := packed idx 4 g
      [(4 * g + e % 4, (fmtElem b).num (packed vals w (2 * g))), (4 * g + e / 4, (fmtElem b).num (packed vals w (2 * g + 1)))]
  else if isCodebook b then
    let base := if b = 25 then 32 else 16
    let col := bits (rdN img base (ks * w)) (j * ks * w) (ks * w)
    (List.range ks).map fun k => (k, fp16.num (rdN img (2 * packed col w k) 2))
  else
    let c := ks * w / 8
    let col := rdN img (j * c) c
    let sc := (ks + 15) / 16 * scaleBytes b
    let scales := if isScaled b then rdN img (8 * c + j * sc) sc else 0
    (List.range ks).map fun k => (k, elemAt b col scales k)

/-! ### One element of a step (R102-R107) -/

/-- NV: a NaN result from inputs without one (R107). -/
def stepFlags (c v : Num) (ps : List (Num × Num)) (overflow : Bool) : Flags :=
  raised (v.isNan && !c.isNan && !ps.any fun p => p.1.isNan || p.2.isNan) flNV ||| raised overflow flOF

/-- The exact path (R102, R103). -/
def exactStep (c : Nat) (ps : List (Num × Num)) : Flagged :=
  let x := fp32.num c
  let v := ps.foldl (fun v p => v.add .nearest (p.1.mul p.2)) x
  let o := fp32.round .nearest v
  ⟨o.bits, stepFlags x v ps (o.fl &&& flOF != 0)⟩

/-- The FMA path of FP32 operands (R104). -/
def fmaStep (c : Nat) (ps : List (Num × Num)) : Flagged :=
  let r := ps.foldl (fun (r : Nat × Bool) p =>
    let o := fp32.round .nearest ((fp32.num r.1).add .nearest (p.1.mul p.2))
    (o.bits, r.2 || o.fl &&& flOF != 0)) (c, false)
  ⟨r.1, stepFlags (fp32.num c) (fp32.num r.1) ps r.2⟩

/-- An integer value. -/
def Num.toInt : Num → Int
  | .fin neg m e => (if neg then -1 else 1) * (m * 2 ^ e.toNat : Nat)
  | _ => 0

/-- The integer path (R105). -/
def intStep (c : Nat) (ps : List (Num × Num)) : Flagged :=
  let t := ps.foldl (fun (t : Int) p => t + p.1.toInt * p.2.toInt) (signedOf 32 c)
  if 2 ^ 31 - 1 < t then ⟨2 ^ 31 - 1, flSAT⟩
  else if t < -(2 ^ 31) then ⟨2 ^ 31, flSAT⟩
  else ⟨wrapInt 32 t, 0⟩

/-- One element by the path that the formats select (R363). -/
def stepElem (a acc c : Nat) (ps : List (Num × Num)) : Flagged :=
  if acc = 1 then intStep c ps else if a = 0 then fmaStep c ps else exactStep c ps

/-! ### Tiles -/

/-- Element (i, j) of a tile image (R352). -/
def tileElem (tile i j : Nat) : Nat := bits tile (32 * (8 * i + j)) 32

/-- A tile of the issuing core as a number. -/
def State.tile (s : State) (t : Nat) : Nat := rdN s.co.tiles (256 * t) 256

/-- Write a tile of the issuing core; the undo log sees it (R401). -/
def State.setTile (s : State) (t img : Nat) : State :=
  let r := tileStore s.cid (s.co, s.pad (clusterOf s.cid)) t 0 (toBytes 256 img)
  let s := { s with co := r.1 }
  if s.co.undo.isSome then s.setPad (clusterOf s.cid) r.2 else s

/-- Replace the elements of the M x N shape of tile `t` by what `f` gives, and collect the flags. -/
def State.mapTile (s : State) (t : Nat) (f : Nat → Nat → Nat → Flagged) : State × Flags :=
  let m := s.co.mconf
  let old := s.tile t
  let cells := (List.range 64).map fun n =>
    let i := n / 8
    let j := n % 8
    if i < cM m && j < cN m then f i j (tileElem old i j) else ⟨tileElem old i j, 0⟩
  (s.setTile t (packBits 32 (cells.map (·.bits))), cells.foldl (fun fl c => fl ||| c.fl) 0)

/-- Flags go to the issuing thread (R107). -/
def State.flagTile (r : State × Flags) : State := { r.1 with th := { r.1.th with vconf := orFlags r.1.th.vconf r.2 } }

/-- The mirror columns of a step are compared (R369, R398). -/
def State.mirrorCheck (s : State) : State :=
  if !cMirror s.co.mconf then s
  else
    let d := s.drawn
    if !Config.mirrorMiss d.1 then d.2
    else
      let s := d.2.count (unitCore s.cid) ctrMirror
      let s := { s with co := { s.co with mirrors := s.co.mirrors + 1 } }
      if s.th.kind.isGang then s.markReplay s.th.prog else s

/-- The step of R363 on tile `t` with the image of slot `w`; `aval` gives the A elements. -/
def State.stepWith (s : State) (t : Nat) (img : Mem) (aval : Nat → Nat → Num) : State :=
  let m := s.co.mconf
  let cols := (List.range 8).map fun j => if j < cN m then bColumn (cAfmt m) (cBfmt m) img j else []
  let r := s.mapTile t fun i j c =>
    stepElem (cAfmt m) (cAcc m) c (((cols.getD j [])).map fun p => (aval i p.1, p.2))
  (State.flagTile r).mirrorCheck

/-- Slot `w` of the issuing core. -/
def State.slot (s : State) (w : Nat) : WSlot := (mget s.co.slots w).getD {}

/-- A slot that is being filled (R361). -/
def WSlot.loading (w : WSlot) : Bool := match w.state with
  | .loading _ => true
  | _ => false

/-- A step that finds its slot empty leaves the tile and sets WEMPTY (R362). -/
def State.stepSlot (s : State) (t w : Nat) : State :=
  let k := s.slot w
  if k.state = .full then
    let rows := (List.range 8).map s.aRow
    s.stepWith t k.image fun i e => s.aVal (rows.getD i (0, 0)) e
  else s.setMconf bWempty 1 1

/-! ### MCFG, MLDA, MLDB -/

/-- The checks of R358. -/
def mcfgOk (v : Word) : Bool :=
  let a := cAfmt v
  let b := cBfmt v
  bits v.toNat 48 16 == 0 && bits v.toNat 24 8 == 0 && !bit v.toNat 15 && legalFormats a b (cAcc v) && slotSize a b ≤ 512 &&
  (!cMirror v || cN v ≤ 4) && (cDelta v == (a == 27)) && !(cDelta v && isSparse b) &&
  cStride v % 8 == 0 && cStride v ≤ 0xC000 &&
  (cM v == 1 || (if cDelta v then 48 else rowBytes b + rowScales a b) ≤ cStride v)

/-- The torus neighbours that send A data (east) and B data (south), and those that receive it. -/
def eastOf (c : Nat) : Nat := neighbour c 1
def southOf (c : Nat) : Nat := neighbour c 2
def westOf (c : Nat) : Nat := neighbour c 3
def northOf (c : Nat) : Nat := neighbour c 0

/-- Return a credit to the neighbour that sent A or B data (R358, R364). -/
def State.sendCredit (s : State) (isA : Bool) : State :=
  s.post (cyc 8) (.rotationCreditArrival (if isA then eastOf s.cid else southOf s.cid) isA s.th.prog)

/-- What MROT waits for, as the port whose neighbour must act. -/
def mrotWait (m : Word) : Option Nat :=
  if mbit m bExpect && !mbit m bAin then some 1
  else if mbit m bExpect && !mbit m bBin then some 2
  else if !mbit m bAcred then some 3
  else if !mbit m bBcred then some 0 else none

/-- An MROT need not wait any more: what it waits for has come, or the rotation is broken (R364). -/
def mrotGoes (m : Word) : Bool := (mrotWait m).isNone || mbit m bRbroken

/-- The wait of an MROT is over (R364). -/
def Thread.rotates (t : Thread) : Thread := match t.st with
  | .blocked (.rotation _) =>
    { t with st := .ready, pend := t.pend.map fun (p : Pend) => if p.reply.isNone then { p with reply := some (.value 0) } else p }
  | _ => t

/-- Threads of a core Blocked in MROT go on, once they need not wait. -/
def State.wakeLinks (s : State) (c : Nat) : State :=
  let k := s.core c
  if !mrotGoes k.mconf then s
  else s.setCore c { k with banks := k.banks.map fun b => (b.1, b.2.rotates) }

/-- MCFG (R358); without EXPECT, an MROT that waits may go on. -/
def execMcfg (a : BitVec 4) (s : State) : Out :=
  let v := s.x4 a
  finish s (if !mcfgOk v then trapR matrixConfig v
    else s.engine 1 fun s =>
      let s := if s.co.landA.isSome then s.sendCredit true else s
      let s := if s.co.landB.isSome then s.sendCredit false else s
      let keep : Word := s.co.mconf &&& (0xFFFF000003000000 : Word)
      .ok (({ s with co := { s.co with
        mconf := keep ||| (v &&& (0x0000FFFF00FFFFFF : Word)), landA := none, landB := none } } : State).onModule fun s =>
          s.wakeLinks s.cid))

/-- MLDA (R359). -/
def execMlda (a : BitVec 4) (s : State) : Out :=
  let v := s.x4 a
  let m := s.co.mconf
  finish s (if cAfmt m = 27 then trapR matrixConfig v
    else match ownTcm? v with
      | none => trapR onchipRange v
      | some o =>
        if o % 8 ≠ 0 ∨ 0xC000 < o + (cM m - 1) * cStride m + rowBytes (cBfmt m) + rowScales (cAfmt m) (cBfmt m) then
          trapR onchipRange v
        else if s.queuedMem then .wait s
        else s.engine 4 fun s =>
          let rows := (List.range (cM m)).foldl (fun (l : Mem) i =>
            wrBytes l (48 * i) (s.rdOwn (o + i * cStride m) 48)) []
          .ok ({ s with co := { s.co with latch := rows } }.setMconf 48 16 o))

/-- The lines that `n` bytes at `ea` lie in. -/
def linesOf (ea n : Nat) : List Nat := (List.range ((ea % 64 + n + 63) / 64)).map fun i => ea / 64 * 64 + 64 * i

/-- MLDB (R361): confirmed as a load of the whole image, then the slot is loading and the word completes. -/
def execMldb (a : BitVec 4) (w : BitVec 6) (s : State) : Out :=
  let v := s.x4 a
  let ea := v.toNat
  let sp := s.sp
  let n := slotSize (cAfmt s.co.mconf) (cBfmt s.co.mconf)
  finish s (if ea % 16 ≠ 0 then trapR dataMisaligned v
    else match s.rangeOk sp ea n with
      | .error (c, tv) => trapR c tv
      | .ok _ =>
        if !isLocal sp then trapR illegalOperand v
        else if s.overlapsQueued sp ea n then .wait s
        else
          let start (s : State) : Res := s.engine 1 fun s =>
            let i := s.fresh
            let s := i.2
            let todo := linesOf ea n
            let acc := s.newAcc (.fill w.toNat i.1 (ea % 64) n) sp .read 64 todo
            let s := { s with
              accs := mset s.accs i.1 acc
              co := { s.co with slots := mset s.co.slots w.toNat { s.slot w.toNat with state := .loading i.1, tag := none } } }
            .ok (if (ownTcm? v).isSome then s.post 2 (.remoteAccess i.1)
              else s.emitOwn 1 2 (if onChip ea then .remoteAccess i.1 else .sliceRequest i.1))
          if !s.th.unacked.isEmpty && s.pending.isNone then .wait s
          else if onChip ea then start s
          else s.request sp (.probe false) 64 (linesOf ea n) .virt fun _ s => start s)

/-- The tag of a filled slot: every line reported one entry and one version (R372). -/
def fillTag (l : List (Option (Nat × Nat))) : Option (Nat × Nat) :=
  match l with
  | some t :: r => if r.all (· == some t) then some t else none
  | _ => none

/-- A slot after its fill: late data of a slot that was emptied meanwhile is dropped; a poisoned line leaves it empty. -/
def WSlot.filled (w : WSlot) (fill first len : Nat) (a : Acc) : WSlot :=
  if w.state != .loading fill then w
  else if a.tags.length == a.done.length / 64 then
    { state := .full, image := wrBytes w.image 0 ((a.done.drop first).take len), tag := fillTag a.tags }
  else { w with state := .empty, tag := none }

/-- SLOT_FILL_COMPLETE (R361). -/
def execSlotFillComplete (s : State) : Out :=
  match s.event with
  | .slotFillComplete c slot fill => .next (match mget s.accs fill with
    | none => s
    | some a =>
      let r := match a.forWhom with
        | .fill _ _ first len => (first, len)
        | _ => (0, 512)
      { s with accs := mdel s.accs fill }.modCore c fun k =>
        { k with slots := mmod k.slots slot fun w => w.filled fill r.1 r.2 a })
  | _ => .next s

/-! ### MMA, MMAS -/

/-- The checks and the step of MMA and MMAS (R363). -/
def mma (sparse : Bool) (t w : BitVec 6) (s : State) : Out :=
  let m := s.co.mconf
  finish s (if isSparse (cBfmt m) != sparse || cAfmt m = 27 then trapR matrixConfig 0
    else if (s.slot w.toNat).loading || (readsTcm m && s.queuedMem) then .wait s
    else s.engine (stepTime m) fun s => .ok (s.stepSlot t.toNat w.toNat))

/-- MMA (R363). -/
def execMma (t w : BitVec 6) (s : State) : Out := mma false t w s

/-- MMAS (R363). -/
def execMmas (t w : BitVec 6) (s : State) : Out := mma true t w s

/-! ### MROT (R364, R365) -/

/-- Take the landing buffers into the latch and the slot, second half-rows first into TCM. -/
def State.takeLanding (s : State) (w : Nat) : State :=
  let m := s.co.mconf
  let a := s.co.landA.getD []
  let s := if isSparse (cBfmt m) then
      (List.range (cM m)).foldl (fun s i =>
        s.wrOwn (cAsrc m + i * cStride m + 48) ((a.drop (384 + 48 * i)).take 48)) s
    else s
  let b := s.co.landB.getD ([], none, false)
  let slot : WSlot := { state := if b.2.2 then .full else .empty, image := wrBytes [] 0 b.1, tag := b.2.1 }
  let s := { s with co := { s.co with
    latch := wrBytes [] 0 (a.take 384), landA := none, landB := none, slots := mset s.co.slots w slot } }
  ((s.setMconf bAin 1 0).setMconf bBin 1 0).sendCredit true |>.sendCredit false

/-- One shift: take what has landed, the step, send the latch west and the slot north. -/
def State.rotate (s : State) (t w : Nat) : State :=
  let s := if mbit s.co.mconf bExpect then s.takeLanding w else s
  let s := s.stepSlot t w
  let m := s.co.mconf
  let halves := if isSparse (cBfmt m) then
      (List.range (cM m)).flatMap fun i => s.rdOwn (cAsrc m + i * cStride m + 48) 48
    else []
  let k := s.slot w
  let s := s.post 16 (.rotationDataArrival (westOf s.cid) true s.th.prog (rdBytes s.co.latch 0 384 ++ halves) none true)
  let s := s.post 16 (.rotationDataArrival (northOf s.cid) false s.th.prog (rdBytes k.image 0 512) k.tag (k.state == .full))
  ((s.setMconf bAcred 1 0).setMconf bBcred 1 0).setMconf bExpect 1 1

/-- MROT (R364). Its checks are made at issue, in the order of R364's text: where a neighbour holds no thread of the program and RBROKEN
is set too, the port is reported (DEDUCED, notes/assumptions/98.md). An MROT that waits goes on when its wait is over, or traps when the
rotation has been broken. -/
def execMrot (t w : BitVec 6) (s : State) : Out :=
  let m := s.co.mconf
  let held (p : Nat) : Bool := (s.core (neighbour s.cid p)).banks.any fun b => b.2.prog == s.src.prog && b.2.st != .ended
  let shift : Res :=
    if (s.slot w.toNat).loading || (readsTcm m && s.queuedMem) then .wait s
    else s.engine (stepTime m) fun s => .ok (s.dropPending.rotate t.toNat w.toNat)
  let go (p : Option (Nat × Word)) : Res := match p with
    | some (c, v) => trapR c v
    | none =>
      if mbit m bRbroken then trapR linkFault 4
      else match mrotWait m with
        | some p => .wait (if s.pending.isSome then s.block (.rotation p) else s.blockWord (.rotation p))
        | none => shift
  finish s (if s.pending.isSome then go none
    else match [0, 1, 2, 3].find? (fun p => s.co.staked.isSome || !held p) with
      | some p => trapR linkFault (BitVec.ofNat 64 p)
      | none => go (if isScaled (cAfmt m) || cAfmt m = 27 then some (matrixConfig, 0) else none))

/-- ROTATION_DATA_ARRIVAL (R364): data for a core whose context has gone, or belongs to another program, is dropped (R365). -/
def execRotationDataArrival (s : State) : Out :=
  match s.event with
  | .rotationDataArrival c isA prog data tag full => .next (
    let k := s.core c
    if !k.holds prog || k.seized.isSome then s
    else (s.setCore c { k with
      landA := if isA then some data else k.landA
      landB := if isA then k.landB else some (data, tag, full)
      mconf := mput k.mconf (if isA then bAin else bBin) 1 1 }).wakeLinks c)
  | _ => .next s

/-- ROTATION_CREDIT_ARRIVAL (R364). -/
def execRotationCreditArrival (s : State) : Out :=
  match s.event with
  | .rotationCreditArrival c isA prog => .next (
    let k := s.core c
    if !k.holds prog || k.seized.isSome then s
    else (s.setCore c { k with mconf := mput k.mconf (if isA then bAcred else bBcred) 1 1 }).wakeLinks c)
  | _ => .next s

/-- R365 for a core that is vacated: its landing buffers go, its context keeps RBROKEN, and each neighbour that holds a
thread of the program notes it. -/
def State.breakRotation (s : State) (c : Nat) (progs : List Nat) : State :=
  if !isCompute c then s
  else
    let s := s.modCore c fun k =>
      let m := mput (mput (mput (mput k.mconf bRbroken 1 1) bAin 1 0) bBin 1 0) bExpect 1 0
      { k with landA := none, landB := none, mconf := mput (mput m bAcred 1 1) bBcred 1 1 }
    let s := s.wakeLinks c
    [0, 1, 2, 3].foldl (fun s p =>
      let n := neighbour c p
      if progs.any (s.core n).holds then (s.modCore n fun k => { k with mconf := mput k.mconf bRbroken 1 1 }).wakeLinks n else s) s

/-! ### MZERO, MST, MSCALE, MRED, MCHK -/

/-- MZERO (R366). -/
def execMzero (t : BitVec 6) (s : State) : Out := finish s (s.engine 1 fun s => .ok (s.setTile t.toNat 0))

/-- The conversion codes that MST accepts for an accumulator type (R366). -/
def mstCode (acc e : Nat) : Bool :=
  if acc = 0 then [4, 5, 6, 8, 9, 10, 11, 12].contains e else [0, 1, 2, 7, 13, 14].contains e

/-- A row of a tile as MST stores it. -/
def mstRow (m : Word) (e : Nat) (tile i : Nat) : List Flagged :=
  let c := codeElem e
  (List.range (cN m)).map fun j =>
    let x := tileElem tile i j
    if cAcc m = 0 then c.conv .nearest (fp32.num x) (fp32.signalling x) true
    else c.conv .nearest (.ofInt (signedOf 32 x)) false true

/-- MST (R366). -/
def execMst (t : BitVec 6) (a : BitVec 4) (w : BitVec 4) (s : State) : Out :=
  let v := s.x4 a
  let m := s.co.mconf
  let e := w.toNat
  let width := (codeElem e).width
  let n := (cN m * width + 7) / 8
  finish s (if !mstCode (cAcc m) e then trapR illegalOperand s.rawWord
    else match ownTcm? v with
      | none => trapR onchipRange v
      | some o =>
        if o % 8 ≠ 0 ∨ 0xC000 < o + (cM m - 1) * cStride m + n then trapR onchipRange v
        else if s.queuedMem then .wait s
        else s.engine 4 fun s =>
          let tile := s.tile t.toNat
          let r := (List.range (cM m)).foldl (fun (r : State × Flags) i =>
            let row := mstRow m e tile i
            (r.1.wrOwn (o + i * cStride m) (toBytes n (packBits width (row.map (·.bits)))),
              row.foldl (fun fl c => fl ||| c.fl) r.2)) (s, 0)
          .ok (State.flagTile r))

/-- A queued vector word of the thread that uses one of two registers; `writes` asks for writers only. -/
def State.pairBusy (s : State) (n : Nat) (writes : Bool) : Bool :=
  let hit (e : SeqEntry) : Bool :=
    let l := (vWrite e.word).toList ++ if writes then [] else vReads e.word
    e.bank == s.bank && !e.fresh && (l.contains n || l.contains (n + 1))
  s.co.queued.any hit

/-- A vector register pair of the matrix instructions (R357). -/
def pairOk (n : Nat) : Bool := n % 2 == 0 && n ≤ 26

/-- A pair that holds a stream-bound register. -/
def State.pairStream (s : State) (n : Nat) : Bool := (s.src.stream? n).isSome || (s.src.stream? (n + 1)).isSome

/-- One factor of MSCALE on an element (R367). -/
def scaleElem (c f : Nat) : Flagged :=
  let x := fp32.num c
  let y := fp32.num f
  let v := x.mul y
  let o := fp32.round .nearest v
  ⟨o.bits, stepFlags x v [(y, y)] (o.fl &&& flOF != 0)⟩

/-- MSCALE (R367). -/
def execMscale (t : BitVec 6) (w : BitVec 5) (s : State) : Out :=
  let n := w.toNat
  finish s (if !pairOk n then trapR illegalOperand s.rawWord
    else if s.pairStream n then s.trapOpen streamFault
    else if cAcc s.co.mconf = 1 then s.trapOpen matrixConfig
    else if s.pairBusy n true then .wait s
    else s.engine 1 fun s => .ok (State.flagTile (s.mapTile t.toNat fun i _ c =>
      scaleElem c (if i < 4 then lane (s.th.getV n) 32 i else lane (s.th.getV (n + 1)) 32 (i - 4)))))

/-- The reduction of one row (R368). -/
def redRow (acc : Nat) (sum : Bool) (l : List Nat) : Flagged :=
  if acc = 1 then
    let is := l.map (signedOf 32)
    if sum then
      let t := is.foldl (· + ·) 0
      if 2 ^ 31 - 1 < t then ⟨2 ^ 31 - 1, flSAT⟩ else if t < -(2 ^ 31) then ⟨2 ^ 31, flSAT⟩ else ⟨wrapInt 32 t, 0⟩
    else ⟨wrapInt 32 (is.foldl max (is.headD 0)), 0⟩
  else if sum then
    match l.map fp32.num with
    | x :: r => let o := fp32.round .nearest (r.foldl (Num.add .nearest) x); ⟨o.bits, o.fl &&& flOF⟩
    | [] => ⟨0, 0⟩
  else match l.filter fun x => !(fp32.num x).isNan with
    | [] => ⟨0x7FC00000, 0⟩
    | x :: r => ⟨r.foldl (fun m y => (fp32.minmax true m y).bits) x, 0⟩

/-- MRED (R368). -/
def mred (sum : Bool) (t : BitVec 6) (w : BitVec 5) (s : State) : Out :=
  let n := w.toNat
  let m := s.co.mconf
  finish s (if !pairOk n then trapR illegalOperand s.rawWord
    else if s.pairStream n then s.trapOpen streamFault
    else if s.pairBusy n false then .wait s
    else s.engine 2 fun s =>
      let tile := s.tile t.toNat
      let rows := (List.range 8).map fun i =>
        if i < cM m then redRow (cAcc m) sum ((List.range (cN m)).map fun j => tileElem tile i j) else ⟨0, 0⟩
      let lanes := rows.map (·.bits)
      let th := (s.th.setV n (vecOf (packBits 32 (lanes.take 4)))).setV (n + 1) (vecOf (packBits 32 (lanes.drop 4)))
      .ok (State.flagTile ({ s with th := th }, rows.foldl (fun fl c => fl ||| c.fl) 0)))

/-- mred.max (R368). -/
def execMredMax (t : BitVec 6) (w : BitVec 5) (s : State) : Out := mred false t w s

/-- mred.sum (R368). -/
def execMredSum (t : BitVec 6) (w : BitVec 5) (s : State) : Out := mred true t w s

/-- MCHK (R369). -/
def execMchk (a : BitVec 4) (s : State) : Out :=
  let v := s.x4 a
  finish s (match ownTcmAt v 8 8 with
    | none => trapR onchipRange v
    | some o => if s.queuedMem then .wait s
      else s.engine 1 fun s => .ok ({ s with co := { s.co with mirrors := 0 } }.wrOwn o (toBytes 8 (s.co.mirrors % 2 ^ 32))))

end Sys2Proof.Machine
end

