-- ==== Sys2Proof/Machine/Mail.lean ====
section
/-! DEFINITION. Mailboxes and messages (R271-R277), slice commands (R215), debug commands (R235), fault replies (R222),
arrivals at a Saved context (R233, R270) and alarms that fire (R156, R157). -/

namespace Sys2Proof.Machine

/-! ### Mailboxes (R271, R273) -/

/-- The entries of a mailbox, oldest first. -/
def Core.box (k : Core) (mb : Nat) : List Payload := (mget k.mail mb).getD []

/-- The mask of a thread Blocked on RECV. -/
def Thread.recvMask (t : Thread) : Option (BitVec 16) := match t.st with
  | .blocked (.recv m) => some m
  | _ => none

/-- The bank of the earliest-blocked thread whose mask includes `mb` (R277). -/
def Core.receiver (k : Core) (mb : Nat) : Option Nat :=
  (k.banks.foldl (fun (best : Option (Nat × Nat)) b =>
    match b.2.recvMask with
    | some m =>
      if !m.getLsbD mb then best
      else match best with
        | some (_, t) => if b.2.since < t then some (b.1, b.2.since) else best
        | none => some (b.1, b.2.since)
    | none => best) none).map (·.1)

/-- Put an entry into mailbox `mb`: to the thread that waits for it, else at the end; `none` when it is full. -/
def Core.putMail (k : Core) (mb : Nat) (body : Payload) : Option Core :=
  match k.receiver mb with
  | some b => some (k.modBank b fun t =>
      { t with st := .ready, pend := t.pend.map fun (p : Pend) =>
          if p.reply.isNone then { p with reply := some (.message mb body) } else p })
  | none => if 8 ≤ (k.box mb).length then none else some { k with mail := mset k.mail mb (k.box mb ++ [body]) }

/-- Put an entry into a mailbox of the core at a place; whether it found room. -/
def State.putMail (s : State) (place mb : Nat) (body : Payload) : Option State :=
  ((s.coreAt place).putMail mb body).map fun k => s.modCoreAt place fun _ => k

/-- The number by which the counters of a place's core are kept. -/
def State.coreOfPlace (s : State) (place : Nat) : Nat :=
  match ctxOf? place with
  | some i => ((mget s.contexts i).map (·.origin)).getD 0
  | none => place

/-- An ordinary mailbox message: dropped whole and counted when the mailbox is full (R273). -/
def State.mailOrDrop (s : State) (place mb : Nat) (body : Payload) : State :=
  (s.putMail place mb body).getD (s.count (unitCore (s.coreOfPlace place)) ctrMboxDrop)

/-- The thread that a mailbox entry of an engine names has not ended (R181, R274). -/
def State.entryLives (s : State) (g : Payload) : Bool := (s.thread? (whoOfId (BitVec.ofNat 64 (bits g.toNat 192 64)))).isSome

/-- The core that a grant for the thread enters: none while a migration message carries the thread (R273). -/
def State.grantCore (s : State) (w : Who) : Option Nat :=
  if s.moving.any fun m => m.2.thread.who == w then none else match s.locate w with
    | some (.live c _) => some c
    | _ => none

/-- The grant register of core `c` takes the grants of threads that have come to it, as long as it has room, and forgets those of
threads that have ended (R273). -/
def State.pullGrants (s : State) (c : Nat) : State :=
  let s := s.modCore c fun k => { k with grants := k.grants.filter fun g => (s.thread? g.1).isSome }
  s.cores.foldl (fun s k =>
    if k.1 = c then s else (k.2.grants.filter fun g => s.grantCore g.1 == some c).foldl (fun s g =>
      if 4 ≤ (s.core c).grants.length then s
      else (s.modCore k.1 fun x => { x with grants := x.grants.erase g }).modCore c fun x => { x with grants := x.grants ++ [g] }) s) s

/-- Room in mailbox 0 of a core: the grants that wait, then the completions (R273), first those of an eviction record. A completion of
a thread that has ended is not placed (R181). -/
def State.refillBox0 (s : State) (c : Nat) : State :=
  let s := (s.pullGrants c).modCore c fun k => { k with waiting0 := k.waiting0.filter s.entryLives }
  let s := match (s.core c).grants with
    | g :: l => match (s.core c).putMail 0 g.2 with
      | some k => s.setCore c { k with grants := l }
      | none => s
    | [] => match (s.core c).waiting0 with
      | g :: l => match (s.core c).putMail 0 g with
        | some k => s.setCore c { k with waiting0 := l }
        | none => s
      | [] => s
  s.cores.foldl (fun s k => k.2.copies.foldl (fun s y =>
    if y.2.state = 2 && s.coreOf? y.2.who == some c then s.post 0 (.copyCompletion k.1 y.1) else s) s) s

/-! ### Arrivals of messages -/

/-- A payload field. -/
def pfield (b : Payload) (off n : Nat) : Nat := bits b.toNat (8 * off) (8 * n)

/-- The payload of R215 breaks no row of its table. -/
def shootOk (b : Payload) : Bool :=
  let kind := pfield b 0 1
  let page := if kind = 0 then 0x10000 else 0x200000
  let range := kind = 0 || kind = 2
  let mb := pfield b 0x1A 1
  kind ≤ 4 && pfield b 1 1 ≤ 1 && pfield b 0x1B 5 == 0 && isCore (pfield b 0x18 2) && 2 ≤ mb && mb ≤ 13 &&
  (!range || (pfield b 8 8 % page == 0 && pfield b 0x10 8 % page == 0 && pfield b 0x10 8 != 0))

/-- The shoot-down request of a payload (R215). -/
def shootOf (b : Payload) : Shoot :=
  { kind := pfield b 0 1, keep := bit b.toNat 8, subject := pfield b 2 2, seq := pfield b 4 4, first := pfield b 8 8
    length := pfield b 0x10 8, core := pfield b 0x18 2, mb := pfield b 0x1A 1 }

/-- The event of a shoot-down by its kind. -/
def shootEvent (r : Shoot) : Event :=
  match r.kind with
  | 0 => .shootdownDataRange r
  | 1 => .shootdownDataSpace r
  | 2 => .shootdownInstructionRange r
  | 3 => .shootdownInstructionProgram r
  | _ => .shootdownEverything r

/-- A message for the command mailbox of home `h` (R215): the slice passes the request to the root. -/
def State.sliceCommand (s : State) (cl : Nat) (m : Msg) : State :=
  if m.mb ≠ 0 || 32 ≤ cl || !shootOk m.body then s.count (unitHome (min cl 32)) ctrCmdBad
  else s.post (cyc (2 * treeDepth cl)) (shootEvent (shootOf m.body))

/-- A debug command (R235) takes effect in the cycle in which the core's arbiter takes it (R237); codes without a command do nothing. Of
bytes 0x18-0x1B the model takes the first two for the CORE_ID and the third for the mailbox (DESIGN CHOICE, notes/assumptions/110.md). -/
def State.debugCommand (s : State) (c : Nat) (b : Payload) : State :=
  let param := pfield b 8 8
  let rc := pfield b 0x18 2
  let mb := pfield b 0x1A 1 % 16
  match pfield b 0 1 with
  | 0 => s.post 0 (.debugHalt c)
  | 1 => s.post 0 (.debugResume c)
  | 2 => s.post 0 (.debugStep c (param % 4))
  | 3 => s.post 0 (.debugQuiesce c)
  | 4 => s.post 0 (.debugStatus c rc mb)
  | 5 => s.post 0 (.debugDump c param rc mb)
  | _ => s

/-- The reply to a fault that core `c` raised is taken out of mailbox 1 in the fabric cycle after it came (R222, R273). -/
def State.faultReplyMail (s : State) (c : Nat) (b : Payload) : State :=
  let fid := pfield b 0 4
  match pfield b 4 1 with
  | 0 => s.post 1 (.faultReplyResume c fid)
  | 1 => s.post 1 (.faultReplyRetryLater c fid)
  | _ => s.post 1 (.faultReplyKill c fid)

/-- The acknowledgement of a message on its way back to its sender (R276, R304). -/
def State.ackMsg (s : State) (m : Msg) (status : Nat) : State :=
  if m.id = 0 then s
  else s.post (cyc (6 + 2 * hops (clusterOf m.dst) (clusterOf m.src))) (.sendAcknowledgement m.who m.id status)

/-- The target refuses the message; its router counts the drop (R160, R275). -/
def State.refuseMsg (s : State) (m : Msg) : State := (s.count (unitRouter (clusterOf m.dst)) ctrRefused).ackMsg m 2

/-- Where a message of a higher level for a core goes whose whole context has left: to that context (R43, R273). Nothing says which
one is meant where several have left; the model takes that of the first entry (DESIGN CHOICE, notes/assumptions/95.md). -/
def State.departedFrom (s : State) (c : Nat) : Nat :=
  if !(s.core c).banks.isEmpty then c
  else match (s.core c).forwards.find? fun f => f.2.thread.isNone with
    | some f => f.2.dest
    | none => c

/-- The core or context that a message reaches: a task-level one follows the forwarding entries of its program (R43), a fault reply the
fault that it answers (R222, R224), another one of a higher level a departed context. Debug commands are for the core itself. -/
def State.msgPlace (s : State) (m : Msg) : Nat :=
  if m.level = .task then s.placeOf m.who.prog m.dst
  else if m.mb = 1 then (s.faultPlace m.dst (pfield m.body 0 4)).getD m.dst
  else if m.mb = 14 then m.dst
  else s.departedFrom m.dst

/-- Delivery of a message to mailbox `m.mb` of a core at a place. A fault reply that finds mailbox 1 full is refused with RETRY, and a
fault message that finds mailbox 4 full is sent again (R221, R273). -/
def State.deliver (s : State) (m : Msg) (place : Nat) : State :=
  match ctxOf? place with
  | some i =>
    if !s.arrivalsFull i then (s.append i (if m.mb = 1 then 2 else 1) m.mb m.body).ackMsg m 0
    else if m.mb = 1 then s.keep (.mailboxArrival m)
    else (s.count (unitCore (s.coreOfPlace place)) ctrMboxDrop).ackMsg m 1
  | none =>
    if m.mb = 14 then (s.debugCommand place m.body).ackMsg m 0
    else match s.putMail place m.mb m.body with
      | some s => (if m.mb = 1 then s.faultReplyMail m.dst m.body else s).ackMsg m 0
      | none =>
        if m.mb = 1 then s.keep (.mailboxArrival m)
        else if m.form = 3 then
          let fid := pfield m.body 0x0C 4
          (s.modCore m.src fun k => { k with keptFaults := fid :: k.keptFaults }).post (cyc 64) (.faultMessageResend m.src fid)
        else (s.count (unitCore place) ctrMboxDrop).ackMsg m 1

/-- The router of the target cannot take the message now: the context is streaming (R45). -/
def State.msgBlocked (s : State) (m : Msg) : Bool := m.dst % 256 != 31 && s.streaming (s.msgPlace m)

/-- A message arrives. -/
def State.arrive (s : State) (m : Msg) : State :=
  if m.dst % 256 = 31 then (s.sliceCommand (clusterOf m.dst) m).ackMsg m 0
  else
    let place := s.msgPlace m
    if m.level = .task && !isService m.dst && !(s.coreAt place).holds m.who.prog then s.refuseMsg m
    else s.deliver m place

/-- A kept message of the same sender for the same mailbox with number below `n` (R273: order). -/
def State.behind (s : State) (m : Msg) (n : Nat) : Bool :=
  s.kept.any fun e => decide (e.1 < n) && (match e.2 with
    | .mailboxArrival o => o.src == m.src && o.dst == m.dst && o.mb == m.mb
    | _ => false)

/-- MAILBOX_ARRIVAL (R273). -/
def execMailboxArrival (s : State) : Out :=
  match s.event with
  | .mailboxArrival m => .next (if s.msgBlocked m || s.behind m s.nextId then s.keep s.event else s.arrive m)
  | _ => .next s

/-- What is sent again after 64 cycles (R42, R45, R233, R273): a message in its order, anything else at once. -/
def State.resend (s : State) (id : Nat) : State :=
  match mget s.kept id with
  | none => s
  | some (.mailboxArrival m) =>
    if s.msgBlocked m || s.behind m id then s.post (cyc 64) (.retryResend id)
    else ({ s with kept := mdel s.kept id } : State).arrive m
  | some e => ({ s with kept := mdel s.kept id } : State).post 0 e

/-- RETRY_RESEND (R45). -/
def execRetryResend (s : State) : Out :=
  match s.event with
  | .retryResend id => .next (s.resend id)
  | _ => .next s

/-- SEND_ACKNOWLEDGEMENT (R276, R304). -/
def execSendAcknowledgement (s : State) : Out :=
  match s.event with
  | .sendAcknowledgement w id st => .next (s.forTwins w id fun s w id =>
      (s.modAny w fun t => { t.answer id (.value st) with sends := t.sends - 1 }).releaseIfDrained w)
  | _ => .next s

/-- An arrival for a thread that was Saved and has been restored on core `c` meanwhile: kind 2 a fault reply, 3 a grant with its status
in the payload, else a message (R233). -/
def State.deliverLive (s : State) (c : Nat) (w : Who) (kind mb : Nat) (body : Payload) : State :=
  match kind with
  | 2 => match (s.core c).faultCore body with
    | some f => s.faultReplyMail f body
    | none => s
  | 3 => s.modThread w fun t => match t.pend.find? (·.reply.isNone) with
    | some p => t.answer p.id (.result (BitVec.ofNat 64 (pfield body 0 4)) (pfield body 0 4 == 0) [])
    | none => t
  | _ => s.mailOrDrop c mb body

/-- SAVED_CONTEXT_DELIVERY (R233, R270): the service core appends an arrival for a thread to the eviction record: kind 1 message, 2
fault reply, 3 grant, 4 alarm. What is never dropped is sent again until there is room or the thread has been restored. -/
def execSavedContextDelivery (s : State) : Out :=
  match s.event with
  | .savedContextDelivery w kind mb body => .next (match s.locate w with
    | some (.saved i _) =>
      if s.streaming (ctxPlace i) then s.keep s.event
      else if !s.arrivalsFull i then s.append i kind mb body
      else if kind = 2 || kind = 3 then s.keep s.event
      else s.count (unitCore (s.coreOfPlace (ctxPlace i))) ctrMboxDrop
    | some (.live c _) => s.deliverLive c w kind mb body
    | some (.moving _) => s.keep s.event
    | none => s)
  | _ => .next s

/-! ### Alarms (R156, R157) -/

/-- The message of an alarm. Its THREAD_ID shows the bank that the thread has as the alarm fires (R74, R156; DESIGN CHOICE,
notes/assumptions/96.md). -/
def alarmBody (now armed : Nat) (id : Word) : Payload :=
  BitVec.ofNat 256 (now % 2 ^ 64 + armed % 2 ^ 64 * 2 ^ 64 + id.toNat * 2 ^ 128)

/-- The alarm of a thread fires where the thread is; one that travels in a core record fires once that has arrived. One that has
stayed on the core the thread migrated from fires there at its time, and its message follows the forwarding entries (R157). -/
def State.fireAlarm (s : State) (w : Who) (time mb bank : Nat) : State :=
  let body := alarmBody s.meridianNow time (({ prog := w.prog, serial := w.serial } : Thread).id bank)
  let clear (t : Thread) : Thread := { t with alarm := none, alarmOn := none }
  let saved (i : Nat) : State := match (s.thread? w).bind (·.alarmOn) with
    | some c => (s.modThread w clear).post 0 (.mailboxArrival
        { src := c, dst := s.coreOfPlace (ctxPlace i), mb := mb, body := body, level := .task, who := w, id := 0, form := 0 })
    | none =>
      if s.streaming (ctxPlace i) then s.keep s.event
      else (s.modThread w clear).post 0 (.savedContextDelivery w 4 mb body)
  match s.locate w with
  | some (.live c _) => (s.modThread w clear).mailOrDrop c mb body
  | some (.saved i _) => saved i
  | some (.moving i) =>
    let place := s.placeOf w.prog (((mget s.moving i).map (·.dest)).getD 0)
    match ctxOf? place with
    | some i => saved i
    | none => (s.modThread w clear).mailOrDrop place mb body
  | none => s

/-- The bank of a thread. -/
def State.bankNo (s : State) (w : Who) : Nat :=
  match s.locate w with
  | some (.live _ b) => b
  | some (.saved _ b) => b
  | some (.moving i) => ((mget s.moving i).map (·.bank)).getD 0
  | none => 0

/-- ALARM_FIRE (R156): only once meridian time has reached the armed time. -/
def execAlarmFire (s : State) : Out :=
  match s.event with
  | .alarmFire w => .next (match (s.thread? w).bind (·.alarm) with
    | some (time, mb) =>
      if s.meridianNow < time then s.postAt time (.alarmFire w) else s.fireAlarm w time mb (s.bankNo w)
    | none => s)
  | _ => .next s

/-! ### SEND and SENDV (R275, R276) -/

/-- ValidTarget (R275). -/
def validTarget (t : Nat) : Bool :=
  bits t 14 2 == 0 && bits t 5 3 == 0 && (isCore t || (clusterOf t ≤ 33 && coreNo t == 31))

/-- The target lies in the issuing core's reach map, as SEND counts it (R160). -/
def State.reaches (s : State) (t : Nat) : Bool :=
  let p := s.src.prog
  t == s.cid || s.co.reach.contains (p, t) ||
  (isService t && (clusterOf t == clusterOf s.cid || s.co.reach.any fun r => r.1 == p && clusterOf r.2 == clusterOf t))

/-- The checks of R275 on the destination descriptor. -/
def State.sendCheck (s : State) (x : Word) : Except (Nat × Word) (Nat × Nat) :=
  let n := x.toNat
  let t := bits n 0 16
  let mb := bits n 16 4
  if bits n 20 44 ≠ 0 ∨ bits n 14 2 ≠ 0 ∨ bits n 5 3 ≠ 0 then .error (illegalOperand, x)
  else if !validTarget t then .error (illegalOperand, x)
  else if s.src.level = .task ∧ (mb = 0 ∨ mb = 1 ∨ mb = 4 ∨ mb = 14 ∨ mb = 15 ∨ t % 32 = 31) then .error (privilege, s.rawWord)
  else .ok (t, mb)

/-- The message leaves (R275): it arrives after the latency of R273, or is refused outside the reach map. -/
def State.sendMsg (s : State) (id t mb : Nat) (body : Payload) : State :=
  let m : Msg := { src := s.cid, dst := t, mb := mb, body := body, level := s.src.level, who := s.th.who, id := id, form := 0 }
  let s := { s with th := { s.th with sends := s.th.sends + 1 } }
  let d := cyc (6 + 2 * hops (clusterOf s.cid) (clusterOf t))
  let outside := s.src.level = .task && !s.reaches t
  let s := if outside then s.count (unitRouter (clusterOf t)) ctrRefused else s
  s.sendReq id d (if outside then .sendAcknowledgement m.who id 2 else .mailboxArrival m)
    (requestHash 11 0 (toBytes 4 (t + mb * 0x10000) ++ toBytes 32 body.toNat))

/-- The forms of R276 once the message is formed. -/
def State.sendForm (s : State) (form : Nat) (d : BitVec 5) (x : Word) (t mb : Nat) (body : Payload) : Res :=
  s.release fun s =>
    if s.pending.isNone && !s.co.egressRoom s.now 1 then .wait s
    else if form = 0 then
      let i := s.fresh
      .ok ((i.2.sendMsg i.1 t mb body).setX d 0)
    else ask s (fun id s => s.sendMsg id t mb body) fun r s => match r with
      | .value st => if form = 2 ∧ st = 1 then trapR mailboxOverflow x else .ok (s.setX d (BitVec.ofNat 64 st))
      | _ => .ok (s.setX d 0)

/-- SEND in the three forms. -/
def sendWord (form : Nat) (d a b : BitVec 5) (s : State) : Out :=
  finish s (match s.sendCheck (s.x a) with
    | .error (c, v) => trapR c v
    | .ok (t, mb) => match ownTcmAt (s.x b) 32 32 with
      | none => trapR onchipRange (s.x b)
      | some off =>
        if s.overlapsQueued s.src.space.toNat (s.x b).toNat 32 then .wait s
        else s.sendForm form d (s.x a) t mb (BitVec.ofNat 256 (ofBytes (s.rdOwn off 32))))

/-- SENDV in the three forms: v[b] in bytes 0-15. -/
def sendvWord (form : Nat) (d a b : BitVec 5) (s : State) : Out :=
  let n := b.toNat
  finish s (match s.sendCheck (s.x a) with
    | .error (c, v) => trapR c v
    | .ok (t, mb) =>
      if s.pairStream n then s.trapOpen streamFault
      else if s.pairBusy n true then .wait s
      else s.sendForm form d (s.x a) t mb (s.th.getV (n + 1) ++ s.th.getV n))

/-- SEND (R275). -/
def execSend (d a b : BitVec 5) (s : State) : Out := sendWord 0 d a b s

/-- SEND.ACK (R276). -/
def execSendAck (d a b : BitVec 5) (s : State) : Out := sendWord 1 d a b s

/-- SEND.TRAP (R276). -/
def execSendTrap (d a b : BitVec 5) (s : State) : Out := sendWord 2 d a b s

/-- SENDV (R275). -/
def execSendv (d a b : BitVec 5) (s : State) : Out := sendvWord 0 d a b s

/-- SENDV.ACK (R276). -/
def execSendvAck (d a b : BitVec 5) (s : State) : Out := sendvWord 1 d a b s

/-- SENDV.TRAP (R276). -/
def execSendvTrap (d a b : BitVec 5) (s : State) : Out := sendvWord 2 d a b s

/-! ### RECV and RECVT (R277) -/

/-- The message is stored and x[d] names its mailbox; room in mailbox 0 lets what waits in. -/
def State.received (s : State) (d : BitVec 5) (off mb : Nat) (body : Payload) : State :=
  let s := (s.wrOwn off (toBytes 32 body.toNat)).setX d (BitVec.ofNat 64 mb)
  if mb = 0 then s.onModule fun s => s.refillBox0 s.cid else s

/-- RECV waits for an arrival; RECVT does not. -/
def recvWord (wait : Bool) (d a b : BitVec 5) (s : State) : Out :=
  let x := s.x a
  let mask : BitVec 16 := x.setWidth 16
  finish s (
    if bits x.toNat 16 48 ≠ 0 ∨ mask = 0 ∨ mask.getLsbD 1 ∨ mask.getLsbD 14 then trapR illegalOperand x
    else match ownTcmAt (s.x b) 32 32 with
      | none => trapR onchipRange (s.x b)
      | some off =>
        match s.pending with
        | some ⟨_, _, some (.message mb body)⟩ =>
          s.logged (.ok (({ s with th := { s.th with pend := s.th.pend.filter fun p => p.word != s.widx } } : State).received d off mb body))
        | some ⟨_, _, some _⟩ => .wait { s with th := { s.th with pend := s.th.pend.filter fun p => p.word != s.widx } }
        | some ⟨_, _, none⟩ => .wait s
        | none =>
          if s.overlapsQueued s.src.space.toNat (s.x b).toNat 32 then .wait s
          else match (List.range 16).find? fun m => mask.getLsbD m && !(s.co.box m).isEmpty with
            | some mb =>
              let l := s.co.box mb
              let t : State := { s with co := { s.co with mail := mset s.co.mail mb (l.drop 1) } }
              s.logged (.ok (t.received d off mb (l.headD 0)))
            | none =>
              if !wait then .ok (s.setX d 16)
              else
                let i := s.fresh
                let s := i.2
                .wait (({ s with th := { s.th with pend := ⟨s.widx, i.1, none⟩ :: s.th.pend } } : State).block (.recv mask)))

/-- RECV (R277). -/
def execRecv (d a b : BitVec 5) (s : State) : Out := recvWord true d a b s

/-- RECVT (R277). -/
def execRecvt (d a b : BitVec 5) (s : State) : Out := recvWord false d a b s

end Sys2Proof.Machine
end

