-- ==== Sys2Proof/Machine/CopyEngine.lean ====
section
/-! DEFINITION. The copy engine (R278-R281): what it reads and writes for each kind of operation, one sector at a time, faults
and errors on the way (R221, R281, R286, R393, R394), compared writes of paired threads (R395), landing handlers (R287),
streams (R289-R293), LXM transfers (R311-R313) and completions (R274, R181). -/

namespace Sys2Proof.Machine

/-! ### Memory as the engine sees it -/

/-- Stands for the LXM where an engine names a space: slot in bits [39:32], buffer in [23:20], byte below. -/
def spaceLxm : Nat := 0x20000

/-- A byte of an LXM buffer. -/
def lxmAt (slot buffer off : Nat) : Nat := slot * 2 ^ 32 + buffer * 2 ^ 20 + off

/-- Why an engine's access does not come about. -/
inductive EngStop where
  | fault (ea sp reason kind : Nat) | refused
  /-- A memory of the cluster is busy with a context that streams (R46); tried again in the next core cycle. -/
  | retry
  /-- Slice `h` is not awake; the request waits there (R166). -/
  | asleep (h : Nat)

/-- Buffer `b` of a slot. -/
def LxmSlot.buffer (l : LxmSlot) (b : Nat) : Buffer := (mget l.buffers b).getD {}

def State.modSlot (s : State) (n : Nat) (f : LxmSlot → LxmSlot) : State := { s with lxm := mmod s.lxm n f }

/-- Change a buffer of a slot. -/
def State.modBuffer (s : State) (n b : Nat) (f : Buffer → Buffer) : State :=
  s.modSlot n fun l => { l with buffers := mset l.buffers b (f (l.buffer b)) }

/-- The engine of core `c` may use the window for the copy (R159), as the table stands now. -/
def State.engAllowed (s : State) (c : Nat) (y : Copy) (w : Win) : Bool :=
  ({ s with cid := c, co := s.core c } : State).winAllowed y.level y.who.prog w

/-- The same for the path to DRAM-backed addresses. -/
def State.engNoDram (s : State) (c : Nat) : Bool := ({ s with cid := c, co := s.core c } : State).noDram

/-- Access kind of a copy's fault message (R221, R312). -/
def Copy.faultKind (y : Copy) (write : Bool) : Nat :=
  match y.work with
  | .stream _ => if write then 5 else 6
  | .tail _ => 5
  | .publish _ _ _ => 4
  | .fetch _ _ _ _ => 5
  | _ => if write then 5 else 4

/-- One access of the engine within one 32-byte sector of a local translated space. -/
def State.engHome (s : State) (y : Copy) (sp ea n : Nat) (w : Option (List Byte)) : Except EngStop (List Byte × Bool × State) :=
  let h := s.homeOf sp ea
  if (s.home h).power ≠ .awake then .error (.asleep h)
  else match s.translate h sp ea (if w.isSome then .write else .read) with
    | .error r => .error (.fault ea sp r (y.faultKind w.isSome))
    | .ok (t, s) =>
      match w with
      | some d => .ok ([], false, s.wrSlice h t ea d [] none)
      | none => .ok (s.rdSlice h t ea n)

/-- What an engine's access asks of memory. -/
def engOp : Option (List Byte) → MemOp
  | some d => .write d []
  | none => .read

/-- One access of the engine under a peer window: the translation that the peer lends, then the access (R219). -/
def State.engPeer (s : State) (y : Copy) (sp ea n : Nat) (w : Option (List Byte)) : Except EngStop (List Byte × Bool × State) :=
  let kind := y.faultKind w.isSome
  let e := s.spaceEntry sp
  let h := s.homeOf sp ea
  let say (s : State) : List Byte × Bool × State :=
    let i := s.fresh
    let r := (i.2.sayPeer (.access i.1 (bits e.1 32 16) ((e.2 + ea) % 2 ^ 64) n (engOp w))).foreign Config.peerByte n
    (if w.isSome then [] else r.1, false, r.2)
  if (s.home h).power ≠ .awake then .error (.asleep h)
  else if !s.front.linkUp then .error (.fault ea sp 5 kind)
  else match s.tlbHit h sp ea with
    | some t => if t.permits (engOp w).need then .ok (say s) else .error (.fault ea sp 1 kind)
    | none =>
      let i := s.drawn
      match Config.peerFault i.1 with
      | some r => .error (.fault ea sp r.val kind)
      | none =>
        let leaf := Config.peerLeaf i.1
        if !(if w.isSome then leaf.2.1 else leaf.1) then .error (.fault ea sp 1 kind)
        else .ok (say (i.2.takeLease sp ea leaf.1 leaf.2.1 leaf.2.2.val))

/-- One access of the engine under a host window (R203, R220, R221); a read that the host answers with an error gives all ones
and is counted (R186). -/
def State.engHost (s : State) (y : Copy) (sp ea n : Nat) (w : Option (List Byte)) : Except EngStop (List Byte × Bool × State) :=
  let e := s.spaceEntry sp
  let i := s.drawn
  let s := i.2
  if Config.hostDown i.1 then .error (.fault ea sp 5 (y.faultKind w.isSome))
  else
    let s := s.modFront fun f => { f with hostOut := f.hostOut ++ [⟨(e.2 + ea) % 2 ^ 64, n, engOp w⟩] }
    if w.isSome then .ok ([], false, s)
    else if Config.hostFails i.1 then .ok (List.replicate n 0xFF, false, s.countHost)
    else
      let r := s.foreign Config.hostByte n
      .ok (r.1, false, r.2)

/-- One access of the engine under a peer or host window (R205). -/
def State.engAway (s : State) (y : Copy) (sp ea n : Nat) (w : Option (List Byte)) : Except EngStop (List Byte × Bool × State) :=
  match windowCheck (s.spaceEntry sp) (engOp w).need ea with
  | some r => .error (.fault ea sp r (y.faultKind w.isSome))
  | none => if isPeer sp then s.engPeer y sp ea n w else s.engHost y sp ea n w

/-- One access of the engine of core `c` at an on-chip offset (R158-R160). -/
def State.engChip (s : State) (c : Nat) (y : Copy) (ea n : Nat) (w : Option (List Byte)) : Except EngStop (List Byte × Bool × State) :=
  let atPad (cl off : Nat) : List Byte × Bool × State := match w with
    | some d => ([], false, s.setPad cl ((s.pad cl).write off d []))
    | none => (rdBytes (s.pad cl).bytes off n, (s.pad cl).poisoned off n, s)
  let atTcm (place off : Nat) : Except EngStop (List Byte × Bool × State) := match w with
    | some d => if s.logBusy place then .error .retry else .ok ([], false, s.wrTcmAt place off d [])
    | none => let r := s.rdTcmAt place off n; .ok (r.1, r.2, s)
  match winFor c ea, winFor c (ea + n - 1) with
  | some v, some _ =>
    if !s.engAllowed c y v then .error .refused
    else match v with
      | .ownTcm off => atTcm c off
      | .ownPad off => if s.padBusy (clusterOf c) then .error .retry else .ok (atPad (clusterOf c) off)
      | .pad cl off => if s.padBusy cl then .error .retry else .ok (atPad cl off)
      | .rstore off => .ok (match w with
        | some d => ([], false, s.wrReflex off d [])
        | none => let r := s.rdReflex off n; (r.1, r.2, s))
      | .tcm t off =>
        let place := if y.level = .task then s.placeOf y.who.prog t else t
        if s.streaming place then .error .retry
        else if y.level != .task || (s.coreAt place).holds y.who.prog then atTcm place off
        else .ok (toBytes n 0, false, s.count (unitRouter (clusterOf t)) ctrRefused)
  | _, _ => .error .refused

/-- One access of the engine of core `c` within one 32-byte sector: it reads `n` bytes, or writes those given. -/
def State.engPiece (s : State) (c : Nat) (y : Copy) (sp ea n : Nat) (w : Option (List Byte)) :
    Except EngStop (List Byte × Bool × State) :=
  if sp = spaceLxm then
    let slot := ea / 2 ^ 32
    let b := bits ea 20 4
    let off := bits ea 0 20
    match w with
    | some d => .ok ([], false, s.modBuffer slot b fun x =>
        { x with data := wrBytes x.data off d, bad := x.bad.filter fun u => !(off ≤ 8 * u && 8 * u + 8 ≤ off + d.length) })
    | none =>
      let x := ((mget s.lxm slot).map (·.buffer b)).getD {}
      .ok (rdBytes x.data off n, x.bad.any fun u => off / 8 ≤ u && u ≤ (off + n - 1) / 8, s)
  else if onChip ea then (if 0xFF00 ≤ sp then .error .refused else s.engChip c y ea n w)
  else if s.engNoDram c || !s.spaceOk sp y.tenant then .error .refused
  else if isLocal sp then s.engHome y sp ea n w
  else s.engAway y sp ea n w

/-- Read `n` bytes sector by sector. -/
def State.engRead (s : State) (c : Nat) (y : Copy) (sp : Nat) : Nat → Nat → Nat → Except EngStop (List Byte × Bool × State)
  | 0, _, _ => .ok ([], false, s)
  | fuel + 1, ea, n =>
    if n = 0 then .ok ([], false, s)
    else
      let k := min n (32 - ea % 32)
      match s.engPiece c y sp ea k none with
      | .error e => .error e
      | .ok (l, bad, s) => match s.engRead c y sp fuel ((ea + k) % 2 ^ 64) (n - k) with
        | .error e => .error e
        | .ok (m, bad', s) => .ok (l ++ m, bad || bad', s)

/-- Write bytes sector by sector. -/
def State.engWrite (s : State) (c : Nat) (y : Copy) (sp : Nat) : Nat → Nat → List Byte → Except EngStop State
  | 0, _, _ => .ok s
  | fuel + 1, ea, d =>
    if d.isEmpty then .ok s
    else
      let k := min d.length (32 - ea % 32)
      match s.engPiece c y sp ea k (some (d.take k)) with
      | .error e => .error e
      | .ok (_, _, s) => s.engWrite c y sp fuel ((ea + k) % 2 ^ 64) (d.drop k)

/-! ### What one sector of a copy reads and writes -/

/-- A part of what a sector is made of. -/
inductive Piece where
  | src (sp ea n : Nat) | zero (n : Nat)
  deriving DecidableEq, Repr

/-- Fields of a tensor shape record (R283). -/
def tBase (r : Nat) : Nat := bits r 0 64
def tLog (r : Nat) : Nat := bits r 64 8
def tDims (r : Nat) : Nat := bits r 72 8
def tPad (r : Nat) : Nat := bits r 80 8
def tExtent (r k : Nat) : Nat := bits r (128 + 32 * k) 32
def tStride (r k : Nat) : Int := if k < tDims r then signedOf 64 (bits r (256 + 64 * k) 64) else 0

/-- Bytes of an innermost row on the contiguous side, with its padding. -/
def tRow (r : Nat) : Nat :=
  let n := tExtent r 0 * 2 ^ tLog r
  match tPad r with | 0 => n | 1 => roundUp n 16 | _ => roundUp n 64

/-- Bytes of the contiguous side. -/
def tTotal (r : Nat) : Nat := tRow r * tExtent r 1 * tExtent r 2 * tExtent r 3

/-- A record that R283 does not call malformed. -/
def tensorOk (r : Nat) : Bool :=
  let d := tDims r
  tLog r ≤ 3 && 1 ≤ d && d ≤ 4 && tPad r ≤ 2 && bits r 88 40 == 0 && tBase r % 2 ^ tLog r == 0 &&
  (List.range 4).all fun k => if k < d then 1 ≤ tExtent r k && bits r (256 + 64 * k) 64 % 2 ^ tLog r == 0 else tExtent r k == 1

/-- Lowest and highest byte that an element occupies (R279). -/
def tensorSpan (r : Nat) : Nat × Nat :=
  let step (f : Int → Int) : Int := (List.range 4).foldl (fun a k => a + f (((tExtent r k : Int) - 1) * tStride r k)) (tBase r)
  (wrapInt 64 (step (min 0)), wrapInt 64 (step (max 0) + 2 ^ tLog r - 1))

/-- Address of the element whose contiguous offset is `o`; none for padding. -/
def tensorAt (r o : Nat) : Option Nat :=
  let i0 := o % tRow r / 2 ^ tLog r
  let q := o / tRow r
  if tExtent r 0 ≤ i0 then none
  else
    let i1 := q % tExtent r 1
    let i2 := q / tExtent r 1 % tExtent r 2
    let i3 := q / (tExtent r 1 * tExtent r 2)
    some (wrapInt 64 (tBase r + i0 * tStride r 0 + i1 * tStride r 1 + i2 * tStride r 2 + i3 * tStride r 3))

/-- Entry `q` of a block list is poisoned (R347). -/
def entryBad (l : List Nat) (q : Nat) : Bool := bit (l.getD q 0) 31

/-- Sectors of a copy. -/
def Copy.units (y : Copy) : Nat := (y.length + 31) / 32

/-- What sector `k` of a copy reads. -/
def Copy.reads (y : Copy) (k : Nat) : List Piece :=
  let o := 32 * k
  let n := min 32 (y.length - o)
  match y.work with
  | .linear src _ => [.src y.space ((src + o) % 2 ^ 64) n]
  | .handler src _ _ _ => [.src y.space ((src + o) % 2 ^ 64) n]
  | .publish _ src _ => [.src y.space ((src + o) % 2 ^ 64) n]
  | .fetch slot _ _ b => [.src spaceLxm (lxmAt slot (b.getD 0) o) n]
  | .tensor record base store =>
    let r := record.toNat
    let e := 2 ^ tLog r
    (List.range (n / e)).map fun i => match tensorAt r (o + i * e) with
      | some a => .src y.space (if store then (base + o + i * e) % 2 ^ 64 else a) e
      | none => .zero e
  | .blocks gather flat space base log entries _ _ =>
    let q := o / 2 ^ log
    if entryBad entries q then [.zero n]
    else if gather then [.src space ((base + entries.getD q 0 % 2 ^ 24 * 2 ^ log + o % 2 ^ log) % 2 ^ 64) n]
    else [.src y.space ((flat + o) % 2 ^ 64) n]
  | _ => []

/-- Where sector `k` of a copy goes: space, address and bytes. -/
def Copy.writes (y : Copy) (k : Nat) (d : List Byte) : List (Nat × Nat × List Byte) :=
  let o := 32 * k
  match y.work with
  | .linear _ dst => [(y.space, (dst + o) % 2 ^ 64, d)]
  | .publish slot _ b => [(spaceLxm, lxmAt slot (b.getD 0) o, d)]
  | .fetch _ dst _ _ => [(y.space, (dst + o) % 2 ^ 64, d)]
  | .tensor record base store =>
    let r := record.toNat
    let e := 2 ^ tLog r
    if store then (List.range (d.length / e)).filterMap fun i =>
      (tensorAt r (o + i * e)).map fun a => (y.space, a, (d.drop (i * e)).take e)
    else [(y.space, (base + o) % 2 ^ 64, d)]
  | .blocks gather flat space base log entries _ _ =>
    let q := o / 2 ^ log
    if gather then [(y.space, (flat + o) % 2 ^ 64, d)]
    else if entryBad entries q then []
    else [(space, (base + entries.getD q 0 % 2 ^ 24 * 2 ^ log + o % 2 ^ log) % 2 ^ 64, d)]
  | _ => []

/-- Read the pieces of a sector. -/
def State.engGather (s : State) (c : Nat) (y : Copy) : List Piece → Except EngStop (List Byte × Bool × State)
  | [] => .ok ([], false, s)
  | p :: l =>
    let first : Except EngStop (List Byte × Bool × State) := match p with
      | .src sp ea n => s.engRead c y sp (sectorFuel n) ea n
      | .zero n => .ok (toBytes n 0, false, s)
    match first with
    | .error e => .error e
    | .ok (d, bad, s) => match s.engGather c y l with
      | .error e => .error e
      | .ok (m, bad', s) => .ok (d ++ m, bad || bad', s)

/-- Perform the writes of a sector. -/
def State.engScatter (s : State) (c : Nat) (y : Copy) : List (Nat × Nat × List Byte) → Except EngStop State
  | [] => .ok s
  | (sp, ea, d) :: l => match s.engWrite c y sp (sectorFuel d.length) ea d with
    | .error e => .error e
    | .ok s => s.engScatter c y l

/-! ### Progress of a copy -/

def State.copy? (s : State) (c id : Nat) : Option Copy := mget (s.core c).copies id
def State.setCopy (s : State) (c id : Nat) (y : Copy) : State := s.modCore c fun k => { k with copies := mset k.copies id y }

/-- The copy is complete; its entry for mailbox 0 is ready. -/
def State.finishCopy (s : State) (c id : Nat) (y : Copy) : State :=
  (s.setCopy c id { y with state := 2, waitPair := none, busy := false }).post (cyc 2) (.copyCompletion c id)

/-- Sector `k` of the copy stays within the core's own TCM. -/
def Copy.stays (y : Copy) (c k : Nat) : Bool :=
  let own (sp ea : Nat) : Bool := sp != spaceLxm && onChip ea && (match winFor c ea with
    | some (.ownTcm _) => true
    | _ => false)
  let from_ := (y.reads k).all fun p => match p with
    | .src sp ea _ => own sp ea
    | .zero _ => true
  match y.work with
  | .stream _ => false
  | .tail _ => false
  | .elements _ _ _ => false
  | _ => from_ && (y.writes k (toBytes (min 32 (y.length - 32 * k)) 0)).all fun w => own w.1 w.2.1

/-- The engine's next sector. A request that leaves the core goes through its egress buffer (R12, R278). -/
def State.nextSector (s : State) (c id : Nat) : State :=
  match s.copy? c id with
  | some y => if y.stays c y.sectors then s.post 2 (.copySectorReply c id) else s.emit c 1 2 (.copySectorReply c id)
  | none => s

/-- A read or write of the copy failed (R221, R281). -/
def State.copyStopped (s : State) (c id : Nat) (y : Copy) : EngStop → State
  | .retry => (s.setCopy c id y).post (cyc 1) (.copySectorReply c id)
  | .asleep h => (s.setCopy c id y).awaitWake h (.copySectorReply c id)
  | .refused => (s.count (unitCore c) ctrRefused).finishCopy c id { y with status := 6 }
  | .fault ea sp reason kind => (s.setCopy c id { y with busy := true }).post (cyc 12) (.translationFault
      { core := c, who := y.who, bank := y.slot, of_ := .copy id, offset := ea, space := sp, kind := kind, reason := reason
        tenant := y.tenant, word := 0 })

/-- Bytes counted in A for a sector: what it writes to the destination. -/
def wrote (l : List (Nat × Nat × List Byte)) : Nat := l.foldl (fun n w => n + w.2.2.length) 0

/-- A poisoned source (R281, R286, R393, R394): zeros, the status, and the first such sector in B; block copies set the bits
of B and of the entry, and a gathered block is written as zeros from its start. -/
def State.copyPoison (s : State) (c : Nat) (y : Copy) (k : Nat) : State × Copy × Bool :=
  let s := s.usePoison c y.who.prog y.kind_
  match y.work with
  | .blocks gather flat space base log entries tspace table =>
    let q := 32 * k / 2 ^ log
    let e := entries.getD q 0
    let entries := entries.set q (e % 2 ^ 31 + 2 ^ 31)
    let y := { y with
      work := .blocks gather flat space base log entries tspace table
      status := 2, b := putBits y.b q 1 1 }
    let t := (match s.engRead c y tspace 2 (table + 4 * q) 4 with
      | .ok (d, _, s) => match s.engWrite c y tspace 2 (table + 4 * q) (toBytes 4 (ofBytes d % 2 ^ 31 + 2 ^ 31)) with
        | .ok s => s
        | .error _ => s
      | .error _ => s)
    (t, if gather then { y with sectors := q * 2 ^ log / 32, a := q * 2 ^ log } else y, gather)
  | _ => (s, if y.status = 2 then y else { y with status := 2, b := 32 * k }, false)

/-- Which of a sector's writes are compared requests (R395): those outside the twin's own TCM, and not into the LXM, whose
publication is compared as a whole, nor into a TCM of the gang (R397). -/
def comparedWrites (c : Nat) (gang : Bool) (l : List (Nat × Nat × List Byte)) : Bool := l.any fun w =>
  w.1 != spaceLxm && !(onChip w.2.1 && (match winFor c w.2.1 with
    | some (.ownTcm _) => true
    | some (.tcm _ _) => gang
    | _ => false))

/-- What the hash of a compared sector covers. -/
def writesHash (l : List (Nat × Nat × List Byte)) : List Byte := l.flatMap fun w => requestHash 6 w.1 (toBytes 8 w.2.1 ++ w.2.2)

/-- The thread that a compared request of a copy belongs to. -/
def Copy.thread (y : Copy) : Thread := { prog := y.who.prog, serial := y.who.serial, kind := y.kind_ }

/-- Send a compared request of the copy; `go` is what the match lets come about. -/
def State.compareCopy (s : State) (c id : Nat) (y : Copy) (n : Nat) (go : Event) (what : List Byte) : State :=
  let i := s.fresh
  (i.2.setCopy c id { y with waitPair := some i.1 }).sendFor c y.thread (y.number + 1 + n) i.1 2 go what

/-- The compared request of a copy has been matched, and this copy is the one that performs it. -/
def State.pairMatched (s : State) (y : Copy) : Bool := match y.waitPair with
  | some i => ((mget s.pairs i).bind (·.twin)).isSome
  | none => false

/-- Let the partner's copy know the outcome: `f` is applied to it, and it goes on. -/
def State.tellTwin (s : State) (y : Copy) (f : Copy → Copy) (go : Nat → Nat → Event) : State :=
  match y.waitPair.bind fun i => (mget s.pairs i).bind fun q => q.twin.map fun j => (i, j) with
  | none => s
  | some (i, j) =>
    let s := { s with pairs := mdel (mdel s.pairs i) j }
    match s.cores.findSome? fun k => (k.2.copies.find? fun z => z.2.waitPair == some j).map fun z => (k.1, z.1, z.2) with
    | some (tc, tid, z) => (s.setCopy tc tid { f z with waitPair := none }).post 2 (go tc tid)
    | none => s

/-- The copy is a read of an LXM slot: after its last sector the reader count is still to be given back (R313). -/
def Copy.isFetch (y : Copy) : Bool := match y.work with
  | .fetch _ _ _ _ => true
  | _ => false

/-- The writes of sector `k` have been performed. -/
def State.sectorDone (s : State) (c id : Nat) (y : Copy) (k : Nat) (w : List (Nat × Nat × List Byte)) : State :=
  let step (z : Copy) : Copy := { z with sectors := k + 1, a := z.a + wrote w }
  let s := s.tellTwin y step fun c id => .copySectorReply c id
  let y := { step y with waitPair := none }
  if y.units ≤ k + 1 && !y.isFetch then s.finishCopy c id y else (s.setCopy c id y).nextSector c id

/-- One sector of CPY, CPY2D, CPYG, CPYS, or of an LXM transfer. -/
def State.copySector (s : State) (c id : Nat) (y : Copy) : State :=
  let k := y.sectors
  if y.units ≤ k then
    (s.tellTwin y (fun z => z) fun c id => .copySectorReply c id).finishCopy c id { y with waitPair := none }
  else match s.engGather c y (y.reads k) with
    | .error e => s.copyStopped c id y e
    | .ok (d, bad, s) =>
      let p := if bad then s.copyPoison c y k else (s, y, false)
      let s := p.1
      let y0 := y
      let y := p.2.1
      if p.2.2 then (s.setCopy c id y).nextSector c id
      else
        let d := if bad then toBytes d.length 0 else d
        let w := y0.writes k d
        if (s.pairOf c y.kind_).isSome && comparedWrites c y.kind_.isGang w && !s.pairMatched y then
          if y.waitPair.isSome then s.setCopy c id y
          else s.compareCopy c id y k (.copySectorReply c id) (writesHash w)
        else match s.engScatter c y w with
          | .error e => s.copyStopped c id y e
          | .ok s => s.sectorDone c id y k w

/-! ### Landing handlers (R287) -/

/-- Bank 3 runs an invocation or holds another thread, or slot 3 runs its shadow bank (R16, R287). -/
def Core.landingBusy (k : Core) : Bool := (mget k.banks 3).isSome || (mget k.running 3).isSome

/-- Sectors of copy `id` have landed whose invocations have not ended: its completion waits for them (R287). -/
def Core.landingOf (k : Core) (id : Nat) : Bool :=
  k.landing.any (·.1 == id) || (match mget k.banks 3 with
    | some t => t.kind == .landing id
    | none => false)

/-- A sector of CPYH lands and waits for its invocation; at most 8 sectors of one copy are in flight (R278). -/
def State.landSector (s : State) (c id : Nat) (y : Copy) (dst : Nat) : State :=
  let k := y.sectors
  let waiting := ((s.core c).landing.filter fun l => l.1 == id).length
  if y.units ≤ k then (if (s.core c).landingOf id then s else s.finishCopy c id y)
  else if 8 ≤ waiting then (s.setCopy c id y).post (cyc 8) (.copySectorReply c id)
  else match s.engGather c y (y.reads k) with
    | .error e => s.copyStopped c id y e
    | .ok (d, bad, s) =>
      let p := if bad then s.copyPoison c y k else (s, y, false)
      let y := { p.2.1 with sectors := k + 1, a := p.2.1.a + d.length }
      let body : Payload := if bad then 0 else BitVec.ofNat 256 (ofBytes d)
      (((p.1.setCopy c id y).modCore c fun q => { q with landing := q.landing ++ [(id, dst + 32 * k, 32 * k, body)] }).nextSector c id).post
        2 (.landingHandlerInvocation c)

/-- A thread's launch values that a landing handler shares: STACK, argument block and trap vector of the program. -/
def Prog.stackTop (g : Prog) (slot : Nat) : Word := 0xFF0000000000C000 - BitVec.ofNat 64 (slot * g.stack)

/-- The trap vector a program's threads start with (R30, R31). -/
def Prog.vector (g : Prog) : IAddr := match g.run with
  | some r => r.tvec
  | none => g.reflexTvec

/-- The next serial number of a program (R74), and the state that has given it. -/
def State.newSerial (s : State) (p : Nat) : Nat × State :=
  let n := ((s.prog? p).map (·.serial)).getD 0 + 1 + Config.serialGap s.draw
  (n, ({ s with draw := s.draw + 1 } : State).modProg p fun g => { g with serial := n })

/-- Start the invocation of the oldest landed sector in bank 3 (R287). -/
def State.startLanding (s : State) (c : Nat) : State :=
  let k := s.core c
  match k.landing with
  | [] => s
  | (id, addr, off, body) :: rest =>
    if k.landingBusy || k.halted || k.seized.isSome then s
    else match mget k.copies id with
      | some y =>
        match y.work with
        | .handler _ _ entry desc =>
          let p := y.who.prog
          let g := s.prog? p
          let n := s.newSerial p
          let latency := match y.kind_ with
            | .reflex _ _ => true
            | _ => k.staked.isSome || ((g.bind (·.run)).map (·.latency)).getD false
          let t : Thread :=
            { kind := .landing id, prog := p, serial := n.1, tenant := y.tenant, level := y.level, latency := latency
              profile := (g.map (·.profile)).getD 0, pc := BitVec.ofNat 40 entry
              space := BitVec.ofNat 16 ((g.map (·.space)).getD y.space)
              trap0 := { tvec := (g.map Prog.vector).getD 0 } }
          let t := ((((t.setX 2 ((g.map fun g => g.stackTop 3).getD 0)).setX 4 (BitVec.ofNat 64 (0xFF00 * 2 ^ 48 + addr))).setX 5
            (BitVec.ofNat 64 off)).setX 6 (BitVec.ofNat 64 id)).setX 11 (BitVec.ofNat 64 (0xFF00 * 2 ^ 48 + desc))
          let t := (t.setV 0 (body.setWidth 128)).setV 1 ((body >>> 128).setWidth 128)
          n.2.modCore c fun k => { k with banks := mset k.banks 3 t, landing := rest }
        | _ => s.modCore c fun k => { k with landing := rest }
      | none => s.modCore c fun k => { k with landing := rest }

/-- LANDING_HANDLER_INVOCATION (R287). -/
def execLandingHandlerInvocation (s : State) : Out :=
  match s.event with
  | .landingHandlerInvocation c => .next (s.startLanding c)
  | _ => .next s

/-- An accepted CPYH of the core is still in progress. -/
def Core.landingOpen (k : Core) : Bool := !k.landing.isEmpty || k.copies.any fun y => match y.2.work with
  | .handler _ _ _ _ => y.2.state < 2
  | _ => false

/-- Bank 3 stays reserved while a CPYH of the core is in progress; the next invocation may start. -/
def State.landingNext (s : State) (c : Nat) : State :=
  (s.modCore c fun k => { k with reserved := k.landingOpen }).post 2 (.landingHandlerInvocation c)

/-- An invocation for copy `id` has ended: the next one starts, or the copy completes, one that was stopped or killed before with
the status it has (R281, R287). -/
def State.landingEnded (s : State) (c id : Nat) : State :=
  let k := s.core c
  let s := match mget k.copies id with
    | some y =>
      if k.landingOf id then s
      else if 2 ≤ y.state then s.post (cyc 2) (.copyCompletion c id)
      else if y.state = 0 && y.units ≤ y.sectors then s.finishCopy c id y
      else s
    | none => s
  s.landingNext c

/-! ### Streams (R289-R293) -/

/-- The bank of the thread whose stream uses copy `id`. -/
def Core.streamBank (k : Core) (w : Who) : Option Nat := (k.banks.find? fun b => b.2.who == w).map (·.1)

/-- Move a stream on by one strip: fetch ahead, or write what was appended. -/
def State.streamStep (s : State) (c id : Nat) (y : Copy) (reg : Nat) : State :=
  let k := s.core c
  match k.streamBank y.who with
  | none => s
  | some b =>
    let t := (mget k.banks b).getD {}
    match t.stream? reg with
    | none => s
    | some st =>
      let put (s : State) (st : Stream) : State :=
        s.modCore c fun k => k.modBank b fun t => { t with streams := mset t.streams reg st }
      let ea := stripOffset st.image st.n
      if st.killed then s
      else if st.write then
        match st.strips with
        | [] => s
        | v :: l =>
          let w := [(y.space, ea, toBytes 16 v.toNat)]
          if (s.pairOf c y.kind_).isSome && comparedWrites c y.kind_.isGang w && !s.pairMatched y then
            if y.waitPair.isSome then s else s.compareCopy c id y st.n (.copySectorReply c id) (writesHash w)
          else match s.engScatter c y w with
            | .error e => match e with
              | .refused => (put s { st with killed := true, strips := [], copy := 96 }).copyStopped c id y .refused
              | e => s.copyStopped c id y e
            | .ok s =>
              let s := s.tellTwin y (fun z => { z with a := z.a }) fun c id => .copySectorReply c id
              ((put s { st with strips := l, n := st.n + 1 }).setCopy c id { y with a := y.a + 1, waitPair := none }).nextSector c id
      else if 4 ≤ st.strips.length || stripTotal st.image ≤ st.n then s
      else match s.engRead c y y.space 2 ea 16 with
        | .error e => match e with
          | .refused => put (s.count (unitCore c) ctrRefused) { st with killed := true }
          | e => s.copyStopped c id y e
        | .ok (d, bad, s) =>
          let s := if bad then s.usePoison c y.who.prog y.kind_ else s
          let v : Vec := if bad then 0 else BitVec.ofNat 128 (ofBytes d)
          ((put s { st with strips := st.strips ++ [v], n := st.n + 1 }).nextSector c id).drain c

/-- Strips of an ended write binding that are still to be written (R293). -/
def State.tailStep (s : State) (c id : Nat) (y : Copy) (l : List (Nat × Vec)) : State :=
  match l with
  | [] => s.finishCopy c id y
  | (ea, v) :: r =>
    let w := [(y.space, ea, toBytes 16 v.toNat)]
    if (s.pairOf c y.kind_).isSome && comparedWrites c y.kind_.isGang w && !s.pairMatched y then
      if y.waitPair.isSome then s else s.compareCopy c id y y.a (.copySectorReply c id) (writesHash w)
    else match s.engScatter c y w with
      | .error e => s.copyStopped c id y e
      | .ok s =>
        let s := s.tellTwin y (fun z => z) fun c id => .copySectorReply c id
        (s.setCopy c id { y with work := .tail r, a := y.a + 1, waitPair := none }).nextSector c id

/-! ### LXM (R311-R313) -/

/-- A program may use a slot: its own, or one granted to it (R311). -/
def State.slotFor (s : State) (n prog : Nat) : Option LxmSlot :=
  match mget s.lxm n with
  | some l => if l.owner = prog ∨ prog ∈ l.granted then some l else none
  | none => none

/-- The buffers of a slot: R + 2. -/
def LxmSlot.numbers (l : LxmSlot) : List Nat := List.range (l.readers + 2)

/-- Reads in progress. -/
def LxmSlot.reads (l : LxmSlot) : Nat := l.numbers.foldl (fun n b => n + (l.buffer b).readers) 0

/-- Begin a publication (R312): BUSY, or a buffer that is not the latest and has no reader. -/
def LxmSlot.claim (l : LxmSlot) : Option Nat :=
  if l.writing.isSome then none
  else l.numbers.find? fun b => l.latest != some b && (l.buffer b).readers == 0

/-- The buffer an XMRD or XMRDT reads (R313). -/
def LxmSlot.pick (l : LxmSlot) : Option Nat → Option Nat
  | none => l.latest.filter fun b => (l.buffer b).complete
  | some t => (l.numbers.foldl (fun (best : Option (Nat × Nat)) b =>
      let x := l.buffer b
      if !x.complete || t < x.time then best
      else match best with
        | some (_, u) => if u < x.time then some (b, x.time) else best
        | none => some (b, x.time)) none).map (·.1)

/-- Begin the publication of a copy; its outcome goes to both twins. -/
def State.beginPublish (s : State) (c id : Nat) (y : Copy) (slot src : Nat) : State :=
  match (mget s.lxm slot).bind LxmSlot.claim with
  | none =>
    (s.tellTwin y (fun z => { z with status := 4, sectors := z.units, work := .refused }) fun c id => .copySectorReply c id).finishCopy
      c id { y with status := 4 }
  | some b =>
    let mine (z : Copy) : Copy := match z.work with
      | .publish n src _ => { z with work := .publish n src (some b) }
      | _ => z
    let s := s.tellTwin y mine fun c id => .copySectorReply c id
    ((s.modSlot slot fun l => { l with writing := some b }).modBuffer slot b fun x => { x with complete := false })
      |>.setCopy c id { y with work := .publish slot src (some b), waitPair := none } |>.nextSector c id

/-- The thread runs a shadow entry of the spare, whose publications to mirrored slots write nothing (R406). -/
def State.shadowed (s : State) (k : Kind) (slot : Nat) : Bool :=
  match k with
  | .reflex e _ => ((mget s.front.reflex e).map (·.shadow)).getD false && ((mget s.lxm slot).map (·.mirrored)).getD false
  | _ => false

/-- A step of XMPUB: claim, sectors, commit. Only the primary of a pair writes the buffer; C runs a hash over the data, which
the commit of a pair compares. -/
def State.publishStep (s : State) (c id : Nat) (y : Copy) (slot src : Nat) (b : Option Nat) : State :=
  let pair := s.pairOf c y.kind_
  match b with
  | none =>
    if s.shadowed y.kind_ slot then s.finishCopy c id { y with b := s.meridianNow }
    else if pair.isSome && !s.pairMatched y then
      if y.waitPair.isSome then s
      else s.compareCopy c id y 0 (.copySectorReply c id) (requestHash 7 0 (toBytes 8 slot ++ toBytes 8 y.length))
    else s.beginPublish c id y slot src
  | some _ =>
    let k := y.sectors
    if y.units ≤ k then
      if pair.isSome then
        if y.waitPair.isSome then s
        else s.compareCopy c id y 1 (.xmpubCommit c id) (requestHash 8 0 (toBytes 8 slot ++ toBytes 8 y.c))
      else s.post 2 (.xmpubCommit c id)
    else match s.engGather c y (y.reads k) with
      | .error e => s.copyStopped c id y e
      | .ok (d, bad, s) =>
        let p := if bad then s.copyPoison c y k else (s, y, false)
        let d := if bad then toBytes d.length 0 else d
        let w := if (pair.map (·.2)).getD true then p.2.1.writes k d else []
        match p.1.engScatter c p.2.1 w with
        | .error e => p.1.copyStopped c id p.2.1 e
        | .ok s => (s.setCopy c id
          { p.2.1 with sectors := k + 1, a := p.2.1.a + d.length, c := (crc64 (toBytes 8 p.2.1.c ++ d)).toNat }).nextSector c id

/-- Send a mirror message to the spare (R405). -/
def State.mirrorOut (s : State) (m : Mirror) : State :=
  if !s.front.mirroring || !s.front.active then s
  else s.modFront fun f => { f with mirrorSeq := f.mirrorSeq + 1, peerOut := f.peerOut ++ [.mirror (f.mirrorSeq + 1) m] }

/-- The commit of R312 and R415: version, time and latest in one step; a mirrored slot goes to the spare. -/
def State.commitSlot (s : State) (slot b : Nat) (time : Nat) : State :=
  let v := ((mget s.lxm slot).map (·.last)).getD 0 + 1
  let s := (s.modBuffer slot b fun x => { x with version := v, time := time, complete := true, epoch := s.front.epoch }).modSlot slot
    fun l => { l with last := v, latest := some b, writing := none }
  match mget s.lxm slot with
  | some l => if l.mirrored then s.mirrorOut (.publication slot v time (rdBytes (l.buffer b).data 0 l.size)) else s
  | none => s

/-- XMPUB_COMMIT (R312). -/
def execXmpubCommit (s : State) : Out :=
  match s.event with
  | .xmpubCommit c id => .next (match s.copy? c id with
    | some y => match y.work with
      | .publish slot _ (some b) =>
        if y.state ≠ 0 then s
        else
          let time := s.meridianNow
          let s := s.commitSlot slot b time
          let v := ((mget s.lxm slot).map (·.last)).getD 0
          let res (z : Copy) : Copy := { z with a := v % 2 ^ 32, b := time, c := 0, work := .refused }
          (s.tellTwin y res fun c id => .copySectorReply c id).finishCopy c id (res y)
      | _ => s
    | none => s)
  | _ => .next s

/-- A step of XMRD or XMRDT: choose the buffer, then sectors, then the completion. -/
def State.fetchStep (s : State) (c id : Nat) (y : Copy) (slot dst : Nat) (time b : Option Nat) : State :=
  match b with
  | none =>
    match mget s.lxm slot with
    | none => s.finishCopy c id { y with status := 6 }
    | some l => match l.pick time with
      | none => s.finishCopy c id { y with status := 3 }
      | some f =>
        if l.readers ≤ l.reads then s.finishCopy c id { y with status := 5 }
        else ((s.modBuffer slot f fun x => { x with readers := x.readers + 1 }).setCopy c id
          { y with work := .fetch slot dst time (some f) }).nextSector c id
  | some _ => if y.units ≤ y.sectors then s.post 2 (.xmrdCompletion c id) else s.copySector c id y

/-- A fetch that ends, in whatever way, gives its reader count back. -/
def State.endFetch (s : State) (y : Copy) : State :=
  match y.work with
  | .fetch slot _ _ (some f) => s.modBuffer slot f fun x => { x with readers := x.readers - 1 }
  | _ => s

/-- XMRD_COMPLETION (R313). -/
def execXmrdCompletion (s : State) : Out :=
  match s.event with
  | .xmrdCompletion c id => .next (match s.copy? c id with
    | some y => match y.work with
      | .fetch slot dst time (some f) =>
        let x := ((mget s.lxm slot).map (·.buffer f)).getD {}
        (s.endFetch y).finishCopy c id { y with
          work := .fetch slot dst time none, a := x.version % 2 ^ 32, b := x.time, c := y.length }
      | _ => s
    | none => s)
  | _ => .next s

/-! ### CPYQ (R288) -/

/-- Offset in the range of CPYQ of the 32-byte sector that holds the first poisoned byte of an element at offset `o` (R281). -/
def State.badSector (s : State) (c : Nat) (y : Copy) (src elem o : Nat) : Nat :=
  let bad (j : Nat) : Bool := match s.engRead c y y.space 2 ((src + o + 8 * j) % 2 ^ 64) 8 with
    | .ok r => r.2.1
    | .error _ => false
  (o + 8 * ((List.range (elem / 8)).find? bad).getD 0) / 32 * 32

/-- Enqueue the next element: read it and send it to the home as ENQT does. -/
def State.elementStep (s : State) (c id : Nat) (y : Copy) (src qcb elem : Nat) : State :=
  let k := y.sectors
  if y.length ≤ k then s.finishCopy c id y
  else match s.engRead c y y.space (sectorFuel elem) ((src + k * elem) % 2 ^ 64) elem with
    | .error e => s.copyStopped c id y e
    | .ok (d, bad, s) =>
      if bad then
        let y := if y.status = 2 then y else { y with status := 2, b := s.badSector c y src elem (k * elem) }
        ((s.usePoison c y.who.prog y.kind_).setCopy c id { y with sectors := k + 1 }).nextSector c id
      else
        let i := s.fresh
        let s := i.2
        let chip := onChip qcb
        let home := if chip then 32 else s.homeOf y.space qcb
        let o : QOp := { home := home, core := c, who := y.who, word := 0, tenant := y.tenant, space := if chip then spaceOnChip else y.space
                         op := .enqt 0 0 0 0, a := BitVec.ofNat 64 qcb, b := BitVec.ofNat 64 (elem * 2 ^ 16), data := d, copy := some id }
        let s := ({ s with qops := mset s.qops i.1 o } : State).setCopy c id { y with busy := true }
        let r := (s.core c).enterEgress s.now (flitsOf (16 + elem))
        (s.setCore c r.2).sendFor c y.thread (y.number + 1 + k) i.1 (r.1 + cyc (6 + hopsHome (clusterOf c) home))
          (.homeControllerOperation i.1 none) (requestHash 9 o.space (toBytes 8 qcb ++ d))

/-- Send the probe message of PROBE to its starting thread (R309). -/
def State.launchProbe (s : State) (c id : Nat) (y : Copy) : State :=
  let w := whoOfId (BitVec.ofNat 64 y.src)
  (s.setCopy c id { y with busy := true }).emit c 1 (cyc 6) (.probeHop
    { who := y.who, core := c, copy := id, auto := false, start := w, at_ := w, found := [] })

/-! ### The engine's step -/

/-- The engine of the core may start a sector: no quiesce, not vacated (R47, R236). -/
def Core.engineRuns (k : Core) : Bool := !k.quiesce && k.seized.isNone

/-- The next step of copy `id` of core `c`, if it runs. -/
def State.copyStep (s : State) (c id : Nat) : State :=
  if 2 ^ 20 ≤ c || !(s.core c).engineRuns then s
  else match s.copy? c id with
    | none => s
    | some y =>
      if y.state ≠ 0 || (y.busy && y.kind != 6) then s
      else match y.work with
        | .handler _ dst _ _ => s.landSector c id y dst
        | .stream reg => s.streamStep c id y reg
        | .tail l => s.tailStep c id y l
        | .publish slot src b => s.publishStep c id y slot src b
        | .fetch slot dst time b => s.fetchStep c id y slot dst time b
        | .elements src qcb elem => if y.busy then s else s.elementStep c id y src qcb elem
        | .probe _ => s.launchProbe c id y
        | .refused => s.finishCopy c id y
        | _ => s.copySector c id y

/-- COPY_SECTOR_REPLY (R278). -/
def execCopySectorReply (s : State) : Out :=
  match s.event with
  | .copySectorReply c id => .next (s.copyStep c id)
  | _ => .next s

/-- STREAM_REFILL (R292). -/
def execStreamRefill (s : State) : Out :=
  match s.event with
  | .streamRefill c id => .next (match s.copy? c id with
    | some y => match y.work with
      | .stream _ => s.copyStep c id
      | _ => s
    | none => s)
  | _ => .next s

/-- CPYQ_RETRY (R288): the element is tried again. -/
def execCpyqRetry (s : State) : Out := s.orWait <|
  match s.event with
  | .cpyqRetry c id => .next (match s.copy? c id with
    | some y => (s.setCopy c id { y with busy := false }).copyStep c id
    | none => s)
  | _ => .next s

/-! ### Completions (R274, R181) -/

/-- The entry of R274. -/
def entryOf (kind status id a b c : Nat) (tid : Word) : Payload :=
  BitVec.ofNat 256 (kind % 2 ^ 8 + status % 2 ^ 8 * 2 ^ 8 + id % 2 ^ 16 * 2 ^ 16 + a % 2 ^ 32 * 2 ^ 32 + b % 2 ^ 64 * 2 ^ 64 +
    c % 2 ^ 64 * 2 ^ 128 + tid.toNat * 2 ^ 192)

/-- A as the entry of R274 shows it: the strips of a write stream that ended in order, the bytes of one that was killed or refused
(R281, R293). -/
def Copy.shownA (y : Copy) (status : Nat) : Nat := if y.entry = 2 && (status = 1 || status = 6) then 16 * y.a else y.a

/-- The id is free again, and an ended thread may have drained. -/
def State.freeCopy (s : State) (c id : Nat) (w : Who) : State :=
  (s.modCore c fun k => { k with copies := mdel k.copies id }).releaseIfDrained w

/-- A copy that ended before its time gives back what it held of the LXM (R312). -/
def State.giveUp (s : State) (y : Copy) : State :=
  match y.work with
  | .publish slot _ (some b) => s.modSlot slot fun l => if l.writing = some b then { l with writing := none } else l
  | _ => s.endFetch y

/-- A copy has ended whose id was the landing handlers': bank 3 may be free for others (R287). -/
def State.landingFreed (s : State) (c : Nat) (y : Copy) : State :=
  match y.work with
  | .handler _ _ _ _ => s.landingNext c
  | _ => s

/-- Place the completion of copy `id` of core `c`: in mailbox 0 of the core its thread runs on now, nowhere when the thread
has ended (R181); with the mailbox full it waits (R273). -/
def State.complete (s : State) (c id : Nat) (y : Copy) : State :=
  let work := y.work
  let s := s.giveUp y
  let status := if y.state = 3 then 1 else y.status
  let c0 := if y.entry = 3 then 0 else y.c
  let entry := entryOf y.entry status id (y.shownA status) y.b c0 (({ prog := y.who.prog, serial := y.who.serial } : Thread).id (s.bankNo y.who))
  let y := { y with state := 2, status := status, work := .refused }
  let s := (s.setCopy c id y).landingFreed c { y with work := work }
  match s.locate y.who with
  | none => s.freeCopy c id y.who
  | some (.live d _) => match s.putMail d 0 entry with
    | some s => s.freeCopy c id y.who
    | none => s
  | some (.saved i _) =>
    if s.streaming (ctxPlace i) || s.arrivalsFull i then s.post (cyc 64) (.copyCompletion c id)
    else (s.append i 1 0 entry).freeCopy c id y.who
  | some (.moving _) => s.post (cyc 64) (.copyCompletion c id)

/-- COPY_COMPLETION (R278). -/
def execCopyCompletion (s : State) : Out :=
  match s.event with
  | .copyCompletion c id => .next (
    if 2 ^ 20 ≤ c then s
    else match s.copy? c id with
      | some y => if y.state < 2 || (s.core c).seized.isSome || (s.core c).landingOf id then s else s.complete c id y
      | none => s)
  | _ => .next s

end Sys2Proof.Machine
end

