-- ==== Sys2Proof/Machine/Copies.lean ====
section
/-! DEFINITION. The instructions of the copy engine: CPY, CPY2D, CPYH (R279, R282-R285, R287), STRM and STRMX (R289-R293),
XMPUB, XMRD, XMRDT (R312, R313), PROBE (R308-R310). -/

namespace Sys2Proof.Machine

/-! ### Issue (R278, R279) -/

/-- The copy ids that are free on the issuing core. -/
def State.freeIds (s : State) : List Nat := (List.range 96).filter fun i => (mget s.co.copies i).isNone

/-- A copy of the issuing thread. -/
def State.newCopy (s : State) (kind : Nat) (work : CopyWork) : Copy :=
  { kind := kind, slot := s.bank, who := s.th.who, space := s.src.space.toNat, tenant := s.src.tenant, level := s.src.level
    work := work, kind_ := s.th.kind, number := s.th.compared * 2 ^ 20 }

/-- Take a free id, whichever, and start the operation; without one the slot stalls (R278). -/
def State.startCopy (s : State) (y : Copy) (k : Nat → State → Res) : Res :=
  match s.freeIds with
  | [] => .wait s
  | ids =>
    let id := ids.getD (Config.choice s.draw % ids.length) 0
    let s := { s with
      draw := s.draw + 1
      co := { s.co with copies := mset s.co.copies id y }
      th := { s.th with compared := s.th.compared + 1 } }
    k id (if y.stays s.cid 0 then s.post 2 (.copySectorReply s.cid id) else s.emitOwn 1 2 (.copySectorReply s.cid id))

/-- Issue a copy: a release, then the operation, then x[d] := copy id. -/
def State.issueCopy (s : State) (d : BitVec 5) (y : Copy) : Res :=
  s.release fun s => s.startCopy y fun id s => .ok (s.setX d (BitVec.ofNat 64 id))

/-- The first of several values that is not a multiple of 8. -/
def unaligned (l : List Nat) : Option Nat := l.find? fun v => v % 8 ≠ 0

/-- The checks of R279 on two ranges; `len` is the value that a total above 16 MiB reports. -/
def State.copyChecks (s : State) (src dst n : Nat) (len : Word) (k : Res) : Res :=
  match unaligned [src, dst, n] with
  | some v => trapR dataMisaligned (BitVec.ofNat 64 v)
  | none =>
    if 2 ^ 24 < n then trapR illegalOperand len
    else match s.rangeOk s.sp src n with
      | .error (c, v) => trapR c v
      | .ok _ => match s.rangeOk s.sp dst n with
        | .error (c, v) => trapR c v
        | .ok _ => k

/-- CPY (R282). -/
def execCpy (d a b : BitVec 5) (s : State) : Out :=
  let src := (s.x a).toNat
  let dst := (s.x d).toNat
  let n := (s.x b).toNat
  finish s (s.copyChecks src dst n (s.x b)
    (s.issueCopy d { s.newCopy 1 (.linear src dst) with src := src, dst := dst, length := n }))

/-! ### CPY2D (R283-R285) -/

/-- The cached record, most recently used first (R284). -/
def Core.record? (k : Core) (sp tenant ea : Nat) : Option (Line × Core) :=
  match k.records.find? fun r => r.1 == sp && r.2.1 == tenant && r.2.2.1 == ea with
  | some r => some (r.2.2.2, { k with records := r :: k.records.filter fun q => !(q.1 == sp && q.2.1 == tenant && q.2.2.1 == ea) })
  | none => none

/-- Fill an entry of the record cache: 16, the least recently used leaves (R284). -/
def Core.putRecord (k : Core) (sp tenant ea : Nat) (r : Line) : Core :=
  { k with records := ((sp, tenant, ea, r) :: k.records.filter fun q => !(q.1 == sp && q.2.1 == tenant && q.2.2.1 == ea)).take 16 }

/-- CPY2D with its record. -/
def State.tensorCopy (s : State) (d : BitVec 5) (x : Word) (store : Bool) (r : Line) : Res :=
  let n := r.toNat
  let base := (s.x d).toNat
  let total := tTotal n
  if !tensorOk n || 2 ^ 24 < total then trapR illegalOperand x
  else match unaligned [base, total] with
    | some v => trapR dataMisaligned (BitVec.ofNat 64 v)
    | none => match s.rangeOk s.sp base total with
      | .error (c, v) => trapR c v
      | .ok _ =>
        let span := tensorSpan n
        match s.routeTo s.sp span.1 false, s.routeTo s.sp span.2 false with
        | .error (c, v), _ => trapR c v
        | _, .error (c, v) => trapR c v
        | .ok _, .ok _ => s.startCopy { s.newCopy 2 (.tensor r base store) with src := x.toNat, dst := base, length := total } fun id s =>
            .ok (s.setX d (BitVec.ofNat 64 id))

/-- CPY2D (R285). -/
def cpy2d (store : Bool) (d a : BitVec 5) (s : State) : Out :=
  let x := s.x a
  let ea := x.toNat
  finish s (
    if ea % 64 ≠ 0 then trapR dataMisaligned x
    else match s.routeTo s.sp ea false with
      | .error (c, v) => trapR c v
      | .ok _ => s.release fun s =>
        match s.co.record? s.sp s.src.tenant ea with
        | some (r, k) => ({ s with co := k } : State).tensorCopy d x store r
        | none => s.loadRes s.sp ea 64 fun v s =>
          let r : Line := BitVec.ofNat 512 v
          ({ s with co := s.co.putRecord s.sp s.src.tenant ea r } : State).tensorCopy d x store r)

/-- CPY2D (R285). -/
def execCpy2d (d a : BitVec 5) (s : State) : Out := cpy2d false d a s

/-- CPY2D.ST (R285). -/
def execCpy2dSt (d a : BitVec 5) (s : State) : Out := cpy2d true d a s

/-! ### CPYH (R287) -/

/-- CPYH (R287). -/
def execCpyh (d a b : BitVec 5) (s : State) : Out :=
  let src := (s.x a).toNat
  let dst := s.x d
  finish s (match ownTcmAt (s.x b) 1 16 with
    | none => trapR onchipRange (s.x b)
    | some desc =>
      if s.overlapsQueued s.sp (s.x b).toNat 16 then .wait s
      else
        let n := ofBytes (s.rdOwn desc 16)
        let len := bits n 0 32
        match unaligned [src, dst.toNat, len] with
        | some v => trapR dataMisaligned (BitVec.ofNat 64 v)
        | none =>
          if len % 32 ≠ 0 ∨ 49152 < len ∨ bits n 32 32 ≠ 0 then trapR illegalOperand (s.x b)
          else match ownTcmAt dst 1 len with
            | none => trapR onchipRange dst
            | some off => match s.rangeOk s.sp src len with
              | .error (c, v) => trapR c v
              | .ok _ => checkTarget s (bits n 64 64) fun s e =>
                let y := { s.newCopy 5 (.handler src off e.toNat desc) with src := src, dst := dst.toNat, length := len }
                if (mget s.co.banks 3).isSome then s.issueCopy d { y with work := .refused, status := 6, length := 0 }
                else if len = 0 then s.issueCopy d { y with work := .linear src dst.toNat }
                else s.release fun s => s.startCopy y fun id s =>
                  .ok (({ s with co := { s.co with reserved := true } } : State).setX d (BitVec.ofNat 64 id)))

/-! ### Streams (R289-R293) -/

/-- A queued vector word of the thread names register `n` (R246). -/
def State.regBusy (s : State) (n : Nat) : Bool :=
  let hit (e : SeqEntry) : Bool := e.bank == s.bank && !e.fresh && ((vWrite e.word).toList ++ vReads e.word).contains n
  s.co.queued.any hit

/-- A stream descriptor that R289 allows. -/
def streamOk (n : Nat) : Bool :=
  bits n 0 64 % 16 == 0 && bits n 64 16 != 0 && bits n 80 16 != 0 && bits n 96 16 != 0 && bits n 112 16 == 0 &&
  bits n 128 32 % 16 == 0 && bits n 160 32 % 16 == 0 && bits n 192 32 % 16 == 0 && bits n 224 32 == 0

/-- STRM in both directions. -/
def strm (write : Bool) (d a : BitVec 5) (s : State) : Out :=
  let v := d.toNat
  finish s (match ownTcm? (s.x a) with
    | none => trapR onchipRange (s.x a)
    | some off =>
      if s.overlapsQueued s.sp (s.x a).toNat 32 then .wait s
      else
        let n := ofBytes (s.rdOwn off 32)
        if off % 32 ≠ 0 || 0xC000 < off + 32 || !streamOk n then trapR illegalOperand (s.x a)
        else if (s.src.stream? v).isSome then s.trapOpen streamFault
        else match s.routeTo s.sp (bits n 0 64) false with
          | .error (c, w) => trapR c w
          | .ok _ =>
            if s.regBusy v then .wait s
            else s.startCopy { s.newCopy 7 (.stream v) with src := (s.x a).toNat, entry := 2 } fun id s =>
              .ok { s with th := { s.th with streams := mset s.th.streams v { desc := off, write := write, image := BitVec.ofNat 256 n, copy := id, space := s.sp } } })

/-- STRM (R292). -/
def execStrm (d a : BitVec 5) (s : State) : Out := strm false d a s

/-- STRM.W (R292). -/
def execStrmW (d a : BitVec 5) (s : State) : Out := strm true d a s

/-- Strips appended and not yet written, with their addresses. -/
def stripsLeft (st : Stream) : List (Nat × Vec) := st.strips.zipIdx.map fun p => (stripOffset st.image (st.n + p.2), p.1)

/-- End the binding of register `v` of the issuing thread (R293). -/
def State.endStream (s : State) (v : Nat) : State :=
  match s.th.stream? v with
  | none => s
  | some st =>
    let s := { s with th := ({ s.th with streams := mdel s.th.streams v } : Thread).setV v 0 }
    if !st.write then { s with co := { s.co with copies := mdel s.co.copies st.copy } }
    else
      let left := if st.killed then [] else stripsLeft st
      ({ s with co := { s.co with copies := mmod s.co.copies st.copy fun y =>
          { y with work := .tail left, state := if y.state = 3 then 0 else y.state, status := if st.killed then 1 else y.status } } } : State).post
        2 (.copySectorReply s.cid st.copy)

/-- STRMX (R293). -/
def execStrmx (d : BitVec 5) (s : State) : Out :=
  finish s (if (s.src.stream? d.toNat).isNone then .ok s
    else if s.regBusy d.toNat then .wait s else .ok (s.endStream d.toNat))

/-! ### XMPUB, XMRD, XMRDT (R312, R313) -/

/-- The checks of R312 and the operation; a slot that the program may not use completes with REFUSED (R311). -/
def State.lxmOp (s : State) (d a b : BitVec 5) (entry : Nat) (rel : Bool) (work : Nat → Nat → CopyWork) : Res :=
  let x := s.x a
  let adr := (s.x b).toNat
  let slot := bits x.toNat 0 8
  if bits x.toNat 8 56 ≠ 0 then trapR illegalOperand x
  else if adr % 8 ≠ 0 then trapR dataMisaligned (s.x b)
  else
    let go (y : Copy) : Res :=
      let y := { y with entry := entry, src := if entry = 3 then adr else 0, dst := if entry = 3 then 0 else adr }
      if rel then s.issueCopy d y else s.startCopy y fun id s => .ok (s.setX d (BitVec.ofNat 64 id))
    match s.slotFor slot s.src.prog with
    | none => go { s.newCopy 8 .refused with status := 6 }
    | some l => match s.rangeOk s.sp adr l.size with
      | .error (c, v) => trapR c v
      | .ok _ => go { s.newCopy 8 (work slot adr) with length := l.size }

/-- XMPUB (R312). -/
def execXmpub (d a b : BitVec 5) (s : State) : Out :=
  finish s (s.lxmOp d a b 3 true fun slot adr => .publish slot adr none)

/-- XMRD (R313). -/
def execXmrd (d a b : BitVec 5) (s : State) : Out :=
  finish s (s.lxmOp d a b 4 false fun slot adr => .fetch slot adr none none)

/-- XMRDT (R313). -/
def execXmrdt (d a b : BitVec 5) (s : State) : Out :=
  finish s (s.lxmOp d a b 4 false fun slot adr => .fetch slot adr (some (s.x d).toNat) none)

/-! ### PROBE (R308-R310) -/

/-- PROBE (R309). -/
def execProbe (d a b : BitVec 5) (s : State) : Out :=
  finish s (match ownTcmAt (s.x a) 64 512 with
    | none => trapR onchipRange (s.x a)
    | some off => s.startCopy { s.newCopy 9 (.probe off) with src := (s.x b).toNat, entry := 6 } fun id s =>
        .ok (s.setX d (BitVec.ofNat 64 id)))

/-- The core a thread runs on, the one its context left, or the one whose run queue holds it. -/
def State.originOf (s : State) (w : Who) : Option Nat :=
  match s.locate w with
  | some (.live c _) => some c
  | some (.saved i _) => (mget s.contexts i).map (·.origin)
  | some (.moving i) => (mget s.moving i).map (·.dest)
  | none => none

/-- The threads of a program that have not ended, live or Saved, with the core they run on or left. -/
def State.threadsOf (s : State) (p : Nat) : List (Nat × Nat × Thread) :=
  let pick (c : Nat) (k : Core) : List (Nat × Nat × Thread) :=
    (k.banks.filter fun b => b.2.prog == p && b.2.st != .ended).map fun b => (c, b.1, b.2)
  s.cores.flatMap (fun c => pick c.1 c.2) ++ s.contexts.flatMap fun c => pick c.2.origin c.2.core

/-- Gang rank (R294). -/
def Thread.rank (t : Thread) : Nat := bits t.gangid.toNat 16 16

/-- Gang number (R294). -/
def Thread.gangNo (t : Thread) : Nat := bits t.gangid.toNat 32 16

/-- The gang threads of the copy of a gang that runs in the cluster of core `c` (R25, R397). -/
def State.gangCopy (s : State) (p c : Nat) : List (Nat × Nat × Thread) :=
  let twin (x : Nat) : Bool := match (s.prog? p).bind (·.run) with
    | some r => r.twins.contains (clusterOf x)
    | none => false
  (s.threadsOf p).filter fun t => t.2.2.kind.isGang && twin t.1 == twin c

/-- The barrier domains of a place are those of the reflex array: of a reflex core or a staked one (R23). A context away from any
core came from neither. -/
def State.reflexSide (s : State) (place : Nat) : Bool :=
  (ctxOf? place).isNone && (inReflexArray place || (s.core place).staked.isSome)

/-- The group of a domain as the place of a thread names it. -/
def State.groupOf (s : State) (place dom : Nat) : Option Group :=
  mget (if s.reflexSide place then s.front.reflexGroups else s.front.groups) dom

/-- The core of the same rank in the other list of clusters (R397); a core outside the first list stays. -/
def otherCopy (fr too : List Nat) (c : Nat) : Nat := coreId (too.getD (fr.idxOf (clusterOf c)) (clusterOf c)) (coreNo c)

/-- A core of the primary copy for one of the twin copy, and back: plans name cores of the primary copy. -/
def State.planCore (s : State) (p c : Nat) (toTwin : Bool) : Nat :=
  match (s.prog? p).bind (·.run) with
  | some r => if toTwin then otherCopy r.clusters r.twins c else otherCopy r.twins r.clusters c
  | none => c

/-- The member of least rank of a list of members with their ranks; the earlier of two. -/
def lowestRank (l : List (Nat × Who)) : Option Who :=
  (l.foldl (fun (best : Option (Nat × Who)) m => match best with
    | some b => if m.1 < b.1 then some m else best
    | none => some m) none).map (·.2)

/-- Members of a group that have not arrived in its open episode, with their ranks: the gang rank of a gang thread, else the rank
in the group, which counts from 0 in the order of joining (R24, R308). -/
def State.missing (s : State) (g : Group) : List (Nat × Who) :=
  (g.members.zipIdx.filter fun m => !g.arrived.contains m.1 && !g.late.contains m.1).map fun m =>
    (match s.thread? m.1 with
      | some { kind := .gang _ r, .. } => (r, m.1)
      | _ => (m.2, m.1))

/-- The copy of a paired gang that core `c` belongs to is the twin (R397). -/
def State.inTwin (s : State) (p c : Nat) : Bool := match (s.prog? p).bind (·.run) with
  | some r => r.twins.contains (clusterOf c)
  | none => false

/-- The core or context that a thread is in. -/
def State.whereIs (s : State) (w : Who) : Nat := match s.locate w with
  | some (.saved i _) => ctxPlace i
  | _ => (s.originOf w).getD 0

/-- The thread of the program on the neighbour of port `p`, lowest slot first (R308). -/
def State.linkTarget (s : State) (prog c p : Nat) : Option Who :=
  lowestRank (((s.threadsOf prog).filter fun m => m.1 == neighbour c p).map fun m => (slotOf m.2.1, m.2.2.who))

/-- The wait target of a Blocked thread (R308). -/
def State.waitTarget (s : State) (w : Who) : Option Who :=
  match s.thread? w, s.originOf w with
  | some t, some c =>
    let inGroup := (t.group.bind (s.groupOf (s.whereIs w))).bind fun g => lowestRank (s.missing g)
    match t.st with
    | .blocked .sstep =>
      let done := (((s.prog? w.prog).bind (·.run)).map fun r => (if s.inTwin w.prog c then r.step1 else r.step0).arrived).getD []
      lowestRank (((s.gangCopy w.prog c).filter fun m => !done.contains m.2.2.serial).map fun m => (m.2.2.rank, m.2.2.who))
    | .blocked (.gbar _) => inGroup
    | .blocked (.gwait _) => inGroup
    | .blocked (.xrecv e) =>
      let k := match s.locate w with
        | some (.live c _) => s.core c
        | some (.saved i _) => s.coreAt (ctxPlace i)
        | _ => {}
      let named := rdN k.tcm.bytes (bits t.planbase.toNat 0 16 + 0x24 + 16 * e) 2
      let src := if s.inTwin w.prog c then s.planCore w.prog named true else named
      ((s.coreAt (s.placeOf w.prog src)).banks.find? fun b => b.2.prog == w.prog && b.2.kind.isGang && b.2.st != .ended).map (·.2.who)
    | .blocked (.link p) => s.linkTarget w.prog c p
    | .blocked (.rotation p) => s.linkTarget w.prog c p
    | _ => none
  | _, _ => none

/-- THREAD_ID of a thread wherever it is. -/
def State.idOf (s : State) (w : Who) : Word := (({ prog := w.prog, serial := w.serial } : Thread).id (s.bankNo w))

/-- A copy at a place is complete; away from any core its completion waits for the restore (R47). -/
def State.finishAt (s : State) (place id : Nat) (f : Copy → Copy) : State :=
  let s := s.modCoreAt place fun k => { k with copies := mmod k.copies id fun y => { f y with state := 2, waitPair := none, busy := false } }
  if (ctxOf? place).isSome then s else s.post (cyc 2) (.copyCompletion place id)

/-- Where the copy record of a probe is now, with the result area (R43, R309). -/
def State.probePlace (s : State) (p : Probe) : Option (Nat × Nat) :=
  (s.placesOf p.core).findSome? fun q => match mget (s.coreAt q).copies p.copy with
    | some { work := .probe area, who := w, .. } => if w = p.who then some (q, area) else none
    | _ => none

/-- A probe has ended with outcome `b` (R309); a closed traverse of an automatic one goes to the datum pair (R310). -/
def State.endProbe (s : State) (p : Probe) (b : Nat) : State :=
  if p.auto then
    if b = 1 then
      let n := s.drawn
      n.2.mailFrom p.core (coreId 62 0) 15 (toBytes 32 (Config.notice n.1).toNat) .firmware 0 5
    else s
  else
    match s.probePlace p with
    | some (q, _) => s.finishAt q p.copy fun y => { y with a := p.found.length, b := b }
    | none => s

/-- Record the thread the probe has reached, in the TCM of the context that issued it, wherever that is (R309). -/
def State.recordProbe (s : State) (p : Probe) (tid : Word) : State :=
  if p.auto then s
  else match s.probePlace p with
    | some (q, area) => s.wrTcmAt q (area + 8 * p.found.length) (toBytes 8 tid.toNat) []
    | none => s

/-- One hop of a probe. -/
def State.probeHop (s : State) (p : Probe) : State :=
  if !p.found.isEmpty && p.at_ == p.start then s.endProbe p 1
  else if (s.thread? p.at_).isNone then s.endProbe p 0
  else
    let tid := s.idOf p.at_
    let s := s.recordProbe p tid
    let p := { p with found := p.found ++ [tid] }
    match s.waitTarget p.at_ with
    | none => s.endProbe p 0
    | some w =>
      if p.found.length = 64 && w != p.start then s.endProbe p 2
      else s.post (cyc (6 + 2 * hops (clusterOf ((s.originOf p.at_).getD 0)) (clusterOf ((s.originOf w).getD 0)))) (.probeHop { p with at_ := w })

/-- PROBE_HOP (R309). -/
def execProbeHop (s : State) : Out :=
  match s.event with
  | .probeHop p => .next (s.probeHop p)
  | _ => .next s

/-- AUTO_PROBE (R310): of a thread that has been Blocked with a target for 1 ms without interruption. -/
def execAutoProbe (s : State) : Out :=
  match s.event with
  | .autoProbe w => .next (match s.thread? w, s.originOf w with
    | some t, some c =>
      let waits := match t.st with
        | .blocked k => k.hasTarget
        | _ => false
      if waits && 1000000 ≤ s.now - t.since && clusterOf c < 34 then
        s.post 2 (.probeHop { who := w, core := coreId (clusterOf c) 16, copy := 0, auto := true, start := w, at_ := w, found := [] })
      else s
    | _, _ => s)
  | _ => .next s

end Sys2Proof.Machine
end

