-- ==== Sys2Proof/Machine/Place.lean ====
section
/-! DEFINITION. Placing threads and ending them: launch state (R30, R31), Free and bound banks (R16, R29, R303), reach maps
(R160), groups (R23, R24, R301, R302), the end of a thread (R304), stakes given back (R317, R50), activations of the reflex
schedule (R29, R385-R387) and what a pair mismatch does (R396, R397). -/

namespace Sys2Proof.Machine

/-! ### The reflex schedule entry (R383) -/

def rfPeriod (n : Nat) : Nat := bits n 0 64
def rfOffset (n : Nat) : Nat := bits n 64 64
def rfDeadline (n : Nat) : Nat := bits n (8 * 0x10) 32
def rfBudget (n : Nat) : Nat := bits n (8 * 0x14) 32
def rfEntry (n : Nat) : Nat := bits n (8 * 0x18) 64
def rfArg (n : Nat) : Nat := bits n (8 * 0x20) 64
def rfCore (n : Nat) : Nat := bits n (8 * 0x28) 16
def rfPartner (n : Nat) : Nat := bits n (8 * 0x2A) 16
def rfBank (n : Nat) : Nat := bits n (8 * 0x2C) 3
def rfPair (n : Nat) : Bool := bit n (8 * 0x2E)
def rfStake (n : Nat) : Bool := bit n (8 * 0x2E + 1)
def rfCrit (n : Nat) : Bool := bit n (8 * 0x2E + 2)
def rfProg (n : Nat) : Nat := bits n (8 * 0x30) 16
def rfTenant (n : Nat) : Nat := bits n (8 * 0x32) 8
def rfDomain (n : Nat) : Nat := bits n (8 * 0x33) 4
def rfDomains (n : Nat) : Nat := bits n (8 * 0x34) 5

/-- The cores of an entry: its core, and the partner of a pair. -/
def rfCores (n : Nat) : List Nat := if rfPair n then [rfCore n, rfPartner n] else [rfCore n]

def Reflex.n (r : Reflex) : Nat := r.image.toNat

/-! ### Banks -/

/-- The core table of the stake arbiter (R48): a pre-emption, seize or restore of the core is on its way, or a context streams
into it. -/
def State.claimed (s : State) (c : Nat) : Bool :=
  (s.agenda.any fun e => match e.2 with
    | .seize x how => x == c || how == .live c
    | .restore x _ => x == c
    | .preemption x d => x == c || d == some c
    | _ => false) || s.contexts.any fun x => x.2.dest == some c

/-- A running gang other than program `p`'s holds the core; where its own context has left the core, it does not (R25, R44). -/
def State.gangHolds (s : State) (c p : Nat) : Bool :=
  s.front.progs.any fun g => g.1 != p && (match g.2.run with
    | some r => r.gang && r.admitted && r.cores.contains c && !(s.contexts.any fun x => x.2.prog == g.1 && x.2.origin == c)
    | none => false)

/-- The core is kept for latency-class work other than program `p` (R44). -/
def State.wantedBy (s : State) (c p : Nat) : Bool := match s.front.wanted with
  | some (q, l) => q != p && l.contains c
  | none => false

/-- The core counts as Free for program `p` (R35, R37, R48). -/
def State.isFree (s : State) (c p : Nat) : Bool :=
  let k := s.core c
  isCompute c && k.banks.isEmpty && !k.clearing && k.seized.isNone && k.staked.isNone && !s.claimed c && !s.gangHolds c p && !s.wantedBy c p

/-- The bank is bound to an entry of the schedule (R29). -/
def State.bound (s : State) (c b : Nat) : Bool :=
  s.front.reflex.any fun r => rfBank r.2.n == b && (rfCores r.2.n).contains c

/-- The lowest Free live bank of a core in which a thread may be placed (R303, R29, R287). -/
def State.freeBank (s : State) (c : Nat) : Option Nat :=
  let k := s.core c
  if k.clearing || k.seized.isSome then none
  else (List.range 4).find? fun b => (mget k.banks b).isNone && !s.bound c b && !(b == 3 && k.reserved)

/-- Put a thread into a bank. -/
def State.putThread (s : State) (c b : Nat) (t : Thread) : State := s.modCore c fun k => { k with banks := mset k.banks b t }

/-- Set bits of a core's reach map for a program (R160). -/
def Core.addReach (k : Core) (p : Nat) (cores pads : List Nat) : Core :=
  { k with
    reach := k.reach ++ (cores.map fun c => (p, c)).filter fun r => !k.reach.contains r
    reachPads := k.reachPads ++ (pads.map fun c => (p, c)).filter fun r => !k.reachPads.contains r }

/-- Change the reach maps of every core, and of every context, which carries its core's (R160). -/
def State.mapCores (s : State) (f : Core → Core) : State :=
  { s with
    cores := s.cores.map fun k => (k.1, f k.2)
    contexts := s.contexts.map fun x => (x.1, { x.2 with core := f x.2.core }) }

/-- Clear the bit of core `c` for program `p` in every reach map (R160, R317). -/
def State.dropReach (s : State) (p c : Nat) : State :=
  s.mapCores fun k => { k with reach := k.reach.filter fun r => r != (p, c) }

/-- The lines of a program's text as an L0 instruction cache holds them (R164). -/
def Prog.lines (g : Prog) (p : Nat) (locked : Bool) : List L0ILine := g.textLines.map fun n =>
  { prog := p, line := n, locked := locked, data := BitVec.ofNat 512 (rdN g.image (64 * n) 64) }

/-- Firmware copies a program's text image into the reflex store (R390). -/
def State.copyText (s : State) (p : Nat) (g : Prog) : State :=
  (g.lines p true).zipIdx.foldl (fun s x => s.wrReflex (textAt p x.2) (toBytes 64 x.1.data.toNat) []) s

/-- Lines locked in the L0 instruction cache (R390), whose 256 lines hold locked lines before others (R15). -/
def Core.lockLines (k : Core) (p : Nat) (l : List L0ILine) : Core :=
  let other := k.l0i.filter fun l => l.prog != p
  { k with l0i := (l ++ other.filter (·.locked) ++ other.filter fun l => !l.locked).take 256 }

/-- A program's text, loaded from the reflex store and locked in the L0 instruction cache of core `c` (R390). -/
def State.lockText (s : State) (c p : Nat) (g : Prog) : State :=
  let l := (g.lines p true).zipIdx.map fun (x : L0ILine × Nat) =>
    { x.1 with data := BitVec.ofNat 512 (ofBytes (s.rdReflex (textAt p x.2) 64).1) }
  s.modCore c fun k => k.lockLines p l

/-! ### Launch state (R31) -/

/-- A thread of a loaded program as R31 starts it. -/
def Prog.start (g : Prog) (p serial slot : Nat) (kind : Kind) (pc : Nat) (tvec : IAddr) (latency : Bool) (x10 x12 x13 arg : Word) : Thread :=
  let sp : BitVec 16 := BitVec.ofNat 16 g.space
  let t : Thread :=
    { kind := kind, prog := p, serial := serial, tenant := g.tenant, latency := latency, profile := g.profile
      pc := BitVec.ofNat 40 pc, space := sp, farsp := sp, trap0 := { tvec := tvec }, arg := arg }
  ((((t.setX 2 (g.stackTop slot)).setX 10 x10).setX 11 arg).setX 12 x12).setX 13 x13

/-! ### Groups (R23, R24, R301, R302) -/

/-- Replace the group of a domain on the side of core `c`. -/
def State.setGroup (s : State) (c dom : Nat) (g : Option Group) : State :=
  let put (m : Map Group) : Map Group := match g with
    | some g => mset m dom g
    | none => mdel m dom
  s.modFront fun f => if s.reflexSide c then { f with reflexGroups := put f.reflexGroups } else { f with groups := put f.groups }

/-- The episode is complete when every member that belongs to it has arrived (R24). -/
def Group.complete (g : Group) : Bool := g.isOpen && g.members.all fun m => g.arrived.contains m || g.late.contains m

/-- The group after its open episode has completed. -/
def Group.close (g : Group) : Group := { g with arrived := [], late := [], isOpen := false, completed := g.completed + 1 }

/-- GWAIT's condition (R302). -/
def episodeDone (completed : BitVec 32) (x : Nat) : Bool := (completed - BitVec.ofNat 32 x).toNat < 2 ^ 31

/-- The reply of a word that waits, whose thread becomes Ready, unless it is Blocked on a fault reply meanwhile (R221). -/
def Thread.finishWait (t : Thread) (r : Reply) : Thread :=
  { t with st := if t.st == .blocked .faultReply then t.st else .ready, pend := t.pend.map fun (p : Pend) => if p.reply.isNone then { p with reply := some r } else p }

/-- A completed episode reaches the members that wait for it. -/
def Group.wakes (g : Group) (t : Thread) : Thread :=
  match t.st with
  | .blocked (.gbar e) => if e = g.completed.toNat then t.finishWait (.value e) else t
  | .blocked (.gwait x) => if episodeDone g.completed x then t.finishWait (.value 0) else t
  | _ => t

/-- Store a changed group; when its open episode is complete, close it and wake the members. -/
def State.settleGroup (s : State) (c dom : Nat) (g : Group) : State :=
  if g.members.isEmpty then s.setGroup c dom none
  else if g.complete then
    let g := g.close
    g.members.foldl (fun s m => s.modThread m g.wakes) (s.setGroup c dom (some g))
  else s.setGroup c dom (some g)

/-- A thread leaves its group, which counts as an arrival (R24). -/
def State.leaveGroup (s : State) (c : Nat) (w : Who) (dom : Nat) : State :=
  match s.groupOf c dom with
  | none => s
  | some g =>
    let out (l : List Who) : List Who := l.filter (· != w)
    s.settleGroup c dom { g with members := out g.members, arrived := out g.arrived, late := out g.late }

/-- The barrier domains that a program holds on the side of core `c` (R23). -/
def State.holdsDomain (s : State) (c p dom : Nat) : Bool :=
  if s.reflexSide c then s.front.reflex.any fun r =>
    rfProg r.2.n == p && rfDomain r.2.n ≤ dom && dom < rfDomain r.2.n + rfDomains r.2.n
  else match (s.prog? p).bind (·.run) with
    | some r => r.domain ≤ dom && dom < r.domain + r.domains && !(r.gang && dom == r.domain)
    | none => false

/-! ### The gang barrier (R297) -/

/-- 1 for the twin copy of a paired gang, else 0. -/
def State.copyNo (s : State) (p c : Nat) : Nat :=
  match (s.prog? p).bind (·.run) with
  | some r => if r.twins.contains (clusterOf c) then 1 else 0
  | none => 0

/-- The barrier of a copy. -/
def Run.step (r : Run) (copy : Nat) : Superstep := if copy = 1 then r.step1 else r.step0

def Run.modStep (r : Run) (copy : Nat) (f : Superstep → Superstep) : Run :=
  if copy = 1 then { r with step1 := f r.step1 } else { r with step0 := f r.step0 }

/-- Clusters of a copy, in the order of its ranks (R25). -/
def Run.copyClusters (r : Run) (copy : Nat) : List Nat := if copy = 1 then r.twins else r.clusters

/-- The gang threads of a copy that have not ended, with their cores. -/
def State.ranks (s : State) (p copy : Nat) : List (Nat × Nat × Thread) :=
  (s.threadsOf p).filter fun t => t.2.2.kind.isGang && s.copyNo p t.1 == copy

/-- Fabric cycles from now to core cycle `c`. -/
def State.untilCycle (s : State) (c : Nat) : Nat := 2 * c + s.front.cycle0 - s.now

/-- When every rank that has not ended has arrived, T0 is 32 cycles after the last arrival (R297), or 352 in a superstep marked
for replay (R402). -/
def State.checkBarrier (s : State) (p copy : Nat) : State :=
  match (s.prog? p).bind (·.run) with
  | none => s
  | some r =>
    let st := r.step copy
    let l := s.ranks p copy
    if st.arrived.isEmpty || l.isEmpty || !(l.all fun t => st.arrived.contains t.2.2.serial) then s
    else
      let s := s.modRun p fun r => r.modStep copy fun x => { x with last := s.cycle }
      if st.marked then s.post 0 (.superstepReplay p copy) else s.post (s.untilCycle (s.cycle + 32)) (.sstepRelease p copy)

/-! ### Ending a thread (R304) -/

/-- Completions of an ended thread that wait for room in mailbox 0: none enters it any more (R181), and what they still held of the
LXM is given back (R313). -/
def State.dropCompletions (s : State) (w : Who) : State :=
  let held (k : Core) : List (Nat × Copy) := k.copies.filter fun y => y.2.who == w && 2 ≤ y.2.state
  let s := s.cores.foldl (fun s c => (held c.2).foldl (fun s y => s.post 0 (.copyCompletion c.1 y.1)) s) s
  let s := s.contexts.foldl (fun s x => (held x.2.core).foldl (fun s y => s.giveUp y.2) s) s
  { s with contexts := s.contexts.map fun x =>
      (x.1, { x.2 with core := { x.2.core with copies := x.2.core.copies.filter fun y => !(y.2.who == w && 2 ≤ y.2.state) } }) }

/-- Events that concern one alarm or one probe of a thread are withdrawn. -/
def State.cancelAlarm (s : State) (w : Who) : State := s.unpost (isAlarmOf w)

/-- Streams of an ended thread end (R293). -/
def State.endStreams (s : State) (place : Nat) (t : Thread) : State :=
  t.streams.foldl (fun s e =>
    let st := e.2
    if !st.write then s.modCoreAt place fun k => { k with copies := mdel k.copies st.copy }
    else
      let s := s.modCoreAt place fun k =>
        let left := if st.killed then [] else stripsLeft st
        { k with copies := mmod k.copies st.copy fun y =>
          { y with work := .tail left, state := if y.state = 3 then 0 else y.state, status := if st.killed then 1 else y.status } }
      s.post 2 (.copySectorReply place st.copy)) s

/-- The thread in bank `b` of a place ends: its group, streams, alarm and queued words go; it holds the bank until it has
drained. Stakes are given back by `endThread`. -/
def State.stopThread (s : State) (place b : Nat) : State :=
  let k := s.coreAt place
  match mget k.banks b with
  | none => s
  | some t =>
    if t.st == .ended then s
    else
      let c := s.coreOfPlace place
      let s := match t.group with
        | some dom => s.leaveGroup place t.who dom
        | none => s
      let s := (s.endStreams place t).cancelAlarm t.who
      let loopOf (v : VLoop) : Bool := v.bank != b
      let s := s.modCoreAt place fun k => { k with
        seq := k.seq.filter fun e => e.bank != b
        vloop := k.vloop.filter loopOf
        banks := mmod k.banks b fun t =>
          { t with
            st := .ended, pend := [], fetched := none, xAt := [], fault := none, streams := [], alarm := none, alarmOn := none
            group := none, stakes := [], staking := [] } }
      let s := if t.kind.isGang then s.checkBarrier t.prog (s.copyNo t.prog c) else s
      (s.dropCompletions t.who).releaseIfDrained t.who

/-- A thread in a run queue ends there (R42, R304): it holds no bank, and its program waits for what it has issued (R318). -/
def State.stopQueued (s : State) (id : Nat) (m : Moving) : State :=
  let t := m.thread
  let s := match t.group with
    | some dom => s.leaveGroup m.dest t.who dom
    | none => s
  let s := ({ s with moving := mdel s.moving id } : State).modCoreAt m.dest fun k => { k with runQueue := k.runQueue.filter (· != id) }
  ((s.cancelAlarm t.who).dropCompletions t.who).post 0 (.programCompletion t.prog)

/-- The threads in the run queue of core `c`. -/
def State.queuedAt (s : State) (c : Nat) : List (Nat × Moving) :=
  (s.core c).runQueue.filterMap fun i => (mget s.moving i).map fun m => (i, m)

/-- A core whose last thread has left clears itself before it counts as Free (R37): 192 cycles. -/
def State.startClearing (s : State) (c : Nat) : State :=
  if !isCompute c || !(s.core c).banks.isEmpty || (s.core c).clearing then s
  else (s.modCore c fun k => { k with clearing := true }).post (cyc 192) (.clearing c)

/-- Return one staked core (R50, R317): the threads on it and in its run queue end, the core is cleared, and the text that the stake
locked stays no longer than that. -/
def State.unstakeCore (s : State) (p c : Nat) : State :=
  let l := ((s.core c).banks.filter fun b => b.2.st != .ended).map (·.1)
  let q := s.queuedAt c
  let s := q.foldl (fun s m => s.stopQueued m.1 m.2) (l.foldl (fun s b => s.stopThread c b) s)
  let n := l.length + q.length
  let s := s.modProg p fun g => match g.run with
    | some r => { g with run := some { r with unstaked := r.unstaked + n } }
    | none => { g with unstaked := g.unstaked + n }
  let free (k : Core) : Core := { k with
    staked := none, regions := 0, l0i := k.l0i.map fun (l : L0ILine) => { l with locked := false } }
  ((s.modCore c free).dropReach p c).startClearing c

/-- The stakes of thread `t` go back. -/
def State.returnStakes (s : State) (t : Thread) : State :=
  ((t.stakes.flatMap (·.2)).filter fun c => (s.core c).staked == some t.who).foldl (fun s c => s.unstakeCore t.prog c) s

/-- End a thread, and give back its stakes (R304, R317). -/
def State.endThread (s : State) (place b : Nat) : State :=
  match mget (s.coreAt place).banks b with
  | none => s
  | some t => (s.stopThread place b).returnStakes t

/-- End a thread of a run queue, and give back its stakes. -/
def State.endQueued (s : State) (id : Nat) (m : Moving) : State := (s.stopQueued id m).returnStakes m.thread

/-! ### HOLD_N (R389) -/

/-- The first condition: a CRIT entry that is armed has missed twice in a row. -/
def State.critMissed (s : State) : Bool := s.front.reflex.any fun r => r.2.armed && !r.2.shadow && rfCrit r.2.n && 2 ≤ r.2.consecutive

/-- Assert HOLD_N when the first condition holds. -/
def State.holdCheck (s : State) : State := if s.critMissed then s.modFront fun f => { f with hold := true } else s

/-! ### Activations (R29, R385-R387) -/

def State.modReflex (s : State) (e : Nat) (f : Reflex → Reflex) : State :=
  s.modFront fun r => { r with reflex := mmod r.reflex e f }

/-- Load the thread of release `k` of entry `e` into its bank of core `c` (R29, R31). -/
def State.loadActivation (s : State) (e k c : Nat) (r : Reflex) : State :=
  let p := rfProg r.n
  match s.prog? p with
  | none => s
  | some g =>
    let n := s.newSerial p
    let b := rfBank r.n
    let t := g.start p n.1 (slotOf b) (.reflex e k) (rfEntry r.n) g.reflexTvec true (BitVec.ofNat 64 k) 0 1 (BitVec.ofNat 64 (rfArg r.n))
    let t := { t with tenant := rfTenant r.n }
    if b < 4 then n.2.putThread c b t
    else (n.2.putThread c b { t with st := .blocked .slot }).post 0 (.shadowBankSwitch c (slotOf b))

/-- Start release `k` of entry `e`, on both cores of a pair at once; a bank that is still held lets it wait (R29, R287). A core that
clears itself has its bank loaded all the same (R385) and issues once it is clear. -/
def State.startActivation (s : State) (e k : Nat) : State :=
  match mget s.front.reflex e with
  | none => s
  | some r =>
    let held (c : Nat) : Bool :=
      let q := s.core c
      q.banks.any fun b => b.1 == rfBank r.n || (rfBank r.n == 7 && q.reserved && b.1 == 3)
    if (rfCores r.n).any held then s.modReflex e fun r => { r with waiting := some k }
    else
      let s := (rfCores r.n).foldl (fun s c => s.loadActivation e k c r) s
      s.modReflex e fun r => { r with active := some k, waiting := none, endedTwins := [] }

/-- A release that waits for a bank of core `c` may start now. -/
def State.retryReleases (s : State) (c : Nat) : State :=
  s.front.reflex.foldl (fun s r => match r.2.waiting with
    | some k => if (rfCores r.2.n).contains c then s.startActivation r.1 k else s
    | none => s) s

/-- Unlock the text of a program on core `c` when no entry of it is left there (R390). -/
def State.unlockText (s : State) (c p : Nat) : State :=
  if s.front.reflex.any fun r => rfProg r.2.n == p && (rfCores r.2.n).contains c then s
  else s.modCore c fun k => { k with l0i := k.l0i.map fun (l : L0ILine) => if l.prog = p then { l with locked := false } else l }

/-- A disarmed entry without an activation is unbound (R385). -/
def State.unbindIfDone (s : State) (e : Nat) : State :=
  match mget s.front.reflex e with
  | some r =>
    if r.armed || r.active.isSome || r.waiting.isSome then s
    else
      let s := s.modFront fun f => { f with reflex := mdel f.reflex e }
      (rfCores r.n).foldl (fun s c => s.unlockText c (rfProg r.n)) s
  | none => s

/-- One deadline miss (R387). -/
def State.missOnce (s : State) (e : Nat) : State :=
  match mget s.front.reflex e with
  | some r => ((s.modReflex e fun r => { r with
      misses := min (r.misses + 1) 0xFFFF, consecutive := min (r.consecutive + 1) 255, missed := true }).count
        (unitCore (rfCore r.n)) ctrDeadline).holdCheck
  | none => s

/-- The activation of entry `e` is over. -/
def State.closeActivation (s : State) (e : Nat) : State :=
  (s.modReflex e fun r => { r with active := none, reruns := 0, endedTwins := [] }).unbindIfDone e

/-! ### A mismatch of a pair (R396, R397) -/

/-- An engine goes on behind a compared request that is dropped (R396): the sector, strip or element is not written. A publication whose
claim or commit is dropped ends with status BUSY, without a commit (DESIGN CHOICE, notes/assumptions/97.md). -/
def State.dropCopy (s : State) (place cid : Nat) (y : Copy) : State :=
  let y := { y with waitPair := none, busy := false }
  let put (s : State) (y : Copy) : State :=
    (s.modCoreAt place fun k => { k with copies := mset k.copies cid y }).post 2 (.copySectorReply place cid)
  match y.work with
  | .publish _ _ _ => put (s.giveUp y) { y with status := 4, work := .refused }
  | .tail (_ :: r) => put s { y with work := .tail r }
  | .stream reg =>
    put (s.modThread y.who fun t => { t with streams := mmod t.streams reg fun st => { st with strips := st.strips.drop 1, n := st.n + 1 } }) y
  | _ => put s { y with sectors := y.sectors + 1 }

/-- The copies whose engine waits for compared request `id`, with their places: `elem` is the copy of an element of CPYQ. -/
def State.copiesOf (s : State) (id : Nat) (who : Who) (elem : Option Nat) : List (Nat × Nat × Copy) :=
  let mine (y : Nat × Copy) : Bool := y.2.waitPair == some id || (elem == some y.1 && y.2.who == who)
  s.cores.flatMap (fun c => (c.2.copies.filter mine).map fun y => (c.1, y)) ++
    s.contexts.flatMap fun x => (x.2.core.copies.filter mine).map fun y => (ctxPlace x.1, y)

/-- A request that is dropped: a store is acknowledged, a word that waits gets a free value, an engine goes on. -/
def State.dropRequest (s : State) (id : Nat) (q : PairReq) : State :=
  let v := s.drawn
  let l := s.copiesOf id q.who ((mget s.qops id).bind (·.copy))
  let s : State := { v.2 with pairs := mdel v.2.pairs id, accs := mdel v.2.accs id, qops := mdel v.2.qops id }
  let s : State := s.modAny q.who fun t =>
    { (t.answer id (.value (Config.openTval v.1).toNat)) with
      unacked := t.unacked.filter (· != id)
      sends := match q.go with
        | .mailboxArrival _ => t.sends - 1
        | .sendAcknowledgement _ _ _ => t.sends - 1
        | _ => t.sends }
  (l.foldl (fun s y => s.dropCopy y.1 y.2.1 y.2.2) s).releaseIfDrained q.who

/-- Both copies of every unmatched request of a pair are dropped. -/
def State.dropPair (s : State) (pair : Nat) : State :=
  (s.pairs.filter fun q => q.2.pair == pair && q.2.twin.isNone).foldl (fun s q => s.dropRequest q.1 q.2) s

/-- End the threads of an activation, as a mismatch or the end of the program does. -/
def State.endActivation (s : State) (e : Nat) : State :=
  (s.cores.flatMap fun c => (c.2.banks.filter fun b => match b.2.kind with
      | .reflex e' _ => e' == e && b.2.st != .ended
      | _ => false).map fun b => (c.1, b.1)).foldl (fun s x => s.endThread x.1 x.2) s

/-- A mismatch or an unmatched request (R396): a reflex pair runs the release once more, the second time the activation ends and
counts as a miss; a gang's superstep is marked (R397, R402). -/
def State.pairMismatch (s : State) (pair : Nat) : State :=
  if 64 ≤ pair then
    let p := pair / 2 ^ 16 - 1
    let unit := match (s.pairs.find? fun q => q.2.pair == pair).bind fun q => s.originOf q.2.who with
      | some c => unitCore c
      | none => unitCore 0
    ((s.count unit ctrPairMismatch).dropPair pair).markReplay p
  else match mget s.front.reflex pair with
    | none => s.dropPair pair
    | some r =>
      let s := (s.count (unitCore (rfCore r.n)) ctrPairMismatch).dropPair pair
      match r.active with
      | none => s
      | some k =>
        if r.reruns = 0 then
          let s := (s.endActivation pair).modReflex pair fun r => { r with active := none, waiting := some k, reruns := 1, endedTwins := [] }
          s.retryReleases (rfCore r.n)
        else
          let s := s.endActivation pair
          (if r.missed then s else s.missOnce pair).closeActivation pair

/-- Every thread of the activation has ended by EXIT. -/
def Reflex.exited (r : Reflex) : Bool := (rfCores r.n).all r.endedTwins.contains

/-- The activation of release `k` has ended on time: on the new active module of a takeover, the first such release ends the takeover gap,
and a gap of more than one period is the third condition of R389 (R408; DEDUCED from the example of 21_reflex_reliability_notes.md, where
HOLD_N is asserted at that end, notes/assumptions/100.md). -/
def State.endedOnTime (s : State) (e k : Nat) : State :=
  match mget s.front.reflex e with
  | none => s
  | some r =>
    let late := !r.shadow && r.gap.any (· < k)
    let s := if late then s.modFront fun f => { f with hold := true, latched := f.latched ||| 4#4 } else s
    s.modReflex e fun r => { r with
      consecutive := 0, gap := if r.shadow then r.gap else none, ends := ((k, s.meridianNow) :: r.ends).take 8 }

/-- The requests of an activation's threads that have no match yet; those of their engines, which go on after EXIT, are not counted. -/
def State.unmatched (s : State) (e : Nat) : List PairReq :=
  (s.pairs.filter fun q => q.2.pair == e && q.2.twin.isNone && q.2.number % 2 ^ 20 == 0).map (·.2)

/-- The activation of entry `e` ends with the EXIT of its last thread (R387), unless the twins' requests differ in number (R395). Where
the hash of a request is still on its way to the other twin, the match decides. -/
def State.activationEnd (s : State) (e : Nat) : State :=
  match mget s.front.reflex e with
  | none => s
  | some r =>
    let l := s.unmatched e
    if r.active.isNone || !r.exited then s
    else if l.any fun q => !l.any fun o => o.number == q.number && o.primary != q.primary then s.pairMismatch e
    else if !l.isEmpty then s
    else (if r.missed then s else s.endedOnTime e (r.active.getD 0)).closeActivation e

/-- A thread of entry `e` on core `c` has ended by EXIT. -/
def State.activationExit (s : State) (e c : Nat) : State :=
  (s.modReflex e fun r =>
    let c := if (rfCores r.n).contains c then c else rfCore r.n
    { r with endedTwins := c :: r.endedTwins.filter (· != c) }).activationEnd e

end Sys2Proof.Machine
end

