-- ==== Sys2Proof/Machine/Threads.lean ====
section
/-! DEFINITION. Groups and barriers (R301, R302), the gang barrier with undo log and replay (R297, R298, R399-R402), SPAWN,
EXIT and YIELD (R303, R304, R306), task sets (R27, R28, R307), the release of a bank and the clearing of a core (R304, R37). -/

namespace Sys2Proof.Machine

/-! ### GJOIN, GLEAVE (R301) -/

/-- The group of the issuing thread. -/
def State.myGroup (s : State) : Option (Nat × Group) := s.th.group.bind fun dom => (s.groupOf s.cid dom).map fun g => (dom, g)

/-- GJOIN (R301). -/
def execGjoin (d a : BitVec 5) (s : State) : Out :=
  let dom := (s.x a).toNat
  let w := s.th.who
  finish s (
    if s.th.group.isSome then .ok (s.setX d (-1))
    else if !s.holdsDomain s.cid s.src.prog dom then .ok (s.setX d (-2))
    else
      let g := (s.groupOf s.cid dom).getD { members := [] }
      let g := { g with members := g.members ++ [w], late := if g.isOpen then g.late ++ [w] else g.late }
      let s := (s.setGroup s.cid dom (some g)).setX d (BitVec.ofNat 64 g.members.length)
      .ok { s with th := { s.th with group := some dom } })

/-- GLEAVE (R301). -/
def execGleave (d : BitVec 5) (s : State) : Out :=
  finish s (match s.th.group with
    | none => .ok (s.setX d (-1))
    | some dom =>
      let w := s.th.who
      let s := s.onModule fun s => s.leaveGroup s.cid w dom
      .ok (({ s with th := { s.th with group := none } } : State).setX d 0))

/-! ### GBAR, GARR, GWAIT (R302) -/

/-- The thread may not arrive before the open episode completes (R24, R302). -/
def Group.stalls (g : Group) (w : Who) : Bool := g.isOpen && (g.arrived.contains w || g.late.contains w)

/-- Number of the episode that is open, or opens next. -/
def Group.episode (g : Group) : Nat := (g.completed + 1).toNat

/-- The group after an arrival. -/
def Group.arrive (g : Group) (w : Who) : Group := { g with isOpen := true, arrived := g.arrived ++ [w] }

/-- Arrive, and wake the members when the episode completes. -/
def State.arriveGroup (s : State) (dom : Nat) (g : Group) : State :=
  let w := s.th.who
  s.onModule fun s => s.settleGroup s.cid dom (g.arrive w)

/-- The answer that a Blocked word has, if it has one. -/
def State.waitReply (s : State) : Option (Option Reply) := s.pending.map (·.reply)

/-- GBAR (R302). -/
def execGbar (d : BitVec 5) (s : State) : Out :=
  finish s (match s.waitReply with
    | some (some (.value e)) => .ok (s.dropPending.setX d (BitVec.ofNat 64 e))
    | some (some _) => .ok s.dropPending
    | some none => match s.myGroup with
      | some (_, g) =>
        if g.isOpen && g.arrived.contains s.th.who then .wait (s.block (.gbar g.episode))
        else .ok (s.dropPending.setX d (BitVec.ofNat 64 g.completed.toNat))
      | none => .wait s
    | none => match s.myGroup with
      | none => trapR illegalOperand s.rawWord
      | some (dom, g) => s.release fun s =>
        if g.stalls s.th.who then .wait s
        else if (g.arrive s.th.who).complete then .ok ((s.arriveGroup dom g).setX d (BitVec.ofNat 64 g.episode))
        else .wait ((s.arriveGroup dom g).blockWord (.gbar g.episode)))

/-- GARR (R302). -/
def execGarr (d : BitVec 5) (s : State) : Out :=
  finish s (match s.myGroup with
    | none => trapR illegalOperand s.rawWord
    | some (dom, g) => s.release fun s =>
      if g.stalls s.th.who then .wait s else .ok ((s.arriveGroup dom g).setX d (BitVec.ofNat 64 g.episode)))

/-- GWAIT (R302). -/
def execGwait (a : BitVec 5) (s : State) : Out :=
  let x := (s.x a).toNat
  finish s (match s.waitReply with
    | some (some _) => .ok s.dropPending
    | some none => match s.myGroup with
      | some (_, g) => if episodeDone g.completed x then .ok s.dropPending else .wait (s.block (.gwait x))
      | none => .wait s
    | none => match s.myGroup with
      | none => trapR illegalOperand s.rawWord
      | some (_, g) => if episodeDone g.completed x then .ok s else .wait (s.blockWord (.gwait x)))

/-! ### SSTEP, XPHASE (R295, R297, R298) -/

/-- Own-TCM offset of the plan header. -/
def Thread.planAt (t : Thread) : Nat := bits t.planbase.toNat 0 16

/-- The registers at the head of a rank's undo log (R400, R401). -/
def snapshotBytes (t : Thread) (mconf : Word) (superstep : Nat) : List Byte :=
  let v (n : Nat) : List Byte := toBytes 16 (if (t.stream? n).isSome then 0 else (t.getV n).toNat)
  toBytes 8 t.pc.toNat ++ ((List.range 15).flatMap fun i => toBytes 8 (t.getX (i + 1)).toNat) ++
  toBytes 8 (t.pw.toNat + t.space.toNat * 2 ^ 16 + t.farsp.toNat * 2 ^ 32) ++ toBytes 8 t.vconf.toNat ++ toBytes 8 mconf.toNat ++
  toBytes 8 0 ++ toBytes 8 superstep ++ toBytes 88 0 ++ (List.range 32).flatMap v

/-- The snapshot of thread `t` of core context `k`, of core `c`, in the cluster scratchpad; the log's fill stays as it is. -/
def State.writeSnapshot (s : State) (c : Nat) (k : Core) (t : Thread) : State :=
  if k.undo.isNone then s
  else
    let old := (s.pad (clusterOf c)).bytes
    let b := undoBase c
    let m := wrBytes old b (snapshotBytes t k.mconf (rdN k.tcm.bytes (t.planAt + 8) 4))
    s.setPad (clusterOf c) { s.pad (clusterOf c) with bytes := wrN m (b + 0x98) 8 (rdN old (b + 0x98) 8) }

/-- The core writes the snapshot when SSTEP has completed (R401). -/
def State.takeSnapshot (s : State) : State :=
  ({ s with th := { s.th with comparedAt := s.th.compared } } : State).writeSnapshot s.cid s.co { s.th with pc := s.nextAddr }

/-- A context that is not on a core completes its SSTEP at T0: x[d], pc, and the snapshot (R44, R270, R401). -/
def State.sstepAway (s : State) (i b n : Nat) (t : Thread) : State :=
  match t.waitingWord with
  | some (.sstep d, next) =>
    let u := { t.setX d.toNat (BitVec.ofNat 64 n) with
      st := if t.st == .blocked .faultReply then t.st else .ready, pend := [], fetched := none, pc := next, comparedAt := t.compared }
    (s.modCoreAt (ctxPlace i) fun k => k.modBank b fun _ => u).writeSnapshot (s.coreOfPlace (ctxPlace i)) (s.coreAt (ctxPlace i)) u
  | _ => s.modCoreAt (ctxPlace i) fun k => k.modBank b fun t => t.finishWait (.value n)

/-- SSTEP (R297). -/
def execSstep (d : BitVec 5) (s : State) : Out :=
  finish s (
    if s.src.gangNo = 0 then trapR illegalOperand s.rawWord
    else match s.waitReply with
      | some (some (.value n)) => .ok ((s.dropPending.setX d (BitVec.ofNat 64 n)).takeSnapshot)
      | some (some _) => .ok s.dropPending
      | some none => .wait (s.block .sstep)
      | none => s.release fun s =>
        if !s.co.egressRoom s.now 1 then .wait s
        else .wait ((s.blockWord .sstep).emitOwn 1 (2 * hops (clusterOf s.cid) 62 + 2) (.barrierArrival s.th.who)))

/-- BARRIER_ARRIVAL (R297): an arrival reaches the barrier unit. -/
def execBarrierArrival (s : State) : Out :=
  match s.event with
  | .barrierArrival w => .next (match s.originOf w with
    | some c =>
      let copy := s.copyNo w.prog c
      (s.modRun w.prog fun r => r.modStep copy fun x => { x with arrived := w.serial :: x.arrived.filter (· != w.serial) }).checkBarrier
        w.prog copy
    | none => s)
  | _ => .next s

/-- The place of a thread that a core or a Saved context holds. -/
def State.placeOfThread (s : State) (w : Who) : Option (Nat × Nat) :=
  match s.locate w with
  | some (.live c b) => some (c, b)
  | some (.saved i b) => some (ctxPlace i, b)
  | _ => none

/-- Empty the undo log of the core at a place, counting its OVERFLOW (R401, R402). -/
def State.clearLog (s : State) (place : Nat) (f : State → State) : State :=
  let k := s.coreAt place
  let c := s.coreOfPlace place
  if k.undo.isNone then f s
  else
    let s := if k.undoOver then s.count (unitCore c) ctrUndoOverflow else s
    let s := f (s.modCoreAt place fun k => { k with undo := none })
    let s := s.setPad (clusterOf c) { s.pad (clusterOf c) with bytes := wrN (s.pad (clusterOf c)).bytes (undoBase c + 0x98) 8 0 }
    s.modCoreAt place fun k => { k with undo := some [], undoUsed := 0, undoOver := false }

/-- One rank at T0 (R297): its header, its reply, and it is Ready. -/
def State.releaseRank (s : State) (w : Who) : State :=
  match s.placeOfThread w with
  | none => s
  | some (p, b) =>
    let t := (mget (s.coreAt p).banks b).getD {}
    let h := t.planAt
    let n := (rdN (s.coreAt p).tcm.bytes (h + 8) 4 + 1) % 2 ^ 32
    let late := rdN (s.coreAt p).tcm.bytes (h + 0x0E) 1
    let s := s.clearLog p fun s =>
      s.wrTcmAt p h (toBytes 8 s.cycle ++ toBytes 4 n) [] |>.wrTcmAt p (h + 0x0E) (toBytes 1 (late / 2 * 2)) []
    let u := (mget (s.coreAt p).banks b).getD {}
    if !(u.st == .blocked .sstep || (u.st == .blocked .faultReply && u.pend.any (·.reply.isNone))) then s
    else match ctxOf? p with
      | some i => s.sstepAway i b n u
      | none => s.modCoreAt p fun k => k.modBank b fun t => t.finishWait (.value n)

/-- The barrier of a copy of a gang is marked for replay. -/
def State.stepMarked (s : State) (p copy : Nat) : Bool :=
  ((s.prog? p).bind (·.run)).any fun r => (r.step copy).marked

/-- SSTEP_RELEASE (R297); a mark that came since the last arrival makes it a replay (R402). -/
def execSstepRelease (s : State) : Out :=
  match s.event with
  | .sstepRelease p copy => .next (
    if s.stepMarked p copy then s.post 0 (.superstepReplay p copy)
    else
      let l := s.ranks p copy
      let s := s.modRun p fun r => r.modStep copy fun x => { x with arrived := [], replays := 0 }
      l.foldl (fun s t => s.releaseRank t.2.2.who) s)
  | _ => .next s

/-- Put back the granules of an undo log, last entry first (R402). -/
def restoreLog (pad : Mem) (base : Nat) (k : Core) : Nat → Core
  | 0 => k
  | e + 1 =>
    let g := rdN pad (base + 0x300 + 4 * e) 1
    let old := rdBytes pad (base + 0x400 + 256 * e) 256
    let k := if g < 192 then { k with tcm := { k.tcm with bytes := wrBytes k.tcm.bytes (256 * g) old } }
      else { k with tiles := wrBytes k.tiles (256 * (g - 192)) old }
    restoreLog pad base k e

/-- The registers of a snapshot (R400). -/
def restoreThread (pad : Mem) (base : Nat) (t : Thread) : Thread :=
  let q := rdN pad (base + 0x80) 8
  let t := (List.range 15).foldl (fun (t : Thread) i => t.setX (i + 1) (BitVec.ofNat 64 (rdN pad (base + 8 + 8 * i) 8))) t
  let t := (List.range 28).foldl (fun (t : Thread) n =>
    if (t.stream? n).isSome then t else t.setV n (BitVec.ofNat 128 (rdN pad (base + 0x100 + 16 * n) 16))) t
  { t with
    pc := BitVec.ofNat 40 (rdN pad base 8), pw := BitVec.ofNat 8 q, space := BitVec.ofNat 16 (q / 2 ^ 16)
    farsp := BitVec.ofNat 16 (q / 2 ^ 32), vconf := BitVec.ofNat 64 (rdN pad (base + 0x88) 8), pend := [], fetched := none, xAt := [], st := .ready
    compared := t.comparedAt }

/-- Clear every arrival flag and LATE, and set the origin (R402). -/
def clearPlan (m : Mem) (h cycle : Nat) : Mem :=
  let m := wrN (wrN m h 8 cycle) (h + 0x0E) 1 (rdN m (h + 0x0E) 1 / 2 * 2)
  (List.range (rdN m (h + 0x10) 2)).foldl (fun m e =>
    if rdN m (h + 0x26 + 16 * e) 1 = 1 then wrN m (h + 0x2F + 16 * e) 1 0 else m) m

/-- One rank of a superstep that is replayed (R402). -/
def State.replayRank (s : State) (w : Who) : State :=
  match s.placeOfThread w with
  | none => s
  | some (p, b) =>
    let c := s.coreOfPlace p
    let pad := (s.pad (clusterOf c)).bytes
    let base := undoBase c
    let h := ((mget (s.coreAt p).banks b).getD {}).planAt
    let cycle := s.cycle
    let s := s.clearLog p fun s => s.modCoreAt p fun k =>
      let k := restoreLog pad base k k.undoUsed
      { k with
        tcm := { k.tcm with bytes := clearPlan k.tcm.bytes h cycle }, headers := []
        mconf := BitVec.ofNat 64 (rdN pad (base + 0x90) 8), seq := k.seq.filter fun e => e.bank != b
        vloop := none }
    (s.modCoreAt p fun k => k.modBank b fun t => restoreThread pad base t).count (unitCore c) ctrReplay

/-- The threads of one copy of a gang's program, ended or not, wherever they are. -/
def State.copyThreads (s : State) (p copy : Nat) : List Thread :=
  let pick (c : Nat) (k : Core) : List Thread :=
    if s.copyNo p c = copy then (k.banks.filter fun b => b.2.prog == p).map (·.2) else []
  s.cores.flatMap (fun c => pick c.1 c.2) ++ s.contexts.flatMap (fun x => pick x.2.origin x.2.core) ++
    (s.moving.filter fun m => m.2.arrived && m.2.thread.prog == p && s.copyNo p m.2.dest == copy).map (·.2.thread)

/-- The copies and sends of a gang, of the threads that it has spawned too, have drained, and what it sent by XSEND has landed (R402,
R318). -/
def State.gangDrained (s : State) (p copy : Nat) : Bool :=
  ((s.copyThreads p copy).all s.drained) && s.agenda.all fun e => match e.2 with
    | .exchangeArrival x => x.prog != p || s.copyNo p x.dst != copy
    | _ => true

/-- SUPERSTEP_REPLAY (R402): fails after the third replay or with an OVERFLOW; else, once drained, restores every rank at T0. -/
def execSuperstepReplay (s : State) : Out :=
  match s.event with
  | .superstepReplay p copy => .next (match (s.prog? p).bind (·.run) with
    | none => s
    | some r =>
      let st := r.step copy
      let l := s.ranks p copy
      let cores := l.map fun t => (s.placeOfThread t.2.2.who).map fun x => (x.1, t.2.2)
      let number := match cores.headD none with
        | some (q, t) => rdN (s.coreAt q).tcm.bytes (t.planAt + 8) 4
        | none => 0
      let overflown := cores.filterMap fun x => x.bind fun y => if (s.coreAt y.1).undoOver then some (s.coreOfPlace y.1) else none
      if 3 ≤ st.replays || !overflown.isEmpty then
        (overflown.foldl (fun s c => s.count (unitCore c) ctrUndoOverflow) s).endProgram p 0x1A (BitVec.ofNat 64 number)
      else if !s.gangDrained p copy then s.post (cyc 8) s.event
      else if s.cycle < st.last + 352 then s.post (s.untilCycle (st.last + 352)) s.event
      else
        let s := s.modRun p fun r => r.modStep copy fun x => { x with arrived := [], marked := false, replays := x.replays + 1 }
        l.foldl (fun s t => s.replayRank t.2.2.who) s)
  | _ => .next s

/-- XPHASE (R298). -/
def execXphase (d a : BitVec 5) (s : State) : Out :=
  let h := s.src.planAt
  let x := s.x a
  finish s (if rdN s.co.tcm.bytes (h + 0x10) 2 ≤ x.toNat then trapR illegalOperand x
    else s.logged (.ok ((s.wrOwn (h + 0x0C) (toBytes 2 x.toNat)).setX d (BitVec.ofNat 64 (rdN s.co.tcm.bytes h 8)))))

/-! ### SPAWN (R303) -/

/-- The targets of R303. -/
def State.spawnAllowed (s : State) (c target : Nat) (t : Thread) : Bool :=
  target == c ||
  (isCompute target && (s.core c).reach.contains (t.prog, target) && (s.core target).holds t.prog) ||
  (s.core target).staked == some t.who

/-- SPAWN by thread `t` on core `c`: the new THREAD_ID, or 0. A staked core loads the text of the program first (R390). -/
def State.spawnNow (s : State) (c : Nat) (t : Thread) (target : Nat) (entry : IAddr) (arg : Word) : Word × State :=
  if !s.spawnAllowed c target t then (0, s)
  else match s.freeBank target, s.prog? t.prog with
    | some b, some g =>
      let n := s.newSerial t.prog
      let s := n.2
      let staked := (s.core target).staked.isSome
      let new := (g.start t.prog n.1 (slotOf b) .spawned entry.toNat t.trap0.tvec (t.latency || staked) arg 0 0 t.arg)
      let new := { new with space := t.space, farsp := t.space, tenant := t.tenant, level := t.level }
      let first := staked && !((s.core target).l0i.any fun l => l.prog == t.prog && l.locked)
      let s := if first then s.lockText target t.prog g else s
      let new := if first then { new with notBefore := s.cycle + 256 } else new
      (new.id b, s.putThread target b new)
    | _, _ => (0, s)

/-- An operation that a pair compares and the module performs in one step (R395): it travels as the operations of the home
controllers do. -/
def State.pairedOp (s : State) (kind : Nat) (op : Instr) (a b : Word) (data : List Byte) (k : Word → State → Res) : Res :=
  if s.pending.isNone && s.holdsBack then .wait s else ask s (fun id s =>
    let o : QOp := { home := 99, core := s.cid, who := s.th.who, word := s.widx, tenant := s.src.tenant, space := 0, op := op
                     a := a, b := b, data := data }
    ({ s with qops := mset s.qops id o } : State).sendReq id 2 (.homeControllerOperation id none)
      (requestHash kind 0 (toBytes 8 a.toNat ++ toBytes 8 b.toNat ++ data)))
    fun r s => match r with
      | .value v => k (BitVec.ofNat 64 v) s
      | _ => k 0 s

/-- SPAWN (R303). -/
def execSpawn (d a b : BitVec 5) (s : State) : Out :=
  let v := (s.x d).toNat
  let target := if v = 0xFFFF then s.cid else v
  let arg := s.x b
  finish s (checkTarget s (s.x a).toNat fun s e => s.release fun s =>
    if (s.pairOf s.cid s.th.kind).isSome then
      s.pairedOp 14 (.spawn d a b) (e.setWidth 64) arg (toBytes 8 target) fun w s => .ok (s.setX d w)
    else
      let r := s.store.spawnNow s.cid s.th target e arg
      .ok (r.2.reload.setX d r.1))

/-! ### EXIT, YIELD (R304, R306) -/

/-- EXIT (R304): after the thread's queued vector words. -/
def execExit (s : State) : Out :=
  finish s (if s.seqBusy then .wait s
    else
      let k := s.th.kind
      .ok (s.onModule fun s =>
        let s := s.endThread s.cid s.bank
        match k with
        | .reflex e _ => s.activationExit e s.cid
        | _ => s))

/-- Another slot of the core is Ready. -/
def State.otherReady (s : State) : Bool := (List.range 4).any fun i => i != slotOf s.bank &&
  (match mget s.co.banks (s.co.bankOfSlot i) with
    | some t => t.st == .ready
    | none => false)

/-- YIELD (R306). -/
def execYield (s : State) : Out :=
  finish s (.ok { s with th := { s.th with
    yielded := true, notBefore := if s.th.latency && s.otherReady then s.cycle + 2 else s.th.notBefore } })

/-! ### Task sets (R27, R28, R307) -/

/-- The run of the issuing thread's task set. -/
def State.taskRun (s : State) : Option Run :=
  match s.th.kind with
  | .taskSet _ => (s.prog? s.th.prog).bind (·.run)
  | _ => none

/-- TGROW (R307). -/
def execTgrow (d a : BitVec 5) (s : State) : Out :=
  let k := (s.x a).toNat
  finish s (match s.taskRun with
    | none => .ok (s.setX d 2)
    | some r =>
      if 0xFFFFFFFF < r.count + k then .ok (s.setX d 1)
      else
        let p := s.th.prog
        .ok (((s.modRun p fun r => { r with count := r.count + k }).post 2 (.taskDispatch p)).setX d 0))

/-- TIDX (R307). -/
def execTidx (d : BitVec 5) (s : State) : Out :=
  writeX s d (BitVec.ofNat 64 ((s.taskRun.map (·.count)).getD 0))

/-- TIDX.NX (R307). -/
def execTidxNx (d : BitVec 5) (s : State) : Out :=
  writeX s d (BitVec.ofNat 64 ((s.taskRun.map (·.next)).getD 0))

/-- A core whose Free banks the dispatcher of program `p` may use: it holds no other program's thread, is not staked, and decodes by
table `t` (R78). -/
def State.takesTasks (s : State) (p t c : Nat) : Bool :=
  let k := s.core c
  k.table == t && k.staked.isNone && !k.clearing && k.seized.isNone && !s.claimed c && !s.gangHolds c p && !s.wantedBy c p && k.banks.all fun b => b.2.prog == p

/-- Issue the next index to a Free bank of core `c` (R27, R31). -/
def State.dispatchOne (s : State) (p c : Nat) : State :=
  match s.prog? p with
  | none => s
  | some g => match g.run with
    | none => s
    | some r =>
      if r.gang || !r.admitted || r.ended.isSome || r.count ≤ r.next || !s.takesTasks p r.table c then s
      else match s.freeBank c with
        | none => s
        | some b =>
          let n := s.newSerial p
          let s := n.2
          let w : Who := ⟨p, n.1⟩
          let grp := if r.grouped then some r.domain else none
          let t := g.start p n.1 (slotOf b) (.taskSet r.next) r.entry r.tvec r.latency (BitVec.ofNat 64 r.next)
            (BitVec.ofNat 64 (if r.grouped then r.members else 0)) (BitVec.ofNat 64 r.count0) r.arg
          let s := (s.putThread c b { t with group := grp }).modRun p fun r => { r with next := r.next + 1, members := r.members + 1 }
          if r.grouped then
            let q := (s.groupOf c r.domain).getD { members := [] }
            s.setGroup c r.domain (some { q with members := q.members ++ [w], late := if q.isOpen then q.late ++ [w] else q.late })
          else s

/-- Issue indices of program `p` to the Free banks of its cores (R27). -/
def State.dispatch (s : State) (p : Nat) : State :=
  let cores := (((s.prog? p).bind (·.run)).map (·.cores)).getD []
  cores.foldl (fun s c => [0, 1, 2, 3].foldl (fun s _ => s.dispatchOne p c) s) s

/-- TASK_DISPATCH (R27). -/
def execTaskDispatch (s : State) : Out :=
  match s.event with
  | .taskDispatch p => .next ((s.dispatch p).post 0 (.programCompletion p))
  | _ => .next s

/-! ### The end of a bank and of a core's work (R304, R37) -/

/-- A thread of a reflex core waits in its shadow bank for the slot (R16, R29). -/
def Core.shadowWaits (k : Core) (slot : Nat) : Bool :=
  match mget k.banks (slot + 4) with
  | some t => t.st == .blocked .slot
  | none => false

/-- What follows when a bank of core `c` has become Free. -/
def State.afterRelease (s : State) (c b : Nat) (t : Thread) : State :=
  let s := match t.kind with
    | .landing id => s.landingEnded c id
    | _ => s
  let s := match (s.core c).runQueue with
    | i :: _ => s.post 0 (.migrationArrival i)
    | [] => s
  let s := if (s.core c).shadowWaits (slotOf b) then s.post 0 (.shadowBankSwitch c (slotOf b)) else s
  let s := if slotOf b = 3 && !(s.core c).landing.isEmpty then s.post 2 (.landingHandlerInvocation c) else s
  let s := (s.startClearing c).retryReleases c
  (s.post 0 (.taskDispatch t.prog)).post 0 (.programCompletion t.prog)

/-- BANK_RELEASE (R304). -/
def execBankRelease (s : State) : Out :=
  match s.event with
  | .bankRelease place b => .next (match mget (s.coreAt place).banks b with
    | some t =>
      if t.st != .ended || !s.drained t then s
      else
        let s := s.modCoreAt place fun k => { k with
          banks := mdel k.banks b, running := if 4 ≤ b then mdel k.running (slotOf b) else k.running }
        if (ctxOf? place).isSome then s.post 0 (.programCompletion t.prog) else s.afterRelease place b t
    | none => s)
  | _ => .next s

/-- The clearing of R37. -/
def Core.cleared (k : Core) : Core :=
  { k with
    tcm := {}, tiles := [], slots := [], landA := none, landB := none, mconf := 0x0000000003000000, headers := [], l0d := []
    l0i := k.l0i.filter (·.locked), records := [], linkcfg := 0, clearing := false }

/-- CLEARING (R37): at its end the core is Free, and work that waits for one may come. -/
def execClearing (s : State) : Out :=
  match s.event with
  | .clearing c => .next (
    ((s.modCore c Core.cleared).retryReleases c).post 0 .admission)
  | _ => .next s

end Sys2Proof.Machine
end

