-- ==== Sys2Proof/Machine/Exchange.lean ====
section
/-! DEFINITION. The exchange: XSEND and XRECV on the plan table (R295, R299, R300), its windows and arrivals (R299), and paired
gangs, whose copies exchange each within itself (R397). -/

namespace Sys2Proof.Machine

/-- Own-TCM offset of plan entry `e` (R295). -/
def Thread.planEntry (t : Thread) (e : Nat) : Nat := t.planAt + 0x20 + 16 * e

/-- LATE of the plan header (R295). -/
def Thread.late (t : Thread) (m : Mem) : Bool := bit (rdN m (t.planAt + 0x0E) 1) 0

/-- Cycle at which the window of entry `e` opens (R299). -/
def Thread.windowStart (t : Thread) (m : Mem) (e : Nat) : Nat := rdN m t.planAt 8 + rdN m (t.planEntry e) 4

/-- The entry that XSEND or XRECV names, if it lies below the count and has the kind (R299, R300). -/
def Thread.entryOf (t : Thread) (m : Mem) (x kind : Nat) : Option Nat :=
  let e := rdN m (t.planAt + 0x0C) 2 + x
  if rdN m (t.planAt + 0x10) 2 ≤ e ∨ rdN m (t.planEntry e + 6) 1 ≠ kind then none else some e

/-- The head flit of entry `e` of thread `t` on core `c` leaves: on the exchange plane the data arrive 2h + f + 8 fabric cycles
later (R299). -/
def State.sendExchange (s : State) (c : Nat) (t : Thread) (e : Nat) (late : Bool) : State :=
  let m := (s.core c).tcm.bytes
  let a := t.planEntry e
  let n := rdN m (a + 0x0C) 2
  let twin := s.copyNo t.prog c = 1
  let named := rdN m (a + 4) 2
  let dst := if twin then s.planCore t.prog named true else named
  let x : XMsg :=
    { src := if twin then s.planCore t.prog c false else c
      dst := dst, prog := t.prog, offset := rdN m (a + 0x0A) 2, index := rdN m (a + 7) 1, data := rdBytes m (rdN m (a + 8) 2) n }
  let h := hops (clusterOf c) (clusterOf dst)
  s.emit c (flitsOf n) (if late then cyc (6 + 2 * h) + n / 64 else 2 * h + n / 64 + 8) (.exchangeArrival x)

/-- XSEND (R299). -/
def execXsend (a : BitVec 5) (s : State) : Out :=
  let x := s.x a
  let t := s.src
  let m := s.co.tcm.bytes
  finish s (match t.entryOf m x.toNat 0 with
    | none => trapR illegalOperand x
    | some e => s.release fun s =>
      let w := t.windowStart m e
      if s.pending.isSome ∨ s.cycle < w then
        ask s (fun id s => s.post (s.untilCycle w) (.exchangeWindow s.th.who id e)) fun _ s => .ok s.takeCycle
      else if w + 8 ≤ s.cycle ∧ !t.late m then trapR exchangeSlot x
      else .ok (s.onModule fun s => s.sendExchange s.cid t e (decide (w + 8 ≤ s.cycle))))

/-- XRECV (R300). -/
def execXrecv (a : BitVec 5) (s : State) : Out :=
  let x := s.x a
  let m := s.co.tcm.bytes
  finish s (match s.src.entryOf m x.toNat 1 with
    | none => trapR illegalOperand x
    | some e =>
      let f := s.src.planEntry e + 0x0F
      if rdN m f 1 ≠ 0 then s.logged (.ok (s.dropPending.wrOwn f [0]))
      else if s.pending.isSome then .wait (s.block (.xrecv e))
      else .wait (s.blockWord (.xrecv e)))

/-- EXCHANGE_WINDOW (R299): a stalled XSEND's cycle has come; a thread that has left its core or whose core does not issue tries the
word again. -/
def execExchangeWindow (s : State) : Out :=
  match s.event with
  | .exchangeWindow w id e => .next (match s.locate w with
    | some (.live c b) =>
      let k := s.core c
      match mget k.banks b with
      | some t =>
        if !t.pend.any (·.id == id) then s
        else if k.halted || k.seized.isSome then s.modThread w fun t => { t with pend := t.pend.filter (·.id != id) }
        else (s.sendExchange c t e false).answer1 w id (.value 0)
      | none => s
    | _ => s.modThread w fun t => { t with pend := t.pend.filter (·.id != id) })
  | _ => .next s

/-- XRECV's thread finds its entry's flag set. -/
def Thread.received (t : Thread) (e : Nat) : Thread :=
  match t.st with
  | .blocked (.xrecv i) => if i = e then t.finishWait (.value 0) else t
  | _ => t

/-- A context that is not on a core completes its XRECV of entry `e` there: the thread after the word (R45, R270, R300). -/
def Thread.receivedAway (t : Thread) (e : Nat) : Option Thread :=
  match t.st, t.waitingWord with
  | .blocked (.xrecv i), some (.xrecv _, next) =>
    if i = e then some { t with st := .ready, pend := [], fetched := none, pc := next } else none
  | _, _ => none

/-- Exchange data land at a place, or are discarded there (R299). -/
def State.landExchange (s : State) (x : XMsg) (place : Nat) : State :=
  let k := s.coreAt place
  let drop := s.count (unitCore x.dst) ctrLinkDrop
  match k.banks.find? fun b => b.2.prog == x.prog && b.2.kind.isGang with
  | none => drop
  | some (b, t) =>
    let a := t.planEntry x.index
    if rdN k.tcm.bytes (a + 4) 2 ≠ x.src ∨ rdN k.tcm.bytes (a + 0x0F) 1 ≠ 0 then drop
    else
      let s := s.wrTcmAt place x.offset x.data []
      match (if (ctxOf? place).isSome then t.receivedAway x.index else none) with
      | some u => s.modCoreAt place fun k => k.modBank b fun _ => u
      | none => (s.wrTcmAt place (a + 0x0F) [1] []).modCoreAt place fun k => k.modBank b fun t => t.received x.index

/-- EXCHANGE_ARRIVAL (R299): a streaming context is asked again, a Saved one has its image written (R45). -/
def execExchangeArrival (s : State) : Out :=
  match s.event with
  | .exchangeArrival x =>
    let place := s.placeOf x.prog x.dst
    .next (if s.streaming place then s.keep s.event else s.landExchange x place)
  | _ => .next s

end Sys2Proof.Machine
end

