-- ==== Sys2Proof/Machine/Image.lean ====
section
/-! DEFINITION. The bytes of a core context as a stream or an eviction record holds them (R232-R234, R280, R291). -/

namespace Sys2Proof.Machine

/-- A back-pointer: cluster, core, forwarding entry, valid (R234). -/
def backWord (b : Nat × Nat) : Nat := 1 + b.2 % 16 * 2 + coreNo b.1 % 32 * 2 ^ 5 + clusterOf b.1 % 64 * 2 ^ 10

/-- `n` back-pointers, the unused ones zero. -/
def backBytes (n : Nat) (l : List (Nat × Nat)) : List Byte := (List.range n).flatMap fun i => toBytes 2 ((l[i]?.map backWord).getD 0)

/-- Wait code of the state word (R233). -/
def Wait.code : Wait → Nat
  | .recv _ => 1
  | .deq => 2
  | .enq => 3
  | .gbar _ => 4
  | .gwait _ => 5
  | .xrecv _ => 6
  | .sstep => 7
  | .link _ => 8
  | .rotation _ => 8
  | .faultReply => 9
  | .slot => 10

/-- Level in two bits (R225). -/
def levelCode : Level → Nat
  | .task => 0
  | .service => 1
  | .firmware => 2

/-- A grant has come to a thread that is parked in a context away from its core (R233). -/
def Thread.hasGrant (t : Thread) : Bool := t.pend.any fun p => p.reply.isSome

/-- The state word of a thread context (R233): [38] says that a grant has crossed the withdrawal. -/
def stateWord (t : Thread) : Nat :=
  let st : Nat := match t.st with
    | .ready => 1
    | .blocked w => 2 + w.code * 2 ^ 3
    | .ended => 0
  let bound := ([0, 1, 2, 3].filter fun k => (t.stream? (20 + k)).isSome).foldl (fun n k => n + 2 ^ (9 + k)) 0
  let more : Nat := match t.st with
    | .blocked (.recv m) => m.toNat * 2 ^ 16
    | .blocked (.link p) => p % 4 * 2 ^ 32
    | .blocked (.rotation p) => p % 4 * 2 ^ 32
    | .blocked .enq => 1 * 2 ^ 34 + if t.hasGrant then 2 ^ 38 else 0
    | .blocked .deq => 2 * 2 ^ 34 + if t.hasGrant then 2 ^ 38 else 0
    | .blocked .faultReply => 3 * 2 ^ 34
    | _ => 0
  st + (if t.latency then 2 ^ 8 else 0) + bound + levelCode t.level * 2 ^ 13 + more

/-- A trap bank's 40 bytes (R233). -/
def trapBytes (k : TrapBank) : List Byte :=
  let status := k.pwsave.toNat + levelCode k.level * 2 ^ 16 + (if k.held then 2 ^ 31 else 0)
  toBytes 8 (status + k.cause.toNat * 2 ^ 32) ++ toBytes 8 k.tval.toNat ++ toBytes 8 k.tepc.toNat ++ toBytes 8 k.tvec.toNat ++
  toBytes 8 k.scratch.toNat

/-- The 12 bytes of a stream's state and 4 of zero (R291). -/
def streamBytes (st : Stream) : List Byte :=
  let flags := 1 + (if st.write then 2 else 0) + (if st.killed then 4 else 0) + (if st.fault then 8 else 0)
  toBytes 2 st.desc ++ toBytes 2 st.i0 ++ toBytes 2 st.i1 ++ toBytes 2 st.i2 ++ toBytes 1 flags ++ toBytes 1 st.copy ++ toBytes 6 0

/-- The queued words of a bank, oldest first: each word of a VLOOP's body once (R233, R247). -/
def Core.savedQueue (k : Core) (b : Nat) : List SeqEntry :=
  (k.seqEntries.filter fun e => e.bank == b).mergeSort fun x y => decide (x.after ≤ y.after)

/-- Repetitions of a bank's VLOOP that have not ended, the one that runs among them: the whole count until the body is complete
(R233). -/
def Core.loopLeft (k : Core) (b : Nat) : Nat :=
  match k.vloop.filter fun v => v.bank == b with
  | some v => v.left + if v.toIssue = 0 && (!v.rest.isEmpty || k.seq.any fun e => e.bank == b && e.loop) then 1 else 0
  | none => 0

/-- The integer operands that a queued word has captured, registers as they were read (R233, R243): the base of an access with an
offset is its address less the offset. -/
def SeqEntry.captured (e : SeqEntry) : List Word :=
  let base (off : BitVec 7) (size : Nat) : List Word := [e.ops.headD 0 - simm off * BitVec.ofNat 64 size]
  match e.word with
  | .vld _ _ off => base off 16
  | .vst _ _ off => base off 16
  | .vldb _ _ off => base off (elemBytes e.vconf)
  | i => e.ops.take (vCaptures i)

/-- A thread context of 832 bytes (R233); `ticket` is the home-controller ticket of a parked operation. -/
def threadImage (k : Core) (b : Nat) (t : Thread) (ticket : Nat) : List Byte :=
  let q := k.savedQueue b
  let words := q.map (·.raw)
  let ops := q.flatMap SeqEntry.captured
  let head := k.loopLeft b % 2 ^ 16 + q.length % 32 * 2 ^ 16 +
    (((k.vloop.filter fun v => v.bank == b).map (·.length)).getD 0) % 16 * 2 ^ 24 + min ops.length 4 * 2 ^ 28
  let pendingWord := match t.fault with
    | some f => f.1
    | none => ticket
  let v (n : Nat) : List Byte := match t.stream? n with
    | some st => streamBytes st
    | none => toBytes 16 (t.getV n).toNat
  toBytes 8 t.pc.toNat ++ ((List.range 15).flatMap fun i => toBytes 8 (t.getX (i + 1)).toNat) ++
  toBytes 8 (t.pw.toNat + t.space.toNat * 2 ^ 16 + t.farsp.toNat * 2 ^ 32) ++ toBytes 8 t.vconf.toNat ++ toBytes 8 (t.id b).toNat ++
  toBytes 8 (stateWord t) ++ toBytes 8 pendingWord ++ toBytes 8 head ++ trapBytes t.trap0 ++ trapBytes t.trap1 ++
  ((List.range 16).flatMap fun i => toBytes 4 ((words.getD i 0).toNat)) ++ ((List.range 4).flatMap fun i => toBytes 8 ((ops.getD i 0).toNat)) ++
  backBytes 8 t.back ++ toBytes 16 0 ++ (List.range 28).flatMap v

/-- The core record of 512 bytes (R233). -/
def coreRecord (k : Core) (kind : Nat) : List Byte :=
  let slots := k.banks.filter fun b => b.1 < 4
  let any := (slots.map (·.2)).headD {}
  let alarm (n : Nat) : Option (Nat × Nat) := (mget k.banks n).bind fun t => if t.alarmOn.isSome then none else t.alarm
  let busy := slots.foldl (fun n b => n + 2 ^ b.1) 0
  toBytes 8 k.mconf.toNat ++ toBytes 8 k.linkcfg.toNat ++
  toBytes 8 (any.prog % 2 ^ 16 + any.tenant % 2 ^ 8 * 2 ^ 16 + k.table % 2 ^ 16 * 2 ^ 24 + (if k.halted then 2 ^ 40 else 0) + kind % 4 * 2 ^ 42 +
    busy * 2 ^ 44 + any.profile % 2 ^ 16 * 2 ^ 48) ++
  ((List.range 4).flatMap fun n => toBytes 8 (((alarm n).map (·.1)).getD 0)) ++
  ((List.range 4).flatMap fun n => toBytes 1 (((alarm n).map fun a => 0x80 + a.2 % 16).getD 0)) ++ toBytes 4 0 ++
  backBytes 4 k.back ++
  toBytes 8 ((List.range 16).foldl (fun n m => n + min (((mget k.mail m).getD []).length) 15 * 2 ^ (4 * m)) 0) ++ toBytes 48 0 ++
  rdBytes k.latch 0 384

/-- A copy record of 32 bytes (R280). -/
def copyRecord (y : Copy) : List Byte :=
  toBytes 1 (y.kind % 16) ++ toBytes 1 (y.state % 8 + y.slot % 4 * 8) ++ toBytes 2 y.space ++ toBytes 4 y.faultId ++ toBytes 8 y.src ++
  toBytes 8 y.dst ++ toBytes 4 y.length ++ toBytes 4 (y.sectors % 2 ^ 20)

/-- The core record and the four thread contexts (R233): what DUMP writes (R235). -/
def contextHead (k : Core) (kind : Nat) (ticket : Thread → Nat) : List Byte :=
  coreRecord k kind ++ (List.range 4).flatMap fun b => match mget k.banks b with
    | some t => if t.st == .ended then toBytes 832 0 else threadImage k b t (ticket t)
    | none => toBytes 832 0

/-- The parts of a core context before its memories: the core record, the thread contexts, the mailboxes, the copy records (R233). -/
def contextFront (k : Core) (kind : Nat) (ticket : Thread → Nat) : List Byte :=
  contextHead k kind ticket ++
  ((List.range 16).flatMap fun m => (List.range 8).flatMap fun e => toBytes 32 ((((mget k.mail m).getD []).getD e 0).toNat)) ++
  ((List.range 96).flatMap fun i => match mget k.copies i with
    | some y => copyRecord y
    | none => toBytes 32 0)

/-- A whole core context (R46, R233). -/
def contextImage (k : Core) (kind : Nat) (ticket : Thread → Nat) : List Byte :=
  contextFront k kind ticket ++ rdBytes k.tiles 0 16384 ++ rdBytes k.tcm.bytes 0 49152

end Sys2Proof.Machine
end

