-- ==== Sys2Proof/Machine/Moves.lean ====
section
/-! DEFINITION. Migration of a thread (R41-R43, R232, R234, R305): MIGR, the migrate-hint load, and the message's arrival. -/

namespace Sys2Proof.Machine

/-! ### Forwarding entries (R43, R234) -/

/-- The core with a forwarding entry in the lowest free place, and its number. Whoever leaves an entry has made sure of a place
(`State.canForward`). -/
def Core.putEntry (k : Core) (f : Forward) : Core × Nat :=
  match (List.range 16).find? fun i => (mget k.forwards i).isNone with
  | some n => ({ k with forwards := mset k.forwards n f }, n)
  | none => (k, 16)

/-- Leave a forwarding entry behind at core `c`: its number. -/
def State.leaveEntry (s : State) (c : Nat) (f : Forward) : State × Nat :=
  let r := (s.core c).putEntry f
  (s.setCore c r.1, r.2)

/-- Rewrite the entries that point at what moves (R234). -/
def State.rewrite (s : State) (back : List (Nat × Nat)) (dest : Nat) : State :=
  back.foldl (fun s b => s.modCore b.1 fun k => { k with forwards := mmod k.forwards b.2 fun f => { f with dest := dest } }) s

/-- A claim to vacate core `c` is on its way (R48): the move will take a forwarding entry. -/
def State.leavesSoon (s : State) (c : Nat) : Bool := s.agenda.any fun e => match e.2 with
  | .seize x _ => x == c
  | .preemption x _ => x == c
  | _ => false

/-- The router of core `c` has a free forwarding entry that no claim needs (R43, R48). -/
def State.canForward (s : State) (c : Nat) : Bool := (s.core c).forwards.length + (if s.leavesSoon c then 1 else 0) < 16

/-! ### MIGR (R41, R42, R305) -/

/-- The cases of R42 that refuse a migration, but for an active stream. -/
def State.refusesMove (s : State) (dest : Nat) : Bool :=
  !isCompute dest || inReflexArray dest != inReflexArray s.cid || !(s.core dest).holds s.src.prog || s.src.kind.isGang ||
  !s.canForward s.cid || 8 ≤ s.src.back.length || s.src.trap0.held || s.src.trap1.held

/-- The migration message of a thread (R232), 192 bytes; `pc` is where it goes on. TCAUSE, TVAL, TEPC and PWSAVE are not in it. -/
def Thread.message (t : Thread) (dest bank : Nat) (hint : Bool) (pc : IAddr) : List Byte :=
  let status := t.vconf.toNat % 2 ^ 32 + (if t.latency then 2 ^ 32 else 0) + levelCode t.level * 2 ^ 33 + t.tenant % 256 * 2 ^ 40 +
    t.profile % 2 ^ 16 * 2 ^ 48
  toBytes 8 (dest + 0x10000 + if hint then 2 ^ 24 else 0) ++ toBytes 8 pc.toNat ++
  ((List.range 15).flatMap fun i => toBytes 8 (t.getX (i + 1)).toNat) ++
  toBytes 8 (t.pw.toNat + t.space.toNat * 2 ^ 16 + t.farsp.toNat * 2 ^ 32) ++ toBytes 8 status ++ toBytes 8 (t.id bank).toNat ++
  backBytes 8 t.back ++ toBytes 8 t.trap0.tvec.toNat ++ toBytes 8 t.trap0.scratch.toNat

/-- The thread sets out for core `dest`: the message is packed, a forwarding entry is left behind, and three flits leave; the thread
stays Blocked at the source until the destination has taken it (R41, R42). -/
def State.setOut (s : State) (dest : Nat) (hint : Bool) : State :=
  let i := s.fresh
  let s := i.2
  let e := s.co.putEntry { prog := s.th.prog, thread := some s.th.who, dest := dest }
  let packed := { s.th with back := s.th.back ++ [(s.cid, e.2)] }
  let m : Moving := { src := s.cid, dest := dest, bank := s.bank, hint := hint, thread := s.th, entry := e.2
                      message := packed.message dest s.bank hint (if hint then s.th.pc else s.nextAddr) }
  ({ s with co := e.1, th := { s.th with st := .blocked .slot, hinted := hint }, moving := mset s.moving i.1 m } : State).emitOwn 3
    (cyc (6 + 2 * hops (clusterOf s.cid) (clusterOf dest))) (.migrationArrival i.1)

/-- The egress buffer has drained: a migration waits for that (R41, R238). -/
def State.egressEmpty (s : State) : Bool := s.co.egress ≤ s.now

/-- The core whose TCM an address of the window of any core's TCM names (R158, R305). -/
def State.tcmCore (_ : State) (ea : Word) : Option Nat :=
  match window ea.toNat with
  | some (.tcm c _) => some c
  | _ => none

/-- MIGR (R305). -/
def execMigr (a : BitVec 5) (s : State) : Out :=
  let x := s.x a
  finish s (match s.tcmCore x with
    | none => trapR onchipRange x
    | some c =>
      if c = s.cid then .ok s
      else if s.seqBusy then .wait s
      else if !s.src.streams.isEmpty then s.trapOpen streamFault
      else if s.refusesMove c then trapR onchipRange x
      else if !s.egressEmpty then .wait s
      else .ok (s.setOut c false))

/-- MIGR.LD (R305): the load in place, or on arrival; it leaves with the word still to be executed. -/
def execMigrLd (d a : BitVec 5) (s : State) : Out :=
  let x := s.x a
  let load := s.loadRes s.src.space.toNat x.toNat 8 fun v s => .ok ({ s with th := { s.th with hinted := false } }.setX d (BitVec.ofNat 64 v))
  finish s (match s.tcmCore x with
    | none => load
    | some c =>
      if c = s.cid || s.th.hinted || s.pending.isSome then load
      else if s.seqBusy then .wait s
      else if !s.src.streams.isEmpty || s.refusesMove c then load
      else if !s.egressEmpty then .wait s
      else .wait (s.setOut c true))

/-! ### Arrival (R41, R42) -/

/-- What the thread is once it has left core `c`: vector registers zero, its alarm still on the core that it was armed on (R41, R157).
Trap registers that the message does not carry keep their values (DESIGN CHOICE, notes/assumptions/48.md). -/
def Thread.departed (t : Thread) (c : Nat) : Thread :=
  { t with
    v := Vector.replicate 28 0, streams := [], st := .blocked .slot
    alarmOn := if t.alarm.isNone then none else t.alarmOn.or (some c) }

/-- The thread leaves bank `b` of core or context `place`: the entry left behind when the message was packed and the older ones lead
to where it goes (R43, R234). -/
def State.depart (s : State) (m : Moving) (place b dest : Nat) (t : Thread) : State × Thread :=
  let c := s.coreOfPlace place
  let back := t.back ++ [(m.src, m.entry)]
  let s := s.rewrite back dest
  let s := s.modCoreAt place fun k => { k with
    banks := mdel k.banks b, seq := k.seq.filter fun x => x.bank != b
    running := if 4 ≤ b then mdel k.running (slotOf b) else k.running }
  let t := { t.departed m.src with back := back }
  if (ctxOf? place).isSome then (s.post 0 (.programCompletion t.prog), t)
  else (s.afterRelease c b { t with kind := .spawned }, t)

/-- The thread takes a free bank of core `c`; grants that wait for it follow (R273). -/
def State.joins (s : State) (id c : Nat) (t : Thread) : Option State :=
  (s.freeBank c).map fun b =>
    (({ s with moving := mdel s.moving id } : State).putThread c b
      { t with st := .ready, fresh := true, starve := 0, notBefore := s.cycle + 1, fetched := none }).refillBox0 c

/-- The destination cannot take the message: its sender sends it again after 64 cycles (R42). -/
def State.moveRetry (s : State) (id : Nat) : State := s.post (cyc 64) (.migrationResend id)

/-- A migration message reaches its destination; a destination that no longer holds the program lets the thread go on where it
is. -/
def State.moveArrives (s : State) (id : Nat) (m : Moving) : State :=
  let w := m.thread.who
  match s.placeOfThread w with
  | none => { s with moving := mdel s.moving id }
  | some (place, b) =>
    match mget (s.coreAt place).banks b with
    | none => s
    | some t =>
      let dest := s.placeOf t.prog m.dest
      if t.st != .blocked .slot then { s with moving := mdel s.moving id }
      else if (ctxOf? dest).isSome || (s.core dest).seized.isSome || (s.core dest).clearing || s.streaming place ||
          (s.coreAt place).queued.any (fun x => x.bank == b) then s.moveRetry id
      else if !(s.core dest).holds t.prog then
        (({ s with moving := mdel s.moving id } : State).modThread w fun t => { t with st := .ready, hinted := m.hint }).modCore m.src
          fun k => { k with forwards := mdel k.forwards m.entry }
      else match s.freeBank dest with
        | some _ =>
          let r := s.depart m place b dest t
          (r.1.joins id dest r.2).getD r.1
        | none =>
          if 8 ≤ (s.core dest).runQueue.length then s.moveRetry id
          else
            let r := s.depart m place b dest t
            { r.1 with moving := mset r.1.moving id { m with arrived := true, dest := dest, thread := r.2 } }.modCore dest fun k =>
              { k with runQueue := k.runQueue ++ [id] }

/-- A thread of the run queue takes a bank that has become Free (R42). -/
def State.fromRunQueue (s : State) (id : Nat) (m : Moving) : State :=
  match s.joins id m.dest m.thread with
  | some s => s.modCore m.dest fun k => { k with runQueue := k.runQueue.filter (· != id) }
  | none => s

/-- MIGRATION_ARRIVAL (R41). -/
def execMigrationArrival (s : State) : Out :=
  match s.event with
  | .migrationArrival id => .next (match mget s.moving id with
    | some m => if m.arrived then s.fromRunQueue id m else s.moveArrives id m
    | none => s)
  | _ => .next s

/-- MIGRATION_RESEND (R42). -/
def execMigrationResend (s : State) : Out :=
  match s.event with
  | .migrationResend id => .next (match mget s.moving id with
    | some m => s.emit m.src 3 (cyc (6 + 2 * hops (clusterOf m.src) (clusterOf m.dest))) (.migrationArrival id)
    | none => s)
  | _ => .next s

end Sys2Proof.Machine
end

