-- ==== Sys2Proof/Machine/Vacate.lean ====
section
/-! DEFINITION. Pre-emption, seizing and settling a core, the streams of its context, and restore (R44-R48, R233). -/

namespace Sys2Proof.Machine

/-! ### Stream places and eviction records (R48, R233) -/

/-- Streams that run in a cluster. -/
def State.streams (s : State) (cl : Nat) : Nat := (mget s.front.places cl).getD 0

def State.takePlace (s : State) (cl : Nat) : State := s.modFront fun f => { f with places := mset f.places cl (s.streams cl + 1) }

/-- A stream of a cluster ends: its place is free, and queued words that the streams held back go on (R46, R48). -/
def State.givePlace (s : State) (cl : Nat) : State :=
  let s := s.modFront fun f => { f with places := mset f.places cl (s.streams cl - 1) }
  (List.range 17).foldl (fun s n => s.drain (coreId cl n)) s

/-- A free eviction record of a cluster, those named in claims not counted as free (R44). -/
def State.freeRecord (s : State) (cl : Nat) : Option Nat :=
  (List.range (s.records cl)).find? fun r =>
    !(s.contexts.any fun x => x.2.cluster == cl && x.2.record == some r) &&
    !(s.agenda.any fun e => match e.2 with
      | .seize c (.evict n) => clusterOf c == cl && n == r
      | .seize c (.stake n _) => clusterOf c == cl && n == r
      | _ => false)

/-- The core may be vacated (R43, R48, R49, R234). -/
def State.mayVacate (s : State) (c : Nat) : Bool :=
  let k := s.core c
  isDelib c && !k.banks.isEmpty && !k.clearing && k.seized.isNone && k.staked.isNone && !s.claimed c && s.canForward c && k.back.length < 4

/-- PREEMPTION (R44): the claim is made, and the seize message leaves. A pre-emption that finds no stream place waits. -/
def execPreemption (s : State) : Out :=
  match s.event with
  | .preemption c dest => .next (
    if !s.mayVacate c then s.post 0 .admission
    else match dest with
      | some d => if s.isFree d 0 then s.post (cyc 16) (.seize c (.live d)) else s.post 0 .admission
      | none =>
        if 4 ≤ s.streams (clusterOf c) then s.post (cyc 64) s.event
        else match s.freeRecord (clusterOf c) with
          | some r => (s.takePlace (clusterOf c)).post (cyc 16) (.seize c (.evict r))
          | none => s.post 0 .admission)
  | _ => .next s

/-! ### Settling (R47) -/

/-- Ticket and home of the waiter record of a thread that is parked (R330). -/
def State.ticketOf (s : State) (w : Who) : Option (Nat × Nat) :=
  s.homes.findSome? fun h => h.2.queues.findSome? fun q =>
    ((q.producers ++ q.consumers).find? fun x => x.who == w).map fun x => (h.1, x.ticket)

/-- Strips appended to write streams are written (R291). -/
def State.flushStreams (s : State) (c : Nat) : State :=
  (s.core c).banks.foldl (fun s b => b.2.streams.foldl (fun s e =>
    if e.2.write then (List.range e.2.strips.length).foldl (fun s _ => s.copyStep c e.2.copy) s else s) s) s

/-- Strips prefetched but not consumed are fetched again (R291). -/
def Thread.rewind (t : Thread) : Thread :=
  { t with streams := t.streams.map fun e =>
      if e.2.write then e else (e.1, { e.2 with n := e.2.n - e.2.strips.length, strips := [] }) }

/-- A thread parked on ENQ or DEQ withdraws; its context keeps the ticket (R47, R233). -/
def State.withdrawParked (s : State) (c : Nat) : State :=
  (s.core c).banks.foldl (fun s b =>
    if b.2.st == .blocked .enq || b.2.st == .blocked .deq then match s.ticketOf b.2.who with
      | some (h, n) => (s.modThread b.2.who fun t => { t with withdrawn := n }).post (cyc (6 + hopsHome (clusterOf c) h))
          (.waiterWithdrawal h n b.2.who)
      | none => s
    else s) s

/-- An event of the copy engine of core `c`, which is issued again at restore. -/
def isEngineEvent (c : Nat) : Event → Bool
  | .copySectorReply x _ => x == c
  | .copyCompletion x _ => x == c
  | .streamRefill x _ => x == c
  | .cpyqRetry x _ => x == c
  | .landingHandlerInvocation x => x == c
  | .xmpubCommit x _ => x == c
  | .xmrdCompletion x _ => x == c
  | _ => false

/-- What is in flight on a core that is vacated (R47, R233, R365): words in its link FIFOs are discarded and counted. -/
def State.settle (s : State) (c : Nat) : State :=
  let s := (s.flushStreams c).withdrawParked c
  let s := (s.unpost (isEngineEvent c)).breakRotation c ((s.core c).banks.map fun b => b.2.prog)
  let words := (s.core c).fifo.foldl (fun n p => n + p.2.length) 0
  (List.range words).foldl (fun s _ => s.count (unitCore c) ctrLinkDrop) (s.modCore c fun k => k.dropLink words)

/-- The core context that leaves (R21, R45): no weight buffer, no cache, no link word, no mirror count (R369); its threads' read
streams rewound, and words whose reply had come complete (R47, R276). -/
def Core.context (k : Core) : Core :=
  { k with
    slots := [], headers := [], records := [], l0d := [], l0i := [], fifo := [], forwards := [], guarded := [], seized := none
    mirrors := 0, mx := [], egress := 0, divFree := 0, arb := 0
    rr := 0, lastIssue := 0, quiesce := false, banks := k.banks.map fun b => (b.1, b.2.rewind.completeAway) }

/-- What stays in the core that has been vacated. -/
def Core.left (k : Core) (how : Option Vacate) : Core :=
  { forwards := k.forwards, table := k.table, faultIds := k.faultIds, keptFaults := k.keptFaults, seized := how, lastIssue := k.lastIssue
    mirrors := k.mirrors, egress := k.egress, divFree := k.divFree, arb := k.arb }

/-! ### Staked cores become ready (R49, R316) -/

/-- A core of a STAKE is ready: staked, bound to the domain of the staking thread; the grant leaves with the last. -/
def State.stakeReady (s : State) (id c : Nat) (granted : Bool) : State :=
  match mget s.front.stakes id with
  | none => s
  | some (r, wait, done) =>
    let wait := wait.filter (· != c)
    let s := if granted then s.modCore c fun k => { k with staked := some r.who } else s
    let s := s.modFront fun f => { f with stakes := mset f.stakes id (r, wait, if granted then done ++ [c] else done) }
    if wait.isEmpty then s.post (cyc 20) (.stakeGrant ((s.originOf r.who).getD r.core) id) else s

/-- Vacate kind of the core record (R233). -/
def Vacate.kind : Vacate → Nat
  | .live _ => 0
  | .evict _ => 1
  | .stake _ _ => 2

/-- The forwarding entries that point at a core context, and at the threads in it and in its run queue (R43, R234). -/
def State.entriesTo (s : State) (k : Core) : List (Nat × Nat) :=
  k.back ++ k.banks.flatMap (·.2.back) ++ k.runQueue.flatMap fun i => ((mget s.moving i).map (·.thread.back)).getD []

/-- SEIZE of core `c` (R47): its work settles within 96 cycles and its context streams out for 1,196. -/
def State.seize (s : State) (c : Nat) (how : Vacate) : State :=
  let k := s.core c
  let cl := clusterOf c
  if k.banks.isEmpty then match how with
    | .live _ => s.post 0 .admission
    | .evict _ => (s.givePlace cl).post 0 .admission
    | .stake _ r => (s.givePlace cl).stakeReady r c (!k.clearing)
  else
    let s := s.settle c
    let k := s.core c
    let i := s.fresh
    let s := i.2
    let any := (k.banks.map (·.2)).headD {}
    let place := ctxPlace i.1
    let e := s.leaveEntry c { prog := any.prog, thread := none, dest := place }
    let s := e.1.rewrite (e.1.entriesTo k) place
    let x : Context :=
      { origin := c, cluster := cl
        record := match how with
          | .live _ => none
          | .evict r => some r
          | .stake r _ => some r
        dest := match how with
          | .live d => some d
          | _ => none
        moving := true
        stake := match how with
          | .stake _ r => some r
          | _ => none
        order := i.1, prog := any.prog, gangMember := k.banks.any fun b => b.2.kind.isGang
        core := { k.context with back := k.back ++ [(c, e.2)] } }
    (({ s with contexts := mset s.contexts i.1 x } : State).modCore c fun k => k.left (some how)).post (cyc (96 + 1196)) (.contextStreamEnd i.1)

/-- SEIZE (R47). -/
def execSeize (s : State) : Out := s.orWait <|
  match s.event with
  | .seize c how => .next (s.seize c how)
  | _ => .next s

/-! ### Restore (R45) -/

/-- A grant for the thread is on its way: one that has crossed the withdrawal completes the operation (R47, R337). -/
def State.granted (s : State) (w : Who) : Bool :=
  let mine (e : Event) : Bool := match e with
    | .queueGrant g => g.who == w
    | _ => false
  s.agenda.any (fun e => mine e.2) || s.kept.any (fun e => mine e.2) || s.front.mirrorWait.any fun e => mine e.2

/-- An operation of the thread's word is at its home or between the modules: it is not performed a second time (R337). -/
def State.operating (s : State) (w : Who) : Bool := s.qops.any fun q => q.2.who == w && q.2.copy.isNone

/-- The thread's parked word executes again and rejoins its list at the tail (R337). -/
def Thread.retry (t : Thread) : Thread := { t with st := .ready, withdrawn := 0, pend := t.pend.filter (·.reply.isSome) }

/-- A thread of a restored context that is parked: its grant has come and completes the word, or its record or a grant is still to come
(`held`), or the word executes again (R233, R337). -/
def Thread.unparked (t : Thread) (held : Bool) : Thread :=
  if t.hasGrant then { t with st := .ready, withdrawn := 0 } else if held then t else t.retry

/-- A thread as the restored context holds it: parked and link words execute again, unless their record or a grant is still to
come (`held`), and a completed word goes on (R233, R270). -/
def Thread.landed (t : Thread) (held : Bool) : Thread :=
  let t := match t.st with
    | .blocked .enq => t.unparked held
    | .blocked .deq => t.unparked held
    | .blocked (.link _) => t.retry
    | .blocked (.rotation _) => t.rotates
    | _ => t
  { t with fresh := true, starve := 0, fetched := none, xAt := [] }

/-- The engine reads the descriptors of bound streams again from the restored TCM (R291). -/
def Thread.rereads (t : Thread) (m : Mem) : Thread :=
  { t with streams := t.streams.map fun e => (e.1, { e.2 with image := descriptorAt m e.2.desc }) }

/-- A fault reply that has come with a context to core `d` is applied there (R222, R224). -/
def State.replyTo (s : State) (d : Nat) (b : Payload) : State := s.faultReplyMail (((s.core d).faultCore b).getD d) b

/-- Deliver an appended arrival at restore (R233). -/
def State.deliverArrival (s : State) (d : Nat) (a : Nat × Nat × Payload) : State :=
  match a.1 with
  | 2 => s.replyTo d a.2.2
  | 3 => s
  | 4 => s.mailOrDrop d a.2.1 a.2.2
  | _ =>
    if a.2.1 = 0 then (s.putMail d 0 a.2.2).getD (s.modCore d fun k => { k with waiting0 := k.waiting0 ++ [a.2.2] })
    else if a.2.1 = 1 then s.replyTo d a.2.2
    else if a.2.1 = 14 then s.debugCommand d a.2.2
    else s.mailOrDrop d a.2.1 a.2.2

/-- The engine takes up a copy again: only sectors that were not acknowledged are sent (R47). -/
def State.resumeCopy (s : State) (d id : Nat) (y : Copy) : State :=
  if 2 ≤ y.state then s.post 2 (.copyCompletion d id)
  else if y.state = 1 then s
  else match y.work with
    | .probe _ => if y.busy then s else s.post 2 (.copySectorReply d id)
    | .elements _ _ _ =>
      if y.busy && s.qops.any (fun q => q.2.copy == some id && q.2.who == y.who) then s
      else (s.modCore d fun k => { k with copies := mset k.copies id { y with busy := false } }).post 2 (.copySectorReply d id)
    | .publish _ _ (some _) =>
      if y.waitPair.isSome && s.pairMatched y && y.units ≤ y.sectors then s.post 2 (.xmpubCommit d id) else s.post 2 (.copySectorReply d id)
    | _ => s.post 2 (.copySectorReply d id)

/-- LATE of a gang thread that has been restored (R299). -/
def State.setLate (s : State) (d : Nat) : State :=
  (s.core d).banks.foldl (fun s b =>
    if b.2.kind.isGang then s.modCore d fun k => { k with tcm := { k.tcm with bytes := wr8 k.tcm.bytes (b.2.planAt + 0x0E) 1 } } else s) s

/-- The core's bits in the reach maps of a program whose context it has received (R44, R160). -/
def State.addReachOf (s : State) (p c : Nat) : State :=
  s.mapCores fun k => if k.reach.any (fun r => r.1 == p) then k.addReach p [c] [clusterOf c] else k

/-- A context lands in core `d` (R45, R47). -/
def State.land (s : State) (id : Nat) (x : Context) (d : Nat) : State :=
  let k0 := s.core d
  let held (w : Who) : Bool := s.granted w || s.operating w || (s.ticketOf w).isSome
  let k : Core := { x.core with
    forwards := k0.forwards, table := k0.table, faultIds := k0.faultIds, keptFaults := k0.keptFaults
    mirrors := k0.mirrors, egress := k0.egress, divFree := k0.divFree, arb := k0.arb
    banks := x.core.banks.map fun b => (b.1, (b.2.landed (held b.2.who)).rereads x.core.tcm.bytes) }
  let s := ({ s with contexts := mdel s.contexts id } : State).setCore d k
  let s := ((s.rewrite (s.entriesTo x.core) d).addReachOf x.prog d).modRun x.prog fun r =>
    if r.gang || r.cores.contains d then r else { r with cores := r.cores ++ [d] }
  let s := ((mget x.core.mail 1).getD []).foldl (fun s b => s.replyTo d b) (s.setLate d)
  let s := x.arrivals.foldl (fun s a => s.deliverArrival d a) s
  let s := (s.core d).copies.foldl (fun s y => s.resumeCopy d y.1 y.2) s
  let s := x.core.runQueue.foldl (fun (s : State) i =>
    ({ s with moving := mmod s.moving i fun m => { m with dest := d } } : State).post 2 (.migrationArrival i)) s
  let s := if (s.core d).landing.isEmpty then s else s.post 2 (.landingHandlerInvocation d)
  ((s.drain d).refillBox0 d).startClearing d

/-- Core `c` is empty when its context has left. -/
def State.vacated (s : State) (c : Nat) : State := s.modCore c fun k => k.left none

/-- The image of a Saved context in its eviction record (R46, R233). -/
def State.writeRecord (s : State) (x : Context) (r : Nat) : State :=
  let kind := if x.stake.isSome then 2 else 1
  let img := contextImage x.core kind (·.withdrawn)
  let p := s.pad x.cluster
  s.setPad x.cluster { p with bytes := wrBlock p.bytes (recordAt r) (img ++ toBytes 1280 0) }

/-- What an event completes in a Saved context shows in its eviction record (R47, R270): after a step from `s`, the record of every
Saved context that has changed is written again up to its memories. -/
def State.syncRecords (t s : State) : State :=
  t.contexts.foldl (fun u x => match x.2.record, mget s.contexts x.1 with
    | some r, some y =>
      if x.2.moving || y.moving || x.2.core == y.core then u
      else
        let p := u.pad x.2.cluster
        u.setPad x.2.cluster { p with
          bytes := wrBlock p.bytes (recordAt r) (contextFront x.2.core (if x.2.stake.isSome then 2 else 1) (·.withdrawn)) }
    | _, _ => u) t

/-- End of a context stream (R46-R49). -/
def State.streamEnd (s : State) (id : Nat) (x : Context) : State :=
  match x.dest, x.record with
  | some d, none => ((s.vacated x.origin).land id x d).post 0 .admission
  | some d, some _ => ((s.givePlace x.cluster).land id x d).post 0 .admission
  | none, some r =>
    let s := (((s.vacated x.origin).givePlace x.cluster).writeRecord x r)
    let s : State := { s with contexts := mset s.contexts id { x with moving := false, stake := none } }
    match x.stake with
    | some q => s.stakeReady q x.origin true
    | none => s.post 0 .admission
  | none, none => s

/-- CONTEXT_STREAM_END (R46). -/
def execContextStreamEnd (s : State) : Out :=
  match s.event with
  | .contextStreamEnd id => .next (match mget s.contexts id with
    | some x => if x.moving then (s.streamEnd id x).post 0 (.programCompletion x.prog) else s
    | none => s)
  | _ => .next s

/-- RESTORE (R45, R48): a restore that finds no stream place waits for one. -/
def execRestore (s : State) : Out :=
  match s.event with
  | .restore c id => .next (match mget s.contexts id with
    | none => s
    | some x =>
      if x.moving || x.dest.isSome || !s.isFree c x.prog || (s.core c).table != x.core.table then s
      else if 4 ≤ s.streams x.cluster then s.post (cyc 64) s.event
      else (({ s.takePlace x.cluster with contexts := mset s.contexts id { x with moving := true, dest := some c } } : State)).post
        (cyc 1196) (.contextStreamEnd id))
  | _ => .next s

/-- The core that a Saved context may take now (R44, R45). A member of a paired gang stays Saved while its core is a standby core, where
R33 lets no paired gang be placed (DESIGN CHOICE, notes/assumptions/51.md). -/
def State.restoreTarget (s : State) (x : Context) : Option Nat :=
  let paired := (((s.prog? x.prog).bind (·.run)).map (·.paired)).getD false
  let l := if !x.gangMember then (List.range 16).map (coreId x.cluster)
    else if paired && s.front.standby.getLsbD (clusterOf x.origin) then [] else [x.origin]
  l.find? fun c => s.isFree c x.prog && (s.core c).table == x.core.table

/-- Saved contexts take Free cores, the one evicted first before the others (R45). -/
def State.tryRestores (s : State) : State :=
  s.contexts.foldl (fun s x =>
    if x.2.moving || x.2.dest.isSome || (s.agenda.any fun e => match e.2 with
        | .restore _ i => i == x.1
        | _ => false) then s
    else match s.restoreTarget x.2 with
      | some c => s.post 0 (.restore c x.1)
      | none => s) s

end Sys2Proof.Machine
end

