-- ==== Sys2Proof/Machine/Stake.lean ====
section
/-! DEFINITION. Staking (R48-R51, R315-R317) and the standby mask (R33, R392). -/

namespace Sys2Proof.Machine

/-! ### STAKE and UNSTAKE (R315, R317) -/

/-- The thread is a reflex thread whose entry carries stake permission (R315, R383). -/
def State.mayStake (s : State) : Bool :=
  match s.src.kind with
  | .reflex e _ => ((mget s.front.reflex e).map fun r => rfStake r.n).getD false
  | _ => false

/-- The lowest stake id that the thread does not hold; it holds an id from the issue of STAKE. -/
def Thread.freeStake (t : Thread) : Option Nat := (List.range 4).find? fun i => (mget t.stakes i).isNone

/-- STAKE (R315). -/
def execStake (d a b : BitVec 5) (s : State) : Out :=
  let n := (s.x a).toNat
  let m := s.x b
  finish s (
    if !s.mayStake then trapR privilege s.rawWord
    else if n = 0 ∨ 16 < n then trapR illegalOperand (s.x a)
    else if bits m.toNat 32 32 ≠ 0 then trapR illegalOperand m
    else match s.th.freeStake with
      | none => .ok (s.setX d (BitVec.ofInt 64 (-1)))
      | some k =>
        if !s.co.egressRoom s.now 1 then .wait s else
        let i := s.fresh
        let s : State := { i.2 with th := { i.2.th with stakes := mset i.2.th.stakes k [], staking := k :: i.2.th.staking } }
        let r : StakeReq := { id := i.1, core := s.cid, who := s.th.who, stake := k, count := n, mask := m.setWidth 32 }
        .ok ((s.sendReq i.1 (cyc 16) (.stakeRequest r) (requestHash 12 0 (toBytes 8 n ++ toBytes 8 m.toNat))).setX d (BitVec.ofNat 64 k)))

/-- The thread gives up stake `k`; one whose grant has not come yet has no core to return and stays held until it comes. -/
def Thread.dropStake (t : Thread) (k : Nat) : Thread :=
  if t.staking.contains k then t else { t with stakes := mdel t.stakes k }

/-- Return the cores of stake `k` of a thread; how many (R317). The partner of a pair forgets the stake too. -/
def State.unstake (s : State) (w : Who) (k : Nat) : Nat × State :=
  let l := (((s.thread? w).bind fun t => mget t.stakes k).getD []).filter fun c => (s.core c).staked == some w
  let s := s.modThread w fun t => t.dropStake k
  (l.length, l.foldl (fun s c => s.unstakeCore w.prog c) s)

/-- UNSTAKE (R317). -/
def execUnstake (d a : BitVec 5) (s : State) : Out :=
  let k := (s.x a).toNat
  finish s (s.release fun s =>
    if (s.pairOf s.cid s.th.kind).isSome then
      s.pairedOp 13 (.unstake d a) (s.x a) 0 [] fun w s => .ok ({ s with th := s.th.dropStake k }.setX d w)
    else
      let r := s.store.unstake s.th.who k
      .ok (r.2.reload.setX d (BitVec.ofNat 64 r.1)))

/-! ### The stake arbiter (R48, R49) -/

/-- Cores that a thread holds by its stakes. -/
def Thread.stakedCores (t : Thread) : List Nat := t.stakes.flatMap (·.2)

/-- A standby cluster that the request allows. -/
def State.stakeCluster (s : State) (r : StakeReq) (cl : Nat) : Bool :=
  cl < 32 && s.front.standby.getLsbD cl && (r.mask == 0 || r.mask.getLsbD cl)

/-- Compute cores of clusters 0-31, ascending. -/
def delibCores : List Nat := (List.range 32).flatMap fun cl => (List.range 16).map (coreId cl)

/-- The run of the program that holds a core. -/
def State.runOn (s : State) (c : Nat) : Option Run :=
  ((s.core c).banks.head?.bind fun b => s.prog? b.2.prog).bind (·.run)

/-- One claim of an eviction for a STAKE: never a cluster without a stream place or a record (R49). -/
def State.claimEviction (r : StakeReq) (n : Nat) (a : State × List Nat) (c : Nat) : State × List Nat :=
  let s := a.1
  let cl := clusterOf c
  if n ≤ a.2.length || !s.stakeCluster r cl || !s.mayVacate c || 4 ≤ s.streams cl then a
  else if (s.core c).table != (s.core r.core).table then a
  else match s.freeRecord cl with
    | none => a
    | some rec_ => ((s.takePlace cl).post (cyc 48) (.seize c (.stake rec_ r.id)), a.2 ++ [c])

/-- Cores that a thread holds by its stakes, those claimed for a grant that has not come yet among them (R315). -/
def State.stakeHeld (s : State) (w : Who) : Nat :=
  (((s.thread? w).map Thread.stakedCores).getD []).length +
    s.front.stakes.foldl (fun n e => if e.2.1.who = w then n + e.2.2.1.length + e.2.2.2.length else n) 0

/-- A Free core that a STAKE may be granted: with a free forwarding entry, in a cluster with a free eviction record (R49). -/
def State.stakeFree (s : State) (r : StakeReq) (c : Nat) : Bool :=
  s.stakeCluster r (clusterOf c) && s.isFree c 0 && (s.core c).table == (s.core r.core).table && s.canForward c &&
    (s.freeRecord (clusterOf c)).isSome

/-- The claims of a STAKE: Free cores first, then task-set cores, then cores of unpaired gangs (R49). The request is kept with the
number of cores that it may be granted, 0 when the thread holds 16 (R315). -/
def State.serveStake (s : State) (r : StakeReq) : State :=
  let n := min r.count (16 - s.stakeHeld r.who)
  let free := (delibCores.filter (s.stakeFree r)).take n
  let s := free.foldl (fun s c => s.modCore c fun k => { k with staked := some r.who }) s
  let kind (gang : Bool) (c : Nat) : Bool := match s.runOn c with
    | some q => q.gang == gang && !q.paired
    | none => false
  let order := delibCores.reverse.filter (kind false) ++ delibCores.reverse.filter (kind true)
  let e := order.foldl (State.claimEviction r (n - free.length)) (s, [])
  let s := e.1.modFront fun f => { f with stakes := mset f.stakes r.id ({ r with count := n }, e.2, free) }
  if e.2.isEmpty then s.post (cyc 64) (.stakeGrant ((s.originOf r.who).getD r.core) r.id) else s

/-- STAKE_REQUEST (R49). -/
def execStakeRequest (s : State) : Out :=
  match s.event with
  | .stakeRequest r => .next (s.serveStake r)
  | _ => .next s

/-- The kind-5 entry of R316. -/
def grantEntry (stake : Nat) (limit : Bool) (l : List Nat) : Payload :=
  let entry (c : Nat) : Nat := clusterOf c % 32 * 16 + coreNo c % 16
  let packed := (l.zipIdx.foldl (fun n e => n + entry e.1 * 2 ^ (9 * e.2)) 0)
  BitVec.ofNat 256 (5 + (if limit then 7 * 2 ^ 8 else 0) + stake * 2 ^ 16 + l.length * 2 ^ 32 + packed * 2 ^ 64)

/-- The reach and region maps of newly staked cores (R160). -/
def State.bindStaked (s : State) (p from_ : Nat) (l : List Nat) : State :=
  let k0 := s.core from_
  let mine := ((k0.reach.filter fun r => r.1 == p).map (·.2)) ++ l
  let s := l.foldl (fun s c => s.modCore c fun k => { k.addReach p mine [] with regions := k0.regions }) s
  l.foldl (fun s c => s.addReachOf p c) s

/-- Mailbox 0 of the core a thread is on takes a grant, or the grant register of its router, which holds 4, when that is full (R273,
R316). -/
def State.grantTo (s : State) (w : Who) (r : StakeReq) (l : List Nat) : State :=
  let s := s.modThread w fun t => { t with stakes := mset t.stakes r.stake l, staking := t.staking.filter (· != r.stake) }
  let body := grantEntry r.stake (r.count == 0) l
  match s.grantCore w with
  | none => s
  | some c => (s.putMail c 0 body).getD (s.modCore c fun k => { k with grants := k.grants ++ [(w, body)] })

/-- A grant for the thread would find neither room in mailbox 0 nor in the grant register, or the thread is in a migration message. -/
def State.grantBlocked (s : State) (w : Who) : Bool :=
  (s.thread? w).isSome && (match s.grantCore w with
    | none => true
    | some c => ((s.core c).putMail 0 0).isNone && 4 ≤ (s.core c).grants.length)

/-- STAKE_GRANT (R316); a thread that has ended meanwhile returns the cores. LIMIT says that the thread held 16 when the arbiter
served it (R315). A grant that finds no room, or its thread on the way, is sent again after 64 cycles. -/
def execStakeGrant (s : State) : Out :=
  match s.event with
  | .stakeGrant _ id => .next (match mget s.front.stakes id with
    | none => s
    | some (r, _, l) =>
      if (s.threadsOfOp id r.who).any s.grantBlocked then s.keep s.event
      else
        let s := s.modFront fun f => { f with stakes := mdel f.stakes id }
        match s.thread? r.who with
        | none => l.foldl (fun s c => s.unstakeCore r.who.prog c) s
        | some _ => (s.bindStaked r.who.prog ((s.originOf r.who).getD r.core) l).forTwins r.who id fun s w _ => s.grantTo w r l)
  | _ => .next s

/-! ### The standby mask (R33, R392) -/

/-- An armed entry carries stake permission. -/
def State.stakeArmed (s : State) : Bool := s.front.reflex.any fun r => r.2.armed && rfStake r.2.n

/-- A cluster may become a standby cluster (R392): 16 eviction records, no latency-class work that holds a core of it, and no paired-gang
work on its cores. The Saved contexts of a paired gang, whose cores have been vacated for the change (R44), do not count as on them
(DEDUCED, notes/assumptions/51.md). -/
def State.mayStandBy (s : State) (cl : Nat) : Bool :=
  let paired (t : Thread) : Bool := (((s.prog? t.prog).bind (·.run)).map (·.paired)).getD false
  s.records cl == 16 &&
  (s.front.progs.all fun g => match g.2.run with
    | some r => !(r.admitted && r.latency && r.cores.any fun c => clusterOf c == cl)
    | none => true) &&
  (List.range 16).all fun n => (s.core (coreId cl n)).staked.isSome || (s.core (coreId cl n)).banks.all fun b => !b.2.latency && !paired b.2

/-- Clusters of a mask. -/
def maskSize (m : BitVec 32) : Nat := ((List.range 32).filter m.getLsbD).length

/-- STANDBY_MASK_WRITE (R392): a mask of fewer than 4 clusters is refused while a stake is permitted (R33). A cluster that R392 does
not allow yet is taken up as soon as it does, and the rest of the mask at once (DESIGN CHOICE, notes/assumptions/50.md); the
front end does so between two claims (`State.settleStandby`). -/
def execStandbyMaskWrite (s : State) : Out :=
  match s.event with
  | .standbyMaskWrite m => .next (
    if s.stakeArmed && maskSize m < 4 then s else (s.modFront fun f => { f with standbyNext := m }).post 0 .admission)
  | _ => .next s

end Sys2Proof.Machine
end

