-- ==== Sys2Proof/Machine/Queues.lean ====
section
/-! DEFINITION. Architected queues (R319-R340, R431): the home controllers' queue tables, enqueue and dequeue with parking and
grants, queue control, shadows of queues on the other module, and the words that use them. -/

namespace Sys2Proof.Machine

/-! ### Memory as a home controller reads and writes it (R325) -/

/-- Tenant that a structure is known by: its space's, or 0 in the reflex store. -/
def State.keyTenant (s : State) (sp : Nat) : Nat := if sp = spaceOnChip then 0 else spaceTenant (s.spaceEntry sp)

/-- Offset in the reflex store of `n` bytes at `ea`. -/
def reflexOff (ea n : Nat) : Option Nat :=
  match window ea with
  | some (.rstore off) => if off + n ≤ 0x2000000 then some off else none
  | _ => none

/-- Read `n` bytes of a space for `tenant`; nothing where the translation fails. -/
def State.rdStore (s : State) (sp tenant ea n : Nat) : Option (List Byte × State) :=
  if sp = spaceOnChip then (reflexOff ea n).map fun off => ((s.rdReflex off n).1, s)
  else if !isLocal sp || onChip ea || !s.spaceOk sp tenant then none
  else match s.rdVirtual sp ea (sectorFuel n) n with
    | .ok (l, _, s) => some (l, s)
    | .error _ => none

/-- Write bytes of a space for `tenant`. -/
def State.wrStore (s : State) (sp tenant ea : Nat) (l : List Byte) : Option State :=
  if sp = spaceOnChip then (reflexOff ea l.length).map fun off => s.wrReflex off l []
  else if !isLocal sp || onChip ea || !s.spaceOk sp tenant then none
  else match s.wrVirtual sp ea (sectorFuel l.length) l with
    | .ok s => some s
    | .error _ => none

/-- Every page of the range is valid, writable and pinned (R325, R333, R343). -/
def State.pinnedRange (s : State) (sp tenant ea n : Nat) : Bool :=
  if sp = spaceOnChip then (reflexOff ea n).isSome
  else isLocal sp && !onChip ea && s.spaceOk sp tenant &&
    (List.range ((ea + n + 0xFFFF) / 0x10000 - ea / 0x10000)).all fun i => match s.leafOf sp ((ea / 0x10000 + i) * 0x10000) with
      | some t => t.wr && t.pinned
      | none => false

/-- A home controller's line of memory: written without touching an active image of it. -/
def State.pokeLine (s : State) (sp tenant ea : Nat) (l : List Byte) : State := (s.wrStore sp tenant ea l).getD s

/-! ### The checks of R323 -/

/-- Limits of a QCB's fields that no operation changes. -/
def Queue.staticOk (q : Queue) : Bool :=
  let fl := q.flags.toNat
  2 ≤ q.capacity && q.capacity ≤ 2 ^ 24 && q.elem % 8 == 0 && 8 ≤ q.elem && q.elem ≤ 256 &&
  bits fl 0 3 ≤ 4 && (!q.multi || bits fl 0 3 == 4) && bits fl 8 8 == 0 &&
  q.base % 8 == 0 && q.base + q.capacity * q.elem ≤ 2 ^ 64 &&
  (if q.space = spaceOnChip then (reflexOff q.base (q.capacity * q.elem)).isSome
   else !onChip q.base && !onChip (q.base + q.capacity * q.elem - 1))

/-- Head, tail, free and credits fit together. -/
def Queue.countsOk (q : Queue) : Bool :=
  q.head < q.capacity && q.tail < q.capacity && q.free + q.credits ≤ q.capacity && q.tail == (q.head + q.occupied) % q.capacity

/-- What else holds of a QCB read from memory. -/
def imageOk (q : Queue) (l : List Byte) : Bool :=
  let n := ofBytes l
  (crc32c (l.take 60)).toNat == bits n 480 32 && bits n 176 16 == 0 && bits n 352 128 == 0 && bits n 256 64 == 0 && (q.credits == 0 || q.multi)

/-- Why an operation on a queue does not perform. -/
inductive QStop where
  | poisoned (s : State) | corrupt (s : State) | table

/-! ### Queue tables (R320) -/

/-- The entry of a queue. -/
def Home.queue? (x : Home) (qcb sp tenant : Nat) : Option Queue :=
  x.queues.find? fun q => q.qcb == qcb && q.space == sp && q.tenant == tenant

def Home.without (x : Home) (q : Queue) : Home :=
  { x with queues := x.queues.filter fun o => !(o.qcb == q.qcb && o.space == q.space && o.tenant == q.tenant) }

/-- Write an entry of the table, most recently used. -/
def State.setQueue (s : State) (h : Nat) (q : Queue) : State :=
  let i := s.fresh
  i.2.modHome h fun x => { x.without q with queues := { q with used := i.1 } :: (x.without q).queues }

/-- Deactivate: the structure goes back to memory with its check recomputed (R320). -/
def State.retire (s : State) (h : Nat) (q : Queue) : State :=
  let s := s.modHome h fun x => x.without q
  if q.shadow then s else s.pokeLine q.space q.tenant q.qcb q.written

/-- The entry stays in its table: a waiter is parked, credits are lent, or for a shadow held, or an enqueue has crossed (R320, R339). -/
def Queue.held (q : Queue) : Bool :=
  !q.producers.isEmpty || !q.consumers.isEmpty || q.credits != 0 || (q.shadow && (q.free != 0 || !q.crossing.isEmpty))

/-- Make room for one more entry: the least recently used that is not held goes; nothing when all are held. -/
def State.roomQueue (s : State) (h : Nat) : Option State :=
  let l := (s.home h).queues
  if l.length < 64 then some s
  else match (l.filter fun q => !q.held).reverse with
    | q :: _ => some (s.retire h q)
    | [] => none

/-- Activation invalidates the L0 copies of the line (R320). -/
def State.insertQueue (s : State) (h : Nat) (q : Queue) : State := (s.dropL0 q.space (q.qcb / 64) fun _ => true).setQueue h q

def Queue.poison (q : Queue) : Queue := { q with flags := q.flags ||| 0x10#16 }

/-- The queue as it is activated from a line `l` that fails R323: POISONED, and its image the line's with a valid check (R324). -/
def Queue.spoiled (q : Queue) (l : List Byte) : Queue :=
  let l := (l.take 18) ++ toBytes 2 q.poison.flags.toNat ++ (l.take 60).drop 20
  { q.poison with stored := some (l ++ toBytes 4 (crc32c l).toNat) }

/-- Space of a queue's storage: a structure in the reflex store keeps it there (R325). -/
def Queue.storeSpace (q : Queue) : Nat := if q.space = spaceOnChip then spaceOnChip else q.baseSpace

/-- A MULTI queue's QCB and storage go to the spare whole: when it is activated or initialised, and when this module becomes the
active one (R405, R409). -/
def State.mirrorWhole (s : State) (h : Nat) (q : Queue) : State :=
  if !q.multi || q.shadow || !s.front.mirroring || !s.front.active then s
  else match s.rdStore q.storeSpace q.tenant q.base (q.capacity * q.elem) with
    | some (l, s) => s.mirrorOut (.queue h q.qcb q.space q.tenant q.written l)
    | none => s

/-- Slots that the home now lends to the other module (R339). -/
def Queue.lending (q : Queue) : Nat :=
  if q.multi && !q.shadow && q.credits * 4 < q.capacity then min q.free (q.capacity / 2 - q.credits) else 0

/-- Lend the credits that are due, while the link is up: the queue then, and the credit message. -/
def State.lendDue (s : State) (q : Queue) : Queue × State :=
  let n := if s.front.linkUp then q.lending else 0
  if n = 0 then (q, s) else ({ q with free := q.free - n, credits := q.credits + n }, s.sayPeer (.credits q.qcb q.space n))

/-- The active queue that an operation names, after the checks of R323; every use counts for the choice of R320. A MULTI queue that
becomes active lends the credits that are due (R339). -/
def State.activate (s : State) (h qcb sp : Nat) : Except QStop (Queue × State) :=
  let ten := s.keyTenant sp
  match (s.home h).queue? qcb sp ten with
  | some q =>
    if q.poisoned then .error (.poisoned (s.setQueue h q))
    else if q.staticOk && q.countsOk then .ok (q, s.setQueue h q)
    else .error (.corrupt (s.setQueue h q.poison))
  | none => match s.rdStore sp ten qcb 64 with
    | none => .error (.corrupt s)
    | some (l, s) =>
      let q := queueOf qcb sp ten l
      if q.poisoned then .error (.poisoned s)
      else
        let good := imageOk q l && q.staticOk && q.countsOk
        match s.roomQueue h with
        | none => .error .table
        | some s =>
          if good then
            let r := s.lendDue q
            .ok (r.1, (r.2.insertQueue h r.1).mirrorWhole h r.1)
          else
            let bad := (l.take 18) ++ toBytes 2 q.poison.flags.toNat ++ l.drop 20
            .error (.corrupt ((s.pokeLine sp ten qcb bad).insertQueue h (q.spoiled l)))

/-! ### Replies and grants (R330, R405) -/

/-- A reply or grant leaves the home; on a mirrored queue it waits for the spare's acknowledgement (R405). -/
def State.leave (s : State) (mirrored : Bool) (delay : Nat) (e : Event) : State :=
  if mirrored && s.front.mirroring && s.front.active then
    s.modFront fun f => { f with mirrorWait := f.mirrorWait ++ [(f.mirrorSeq, e)] }
  else s.post delay e

/-- Fabric cycles from a home to a core. -/
def homeLeg (h c : Nat) : Nat := cyc (6 + 2 * hopsHome (clusterOf c) h)

/-- The reply to operation `id`. -/
def State.replyOp (s : State) (id : Nat) (mirrored : Bool) (r : Reply) : State :=
  match mget s.qops id with
  | some o => ({ s with qops := mset s.qops id { o with reply := some r } } : State).leave mirrored (homeLeg o.home o.core) (.homeControllerReply id none)
  | none => s

/-- Records of the home and of its service core (R330). -/
def Home.waiters (x : Home) : Nat := x.queues.foldl (fun n q => n + q.producers.length + q.consumers.length) 0

/-- First byte of the table of further waiter records: in pinned DRAM pages at the end of DRAM that firmware sets aside for the
cluster (DESIGN CHOICE of the pages, notes/assumptions/52.md), or in reflex-store regions 478-495 (R330). -/
def waiterTable (h : Nat) : Nat := if h = 32 then 478 * 0x10000 else 2 ^ 37 - (32 - h) * 0x120000

/-- The 288-byte record of R330: ticket, core, bank and payload descriptor in 32 bytes, and the payload in 256. -/
def Waiter.record (w : Waiter) : List Byte :=
  toBytes 4 w.ticket ++ toBytes 2 w.core ++ toBytes 2 w.bank ++ toBytes 8 w.desc.toNat ++ toBytes 16 0 ++
  w.data ++ toBytes (256 - w.data.length) 0

/-- The service core writes a further waiter record at place `n` of its table (R330). -/
def State.writeWaiter (s : State) (h n : Nat) (w : Waiter) : State :=
  let a := waiterTable h + 288 * n
  if h = 32 then { s with reflexStore := s.reflexStore.write a w.record [] }
  else (List.range 9).foldl (fun s i => s.pokeDram (a + 32 * i) 0 ((w.record.drop (32 * i)).take 32) []) s

/-- A waiter record is given up: the oldest of the service core's returns. -/
def State.freeRecordOf (s : State) (h ticket : Nat) : State :=
  let s := s.modHome h fun x => { x with spilled := mdel x.spilled ticket }
  if (s.home h).spilled.isEmpty then s else s.post (cyc 8) (.waiterRecordReturn h)

/-- Wake a waiter. -/
def State.grantTo1 (s : State) (h : Nat) (q : Queue) (w : Waiter) (consumer : Bool) (status : Nat) (data : List Byte) : State :=
  (s.freeRecordOf h w.ticket).leave q.multi (homeLeg h w.core)
    (.queueGrant { who := w.who, core := w.core, ticket := w.ticket, consumer := consumer, status := status, desc := w.desc, data := data })

/-- Wake every waiter of a queue, producers before consumers (R335, R336). -/
def State.wakeAll (s : State) (h : Nat) (q : Queue) (status : Nat) : State :=
  let s := q.producers.foldl (fun s w => s.grantTo1 h q w false status []) s
  q.consumers.foldl (fun s w => s.grantTo1 h q w true status []) s

/-- Park operation `id` (R330), if a record is free; the thread is Blocked, and one whose core has been vacated withdraws (R337). -/
def State.park (s : State) (h id : Nat) (o : QOp) (q : Queue) (producer : Bool) : Option State :=
  let x := s.home h
  let here := x.waiters - x.spilled.length < 256
  if !here && 4096 ≤ x.spilled.length then none
  else
    let t := if (x.ticket + 1) % 2 ^ 32 = 0 then 1 else (x.ticket + 1) % 2 ^ 32
    let w : Waiter :=
      { ticket := t, who := o.who, core := o.core, bank := s.bankNo o.who, desc := o.b, data := if producer then o.data else [] }
    let q : Queue := if producer then { q with producers := q.producers ++ [w] } else { q with consumers := q.consumers ++ [w] }
    let s := (s.modHome h fun x => { x with ticket := t }).setQueue h q
    let s := if here then s
      else match (List.range 4096).find? fun n => x.spilled.all fun e => e.2 != n with
        | some n => (s.modHome h fun x => { x with spilled := x.spilled ++ [(t, n)] }).writeWaiter h n w
        | none => s
    let s := (s.threadsOfOp id o.who).foldl (fun s w => s.modThread w fun t =>
      { t with st := .blocked (if producer then .enq else .deq), since := s.now }) { s with qops := mdel s.qops id }
    some (match s.locate o.who with
      | some (.saved _ _) => (s.modThread o.who fun u => { u with withdrawn := t }).post (cyc 8) (.waiterWithdrawal h t o.who)
      | _ => s)

/-! ### Elements (R328, R329, R339) -/

/-- Store a changed MULTI queue and lend the credits that are due. -/
def State.putQueue (s : State) (h : Nat) (q : Queue) : State :=
  let r := s.lendDue q
  r.2.setQueue h r.1

/-- A mirror message about a MULTI queue (R405). -/
def State.mirrorQueue (s : State) (q : Queue) (m : Mirror) : State := if q.multi then s.mirrorOut m else s

/-- Write an element at the tail. -/
def State.appendElem (s : State) (h : Nat) (q : Queue) (pay : List Byte) (lent : Bool) : Option State :=
  (s.wrStore q.storeSpace q.tenant (q.base + q.tail * q.elem) pay).map fun s =>
    let q : Queue := { q with tail := (q.tail + 1) % q.capacity }
    (s.mirrorQueue q (.enqueue h q.qcb q.space q.tenant pay)).putQueue h
      (if lent then { q with credits := q.credits - 1 } else { q with free := q.free - 1 })

/-- ENQ's effect at the home: a handover, or the storage; no answer when the queue is full (R328, R339). -/
def State.putElem (s : State) (h : Nat) (q : Queue) (pay : List Byte) (lent : Bool) : Except QStop (Option State) :=
  match q.consumers with
  | w :: l =>
    let q : Queue := { q with consumers := l, credits := if lent then q.credits - 1 else q.credits, free := if lent then q.free + 1 else q.free }
    let s := (s.mirrorQueue q (.handover h q.qcb q.space q.tenant)).putQueue h q
    .ok (some (s.grantTo1 h q w true 0 pay))
  | [] =>
    if lent || 0 < q.free then match s.appendElem h q pay lent with
      | some s => .ok (some s)
      | none => .error (.corrupt (s.setQueue h q.poison))
    else .ok none

/-- DEQ's effect at the home: the element; the oldest producer's payload takes a slot (R329). -/
def State.takeElem (s : State) (h : Nat) (q : Queue) : Except QStop (Option (List Byte × State)) :=
  if q.occupied = 0 then .ok none
  else
    let bad : Except QStop (Option (List Byte × State)) := .error (.corrupt (s.setQueue h q.poison))
    match s.rdStore q.storeSpace q.tenant (q.base + q.head * q.elem) q.elem with
    | none => bad
    | some (pay, s) =>
      let q : Queue := { q with head := (q.head + 1) % q.capacity, free := q.free + 1 }
      let s := s.mirrorQueue q (.dequeue h q.qcb q.space q.tenant)
      match q.producers with
      | [] => .ok (some (pay, s.putQueue h q))
      | w :: l =>
        let q : Queue := { q with producers := l }
        match s.appendElem h q w.data false with
        | some s => .ok (some (pay, s.grantTo1 h q w false 0 []))
        | none => bad

/-! ### Operations at the home -/

/-- The answer of a queue that stops an operation. -/
def State.stopOp (s : State) (id : Nat) (o : QOp) : QStop → State
  | .poisoned t => t.replyOp id false (.trap queuePoisoned o.a)
  | .corrupt t => t.replyOp id false (.trap qcbCorrupt o.a)
  | .table => s.replyOp id false (.result 4 false [])

/-- An operation that cannot be performed now: it answers, or it parks (R328, R329). -/
def State.blockOp (s : State) (h id : Nat) (o : QOp) (q : Queue) (producer try_ : Bool) : State :=
  let policy := q.flags.getLsbD (if producer then 5 else 6)
  if try_ || policy then s.replyOp id q.multi (.result (if producer then 1 else 2) false [])
  else if q.closed then s.replyOp id q.multi (.result 3 false [])
  else (s.park h id o q producer).getD (s.replyOp id q.multi (.result 4 false []))

/-- ENQ and ENQT at the home. -/
def State.enqOp (s : State) (h id : Nat) (o : QOp) (try_ : Bool) : State :=
  match s.activate h o.a.toNat o.space with
  | .error e => s.stopOp id o e
  | .ok (q, s) =>
    if o.data.length ≠ q.elem then s.replyOp id false (.trap illegalOperand o.b)
    else match s.putElem h q o.data false with
      | .error e => s.stopOp id o e
      | .ok (some s) => s.replyOp id q.multi (.result 0 true [])
      | .ok none => s.blockOp h id o q true try_

/-- Length of a payload descriptor (R328). -/
def payLen (b : Word) : Nat := bits b.toNat 16 9

/-- DEQ and DEQT at the home. -/
def State.deqOp (s : State) (h id : Nat) (o : QOp) (try_ : Bool) : State :=
  match s.activate h o.a.toNat o.space with
  | .error e => s.stopOp id o e
  | .ok (q, s) =>
    if payLen o.b ≠ q.elem then s.replyOp id false (.trap illegalOperand o.b)
    else match s.takeElem h q with
      | .error e => s.stopOp id o e
      | .ok (some (pay, s)) => s.replyOp id q.multi (.result 0 true pay)
      | .ok none => s.blockOp h id o q false try_

/-- The queue that an init descriptor asks for (R333). -/
def queueInit (qcb sp tenant : Nat) (l : List Byte) : Queue :=
  let n := ofBytes l
  { qcb := qcb, space := sp, tenant := tenant, capacity := bits n 64 32, free := bits n 64 32, elem := bits n 96 16
    flags := BitVec.ofNat 16 (bits n 112 16), baseSpace := bits n 128 16, base := bits n 0 64 }

/-- The init descriptor breaks no invariant (R333). -/
def queueInitOk (q : Queue) (l : List Byte) : Bool := q.staticOk && !q.poisoned && !q.closed && bits (ofBytes l) 144 112 == 0

/-- QINIT at the home (R333). -/
def State.qinitOp (s : State) (h id : Nat) (o : QOp) : State :=
  let ten := s.keyTenant o.space
  let q := queueInit o.a.toNat o.space ten o.data
  let old := (s.home h).queue? q.qcb q.space ten
  if (old.map fun o => !o.poisoned) == some true then s.replyOp id false (.result 7 false [])
  else if !s.pinnedRange q.storeSpace o.tenant q.base (q.capacity * q.elem) then
    s.replyOp id false (.result 6 false [])
  else
    let s := match old with
      | some p => (s.wakeAll h p 3).modHome h fun x => x.without p
      | none => s
    match s.roomQueue h with
    | none => s.replyOp id false (.result 4 false [])
    | some s =>
      let s := (s.pokeLine q.space ten q.qcb q.written).insertQueue h q
      ((s.putQueue h q).mirrorWhole h q).replyOp id false (.result 0 true [])

/-- QSTAT's counts (R334). -/
def Queue.counts (q : Queue) : Word :=
  BitVec.ofNat 64 (min q.occupied 0xFFFFFFFF + min q.producers.length 0xFFFF * 2 ^ 32 + min q.consumers.length 0xFFFF * 2 ^ 48)

/-- QSTAT at the home (R334). -/
def State.qstatOp (s : State) (h id : Nat) (o : QOp) : State :=
  let ten := s.keyTenant o.space
  match (s.home h).queue? o.a.toNat o.space ten with
  | some q => (s.setQueue h q).replyOp id false (.result (if q.shadow then BitVec.ofNat 64 q.free else q.counts) true q.image)
  | none =>
    if isPeer o.space then
      let f := s.foreign Config.peerByte 64
      f.2.replyOp id false (.result 0 true f.1)
    else match s.rdStore o.space ten o.a.toNat 64 with
      | none => s.replyOp id false (.result (BitVec.ofInt 64 (-1)) true (toBytes 64 0))
      | some (l, s) =>
        let q := queueOf o.a.toNat o.space ten l
        let good := imageOk q l && q.staticOk && q.countsOk
        s.replyOp id false (.result (if good then q.counts else BitVec.ofInt 64 (-1)) true l)

/-- QDRAIN at the home (R335). -/
def State.qdrainOp (s : State) (h id : Nat) (o : QOp) : State :=
  match s.activate h o.a.toNat o.space with
  | .error e => s.stopOp id o e
  | .ok (q, s) =>
    let n := q.producers.length + q.consumers.length
    ((s.setQueue h { q with flags := q.flags ||| 0x80#16, producers := [], consumers := [] }).wakeAll h q 3).replyOp id q.multi
      (.result (BitVec.ofNat 64 n) true [])

/-- A queue as QRESET leaves it (R336), its zero fields zero. -/
def Queue.resetTo (q : Queue) : Queue :=
  { q with
    head := 0, tail := 0, free := q.capacity, credits := 0, flags := q.flags &&& 0xFF6F#16, producers := [], consumers := [], stored := none }

/-- QRESET at the home (R336). -/
def State.qresetOp (s : State) (h id : Nat) (o : QOp) : State :=
  let ten := s.keyTenant o.space
  let go (s : State) (q : Queue) : State :=
    if !({ q with flags := q.flags &&& 0xFF6F#16 } : Queue).staticOk then s.replyOp id false (.trap qcbCorrupt o.a)
    else
      let n := q.producers.length + q.consumers.length
      let s := (s.wakeAll h q 3).retire h q.resetTo
      let s := if q.multi && 0 < q.credits then s.sayPeer (.credits q.qcb q.space 0) else s
      s.replyOp id false (.result (BitVec.ofNat 64 n) true [])
  match (s.home h).queue? o.a.toNat o.space ten with
  | some q => go s q
  | none => match s.rdStore o.space ten o.a.toNat 64 with
    | none => s.replyOp id false (.trap qcbCorrupt o.a)
    | some (l, s) => go s (queueOf o.a.toNat o.space ten l)

/-! ### Shadows (R339, R340) -/

/-- The shadow of a queue of the other module; its element size is what the other module's memory holds, a free value. -/
def State.shadow (s : State) (h qcb sp ten : Nat) : Option (Queue × State) :=
  match (s.home h).queue? qcb sp ten with
  | some q => some (q, s.setQueue h q)
  | none =>
    let f := s.foreign Config.peerByte 64
    (f.2.roomQueue h).map fun s =>
      let q := queueOf qcb sp ten f.1
      let q : Queue := { q with free := 0, credits := 0, shadow := true }
      (q, s.setQueue h q)

/-- The payload of operation `id` crosses the peer port, for one credit; the reply comes with the home's acknowledgement (R339). -/
def State.sendPeer (s : State) (h id : Nat) (q : Queue) (data : List Byte) : State :=
  (s.setQueue h { q with free := q.free - 1, crossing := q.crossing ++ [id] }).sayPeer (.enqueue q.qcb q.space data)

/-- ENQ and ENQT at a shadow (R339). -/
def State.shadowOp (s : State) (h id : Nat) (o : QOp) (try_ : Bool) : State :=
  if !s.front.linkUp then s.replyOp id false (.result 5 false [])
  else match s.shadow h o.a.toNat o.space (s.keyTenant o.space) with
    | none => s.replyOp id false (.result 4 false [])
    | some (q, s) =>
      if o.data.length ≠ q.elem then s.replyOp id false (.trap illegalOperand o.b)
      else if 0 < q.free then s.sendPeer h id q o.data
      else if try_ then s.replyOp id false (.result 1 false [])
      else (s.park h id o q true).getD (s.replyOp id false (.result 4 false []))

/-- Number of the request that a Blocked thread waits for. -/
def Thread.waitsFor (t : Thread) : Option Nat := (t.pend.find? fun p => p.reply.isNone).map (·.id)

/-- Parked producers of a shadow take the credits that have come, in ticket order. -/
def State.serveShadow (s : State) (h : Nat) (q : Queue) : Nat → State
  | 0 => s.setQueue h q
  | n + 1 => match q.producers with
    | [] => s.setQueue h q
    | w :: l =>
      if q.free = 0 then s.setQueue h q
      else
        let q : Queue := { q with producers := l }
        match (s.thread? w.who).bind Thread.waitsFor with
        | some id =>
          let o : QOp := { home := h, core := w.core, who := w.who, word := 0, tenant := q.tenant, space := q.space, op := .enq 0 0 0
                           a := BitVec.ofNat 64 q.qcb, b := w.desc }
          let s := (({ s with qops := mset s.qops id o } : State).freeRecordOf h w.ticket).sendPeer h id q w.data
          s.serveShadow h { q with free := q.free - 1, crossing := q.crossing ++ [id] } n
        | none => (s.freeRecordOf h w.ticket).serveShadow h q n

/-- CREDIT_MESSAGE (R339): credits for a shadow that is not held yet make its entry, and wait while the table has no room; a message
of 0 recalls every credit (R336). -/
def execCreditMessage (s : State) : Out := s.orWait <|
  match s.event with
  | .creditMessage h qcb sp ten n => .next (
    if n = 0 then s.modHome h fun x => { x with queues := x.queues.map fun q =>
      if q.qcb == qcb && q.space == sp && q.tenant == ten && q.shadow then { q with free := 0 } else q }
    else if !isPeer sp then s
    else match s.shadow h qcb sp ten with
      | some (q, s) => s.serveShadow h { q with free := q.free + n } (q.producers.length + 1)
      | none => s.keep s.event)
  | _ => .next s

/-- The other module's enqueue of a MULTI queue homed here (R339); the acknowledgement carries its status, or 256 and the cause of a
trap (R323). -/
def State.peerEnqueue (s : State) (e : PeerEnq) : State :=
  let ack (s : State) (st : Nat) : State := s.sayPeer (.enqueueAck e.qcb e.space st)
  let stop : QStop → State
    | .poisoned t => ack t (256 + queuePoisoned)
    | .corrupt t => ack t (256 + qcbCorrupt)
    | .table => ack s 4
  match s.activate e.home e.qcb e.space with
  | .error x => stop x
  | .ok (q, s) =>
    if e.data.length ≠ q.elem then ack s (256 + illegalOperand)
    else if !q.multi || q.credits = 0 then ack s 1
    else match s.putElem e.home q e.data true with
      | .ok (some s) => ack s 0
      | .ok none => ack s 1
      | .error x => stop x

/-- The acknowledgement of an enqueue that has crossed gives its reply (R339). -/
def State.crossed (s : State) (id : Nat) (o : QOp) (st : Nat) : State :=
  let s := s.modHome o.home fun x => { x with queues := x.queues.map fun q => { q with crossing := q.crossing.filter (· != id) } }
  let r : Reply := if st < 256 then .result (BitVec.ofNat 64 st) (st == 0) [] else .trap (st - 256) (if st = 256 + illegalOperand then o.b else o.a)
  if o.reply.isSome then s else { s with qops := mset s.qops id { o with reply := some r } }

/-- A home when the other module has become unreachable: shadows wake their producers with LINK, lent credits come back. -/
def State.cutHome (s : State) (h : Nat) : State :=
  (s.home h).queues.foldl (fun s q =>
    if q.shadow then (s.wakeAll h q 5).setQueue h { q with producers := [], free := 0, crossing := [] }
    else if q.multi then s.setQueue h { q with free := q.free + q.credits, credits := 0 }
    else s) s

/-- PEER_UNREACHABLE (R340): an enqueue that has crossed receives OK or LINK; what has not crossed yet finds the link down. -/
def execPeerUnreachable (s : State) : Out :=
  match s.event with
  | .peerUnreachable =>
    let crossing := s.homes.flatMap fun h => h.2.queues.flatMap fun q => q.crossing
    let s := s.modFront fun f => { f with linkUp := false }
    let s := (List.range 33).foldl State.cutHome s
    .next (crossing.foldl (fun s id =>
      let d := s.drawn
      d.2.replyOp id false (if Config.pick d.1 then .result 0 true [] else .result 5 false [])) s)
  | _ => .next s

/-- The link has come up: every MULTI home lends what is due (R339). -/
def State.lendAll (s : State) : State :=
  s.homes.foldl (fun s h => h.2.queues.foldl (fun s q => if q.multi && !q.shadow then s.putQueue h.1 q else s) s) s

/-! ### Grants, withdrawals, records (R330, R337) -/

/-- Bytes for the own TCM of a thread at a descriptor (R329, R431). -/
def State.putPayload (s : State) (place : Nat) (desc : Word) (data : List Byte) : State :=
  if data.isEmpty then s else s.wrTcmAt place (bits desc.toNat 0 16) data []

/-- A result for a waiting word: the bytes go to the thread's TCM, its x[d] and pc follow when it goes on. -/
def State.resultTo (s : State) (w : Who) (id : Nat) (desc xd : Word) (ok : Bool) (data : List Byte) : State :=
  match s.placeOfThread w with
  | some (p, _) => (s.putPayload p desc data).answer1 w id (.result xd ok [])
  | none => s.answer1 w id (.result xd ok [])

/-- A grant reaches the thread (R330). That of a Saved thread is appended to its record: its element goes into the saved TCM image, and
the word completes at the restore (R233). -/
def State.applyGrant (s : State) (g : Grant) (w : Who) (id : Nat) : State :=
  let r : Reply := .result (BitVec.ofNat 64 g.status) (g.status == 0) []
  match s.locate w with
  | some (.saved i _) =>
    ((s.putPayload (ctxPlace i) g.desc g.data).modThread w fun t => { t with
      pend := t.pend.map fun (p : Pend) => if p.id = id then { p with reply := some r } else p }).append i 3 0
        (BitVec.ofNat 256 (g.status + g.ticket * 2 ^ 32))
  | _ => s.resultTo w id g.desc (BitVec.ofNat 64 g.status) (g.status == 0) g.data

/-- QUEUE_GRANT (R330): refused with RETRY while the context streams or its record is full (R233). -/
def execQueueGrant (s : State) : Out :=
  match s.event with
  | .queueGrant g => .next (match s.placeOfThread g.who, (s.thread? g.who).bind Thread.waitsFor with
    | some (p, _), some id =>
      if s.streaming p || (match ctxOf? p with
          | some i => s.arrivalsFull i
          | none => false) then s.keep s.event
      else s.forTwins g.who id fun s w id => s.applyGrant g w id
    | _, _ => s)
  | _ => .next s

/-- Without the waiter of a ticket. -/
def Queue.dropTicket (q : Queue) (t : Nat) : Queue :=
  { q with producers := q.producers.filter fun w => w.ticket != t, consumers := q.consumers.filter fun w => w.ticket != t }

/-- A thread that is live again when its record has been removed executes its ENQ or DEQ again (R337). -/
def State.rejoin (s : State) (w : Who) : State :=
  match s.locate w with
  | some (.live _ _) => s.modThread w fun t => if t.st == .blocked .enq || t.st == .blocked .deq then t.retry else t
  | _ => s

/-- WAITER_WITHDRAWAL (R337). -/
def execWaiterWithdrawal (s : State) : Out :=
  match s.event with
  | .waiterWithdrawal h t w => .next (
    let mine := (s.home h).queues.any fun q => (q.producers ++ q.consumers).any fun x => x.ticket == t && x.who == w
    if mine then ((s.modHome h fun x => { x with queues := x.queues.map fun q => q.dropTicket t }).freeRecordOf h t).rejoin w else s)
  | _ => .next s

/-- WAITER_RECORD_RETURN (R330): the service core gives the oldest record back. -/
def execWaiterRecordReturn (s : State) : Out :=
  match s.event with
  | .waiterRecordReturn h => .next (
    let x := s.home h
    if x.waiters - x.spilled.length < 256 then s.modHome h fun x => { x with spilled := x.spilled.drop 1 } else s)
  | _ => .next s

/-- Parked waiters of a program that has ended are dropped and counted (R338). -/
def State.dropWaiters (s : State) (p : Nat) : State :=
  s.homes.foldl (fun s h =>
    let l := h.2.queues.flatMap fun q => (q.producers ++ q.consumers).filter fun w => w.who.prog == p
    l.foldl (fun s w => ((s.modHome h.1 fun x => { x with queues := x.queues.map fun q => q.dropTicket w.ticket }).freeRecordOf
      h.1 w.ticket).count (unitHome h.1) ctrWaiterDrop) s) s

/-! ### Words (R319, R326-R336, R431) -/

/-- The checks of R319 on x[a]: home and space. `peer` is whether the operation is accepted under a peer-window space. -/
def State.queueRoute (s : State) (x : Word) (al : Nat) (peer : Bool) : Except (Nat × Word) (Nat × Nat) :=
  let ea := x.toNat
  let sp := s.src.space.toNat
  if ea % al ≠ 0 then .error (dataMisaligned, x)
  else match s.routeTo sp ea false with
    | .error e => .error e
    | .ok (.far (.rstore _)) => .ok (32, spaceOnChip)
    | .ok .virt => if isHost sp || (isPeer sp && !peer) then .error (illegalOperand, x) else .ok (s.homeOf sp ea, sp)
    | .ok _ => .error (illegalOperand, x)

/-- The checks of R328 on a payload descriptor. -/
def payloadOk (b : Word) : Bool :=
  let n := b.toNat
  bits n 25 39 == 0 && bits n 0 16 % 8 == 0 && payLen b % 8 == 0 && 8 ≤ payLen b && payLen b ≤ 256 && bits n 0 16 + payLen b ≤ 0xC000

/-- Whether the pair compares an operation (R395): all but QSTAT, PSTAT, BTGET and the reads of CPYG and CPYS. -/
def comparedOp : Instr → Bool
  | .qstat _ _ _ => false
  | .pstat _ _ _ => false
  | .btget _ _ _ => false
  | .cpyg _ _ _ => false
  | .cpys _ _ _ => false
  | _ => true

/-- Send an operation to its home, and wait for the result. -/
def State.homeOp (s : State) (op : Instr) (r : Nat × Nat) (a b : Word) (data : List Byte) (k : Word → Bool → List Byte → State → Res) : Res :=
  if s.pending.isNone && s.holdsBack then .wait s
  else ask s (fun id s =>
    let o : QOp := { home := r.1, core := s.cid, who := s.th.who, word := s.widx, tenant := s.src.tenant, space := r.2, op := op
                     a := a, b := b, data := data }
    let d := cyc (6 + hopsHome (clusterOf s.cid) r.1)
    let s : State := { s with qops := mset s.qops id o }
    if comparedOp op then s.sendReq id d (.homeControllerOperation id none)
        (requestHash 15 r.2 (toBytes 8 a.toNat ++ toBytes 8 b.toNat ++ data ++ toBytes 4 op.code.toNat))
    else s.emitOwn 1 d (.homeControllerOperation id none)) fun r s => match r with
      | .result xd ok data => k xd ok data s
      | _ => k 0 false [] s

/-- A check of x[b] has failed: it is reported once the translation of x[a] is confirmed (R319, R431). -/
def State.afterConfirm (s : State) (r : Nat × Nat) (x : Word) (k : State → Res) : Res :=
  if r.1 = 32 then k s else s.request r.2 .confirm 64 [x.toNat] .virt fun _ s => k s

/-- ENQ and ENQT: a release (R328). -/
def enqWord (op : Instr) (d a b : BitVec 5) (p : Option Nat) (s : State) : Out :=
  let x := s.x a
  let y := s.x b
  finish s (match s.queueRoute x 64 true with
    | .error e => trapR e.1 e.2
    | .ok r =>
      if !payloadOk y then trapR illegalOperand y
      else s.release fun s =>
        s.homeOp op r x y (s.rdOwn (bits y.toNat 0 16) (payLen y)) fun xd ok _ s =>
          let s := s.setX d xd
          .ok (match p with
            | some p => s.setP p ok
            | none => s))

/-- DEQ and DEQT (R329). -/
def deqWord (op : Instr) (d a b : BitVec 5) (p : Option Nat) (s : State) : Out :=
  let x := s.x a
  let y := s.x b
  finish s (match s.queueRoute x 64 false with
    | .error e => trapR e.1 e.2
    | .ok r =>
      if !payloadOk y then trapR illegalOperand y
      else if s.pending.isNone && s.overlapsQueued s.src.space.toNat (0xFF00 * 2 ^ 48 + bits y.toNat 0 16) (payLen y) then .wait s
      else s.homeOp op r x y [] fun xd ok _ s =>
        let s := s.setX d xd
        .ok (match p with
          | some p => s.setP p ok
          | none => s))

/-- ENQ (R328). -/
def execEnq (d a b : BitVec 5) (s : State) : Out := enqWord (.enq d a b) d a b none s

/-- ENQT (R328). -/
def execEnqt (d a b : BitVec 5) (mod : BitVec 2) (s : State) : Out := enqWord (.enqt d a b mod) d a b (some (4 + mod.toNat)) s

/-- DEQ (R329). -/
def execDeq (d a b : BitVec 5) (s : State) : Out := deqWord (.deq d a b) d a b none s

/-- DEQT (R329). -/
def execDeqt (d a b : BitVec 5) (mod : BitVec 2) (s : State) : Out := deqWord (.deqt d a b mod) d a b (some (4 + mod.toNat)) s

/-- The own-TCM operand of QINIT and PINIT (R431). -/
def initAt (y : Word) : Except (Nat × Word) Nat :=
  match ownTcmAt y 1 32 with
  | none => .error (onchipRange, y)
  | some o => if o % 32 ≠ 0 then .error (illegalOperand, y) else .ok o

/-- QINIT (R333). -/
def execQinit (d a b : BitVec 5) (s : State) : Out :=
  let x := s.x a
  let y := s.x b
  finish s (match s.queueRoute x 64 false, initAt y with
    | .error e, _ => trapR e.1 e.2
    | .ok r, .error e => s.afterConfirm r x fun _ => trapR e.1 e.2
    | .ok r, .ok o =>
      let l := s.rdOwn o 32
      if s.pending.isNone && s.overlapsQueued s.src.space.toNat y.toNat 32 then .wait s
      else if s.pending.isNone && !queueInitOk (queueInit x.toNat r.2 0 l) l then trapR illegalOperand y
      else s.homeOp (.qinit d a b) r x y l fun xd _ _ s => .ok (s.setX d xd))

/-- QSTAT (R334). -/
def execQstat (d a b : BitVec 5) (s : State) : Out :=
  let x := s.x a
  let y := s.x b
  finish s (match s.queueRoute x 64 true, ownTcmAt y 64 64 with
    | .error e, _ => trapR e.1 e.2
    | .ok r, none => s.afterConfirm r x fun _ => trapR onchipRange y
    | .ok r, some _ =>
      if s.pending.isNone && s.overlapsQueued s.src.space.toNat y.toNat 64 then .wait s
      else s.homeOp (.qstat d a b) r x y [] fun xd _ _ s => .ok (s.setX d xd))

/-- QDRAIN (R335). -/
def execQdrain (d a : BitVec 5) (s : State) : Out :=
  finish s (match s.queueRoute (s.x a) 64 false with
    | .error e => trapR e.1 e.2
    | .ok r => s.homeOp (.qdrain d a) r (s.x a) 0 [] fun xd _ _ s => .ok (s.setX d xd))

/-- QRESET (R336). -/
def execQreset (d a : BitVec 5) (s : State) : Out :=
  finish s (match s.queueRoute (s.x a) 64 false with
    | .error e => trapR e.1 e.2
    | .ok r => s.homeOp (.qreset d a) r (s.x a) 0 [] fun xd _ _ s => .ok (s.setX d xd))

end Sys2Proof.Machine
end

