-- ==== Sys2Proof/Machine/Pools.lean ====
section
/-! DEFINITION. The Divider (R341-R351): pools, block tables, the block copies that name them (R286, R288), and the dispatch of every
operation that a home controller performs and answers (R331). -/

namespace Sys2Proof.Machine

/-! ### Pools (R341-R346) -/

/-- The value of an empty list's head (R341). -/
def noBlock : Nat := 0xFFFFFF

/-- Limits of R341 on the fields that no operation changes. -/
def Pool.staticOk (p : Pool) : Bool :=
  let n := p.count * 2 ^ p.log
  8 ≤ p.log && p.log ≤ 16 && p.base != 0 && p.base % 2 ^ p.log == 0 && p.meta_ % 4 == 0 && 1 ≤ p.count && p.count ≤ 0xFFFFFF &&
  p.scope ≤ 4 && p.base + n ≤ 2 ^ 64 && p.meta_ + 4 * p.count ≤ 2 ^ 64 &&
  (if p.space = spaceOnChip then (reflexOff p.base n).isSome && (reflexOff p.meta_ (4 * p.count)).isSome
   else !onChip p.base && !onChip (p.base + n - 1) && !onChip p.meta_)

/-- Free count and free head fit together (R346). -/
def Pool.listOk (p : Pool) : Bool := p.free ≤ p.count && (if p.free = 0 then p.head == noBlock else p.head < p.count)

/-- What else holds of a descriptor read from memory. -/
def poolImageOk (p : Pool) (l : List Byte) : Bool :=
  let n := ofBytes l
  (crc32c (l.take 60)).toNat == bits n 480 32 && bits n 252 4 == 0 && bits n 256 224 == 0 && !p.corrupt

/-- Why a pool operation does not perform. -/
inductive PStop where
  | corrupt (s : State) | table

def Home.pool? (x : Home) (addr sp tenant : Nat) : Option Pool :=
  x.pools.find? fun p => p.addr == addr && p.space == sp && p.tenant == tenant

def Home.withoutPool (x : Home) (p : Pool) : Home :=
  { x with pools := x.pools.filter fun o => !(o.addr == p.addr && o.space == p.space && o.tenant == p.tenant) }

/-- Write an entry of the pool table, most recently used. -/
def State.setPool (s : State) (h : Nat) (p : Pool) : State :=
  let i := s.fresh
  i.2.modHome h fun x => { x.withoutPool p with pools := { p with used := i.1 } :: (x.withoutPool p).pools }

/-- Make room for one more pool (R320). -/
def State.roomPool (s : State) (h : Nat) : State :=
  let l := (s.home h).pools
  if l.length < 16 then s
  else match l.reverse with
    | p :: _ => (s.modHome h fun x => x.withoutPool p).pokeLine p.space p.tenant p.addr p.written
    | [] => s

/-- The space that blocks and metadata lie in. -/
def Pool.sp (p : Pool) : Nat := if p.space = spaceOnChip then spaceOnChip else p.blockSpace

/-- The pool as it is activated from a line `l` that fails R346: CORRUPT, and its image the line's with a valid check. -/
def Pool.spoiled (p : Pool) (l : List Byte) : Pool :=
  let l := (l.take 31) ++ [(l.getD 31 0) ||| 8#8] ++ (l.take 60).drop 32
  { p with corrupt := true, stored := some (l ++ toBytes 4 (crc32c l).toNat) }

/-- The active pool that an operation names (R320, R346). -/
def State.activatePool (s : State) (h addr sp : Nat) : Except PStop (Pool × State) :=
  let ten := s.keyTenant sp
  match (s.home h).pool? addr sp ten with
  | some p =>
    if p.corrupt || !p.staticOk || !p.listOk then .error (.corrupt (s.setPool h { p with corrupt := true })) else .ok (p, s.setPool h p)
  | none => match s.rdStore sp ten addr 64 with
    | none => .error (.corrupt s)
    | some (l, s) =>
      let p := poolOf addr sp ten l
      let s := (s.roomPool h).dropL0 sp (addr / 64) fun _ => true
      if poolImageOk p l && p.staticOk && p.listOk then .ok (p, s.setPool h p) else .error (.corrupt (s.setPool h (p.spoiled l)))

/-- Metadata entry `i` (R342). -/
def State.rdMeta (s : State) (p : Pool) (i : Nat) : Option (Nat × State) :=
  (s.rdStore p.sp p.tenant (p.meta_ + 4 * i) 4).map fun r => (ofBytes r.1, r.2)

def State.wrMeta (s : State) (p : Pool) (i v : Nat) : Option State := s.wrStore p.sp p.tenant (p.meta_ + 4 * i) (toBytes 4 v)

/-- An entry in one of the two forms of R342. -/
def metaOk (p : Pool) (v : Nat) : Bool :=
  if bit v 31 then bits v 24 7 == 0 && (bits v 0 24 < p.count || bits v 0 24 == noBlock) else bits v 15 16 == 0 && 1 ≤ v

/-- Address of block `i`. -/
def Pool.block (p : Pool) (i : Nat) : Nat := p.base + i * 2 ^ p.log

/-- Take the block at the head of the free list, its count 1: `none` for a broken list, an empty answer for an empty one (R345). -/
def State.allocBlock (s : State) (p : Pool) : Option (Option (Nat × Pool) × State) :=
  if p.head = noBlock then some (none, s)
  else match s.rdMeta p p.head with
    | none => none
    | some (v, s) =>
      let next := bits v 0 24
      if !bit v 31 || !metaOk p v || (next == noBlock) != (p.free == 1) then none
      else (s.wrMeta p p.head 1).map fun s => (some (p.head, { p with head := next, free := p.free - 1 }), s)

/-- Drop one reference of block `i`: the new count, or none for a block that is free already (R345). -/
def State.dropRef (s : State) (p : Pool) (i : Nat) : Option (Option Nat × Pool × State) :=
  match s.rdMeta p i with
  | none => none
  | some (v, s) =>
    if !metaOk p v then none
    else if bit v 31 then some (none, p, s)
    else if v = 1 then (s.wrMeta p i (2 ^ 31 + p.head)).map fun s => (some 0, { p with head := i, free := p.free + 1 }, s)
    else (s.wrMeta p i (v - 1)).map fun s => (some (v - 1), p, s)

/-- The answer to an operation that a pool stops. -/
def State.stopPool (s : State) (id : Nat) (o : QOp) : PStop → State
  | .corrupt t => t.replyOp id false (.trap poolCorrupt o.a)
  | .table => s.replyOp id false (.result 4 false [])

/-- The operation has met a broken entry: nothing changes but CORRUPT (R346). -/
def State.spoil (s : State) (h id : Nat) (o : QOp) (p : Pool) : State :=
  (s.setPool h { p with corrupt := true }).replyOp id false (.trap poolCorrupt o.a)

/-- x[d] of an operation that performed. -/
def State.answerOp (s : State) (id : Nat) (v : Word) : State := s.replyOp id false (.result v true [])

/-- The pool that an init descriptor asks for (R343). -/
def poolInit (addr sp tenant : Nat) (l : List Byte) : Pool :=
  let n := ofBytes l
  { addr := addr, space := sp, tenant := tenant, base := bits n 0 64, meta_ := bits n 64 64, count := bits n 128 32, free := bits n 128 32
    head := 0, blockSpace := bits n 160 16, log := bits n 176 8, scope := bits n 184 8 }

/-- PINIT at the home (R343). -/
def State.pinitOp (s : State) (h id : Nat) (o : QOp) : State :=
  let ten := s.keyTenant o.space
  let p := poolInit o.a.toNat o.space ten o.data
  if (((s.home h).pool? p.addr p.space ten).map fun o => !o.corrupt) == some true then s.replyOp id false (.result 7 false [])
  else if !s.pinnedRange p.sp o.tenant p.base (p.count * 2 ^ p.log) || !s.pinnedRange p.sp o.tenant p.meta_ (4 * p.count) then
    s.replyOp id false (.result 6 false [])
  else
    let list := (List.range p.count).flatMap fun i => toBytes 4 (2 ^ 31 + (if i + 1 = p.count then noBlock else i + 1))
    match s.wrStore p.sp p.tenant p.meta_ list with
    | none => s.replyOp id false (.result 6 false [])
    | some s =>
      let s := (s.modHome h fun x => x.withoutPool p).roomPool h
      let s := s.pokeLine p.space ten p.addr p.written
      (((s.dropL0 p.space (p.addr / 64) fun _ => true).setPool h p)).answerOp id 0

/-- PSTAT at the home (R344). -/
def State.pstatOp (s : State) (h id : Nat) (o : QOp) : State :=
  let ten := s.keyTenant o.space
  let word (p : Pool) (good : Bool) : Word := if good then BitVec.ofNat 64 (p.count * 2 ^ 32 + p.free) else BitVec.ofInt 64 (-1)
  match (s.home h).pool? o.a.toNat o.space ten with
  | some p => (s.setPool h p).replyOp id false (.result (word p (!p.corrupt)) true p.image)
  | none =>
    if isPeer o.space then
      let f := s.foreign Config.peerByte 64
      f.2.replyOp id false (.result (BitVec.ofInt 64 (-1)) true f.1)
    else match s.rdStore o.space ten o.a.toNat 64 with
      | none => s.replyOp id false (.result (BitVec.ofInt 64 (-1)) true (toBytes 64 0))
      | some (l, s) =>
        let p := poolOf o.a.toNat o.space ten l
        s.replyOp id false (.result (word p (poolImageOk p l && p.staticOk && p.listOk)) true l)

/-- BALLOC at the home (R345). -/
def State.ballocOp (s : State) (h id : Nat) (o : QOp) : State :=
  match s.activatePool h o.a.toNat o.space with
  | .error e => s.stopPool id o e
  | .ok (p, s) => match s.allocBlock p with
    | none => s.spoil h id o p
    | some (none, s) => s.answerOp id 0
    | some (some (i, q), s) => (s.setPool h q).answerOp id (BitVec.ofNat 64 (p.block i))

/-- BFREE at the home (R345). -/
def State.bfreeOp (s : State) (h id : Nat) (o : QOp) : State :=
  match s.activatePool h o.a.toNat o.space with
  | .error e => s.stopPool id o e
  | .ok (p, s) =>
    let a := o.b.toNat
    if a < p.base ∨ p.block p.count ≤ a ∨ (a - p.base) % 2 ^ p.log ≠ 0 then s.replyOp id false (.trap illegalOperand o.b)
    else match s.dropRef p ((a - p.base) / 2 ^ p.log) with
      | none => s.spoil h id o p
      | some (none, _, s) => (s.count (unitHome h) ctrPoolErr).answerOp id (BitVec.ofInt 64 (-1))
      | some (some c, q, s) => (s.setPool h q).answerOp id (BitVec.ofNat 64 c)

/-! ### Block tables (R347-R351) -/

/-- A block-table descriptor (R347) with its entries. -/
structure BTable where
  addr : Nat
  pool : Nat
  array : Nat
  length : Nat
  limit : Nat
  entries : List Nat

/-- The fields of a descriptor. -/
def tableFields (addr : Nat) (l : List Byte) : BTable :=
  let n := ofBytes l
  { addr := addr, pool := bits n 0 64, array := bits n 64 64, length := bits n 128 32, limit := bits n 160 32, entries := [] }

/-- The descriptor keeps R347's limits. -/
def tableOk (t : BTable) (l : List Byte) : Bool :=
  t.pool % 64 == 0 && t.array % 4 == 0 && t.length ≤ t.limit && 1 ≤ t.limit && t.limit ≤ 65536 && bits (ofBytes l) 192 64 == 0

/-- The 4-byte values of a list of bytes. -/
def words4 : List Byte → List Nat
  | a :: b :: c :: d :: l => ofBytes [a, b, c, d] :: words4 l
  | _ => []

/-- Read a table; nothing where it breaks R347. -/
def State.readTable (s : State) (sp tenant addr : Nat) : Option (BTable × State) :=
  match s.rdStore sp tenant addr 32 with
  | none => none
  | some (l, s) =>
    let t := tableFields addr l
    if !tableOk t l then none
    else (s.rdStore sp tenant t.array (4 * t.length)).map fun r => ({ t with entries := words4 r.1 }, r.2)

/-- Every entry names a block of the pool (R347). -/
def BTable.namesOk (t : BTable) (p : Pool) : Bool := t.entries.all fun e => bits e 0 24 < p.count && bits e 24 7 == 0

def State.wrLength (s : State) (sp tenant : Nat) (t : BTable) (n : Nat) : Option State := s.wrStore sp tenant (t.addr + 0x10) (toBytes 4 n)

def State.wrEntry (s : State) (sp tenant : Nat) (t : BTable) (j v : Nat) : Option State :=
  s.wrStore sp tenant (t.array + 4 * j) (toBytes 4 v)

/-- Home of a pool. -/
def State.poolHome (s : State) (sp addr : Nat) : Nat := if sp = spaceOnChip then 32 else s.homeOf sp addr

/-- BTAPP (R348); `none` is a broken structure. -/
def State.btapp (s : State) (h id sp ten : Nat) (o : QOp) (p : Pool) (t : BTable) : Option State :=
  if t.length = t.limit then some (s.replyOp id false (.trap blockTableRange o.a))
  else match s.allocBlock p with
    | none => none
    | some (none, s) => some (s.answerOp id 0)
    | some (some (i, q), s) =>
      ((s.wrEntry sp ten t t.length i).bind fun s => s.wrLength sp ten t (t.length + 1)).map fun s =>
        (s.setPool h q).answerOp id (BitVec.ofNat 64 (p.block i))

/-- Drop one reference of each entry, the last first: how many blocks became free. -/
def State.dropAll (s : State) (h : Nat) : Pool → List Nat → Option (Nat × Pool × State)
  | p, [] => some (0, p, s)
  | p, e :: l => match s.dropRef p (bits e 0 24) with
    | none => none
    | some (none, q, s) => (s.count (unitHome h) ctrPoolErr).dropAll h q l
    | some (some c, q, s) => (s.dropAll h q l).map fun r => ((if c = 0 then r.1 + 1 else r.1), r.2)

/-- BTREL (R348). -/
def State.btrel (s : State) (h id sp ten : Nat) (p : Pool) (t : BTable) : Option State :=
  match s.dropAll h p t.entries.reverse with
  | none => none
  | some (n, q, s) => (s.wrLength sp ten t 0).map fun s => (s.setPool h q).answerOp id (BitVec.ofNat 64 n)

/-- Saturated-fork copies that R349 counts: `counts` are the blocks' reference counts. -/
def forkCopies (l : List Nat) (counts : List (Nat × Nat)) : Nat :=
  counts.foldl (fun n c => n + ((l.filter fun e => bits e 0 24 == c.1).length - (32767 - c.2))) 0

/-- Reference counts of distinct blocks. -/
def State.refCounts (s : State) (p : Pool) : List Nat → Option (List (Nat × Nat) × State)
  | [] => some ([], s)
  | i :: l => match s.rdMeta p i with
    | none => none
    | some (v, s) =>
      if !metaOk p v || bit v 31 then none
      else (s.refCounts p l).map fun r => ((i, v) :: r.1, r.2)

/-- One entry of the fork's loop: a further reference, or a copy into a new block (R349). -/
def State.forkEntry (s : State) (p : Pool) (e : Nat) : Option (Nat × Pool × State) :=
  let i := bits e 0 24
  match s.rdMeta p i with
  | none => none
  | some (v, s) =>
    if v < 32767 then (s.wrMeta p i (v + 1)).map fun s => (e, p, s)
    else match s.allocBlock p with
      | some (some (f, q), s) =>
        ((s.rdStore p.sp p.tenant (p.block i) (2 ^ p.log)).bind fun r => r.2.wrStore p.sp p.tenant (p.block f) r.1).map fun s =>
          (bits e 31 1 * 2 ^ 31 + f, q, s)
      | _ => none

/-- The fork's loop. -/
def State.forkLoop (s : State) (sp ten : Nat) (dst : BTable) : Pool → Nat → List Nat → Option (Pool × State)
  | p, _, [] => some (p, s)
  | p, j, e :: l => match s.forkEntry p e with
    | none => none
    | some (v, q, s) => match s.wrEntry sp ten dst j v with
      | none => none
      | some s => s.forkLoop sp ten dst q (j + 1) l

/-- BTFORK (R349). -/
def State.btfork (s : State) (h id sp ten : Nat) (o : QOp) (p : Pool) (t : BTable) : Option State :=
  let range := s.replyOp id false (.trap blockTableRange o.b)
  if o.a = o.b then some range
  else match s.readTable sp ten o.b.toNat with
    | none => some range
    | some (d, s) =>
      if d.pool ≠ t.pool ∨ d.length ≠ 0 ∨ d.limit < t.length then some range
      else match s.refCounts p (t.entries.map fun e => bits e 0 24).eraseDups with
        | none => none
        | some (counts, s) =>
          if p.free < forkCopies t.entries counts then some (s.answerOp id 1)
          else match s.forkLoop sp ten d p 0 t.entries with
            | none => none
            | some (q, s) => (s.wrLength sp ten d t.length).map fun s => (s.setPool h q).answerOp id 0

/-- The named range of CPYG or CPYS (R286): the pool's layout, the entry array and the entries, in one step. -/
def State.rangeOp (s : State) (id : Nat) (o : QOp) (p : Pool) (t : BTable) : Option State :=
  let j := bits o.b.toNat 0 32
  let c := bits o.b.toNat 32 16
  if t.length < j + c then some (s.replyOp id false (.trap blockTableRange o.b))
  else
    let l := (t.entries.drop j).take c
    some (s.replyOp id false (.result 0 true (toBytes 8 p.base ++ toBytes 4 p.sp ++ toBytes 4 p.log ++ toBytes 8 (t.array + 4 * j) ++
      l.flatMap (toBytes 4))))

/-- An operation on a block table, forwarded to the home of its pool (R347). -/
def State.tableOp (s : State) (id : Nat) (o : QOp) : State :=
  let sp := o.space
  let ten := s.keyTenant sp
  let bad := s.replyOp id false (.trap poolCorrupt o.a)
  match s.readTable sp ten o.a.toNat with
  | none => bad
  | some (t, s) =>
    let h := s.poolHome sp t.pool
    if (s.home h).power ≠ .awake then s.awaitWake h (.homeControllerOperation id none)
    else match s.activatePool h t.pool sp with
    | .error e => s.stopPool id o e
    | .ok (p, s) =>
      let ranged := match o.op with
        | .cpyg _ _ _ => true
        | .cpys _ _ _ => true
        | _ => false
      let named : BTable := if ranged then { t with entries := (t.entries.drop (bits o.b.toNat 0 32)).take (bits o.b.toNat 32 16) } else t
      if !named.namesOk p then bad
      else
        let r := match o.op with
          | .btapp _ _ => s.btapp h id sp ten o p t
          | .btget _ _ _ =>
            if t.length ≤ o.b.toNat then some (s.replyOp id false (.trap blockTableRange o.b))
            else some (s.answerOp id (BitVec.ofNat 64 (t.entries.getD o.b.toNat 0)))
          | .btfork _ _ _ => s.btfork h id sp ten o p t
          | .btrel _ _ => s.btrel h id sp ten p t
          | _ => s.rangeOp id o p t
        r.getD (s.spoil h id o p)

/-! ### The home controllers' operations and replies (R331) -/

/-- Perform operation `id` at its home. -/
def State.performOp (s : State) (h id : Nat) (o : QOp) : State :=
  let peer := isPeer o.space
  match o.op with
  | .enq _ _ _ => if peer then s.shadowOp h id o false else s.enqOp h id o false
  | .enqt _ _ _ _ => if peer then s.shadowOp h id o true else s.enqOp h id o true
  | .deq _ _ _ => s.deqOp h id o false
  | .deqt _ _ _ _ => s.deqOp h id o true
  | .qinit _ _ _ => s.qinitOp h id o
  | .qstat _ _ _ => s.qstatOp h id o
  | .qdrain _ _ => s.qdrainOp h id o
  | .qreset _ _ => s.qresetOp h id o
  | .pinit _ _ _ => s.pinitOp h id o
  | .pstat _ _ _ => s.pstatOp h id o
  | .balloc _ _ => s.ballocOp h id o
  | .bfree _ _ _ => s.bfreeOp h id o
  | _ => s.tableOp id o

/-- An operation of a pair that only the primary's core performs: SPAWN and UNSTAKE (R395). -/
def State.corePairOp (s : State) (id : Nat) (o : QOp) : State :=
  let r : Word × State := match o.op, s.thread? o.who with
    | .spawn _ _ _, some t => s.spawnNow o.core t (ofBytes o.data) (o.a.setWidth 40) o.b
    | .unstake _ _, some _ => let u := s.unstake o.who o.a.toNat; (BitVec.ofNat 64 u.1, u.2)
    | _, _ => (0, s)
  ({ r.2 with qops := mset r.2.qops id { o with reply := some (.value r.1.toNat) } } : State).post (cyc 8) (.homeControllerReply id none)

/-- The confirmation of R319 fails: a fault of the thread, or of the copy whose element it was (R221). -/
def State.faultOp (s : State) (id : Nat) (o : QOp) (reason : Nat) : State :=
  let bank := s.bankNo o.who
  let of_ : FaultOf := match o.copy with
    | some c => .copy c
    | none => .access id
  let pc := ((s.thread? o.who).map fun t => t.pc.toNat).getD 0
  let f : FaultRec := { core := o.core, who := o.who, bank := bank, of_ := of_, offset := o.a.toNat, space := o.space
                        kind := if o.copy.isSome then 5 else 2, reason := reason, tenant := o.tenant, word := if o.copy.isSome then 0 else pc }
  (if o.copy.isSome then { s with qops := mdel s.qops id } else s).post (homeLeg o.home o.core) (.translationFault f)

/-- The confirmation of an address under a peer window (R219, R221, R319): its descriptor, and the translation that the peer lends. -/
def State.confirmPeer (s : State) (h sp ea : Nat) : Except Nat State :=
  match windowCheck (s.spaceEntry sp) .atomic ea with
  | some r => .error r
  | none => match s.tlbHit h sp ea with
    | some t => if t.permits .atomic then .ok s else .error 1
    | none =>
      let i := s.drawn
      if !s.front.linkUp then .error 5
      else match Config.peerFault i.1 with
        | some r => .error r.val
        | none =>
          let leaf := Config.peerLeaf i.1
          if leaf.1 && leaf.2.1 then .ok (i.2.takeLease sp ea leaf.1 leaf.2.1 leaf.2.2.val) else .error 1

/-- ENQ and ENQT, which find LINK at a shadow while the link is down (R340). -/
def isEnq : Instr → Bool
  | .enq _ _ _ => true
  | .enqt _ _ _ _ => true
  | _ => false

/-- An operation reaches its home: it waits while the slice is gated, is confirmed, and is performed. -/
def State.homeOperation (s : State) (id : Nat) (o : QOp) : State :=
  let h := o.home
  if h = 99 then s.corePairOp id o
  else if (s.home h).power ≠ .awake then s.awaitWake h (.homeControllerOperation id none)
  else if o.space = spaceOnChip then s.performOp h id o
  else if isPeer o.space && isEnq o.op && !s.front.linkUp then match windowCheck (s.spaceEntry o.space) .atomic o.a.toNat with
    | some r => s.faultOp id o r
    | none => s.performOp h id o
  else if isPeer o.space then match s.confirmPeer h o.space o.a.toNat with
    | .error r => s.faultOp id o r
    | .ok s => s.performOp h id o
  else match s.translate h o.space o.a.toNat .atomic with
    | .error r => s.faultOp id o r
    | .ok (_, s) => s.performOp h id o

/-- HOME_CONTROLLER_OPERATION (R331), an enqueue of the other module among them (R339). -/
def execHomeControllerOperation (s : State) : Out := s.orWait <|
  match s.event with
  | .homeControllerOperation id peer => .next (match peer with
    | some e => s.peerEnqueue e
    | none => match mget s.qops id with
      | some o => if o.reply.isSome then s else s.homeOperation id o
      | none => s)
  | _ => .next s

/-- The answer to an element of CPYQ: the next one, a new try, or the end (R288). -/
def State.elementReply (s : State) (o : QOp) (cid : Nat) (r : Reply) : State :=
  let mine (y : Copy) : Bool := y.kind == 6 && y.who == o.who
  match (s.placesOf o.core).find? fun p => ((mget (s.coreAt p).copies cid).filter mine).isSome with
  | none => s
  | some p =>
    let upd (f : Copy → Copy) : State := s.modCoreAt p fun k => { k with copies := mmod k.copies cid f }
    match r with
    | .result xd ok _ =>
      if ok then
        let s := upd fun y => { y with sectors := y.sectors + 1, a := y.a + 1, busy := false }
        if (ctxOf? p).isSome then s else s.nextSector p cid
      else if xd = 5 then s.finishAt p cid fun y => { y with status := 6 }
      else if (ctxOf? p).isSome then upd fun y => { y with busy := false }
      else s.post (cyc 64) (.cpyqRetry p cid)
    | _ => s.finishAt p cid fun y => { y with status := 6 }

/-- A reply whose bytes stay with the word: the range of a block copy. -/
def keepsData : Instr → Bool
  | .cpyg _ _ _ => true
  | .cpys _ _ _ => true
  | _ => false

/-- The reply `r` to one of the threads that share it. -/
def State.opReply (s : State) (o : QOp) (r : Reply) (w : Who) (id : Nat) : State :=
  let mine := (mget s.qops id).getD o
  let s : State := { s with qops := mdel s.qops id }
  match mine.copy with
  | some cid => s.elementReply mine cid r
  | none => match r with
    | .result xd ok data => if keepsData o.op then s.answer1 w id r else s.resultTo w id o.b xd ok data
    | r => s.answer1 w id r

/-- HOME_CONTROLLER_REPLY (R331), or the other module's acknowledgement (R339): replies return to both twins (R395). -/
def execHomeControllerReply (s : State) : Out :=
  match s.event with
  | .homeControllerReply id ack => .next (
    let s := match ack, mget s.qops id with
      | some st, some o => s.crossed id o st
      | _, _ => s
    match mget s.qops id with
    | some o => match o.reply with
      | some r => s.forTwins o.who id fun s w id => s.opReply o r w id
      | none => s
    | none => s)
  | _ => .next s

/-! ### Words -/

/-- A pool or table operation: acquire and release at the pool's scope (R351). -/
def State.poolWord (s : State) (op : Instr) (x y : Word) (al : Nat) (data : List Byte) (k : Word → State → Res) : Res :=
  match s.queueRoute x al true with
  | .error e => trapR e.1 e.2
  | .ok r => s.release fun s => s.homeOp op r x y data fun xd _ _ s => k xd s

/-- PINIT (R343). -/
def execPinit (d a b : BitVec 5) (s : State) : Out :=
  let x := s.x a
  let y := s.x b
  finish s (match s.queueRoute x 64 true, initAt y with
    | .error e, _ => trapR e.1 e.2
    | .ok r, .error e => s.afterConfirm r x fun _ => trapR e.1 e.2
    | .ok r, .ok o =>
      let l := s.rdOwn o 32
      let p := poolInit x.toNat r.2 0 l
      if s.pending.isNone && s.overlapsQueued s.src.space.toNat y.toNat 32 then .wait s
      else if s.pending.isNone && (!p.staticOk || bits (ofBytes l) 192 64 != 0) then trapR illegalOperand y
      else s.poolWord (.pinit d a b) x y 64 l fun w s => .ok (s.setX d w))

/-- PSTAT (R344). -/
def execPstat (d a b : BitVec 5) (s : State) : Out :=
  let x := s.x a
  let y := s.x b
  finish s (match s.queueRoute x 64 true, ownTcmAt y 64 64 with
    | .error e, _ => trapR e.1 e.2
    | .ok r, none => s.afterConfirm r x fun _ => trapR onchipRange y
    | .ok r, some _ =>
      if s.pending.isNone && s.overlapsQueued s.src.space.toNat y.toNat 64 then .wait s
      else s.homeOp (.pstat d a b) r x y [] fun xd _ _ s => .ok (s.setX d xd))

/-- BALLOC (R345). -/
def execBalloc (d a : BitVec 5) (s : State) : Out :=
  finish s (s.poolWord (.balloc d a) (s.x a) 0 64 [] fun w s => .ok (s.setX d w))

/-- BFREE (R345). -/
def execBfree (d a b : BitVec 5) (s : State) : Out :=
  finish s (s.poolWord (.bfree d a b) (s.x a) (s.x b) 64 [] fun w s => .ok (s.setX d w))

/-- BTAPP (R348). -/
def execBtapp (d a : BitVec 5) (s : State) : Out :=
  finish s (s.poolWord (.btapp d a) (s.x a) 0 32 [] fun w s => .ok (s.setX d w))

/-- BTGET (R348). -/
def execBtget (d a b : BitVec 5) (s : State) : Out :=
  finish s (s.poolWord (.btget d a b) (s.x a) (s.x b) 32 [] fun w s => .ok (s.setX d w))

/-- BTFORK (R349). -/
def execBtfork (d a b : BitVec 5) (s : State) : Out :=
  finish s (s.poolWord (.btfork d a b) (s.x a) (s.x b) 32 [] fun w s => .ok (s.setX d w))

/-- BTREL (R348). -/
def execBtrel (d a : BitVec 5) (s : State) : Out :=
  finish s (s.poolWord (.btrel d a) (s.x a) 0 32 [] fun w s => .ok (s.setX d w))

/-! ### Block-table copies and CPYQ (R286, R288) -/

/-- The copy that a confirmed range asks for. -/
def blockCopy (gather : Bool) (flat tspace : Nat) (data : List Byte) : CopyWork × Nat :=
  let n := ofBytes data
  let entries := words4 (data.drop 24)
  let log := bits n 96 32
  let sp := bits n 64 32
  (.blocks gather flat (if sp = spaceOnChip then 0 else sp) (bits n 0 64) log entries tspace (bits n 128 64), entries.length * 2 ^ log)

/-- The bits of B for the entries of a confirmed range that are poisoned. -/
def poisonedEntries (data : List Byte) : Nat :=
  (words4 (data.drop 24)).foldr (fun e n => 2 * n + e / 2 ^ 31 % 2) 0

/-- CPYG and CPYS (R286): the word waits until the home has confirmed the range. -/
def blockWord (gather : Bool) (op : Instr) (d a b : BitVec 5) (s : State) : Out :=
  let x := s.x a
  let y := s.x b
  let flat := (s.x d).toNat
  let c := bits y.toNat 32 16
  finish s (
    if c = 0 ∨ 64 < c ∨ bits y.toNat 48 16 ≠ 0 then trapR illegalOperand y
    else match s.queueRoute x 32 true with
      | .error e => trapR e.1 e.2
      | .ok r =>
        if flat % 8 ≠ 0 then trapR dataMisaligned (s.x d)
        else s.release fun s => s.homeOp op r x y [] fun _ _ data s =>
          let w := blockCopy gather flat s.sp data
          let bad := poisonedEntries data
          match s.rangeOk s.sp flat w.2 with
          | .error (c, v) => trapR c v
          | .ok _ => s.startCopy { s.newCopy (if gather then 3 else 4) w.1 with
              src := if gather then x.toNat else flat, dst := if gather then flat else x.toNat, length := w.2
              b := bad, status := if bad = 0 then 0 else 2 } fun id s =>
            .ok (s.setX d (BitVec.ofNat 64 id)))

/-- CPYG (R286). -/
def execCpyg (d a b : BitVec 5) (s : State) : Out := blockWord true (.cpyg d a b) d a b s

/-- CPYS (R286). -/
def execCpys (d a b : BitVec 5) (s : State) : Out := blockWord false (.cpys d a b) d a b s

/-- CPYQ (R288): the element size is that of the QCB at issue. No rule gives the outcome of a count of 0, which completes at once, or above
65,536, which traps (DESIGN CHOICE, notes/assumptions/112.md). -/
def execCpyq (d a b : BitVec 5) (s : State) : Out :=
  let x := s.x a
  let y := s.x b
  let src := (s.x d).toNat
  finish s (
    if 65536 < y.toNat then trapR illegalOperand y
    else match s.queueRoute x 64 true with
      | .error e => trapR e.1 e.2
      | .ok _ =>
        if src % 8 ≠ 0 then trapR dataMisaligned (s.x d)
        else s.release fun s => s.loadRes s.sp (x.toNat + 0x10) 2 fun elem s =>
          let n := y.toNat * elem
          if n % 8 ≠ 0 then trapR dataMisaligned (BitVec.ofNat 64 n)
          else if 2 ^ 24 < n then trapR illegalOperand y
          else match s.rangeOk s.sp src n with
          | .error (c, v) => trapR c v
          | .ok _ => s.startCopy { s.newCopy 6 (.elements src x.toNat elem) with
              src := src, dst := x.toNat, length := y.toNat } fun id s => .ok (s.setX d (BitVec.ofNat 64 id)))

end Sys2Proof.Machine
end

