-- ==== Sys2Proof/Machine/Reflex.lean ====
section
/-! DEFINITION. Reflex releases, bank switches, deadlines and budgets (R16, R29, R38, R385-R387) and the matching of paired
requests (R395, R396). -/

namespace Sys2Proof.Machine

/-! ### Releases (R385, R387) -/

/-- Meridian time of release `k`. -/
def Reflex.releaseAt (r : Reflex) (k : Nat) : Nat := r.first + k * rfPeriod r.n

/-- Post release `k` of entry `e`. -/
def State.postRelease (s : State) (e k : Nat) : State :=
  match mget s.front.reflex e with
  | some r => s.postAt (r.releaseAt k) (.reflexRelease e k)
  | none => s

/-- Release `k` falls due: an overrun when the previous activation has not ended (R29, R385). -/
def State.releaseEntry (s : State) (e k : Nat) (r : Reflex) : State :=
  let s := (s.modReflex e fun r => { r with next := k + 1 }).postRelease e (k + 1)
  if r.active.isSome || r.waiting.isSome then
    (s.modReflex e fun r => { r with overruns := min (r.overruns + 1) 0xFFFFFFFF }).count (unitCore (rfCore r.n)) ctrOverrun
  else
    let s := s.modReflex e fun r => { r with missed := false, reruns := 0, shadow := r.shadow && !s.front.active }
    (s.postAt (r.releaseAt k + rfDeadline r.n + 1) (.deadlineMiss e k)).startActivation e k

/-- REFLEX_RELEASE (R385): in the cycle whose meridian time first reaches the release time. -/
def execReflexRelease (s : State) : Out :=
  match s.event with
  | .reflexRelease e k => .next (match mget s.front.reflex e with
    | some r =>
      if !r.armed || r.next ≠ k then s
      else if s.meridianNow < r.releaseAt k then s.postRelease e k
      else s.releaseEntry e k r
    | none => s)
  | _ => .next s

/-- SHADOW_BANK_SWITCH (R16): the slot's live bank is Free, and no landing invocation holds slot 3 (R287). -/
def execShadowBankSwitch (s : State) : Out :=
  match s.event with
  | .shadowBankSwitch c slot => .next (
    let k := s.core c
    if !k.shadowWaits slot || (mget k.banks slot).isSome || k.bankOfSlot slot == slot + 4 then s
    else s.modCore c fun k => { k with
      running := mset k.running slot (slot + 4), banks := mmod k.banks (slot + 4) fun t => { t with st := .ready } })
  | _ => .next s

/-- DEADLINE_MISS (R387): meridian time is past the deadline, at which an EXIT is still on time, and the activation has not ended; the
thread runs on. -/
def execDeadlineMiss (s : State) : Out :=
  match s.event with
  | .deadlineMiss e k => .next (match mget s.front.reflex e with
    | some r =>
      let due := r.releaseAt k + rfDeadline r.n
      if s.meridianNow ≤ due then s.postAt (due + 1) s.event
      else if ((r.active == some k && !r.exited) || r.waiting == some k) && !r.missed then s.missOnce e
      else s
    | none => s)
  | _ => .next s

/-- BUDGET_EXCEEDED (R386): the trap 0x17 with the budget, once in an activation. -/
def execBudgetExceeded (s : State) : Out :=
  match s.event with
  | .budgetExceeded c b => .next (match mget (s.core c).banks b with
    | some t => match t.kind with
      | .reflex e _ =>
        let n := ((mget s.front.reflex e).map fun r => rfBudget r.n).getD 0
        if t.overBudget || t.st != .ready then s
        else ((({ s.enter c b with th := { t with overBudget := true } } : State)).takeTrap budgetExceeded (BitVec.ofNat 64 n) t.pc t.pc).store
      | _ => s
    | none => s)
  | _ => .next s

/-- STARVATION_GUARD (R38): the slot takes the next cycle of its core. -/
def execStarvationGuard (s : State) : Out :=
  match s.event with
  | .starvationGuard c slot => .next (s.modCore c fun k =>
      if k.guarded.contains slot then k else { k with guarded := k.guarded ++ [slot] })
  | _ => .next s

/-! ### Paired requests (R395) -/

/-- The partner's request of the same number, whose hash has come and which has no match yet. -/
def State.mateOf (s : State) (q : PairReq) : Option (Nat × PairReq) :=
  s.pairs.find? fun o =>
    o.2.pair == q.pair && o.2.number == q.number && o.2.primary != q.primary && o.2.arrived && o.2.twin.isNone

/-- Two requests match: the primary's is forwarded, and replies will return to both. An activation whose threads have ended may have
waited for that. -/
def State.matchPair (s : State) (i j : Nat) (q : PairReq) : State :=
  let tie (n other : Nat) (s : State) : State := { s with pairs := mmod s.pairs n fun x => { x with twin := some other } }
  let s := (tie j i (tie i j s)).post q.delay q.go
  if q.pair < 64 then s.activationEnd q.pair else s

/-- PAIR_HASH_ARRIVAL (R395): a differing hash is a mismatch (R396). -/
def execPairHashArrival (s : State) : Out :=
  match s.event with
  | .pairHashArrival id h => .next (match mget s.pairs id with
    | none => s
    | some q =>
      let s : State := { s with pairs := mset s.pairs id { q with arrived := true, hash := h } }
      match s.mateOf q with
      | none => s
      | some (j, o) =>
        if o.hash ≠ h then s.pairMismatch q.pair
        else if q.primary then s.matchPair id j q else s.matchPair j id o)
  | _ => .next s

/-- PAIR_MATCH_TIMEOUT (R395): no match within 4,096 cycles. -/
def execPairMatchTimeout (s : State) : Out :=
  match s.event with
  | .pairMatchTimeout id => .next (match mget s.pairs id with
    | some q => if q.twin.isNone then s.pairMismatch q.pair else s
    | none => s)
  | _ => .next s

end Sys2Proof.Machine
end

