-- ==== Sys2Proof/Machine/Debug.lean ====
section
/-! DEFINITION. Debug halt, step, quiesce, status and dump (R235, R236). -/

namespace Sys2Proof.Machine

/-- The cores that a halt of core `c` stops: both cores of the datum pair, or the one (R153). -/
def haltedCores (c : Nat) : List Nat := if clusterOf c = 62 then [coreId 62 0, coreId 62 1] else [c]

/-- DEBUG_HALT (R235), as HALT does. -/
def execDebugHalt (s : State) : Out :=
  match s.event with
  | .debugHalt c => .next ((haltedCores c).foldl (fun s c => s.modCore c fun k => { k with halted := true, stepSlot := none }) s)
  | _ => .next s

/-- Copies and landing handlers of a core go on. -/
def State.resumeEngine (s : State) (c : Nat) : State :=
  let s := (s.core c).copies.foldl (fun s y => if y.2.state = 0 && !y.2.busy then s.post 2 (.copySectorReply c y.1) else s) s
  if (s.core c).landing.isEmpty then s else s.post 2 (.landingHandlerInvocation c)

/-- The halt of a core ends; gang threads are late in their superstep (R299). -/
def State.endHalt (s : State) (c : Nat) : State :=
  let late := (s.core c).halted
  let s := s.modCore c fun k => { k with halted := false, stepSlot := none }
  (if late then s.setLate c else s).resumeEngine c

/-- RESUME (R235, R236): it ends the halt, of both cores where the halt stopped both, and the quiesce request. -/
def State.debugResume (s : State) (c : Nat) : State :=
  (haltedCores c).foldl State.endHalt (s.modCore c fun k => { k with quiesce := false })

/-- DEBUG_RESUME (R235). -/
def execDebugResume (s : State) : Out :=
  match s.event with
  | .debugResume c => .next (s.debugResume c)
  | _ => .next s

/-- DEBUG_STEP (R235): one issue cycle for a slot of a halted core. -/
def execDebugStep (s : State) : Out :=
  match s.event with
  | .debugStep c slot => .next (
    let ready := match mget (s.core c).banks ((s.core c).bankOfSlot slot) with
      | some t => t.st == .ready
      | none => false
    if (s.core c).halted && ready then s.modCore c fun k => { k with stepSlot := some slot } else s)
  | _ => .next s

/-- DEBUG_QUIESCE (R236). -/
def execDebugQuiesce (s : State) : Out :=
  match s.event with
  | .debugQuiesce c => .next (s.modCore c fun k => { k with quiesce := true })
  | _ => .next s

/-- QUIESCED (R236): requested, no request of a copy is outstanding, and the egress buffer has drained. -/
def Core.isQuiesced (k : Core) (now : Nat) : Bool :=
  k.quiesce && (k.copies.all fun y => !(y.2.busy && y.2.state == 0)) && k.egress ≤ now

/-- The status word of R235. -/
def Core.debugStatus (k : Core) (now : Nat) : Nat :=
  let flying := (k.copies.filter fun y => y.2.state < 2).length
  let stalled := (k.copies.filter fun y => k.landing.any fun l => l.1 == y.1).length
  (if k.halted then 1 else 0) + (if k.isQuiesced now then 2 else 0) + flying % 128 * 2 ^ 2 + stalled % 128 * 2 ^ 9

/-- The reply to STATUS and to DUMP. -/
def State.debugReply (s : State) (c to_ mb : Nat) : State :=
  if !isCore to_ then s else s.mailFrom c to_ mb (toBytes 32 ((s.core c).debugStatus s.now)) .firmware 0 5

/-- DEBUG_STATUS (R235). -/
def execDebugStatus (s : State) : Out :=
  match s.event with
  | .debugStatus c r mb => .next (s.debugReply c r mb)
  | _ => .next s

/-- A word of the core has sent its request and has not ended: the halt falls after it (R124, R202). -/
def Core.inWord (k : Core) : Bool := k.banks.any fun b => b.2.st == .ready && !b.2.asked.isEmpty

/-- DEBUG_DUMP (R235): core record and thread contexts to the scratchpad of the cluster, on a halted core, once the words that had
been sent have ended (R202) and the scratchpad's banks can be reached (R46). -/
def execDebugDump (s : State) : Out :=
  match s.event with
  | .debugDump c off r mb => .next (
    if !(s.core c).halted then s
    else if (s.core c).inWord || s.padBusy (clusterOf c) then s.post (cyc 1) s.event
    else
      let img := contextHead (s.core c) 0 fun t => ((s.ticketOf t.who).map (·.2)).getD 0
      let p := s.pad (clusterOf c)
      let s := if isFront c || 0x200000 < off + img.length then s
        else s.setPad (clusterOf c) { p with bytes := wrBlock p.bytes off img }
      s.debugReply c r mb)
  | _ => .next s

end Sys2Proof.Machine
end

