-- ==== Sys2Proof/Machine/Admission.lean ====
section
/-! DEFINITION. Completions into queue windows (R414, R420), the exchange plan check (R296), placement of gangs and of their twin
copies (R25, R35, R397), task sets (R27, R35, R36), pre-emption for latency-class work (R44), gang start (R26, R31, R294) and the
completion of a program (R318, R388). -/

namespace Sys2Proof.Machine

/-! ### Completions (R414, R420) -/

/-- Home and space of a window's queue (R14, R414). -/
def State.placeOfWindow (s : State) (w : Window) : Nat × Nat := match reflexOff w.qcb 64 with
  | some _ => (32, spaceOnChip)
  | none => (s.homeOf w.space w.qcb, w.space)

def State.modWindow (s : State) (k : Nat) (f : Window → Window) : State :=
  s.modFront fun r => { r with windows := mmod r.windows k f }

/-- An element that finds no room is dropped and counted (R414). -/
def State.dropElem (s : State) (k : Nat) : State := s.modWindow k fun w => { w with drops := min (w.drops + 1) 0xFFFF }

/-- ENQT into the queue of window `k` (R414). -/
def State.toWindow (s : State) (k : Nat) (data : List Byte) : State :=
  match mget s.front.windows k with
  | none => s.countHost
  | some w =>
    let h := s.placeOfWindow w
    match s.activate h.1 w.qcb h.2 with
    | .ok (q, s) =>
      if q.elem != data.length then s.countHost
      else match s.putElem h.1 q data false with
        | .ok (some s) => s
        | .ok none => s.dropElem k
        | .error (.corrupt s) => s.dropElem k
        | .error (.poisoned s) => s.dropElem k
        | .error .table => s.dropElem k
    | .error (.corrupt s) => s.dropElem k
    | .error (.poisoned s) => s.dropElem k
    | .error .table => s.dropElem k

/-- Fields of a command packet (R417). -/
def field (p : Packet) (off n : Nat) : Nat := bits p.body.toNat (8 * off) (8 * n)
def opcodeOf (p : Packet) : Nat := field p 0 1
def windowOf (p : Packet) : Nat := field p 2 2
def seqOf (p : Packet) : Nat := field p 4 4

/-- Statuses and codes of R420. -/
def stOk : Nat := 0
def stRefused : Nat := 1
def stBadop : Nat := 2
def stBusy : Nat := 3
def stLost : Nat := 4
def stInvalid : Nat := 5
def bRetired : Nat := 0x18
def bUnsupported : Nat := 0x20
def bLayout : Nat := 0x21
def bLxmFull : Nat := 0x22
def bPlanConflict : Nat := 0x23
def bMalformed : Nat := 0x24
def bNoPlacement : Nat := 0x25
def bSignal : Nat := 0x26

/-- The 32-byte completion of R420. -/
def completion (op status seq a b c : Nat) : List Byte :=
  toBytes 1 op ++ toBytes 1 status ++ toBytes 2 0 ++ toBytes 4 seq ++ toBytes 8 a ++ toBytes 8 b ++ toBytes 8 c

/-- The MAPQ that waits for the packets of a window to complete takes effect (R432). -/
def State.tryRebind (s : State) (k : Nat) : State :=
  match mget s.front.windows k with
  | none => s
  | some w => match w.rebind with
    | none => s
    | some (b, _) =>
      if s.front.dequeued.any fun p => p.window == k then s
      else
        let f (off n : Nat) : Nat := bits b.toNat (8 * (0x20 + off)) (8 * n)
        (s.modFront fun r => { r with held := mdel r.held k, freed := mdel r.freed k }).modWindow k fun w => { w with
          qcb := f 8 8, space := f 0x10 2, tenant := f 3 1, cmd := bit (f 1 1) 0, latency := bit (f 1 1) 1
          weight := f 2 1, served := 0, drops := 0, rebind := none }

/-- The packet `p`, dequeued and not yet completed, completes (R420); a packet completed already, as LOST (R421), does not again. -/
def State.completePkt (s : State) (p : Packet) (status a b c : Nat) : State :=
  if !s.front.dequeued.contains p then s
  else
    let s := s.modFront fun f => { f with dequeued := f.dequeued.erase p }
    (s.toWindow (windowOf p) (completion (opcodeOf p) status (seqOf p) a b c)).tryRebind p.window

/-! ### The exchange plan check (R296) -/

/-- Bytes of a plan table as a number. -/
def Plan.f (p : Plan) (off n : Nat) : Nat := ofBytes ((p.data.drop off).take n)

def Plan.count (p : Plan) : Nat := p.f 0x10 2

/-- The table of a rank (R85). -/
def planOf (l : List Plan) (r : Nat) : Option Plan := l.find? fun p => p.first ≤ r && r ≤ p.last

/-- The rank that runs on a core of a gang with these clusters (R25). -/
def rankOf (clusters : List Nat) (c : Nat) : Option Nat :=
  let i := clusters.idxOf (clusterOf c)
  if i < clusters.length && coreNo c < 16 then some (16 * i + coreNo c) else none

/-- A send of a plan: start, source, destination, receive index and flits. -/
structure PlanSend where
  start : Nat
  src : Nat
  dst : Nat
  index : Nat
  flits : Nat
  deriving DecidableEq, Repr

/-- One send entry, if it names a receive entry of the gang. -/
def planSend (plans : List Plan) (clusters : List Nat) (p : Plan) (e : Nat) : Option PlanSend :=
  let a := 0x20 + 16 * e
  let dst := p.f (a + 4) 2
  let i := p.f (a + 7) 1
  match (rankOf clusters dst).bind (planOf plans) with
  | none => none
  | some q =>
    let b := 0x20 + 16 * i
    if q.count ≤ i || q.f (b + 6) 1 != 1 then none
    else some { start := p.f a 4, src := q.f (b + 4) 2, dst := dst, index := i, flits := p.f (a + 0x0C) 2 / 64 }

/-- Two send entries that count as one (R296). -/
def PlanSend.same (x y : PlanSend) : Bool := x.start == y.start && x.src == y.src && x.dst == y.dst && x.index == y.index

/-- Sends that count as one, as the longest of them. -/
def mergeSends : List PlanSend → List PlanSend
  | [] => []
  | x :: l =>
    let m := mergeSends l
    match m.find? x.same with
    | some y => { y with flits := max x.flits y.flits } :: m.filter fun z => !x.same z
    | none => x :: m

/-- Every send of a gang's tables once, or none where an entry is refused. -/
def planSends (plans : List Plan) (clusters : List Nat) : Option (List PlanSend) :=
  let used := plans.filter fun p => p.first < 16 * clusters.length
  let l := used.flatMap fun p => ((List.range p.count).filter fun e => p.f (0x20 + 16 * e + 6) 1 == 0).map fun e =>
    planSend plans clusters p e
  if l.any Option.isNone then none else some (mergeSends (l.filterMap id))

/-- Links of the exchange plane that a send uses, with the hops before each (R11): injection, columns, rows, ejection. A link is
named by its router and direction: 0 east, 1 west, 2 south, 3 north, 4 injection, 5 ejection. -/
def pathLinks (src dst : Nat) : List (Nat × Nat) :=
  let a := routerOf (clusterOf src)
  let b := routerOf (clusterOf dst)
  let link (row col dir : Nat) : Nat := (8 * row + col) * 6 + dir
  let dc := dist a.2 b.2
  let dr := dist a.1 b.1
  let cols := (List.range dc).map fun i => if a.2 < b.2 then (link a.1 (a.2 + i) 0, i) else (link a.1 (a.2 - i) 1, i)
  let rows := (List.range dr).map fun i => if a.1 < b.1 then (link (a.1 + i) b.2 2, dc + i) else (link (a.1 - i) b.2 3, dc + i)
  (link a.1 a.2 4, 0) :: cols ++ rows ++ [(link b.1 b.2 5, dc + dr)]

/-- Fabric cycles in which a link could carry a send: first and the one after the last. -/
def PlanSend.intervals (x : PlanSend) : List (Nat × Nat × Nat) :=
  (pathLinks x.src x.dst).map fun l => (l.1, 2 * x.start + 2 * l.2, 2 * (x.start + 8) + 2 * l.2 + x.flits)

/-- Two sends meet on a link, or name one receive entry. -/
def PlanSend.conflict (x y : PlanSend) : Bool :=
  (x.dst == y.dst && x.index == y.index) ||
  x.intervals.any fun i => y.intervals.any fun j => i.1 == j.1 && i.2.1 < j.2.2 && j.2.1 < i.2.2

/-- No two of them conflict. -/
def planFree : List PlanSend → Bool
  | [] => true
  | x :: l => l.all (fun y => !x.conflict y) && planFree l

/-- The link set of a gang on these clusters, or none for a plan that is refused (R296). -/
def planLinks (plans : List Plan) (clusters : List Nat) : Option (List Nat) :=
  match planSends plans clusters with
  | none => none
  | some l => if planFree l then some (l.flatMap fun x => (pathLinks x.src x.dst).map (·.1)).eraseDups else none

/-! ### Placement of a gang and of its twin copy (R25, R35, R397) -/

/-- Clusters 0-31 side by side in the mesh (R10). -/
def adjacent (a b : Nat) : Bool := hops a b == 1

/-- A column of the cluster array for the search of a paired placement: what the clusters of rows 1-4 are, 0 unused, 1 primary,
2 twin. -/
def columns : List (List Nat) :=
  (List.range 81).map fun n => [n % 3, n / 3 % 3, n / 9 % 3, n / 27 % 3]

/-- Nowhere a primary cluster beside a twin cluster. -/
def apart (a b : Nat) : Bool := !((a == 1 && b == 2) || (a == 2 && b == 1))

def columnApart : List Nat → Bool
  | a :: b :: l => apart a b && columnApart (b :: l)
  | _ => true

/-- Placements of the columns from `j` on exist with `c` clusters of each copy at least; `may cl k` is whether cluster `cl` may be
`k`. Reached are the last column and the numbers placed so far, each at most `c`. -/
def pairSearch (may : Nat → Nat → Bool) (c : Nat) : Nat → List (List Nat × Nat × Nat) → Bool
  | 0, l => l.any fun x => x.2.1 == c && x.2.2 == c
  | j + 1, l =>
    let col := 7 - j
    let ok := columns.filter fun k => columnApart k && (List.range 4).all fun r => may (8 * r + col) (k.getD r 0)
    let next := l.flatMap fun x => (ok.filter fun k => (x.1.zip k).all fun y => apart y.1 y.2).map fun k =>
      (k, min c (x.2.1 + k.count 1), min c (x.2.2 + k.count 2))
    pairSearch may c j next.eraseDups

/-- A placement with these roles fixed exists. -/
def pairExists (avail : Nat → Bool) (c : Nat) (fixed : List (Nat × Nat)) : Bool :=
  let may (cl k : Nat) : Bool := match mget fixed cl with
    | some r => k == r
    | none => k == 0 || avail cl
  pairSearch may c 8 [([0, 0, 0, 0], 0, 0)]

/-- Fix role `k` for the lowest clusters that leave a placement possible, until `c` have it. -/
def fixRole (avail : Nat → Bool) (c k : Nat) (fixed : List (Nat × Nat)) : List (Nat × Nat) :=
  (List.range 32).foldl (fun f cl =>
    if c ≤ (f.filter fun x => x.2 == k).length || (mget f cl).isSome || !avail cl then f
    else if pairExists avail c (f ++ [(cl, k)]) then f ++ [(cl, k)] else f) fixed

/-- The clusters of a paired gang and of its twin copy, each in ascending order (R35, R397). -/
def pairPlacement (avail : Nat → Bool) (c : Nat) : Option (List Nat × List Nat) :=
  if !pairExists avail c [] then none
  else
    let f := fixRole avail c 2 (fixRole avail c 1 [])
    some ((f.filter fun x => x.2 == 1).map (·.1), (f.filter fun x => x.2 == 2).map (·.1))

/-- The compute cores of clusters, in the order of the ranks. -/
def coresOf (clusters : List Nat) : List Nat := clusters.flatMap fun cl => (List.range 16).map (coreId cl)

/-- Clusters that the launch record allows; latency-class and paired work never uses a standby cluster (R33, R419). -/
def State.mayUse (s : State) (r : Run) (cl : Nat) : Bool :=
  r.clusterMask.getLsbD cl && !((r.latency || r.paired) && s.front.standby.getLsbD cl)

/-- DTVER of a cluster's cores, where they agree (R78). -/
def State.tableOf (s : State) (cl : Nat) : Option Nat :=
  let t := (s.core (coreId cl 0)).table
  if (List.range 16).all fun n => (s.core (coreId cl n)).table == t then some t else none

/-- Clusters that a gang of program `p` could take now. -/
def State.freeClusters (s : State) (p : Nat) (r : Run) : List Nat :=
  (List.range 32).filter fun cl => s.mayUse r cl && (s.tableOf cl).isSome && (List.range 16).all fun n => s.isFree (coreId cl n) p

/-- The placement of a gang on clusters `l` of one DTVER. -/
def Run.placeIn (r : Run) (l : List Nat) : Option (List Nat × List Nat) :=
  if r.paired then pairPlacement l.contains r.count
  else if r.count ≤ l.length then some (l.take r.count, []) else none

/-- The placement of a gang among the clusters of `l`, all on one DTVER (R35, R78). -/
def State.placeGang (s : State) (r : Run) (l : List Nat) : Option (List Nat × List Nat) :=
  (l.map s.tableOf).eraseDups.findSome? fun t => r.placeIn (l.filter fun cl => s.tableOf cl == t)

/-- Cores of the allowed mask of a task set (R419). -/
def State.maskCores (s : State) (r : Run) : List Nat :=
  ((List.range 32).filter (s.mayUse r)).flatMap fun cl => ((List.range 16).filter r.coreMask.getLsbD).map (coreId cl)

/-! ### What holds admission back (R23, R35, R36) -/

/-- Another running program holds one of the barrier domains that the launch record names (R23); a count of 0 names none. -/
def State.domainsHeld (s : State) (p : Nat) (r : Run) : Bool :=
  s.front.progs.any fun g => g.1 != p && (match g.2.run with
    | some q => q.admitted && 0 < q.domains && 0 < r.domains && q.domain < r.domain + r.domains && r.domain < q.domain + q.domains
    | none => false)

/-- The ranges of a list that hold a byte; an empty list is the whole space (R86). -/
def rangesOf (l : List (Nat × Nat)) : List (Nat × Nat) := if l.isEmpty then [(0, 2 ^ 64)] else l.filter fun x => 0 < x.2

/-- Two range lists share a byte (R86). -/
def rangesMeet (a b : List (Nat × Nat)) : Bool :=
  (rangesOf a).any fun x => (rangesOf b).any fun y => x.1 < y.1 + y.2 && y.1 < x.1 + x.2

/-- Two task sets conflict (R36). -/
def setsConflict (a b : Run) : Bool := rangesMeet a.writes b.reads || rangesMeet a.writes b.writes || rangesMeet a.reads b.writes

/-- An earlier task set of the tenant conflicts and has not completed (R36). -/
def State.heldBack (s : State) (p : Nat) (g : Prog) (r : Run) : Bool :=
  s.domainsHeld p r || (!r.gang && s.front.progs.any fun h => h.1 != p && h.2.tenant == g.tenant && h.2.space == g.space && (match h.2.run with
    | some q => !q.gang && q.order < r.order && setsConflict q r
    | none => false))

/-- A running gang has reserved one of the links (R35). -/
def State.linksHeld (s : State) (p : Nat) (links : List Nat) : Bool :=
  s.front.progs.any fun g => g.1 != p && (match g.2.run with
    | some q => q.admitted && q.links.any links.contains
    | none => false)

/-! ### Starting a gang (R26, R31, R160, R294) -/

/-- Load a program's text as far as the L0 instruction cache holds it (R26, R164). -/
def Core.loadText (k : Core) (p : Nat) (g : Prog) : Core :=
  { k with l0i := (k.l0i.filter (·.locked) ++ g.lines p false).take 256 }

/-- The plan table in a rank's TCM (R26, R295): origin now, superstep 0, LATE 0. -/
def planInto (m : Mem) (p : Plan) (cycle : Nat) : Mem :=
  let m := wrBytes m p.tcm p.data
  wrN (wrN (wrN m p.tcm 8 cycle) (p.tcm + 8) 4 0) (p.tcm + 0x0E) 1 0

/-- Place rank `rank` of a gang on core `c`; its first SSTEP completes at once (R26, R401). -/
def State.startRank (s : State) (p : Nat) (g : Prog) (r : Run) (rank c : Nat) (mine pads : List Nat) : State :=
  let n := s.newSerial p
  let s := n.2
  let t := g.start p n.1 0 (.gang p rank) r.entry r.tvec r.latency (BitVec.ofNat 64 rank) (BitVec.ofNat 64 (rank % 16))
    (BitVec.ofNat 64 (16 * r.count)) r.arg
  let plan := planOf g.plans rank
  let base := (plan.map (·.tcm)).getD 0
  let t := { t with
    planbase := BitVec.ofNat 64 base
    gangid := BitVec.ofNat 64 (r.gangNo * 2 ^ 32 + rank * 2 ^ 16 + r.count * 2 ^ 8 + r.domain) }
  let cycle := s.cycle
  let s := s.modCore c fun k =>
    let k := (k.loadText p g).addReach p mine pads
    { k with
      banks := mset k.banks 0 t
      undo := if r.rollback then some [] else none, undoUsed := 0, undoOver := false
      tcm := match plan with
        | some q => { k.tcm with bytes := planInto k.tcm.bytes q cycle }
        | none => k.tcm }
  if r.rollback then
    let m := s.pad (clusterOf c)
    s.setPad (clusterOf c) { m with bytes := wrBytes m.bytes (undoBase c) (snapshotBytes t (s.core c).mconf 0) }
  else s

/-- Start one copy of a gang. -/
def State.startGangCopy (s : State) (p : Nat) (g : Prog) (r : Run) (clusters : List Nat) : State :=
  let l := coresOf clusters
  l.zipIdx.foldl (fun s x => s.startRank p g r x.2 x.1 l clusters) s

/-- The links of both copies of a gang, or none for a plan that is refused (R296, R397). -/
def Prog.linkSet (g : Prog) (a b : List Nat) : Option (List Nat) :=
  (planLinks g.plans a).map fun l => if b.isEmpty then l
    else l ++ (((planSends g.plans a).getD []).flatMap fun x => (pathLinks (otherCopy a b x.src) (otherCopy a b x.dst)).map (·.1)).eraseDups

/-- Packet of a LAUNCH, as the run keeps it. -/
def State.launchPacket (s : State) (p : Nat) (r : Run) : Option Packet :=
  s.front.dequeued.find? fun q => windowOf q == r.window && seqOf q == r.seq && opcodeOf q == r.opcode && field q 0x20 2 == p

/-- Complete the LAUNCH of a run. -/
def State.completeRun (s : State) (p : Nat) (r : Run) (status b c : Nat) : State :=
  match s.launchPacket p r with
  | some q => s.completePkt q status 0 b c
  | none => s

/-- What one attempt to admit the head of a queue comes to: placed, without a core that it may take, or held by the links of another
gang. -/
inductive Admit where
  | placed (s : State) | waits | held

/-- Admit a gang (R35). -/
def State.admitGang (s : State) (p : Nat) (g : Prog) (r : Run) : Admit :=
  match s.placeGang r (s.freeClusters p r) with
  | none => .waits
  | some (a, b) => match g.linkSet a b with
    | none => .placed ((s.completeRun p r stInvalid bPlanConflict 0).modProg p fun g => { g with run := none })
    | some links =>
      if s.linksHeld p links then .held
      else
        let r := { r with
          admitted := true, table := (s.tableOf (a.headD 0)).getD 0, clusters := a, twins := b, cores := coresOf (a ++ b), links := links, gangNo := s.front.gangs % 0xFFFF + 1 }
        let s := s.modFront fun f => { f with gangs := f.gangs + 1 }
        let s := s.modProg p fun g => { g with run := some r }
        .placed ((s.startGangCopy p g r a).startGangCopy p g r b)

/-- The cores that a task set receives now: those of its mask without another program's thread, on the DTVER of the first that is Free,
which is among them (R35, R78). -/
def State.taskCores (s : State) (p : Nat) (r : Run) : List Nat :=
  let l := s.maskCores r
  match l.find? fun c => s.isFree c p with
  | none => []
  | some c0 => l.filter (s.takesTasks p (s.core c0).table)

/-- A task set receives its cores, and the dispatcher begins (R27, R35, R160). -/
def State.receiveCores (s : State) (p : Nat) (mine : List Nat) : State :=
  let pads := (mine.map clusterOf).eraseDups
  let t := (s.core (mine.headD 0)).table
  let s := s.modRun p fun r => { r with admitted := true, cores := mine, table := t }
  (mine.foldl (fun s c => s.modCore c fun k => k.addReach p mine pads) s).dispatch p

/-- A core of the mask has a Free bank (R35). -/
def State.hasFreeBank (s : State) (p : Nat) (r : Run) : Bool := (s.maskCores r).any fun c =>
  (s.freeBank c).isSome && (s.core c).staked.isNone && !s.claimed c && !s.gangHolds c p && !s.wantedBy c p

/-- Admit a task set (R35). Bulk work is admitted by a Free bank, though every core of its mask may hold another program's thread; it
then receives its cores as soon as one does not. A latency-class task set is placed when it receives a core: with one Free core in its
mask it is admitted with that core alone, and nothing is vacated, however large N is (DESIGN CHOICE, notes/assumptions/53.md). -/
def State.admitTasks (s : State) (p : Nat) (r : Run) : Admit :=
  let mine := s.taskCores p r
  if mine.isEmpty && (r.latency || !s.hasFreeBank p r) then .waits else .placed (s.receiveCores p mine)

/-- An admitted task set that holds no core yet receives its cores. -/
def State.settleTasks (s : State) (p : Nat) (r : Run) : State :=
  if !r.admitted || r.gang || r.ended.isSome || !r.cores.isEmpty then s
  else
    let mine := s.taskCores p r
    if mine.isEmpty then s else s.receiveCores p mine

/-! ### Pre-emption for latency-class work (R44) -/

/-- A core that is being vacated or cleared. -/
def State.coming (s : State) (c : Nat) : Bool :=
  let k := s.core c
  k.clearing || (match k.seized with
    | some (.stake _ _) => false
    | some _ => true
    | none => false) || s.agenda.any fun e => match e.2 with
      | .seize x (.live _) => x == c
      | .seize x (.evict _) => x == c
      | .preemption x _ => x == c
      | _ => false

/-- The Free core that may take a task-set core by live migration (R44): of its mask, of its DTVER, not needed, the lowest. -/
def State.liveDest (s : State) (c : Nat) (avoid : List Nat) : Option Nat :=
  let p := (((s.core c).banks.head?).map fun b => b.2.prog).getD 0
  match s.runOn c with
  | some q =>
    if q.gang then none
    else (s.maskCores q).find? fun d => s.isFree d p && (s.core d).table == (s.core c).table && !avoid.contains d
  | none => none

/-- Eviction records of a cluster that no eviction on its way needs. -/
def State.sparePlaces (s : State) (cl : Nat) : Nat :=
  s.records cl - (s.contexts.filter fun x => x.2.cluster == cl && x.2.record.isSome).length -
    (s.agenda.filter fun e => match e.2 with
      | .seize c (.evict _) => clusterOf c == cl
      | .seize c (.stake _ _) => clusterOf c == cl
      | .preemption c none => clusterOf c == cl
      | _ => false).length

/-- Bulk work runs on the core and it may be vacated. -/
def State.victim (s : State) (c : Nat) : Bool := s.mayVacate c && (match s.runOn c with
  | some q => !q.latency
  | none => false)

/-- Pre-empt core `c`, if its context has somewhere to go (R44). -/
def State.preempt1 (s : State) (avoid : List Nat) (c : Nat) : Option State :=
  if !s.victim c then none
  else match s.liveDest c avoid with
    | some d => some (s.post 0 (.preemption c (some d)))
    | none => if 0 < s.sparePlaces (clusterOf c) then some (s.post 0 (.preemption c none)) else none

/-- R44's order: task-set cores from the highest down, then cores of gangs, paired gangs last; within these two classes too the model
goes down by number (DESIGN CHOICE, notes/assumptions/54.md). -/
def State.vacateOrder (s : State) (l : List Nat) : List Nat :=
  let kind (gang paired : Bool) (c : Nat) : Bool := match s.runOn c with
    | some q => q.gang == gang && q.paired == paired
    | none => false
  let down := l.mergeSort (fun a b => decide (b ≤ a))
  down.filter (kind false false) ++ down.filter (kind true false) ++ down.filter (kind true true)

/-- A cluster of a gang's mask whose cores are Free, coming or can be vacated. -/
def State.canClear (s : State) (p : Nat) (cl : Nat) : Bool :=
  let l := coresOf [cl]
  let v := l.filter fun c => !s.isFree c p && !s.coming c
  (v.foldl (fun (x : Option State) c => x.bind fun s => s.preempt1 l c) (some s)).isSome

/-- Cores of a cluster that have to be vacated for program `p`. -/
def State.toVacate (s : State) (p cl : Nat) : Nat := ((coresOf [cl]).filter fun c => !s.isFree c p && !s.coming c).length

/-- A running gang reserves a link of program `p` on these clusters, which vacating cores does not give back (R35). -/
def State.linksBar (s : State) (p : Nat) (g : Prog) (x : List Nat × List Nat) : Bool := (g.linkSet x.1 x.2).any (s.linksHeld p)

/-- The clusters that a gang is to receive, with as few cores to vacate as they allow (R44): the clusters are taken up by that number,
then ascending, until the gang can be placed among them and its links are not reserved. -/
def State.gangTarget (s : State) (p : Nat) (g : Prog) (r : Run) : Option (List Nat × List Nat) :=
  let l := (List.range 32).filter fun cl => s.mayUse r cl && (s.tableOf cl).isSome && s.canClear p cl
  let byCost := l.mergeSort fun a b => decide (s.toVacate p a < s.toVacate p b ∨ (s.toVacate p a = s.toVacate p b ∧ a ≤ b))
  (List.range (l.length + 1)).findSome? fun n => (s.placeGang r (l.filter (byCost.take n).contains)).filter fun x => !s.linksBar p g x

/-- Pre-empt for a gang: the bulk-held cores of the clusters that it is to receive. -/
def State.preemptGang (s : State) (p : Nat) (g : Prog) (r : Run) : State :=
  match s.gangTarget p g r with
  | none => s
  | some (a, b) =>
    let need := coresOf (a ++ b)
    let s := s.modFront fun f => { f with wanted := some (p, need) }
    (s.vacateOrder (need.filter fun c => !s.isFree c p && !s.coming c)).foldl (fun s c => (s.preempt1 need c).getD s) s

/-- Pre-empt for a task set: as many cores of the mask as ⌈N / 4⌉, those already Free counted. -/
def State.preemptTasks (s : State) (p : Nat) (r : Run) : State :=
  let l := s.maskCores r
  let have_ := (l.filter fun c => s.isFree c p || s.coming c).length
  let n := min ((r.count + 3) / 4) l.length - have_
  let e := (s.vacateOrder (l.filter s.victim)).foldl (fun (x : State × List Nat) c =>
    if n ≤ x.2.length then x
    else match x.1.preempt1 l c with
      | some s => (s, x.2 ++ [c])
      | none => x) (s, [])
  if e.2.isEmpty then s else e.1.modFront fun f => { f with wanted := some (p, e.2) }

/-- The cores vacated for a program are still on their way. -/
def State.stillComing (s : State) (p : Nat) : Bool := match s.front.wanted with
  | some (q, l) => q == p && l.any s.coming
  | none => false

/-! ### Admission (R35) -/

/-- No core is kept for program `p` any more. -/
def State.unwant (s : State) (p : Nat) : State := s.modFront fun f => { f with
  wanted := match f.wanted with
    | some (q, _) => if q == p then none else f.wanted
    | none => none }

/-- Serve the head of a queue: `true` when it has left the queue. Work for which cores are being vacated is admitted once all of them
have come free (DESIGN CHOICE, notes/assumptions/55.md). -/
def State.serveHead (s : State) (p : Nat) : State × Bool :=
  match s.prog? p with
  | none => (s, true)
  | some g => match g.run with
    | none => (s, true)
    | some r =>
      if s.heldBack p g r || s.stillComing p then (s, false)
      else match (if r.gang then s.admitGang p g r else s.admitTasks p r) with
        | .placed t => (t.unwant p, true)
        | .waits => (if r.latency then (if r.gang then s.preemptGang p g r else s.preemptTasks p r) else s, false)
        | .held => (s.unwant p, false)

/-- Serve a queue strictly in order. -/
def State.serveQueue (s : State) : List Nat → State × List Nat
  | [] => (s, [])
  | p :: l =>
    let r := s.serveHead p
    if r.2 then r.1.serveQueue l else (r.1, p :: l)

/-! ### The standby mask takes effect (R33, R44, R392) -/

/-- A paired gang's work stands between a cluster and the standby mask, and nothing else: its cores are vacated (R44). -/
def State.clearForStandby (s : State) (cl : Nat) : State :=
  if s.records cl != 16 || (coresOf [cl]).any fun c => (s.runOn c).any fun r => r.latency then s
  else (s.vacateOrder ((coresOf [cl]).filter fun c => (s.runOn c).any fun r => r.paired)).foldl (fun s c =>
    if s.coming c then s else (s.preempt1 (coresOf [cl]) c).getD s) s

/-- The mask follows the one last written: clusters removed leave, clusters that R392 allows join, and paired bulk work on the others is
vacated. The mask never falls below 4 clusters while a stake is permitted (R33). -/
def State.settleStandby (s : State) : State :=
  let now := s.front.standby
  let want := s.front.standbyNext
  if now = want then s
  else
    let more := (List.range 32).filter fun cl => want.getLsbD cl && !now.getLsbD cl
    let add := (more.filter s.mayStandBy).foldl (fun (m : BitVec 32) cl => m ||| 1#32 <<< cl) 0
    let m := (now &&& want) ||| add
    let m := if s.stakeArmed && maskSize m < 4 then now ||| add else m
    (more.filter fun cl => !s.mayStandBy cl).foldl State.clearForStandby (s.modFront fun f => { f with standby := m })

/-- ADMISSION (R35): latency-class work, then Saved contexts (R45), then bulk work, then the indices of running task sets. -/
def execAdmission (s : State) : Out := s.orWait <|
  .next (
    let s := s.settleStandby
    if s.front.boot ≠ 5 then s
    else
      let a := s.serveQueue s.front.latQueue
      let s := (a.1.modFront fun f => { f with latQueue := a.2 }).tryRestores
      let b := s.serveQueue s.front.bulkQueue
      let s := b.1.modFront fun f => { f with bulkQueue := b.2 }
      let s := s.front.progs.foldl (fun s g => match g.2.run with
        | some r => s.settleTasks g.1 r
        | none => s) s
      s.front.progs.foldl (fun s g => match g.2.run with
        | some r => if r.admitted && !r.gang && r.ended.isNone && r.next < r.count then s.post 0 (.taskDispatch g.1) else s
        | none => s) s)

/-! ### Program completion (R318, R388, R420) -/

/-- End every thread of a program wherever it is (R230, R304). -/
def State.endAll (s : State) (p : Nat) : State :=
  let s := s.cores.foldl (fun s c => (c.2.banks.filter fun b => b.2.prog == p && b.2.st != .ended).foldl (fun s b => s.endThread c.1 b.1) s) s
  let s := s.contexts.foldl (fun s x => (x.2.core.banks.filter fun b => b.2.prog == p && b.2.st != .ended).foldl
    (fun s b => s.endThread (ctxPlace x.1) b.1) s) s
  let s := (s.moving.filter fun m => m.2.arrived && m.2.thread.prog == p).foldl (fun s m => s.endQueued m.1 m.2) s
  ({ s with moving := s.moving.filter fun m => m.2.thread.prog != p } : State).dropWaiters p

/-- Contexts of a program that hold no thread any more are given up. -/
def State.dropContexts (s : State) (p : Nat) : State :=
  { s with contexts := s.contexts.filter fun x => !(x.2.prog == p && !x.2.moving && x.2.core.banks.isEmpty) }

/-- A SEND of the program is on its way, or its acknowledgement (R304, R318). -/
def sendOf (p : Nat) : Event → Bool
  | .mailboxArrival m => m.who.prog == p && m.id != 0
  | .sendAcknowledgement w _ _ => w.prog == p
  | .exchangeArrival x => x.prog == p
  | _ => false

/-- No thread of the program is left, and everything it issued has drained (R318). -/
def State.progDrained (s : State) (p : Nat) : Bool :=
  (s.cores.all fun c => c.2.banks.all fun b => b.2.prog != p) && (s.contexts.all fun x => x.2.prog != p) &&
  (s.moving.all fun m => m.2.thread.prog != p) && !s.writesOut (fun w => w.prog == p) &&
  (s.cores.all fun c => c.2.copies.all fun y => y.2.who.prog != p) && !(s.agenda.any fun e => sendOf p e.2) &&
  (!s.kept.any fun e => sendOf p e.2) && !s.pairs.any fun q => q.2.twin.isNone && sendOf p q.2.go

/-- Forwarding entries and reach bits of a program go with it (R43, R160). -/
def State.forget (s : State) (p : Nat) : State :=
  { s with cores := s.cores.map fun c => (c.1, { c.2 with
      forwards := c.2.forwards.filter fun f => f.2.prog != p
      reach := c.2.reach.filter fun r => r.1 != p, reachPads := c.2.reachPads.filter fun r => r.1 != p }) }

/-- B of a run's completion (R420). -/
def Run.code (r : Run) : Nat := (match r.ended with
  | some e => e.1 % 256
  | none => 0) + r.unstaked % 2 ^ 32 * 2 ^ 8

/-- The entries of a reflex program that has ended are disarmed (R388, R389). -/
def State.disarmAll (s : State) (p : Nat) (error : Bool) : State :=
  let l := s.front.reflex.filter fun r => rfProg r.2.n == p
  let crit := error && l.any fun r => r.2.armed && rfCrit r.2.n
  let s := if crit then s.modFront fun f => { f with hold := true, latched := f.latched ||| 2#4 } else s
  l.foldl (fun s e =>
    let s := (s.modReflex e.1 fun r => { r with armed := false, waiting := none }).mirrorOut (.disarm e.1)
    (s.endActivation e.1).closeActivation e.1) s

/-- The run of a program has completed: its completion is written, and what it held is free (R318, R35); entries of the program that
are armed are disarmed (R388). -/
def State.finishRun (s : State) (p : Nat) (r : Run) : State :=
  let tval := match r.ended with
    | some e => e.2.toNat
    | none => 0
  let r := { r with unstaked := r.unstaked + ((s.prog? p).map (·.unstaked)).getD 0 }
  let groups := s.front.groups.filter fun g => !(r.domain ≤ g.1 && g.1 < r.domain + r.domains)
  let s := (((s.disarmAll p false).forget p).modProg p fun g => { g with run := none, unstaked := 0 }).modFront fun f =>
    { f with groups := groups }
  ((s.completeRun p r stOk r.code tval).post 0 .admission)

/-- The next index of an admitted run has still to be issued. -/
def Run.hasMore (r : Run) : Bool := !r.gang && r.ended.isNone && r.next < r.count

/-- PROGRAM_COMPLETION (R318): nothing, until the program has ended and drained. -/
def execProgramCompletion (s : State) : Out := s.orWait <|
  match s.event with
  | .programCompletion p => .next (match s.prog? p with
    | none => s
    | some g => match g.run with
      | none => match g.error with
        | some _ =>
          let s := ((s.disarmAll p true).endAll p).dropContexts p
          if s.progDrained p then (s.forget p).modProg p fun g => { g with error := none } else s
        | none => s
      | some r =>
        let s := if r.ended.isSome then ((s.disarmAll p true).endAll p) else s
        let s := s.dropContexts p
        if r.admitted && !r.hasMore && s.progDrained p then s.finishRun p ((((s.prog? p).bind (·.run))).getD r) else s)
  | _ => .next s

end Sys2Proof.Machine
end

