-- ==== Sys2Proof/Machine/Loader.lean ====
section
/-! DEFINITION. Reading and writing memory on behalf of the front end, the loader of code objects (R79, R87-R90), and LAUNCH
(R418, R419). -/

namespace Sys2Proof.Machine

/-! ### Memory for the front end -/

/-- What a read or write of the front end comes to. -/
inductive Reached (α : Type) where
  | got (x : α) (s : State) | refused | unreadable

/-- A request of the front end leaves by the host or the peer port (R203, R219); `none` when the other side cannot be reached. -/
def State.sayAway (s : State) (sp off n : Nat) (op : MemOp) : Option State :=
  let e := s.spaceEntry sp
  let there := (e.2 + off) % 2 ^ 64
  if isHost sp then
    let i := s.drawn
    if Config.hostDown i.1 then none else some (i.2.modFront fun f => { f with hostOut := f.hostOut ++ [⟨there, n, op⟩] })
  else if !s.front.linkUp then none
  else
    let i := s.fresh
    some (i.2.sayPeer (.access i.1 (bits e.1 32 16) there n op))

/-- Read bytes of a space for a tenant; a window answers with what the other machine holds (R34, R203, R205, R206). -/
def State.rdAny (s : State) (sp tenant off n : Nat) : Reached (List Byte) :=
  let e := s.spaceEntry sp
  if !spaceValid e then .unreadable
  else if !s.spaceOk sp tenant then .refused
  else if isLocal sp then
    if onChip off then .unreadable
    else match s.rdVirtual sp off (sectorFuel n) n with
      | .ok (l, _, s) => .got l s
      | .error _ => .unreadable
  else if (windowCheck e .read (off + n - 1)).isSome then .unreadable
  else match s.sayAway sp off n .read with
    | none => .unreadable
    | some s =>
      let r := s.foreign (if isHost sp then Config.hostByte else Config.peerByte) n
      .got r.1 r.2

/-- Write bytes of a space for a tenant; a write under a window leaves the module. -/
def State.wrAny (s : State) (sp tenant off : Nat) (l : List Byte) : Reached Unit :=
  let e := s.spaceEntry sp
  if !spaceValid e then .unreadable
  else if !s.spaceOk sp tenant then .refused
  else if isLocal sp then
    if onChip off then .unreadable
    else match s.wrVirtual sp off (sectorFuel l.length) l with
      | .ok s => .got () s
      | .error _ => .unreadable
  else if (windowCheck e .write (off + l.length - 1)).isSome then .unreadable
  else match s.sayAway sp off l.length (.write l []) with
    | none => .unreadable
    | some s => .got () s

/-- Store bytes to DRAM from `a` under `key`, sector by sector. -/
def State.pokeRange (s : State) (a key : Nat) : Nat → List Byte → State
  | 0, _ => s
  | fuel + 1, l =>
    if l.isEmpty then s
    else
      let k := min l.length (32 - a % 32)
      (s.pokeDram a key (l.take k) []).pokeRange (a + k) key fuel (l.drop k)

/-! ### Tables and pages (R205, R207, R212, R88) -/

/-- A range of DRAM reads as zero. -/
def State.clearDram (s : State) (a len : Nat) : State :=
  { s with
    dram := zeroRange s.dram a len
    dramKey := s.dramKey.filter fun k => !(a / 32 ≤ k.1 && k.1 < (a + len) / 32)
    dramBad := s.dramBad.filter fun u => !(a / 8 ≤ u && u < (a + len) / 8) }

/-- The first of `n` frames from `f` on, a multiple of `al`, that keep out of the 1 MiB root table at `base`. -/
def skipTable (n al f base : Nat) : Nat :=
  if f * 2 ^ 16 < base + 2 ^ 20 ∧ base < (f + n) * 2 ^ 16 then roundUp (base / 2 ^ 16 + 16) al else f

/-- `n` frames of 64 KiB outside the root tables, the first a multiple of `al` frames; their DRAM reads as zero. -/
def State.newFrames (s : State) (n al : Nat) : Nat × State :=
  let d := bits s.front.droot.toNat 20 26 * 2 ^ 20
  let i := bits s.front.iroot.toNat 20 26 * 2 ^ 20
  let f := [d, i, d].foldl (skipTable n al) (roundUp s.front.frames al)
  (f * 2 ^ 16, (s.modFront fun r => { r with frames := f + n }).clearDram (f * 2 ^ 16) (n * 2 ^ 16))

/-- Frames that the loader may use: those of the 128 GiB below the waiter pages of notes/assumptions/52.md (R3, R330). -/
def frameLimit : Nat := waiterTable 0 / 2 ^ 16

/-- Write an 8-byte table entry. -/
def State.setEntry (s : State) (a v : Nat) : State := s.pokeDram a 0 (toBytes 8 v) []

/-- The table that the entry at `a` names, made when there is none; a leaf there becomes a table of leaves of `2 ^ b` bytes each that map
what it mapped. -/
def State.tableBelow (s : State) (a b : Nat) : Nat × State :=
  let e := s.entry8 a
  if bit e 0 && !bit e 1 then (bits e 16 30 * 2 ^ 16, s)
  else
    let f := s.newFrames 1 1
    let leaves := (List.range 8192).flatMap fun i => toBytes 8 (e + i * 2 ^ b)
    (f.1, (if bit e 0 then f.2.pokeRange f.1 0 2048 leaves else f.2).setEntry a (f.1 + 1))

/-- Map the 64 KiB page of `off` in a local space (R88): what was mapped there keeps its frame, and translations cached of the page are
dropped. -/
def State.mapPage (s : State) (sp off key : Nat) (wr : Bool) : State :=
  let root := bits (s.spaceEntry sp).1 16 30 * 2 ^ 16
  let t1 := s.tableBelow (root + 8 * bits off 55 9) 42
  let t2 := t1.2.tableBelow (t1.1 + 8 * bits off 42 13) 29
  let t3 := t2.2.tableBelow (t2.1 + 8 * bits off 29 13) 16
  let a := t3.1 + 8 * bits off 16 13
  let e := t3.2.entry8 a
  let f := if bit e 0 then (bits e 16 30 * 2 ^ 16, t3.2) else t3.2.newFrames 1 1
  let s := f.2.setEntry a (key * 2 ^ 56 + f.1 + 0x20 + (if wr then 8 else 0) + 4 + 2 + 1)
  { s with homes := s.homes.map fun h => (h.1, { h.2 with tlb := h.2.tlb.filter fun t => !(t.space == sp && t.page ≤ off && off < t.page + t.size) }) }

/-- Map the 2 MiB page of `off` in the instruction space of program `p` (R88, R212). -/
def State.mapText (s : State) (p off key : Nat) : State :=
  let root := bits s.front.iroot.toNat 20 26 * 2 ^ 20 + 16 * p
  let a0 := bits (s.entry8 root) 13 33 * 2 ^ 13 + 8 * bits off 30 10
  let t := s.tableBelow a0 21
  let a1 := t.1 + 8 * bits off 21 9
  if bit (t.2.entry8 a1) 0 then t.2
  else
    let f := t.2.newFrames 32 32
    f.2.setEntry a1 (key * 2 ^ 56 + f.1 + 0x20 + 4 + 2 + 1)

/-- Store section bytes through the leaves of a space, whatever they permit. -/
def State.pokeSpace (s : State) (sp off : Nat) : Nat → List Byte → State
  | 0, _ => s
  | fuel + 1, l =>
    if l.isEmpty then s
    else
      let k := min l.length (32 - off % 32)
      let s := match s.walk sp off with
        | .leaf t => s.wrSlice (s.homeOf sp off) t off (l.take k) [] none
        | .fail _ => s
      s.pokeSpace sp (off + k) fuel (l.drop k)

/-- Pages of `2 ^ b` bytes that a range occupies. -/
def pagesOf (off n b : Nat) : List Nat :=
  if n = 0 then [] else (List.range ((off + n - 1) / 2 ^ b + 1 - off / 2 ^ b)).map fun i => (off / 2 ^ b + i) * 2 ^ b

/-- Create a local space for a tenant: its entry and an empty level-0 table (R205). -/
def State.makeSpace (s : State) (sp tenant : Nat) : State :=
  let f := s.newFrames 1 1
  f.2.setEntry (bits s.front.droot.toNat 20 26 * 2 ^ 20 + 16 * sp) (2 ^ 63 + tenant * 2 ^ 48 + f.1)

/-- Create the instruction space of a program (R212). -/
def State.makeRoot (s : State) (p tenant : Nat) : State :=
  let f := s.newFrames 1 1
  f.2.setEntry (bits s.front.iroot.toNat 20 26 * 2 ^ 20 + 16 * p) (2 ^ 63 + tenant * 2 ^ 48 + f.1)

/-! ### Code objects (R87-R90) -/

/-- A code object as loaded from memory: its bytes. -/
abbrev Obj := List Byte

def ofield (o : Obj) (off n : Nat) : Nat := ofBytes ((o.drop off).take n)

/-- A section table entry (R88). -/
structure Section where
  kind : Nat
  log : Nat
  load : Nat
  size : Nat
  file : Nat
  deriving DecidableEq, Repr

def sectionAt (o : Obj) (i : Nat) : Section :=
  let a := ofield o 0x14 4 + 32 * i
  { kind := ofield o (a + 4) 1, log := ofield o (a + 5) 1, load := ofield o (a + 8) 8, size := ofield o (a + 0x10) 8
    file := ofield o (a + 0x18) 8 }

def sectionsOf (o : Obj) : List Section := (List.range (ofield o 0x10 4)).map (sectionAt o)

/-- The limits of R87 on the header. -/
def objHeaderOk (o : Obj) : Bool :=
  let n := o.length
  let table (off count size : Nat) : Bool := count == 0 || off + count * size ≤ n
  64 ≤ n && ofield o 0 4 == 0x4F5A4A54 && ofield o 4 2 == 1 && ofield o 8 8 % 8 == 0 && ofield o 8 8 < 2 ^ 40 &&
  1 ≤ ofield o 0x10 4 && ofield o 0x10 4 ≤ 64 && ofield o 0x18 4 ≤ 256 && ofield o 0x20 4 ≤ 256 && ofield o 0x30 8 % 16 == 0 &&
  ofield o 0x38 8 == 0 && table (ofield o 0x14 4) (ofield o 0x10 4) 32 && table (ofield o 0x1C 4) (ofield o 0x18 4) 288 &&
  table (ofield o 0x24 4) (ofield o 0x20 4) 16 && ofield o 0x28 4 + ofield o 0x2C 4 ≤ n

/-- The limits of R85 and R88 on a section; a text section's alignment is a matter of LAYOUT. -/
def sectionOk (o : Obj) (i : Nat) : Bool :=
  let a := ofield o 0x14 4 + 32 * i
  let x := sectionAt o i
  x.kind ≤ 5 && x.log ≤ 21 && ofield o (a + 6) 2 == 0 &&
  (if x.kind == 3 then x.file == 0 else x.file + x.size ≤ o.length) &&
  (if x.kind == 0 then x.load + x.size ≤ 2 ^ 40
   else if x.kind == 4 then
    bits x.load 0 16 % 32 == 0 && bits x.load 0 16 + x.size ≤ 0xC000 && bits x.load 25 7 == 0 && bits x.load 41 23 == 0 &&
    bits x.load 16 9 ≤ bits x.load 32 9 && 32 ≤ x.size &&
    (let c := ofield o (x.file + 0x10) 2
     1 ≤ c && c ≤ 256 && 32 + 16 * c ≤ x.size)
   else x.load + x.size ≤ 0xFF00000000000000)

/-- The limits of R89 on a task descriptor. -/
def taskOk (o : Obj) (i : Nat) : Bool :=
  let a := ofield o 0x1C 4 + 288 * i
  ofield o (a + 4) 2 ≤ 8 && ofield o (a + 6) 2 ≤ 8 && ofield o (a + 0x110) 16 == 0 && ofield o (a + 8) 8 < 2 ^ 40

def taskAt (o : Obj) (i : Nat) : TaskDesc :=
  let a := ofield o 0x1C 4 + 288 * i
  let ranges (b n : Nat) : List (Nat × Nat) := (List.range n).map fun j => (ofield o (b + 16 * j) 8, ofield o (b + 16 * j + 8) 8)
  { entry := ofield o (a + 8) 8, reads := ranges (a + 0x10) (ofield o (a + 4) 2), writes := ranges (a + 0x90) (ofield o (a + 6) 2) }

/-- A slot declaration: size and readers (R90). -/
def slotAt (o : Obj) (i : Nat) : Nat × Nat :=
  let a := ofield o 0x24 4 + 16 * i
  (ofield o (a + 4) 4, ofield o (a + 8) 1)

def slotOk (o : Obj) (i : Nat) : Bool :=
  let a := ofield o 0x24 4 + 16 * i
  let d := slotAt o i
  (List.range 11).any (fun k => d.1 == 2 ^ (6 + k)) && 1 ≤ d.2 && d.2 ≤ 4 && ofield o (a + 9) 7 == 0

/-- Every limit of R87-R90. -/
def objectOk (o : Obj) : Bool :=
  objHeaderOk o && (List.range (ofield o 0x10 4)).all (sectionOk o) && (List.range (ofield o 0x18 4)).all (taskOk o) &&
  (List.range (ofield o 0x20 4)).all (slotOk o)

/-- LAYOUT (R88): a text section off its 8-byte boundary. -/
def layoutOk (o : Obj) : Bool := (sectionsOf o).all fun x => x.kind != 0 || x.load % 8 == 0

/-- The plan tables of a code object (R85, R88). -/
def plansOf (o : Obj) : List Plan :=
  ((sectionsOf o).filter fun x => x.kind == 4).map fun x =>
    { tcm := bits x.load 0 16, first := bits x.load 16 9, last := bits x.load 32 9, data := (o.drop x.file).take x.size }

/-- Clusters that plan tables name, ascending; where they are as many as the ranks need, the gang of the tables. -/
def planClusters (l : List Plan) : Option (List Nat) :=
  let named := l.flatMap fun p => (List.range p.count).map fun e => clusterOf (p.f (0x20 + 16 * e + 4) 2)
  let c := (List.range 32).filter named.contains
  let n := (l.foldl (fun m p => max m (p.last + 1)) 0 + 15) / 16
  if c.length = n then some c else none

/-- The plan check of R296 at load, where the tables tell the gang's clusters. -/
def plansOk (l : List Plan) : Bool := match planClusters l with
  | some c => (planLinks l c).isSome
  | none => true

/-! ### LXM slots (R90, R311) -/

/-- Bytes that the buffers of a slot take. -/
def slotBytes (size readers : Nat) : Nat := size * (readers + 2)

/-- LXM bytes in use. -/
def State.lxmUsed (s : State) : Nat := s.lxm.foldl (fun n l => n + slotBytes l.2.size l.2.readers) 0

/-- The lowest slot number without a slot. -/
def State.freeSlot (s : State) : Option Nat := (List.range 256).find? fun n => (mget s.lxm n).isNone

/-- Declare slots for program `p`: their numbers, or none when they do not fit (R90). -/
def State.declareSlots (s : State) (p : Nat) : List (Nat × Nat) → Option (List Nat × State)
  | [] => some ([], s)
  | d :: l => match s.freeSlot with
    | none => none
    | some n =>
      if 0x400000 < s.lxmUsed + slotBytes d.1 d.2 then none
      else
        let s : State := { s with lxm := mset s.lxm n { size := d.1, readers := d.2, owner := p } }
        (s.declareSlots p l).map fun r => (n :: r.1, r.2)

/-! ### LOAD (R79, R87, R88, R418) -/

/-- The decode table that the front end loads by: the datum pair's (R79, R424). -/
def State.loaderTable (s : State) : Nat := (s.core (coreId 62 0)).table

/-- Load one section other than a plan (R88). Where two sections share a 64 KiB page, the page has the write permission of the section loaded
later (DESIGN CHOICE, notes/assumptions/105.md). -/
def State.loadSection (s : State) (p sp tenant : Nat) (o : Obj) (x : Section) : State :=
  let data := (o.drop x.file).take x.size
  let store (wr : Bool) (l : List Byte) : State :=
    let s := (pagesOf x.load x.size 16).foldl (fun s a => s.mapPage sp a tenant wr) s
    s.pokeSpace sp x.load (sectorFuel l.length) l
  match x.kind with
  | 0 =>
    let s := (pagesOf x.load x.size 21).foldl (fun s a => s.mapText p a tenant) s
    (pagesOf x.load x.size 21).foldl (fun s a => match s.walkInstr p a with
      | .leaf t =>
        let lo := max a x.load
        let l := ((data.drop (lo - x.load)).take (a + 2 ^ 21 - lo))
        s.pokeRange (t.frame + (lo - a)) tenant (sectorFuel l.length) l
      | .fail _ => s) s
  | 2 => store false data
  | 3 => store true (toBytes x.size 0)
  | 4 => s
  | _ => store true data

/-- The lowest program number that is free. -/
def State.newProg (s : State) : Option Nat := (List.range' 1 0xFFFF).find? fun p => (mget s.front.progs p).isNone

/-- The lowest local space that does not exist. -/
def State.newSpace (s : State) : Option Nat := (List.range' 1 0xFEFF).find? fun n => !spaceValid (s.spaceEntry n)

/-- The program's data space: the local space that holds the code object, or a new one when that lies beyond a window. -/
def State.dataSpace (s : State) (sp tenant : Nat) : Option (Nat × Nat × State) :=
  if isLocal sp then some (sp, spaceTenant (s.spaceEntry sp), s)
  else (s.newSpace).map fun n => (n, tenant, s.makeSpace n tenant)

/-- The relocations that name a slot receive its number (R85, R90). -/
def bindSlots (o : Obj) (slots : List Nat) : Obj :=
  (Config.slotRelocs (ofBytes o)).foldl (fun l r =>
    let n := min r.2.1.val (l.length - r.1)
    l.take r.1 ++ toBytes n (slots.getD r.2.2 0) ++ l.drop (r.1 + n)) o

/-- Load a well-formed code object (R79, R87-R90): its program number, or the code of R420. Where several checks fail, the model reports
the first in the order of the text below (DESIGN CHOICE, notes/assumptions/56.md). -/
def State.loadObject (s : State) (o : Obj) (sp tenant : Nat) : Except Nat (Nat × State) :=
  let profile := ofield o 6 2
  let t := s.loaderTable
  let plans := plansOf o
  if Config.tableHighest t < profile then .error bUnsupported
  else if profile < Config.tableMandatory t then .error bRetired
  else if !layoutOk o then .error bLayout
  else if !plansOk plans then .error bPlanConflict
  else match s.newProg, s.dataSpace sp tenant with
    | some p, some (space, owner, s) =>
      match s.declareSlots p ((List.range (ofield o 0x20 4)).map (slotAt o)) with
      | none => .error bLxmFull
      | some (slots, s) =>
        let secs := sectionsOf o
        let o := bindSlots o slots
        let text := secs.filter fun x => x.kind == 0
        let s := secs.foldl (fun s x => s.loadSection p space owner o x) (s.makeRoot p owner)
        let g : Prog :=
          { tenant := owner, space := space, profile := profile, entry := ofield o 8 8, stack := ofield o 0x30 8
            text := text.map fun x => (x.load, x.size)
            image := text.foldl (fun m x => wrBlock m x.load ((o.drop x.file).take x.size)) []
            tasks := (List.range (ofield o 0x18 4)).map (taskAt o), plans := plansOf o, slots := slots }
        if frameLimit < s.front.frames then .error bMalformed else .ok (p, s.modFront fun f => { f with progs := mset f.progs p g })
    | _, _ => .error bMalformed

/-- LOAD (R418). -/
def execLoad (s : State) : Out := s.orWait <|
  match s.event with
  | .load p => .next (
    let off := field p 0x20 8
    let sp := field p 0x28 2
    let n := field p 0x30 8
    match s.rdAny sp p.tenant off n with
    | .refused => s.completePkt p stRefused 0 0 0
    | .unreadable => s.completePkt p stInvalid 0 bMalformed 0
    | .got o s =>
      if !objectOk o then s.completePkt p stInvalid 0 bMalformed 0
      else match s.loadObject o sp p.tenant with
        | .error c => s.completePkt p stInvalid 0 c 0
        | .ok (n, s) => s.completePkt p stOk n 0 0)
  | _ => .next s

/-! ### LAUNCH (R418, R419) -/

/-- The check of R70 on an entry that a task descriptor or a schedule entry gives (R64): a bundle, or word 1 of a serial bundle. -/
def Prog.entryOk (g : Prog) (a : Nat) : Bool :=
  let w := rdN g.image (a - 4) 4
  a % 8 == 0 || (a % 8 == 4 && bit w 31 && !isWideCode (BitVec.ofNat 27 w))

/-- The limits of R419 on a launch record, with the check of R70 on the entry of the task descriptor that it names: the model makes it here
(DESIGN CHOICE, notes/assumptions/57.md). -/
def launchOk (p : Packet) (g : Prog) : Bool :=
  let kind := field p 0x22 1
  let flags := field p 0x23 1
  let n := field p 0x24 4
  let w0 := field p 0x30 8
  let w1 := field p 0x38 8
  let b := bits w0 50 6
  let c := bits w1 49 7
  let grp := bit w0 56
  kind ≤ 1 && bits flags 3 5 == 0 && bits w0 32 2 == 0 && bits w0 57 7 == 0 && bits w1 56 8 == 0 && bits w1 0 3 == 0 && c ≤ 64 && b + c ≤ 64 &&
  (if kind == 0 then bits flags 1 2 == 0 && 1 ≤ n && (!grp || 1 ≤ c) && (!bit w1 48 || (g.tasks[bits w1 40 8]?).any fun d => g.entryOk d.entry)
   else 1 ≤ n && n ≤ (if bit flags 2 then 14 else 32) && 1 ≤ c && !grp)

/-- The run that a launch record describes (R419); a paired gang has rollback always (R399). -/
def runOf (p : Packet) (g : Prog) (order : Nat) : Run :=
  let flags := field p 0x23 1
  let w0 := field p 0x30 8
  let w1 := field p 0x38 8
  let gang := field p 0x22 1 == 1
  let d := if !gang && bit w1 48 then g.tasks[bits w1 40 8]? else none
  { gang := gang, latency := bit flags 0, rollback := bit flags 1 || bit flags 2, paired := bit flags 2, count := field p 0x24 4
    count0 := field p 0x24 4, arg := BitVec.ofNat 64 (field p 0x28 8)
    clusterMask := BitVec.ofNat 32 w0, coreMask := BitVec.ofNat 16 (w0 / 2 ^ 34), domain := bits w0 50 6, domains := bits w1 49 7
    grouped := bit w0 56, tvec := BitVec.ofNat 40 w1
    entry := (d.map (·.entry)).getD g.entry, reads := (d.map (·.reads)).getD [], writes := (d.map (·.writes)).getD []
    window := windowOf p, seq := seqOf p, opcode := opcodeOf p, order := order }

/-- Clusters that the launch record allows: work waits for those that the standby mask now holds (R397). -/
def Run.maskClusters (r : Run) : List Nat := (List.range 32).filter r.clusterMask.getLsbD

/-- The plan of a gang whose mask leaves one placement is refused at once (R296). -/
def Run.planOk (r : Run) (g : Prog) : Bool :=
  let l := r.maskClusters
  if r.gang && !r.paired && l.length == r.count then (planLinks g.plans l).isSome else true

/-- LAUNCH (R418, R419). -/
def execLaunch (s : State) : Out := s.orWait <|
  match s.event with
  | .launch p => .next (
    let n := field p 0x20 2
    match s.prog? n with
    | none => s.completePkt p stInvalid 0 bMalformed 0
    | some g =>
      let r := runOf p g s.front.orders
      if p.tenant != 0 && p.tenant != g.tenant then s.completePkt p stRefused 0 0 0
      else if g.run.isSome then s.completePkt p stBusy 0 0 0
      else if !launchOk p g then s.completePkt p stInvalid 0 bMalformed 0
      else if r.paired && !pairExists r.maskClusters.contains r.count [] then s.completePkt p stRefused 0 bNoPlacement 0
      else if !r.planOk g then s.completePkt p stInvalid 0 bPlanConflict 0
      else
        let s := (s.modProg n fun g => { g with run := some r }).modFront fun f => { f with orders := f.orders + 1 }
        let s := s.modFront fun f => if r.latency then { f with latQueue := f.latQueue ++ [n] } else { f with bulkQueue := f.bulkQueue ++ [n] }
        s.post 0 .admission)
  | _ => .next s

end Sys2Proof.Machine
end

