-- ==== Sys2Proof/Machine/Host.lean ====
section
/-! DEFINITION. What the host does: queue windows (R414), LXM slots (R415), BAR2 (R416), registers (R412, R413); the chain cores
(R34, R417, R421) and the commands of R418 other than LOAD, LAUNCH, ARM, DISARM and UPDATE. -/

namespace Sys2Proof.Machine

/-! ### Registers that the host reads (R412, R413) -/

/-- The host port answers: the module has booted and PERST_N is high (R422, R429). -/
def State.hostUp (s : State) : Bool := (s.front.boot == 5 || s.front.boot == 6) && s.front.pins.perstN

/-- HCAUSE (R389, R413): the first and fourth bit are states, the second and third are latched. -/
def State.hcause (s : State) : Nat :=
  (if s.critMissed then 1 else 0) + (s.front.latched.toNat / 2 % 4) * 2 + (if s.front.boot = 6 then 8 else 0)

/-- A global register, as a host read of 8 bytes at `off` returns it (R413); reserved ranges read 0. REV is "per die": this die is of
stepping A0, and reads 0x0000 (DESIGN CHOICE, notes/assumptions/58.md). -/
def State.globalReg (s : State) (off : Nat) : Nat :=
  let b (x : Bool) (i : Nat) : Nat := if x then 2 ^ i else 0
  match off with
  | 0x0000 => 0x8128 * 2 ^ 16
  | 0x0008 => s.front.boot + s.front.bootSlot * 2 ^ 8
  | 0x0010 => s.meridianNow % 2 ^ 64
  | 0x0018 => s.front.epoch % 2 ^ 32 + b s.front.active 32 + b s.front.isolated 33
  | 0x0020 => b s.front.hold 0 + s.hcause * 2 ^ 8
  | 0x0028 => s.front.pwr.toNat + s.front.cap % 2 ^ 16 * 2 ^ 16
  | _ => 0

/-- The error counter at BAR0 offset 0x1_0000 + 64u + 4k: the snapshot written last (R413). -/
def State.hostCounter (s : State) (u k : Nat) : Nat := (mget s.snapshot (16 * u + k)).getD 0

/-- Status of window `k` at 0xFF8 (R414). -/
def State.windowStatus (s : State) (k : Nat) : Nat :=
  match mget s.front.windows k with
  | none => 0
  | some w =>
    let h := s.placeOfWindow w
    let t := s.keyTenant h.2
    let stored := queueOf w.qcb h.2 t (((s.rdStore h.2 t w.qcb 64).map (·.1)).getD [])
    let q := ((s.home h.1).queue? w.qcb h.2 t).getD stored
    let bad := match s.activate h.1 w.qcb h.2 with
      | .ok _ => false
      | .error _ => true
    q.free % 2 ^ 32 + w.drops * 2 ^ 32 + (if bad then 2 ^ 48 else 0) + (if q.closed then 2 ^ 49 else 0)

/-- A read-only register of BAR0: a global register, or a counter of the snapshot (R413). -/
def readOnlyAt (off : Nat) : Bool := off < 0x30 || (0x10000 ≤ off && off < 0x20000)

/-- HOST_REGISTER_WRITE (R6, R412, R413): a write to a read-only register is ignored, one to a reserved range counted. -/
def execHostRegisterWrite (s : State) : Out :=
  .next (match s.event with
    | .hostRegisterWrite off _ => if s.hostUp && !readOnlyAt off then s.countHost else s
    | _ => s)

/-! ### Queue windows (R414) -/

/-- HOST_QUEUE_ENQUEUE (R414): a write in a window; at 0x000 it is ENQT at system scope, elsewhere dropped and counted. -/
def execHostQueueEnqueue (s : State) : Out := s.orWait <|
  .next (match s.event with
    | .hostQueueEnqueue k off data => if !s.hostUp then s else if off = 0 then s.toWindow k data else s.countHost
    | _ => s)

/-- An element of a queue goes to the host; that of a mirrored queue once the spare has acknowledged the operation (R405). -/
def State.toHost (s : State) (multi : Bool) (l : List Byte) : State :=
  if multi && s.front.mirroring && s.front.active then s.modFront fun f => { f with hostHeld := f.hostHeld ++ [(f.mirrorSeq, l)] }
  else s.modFront fun f => { f with hostRead := l }

/-- A read at 0x800 of a window (R414): DEQT; an empty queue returns every byte 0xFF. -/
def State.fromWindow (s : State) (k size : Nat) : State :=
  let answer (s : State) (l : List Byte) : State := s.modFront fun f => { f with hostRead := l }
  let none_ : List Byte := List.replicate size 0xFF
  match mget s.front.windows k with
  | none => answer s.countHost (toBytes size 0)
  | some w =>
    let h := s.placeOfWindow w
    match s.activate h.1 w.qcb h.2 with
    | .ok (q, s) =>
      if q.elem != size then answer s.countHost (toBytes size 0)
      else match s.takeElem h.1 q with
        | .ok (some (l, s)) => s.toHost q.multi l
        | .ok none => answer s none_
        | .error (.corrupt s) => answer s none_
        | .error (.poisoned s) => answer s none_
        | .error .table => answer s none_
    | .error (.corrupt s) => answer s none_
    | .error (.poisoned s) => answer s none_
    | .error .table => answer s none_

/-- A host read of `size` bytes at `off` in window `k` (R414): DEQT at 0x800, the status at 0xFF8; another read returns 0 and is counted. -/
def State.readWindow (s : State) (k off size : Nat) : State :=
  let answer (s : State) (l : List Byte) : State := s.modFront fun f => { f with hostRead := l }
  if off = 0x800 then s.fromWindow k size
  else if off = 0xFF8 && size = 8 && (mget s.front.windows k).isSome then answer s (toBytes 8 (s.windowStatus k))
  else answer s.countHost (toBytes size 0)

/-- HOST_QUEUE_DEQUEUE (R414). -/
def execHostQueueDequeue (s : State) : Out := s.orWait <|
  .next (match s.event with
    | .hostQueueDequeue k off size => if s.hostUp then s.readWindow k off size else s
    | _ => s)

/-! ### LXM slots from the host (R415) -/

/-- Control of a slot: version, timestamp, epoch and status after the 8 bytes of control. -/
def slotControl (x : Buffer) (status : Nat) : List Byte :=
  toBytes 8 0 ++ toBytes 8 x.version ++ toBytes 8 x.time ++ toBytes 4 x.epoch ++ toBytes 4 status

/-- The host's latch on a slot is released. -/
def State.unlatch (s : State) (n : Nat) : State :=
  match (mget s.lxm n).bind (·.hostLatch) with
  | some b => (s.modBuffer n b fun x => { x with readers := x.readers - 1 }).modSlot n fun l => { l with hostLatch := none }
  | none => s

/-- A host read of control latches the newest complete buffer (R415). -/
def State.latchSlot (s : State) (n : Nat) : State :=
  let s := s.unlatch n
  let set (s : State) (st : Nat) : State := s.modSlot n fun l => { l with hostStatus := st }
  match mget s.lxm n with
  | none => s
  | some l => match l.pick none with
    | none => set s 3
    | some b =>
      if l.readers ≤ l.reads then set s 5
      else set ((s.modBuffer n b fun x => { x with readers := x.readers + 1 }).modSlot n fun l => { l with hostLatch := some b }) 0

/-- What the host reads of control and of the data window (R415). -/
def State.slotView (s : State) (n : Nat) : List Byte × List Byte :=
  match mget s.lxm n with
  | none => (slotControl {} 6, [])
  | some l => match l.hostLatch with
    | some b => (slotControl (l.buffer b) l.hostStatus, rdBytes (l.buffer b).data 0 l.size)
    | none => (slotControl {} l.hostStatus, toBytes l.size 0)

/-- The byte that a host read finds at offset `off` of BAR0 (R412): global registers, the counter snapshot, slot controls, the status words
of the queue windows and slot data; the Xegar region answers the peer port alone, and a reserved range reads 0. What a read does besides
is HOST_SLOT_CONTROL_READ's and HOST_QUEUE_DEQUEUE's. -/
def State.bar0Byte (s : State) (off : Nat) : Byte :=
  if off < 0x10000 then BitVec.ofNat 8 (bits (s.globalReg (off / 8 * 8)) (8 * (off % 8)) 8)
  else if off < 0x20000 then
    BitVec.ofNat 8 (bits (s.hostCounter ((off - 0x10000) / 64) (off % 64 / 4)) (8 * (off % 4)) 8)
  else if off < 0x22000 then (s.slotView ((off - 0x20000) / 32)).1.getD (off % 32) 0
  else if off < 0x100000 then 0
  else if off < 0x200000 then
    if off % 0x1000 < 0xFF8 then 0 else BitVec.ofNat 8 (bits (s.windowStatus ((off - 0x100000) / 0x1000)) (8 * (off % 8)) 8)
  else if off < 0x1000000 then 0
  else if off < 0x2000000 then (s.slotView ((off - 0x1000000) / 0x10000)).2.getD (off % 0x10000) 0
  else 0

/-- What a host read of `n` bytes at `off` in BAR0 returns (R412). -/
def State.bar0Read (s : State) (off n : Nat) : List Byte := (List.range n).map fun i => s.bar0Byte (off + i)

/-- Until BOOT_STATUS reads READY, the configuration space answers with Configuration Request Retry Status (R410). -/
def State.configRetry (s : State) : Bool := s.front.boot != 5 && s.front.boot != 6

/-- HOST_SLOT_CONTROL_READ (R415). -/
def execHostSlotControlRead (s : State) : Out :=
  .next (match s.event with
    | .hostSlotControlRead n =>
      if !s.hostUp then s
      else
        let s := s.latchSlot n
        let v := s.slotView n
        s.modFront fun f => { f with hostRead := v.1 }
    | _ => s)

/-- A data-window write (R415): the first after a commit claims a buffer. -/
def State.writeSlot (s : State) (n off : Nat) (data : List Byte) : State :=
  match mget s.lxm n with
  | none => s.countHost
  | some l =>
    if l.size < off + data.length then s.countHost
    else
      let put (s : State) (b : Nat) : State := s.modBuffer n b fun x => { x with data := wrBlock x.data off data }
      match l.hostClaim with
      | some b => put s b
      | none => match l.claim with
        | some b =>
          let s := s.modSlot n fun l => { l with writing := some b, hostClaim := some b }
          put (s.modBuffer n b fun x => { x with complete := false, bad := [] }) b
        | none => s.modSlot n fun l => { l with hostStatus := 4 }

/-- HOST_SLOT_DATA_WRITE (R415). -/
def execHostSlotDataWrite (s : State) : Out :=
  .next (match s.event with
    | .hostSlotDataWrite n off data => if s.hostUp then s.writeSlot n off data else s
    | _ => s)

/-- Commit the host's claimed buffer as XMPUB does, with timestamp `t`, or the meridian time for 0 (R415). -/
def State.hostCommit (s : State) (n t : Nat) : State :=
  match mget s.lxm n with
  | none => s
  | some l => match l.hostClaim with
    | some b => (s.commitSlot n b (if t = 0 then s.meridianNow else t)).modSlot n fun l => { l with hostClaim := none, hostStatus := 0 }
    | none => s.modSlot n fun l => { l with hostStatus := 4 }

/-- HOST_SLOT_COMMIT (R415): a write of a value other than 0 to control. -/
def execHostSlotCommit (s : State) : Out :=
  .next (match s.event with
    | .hostSlotCommit n t => if s.hostUp then s.hostCommit n t.toNat else s
    | _ => s)

/-- HOST_SLOT_RELEASE (R415): a write of 0 to control ends the latch, and commits what has been claimed. -/
def execHostSlotRelease (s : State) : Out :=
  .next (match s.event with
    | .hostSlotRelease n =>
      if !s.hostUp then s
      else
        let latched := ((mget s.lxm n).bind (·.hostLatch)).isSome
        let claimed := ((mget s.lxm n).bind (·.hostClaim)).isSome
        let s := s.unlatch n
        if claimed || !latched then s.hostCommit n 0 else s
    | _ => s)

/-! ### BAR2 (R416) -/

/-- Bytes of BAR2: the least of the sizes of R410 that holds the mapping (DEDUCED, notes/assumptions/103.md). -/
def State.bar2Size (s : State) : Nat :=
  let n := (s.front.bar2.map (·.length)).getD 0
  (((List.range 8).map fun i => 2 ^ (30 + i)).find? fun k => n ≤ k).getD (2 ^ 37)

/-- A host access through BAR2; a failed read is answered with Completer Abort, a failed write is dropped. -/
def State.bar2Access (s : State) (write : Bool) (off size : Nat) (data : List Byte) : State :=
  let answer (s : State) (l : List Byte) : State := if write then s else s.modFront fun f => { f with hostRead := l }
  match s.front.bar2 with
  | none => answer s.countHost []
  | some b =>
    let n := if write then data.length else size
    if b.length < off + n then answer s.countHost []
    else if write then match s.wrAny b.space b.tenant (b.offset + off) data with
      | .got _ s => s
      | _ => s.countHost
    else match s.rdAny b.space b.tenant (b.offset + off) size with
      | .got l s => answer s l
      | _ => answer s.countHost []

/-- HOST_BAR2_ACCESS (R416). -/
def execHostBar2Access (s : State) : Out := s.orWait <|
  .next (match s.event with
    | .hostBar2Access w off size data => if s.hostUp then s.bar2Access w off size data else s
    | _ => s)

/-! ### The chain cores (R34, R417) -/

/-- A packet's signal is read (R34): the word, or nothing when it cannot be read. -/
def State.signalValue (s : State) (p : Packet) : Option (Nat × State) :=
  match s.rdAny (field p 0x10 2) p.tenant (field p 8 8) 8 with
  | .got l s => some (ofBytes l, s)
  | _ => none

/-- The packet's condition on the signal (R34, R417). -/
def signalHolds (p : Packet) (v : Nat) : Bool :=
  if bit (field p 1 1) 1 then v == field p 0x18 8 else field p 0x18 8 ≤ v

/-- The event of a packet's opcode (R418). -/
def commandOf (p : Packet) : Option Event :=
  match opcodeOf p with
  | 1 => some (.load p)
  | 2 => some (.launch p)
  | 3 => some (.arm p)
  | 4 => some (.disarm p)
  | 5 => some (.signal p)
  | 6 => some (.mapq p)
  | 7 => some (.mapbar p)
  | 8 => some (.mapwin p)
  | 9 => some (.grant p)
  | 10 => some (.holdrel p)
  | 11 => some (if field p 0x21 1 = 0 then .tenantCreate p else .tenantDestroy p)
  | 12 => some (.attest p)
  | 13 => some (.cap p)
  | 14 => some (.update p)
  | 15 => some (.msix p)
  | _ => none

/-- An event of a watch (R427): count `i` of the canary, which returns to the old image. -/
def State.countCanary (s : State) (i : Nat) : State :=
  match s.front.update with
  | some u => (s.modFront fun f => { f with update := some { u with counts := u.counts.set i (u.counts.getD i 0 + 1) } }).post 0 .updateRevert
  | none => s

/-- Chain core 5 serves the packet's queue (R427). -/
def State.onCanary (s : State) (p : Packet) : Bool := s.front.update.any fun u => u.queues.contains p.window

/-- A packet that is not held goes to the datum pair; an unknown opcode completes with BADOP (R418, R421), a parse error of its chain core. -/
def State.runPacket (s : State) (p : Packet) : State :=
  match commandOf p with
  | some e => s.post (cyc 16) e
  | none => (if s.onCanary p then s.countCanary 3 else s).completePkt p stBadop 0 0 0

/-- A packet has been dequeued. -/
def State.take1 (s : State) (p : Packet) : State := s.modFront fun f => { f with dequeued := f.dequeued ++ [p] }

/-- A command queue that may be served now: not held, not being rebound (R34, R432). -/
def State.servable (s : State) (k : Nat) (w : Window) : Bool :=
  w.cmd && 0 < w.weight && (mget s.front.held k).isNone && w.rebind.isNone

/-- The packet at the head of window `k`, which stays in its queue. -/
def State.headOf (s : State) (k : Nat) (w : Window) : Option (Packet × State) :=
  let h := s.placeOfWindow w
  match s.activate h.1 w.qcb h.2 with
  | .ok (q, s) =>
    if q.elem != 64 || q.occupied == 0 then none
    else (s.rdStore q.storeSpace q.tenant (q.base + q.head * q.elem) q.elem).map fun r =>
      ({ window := k, tenant := w.tenant, body := BitVec.ofNat 512 (ofBytes r.1) }, r.2)
  | .error _ => none

/-- The packet at the head of window `k` leaves its queue. -/
def State.dropHead (s : State) (w : Window) : Option State :=
  let h := s.placeOfWindow w
  match s.activate h.1 w.qcb h.2 with
  | .ok (q, s) => match s.takeElem h.1 q with
    | .ok (some (_, s)) => some s
    | _ => none
  | .error _ => none

/-- Serve the head of window `k`: a packet leaves its queue and runs, or it is held there by its signal (R34); whether one has left. A
packet whose signal has held since is not held again. -/
def State.servePacket (s : State) (k : Nat) (w : Window) : State × Bool :=
  match s.headOf k w with
  | none => (s, false)
  | some (p, s) =>
    let leaves (s : State) (f : State → State) : State × Bool := match s.dropHead w with
      | some s => (f (((s.modFront fun r => { r with freed := mdel r.freed k }).modWindow k fun w => { w with served := w.served + 1 }).take1 p), true)
      | none => (s, false)
    if !bit (field p 1 1) 0 || mget s.front.freed k == some p then leaves s fun s => s.runPacket p
    else match s.signalValue p with
      | none => leaves s fun s => s.completePkt p stInvalid 0 bSignal 0
      | some (v, s) =>
        if signalHolds p v then leaves s fun s => s.runPacket p
        else ((s.modFront fun f => { f with held := mset f.held k p }).post (cyc 64) (.packetSignalRelease k), false)

/-- The first of these windows that yields a packet. -/
def State.firstPacket (s : State) : List (Nat × Window) → State × Bool
  | [] => (s, false)
  | (k, w) :: l =>
    let r := s.servePacket k w
    if r.2 then r else r.1.firstPacket l

/-- One packet of a class by weighted round-robin (R34): queues with a packet left in this round, else a new round. -/
def State.serveClass (s : State) (latency : Bool) : State × Bool :=
  let l := s.front.windows.filter fun w => s.servable w.1 w.2 && w.2.latency == latency
  let r := s.firstPacket (l.filter fun w => w.2.served < w.2.weight)
  if r.2 then r
  else
    let clear (w : Nat × Window) : Nat × Window := if w.2.latency = latency then (w.1, { w.2 with served := 0 }) else w
    let n := (r.1.modFront fun f => { f with windows := f.windows.map clear }).firstPacket (l.filter fun w => w.2.weight ≤ w.2.served)
    if n.2 then n else r

/-- COMMAND_DISPATCH (R34): a packet of the latency queues, else of the bulk queues; the chain cores look again 16 cycles later. -/
def execCommandDispatch (s : State) : Out := s.orWait <|
  .next (match s.event with
    | .commandDispatch =>
      if s.front.boot ≠ 5 then s
      else
        let r := s.serveClass true
        (if r.2 then r.1 else (r.1.serveClass false).1).post (cyc 16) .commandDispatch
    | _ => s)

/-- The signal of the packet at the head of window `k` is read again (R34): the packet is held on, or its queue may be served, strictly by
class. -/
def State.readSignal (s : State) (k : Nat) (w : Window) : State :=
  let unheld (s : State) : State := s.modFront fun f => { f with held := mdel f.held k }
  match s.headOf k w with
  | none => unheld s
  | some (p, s) => match s.signalValue p with
    | none => unheld s
    | some (v, s) =>
      if signalHolds p v then (unheld s).modFront fun f => { f with freed := mset f.freed k p }
      else (s.modFront fun f => { f with held := mset f.held k p }).post (cyc 64) (.packetSignalRelease k)

/-- PACKET_SIGNAL_RELEASE (R34): a held packet's signal is read again. -/
def execPacketSignalRelease (s : State) : Out := s.orWait <|
  .next (match s.event with
    | .packetSignalRelease k => match mget s.front.held k, mget s.front.windows k with
      | some _, some w => if s.front.boot ≠ 5 then s.post (cyc 64) s.event else s.readSignal k w
      | _, _ => s
    | _ => s)

/-! ### Commands (R418) -/

/-- SIGNAL (R418): the value is written with release at system scope. -/
def execSignal (s : State) : Out := s.orWait <|
  .next (match s.event with
    | .signal p => match s.wrAny (field p 0x28 2) p.tenant (field p 0x20 8) (toBytes 8 (field p 0x30 8)) with
      | .got _ s => s.completePkt p stOk 0 0 0
      | .refused => s.completePkt p stRefused 0 0 0
      | .unreadable => s.completePkt p stInvalid 0 bSignal 0
    | _ => s)

/-- The limits of R432 on a MAPQ body. -/
def mapqOk (p : Packet) : Bool :=
  let flags := field p 0x21 1
  bits flags 2 6 == 0 && field p 0x22 1 < 16 && field p 0x24 4 == 0 && field p 0x32 14 == 0 &&
  (bit flags 0 || (!bit flags 1 && field p 0x22 1 == 0)) && field p 0x28 8 % 64 == 0

/-- The space is another tenant's, and the packet may not name it (R206, R417). -/
def State.foreignSpace (s : State) (p : Packet) (sp : Nat) : Bool :=
  p.tenant != 0 && spaceValid (s.spaceEntry sp) && spaceTenant (s.spaceEntry sp) != p.tenant

/-- The window is bound for another tenant, and the packet may not name it (R417). -/
def State.foreignWindow (s : State) (p : Packet) (k : Nat) : Bool :=
  p.tenant != 0 && (mget s.front.windows k).any fun w => w.tenant != p.tenant

/-- MAPQ (R414, R432). -/
def execMapq (s : State) : Out := s.orWait <|
  .next (match s.event with
    | .mapq p =>
      let k := field p 0x20 1
      let sp := field p 0x30 2
      if !mapqOk p || !isLocal sp then s.completePkt p stInvalid 0 bMalformed 0
      else if p.tenant != 0 && field p 0x23 1 != p.tenant || s.foreignSpace p sp || s.foreignWindow p k then s.completePkt p stRefused 0 0 0
      else match mget s.front.windows k with
        | some _ => ((s.modWindow k fun w => { w with rebind := some (p.body, p.tenant) }).completePkt p stOk 0 0 0).tryRebind k
        | none =>
          let w : Window :=
            { qcb := field p 0x28 8, space := sp, tenant := field p 0x23 1, cmd := bit (field p 0x21 1) 0
              latency := bit (field p 0x21 1) 1, weight := field p 0x22 1 }
          (s.modFront fun f => { f with windows := mset f.windows k w }).completePkt p stOk 0 0 0
    | _ => s)

/-- MAPBAR (R416): in a BAR2 of at most 128 GiB (R410; DEDUCED, notes/assumptions/103.md), which another tenant does not hold (R417). -/
def execMapbar (s : State) : Out := s.orWait <|
  .next (match s.event with
    | .mapbar p =>
      let t := field p 0x2A 1
      if !isLocal (field p 0x28 2) || 2 ^ 37 < field p 0x30 8 then s.completePkt p stInvalid 0 0 0
      else if p.tenant != 0 && (t != p.tenant || s.front.bar2.any fun b => b.tenant != p.tenant) || s.foreignSpace p (field p 0x28 2) then
        s.completePkt p stRefused 0 0 0
      else
        let b : Bar2 := { space := field p 0x28 2, offset := field p 0x20 8, length := field p 0x30 8, tenant := t }
        (s.modFront fun f => { f with bar2 := some b }).completePkt p stOk 0 0 0
    | _ => s)

/-- The limits of R205 on a window descriptor. -/
def windowEntryOk (sp w0 w1 : Nat) : Bool :=
  !isLocal sp && sp < 2 ^ 16 && bits w0 56 5 == 0 && (!isHost sp || bits w0 32 16 == 0) && w1 % 2 ^ 16 == 0

/-- MAPWIN (R205): the descriptor of a host or peer window; translations cached under the window are dropped. -/
def execMapwin (s : State) : Out := s.orWait <|
  .next (match s.event with
    | .mapwin p =>
      let sp := field p 0x20 2
      let w0 := field p 0x28 8
      let w1 := field p 0x30 8
      if !windowEntryOk sp w0 w1 then s.completePkt p stInvalid 0 0 0
      else if p.tenant != 0 && bits w0 48 8 != p.tenant || s.foreignSpace p sp then s.completePkt p stRefused 0 0 0
      else
        let a := bits s.front.droot.toNat 20 26 * 2 ^ 20 + 16 * sp
        let s := (s.pokeDram a 0 (toBytes 8 w0) []).pokeDram (a + 8) 0 (toBytes 8 w1) []
        let s : State := { s with homes := s.homes.map fun h => (h.1, { h.2 with tlb := h.2.tlb.filter fun t => t.space != sp }) }
        s.completePkt p stOk 0 0 0
    | _ => s)

/-- Tenant of a program. -/
def State.progTenant (s : State) (p : Nat) : Option Nat := (s.prog? p).map (·.tenant)

/-- A packet may name objects of a tenant: its own, or any from a queue of tenant 0 (R206, R417). -/
def ownObject (p : Packet) (t : Option Nat) : Bool := p.tenant == 0 || t == some p.tenant

/-- GRANT (R311, R418). -/
def execGrant (s : State) : Out := s.orWait <|
  .next (match s.event with
    | .grant p =>
      let n := field p 0x20 2
      let g := field p 0x22 2
      match mget s.lxm n, s.prog? g with
      | some l, some q =>
        if !ownObject p (s.progTenant l.owner) || !ownObject p (some q.tenant) then s.completePkt p stRefused 0 0 0
        else
          let s := s.modSlot n fun l => { l with granted := g :: l.granted.filter (· != g), mirrored := l.mirrored || bit (field p 0x24 1) 0 }
          s.completePkt p stOk 0 0 0
      | _, _ => s.completePkt p stRefused 0 0 0
    | _ => s)

/-- HOLDREL (R389): refused while a state condition holds; else the latched events are cleared and HOLD_N is released. -/
def execHoldrel (s : State) : Out := s.orWait <|
  .next (match s.event with
    | .holdrel p =>
      if s.critMissed || s.front.boot = 6 then s.completePkt p stRefused 0 0 0
      else (s.modFront fun f => { f with hold := false, latched := 0 }).completePkt p stOk 0 0 0
    | _ => s)

/-- TENANT op 0 (R426): a new key, drawn inside the module. -/
def execTenantCreate (s : State) : Out := s.orWait <|
  .next (match s.event with
    | .tenantCreate p =>
      let t := field p 0x20 1
      if p.tenant ≠ 0 then s.completePkt p stRefused 0 0 0
      else if t = 0 ∨ (mget s.front.tenants t).isSome then s.completePkt p stInvalid 0 0 0
      else (s.modFront fun f => { f with keys := f.keys + 1, tenants := mset f.tenants t (f.keys + 1) }).completePkt p stOk 0 0 0
    | _ => s)

/-- A program of tenant `t` runs: a run, or an armed entry. -/
def State.tenantRuns (s : State) (t : Nat) : Bool :=
  s.front.progs.any fun g => g.2.tenant == t && (g.2.run.isSome || s.front.reflex.any fun r => rfProg r.2.n == g.1)

/-- TENANT op 1 (R426); another op is outside the command. -/
def execTenantDestroy (s : State) : Out := s.orWait <|
  .next (match s.event with
    | .tenantDestroy p =>
      let t := field p 0x20 1
      if p.tenant ≠ 0 then s.completePkt p stRefused 0 0 0
      else if field p 0x21 1 ≠ 1 ∨ t = 0 ∨ (mget s.front.tenants t).isNone then s.completePkt p stInvalid 0 0 0
      else if s.tenantRuns t then s.completePkt p stBusy 0 0 0
      else (s.modFront fun f => { f with tenants := mdel f.tenants t }).completePkt p stOk 0 0 0
    | _ => s)

/-- The report of R425 up to its signatures; DTVER has the generation of R77. -/
def State.reportHead (s : State) (nonce : Nat) : List Byte :=
  toBytes 32 nonce ++ toBytes 48 Config.keyDigest.toNat ++ toBytes 48 s.front.measure.toNat ++
  toBytes 4 (Config.securityVersion ((mget s.front.images 0).getD 0)) ++ toBytes 4 s.front.counter ++
  toBytes 4 (0x20000 + s.loaderTable % 2 ^ 16) ++ toBytes 4 s.front.epoch

/-- ATTEST (R425): the report goes to the host address. -/
def execAttest (s : State) : Out := s.orWait <|
  .next (match s.event with
    | .attest p =>
      let head := s.reportHead (field p 0x20 32)
      let n := ofBytes head
      let l := head ++ toBytes 64 (Config.ed25519 n).toNat ++ toBytes 3309 (Config.mlDsa65 n).toNat
      (s.modFront fun f => { f with report := some (field p 8 8, l) }).completePkt p stOk 0 0 0
    | _ => s)

/-- CAP (R428): from 90 W to 300 W in units of 0.1 W; while THERM_ALERT_N is low it takes effect when the pin rises. -/
def execCap (s : State) : Out := s.orWait <|
  .next (match s.event with
    | .cap p =>
      let v := field p 0x20 4
      if v < 900 ∨ 3000 < v then s.completePkt p stInvalid 0 0 0
      else (s.modFront fun f => match f.capBefore with
        | some _ => { f with capBefore := some v }
        | none => { f with cap := v }).completePkt p stOk 0 0 0
    | _ => s)

/-- MSIX (R418): events are routed to one of 64 vectors. -/
def execMsix (s : State) : Out := s.orWait <|
  .next (match s.event with
    | .msix p =>
      let v := field p 0x20 1
      if 64 ≤ v then s.completePkt p stInvalid 0 0 0
      else (s.modFront fun f => { f with msix := mset f.msix (field p 0x22 2) v }).completePkt p stOk 0 0 0
    | _ => s)

end Sys2Proof.Machine
end

