-- ==== Sys2Proof/Machine/Firmware.lean ====
section
/-! DEFINITION. Arming and disarming (R383-R385, R390), boot (R422-R424), updates (R427), recovery (R421), power and resets
(R428, R429), PTM (R155), the counter snapshot (R413), and the pair of modules (R404-R409). -/

namespace Sys2Proof.Machine

/-! ### Events for the host (R410, R418) -/

/-- Numbers of the events that raise an MSI-X vector (R408, R409). -/
def msiTakeover : Nat := 1
def msiIsolated : Nat := 2

/-- Raise the vector that an event is routed to. -/
def State.raiseMsi (s : State) (e : Nat) : State := s.modFront fun f => match mget f.msix e with
  | some v => { f with raised := f.raised ++ [v] }
  | none => f

/-! ### ARM and DISARM (R383-R385, R390) -/

/-- The limits of R383 on an entry. -/
def entryOk (n : Nat) : Bool :=
  let reflexCore (c : Nat) : Bool := isReflex c
  100000 ≤ rfPeriod n && rfPeriod n ≤ 100000000 && rfOffset n < rfPeriod n && 1 ≤ rfDeadline n && rfDeadline n ≤ rfPeriod n &&
  1 ≤ rfBudget n && rfEntry n < 2 ^ 40 && reflexCore (rfCore n) && (rfPair n || rfPartner n == 0) && bits n (8 * 0x2C + 3) 5 == 0 &&
  bits n (8 * 0x3F + 1) 7 == 0 && bits n (8 * 0x2D + 4) 4 == 0 && bits n (8 * 0x2E + 3) 5 == 0 && bits n (8 * 0x2F) 8 == 0 && bits n (8 * 0x33 + 4) 4 == 0 &&
  rfDomains n ≤ 16 && bits n (8 * 0x34 + 5) 3 == 0 && bits n (8 * 0x35) 24 == 0

/-- Two cores of one cluster are neighbours in its torus (R13). -/
def torusNear (a b : Nat) : Bool := clusterOf a == clusterOf b && (List.range 4).any fun p => neighbour a p == b

/-- CRIT needs PAIR, and the partner lies in the reflex array, elsewhere and not beside the core (R384). -/
def partnerOk (n : Nat) : Bool :=
  (!rfCrit n || rfPair n) && (!rfPair n || (isReflex (rfPartner n) && rfPartner n != rfCore n && !torusNear (rfCore n) (rfPartner n)))

/-- Bytes of a program's text image (R390). -/
def Prog.textBytes (g : Prog) : Nat := g.text.foldl (fun n x => n + x.2) 0

/-- The entries that are armed. -/
def State.armed (s : State) : List Nat := (s.front.reflex.filter fun r => r.2.armed).map fun r => r.2.n

/-- Another armed entry holds the bank of one of the cores (R384). -/
def State.bankHeld (s : State) (n : Nat) : Bool :=
  s.armed.any fun m => rfBank m == rfBank n && (rfCores n).any (rfCores m).contains

/-- The entries that are armed, and those disarmed whose activation still runs: these too hold their domains and their locked text. -/
def State.boundEntries (s : State) : List Nat := s.front.reflex.map fun r => r.2.n

/-- The reflex barrier domains of an entry are refused (R384); a count of 0 names none. -/
def State.domainsBad (s : State) (n : Nat) : Bool :=
  16 < rfDomain n + rfDomains n ||
  (s.armed.any fun m => rfProg m == rfProg n && (rfDomains m != rfDomains n || (0 < rfDomains n && rfDomain m != rfDomain n))) ||
  s.boundEntries.any fun m => rfProg m != rfProg n && 0 < rfDomains m && 0 < rfDomains n &&
    rfDomain m < rfDomain n + rfDomains n && rfDomain n < rfDomain m + rfDomains m

/-- Text locked in the caches of a core by the entries bound to it, with program `p` added (R384, R390). -/
def State.lockedText (s : State) (c p : Nat) : Nat :=
  let l := (p :: (s.boundEntries.filter fun m => (rfCores m).contains c).map rfProg).eraseDups
  l.foldl (fun n q => n + ((s.prog? q).map Prog.textBytes).getD 0) 0

/-- Firmware arms the entry (R384). -/
def State.mayArm (s : State) (n : Nat) : Bool :=
  entryOk n && partnerOk n && !s.bankHeld n && !s.domainsBad n && ((s.prog? (rfProg n)).any fun g => g.textBytes ≤ 0x4000 && g.tenant == rfTenant n && g.entryOk (rfEntry n)) &&
  (rfCores n).all fun c => s.lockedText c (rfProg n) ≤ 0x4000

/-- The entry as the table holds it: ARMED set, the other H fields kept beside it at 0. -/
def armedImage (n : Nat) : Line := BitVec.ofNat 512 (putBits (n % 2 ^ (8 * 0x38)) (8 * 0x3F) 1 1)

/-- Cores on which a program has entries. -/
def State.reflexCores (s : State) (p : Nat) : List Nat :=
  ((s.front.reflex.filter fun r => rfProg r.2.n == p).flatMap fun r => rfCores r.2.n).eraseDups

/-- Cores that a program's threads have staked. -/
def State.stakedOf (s : State) (p : Nat) : List Nat :=
  (s.cores.filter fun k => k.2.staked.any fun w => w.prog == p).map (·.1)

/-- Arm entry `e` (R385): the first release lies after the arming; the text is copied to the reflex store and locked, reach and region
maps are set, on the cores that the program has staked too (R160, R390). A core's region map is that of all the programs that have entries
on it (DEDUCED, notes/assumptions/99.md). -/
def State.armEntry (s : State) (e : Nat) (image : Line) (shadow : Bool) : State :=
  let n := image.toNat
  let p := rfProg n
  let t := s.meridianNow
  let j := if t < rfOffset n then 0 else (t - rfOffset n) / rfPeriod n + 1
  let r : Reflex := { image := armedImage n, armed := true, shadow := shadow, first := rfOffset n + j * rfPeriod n }
  let s := s.modFront fun f => { f with reflex := mset f.reflex e r }
  let all := s.reflexCores p
  let pads := (all.map clusterOf).eraseDups
  let s := match s.prog? p with
    | some g => (rfCores n).foldl (fun s c => s.lockText c p g) (s.copyText p g)
    | none => s
  let map : BitVec 512 := (Config.regionMap p).setWidth 512
  let staked := s.stakedOf p
  let s := all.foldl (fun (s : State) c => s.modCore c fun k => { k.addReach p (all ++ staked) pads with regions := k.regions ||| map }) s
  let s := staked.foldl (fun (s : State) c => s.modCore c fun k => { k.addReach p all [] with regions := k.regions ||| map }) s
  (s.postRelease e 0).mirrorOut (.arm e (armedImage n))

/-- The lowest entry that is free. -/
def State.freeEntry (s : State) : Option Nat := (List.range 64).find? fun e => (mget s.front.reflex e).isNone

/-- ARM (R384, R418): the packet names where the 64-byte image lies. -/
def execArm (s : State) : Out := s.orWait <|
  .next (match s.event with
    | .arm p => match s.rdAny (field p 0x28 2) p.tenant (field p 0x20 8) 64 with
      | .refused => s.completePkt p stRefused 0 0 0
      | .unreadable => s.completePkt p stInvalid 0 0 0
      | .got l s =>
        let n := ofBytes l
        if !ownObject p (some (rfTenant n)) || !s.mayArm n then s.completePkt p stRefused 0 0 0
        else match s.freeEntry with
          | none => s.completePkt p stRefused 0 0 0
          | some e => (s.armEntry e (BitVec.ofNat 512 n) false).completePkt p stOk e 0 0
    | _ => s)

/-- Disarm entry `e`: no later release; an activation that runs goes on, one that is to run again among them (R385, R396). -/
def State.disarmEntry (s : State) (e : Nat) : State :=
  ((s.modReflex e fun r => { r with armed := false, waiting := if r.reruns = 0 then none else r.waiting }).unbindIfDone e).mirrorOut (.disarm e)

/-- DISARM (R385, R418). -/
def execDisarm (s : State) : Out := s.orWait <|
  .next (match s.event with
    | .disarm p =>
      let e := field p 0x20 1
      match mget s.front.reflex e with
      | none => s.completePkt p stInvalid 0 0 0
      | some r => if !ownObject p (some (rfTenant r.n)) then s.completePkt p stRefused 0 0 0
        else (s.disarmEntry e).completePkt p stOk 0 0 0
    | _ => s)

/-! ### Boot (R422-R424) -/

/-- The image in a flash slot. -/
def State.flashOf (s : State) (slot : Nat) : Nat := (mget s.front.flash slot).getD (Config.flashImage slot)

/-- The slot that boots: A, else B; both tests must pass (R422). -/
def State.bootChoice (s : State) : Except Nat Nat :=
  let sig (k : Nat) : Bool := Config.signed (s.flashOf k)
  let ver (k : Nat) : Bool := s.front.counter ≤ Config.securityVersion (s.flashOf k)
  if sig 0 && ver 0 then .ok 0
  else if sig 1 && ver 1 then .ok 1
  else .error (if sig 0 && sig 1 then 0x81 else 0x80)

/-- SHA-384 of an image, blob or table, from its number. -/
def digest (image : Nat) : List Byte := sha384 (toBytes (Config.imageLength image) image)

/-- M := SHA-384(M ‖ digest) over the image, its blob and its decode table, from 48 zero bytes (R422). -/
def measureOf (image : Nat) : BitVec 384 :=
  BitVec.ofNat 384 (ofBytes ([image, Config.imageBlob image, Config.tableImage image].foldl (fun m x => sha384 (m ++ digest x)) (toBytes 48 0)))

/-- QCB offset of a window that firmware binds at boot: in the reflex store, which no root table has to map. -/
def bootQcb (line : Nat) : Nat := 0xFF04 * 2 ^ 48 + 64 * line

/-- Windows that firmware binds at boot (R423, R432). -/
def bootWindows (image : Nat) : Map Window :=
  (List.range 256).filterMap fun k => (Config.blobWindow image k).map fun w =>
    (k, { qcb := bootQcb w.1.val, space := spaceOnChip, tenant := w.2.2.1.toNat, cmd := true, latency := w.2.2.2.1, weight := w.2.2.2.2.toNat })

/-- The queue of such a window, empty, with its elements behind its QCB (DESIGN CHOICE, notes/assumptions/59.md). -/
def bootQueue (line capacity : Nat) : Queue :=
  { qcb := bootQcb line, space := spaceOnChip, tenant := 0, free := capacity, capacity := capacity, elem := 64, flags := 4#16
    baseSpace := 0, base := bootQcb (line + 1) }

/-- Where the reflex store holds the firmware copy, and where the checkpoints: regions 496-507 and 508-511 (R421; DESIGN CHOICE,
notes/assumptions/60.md). -/
def firmwareAt : Nat := 496 * 0x10000
def tablesAt : Nat := 508 * 0x10000

/-- The reflex store as LOADING leaves it: cleared, then the command queues that firmware binds and the verified firmware copy (R421, R422,
R423). -/
def bootStore (image : Nat) : Sram :=
  let queues := (List.range 256).foldl (fun (m : Mem) k => match Config.blobWindow image k with
    | some w => wrBlock m (64 * w.1.val) (bootQueue w.1.val (w.2.1.val + 2)).written
    | none => m) []
  { bytes := wrBlock queues firmwareAt ((Config.firmwareCopy image).take 0xC0000) }

/-- Every CORE_ID of the module (R15). -/
def allCores : List Nat :=
  ((List.range 34).flatMap fun cl => (List.range 17).map (coreId cl)) ++ [coreId 62 0, coreId 62 1] ++ (List.range 6).map (coreId 63)

/-- The active slices of an image's blob; all 32 where it names none (R165). -/
def bootSlices (image : Nat) : List Nat :=
  let l := (List.range 32).filter (Config.blobSlices image).getLsbD
  if l.isEmpty then List.range 32 else l

/-- LOADING (R422, R423): blob and table applied, reflex store and cores cleared, the root tables empty; then READY. The manual gives no
value of the Cfg fields of DROOT and IROOT: the blob of the image gives them, and its preferred epoch raises that of the secure
element (DESIGN CHOICE, notes/assumptions/59.md). -/
def State.applyBlob (s : State) (image : Nat) : State :=
  let t := Config.imageTable image
  let d := (Config.blobDroot image).toNat * 2 ^ 20
  let i := (Config.blobIroot image).toNat * 2 ^ 20
  let s := (s.clearDram d 0x100000).clearDram i 0x100000
  let s : State := { s with
    cores := allCores.map fun c => (c, { table := t })
    reflexStore := bootStore image
    evictions := (List.range 32).map fun cl => (cl, (Config.blobRecords image cl).val)
    homes := (List.range 32).foldl (fun m h => mset m h { (s.home h) with ways := mset (s.home h).ways 0 (Config.blobWays h).toNat }) s.homes }
  let cap := 900 + (Config.blobCap image).val
  let s := s.modFront fun f => { f with
    frames := 0, droot := BitVec.ofNat 64 d, iroot := BitVec.ofNat 64 i, slices := bootSlices image
    standby := Config.blobStandby image, standbyNext := Config.blobStandby image, cap := if f.pins.thermAlertN then cap else 900
    capBefore := if f.pins.thermAlertN then none else some cap
    epoch := max f.epoch (Config.blobEpoch image).toNat
    lease := (Config.blobLease image).toNat, windows := bootWindows image, boot := 5 }
  let ms := (s.meridianNow / 1000000 + 1) * 1000000
  (((s.post (cyc 16) .commandDispatch).post 100000 .powerCapCheck).post 1000000 .firmwareCheckpoint).postAt ms .counterSnapshot

/-- BOOT (R422): one stage of the sequence; a failure stops it at the status shown. -/
def State.bootStage (s : State) : State :=
  let go (n : Nat) (delay : Nat) (s : State) : State := (s.modFront fun f => { f with boot := n }).post delay .boot
  match s.front.boot with
  | 0 => go 1 200000 (({ s with meridian := -(s.now : Int), slew := 0 } : State).modFront fun f => { f with booted := true })
  | 1 => go 2 1000000 s
  | 2 => match s.bootChoice with
    | .error st => s.modFront fun f => { f with boot := st }
    | .ok k => go 3 37000000 (s.modFront fun f => { f with
        bootSlot := k, images := mset (mset f.images 0 (s.flashOf k)) 1 (s.flashOf k), measure := measureOf (s.flashOf k) })
  | 3 => go 4 2000000 s
  | 4 =>
    let i := (mget s.front.images 0).getD 0
    if Config.signed (Config.imageBlob i) && Config.signed (Config.tableImage i) && Config.blobTable i == Config.imageTable i
    then s.applyBlob i else s
  | _ => s

/-- BOOT (R422): the pins are released for the first stage; PERST_N low does not stop the later ones, and the other two pins would have
reset the module (R429). -/
def execBoot (s : State) : Out := .next (if s.front.boot = 0 && !s.front.pins.released then s else s.bootStage)

/-- DECODE_TABLE_LOAD (R78, R424): only into a Free core, and only a table whose signatures verify. -/
def execDecodeTableLoad (s : State) : Out :=
  .next (match s.event with
    | .decodeTableLoad c revision image =>
      let free := if isCompute c then s.isFree c 0 else (s.core c).banks.isEmpty
      if free && isCore c && Config.signed image then s.modCore c fun k => { k with table := revision } else s
    | _ => s)

/-! ### UPDATE (R427) -/

/-- Windows that UPDATE moves to the canary: up to 8 in the body. -/
def updateQueues (p : Packet) : List Nat := (List.range (min (field p 0x2A 1) 8)).map fun i => field p (0x38 + i) 1

/-- UPDATE (R427): stage, and the 10 s watch of the canary on chain core 5. -/
def execUpdate (s : State) : Out := s.orWait <|
  .next (match s.event with
    | .update p =>
      if s.front.update.isSome then s.completePkt p stBusy 0 0 0
      else if (updateQueues p).any (s.foreignWindow p) then s.completePkt p stRefused 0 0 0
      else match s.rdAny (field p 0x28 2) p.tenant (field p 0x20 8) (field p 0x30 8) with
        | .refused => s.completePkt p stRefused 0 0 0
        | .unreadable => s.completePkt p stInvalid 0 0 0
        | .got l s =>
          let n := ofBytes l
          if !Config.signed n || Config.securityVersion n < s.front.counter then s.completePkt p stInvalid 0 0 0
          else (s.modFront fun f => { f with
            update := some { image := n, queues := updateQueues p, packet := p }, images := mset f.images 2 n }).post 10000000000 .updateCommit
    | _ => s)

/-- The first failing count of a watch, from 1 (R427). -/
def firstFailing (l : List Nat) : Option Nat := (l.zipIdx.find? fun x => x.1 != 0).map (·.2 + 1)

/-- Chain core 5 returns to the old image (R427). -/
def State.revertUpdate (s : State) (b : Nat) : State :=
  match s.front.update with
  | none => s
  | some u =>
    let s := (s.modFront fun f => { f with update := none, images := mdel f.images 2 }).unpost fun e => e == .updateCommit
    s.completePkt u.packet stRefused 0 b 0

/-- A trap has been taken between two views of a thread. -/
def Thread.trappedSince (old new : Thread) : Bool :=
  (new.trap0.held && new.trap0 != old.trap0) || (new.trap1.held && new.trap1 != old.trap1)

/-- A trap of chain core 5 during the watch is counted (R427): after a step from `s`. -/
def State.watchTraps (t s : State) : State :=
  if t.front.update.isNone then t
  else if (t.core (coreId 63 5)).banks.any fun b => (mget (s.core (coreId 63 5)).banks b.1).any fun u => u.trappedSince b.2 then t.countCanary 0
  else t

/-- What follows a step from `s`: the records of Saved contexts show what it has done (R270), and the watch of an update counts. -/
def afterStep (s : State) (o : Out) : Out :=
  match o with
  | .next t => .next ((t.syncRecords s).watchTraps s)
  | o => o

/-- UPDATE_COMMIT (R427): after the watch, with every count 0. -/
def execUpdateCommit (s : State) : Out := s.orWait <|
  .next (match s.front.update with
    | none => s
    | some u => match firstFailing u.counts with
      | some k => s.revertUpdate k
      | none => (s.modFront fun f => { f with
          flash := mset f.flash (1 - f.bootSlot) u.image, counter := Config.securityVersion u.image
          images := mdel (mset f.images 1 u.image) 2, update := none }).completePkt u.packet stOk 0 0 0)

/-- UPDATE_REVERT (R427): a count of the watch has become nonzero; one that the front end has not counted itself is the trap count. -/
def execUpdateRevert (s : State) : Out := s.orWait <|
  .next (s.revertUpdate ((s.front.update.bind fun u => firstFailing u.counts).getD 1))

/-! ### Recovery and checkpoints (R421) -/

/-- A command on its way to the datum pair. -/
def isCommand : Event → Bool
  | .load _ => true
  | .launch _ => true
  | .arm _ => true
  | .disarm _ => true
  | .signal _ => true
  | .mapq _ => true
  | .mapbar _ => true
  | .mapwin _ => true
  | .grant _ => true
  | .holdrel _ => true
  | .tenantCreate _ => true
  | .tenantDestroy _ => true
  | .attest _ => true
  | .cap _ => true
  | .update _ => true
  | .msix _ => true
  | _ => false

/-- A packet of one of the canary's queues is LOST: the third count of its watch (R427). -/
def State.countLost (s : State) (p : Packet) : State := if s.onCanary p then s.countCanary 2 else s

/-- The recovery trap stops a core of the datum pair, which restarts from the firmware copy (R17, R421): its threads and what they had
begun are gone. -/
def Core.restarted (k : Core) : Core :=
  { k with
    banks := [], running := [], mx := [], seq := [], vloop := none, copies := [], landing := [], reserved := false, halted := false
    stepSlot := none, quiesce := false, guarded := [] }

/-- A run that waits for admission is given up. -/
def Prog.dropWaiting (g : Prog) : Prog := { g with run := g.run.filter (·.admitted) }

/-- RECOVERY (R17, R421): the lock-step comparison of the datum pair has failed, which no architectural state shows, or a third-level
trap has come (notes/assumptions/60.md). It is taken before the cycle's words issue, so that no output of the mismatching cycle
leaves; both cores are trapped alike. HOLD_N is asserted, packet service and admission stop, every packet without a completion is LOST. -/
def execRecovery (s : State) : Out := s.orWait <|
  .next (
    if s.front.boot ≠ 5 then s
    else
      let s := (s.modFront fun f => { f with
        hold := true, boot := 6, latQueue := [], bulkQueue := [], wanted := none, progs := f.progs.map fun g => (g.1, g.2.dropWaiting) }).unpost
        isCommand
      let s := s.front.dequeued.foldl (fun s p => (s.countLost p).completePkt p stLost 0 0 0) s
      ([coreId 62 0, coreId 62 1].foldl (fun s c => s.modCore c Core.restarted) s).post 20000000 .recoveryEnd)

/-- RECOVERY_END (R421): at most 20 ms later. -/
def execRecoveryEnd (s : State) : Out :=
  .next (
    if s.front.boot ≠ 6 then s
    else (((s.modFront fun f => { f with boot := 5 }).post 0 .admission).unpost fun e => e == .commandDispatch).post (cyc 16) .commandDispatch)

/-- The datum pair writes its tables to the reflex store (R421). -/
def State.writeTables (s : State) : State :=
  let d := s.drawn
  (d.2.wrReflex tablesAt ((Config.tablesCopy d.1).take 0x40000) []).modFront fun f => { f with checkpoint := some s.now }

/-- FIRMWARE_CHECKPOINT (R421): every 1 ms. -/
def execFirmwareCheckpoint (s : State) : Out :=
  .next (
    if s.front.boot = 5 then s.writeTables.post 1000000 .firmwareCheckpoint
    else if s.front.boot = 6 then s.post 1000000 .firmwareCheckpoint else s)

/-- The snapshot with the counts since the last one, saturating (R403). -/
def addCounts (snapshot counters : Map Nat) : Map Nat :=
  counters.foldl (fun m e => mset m e.1 (min ((mget m e.1).getD 0 + e.2) 0xFFFFFFFF)) snapshot

/-- COUNTER_SNAPSHOT (R403, R413): at every whole millisecond of meridian time firmware reads and clears the counters, and the snapshot holds
what it has read (DEDUCED, notes/assumptions/74.md). -/
def execCounterSnapshot (s : State) : Out :=
  .next (({ s with snapshot := addCounts s.snapshot s.counters, counters := [] } : State).postAt ((s.meridianNow / 1000000 + 1) * 1000000) .counterSnapshot)

/-! ### Power and resets (R428, R429) -/

/-- POWER_CAP_CHECK (R428): every 100 µs. -/
def execPowerCapCheck (s : State) : Out :=
  .next (
    let d := s.drawn
    let w := Config.power d.1
    (d.2.modFront fun f => { f with pwr := w, throttled := decide (f.cap < w.toNat) }).post 100000 .powerCapCheck)

/-- THERM_ALERT (R428): THERM_ALERT_N is low, and the cap is 90 W. -/
def execThermAlert (s : State) : Out :=
  .next (s.modFront fun f =>
    let f : Front := { f with pins := { f.pins with thermAlertN := false } }
    match f.capBefore with
    | some _ => f
    | none => { f with capBefore := some f.cap, cap := 900 })

/-- THERM_ALERT_CLEAR (R428): the pin has risen. -/
def execThermAlertClear (s : State) : Out :=
  .next (s.modFront fun f =>
    let f : Front := { f with pins := { f.pins with thermAlertN := true } }
    match f.capBefore with
    | some c => { f with cap := c, capBefore := none }
    | none => f)

/-- PERST_N (R429): the pin goes low or high; low resets the host-port logic. -/
def execPerstN (s : State) : Out :=
  .next (match s.event with
    | .perstN low => s.modFront fun f =>
      let f : Front := { f with pins := { f.pins with perstN := !low } }
      if low then { f with raised := [], hostRead := [] } else f
    | _ => s)

/-- All state is lost (R429) but the secure element's counter and epoch, the flash and the levels of the pins; numbers that must not
come again go on. -/
def State.afterReset (s : State) (power : Bool) : State :=
  let f := s.front
  let pins : Pins := if power then { f.pins with pwrGood := false } else { f.pins with modRstN := false }
  { now := s.now, meridian := -(s.now : Int), inputs := s.inputs, upsets := s.upsets, nextId := s.nextId, draw := s.draw
    front := { cycle0 := s.now, epoch := f.epoch, counter := f.counter, flash := f.flash, keys := f.keys, pins := pins } }

/-- MODULE_RESET (R429): MOD_RST_N low or loss of PWR_GOOD, and its release. -/
def execModuleReset (s : State) : Out :=
  .next (match s.event with
    | .moduleReset power true => s.afterReset power
    | .moduleReset true false => s.modFront fun f => { f with pins := { f.pins with pwrGood := true } }
    | .moduleReset false false => s.modFront fun f => { f with pins := { f.pins with modRstN := true } }
    | _ => s)

/-- PTM_SYNCHRONISATION (R155): meridian time is slewed towards the host's, never stepped. -/
def execPtmSynchronisation (s : State) : Out :=
  .next (match s.event with
    | .ptmSynchronisation t => { s with slew := (t : Int) - s.meridianNow }
    | _ => s)

/-! ### The two modules (R404-R409) -/

/-- The next heartbeat leaves at the next multiple of 100 µs of meridian time (R407). -/
def State.nextBeat (s : State) : State :=
  (s.unpost fun e => e == .heartbeatSend).postAt ((s.meridianNow / 100000 + 1) * 100000) .heartbeatSend

/-- The active module sends all that it mirrors (R405, R409). -/
def State.mirrorAll (s : State) : State :=
  let s := s.homes.foldl (fun s h => h.2.queues.foldl (fun s q => s.mirrorWhole h.1 q) s) s
  let s := s.lxm.foldl (fun s l => match l.2.latest with
    | some b => if l.2.mirrored then
        s.mirrorOut (.publication l.1 (l.2.buffer b).version (l.2.buffer b).time (rdBytes (l.2.buffer b).data 0 l.2.size)) else s
    | none => s) s
  s.front.reflex.foldl (fun s r => if r.2.armed then s.mirrorOut (.arm r.1 r.2.image) else s) s

/-- This module becomes the spare (R404, R409): its reflex threads are shadow threads, its MULTI queues' state is discarded. -/
def State.becomeSpare (s : State) : State :=
  let s := s.modFront fun f => { f with
    active := false, spare := true, isolated := false, mirroring := false, mirrorSeq := 0, mirrored := [], lastBeat := none, beatMisses := 0
    reflex := f.reflex.map fun r => (r.1, { r.2 with shadow := true }) }
  let s := s.unpost fun e => e == .heartbeatSend || e == .heartbeatAckMiss
  let s : State := { s with homes := s.homes.map fun h => (h.1, { h.2 with queues := h.2.queues.filter fun q => !q.multi }) }
  let wait := s.front.mirrorWait.map (·.2)
  let held := s.front.hostHeld.map (·.2)
  wait.foldl (fun s e => s.post 0 e) (s.modFront fun f => { f with mirrorWait := [], hostHeld := [], hostRead := held.getLastD f.hostRead })

/-- This module becomes the active one with a spare (R404). -/
def State.becomeActive (s : State) : State :=
  ((s.modFront fun f => { f with
    active := true, spare := false, isolated := false, mirroring := true, mirrorSeq := 0, ackMisses := 0, ackDue := false }).unpost
    fun e => e == .heartbeatMiss).mirrorAll.nextBeat

/-- XEGAR_LINK_UP (R404, R409, R219): the higher epoch is active; with equal epochs, the root port. -/
def execXegarLinkUp (s : State) : Out := s.orWait <|
  .next (match s.event with
    | .xegarLinkUp up lease _ epoch =>
      if !up then (s.modFront fun f => { f with linkUp := false }).post 0 .peerUnreachable
      else
        let role := if s.front.pins.peerRole then 1 else 0
        let s := (s.modFront fun f => { f with linkUp := true, peerLease := lease }).sayPeer (.linkUp s.front.lease role s.front.epoch)
        (if epoch < s.front.epoch || (epoch == s.front.epoch && s.front.pins.peerRole) then s.becomeActive else s.becomeSpare).lendAll
    | _ => s)

/-- HEARTBEAT_SEND (R407, R409): also while the link is lost, where no heartbeat leaves and no acknowledgement comes. A module with a spare
expects an acknowledgement (DEDUCED, notes/assumptions/102.md). -/
def execHeartbeatSend (s : State) : Out :=
  .next (
    if !s.front.active then s
    else
      let n := s.front.beatSeq + 1
      let s := if s.front.linkUp then s.sayPeer (.heartbeat n s.front.epoch s.meridianNow s.front.mirrorSeq) else s
      ((s.modFront fun f => { f with beatSeq := n, ackDue := f.mirroring }).post 10000 .heartbeatAckMiss).nextBeat)

/-- The spare expects the heartbeats after `t`: misses fall due 10 µs after each of the next three (R407). -/
def State.expectBeats (s : State) (t : Nat) : State :=
  let s := s.unpost fun e => e == .heartbeatMiss
  [110000, 210000, 310000].foldl (fun s d => s.postAt (t + d) .heartbeatMiss) s

/-- HEARTBEAT_RECEIVE (R404, R407): a higher epoch makes this module the spare; a good heartbeat is acknowledged once the mirror
messages it names have come (R409). A heartbeat follows the last good one where its sequence is higher, though some between them were lost
(DEDUCED, notes/assumptions/102.md). -/
def execHeartbeatReceive (s : State) : Out :=
  .next (match s.event with
    | .heartbeatReceive seq epoch _ last check =>
      let s := if s.front.epoch < epoch && !s.front.spare then s.becomeSpare else s
      let s := if s.front.epoch < epoch then s.modFront fun f => { f with epoch := epoch } else s
      let follows := match s.front.lastBeat with
        | some b => b.1 < seq
        | none => true
      if !s.front.spare || !check || !follows || epoch < s.front.epoch then s
      else
        let t := s.meridianNow
        let s := (s.modFront fun f => { f with lastBeat := some (seq, t), beatMisses := 0 }).expectBeats t
        if last ≤ s.front.mirrorSeq then s.sayPeer (.heartbeatAck seq) else s
    | _ => s)

/-- The takeover gap of a CRIT entry begins (R408). Release R is the last one whose activation has ended on time by the last good
heartbeat, as the shadow thread here shows; where none has, no gap is measured (DEDUCED, notes/assumptions/100.md). -/
def State.gapCheck (s : State) (t0 e : Nat) (r : Reflex) : State :=
  if !r.armed || !rfCrit r.n then s
  else match r.ends.find? fun x => x.2 ≤ t0 with
    | some x => s.modReflex e fun r => { r with gap := some (x.1 + 1) }
    | none => s

/-- The MULTI queues that this module has kept for the other become active here with their mirrored state (R408). -/
def State.activateMirrored (s : State) : State :=
  s.front.mirrored.foldl (fun s q => match s.activate q.1 q.2.1 q.2.2 with
    | .ok r => r.2
    | .error (.corrupt t) => t
    | .error (.poisoned t) => t
    | .error .table => s) (s.modFront fun f => { f with mirrored := [] })

/-- The spare takes over (R408), and sends the heartbeats from now on (R407). -/
def State.takeOver (s : State) : State :=
  let t0 := (s.front.lastBeat.map (·.2)).getD 0
  let s := (s.modFront fun f => { f with epoch := f.epoch + 1, active := true, spare := false, mirroring := false }).activateMirrored
  ((s.front.reflex.foldl (fun s r => s.gapCheck t0 r.1 r.2) s).raiseMsi msiTakeover).nextBeat

/-- HEARTBEAT_MISS (R407, R408): at the third the spare takes over. -/
def execHeartbeatMiss (s : State) : Out := s.orWait <|
  .next (
    if !s.front.spare then s
    else
      let s := s.modFront fun f => { f with beatMisses := f.beatMisses + 1 }
      if s.front.beatMisses = 3 then s.takeOver else s)

/-- HEARTBEAT_ACKNOWLEDGEMENT (R407). -/
def execHeartbeatAcknowledgement (s : State) : Out :=
  .next (match s.event with
    | .heartbeatAcknowledgement seq =>
      if seq = s.front.beatSeq then s.modFront fun f => { f with ackDue := false, ackMisses := 0 } else s
    | _ => s)

/-- Replies, grants and answers to the host that wait for the spare leave (R405, R407). -/
def State.releaseMirrored (s : State) (upTo : Option Nat) : State :=
  let go (n : Nat) : Bool := match upTo with
    | some k => n ≤ k
    | none => true
  let l := s.front.mirrorWait.filter fun e => go e.1
  let answers := (s.front.hostHeld.filter fun e => go e.1).map (·.2)
  l.foldl (fun s e => s.post 2 e.2) (s.modFront fun f => { f with
    mirrorWait := f.mirrorWait.filter fun e => !go e.1, hostHeld := f.hostHeld.filter fun e => !go e.1
    hostRead := answers.getLastD f.hostRead })

/-- HEARTBEAT_ACK_MISS (R407, R409): at the third the module counts itself isolated and goes on alone. -/
def execHeartbeatAckMiss (s : State) : Out :=
  .next (
    if !s.front.active || !s.front.ackDue then s
    else
      let s := s.modFront fun f => { f with ackDue := false, ackMisses := f.ackMisses + 1 }
      if s.front.ackMisses = 3 then
        ((s.modFront fun f => { f with isolated := true, mirroring := false }).releaseMirrored none).raiseMsi msiIsolated
      else s)

/-- MIRROR_ACKNOWLEDGEMENT (R405): the queue operations up to `seq` complete. -/
def execMirrorAcknowledgement (s : State) : Out :=
  .next (match s.event with
    | .mirrorAcknowledgement seq => s.releaseMirrored (some seq)
    | _ => s)

/-- A buffer for a mirrored publication: one that is neither read, written nor the newest. -/
def LxmSlot.forMirror (l : LxmSlot) : Option Nat :=
  l.numbers.find? fun b => l.latest != some b && l.writing != some b && (l.buffer b).readers == 0

/-- A mirrored publication (R405): the same slot, version and timestamp, the epoch of the module that committed it (R409). With every
buffer in use it waits for one (DEDUCED, notes/assumptions/104.md). -/
def State.mirrorPublish (s : State) (n v t epoch : Nat) (data : List Byte) : State :=
  match mget s.lxm n with
  | none => s
  | some l => match l.forMirror with
    | none => s.post (cyc 64) s.event
    | some b =>
      let x : Buffer := { version := v, time := t, complete := true, epoch := epoch, data := wrBlock [] 0 data }
      let old := v < l.last && l.latest.any fun b => (l.buffer b).epoch == epoch
      s.modSlot n fun l => { l with
        buffers := mset l.buffers b x, last := if old then l.last else v, latest := if old then l.latest else some b }

/-- The spare keeps this MULTI queue (R405). -/
def State.keepMirrored (s : State) (h qcb sp : Nat) : State :=
  s.modFront fun f => { f with mirrored := (h, qcb, sp) :: f.mirrored.filter fun q => q != (h, qcb, sp) }

/-- A mirrored operation on a MULTI queue, which the spare keeps inactive (R405); nothing where it cannot be performed. -/
def State.mirrorQueueOp (s : State) (h qcb sp : Nat) (data : Option (List Byte)) : Option State :=
  let inactive (u : State) (t : Nat) : State := ((u.home h).queue? qcb sp t).elim u (u.retire h)
  match s.activate h qcb sp with
  | .ok (q, t) => match data with
    | some d => (t.appendElem h q d false).map fun u => inactive u q.tenant
    | none => match t.takeElem h q with
      | .ok (some (_, u)) => some (inactive u q.tenant)
      | _ => none
  | .error _ => none

/-- The spare performs such an operation without lending credits, and acknowledges it; one that cannot be performed is tried again and not
acknowledged (DEDUCED, notes/assumptions/104.md). -/
def State.mirrorOp (s : State) (seq h qcb sp : Nat) (data : Option (List Byte)) : State :=
  let up := s.front.linkUp
  match (s.modFront fun f => { f with linkUp := false }).mirrorQueueOp h qcb sp data with
  | some t => ((t.modFront fun f => { f with linkUp := up }).keepMirrored h qcb sp).sayPeer (.mirrorAck seq)
  | none => s.post (cyc 64) s.event

/-- A MULTI queue as the active module sends it whole: QCB and storage, kept inactive (R405). -/
def State.mirrorQueueWhole (s : State) (h qcb sp tenant : Nat) (image storage : List Byte) : State :=
  let q := queueOf qcb sp tenant image
  ((s.modHome h fun x => x.without q).pokeLine sp tenant qcb image).pokeLine q.storeSpace tenant q.base storage

/-- MIRROR_UPDATE (R405), on the spare. -/
def execMirrorUpdate (s : State) : Out := s.orWait <|
  .next (match s.event with
    | .mirrorUpdate seq epoch m =>
      if !s.front.spare || epoch < s.front.epoch then s
      else
        let s := s.modFront fun f => { f with mirrorSeq := max f.mirrorSeq seq }
        match m with
        | .publication n v t d => s.mirrorPublish n v t epoch d
        | .arm e i => s.armEntry e i true
        | .disarm e => s.disarmEntry e
        | .record off d => s.bar2Access true off d.length d
        | .enqueue h q sp _ d => s.mirrorOp seq h q sp (some d)
        | .dequeue h q sp _ => s.mirrorOp seq h q sp none
        | .handover _ _ _ _ => s.sayPeer (.mirrorAck seq)
        | .queue h q sp t i l => (s.mirrorQueueWhole h q sp t i l).keepMirrored h q sp
    | _ => s)

end Sys2Proof.Machine
end

