-- ==== Sys2Proof/Machine/Levain.lean ====
section
/-! DEFINITION. Levain records and invocations (R374-R381) and the registration of weight regions (R373). -/

namespace Sys2Proof.Machine

/-! ### Headers (R374), as numbers of 512 bits -/

/-- A field of `n` bits at byte `off`, bit `lo`. -/
def hget (h off lo n : Nat) : Nat := bits h (8 * off + lo) n
def hput (h off lo n x : Nat) : Nat := putBits h (8 * off + lo) n x

def hM (h : Nat) : Nat := hget h 3 0 3 + 1
def hN (h : Nat) : Nat := hget h 3 3 3 + 1
def hKC (h : Nat) : Nat := hget h 4 0 8
def hSrc (h : Nat) : Nat := hget h 5 0 8
def hMode (h : Nat) : Nat := hget h 0x32 0 2
def hQdone (h : Nat) : Bool := hget h 0x32 2 1 == 1
def hCursor (h : Nat) : Nat := hget h 0x30 0 16
def hReg (h : Nat) : Bool := bit h 22
def hRegion (h : Nat) : Nat := hget h 6 0 6
def hWver (h : Nat) : Nat := hget h 8 0 32
def hTenant (h : Nat) : Nat := bits h 12 8

/-- Step s_i and threshold tau as values. -/
def hStep (h i : Nat) : Num := fp16.num (hget h (0x18 + 2 * i) 0 16)
def hTau (h : Nat) : Num := fp16.num (hget h 0x16 0 16)

/-- A finite FP16 encoding. -/
def finite16 (x : Nat) : Bool := bits x 10 5 != 31

/-- The limits that the parameter fields keep (R374). -/
def paramsOk (h : Nat) : Bool :=
  1 ≤ hKC h && [3, 4, 8, 9].contains (hSrc h) && hget h 6 6 2 == 0 && hget h 7 0 8 == 0 && hget h 0x0E 0 16 != 0 &&
  hget h 0x14 0 16 != 0 && finite16 (hget h 0x16 0 16) && !bit (hget h 0x16 0 16) 15 && !bit h 23 && bits h 30 2 == 0 &&
  (List.range 8).all fun i =>
    let x := hget h (0x18 + 2 * i) 0 16
    if i < hM h then finite16 x && !bit x 15 && x != 0 else x == 0

/-- Every field keeps the limits of R374. -/
def fieldsOk (h : Nat) : Bool :=
  paramsOk h && hMode h ≤ 2 && hget h 0x32 3 5 == 0 && hget h 0x33 0 8 == 0 && hget h 0x38 0 32 == 0

/-- The check of a header. -/
def headerCheck (h : Nat) : Nat := (crc32c (toBytes 60 h)).toNat

/-- A correct header (R374). -/
def headerOk (h : Nat) : Bool := fieldsOk h && hget h 0x3C 0 32 == headerCheck h

/-- Bytes of the record that a header describes (R374). -/
def recordSize (h : Nat) : Nat := 0x40 + 192 * hM h * hKC h + 256

/-- The header at an own-TCM offset. -/
def State.header (s : State) (o : Nat) : Nat := ofBytes (s.rdOwn o 64)

/-- Put a header into the header cache: four, the latest first (R352, R374). -/
def State.cacheHeader (s : State) (o h : Nat) : State :=
  { s with co := { s.co with headers := ((o, BitVec.ofNat 512 h) :: s.co.headers.filter fun e => e.1 != o).take 4 } }

/-- Write a header with its check, through the cache (R374). -/
def State.putHeader (s : State) (o h : Nat) : State :=
  let h := hput h 0x3C 0 32 (headerCheck h)
  (s.wrOwn o (toBytes 64 h)).cacheHeader o h

/-! ### LVINIT, LVINV, LVSTAT (R375) -/

/-- LVINIT (R375). -/
def execLvinit (d a b : BitVec 5) (s : State) : Out :=
  let va := s.x a
  let vb := s.x b
  finish s (match ownTcm? va with
    | none => trapR onchipRange va
    | some o =>
      if o % 64 ≠ 0 then trapR onchipRange va
      else match ownTcmAt vb 8 64 with
        | none => trapR onchipRange vb
        | some i =>
          if s.queuedMem || !s.mxIdle then .wait s
          else
            let img := ofBytes (s.rdOwn i 64)
            if !paramsOk img then trapR illegalOperand vb
            else if 0xC000 < o + recordSize img then trapR onchipRange va
            else
              let h := bits img 0 12 + (s.src.tenant % 256) * 2 ^ 12 + bits img 22 1 * 2 ^ 22 + bits img 24 6 * 2 ^ 24
              let h := hput (hput (hput h 4 0 8 (hKC img)) 5 0 8 (hSrc img)) 6 0 8 (hRegion img)
              let h := hput (hput h 0x0E 0 16 (hget img 0x0E 0 16)) 0x14 0 32 (hget img 0x14 0 32)
              let h := hput h 0x18 0 128 (hget img 0x18 0 128)
              .ok ((s.putHeader o h).setX d 0))

/-- LVINV (R375). -/
def execLvinv (d a : BitVec 5) (s : State) : Out :=
  let va := s.x a
  finish s (match ownTcmAt va 64 64 with
    | none => trapR onchipRange va
    | some o =>
      if s.queuedMem || !s.mxIdle then .wait s
      else
        let h := s.header o
        if !fieldsOk h then trapR reuseRecordCorrupt va
        else if 0xC000 < o + recordSize h then trapR onchipRange va
        else .ok ((s.putHeader o (hput (putBits h 20 1 0) 0x32 0 2 0)).setX d (boolWord (bit h 20))))

/-- LVSTAT (R375). -/
def execLvstat (d a b : BitVec 5) (s : State) : Out :=
  let va := s.x a
  let vb := s.x b
  finish s (match ownTcmAt va 64 64 with
    | none => trapR onchipRange va
    | some o => match ownTcmAt vb 64 64 with
      | none => trapR onchipRange vb
      | some i =>
        if s.queuedMem || !s.mxIdle then .wait s
        else
          let h := s.header o
          let bad := !headerOk h || decide (0xC000 < o + recordSize h)
          let v := hget h 0x28 0 32 + hget h 0x0C 0 16 * 2 ^ 32 + bits h 20 1 * 2 ^ 48 + bits h 21 1 * 2 ^ 49 + hMode h * 2 ^ 50 +
            (if bad then 2 ^ 52 else 0)
          s.logged (.ok ((s.wrOwn i (s.rdOwn o 64)).setX d (BitVec.ofNat 64 v))))

/-! ### Invocations (R376-R379) -/

/-- The core's region table (R371): the reflex table on a reflex-array or staked core, else that of its cluster's slice. -/
def State.regionVersion (s : State) (r : Nat) : Nat :=
  let h := if inReflexArray s.cid || s.co.staked.isSome then 32 else clusterOf s.cid
  ((mget (s.home h).regions r).map (·.version)).getD 0

/-- The checks of R376 in their order; the header when they pass. -/
def levainCheck (s : State) (x : Word) (delta : Bool) : Except Nat Nat :=
  let n := x.toNat
  let o := bits n 16 16
  let c := bits n 32 8
  let m := s.co.mconf
  let h := s.header o
  if o % 64 ≠ 0 ∨ 0xC000 < o + 64 then .error onchipRange
  else if !headerOk h then .error reuseRecordCorrupt
  else if 0xC000 < o + recordSize h then .error onchipRange
  else if !cDelta m || cM m ≠ hM h || cN m ≠ hN h then .error matrixConfig
  else if delta && (hMode h = 0 || c ≠ hCursor h || !hQdone h) then .error matrixConfig
  else if !delta && c ≠ 0 && !(hMode h ≠ 0 && c = hCursor h && !hQdone h) then .error matrixConfig
  else if hKC h ≤ c || bits n 40 24 ≠ 0 || (!delta && 0xC000 < bits n 0 16 + (cM m - 1) * cStride m + 48) then
    .error illegalOperand
  else .ok h

/-- Begin (R377). -/
def levainBegin (h v tenant : Nat) : Nat :=
  let full := !bit h 20 || bit h 21 || hMode h ≠ 0 || hTenant h ≠ tenant || !hReg h || v ≠ hWver h ||
    hget h 0x0E 0 16 ≤ hget h 0x10 0 16 || hget h 0x14 0 16 ≤ hget h 0x12 0 16
  let h := if full then
      let h := putBits (putBits (putBits h 20 1 0) 21 1 0) 12 8 tenant
      let h := hput (hput (hput h 0x32 0 2 2) 8 0 32 v) 0x0C 0 16 (hget h 0x0C 0 16 + 1)
      hput (hput h 0x10 0 16 0) 0x12 0 16 0
    else hput h 0x32 0 2 1
  hput (hput h 0x30 0 16 0) 0x2C 0 32 0

/-- The value of a source byte (R374, R378). -/
def srcNum (f x : Nat) : Num := match f with
  | 3 => e4m3.num x | 4 => e5m2.num x | 8 => .ofInt (signedOf 8 x) | _ => .ofInt x

/-- The magnitude of a value. -/
def Num.abs : Num → Num
  | .fin _ m e => .fin false m e
  | .inf _ => .inf false
  | .nan => .nan

/-- d / s_i to an integer, ties to even (R378). -/
def quotInt (d s : Num) : Int :=
  match d, s with
  | .fin neg m e, .fin _ m' e' =>
    if m = 0 ∨ m' = 0 then 0
    else
      let q := divApprox neg m e m' e'
      match q.num with
      | .fin _ k x => let r := roundAt .nearest neg k x 0 q.sticky; if neg then -(r.1 : Int) else r.1
      | _ => 0
  | _, _ => 0

/-- One element of a delta MDQ: latch byte, new A_ref, and whether it was clamped or not finite (R378). -/
def deltaElem (a : Num) (aref : Nat) (tau st : Num) : Nat × Nat × Bool :=
  let r := fp32.num aref
  let d := a.add .nearest r.neg
  let upd (q : Int) : Nat := (fp32.round .nearest (r.add .nearest ((Num.ofInt q).mul st))).bits
  if d.isNan || d.isInf then (0, upd 0, true)
  else if !(tau.lt d.abs) then (0, upd 0, false)
  else
    let q := quotInt d st
    let c := clampInt (-128) 127 q
    (wrapInt 8 c, upd c, c != q)

/-- Saturating 32-bit count in a header. -/
def hcount (h off n : Nat) : Nat := hput h off 0 32 (min (hget h off 0 32 + n) 0xFFFFFFFF)

/-- Own-TCM offset of A_ref row i of chunk c (R374). -/
def arefAt (h o i c : Nat) : Nat := o + 0x40 + 192 * (i * hKC h + c)

/-- One row of MDQ: latch bytes, A_ref values, clamps. -/
def mdqRow (h : Nat) (src aref : List Byte) (i : Nat) : List Nat × List Nat × Nat :=
  let cells := (List.range 48).map fun k =>
    let x := (src.getD k 0).toNat
    let a := srcNum (hSrc h) x
    if hMode h = 2 then (x, (fp32.round .nearest a).bits, false)
    else deltaElem a (ofBytes ((aref.drop (4 * k)).take 4)) (hTau h) (hStep h i)
  (cells.map (·.1), cells.map (·.2.1), (cells.filter (·.2.2)).length)

/-- MDQ (R376-R378). -/
def execMdq (a : BitVec 4) (s : State) : Out :=
  let x := s.x4 a
  let o := bits x.toNat 16 16
  let c := bits x.toNat 32 8
  let src := bits x.toNat 0 16
  finish s (if s.queuedMem || !s.mxIdle then .wait s else match levainCheck s x false with
    | .error e => trapR e x
    | .ok h => s.engine 36 fun s =>
      let v := if hReg h then s.regionVersion (hRegion h) else 0
      let h := if c = 0 then levainBegin h v (s.src.tenant % 256) else h
      let stride := cStride s.co.mconf
      let s := { s with co := { s.co with latch := [] } }
      let r := (List.range (hM h)).foldl (fun (r : State × Nat) i =>
        let s := r.1
        let at_ := arefAt h o i c
        let row := mdqRow h (s.rdOwn (src + i * stride) 48) (s.rdOwn at_ 192) i
        let s := { s with co := { s.co with latch := wrBytes s.co.latch (48 * i) (row.1.map (BitVec.ofNat 8)) } }
        (s.wrOwn at_ (row.2.1.flatMap (toBytes 4)), r.2 + row.2.2)) (s, 0)
      let h := if r.2 = 0 then h else hcount (putBits h 21 1 1) 0x34 r.2
      .ok (r.1.putHeader o (hput h 0x32 2 1 1)))

/-- Every latch byte of the shape is zero. -/
def State.latchZero (s : State) (m : Nat) : Bool := (rdBytes s.co.latch 0 (48 * m)).all (· == 0)

/-- The commit of R379. -/
def levainCommit (h : Nat) : Nat :=
  let since := if hMode h = 1 then min (hget h 0x10 0 16 + 1) 0xFFFF else 1
  let h := hput (hput h 0x10 0 16 since) 0x28 0 32 (hget h 0x2C 0 32)
  hput (hput (putBits h 20 1 1) 0x32 0 2 0) 0x30 0 16 0

/-- The step part of MDELTA: the state and the header (R379). -/
def deltaStep (s : State) (h t w : Nat) : State × Nat :=
  let k := s.slot w
  if k.state != .full then (s.setMconf bWempty 1 1, putBits h 21 1 1)
  else
    let h := if !hReg h || k.tag != some (hRegion h, hWver h) then putBits h 21 1 1 else h
    if hMode h = 1 && s.latchZero (hM h) then (s, hput h 0x2C 0 32 (hget h 0x2C 0 32 + 1))
    else
      let rows := (List.range 8).map fun i => rdN s.co.latch (48 * i) 48
      let s := s.stepWith t k.image fun i e =>
        let q := packed (rows.getD i 0) 8 e
        if hMode h = 1 then (hStep h i).mul (.ofInt (signedOf 8 q)) else srcNum (hSrc h) q
      (s, if hMode h = 1 then hput h 0x12 0 16 (min (hget h 0x12 0 16 + 1) 0xFFFF) else h)

/-- MDELTA (R376, R379). -/
def execMdelta (t : BitVec 6) (a : BitVec 4) (w : BitVec 6) (s : State) : Out :=
  let x := s.x4 a
  let o := bits x.toNat 16 16
  let c := bits x.toNat 32 8
  finish s (if s.queuedMem || !s.mxIdle then .wait s else match levainCheck s x true with
    | .error e => trapR e x
    | .ok h =>
      if (s.slot w.toNat).loading then .wait s
      else s.engine (if (c = 0 && hMode h = 1) || c = hKC h - 1 then 4 else 2) fun s =>
        let cref := o + 0x40 + 192 * hM h * hKC h
        let s := if c = 0 then s.setTile t.toNat (if hMode h = 1 then ofBytes (s.rdOwn cref 256) else 0) else s
        let r := deltaStep s h t.toNat w.toNat
        let h := hput (hput r.2 0x32 2 1 0) 0x30 0 16 (c + 1)
        if c = hKC h - 1 then .ok ((r.1.wrOwn cref (toBytes 256 (r.1.tile t.toNat))).putHeader o (levainCommit h))
        else .ok (r.1.putHeader o h))

/-! ### WREG, WUNREG (R373) -/

/-- The core cannot reach the reflex store (R159). -/
def State.noReflex (s : State) : Bool :=
  (isDelib s.cid && s.co.staked.isNone) || (isService s.cid && !inReflexArray s.cid)

/-- Send a region update and wait for the version; a release at device scope. -/
def State.regionRequest (s : State) (d : BitVec 5) (rs : Bool) (index : Nat) (op : Instr) (x : Word) (e : Option Region) : Res :=
  s.release fun s => if s.pending.isNone && s.holdsBack then .wait s else ask s (fun id s =>
    let q : RegionReq := { core := s.cid, who := s.th.who, tenant := s.src.tenant, index := index, entry := e }
    let o : QOp := { home := if rs then 32 else 3, core := s.cid, who := s.th.who, word := s.widx, tenant := s.src.tenant
                     space := s.sp, op := op, a := x, b := BitVec.ofNat 64 index }
    let s := { s with qops := mset s.qops id o, front := { s.front with regionReqs := mset s.front.regionReqs id q } }
    let cl := clusterOf s.cid
    let what := toBytes 8 index ++ toBytes 1 (if rs then 1 else 0) ++ (match e with
      | some r => toBytes 8 r.base ++ toBytes 8 r.length ++ toBytes 2 r.space
      | none => [])
    s.sendReq id (cyc (6 + if rs then hopsHome cl 32 else hops cl 3)) (.regionTableUpdate (if rs then 32 else 100) id) (requestHash 10 s.sp what))
    fun r s => match r with
      | .value v => .ok (s.setX d (if v = 2 ^ 64 - 1 then -1 else BitVec.ofNat 64 v))
      | _ => .ok s

/-- The traps that RS raises (R373). -/
def State.regionSide (s : State) (rs : Bool) (x : Word) (k : State → Res) : Res :=
  if !rs && s.noDram then trapR reflexDramAccess x
  else if rs && s.noReflex then trapR onchipRange x
  else k s

/-- WREG (R373). -/
def execWreg (d a b : BitVec 5) (s : State) : Out :=
  let va := s.x a
  let vb := s.x b
  finish s (match ownTcmAt va 32 32 with
    | none => trapR onchipRange va
    | some o =>
      if s.pending.isSome then s.regionRequest d true 0 (.wreg d a b) va none
      else if s.queuedMem || !s.mxIdle then .wait s
      else
        let n := ofBytes (s.rdOwn o 32)
        let base := bits n 0 64
        let len := bits n 64 64
        let sp := bits n 128 16
        let rs := bit n 144
        if 63 < vb.toNat then trapR illegalOperand vb
        else if base % 0x10000 ≠ 0 ∨ len % 0x10000 ≠ 0 ∨ len = 0 ∨ 2 ^ 64 < base + len ∨ bits n 145 111 ≠ 0 then trapR illegalOperand va
        else s.regionSide rs va fun s =>
          if rs && (sp ≠ 0 || 0x2000000 < base + len) then trapR illegalOperand va
          else s.regionRequest d rs vb.toNat (.wreg d a b) va
            (some { valid := true, tenant := s.src.tenant, space := sp, base := base, length := len, version := 0 }))

/-- WUNREG (R373). -/
def execWunreg (d a : BitVec 5) (s : State) : Out :=
  let va := s.x a
  let n := va.toNat
  let rs := bit n 8
  finish s (if bits n 6 2 ≠ 0 ∨ bits n 9 55 ≠ 0 then trapR illegalOperand va
    else if s.pending.isNone && !s.mxIdle then .wait s
    else s.regionSide rs va fun s => s.regionRequest d rs (bits n 0 6) (.wunreg d a) va none)

end Sys2Proof.Machine
end

