-- ==== Sys2Proof/Machine/Dispatch.lean ====
section
/-! DEFINITION. The dispatcher: one arm for each constructor of Instr, one direct call of its meaning. -/

namespace Sys2Proof.Machine

open Host

def exec (i : Instr) (s : State) : Host.Outcome State Fault Refusal :=
  match i with
  | .beq a b off => Sys2Proof.Machine.execBeq a b off s
  | .bne a b off => Sys2Proof.Machine.execBne a b off s
  | .blt a b off => Sys2Proof.Machine.execBlt a b off s
  | .bge a b off => Sys2Proof.Machine.execBge a b off s
  | .bltu a b off => Sys2Proof.Machine.execBltu a b off s
  | .bgeu a b off => Sys2Proof.Machine.execBgeu a b off s
  | .bpt a off => Sys2Proof.Machine.execBpt a off s
  | .bpf a off => Sys2Proof.Machine.execBpf a off s
  | .j off => Sys2Proof.Machine.execJ off s
  | .call off => Sys2Proof.Machine.execCall off s
  | .jr a imm => Sys2Proof.Machine.execJr a imm s
  | .jalr d a imm => Sys2Proof.Machine.execJalr d a imm s
  | .loop d a imm => Sys2Proof.Machine.execLoop d a imm s
  | .liw d literal => Sys2Proof.Machine.execLiw d literal s
  | .liwh d literal => Sys2Proof.Machine.execLiwh d literal s
  | .ld8 d a off => Sys2Proof.Machine.execLd8 d a off s
  | .ld8u d a off => Sys2Proof.Machine.execLd8u d a off s
  | .ld16 d a off => Sys2Proof.Machine.execLd16 d a off s
  | .ld16u d a off => Sys2Proof.Machine.execLd16u d a off s
  | .ld32 d a off => Sys2Proof.Machine.execLd32 d a off s
  | .ld32u d a off => Sys2Proof.Machine.execLd32u d a off s
  | .ld64 d a off => Sys2Proof.Machine.execLd64 d a off s
  | .st8 d a off => Sys2Proof.Machine.execSt8 d a off s
  | .st16 d a off => Sys2Proof.Machine.execSt16 d a off s
  | .st32 d a off => Sys2Proof.Machine.execSt32 d a off s
  | .st64 d a off => Sys2Proof.Machine.execSt64 d a off s
  | .lda32 d a scope => Sys2Proof.Machine.execLda32 d a scope s
  | .lda64 d a scope => Sys2Proof.Machine.execLda64 d a scope s
  | .stl32 d a scope => Sys2Proof.Machine.execStl32 d a scope s
  | .stl64 d a scope => Sys2Proof.Machine.execStl64 d a scope s
  | .ldp d a off => Sys2Proof.Machine.execLdp d a off s
  | .stp d a off => Sys2Proof.Machine.execStp d a off s
  | .ldf64 d a off => Sys2Proof.Machine.execLdf64 d a off s
  | .stf64 d a off => Sys2Proof.Machine.execStf64 d a off s
  | .vld d a off => Sys2Proof.Machine.execVld d a off s
  | .vldb d a off => Sys2Proof.Machine.execVldb d a off s
  | .vlds d a b => Sys2Proof.Machine.execVlds d a b s
  | .vldsPi d a b => Sys2Proof.Machine.execVldsPi d a b s
  | .vst d a off => Sys2Proof.Machine.execVst d a off s
  | .vstm d a b => Sys2Proof.Machine.execVstm d a b s
  | .amoadd v a w ord scope => Sys2Proof.Machine.execAmoadd v a w ord scope s
  | .amoand v a w ord scope => Sys2Proof.Machine.execAmoand v a w ord scope s
  | .amoor v a w ord scope => Sys2Proof.Machine.execAmoor v a w ord scope s
  | .amoorFence a w ord scope => Sys2Proof.Machine.execAmoorFence a w ord scope s
  | .amoxor v a w ord scope => Sys2Proof.Machine.execAmoxor v a w ord scope s
  | .amomin v a w ord scope => Sys2Proof.Machine.execAmomin v a w ord scope s
  | .amomax v a w ord scope => Sys2Proof.Machine.execAmomax v a w ord scope s
  | .amominu v a w ord scope => Sys2Proof.Machine.execAmominu v a w ord scope s
  | .amomaxu v a w ord scope => Sys2Proof.Machine.execAmomaxu v a w ord scope s
  | .amoswp v a w ord scope => Sys2Proof.Machine.execAmoswp v a w ord scope s
  | .cas32 v a ord scope => Sys2Proof.Machine.execCas32 v a ord scope s
  | .cas64 v a ord scope => Sys2Proof.Machine.execCas64 v a ord scope s
  | .amofadd v a w ord scope => Sys2Proof.Machine.execAmofadd v a w ord scope s
  | .amofmin v a w ord scope => Sys2Proof.Machine.execAmofmin v a w ord scope s
  | .amofmax v a w ord scope => Sys2Proof.Machine.execAmofmax v a w ord scope s
  | .cwb a => Sys2Proof.Machine.execCwb a s
  | .cinv a => Sys2Proof.Machine.execCinv a s
  | .cinvRc a => Sys2Proof.Machine.execCinvRc a s
  | .cinvD a => Sys2Proof.Machine.execCinvD a s
  | .pref a => Sys2Proof.Machine.execPref a s
  | .prefSc a => Sys2Proof.Machine.execPrefSc a s
  | .icinv a => Sys2Proof.Machine.execIcinv a s
  | .enq d a b => Sys2Proof.Machine.execEnq d a b s
  | .enqt d a b mod => Sys2Proof.Machine.execEnqt d a b mod s
  | .deq d a b => Sys2Proof.Machine.execDeq d a b s
  | .deqt d a b mod => Sys2Proof.Machine.execDeqt d a b mod s
  | .qinit d a b => Sys2Proof.Machine.execQinit d a b s
  | .qstat d a b => Sys2Proof.Machine.execQstat d a b s
  | .qdrain d a => Sys2Proof.Machine.execQdrain d a s
  | .qreset d a => Sys2Proof.Machine.execQreset d a s
  | .pinit d a b => Sys2Proof.Machine.execPinit d a b s
  | .pstat d a b => Sys2Proof.Machine.execPstat d a b s
  | .balloc d a => Sys2Proof.Machine.execBalloc d a s
  | .bfree d a b => Sys2Proof.Machine.execBfree d a b s
  | .btapp d a => Sys2Proof.Machine.execBtapp d a s
  | .btget d a b => Sys2Proof.Machine.execBtget d a b s
  | .btfork d a b => Sys2Proof.Machine.execBtfork d a b s
  | .btrel d a => Sys2Proof.Machine.execBtrel d a s
  | .send d a b => Sys2Proof.Machine.execSend d a b s
  | .sendAck d a b => Sys2Proof.Machine.execSendAck d a b s
  | .sendTrap d a b => Sys2Proof.Machine.execSendTrap d a b s
  | .sendv d a b => Sys2Proof.Machine.execSendv d a b s
  | .sendvAck d a b => Sys2Proof.Machine.execSendvAck d a b s
  | .sendvTrap d a b => Sys2Proof.Machine.execSendvTrap d a b s
  | .recv d a b => Sys2Proof.Machine.execRecv d a b s
  | .recvt d a b => Sys2Proof.Machine.execRecvt d a b s
  | .cpy d a b => Sys2Proof.Machine.execCpy d a b s
  | .cpy2d d a => Sys2Proof.Machine.execCpy2d d a s
  | .cpy2dSt d a => Sys2Proof.Machine.execCpy2dSt d a s
  | .cpyg d a b => Sys2Proof.Machine.execCpyg d a b s
  | .cpys d a b => Sys2Proof.Machine.execCpys d a b s
  | .cpyh d a b => Sys2Proof.Machine.execCpyh d a b s
  | .cpyq d a b => Sys2Proof.Machine.execCpyq d a b s
  | .strm d a => Sys2Proof.Machine.execStrm d a s
  | .strmW d a => Sys2Proof.Machine.execStrmW d a s
  | .strmx d => Sys2Proof.Machine.execStrmx d s
  | .xsend a => Sys2Proof.Machine.execXsend a s
  | .xrecv a => Sys2Proof.Machine.execXrecv a s
  | .xphase d a => Sys2Proof.Machine.execXphase d a s
  | .sstep d => Sys2Proof.Machine.execSstep d s
  | .gjoin d a => Sys2Proof.Machine.execGjoin d a s
  | .gleave d => Sys2Proof.Machine.execGleave d s
  | .gbar d => Sys2Proof.Machine.execGbar d s
  | .garr d => Sys2Proof.Machine.execGarr d s
  | .gwait a => Sys2Proof.Machine.execGwait a s
  | .spawn d a b => Sys2Proof.Machine.execSpawn d a b s
  | .migr a => Sys2Proof.Machine.execMigr a s
  | .migrLd d a => Sys2Proof.Machine.execMigrLd d a s
  | .tgrow d a => Sys2Proof.Machine.execTgrow d a s
  | .tidx d => Sys2Proof.Machine.execTidx d s
  | .tidxNx d => Sys2Proof.Machine.execTidxNx d s
  | .probe d a b => Sys2Proof.Machine.execProbe d a b s
  | .xmpub d a b => Sys2Proof.Machine.execXmpub d a b s
  | .xmrd d a b => Sys2Proof.Machine.execXmrd d a b s
  | .xmrdt d a b => Sys2Proof.Machine.execXmrdt d a b s
  | .stake d a b => Sys2Proof.Machine.execStake d a b s
  | .unstake d a => Sys2Proof.Machine.execUnstake d a s
  | .lvinit d a b => Sys2Proof.Machine.execLvinit d a b s
  | .lvinv d a => Sys2Proof.Machine.execLvinv d a s
  | .lvstat d a b => Sys2Proof.Machine.execLvstat d a b s
  | .wreg d a b => Sys2Proof.Machine.execWreg d a b s
  | .wunreg d a => Sys2Proof.Machine.execWunreg d a s
  | .ssrex d a b => Sys2Proof.Machine.execSsrex d a b s
  | .ssrim d a b => Sys2Proof.Machine.execSsrim d a b s
  | .csrr d csr => Sys2Proof.Machine.execCsrr d csr s
  | .csrw d csr => Sys2Proof.Machine.execCsrw d csr s
  | .csrs d csr => Sys2Proof.Machine.execCsrs d csr s
  | .csrc d csr => Sys2Proof.Machine.execCsrc d csr s
  | .trap a => Sys2Proof.Machine.execTrap a s
  | .trapBrk a => Sys2Proof.Machine.execTrapBrk a s
  | .time d => Sys2Proof.Machine.execTime d s
  | .talarm d a b => Sys2Proof.Machine.execTalarm d a b s
  | .add d a b => Sys2Proof.Machine.execAdd d a b s
  | .sub d a b => Sys2Proof.Machine.execSub d a b s
  | .and d a b => Sys2Proof.Machine.execAnd d a b s
  | .or d a b => Sys2Proof.Machine.execOr d a b s
  | .xor d a b => Sys2Proof.Machine.execXor d a b s
  | .sll d a b => Sys2Proof.Machine.execSll d a b s
  | .srl d a b => Sys2Proof.Machine.execSrl d a b s
  | .sra d a b => Sys2Proof.Machine.execSra d a b s
  | .slt d a b => Sys2Proof.Machine.execSlt d a b s
  | .sltu d a b => Sys2Proof.Machine.execSltu d a b s
  | .min d a b => Sys2Proof.Machine.execMin d a b s
  | .max d a b => Sys2Proof.Machine.execMax d a b s
  | .minu d a b => Sys2Proof.Machine.execMinu d a b s
  | .maxu d a b => Sys2Proof.Machine.execMaxu d a b s
  | .addi d a imm => Sys2Proof.Machine.execAddi d a imm s
  | .andi d a imm => Sys2Proof.Machine.execAndi d a imm s
  | .ori d a imm => Sys2Proof.Machine.execOri d a imm s
  | .xori d a imm => Sys2Proof.Machine.execXori d a imm s
  | .slli d a imm => Sys2Proof.Machine.execSlli d a imm s
  | .srli d a imm => Sys2Proof.Machine.execSrli d a imm s
  | .srai d a imm => Sys2Proof.Machine.execSrai d a imm s
  | .slti d a imm => Sys2Proof.Machine.execSlti d a imm s
  | .mul d a b => Sys2Proof.Machine.execMul d a b s
  | .mulh d a b => Sys2Proof.Machine.execMulh d a b s
  | .mulhu d a b => Sys2Proof.Machine.execMulhu d a b s
  | .div d a b => Sys2Proof.Machine.execDiv d a b s
  | .divu d a b => Sys2Proof.Machine.execDivu d a b s
  | .rem d a b => Sys2Proof.Machine.execRem d a b s
  | .remu d a b => Sys2Proof.Machine.execRemu d a b s
  | .lui d imm => Sys2Proof.Machine.execLui d imm s
  | .addpc d imm => Sys2Proof.Machine.execAddpc d imm s
  | .clz d a => Sys2Proof.Machine.execClz d a s
  | .ctz d a => Sys2Proof.Machine.execCtz d a s
  | .popc d a => Sys2Proof.Machine.execPopc d a s
  | .bswap d a => Sys2Proof.Machine.execBswap d a s
  | .peq d a b => Sys2Proof.Machine.execPeq d a b s
  | .pne d a b => Sys2Proof.Machine.execPne d a b s
  | .plt d a b => Sys2Proof.Machine.execPlt d a b s
  | .pge d a b => Sys2Proof.Machine.execPge d a b s
  | .pltu d a b => Sys2Proof.Machine.execPltu d a b s
  | .pgeu d a b => Sys2Proof.Machine.execPgeu d a b s
  | .pand d a b => Sys2Proof.Machine.execPand d a b s
  | .por d a b => Sys2Proof.Machine.execPor d a b s
  | .pxor d a b => Sys2Proof.Machine.execPxor d a b s
  | .pnot d a => Sys2Proof.Machine.execPnot d a s
  | .sel d a b => Sys2Proof.Machine.execSel d a b s
  | .movpw d => Sys2Proof.Machine.execMovpw d s
  | .movwp a => Sys2Proof.Machine.execMovwp a s
  | .addsh d a b => Sys2Proof.Machine.execAddsh d a b s
  | .part d a b => Sys2Proof.Machine.execPart d a b s
  | .vadd d a b => Sys2Proof.Machine.execVadd d a b s
  | .vsub d a b => Sys2Proof.Machine.execVsub d a b s
  | .vmul d a b => Sys2Proof.Machine.execVmul d a b s
  | .vmin d a b => Sys2Proof.Machine.execVmin d a b s
  | .vmax d a b => Sys2Proof.Machine.execVmax d a b s
  | .vand d a b => Sys2Proof.Machine.execVand d a b s
  | .vor d a b => Sys2Proof.Machine.execVor d a b s
  | .vxor d a b => Sys2Proof.Machine.execVxor d a b s
  | .vshl d a b => Sys2Proof.Machine.execVshl d a b s
  | .vshr d a b => Sys2Proof.Machine.execVshr d a b s
  | .vsra d a b => Sys2Proof.Machine.execVsra d a b s
  | .vfadd d a b => Sys2Proof.Machine.execVfadd d a b s
  | .vfsub d a b => Sys2Proof.Machine.execVfsub d a b s
  | .vfmul d a b => Sys2Proof.Machine.execVfmul d a b s
  | .vfma d a b => Sys2Proof.Machine.execVfma d a b s
  | .vfmin d a b => Sys2Proof.Machine.execVfmin d a b s
  | .vfmax d a b => Sys2Proof.Machine.execVfmax d a b s
  | .vfabs d a => Sys2Proof.Machine.execVfabs d a s
  | .vfneg d a => Sys2Proof.Machine.execVfneg d a s
  | .vrcp d a => Sys2Proof.Machine.execVrcp d a s
  | .vrsq d a => Sys2Proof.Machine.execVrsq d a s
  | .vsqrt d a => Sys2Proof.Machine.execVsqrt d a s
  | .vexp2 d a => Sys2Proof.Machine.execVexp2 d a s
  | .vlog2 d a => Sys2Proof.Machine.execVlog2 d a s
  | .vdiv d a b => Sys2Proof.Machine.execVdiv d a b s
  | .vcvt d a b => Sys2Proof.Machine.execVcvt d a b s
  | .vcvts d a b => Sys2Proof.Machine.execVcvts d a b s
  | .vqnt d a b => Sys2Proof.Machine.execVqnt d a b s
  | .vrsum d a b => Sys2Proof.Machine.execVrsum d a b s
  | .vrmax d a b => Sys2Proof.Machine.execVrmax d a b s
  | .vrmin d a b => Sys2Proof.Machine.execVrmin d a b s
  | .vshuf d a b => Sys2Proof.Machine.execVshuf d a b s
  | .vbcast d a b => Sys2Proof.Machine.execVbcast d a b s
  | .vext d a b => Sys2Proof.Machine.execVext d a b s
  | .vins d a b => Sys2Proof.Machine.execVins d a b s
  | .vcmp d a b => Sys2Proof.Machine.execVcmp d a b s
  | .vsel d a b => Sys2Proof.Machine.execVsel d a b s
  | .vrec d a b => Sys2Proof.Machine.execVrec d a b s
  | .vema d b => Sys2Proof.Machine.execVema d b s
  | .vmovx d a b => Sys2Proof.Machine.execVmovx d a b s
  | .vmovv d a => Sys2Proof.Machine.execVmovv d a s
  | .vsplat d a => Sys2Proof.Machine.execVsplat d a s
  | .vloop d a => Sys2Proof.Machine.execVloop d a s
  | .mcfg a => Sys2Proof.Machine.execMcfg a s
  | .mlda a => Sys2Proof.Machine.execMlda a s
  | .mldb a w => Sys2Proof.Machine.execMldb a w s
  | .mma t w => Sys2Proof.Machine.execMma t w s
  | .mmas t w => Sys2Proof.Machine.execMmas t w s
  | .mrot t w => Sys2Proof.Machine.execMrot t w s
  | .mdq a => Sys2Proof.Machine.execMdq a s
  | .mdelta t a w => Sys2Proof.Machine.execMdelta t a w s
  | .mzero t => Sys2Proof.Machine.execMzero t s
  | .mst t a w => Sys2Proof.Machine.execMst t a w s
  | .mscale t w => Sys2Proof.Machine.execMscale t w s
  | .mredMax t w => Sys2Proof.Machine.execMredMax t w s
  | .mredSum t w => Sys2Proof.Machine.execMredSum t w s
  | .mchk a => Sys2Proof.Machine.execMchk a s
  | .nop => Sys2Proof.Machine.execNop s
  | .synci => Sys2Proof.Machine.execSynci s
  | .exit => Sys2Proof.Machine.execExit s
  | .yield => Sys2Proof.Machine.execYield s
  | .tret => Sys2Proof.Machine.execTret s
  | .halt => Sys2Proof.Machine.execHalt s
  | .reflexRelease => Sys2Proof.Machine.execReflexRelease s
  | .shadowBankSwitch => Sys2Proof.Machine.execShadowBankSwitch s
  | .deadlineMiss => Sys2Proof.Machine.execDeadlineMiss s
  | .budgetExceeded => Sys2Proof.Machine.execBudgetExceeded s
  | .starvationGuard => Sys2Proof.Machine.execStarvationGuard s
  | .admission => Sys2Proof.Machine.execAdmission s
  | .taskDispatch => Sys2Proof.Machine.execTaskDispatch s
  | .bankRelease => Sys2Proof.Machine.execBankRelease s
  | .clearing => Sys2Proof.Machine.execClearing s
  | .programCompletion => Sys2Proof.Machine.execProgramCompletion s
  | .migrationArrival => Sys2Proof.Machine.execMigrationArrival s
  | .migrationResend => Sys2Proof.Machine.execMigrationResend s
  | .preemption => Sys2Proof.Machine.execPreemption s
  | .seize => Sys2Proof.Machine.execSeize s
  | .contextStreamEnd => Sys2Proof.Machine.execContextStreamEnd s
  | .restore => Sys2Proof.Machine.execRestore s
  | .retryResend => Sys2Proof.Machine.execRetryResend s
  | .stakeRequest => Sys2Proof.Machine.execStakeRequest s
  | .stakeGrant => Sys2Proof.Machine.execStakeGrant s
  | .standbyMaskWrite => Sys2Proof.Machine.execStandbyMaskWrite s
  | .mailboxArrival => Sys2Proof.Machine.execMailboxArrival s
  | .sendAcknowledgement => Sys2Proof.Machine.execSendAcknowledgement s
  | .savedContextDelivery => Sys2Proof.Machine.execSavedContextDelivery s
  | .alarmFire => Sys2Proof.Machine.execAlarmFire s
  | .sliceRequest => Sys2Proof.Machine.execSliceRequest s
  | .pageWalkComplete => Sys2Proof.Machine.execPageWalkComplete s
  | .confirmation => Sys2Proof.Machine.execConfirmation s
  | .accessReply => Sys2Proof.Machine.execAccessReply s
  | .translationFault => Sys2Proof.Machine.execTranslationFault s
  | .faultMessageResend => Sys2Proof.Machine.execFaultMessageResend s
  | .faultReplyResume => Sys2Proof.Machine.execFaultReplyResume s
  | .faultReplyRetryLater => Sys2Proof.Machine.execFaultReplyRetryLater s
  | .faultReplyKill => Sys2Proof.Machine.execFaultReplyKill s
  | .overflowMessage => Sys2Proof.Machine.execOverflowMessage s
  | .overflowRecall => Sys2Proof.Machine.execOverflowRecall s
  | .overflowRecallAnswer => Sys2Proof.Machine.execOverflowRecallAnswer s
  | .cacheOpComplete => Sys2Proof.Machine.execCacheOpComplete s
  | .sliceGate => Sys2Proof.Machine.execSliceGate s
  | .sliceWake => Sys2Proof.Machine.execSliceWake s
  | .sliceWakeComplete => Sys2Proof.Machine.execSliceWakeComplete s
  | .shootdownDataRange => Sys2Proof.Machine.execShootdownDataRange s
  | .shootdownDataSpace => Sys2Proof.Machine.execShootdownDataSpace s
  | .shootdownInstructionRange => Sys2Proof.Machine.execShootdownInstructionRange s
  | .shootdownInstructionProgram => Sys2Proof.Machine.execShootdownInstructionProgram s
  | .shootdownEverything => Sys2Proof.Machine.execShootdownEverything s
  | .shootdownNode => Sys2Proof.Machine.execShootdownNode s
  | .shootdownCompletion => Sys2Proof.Machine.execShootdownCompletion s
  | .regionTableUpdate => Sys2Proof.Machine.execRegionTableUpdate s
  | .peerTranslationRequest => Sys2Proof.Machine.execPeerTranslationRequest s
  | .peerTranslationReply => Sys2Proof.Machine.execPeerTranslationReply s
  | .leaseExpiry => Sys2Proof.Machine.execLeaseExpiry s
  | .debugHalt => Sys2Proof.Machine.execDebugHalt s
  | .debugResume => Sys2Proof.Machine.execDebugResume s
  | .debugStep => Sys2Proof.Machine.execDebugStep s
  | .debugQuiesce => Sys2Proof.Machine.execDebugQuiesce s
  | .debugStatus => Sys2Proof.Machine.execDebugStatus s
  | .debugDump => Sys2Proof.Machine.execDebugDump s
  | .copySectorReply => Sys2Proof.Machine.execCopySectorReply s
  | .copyCompletion => Sys2Proof.Machine.execCopyCompletion s
  | .landingHandlerInvocation => Sys2Proof.Machine.execLandingHandlerInvocation s
  | .cpyqRetry => Sys2Proof.Machine.execCpyqRetry s
  | .streamRefill => Sys2Proof.Machine.execStreamRefill s
  | .exchangeWindow => Sys2Proof.Machine.execExchangeWindow s
  | .exchangeArrival => Sys2Proof.Machine.execExchangeArrival s
  | .barrierArrival => Sys2Proof.Machine.execBarrierArrival s
  | .sstepRelease => Sys2Proof.Machine.execSstepRelease s
  | .superstepReplay => Sys2Proof.Machine.execSuperstepReplay s
  | .probeHop => Sys2Proof.Machine.execProbeHop s
  | .autoProbe => Sys2Proof.Machine.execAutoProbe s
  | .xmpubCommit => Sys2Proof.Machine.execXmpubCommit s
  | .xmrdCompletion => Sys2Proof.Machine.execXmrdCompletion s
  | .homeControllerOperation => Sys2Proof.Machine.execHomeControllerOperation s
  | .homeControllerReply => Sys2Proof.Machine.execHomeControllerReply s
  | .queueGrant => Sys2Proof.Machine.execQueueGrant s
  | .waiterWithdrawal => Sys2Proof.Machine.execWaiterWithdrawal s
  | .waiterRecordReturn => Sys2Proof.Machine.execWaiterRecordReturn s
  | .creditMessage => Sys2Proof.Machine.execCreditMessage s
  | .peerUnreachable => Sys2Proof.Machine.execPeerUnreachable s
  | .slotFillComplete => Sys2Proof.Machine.execSlotFillComplete s
  | .rotationDataArrival => Sys2Proof.Machine.execRotationDataArrival s
  | .rotationCreditArrival => Sys2Proof.Machine.execRotationCreditArrival s
  | .pairHashArrival => Sys2Proof.Machine.execPairHashArrival s
  | .pairMatchTimeout => Sys2Proof.Machine.execPairMatchTimeout s
  | .counterSnapshot => Sys2Proof.Machine.execCounterSnapshot s
  | .firmwareCheckpoint => Sys2Proof.Machine.execFirmwareCheckpoint s
  | .recovery => Sys2Proof.Machine.execRecovery s
  | .recoveryEnd => Sys2Proof.Machine.execRecoveryEnd s
  | .heartbeatSend => Sys2Proof.Machine.execHeartbeatSend s
  | .heartbeatReceive => Sys2Proof.Machine.execHeartbeatReceive s
  | .heartbeatMiss => Sys2Proof.Machine.execHeartbeatMiss s
  | .heartbeatAckMiss => Sys2Proof.Machine.execHeartbeatAckMiss s
  | .xegarLinkUp => Sys2Proof.Machine.execXegarLinkUp s
  | .mirrorUpdate => Sys2Proof.Machine.execMirrorUpdate s
  | .hostQueueEnqueue => Sys2Proof.Machine.execHostQueueEnqueue s
  | .hostQueueDequeue => Sys2Proof.Machine.execHostQueueDequeue s
  | .hostSlotControlRead => Sys2Proof.Machine.execHostSlotControlRead s
  | .hostSlotDataWrite => Sys2Proof.Machine.execHostSlotDataWrite s
  | .hostSlotCommit => Sys2Proof.Machine.execHostSlotCommit s
  | .hostSlotRelease => Sys2Proof.Machine.execHostSlotRelease s
  | .hostBar2Access => Sys2Proof.Machine.execHostBar2Access s
  | .hostRegisterWrite => Sys2Proof.Machine.execHostRegisterWrite s
  | .commandDispatch => Sys2Proof.Machine.execCommandDispatch s
  | .packetSignalRelease => Sys2Proof.Machine.execPacketSignalRelease s
  | .load => Sys2Proof.Machine.execLoad s
  | .launch => Sys2Proof.Machine.execLaunch s
  | .arm => Sys2Proof.Machine.execArm s
  | .disarm => Sys2Proof.Machine.execDisarm s
  | .signal => Sys2Proof.Machine.execSignal s
  | .mapq => Sys2Proof.Machine.execMapq s
  | .mapbar => Sys2Proof.Machine.execMapbar s
  | .mapwin => Sys2Proof.Machine.execMapwin s
  | .grant => Sys2Proof.Machine.execGrant s
  | .holdrel => Sys2Proof.Machine.execHoldrel s
  | .tenantCreate => Sys2Proof.Machine.execTenantCreate s
  | .tenantDestroy => Sys2Proof.Machine.execTenantDestroy s
  | .attest => Sys2Proof.Machine.execAttest s
  | .cap => Sys2Proof.Machine.execCap s
  | .update => Sys2Proof.Machine.execUpdate s
  | .updateCommit => Sys2Proof.Machine.execUpdateCommit s
  | .updateRevert => Sys2Proof.Machine.execUpdateRevert s
  | .msix => Sys2Proof.Machine.execMsix s
  | .decodeTableLoad => Sys2Proof.Machine.execDecodeTableLoad s
  | .powerCapCheck => Sys2Proof.Machine.execPowerCapCheck s
  | .thermAlert => Sys2Proof.Machine.execThermAlert s
  | .thermAlertClear => Sys2Proof.Machine.execThermAlertClear s
  | .perstN => Sys2Proof.Machine.execPerstN s
  | .moduleReset => Sys2Proof.Machine.execModuleReset s
  | .boot => Sys2Proof.Machine.execBoot s
  | .ptmSynchronisation => Sys2Proof.Machine.execPtmSynchronisation s
  | .remoteAccess => Sys2Proof.Machine.execRemoteAccess s
  | .linkWordArrival => Sys2Proof.Machine.execLinkWordArrival s
  | .heartbeatAcknowledgement => Sys2Proof.Machine.execHeartbeatAcknowledgement s
  | .mirrorAcknowledgement => Sys2Proof.Machine.execMirrorAcknowledgement s

end Sys2Proof.Machine
end

