-- ==== Sys2Proof/Machine/Step.lean ====
section
/-! DEFINITION. One step: an event that is due, else what comes about by itself, else one issue, else the boot sequence, else
time passes. And the state in which a given word is the next to be executed. -/

namespace Sys2Proof.Machine

/-- Take an event. -/
def take (s : State) (e : Event) : Host.Outcome State Fault Refusal := exec e.step { s with event := e }

/-- One step of the module; the records of Saved contexts follow it. -/
def step (s : State) : Host.Outcome State Fault Refusal := afterStep s <|
  match s.due with
  | some (e, t) => take t e
  | none =>
    match s.trigger with
    | some e => take s e
    | none =>
      match s.chooseIssue with
      | some (c, b) => issue exec s c b
      | none =>
        match s.chooseAway with
        | some (i, b) => s.issueAway exec i b
        | none => if s.bootDue then take s .boot else .next s.pass

/-- `s` with the instruction of `nbits` bits as the next to be executed: thread 1 of program 1 alone on core 0 of cluster
0, its text locked in the L0 instruction cache. -/
def State.withFetchWord (s : State) (nbits w : Nat) : State := s.placeWord nbits w

end Sys2Proof.Machine
end

