-- ==== Sys2Proof/Safety.lean ====
section
/-! DEFINITION. What a safe run is: the model neither faults nor refuses. A trap is a next state and part of a safe run. -/

namespace Sys2Proof

/-- The step answered a next state. -/
def Safe (o : Host.Outcome Machine.State Machine.Fault Machine.Refusal) : Prop := ∃ t, o = .next t

end Sys2Proof
end

