-- ==== Sys2Proof/Certificates/Slice0/Obligations.lean ====
section
/-! DEFINITION. The statements for the provers, from the numbered rules of spec/, and the words they are said in. -/

namespace Sys2Proof.Claims

open Sys2Proof.Machine

/-- What every step and every meaning answers. -/
abbrev Answer := Host.Outcome State Fault Refusal

/-- The answer is a next state, and it meets `P`. -/
def Next (o : Answer) (P : State → Prop) : Prop := ∃ t, o = .next t ∧ P t

/-- pc after a word that falls through (R54-R56): word 0 of a serial bundle goes on to word 1, any other word to the next
bundle; word 1 of a parallel bundle leaves pc to word 0. -/
def pcAfter (s : State) : IAddr :=
  match s.form with
  | .ser0 => s.bundle + 4
  | .par1 => s.th.pc
  | _ => s.bundle + 8

/-- R58: the address of the word that would have executed next. -/
def returnAddress (s : State) : IAddr :=
  match s.form with
  | .ser0 => s.bundle + 4
  | _ => s.bundle + 8

/-- The address of the word itself, or of the parallel or wide bundle it acts with (R55, R69). -/
def trapAddress (s : State) : IAddr :=
  match s.form with
  | .ser1 => s.bundle + 4
  | _ => s.bundle

/-- A word with no effect but its step past itself. -/
def stepsPast (s : State) : State := { s with stat := .done, th := { s.th with pc := pcAfter s } }

/-- `t` is `s` after a word that wrote x[d] := w and stepped past itself, and did nothing else: x0 keeps reading 0 (R65). -/
structure XWritten (s : State) (d : BitVec 5) (w : Word) (t : State) : Prop where
  value : t.th.getX d.toNat = if d.toNat % 16 = 0 then 0 else w
  others : ∀ r, r % 16 ≠ d.toNat % 16 → t.th.getX r = s.th.getX r
  frame : t = { stepsPast s with th := { (stepsPast s).th with x := t.th.x } }

/-- `t` is `s` after a word that wrote p[d] := b and stepped past itself, and did nothing else: p0 keeps reading 1 (R65). -/
structure PWritten (s : State) (d : BitVec 5) (b : Bool) (t : State) : Prop where
  value : t.th.getP d.toNat = if d.toNat = 0 then true else b
  others : ∀ p, p ≠ d.toNat → t.th.getP p = s.th.getP p
  frame : t = { stepsPast s with th := { (stepsPast s).th with pw := t.th.pw } }

/-- `t` is `s` after a taken transfer to `a` that wrote nothing else; the next word of the thread issues two core cycles
later (R126). -/
def Jumped (s : State) (a : IAddr) (t : State) : Prop :=
  t = { s with stat := .done, th := { s.th with pc := a, notBefore := s.cycle + 2 } }

/-- `t` is `s` after a word that wrote x[d] := w, ready for words that issue `l` core cycles later (R126), and stepped past itself;
`free` is the core's divider afterwards. -/
structure XLater (s : State) (d : BitVec 5) (w : Word) (l free : Nat) (t : State) : Prop where
  value : t.th.getX d.toNat = if d.toNat % 16 = 0 then 0 else w
  others : ∀ r, r % 16 ≠ d.toNat % 16 → t.th.getX r = s.th.getX r
  ready : mget t.th.xAt d.toNat = some (s.cycle + l) ∧ ∀ r, r ≠ d.toNat → mget t.th.xAt r = mget s.th.xAt r
  frame : t = { stepsPast s with
    th := { (stepsPast s).th with x := t.th.x, xAt := t.th.xAt }, co := { s.co with divFree := free } }

/-- Trap bank 0 can take a trap (R228). -/
def HandlerReady (s : State) : Prop := s.th.trap0.held = false ∧ s.th.trap0.tvec ≠ 0

/-- `t` is `s` after trap entry into bank 0 (R228): cause, value, resume address, PW and level are saved, HELD is set, pc is
the vector. No other register changes; a word that waited is given up, and only the model's counter of free values moves on. -/
structure Trapped (s : State) (cause : Nat) (tval : Word) (epc : IAddr) (t : State) : Prop where
  code : t.th.trap0.cause = BitVec.ofNat 8 cause
  value : t.th.trap0.tval = tval
  resume : t.th.trap0.tepc = epc
  saved : t.th.trap0.held = true ∧ t.th.trap0.pwsave = s.th.pw ∧ t.th.trap0.level = s.th.level
  kept : t.th.trap0.tvec = s.th.trap0.tvec ∧ t.th.trap0.scratch = s.th.trap0.scratch
  pc : t.th.pc = s.th.trap0.tvec
  frame : t = { s with
    draw := s.draw + 1
    stat := .trapped cause tval
    th := { s.th with
      st := s.th.wake.st, pend := [], fetched := none, notBefore := s.cycle + 2, trap0 := t.th.trap0, pc := t.th.pc } }

/-- The word traps with `cause` and `tval` at `epc`, whenever bank 0 can take it. -/
def Traps (s : State) (cause : Nat) (tval : Word) (epc : IAddr) (o : Answer) : Prop :=
  HandlerReady s → Next o (Trapped s cause tval epc)

/-- x[r] as the bundle found it (R55). -/
abbrev src (s : State) (r : BitVec 5) : Word := s.src.getX r.toNat

end Sys2Proof.Claims

open Sys2Proof Sys2Proof.Machine Sys2Proof.Claims

/-! ### Scalar instructions (R124-R148) -/

/-- Every word of primary opcode `op` whose `n` bits from bit `i` hold `least` or more is refused with `e` (R67, R68). -/
def Sys2Proof.Claims.Refuses (op i n least : Nat) (e : DecodeError) : Prop :=
  ∀ (w : BitVec 27) (lit : BitVec 32), (w.extractLsb' 20 7).toNat = op → least ≤ (w.extractLsb' i n).toNat →
    decodeCode w lit = .error e

/-- R139: each ALU instruction writes the result that the table gives, and nothing else; the fn values
behind the table are refused. -/
def Obligations.AluWritesTheTableResult : Prop :=
  (∀ (s : State) (d a b : BitVec 5), d.toNat < 16 →
    let x := src s a
    let y := src s b
    let sh := y.toNat % 64
    Next (exec (.add d a b) s) (XWritten s d (BitVec.ofNat 64 (x.toNat + y.toNat))) ∧
    Next (exec (.sub d a b) s) (XWritten s d (BitVec.ofInt 64 (x.toNat - y.toNat))) ∧
    Next (exec (.and d a b) s) (XWritten s d (x &&& y)) ∧
    Next (exec (.or d a b) s) (XWritten s d (x ||| y)) ∧
    Next (exec (.xor d a b) s) (XWritten s d (x ^^^ y)) ∧
    Next (exec (.sll d a b) s) (XWritten s d (BitVec.ofNat 64 (x.toNat * 2 ^ sh))) ∧
    Next (exec (.srl d a b) s) (XWritten s d (BitVec.ofNat 64 (x.toNat / 2 ^ sh))) ∧
    Next (exec (.sra d a b) s) (XWritten s d (BitVec.ofInt 64 (x.toInt / 2 ^ sh))) ∧
    Next (exec (.slt d a b) s) (XWritten s d (if x.toInt < y.toInt then 1 else 0)) ∧
    Next (exec (.sltu d a b) s) (XWritten s d (if x.toNat < y.toNat then 1 else 0)) ∧
    Next (exec (.min d a b) s) (XWritten s d (BitVec.ofInt 64 (min x.toInt y.toInt))) ∧
    Next (exec (.max d a b) s) (XWritten s d (BitVec.ofInt 64 (max x.toInt y.toInt))) ∧
    Next (exec (.minu d a b) s) (XWritten s d (BitVec.ofNat 64 (min x.toNat y.toNat))) ∧
    Next (exec (.maxu d a b) s) (XWritten s d (BitVec.ofNat 64 (max x.toNat y.toNat)))) ∧
  Refuses 0x40 0 5 14 .illegalOpcode

/-- R140: each ALUI instruction, with i = SignExtend(imm7) and a shift count of six bits; a shift word with imm7[6] set is
refused. -/
def Obligations.AluImmediateWritesTheTableResult : Prop :=
  (∀ (s : State) (d a : BitVec 5) (imm : BitVec 7) (sh : BitVec 6), d.toNat < 16 →
    let x := src s a
    let i : Word := BitVec.ofInt 64 imm.toInt
    Next (exec (.addi d a imm) s) (XWritten s d (BitVec.ofInt 64 (x.toNat + imm.toInt))) ∧
    Next (exec (.andi d a imm) s) (XWritten s d (x &&& i)) ∧
    Next (exec (.ori d a imm) s) (XWritten s d (x ||| i)) ∧
    Next (exec (.xori d a imm) s) (XWritten s d (x ^^^ i)) ∧
    Next (exec (.slli d a sh) s) (XWritten s d (BitVec.ofNat 64 (x.toNat * 2 ^ sh.toNat))) ∧
    Next (exec (.srli d a sh) s) (XWritten s d (BitVec.ofNat 64 (x.toNat / 2 ^ sh.toNat))) ∧
    Next (exec (.srai d a sh) s) (XWritten s d (BitVec.ofInt 64 (x.toInt / 2 ^ sh.toNat))) ∧
    Next (exec (.slti d a imm) s) (XWritten s d (if x.toInt < imm.toInt then 1 else 0))) ∧
  (∀ (w : BitVec 27) (lit : BitVec 32), (w.extractLsb' 20 7).toNat = 0x41 → 4 ≤ (w.extractLsb' 7 3).toNat →
    (w.extractLsb' 7 3).toNat ≤ 6 → w.getLsbD 6 = true → decodeCode w lit = .error .illegalOperand)

/-- R141 and R118: products and quotients. The two halves of a product, and the quotient and remainder of any divisor but 0,
recombine exactly; a divisor of 0 gives all ones and the dividend; the one signed overflow wraps. R126: a product is ready after 3
cycles, the result of a divide after 20, in which the core's one divider takes no other. -/
def Obligations.MultiplyAndDivideResults : Prop :=
  (∀ (s : State) (d a b : BitVec 5), d.toNat < 16 →
    let x := src s a
    let y := src s b
    let product (w : Word) (t : State) : Prop := XLater s d w 3 s.co.divFree t
    let divided (w : Word) (t : State) : Prop := XLater s d w 20 (s.cycle + 20) t
    Next (exec (.mul d a b) s) (product (BitVec.ofNat 64 (x.toNat * y.toNat))) ∧
    Next (exec (.mulh d a b) s) (product (BitVec.ofInt 64 (x.toInt * y.toInt / 2 ^ 64))) ∧
    Next (exec (.mulhu d a b) s) (product (BitVec.ofNat 64 (x.toNat * y.toNat / 2 ^ 64))) ∧
    (s.cycle < s.co.divFree → ∀ i ∈ [Instr.div d a b, .divu d a b, .rem d a b, .remu d a b],
      Next (exec i s) fun t => t.stat = .held ∧ t.th.pc = s.th.pc ∧ t.th.x = s.th.x ∧ t.co = s.co) ∧
    (s.co.divFree ≤ s.cycle → y = 0 →
      Next (exec (.div d a b) s) (divided (BitVec.ofInt 64 (-1))) ∧
      Next (exec (.divu d a b) s) (divided (BitVec.ofNat 64 (2 ^ 64 - 1))) ∧
      Next (exec (.rem d a b) s) (divided x) ∧
      Next (exec (.remu d a b) s) (divided x)) ∧
    (s.co.divFree ≤ s.cycle → y ≠ 0 →
      (∃ q r : Int, x.toInt = q * y.toInt + r ∧ r.natAbs < y.toInt.natAbs ∧ (r ≠ 0 → (0 < r ↔ 0 < x.toInt)) ∧
        Next (exec (.div d a b) s) (divided (BitVec.ofInt 64 q)) ∧
        Next (exec (.rem d a b) s) (divided (BitVec.ofInt 64 r))) ∧
      (∃ q r : Nat, x.toNat = q * y.toNat + r ∧ r < y.toNat ∧
        Next (exec (.divu d a b) s) (divided (BitVec.ofNat 64 q)) ∧
        Next (exec (.remu d a b) s) (divided (BitVec.ofNat 64 r))))) ∧
  Refuses 0x42 0 5 7 .illegalOpcode

/-- R136-R138 and R143: constants and addresses. -/
def Obligations.ConstantAndAddressResults : Prop :=
  ∀ (s : State) (d a b : BitVec 5) (l : BitVec 32) (imm : BitVec 15), d.toNat < 16 →
    Next (exec (.liw d l) s) (XWritten s d (BitVec.ofInt 64 l.toInt)) ∧
    Next (exec (.liwh d l) s) (XWritten s d (BitVec.ofNat 64 (l.toNat * 2 ^ 32 + (src s d).toNat % 2 ^ 32))) ∧
    Next (exec (.lui d imm) s) (XWritten s d (BitVec.ofInt 64 (imm.toInt * 65536))) ∧
    Next (exec (.addpc d imm) s) (XWritten s d (BitVec.ofInt 64 (s.bundle.toNat + imm.toInt * 8))) ∧
    Next (exec (.addsh d a b) s) (XWritten s d (BitVec.ofNat 64 ((src s a).toNat + (src s b).toNat * 8)))

/-- R142: leading and trailing zeros, one bits, and bytes in reverse order.
R144, R145 and R148: PART takes `len` bits from `pos`, SEL selects by the old x[d], MOVPW reads PW with bit 0 set. -/
def Obligations.BitCountAndFieldResults : Prop :=
  (∀ (s : State) (d a : BitVec 5), d.toNat < 16 →
    let x := src s a
    (∃ n, n ≤ 64 ∧ (∀ i, i < n → x.getLsbD (63 - i) = false) ∧ (n < 64 → x.getLsbD (63 - n) = true) ∧
      Next (exec (.clz d a) s) (XWritten s d (BitVec.ofNat 64 n))) ∧
    (∃ n, n ≤ 64 ∧ (∀ i, i < n → x.getLsbD i = false) ∧ (n < 64 → x.getLsbD n = true) ∧
      Next (exec (.ctz d a) s) (XWritten s d (BitVec.ofNat 64 n))) ∧
    Next (exec (.popc d a) s) (XWritten s d (BitVec.ofNat 64 ((Finset.range 64).filter fun i => x.getLsbD i).card)) ∧
    (∃ w : Word, (∀ k, k < 8 → w.extractLsb' (8 * k) 8 = x.extractLsb' (8 * (7 - k)) 8) ∧
      Next (exec (.bswap d a) s) (XWritten s d w))) ∧
  (∀ (s : State) (d a b : BitVec 5), d.toNat < 16 →
    let x := src s a
    let y := src s b
    let pos := y.toNat % 64
    let len := min (y.toNat / 256 % 128) 64
    let f := x.toNat / 2 ^ pos % 2 ^ len
    let signed := y.toNat / 2 ^ 15 % 2 = 1 ∧ 0 < len ∧ 2 ^ (len - 1) ≤ f
    Next (exec (.part d a b) s) (XWritten s d (if signed then BitVec.ofInt 64 (f - 2 ^ len) else BitVec.ofNat 64 f)) ∧
    Next (exec (.sel d a b) s) (XWritten s d (if src s d = 0 then y else x)) ∧
    Next (exec (.movpw d) s) (XWritten s d (BitVec.ofNat 64 (s.src.pw.toNat / 2 * 2 + 1))))

/-- R146, R147: comparisons and predicate logic write p[d]; R148: MOVWP writes PW[7:1] alone. NOP does nothing (R130). -/
def Obligations.PredicateResults : Prop :=
  (∀ (s : State) (d a b : BitVec 5), d.toNat < 8 →
    let x := src s a
    let y := src s b
    let p := s.src.getP a.toNat
    let q := s.src.getP b.toNat
    Next (exec (.peq d a b) s) (PWritten s d (decide (x = y))) ∧
    Next (exec (.pne d a b) s) (PWritten s d (decide (x ≠ y))) ∧
    Next (exec (.plt d a b) s) (PWritten s d (decide (x.toInt < y.toInt))) ∧
    Next (exec (.pge d a b) s) (PWritten s d (decide (y.toInt ≤ x.toInt))) ∧
    Next (exec (.pltu d a b) s) (PWritten s d (decide (x.toNat < y.toNat))) ∧
    Next (exec (.pgeu d a b) s) (PWritten s d (decide (y.toNat ≤ x.toNat))) ∧
    Next (exec (.pand d a b) s) (PWritten s d (decide (p = true ∧ q = true))) ∧
    Next (exec (.por d a b) s) (PWritten s d (decide (p = true ∨ q = true))) ∧
    Next (exec (.pxor d a b) s) (PWritten s d (decide (p ≠ q))) ∧
    Next (exec (.pnot d a) s) (PWritten s d (decide (p = false))) ∧
    Next (exec (.movwp a) s) (fun t =>
      (∀ k, 1 ≤ k → k < 8 → t.th.getP k = x.getLsbD k) ∧ t.th.getP 0 = true ∧
      t = { stepsPast s with th := { (stepsPast s).th with pw := t.th.pw } }) ∧
    exec .nop s = .next (stepsPast s)) ∧
  Refuses 0x46 0 5 6 .illegalOpcode ∧ Refuses 0x47 0 5 4 .illegalOpcode ∧
  (∀ (w : BitVec 27) (lit : BitVec 32), (w.extractLsb' 20 7).toNat = 0x47 → (w.extractLsb' 0 5).toNat = 3 →
    w.extractLsb' 5 5 ≠ 0#5 → decodeCode w lit = .error .illegalOperand)

/-- A target that needs no look at the code: a bundle address of the instruction space (R70, R129). -/
def Sys2Proof.Claims.BundleTarget (t : Int) (a : IAddr) : Prop := 0 ≤ t ∧ t < 2 ^ 40 ∧ t % 8 = 0 ∧ a = BitVec.ofInt 40 t

/-- A target that no transfer reaches: outside the 40-bit space, or no word address (R70, R129). -/
def Sys2Proof.Claims.BadTarget (t : Int) : Prop := t < 0 ∨ 2 ^ 40 ≤ t ∨ t % 4 ≠ 0

/-- What a conditional branch to `t` does: taken to a bundle address, it jumps there; not taken, it only steps past itself. -/
def Sys2Proof.Claims.Branches (s : State) (cond : Prop) (t : Int) (o : Answer) : Prop :=
  (cond → ∀ a, BundleTarget t a → Next o (Jumped s a)) ∧
  (cond → BadTarget t → Traps s 0x03 (BitVec.ofInt 64 t) (trapAddress s) o) ∧
  (¬cond → o = .next (stepsPast s))

/-- R131, R132: each branch compares as its condition says and transfers to BundleAddr + SignExtend(off9) * 8 (R129); a
target outside the instruction space traps TARGET_MISALIGNED and nothing is written. -/
def Obligations.BranchesTakeTheirTarget : Prop :=
  (∀ (s : State) (a b : BitVec 4) (off : BitVec 9),
    let x := s.src.getX a.toNat
    let y := s.src.getX b.toNat
    let t : Int := s.bundle.toNat + off.toInt * 8
    Branches s (x = y) t (exec (.beq a b off) s) ∧
    Branches s (x ≠ y) t (exec (.bne a b off) s) ∧
    Branches s (x.toInt < y.toInt) t (exec (.blt a b off) s) ∧
    Branches s (y.toInt ≤ x.toInt) t (exec (.bge a b off) s) ∧
    Branches s (x.toNat < y.toNat) t (exec (.bltu a b off) s) ∧
    Branches s (y.toNat ≤ x.toNat) t (exec (.bgeu a b off) s) ∧
    Branches s (s.src.getP a.toNat = true) t (exec (.bpt a off) s) ∧
    Branches s (s.src.getP a.toNat = false) t (exec (.bpf a off) s)) ∧
  Refuses 0x01 9 3 6 .illegalOpcode

/-- `t` is `s` after a taken transfer to `a` that also wrote x[d] := w; a write of x0 is discarded. -/
def Sys2Proof.Claims.JumpedWith (s : State) (a : IAddr) (d : BitVec 5) (w : Word) (t : State) : Prop :=
  t.th.getX d.toNat = (if d.toNat % 16 = 0 then 0 else w) ∧
  (∀ r, r % 16 ≠ d.toNat % 16 → t.th.getX r = s.th.getX r) ∧
  t = { s with stat := .done, th := { s.th with x := t.th.x, pc := a, notBefore := t.th.notBefore } }

/-- R133-R135: J and CALL, JR and JALR, and LOOP. CALL and JALR write the return address of R58 only when the transfer does
not trap; LOOP decides on x[a] - 1, also when d is x0.
R70, R134: a register target that names word 1 is reached when its bundle is at hand, serial and not wide; where the
bundle is parallel or wide the transfer traps. -/
def Obligations.JumpsCallsAndLoops : Prop :=
  (∀ (s : State) (d a : BitVec 5) (off : BitVec 20) (imm : BitVec 7), d.toNat < 16 →
    let t : Int := s.bundle.toNat + off.toInt * 8
    let r : Int := (src s a).toNat + imm.toInt * 4
    let l : Int := s.bundle.toNat + imm.toInt * 8
    let n := src s a - 1
    let link : Word := (returnAddress s).setWidth 64
    (∀ e, BundleTarget t e →
      Next (exec (.j off) s) (Jumped s e) ∧
      Next (exec (.call off) s) (JumpedWith s e 1 link)) ∧
    (BadTarget t →
      Traps s 0x03 (BitVec.ofInt 64 t) (trapAddress s) (exec (.j off) s) ∧
      Traps s 0x03 (BitVec.ofInt 64 t) (trapAddress s) (exec (.call off) s)) ∧
    (∀ e, BundleTarget r e →
      Next (exec (.jr a imm) s) (Jumped s e) ∧
      Next (exec (.jalr d a imm) s) (JumpedWith s e d link)) ∧
    (BadTarget r →
      Traps s 0x03 (BitVec.ofInt 64 r) (trapAddress s) (exec (.jr a imm) s) ∧
      Traps s 0x03 (BitVec.ofInt 64 r) (trapAddress s) (exec (.jalr d a imm) s)) ∧
    (n ≠ 0 → ∀ e, BundleTarget l e → Next (exec (.loop d a imm) s) (JumpedWith s e d n)) ∧
    (n ≠ 0 → BadTarget l → Traps s 0x03 (BitVec.ofInt 64 l) (trapAddress s) (exec (.loop d a imm) s)) ∧
    (n = 0 → Next (exec (.loop d a imm) s) (XWritten s d 0))) ∧
  (∀ (s : State) (a : BitVec 5) (imm : BitVec 7) (b : BitVec 64) (e : IAddr),
    let r : Int := (src s a).toNat + imm.toInt * 4
    0 ≤ r → r < 2 ^ 40 → r % 8 = 4 → e = BitVec.ofInt 40 r → s.bundleAt (e - 4) = some b → s.th.pend = [] →
    (b.getLsbD 31 = true ∧ b.extractLsb' 20 7 ≠ 7#7 → Next (exec (.jr a imm) s) (Jumped s e)) ∧
    (b.getLsbD 31 = false ∨ b.extractLsb' 20 7 = 7#7 →
      Traps s 0x03 (BitVec.ofInt 64 r) (trapAddress s) (exec (.jr a imm) s)))

/-! ### Control and system instructions (R149-R156, R204, R225-R229) -/

/-- R149 with the layouts of R65, R73-R77, R225, R239, R272, R290 and R294: CSRR writes what the register holds and changes nothing
else. VCONF waits for the thread's own vector and matrix words (R123). -/
def Obligations.CsrReadsGiveTheRegister : Prop :=
  ∀ (s : State) (d : BitVec 5), d.toNat < 16 →
    let th := s.src
    let reads (csr : BitVec 12) (v : Word) : Prop := Next (exec (.csrr d csr) s) (XWritten s d v)
    reads 0x000 (BitVec.ofNat 64 (th.pw.toNat / 2 * 2 + 1)) ∧
    reads 0x001 (BitVec.ofNat 64 th.space.toNat) ∧
    reads 0x002 (BitVec.ofNat 64 th.farsp.toNat) ∧
    reads 0x004 th.strmst ∧
    (s.seqBusy = false → (∀ c ∈ s.co.mx, c.2 = s.bank → c.1 ≤ s.cycle) → reads 0x003 th.vconf) ∧
    reads 0x005 (BitVec.ofNat 64 (th.prog % 2 ^ 16 * 2 ^ 48 + th.serial % 2 ^ 32 * 2 ^ 16 + s.bank % 8)) ∧
    reads 0x006 (BitVec.ofNat 64 (th.tenant % 256)) ∧
    reads 0x007 (if th.latency = true ∨ s.co.staked ≠ none then 1 else 0) ∧
    reads 0x100 (BitVec.ofNat 64 s.cid) ∧
    reads 0x101 s.co.linkcfg ∧
    reads 0x102 s.co.mboxstat ∧
    reads 0x103 (BitVec.ofNat 64 ((s.now - s.front.cycle0) / 2)) ∧
    reads 0x104 th.planbase ∧
    reads 0x105 th.gangid ∧
    ((∀ c ∈ s.co.mx, c.1 ≤ s.cycle) → reads 0x106 s.co.mconf) ∧
    reads 0x200 th.trap0.status ∧
    reads 0x201 (BitVec.ofNat 64 th.trap0.cause.toNat) ∧
    reads 0x202 th.trap0.tval ∧
    reads 0x203 (BitVec.ofNat 64 th.trap0.tepc.toNat) ∧
    reads 0x204 (BitVec.ofNat 64 th.trap0.tvec.toNat) ∧
    reads 0x205 th.trap0.scratch ∧
    reads 0x400 (BitVec.ofNat 64 (0x20000 + s.co.table % 2 ^ 16)) ∧
    reads 0x401 (BitVec.ofNat 64 (th.profile % 2 ^ 16)) ∧
    (th.level ≠ .task → reads 0x300 s.front.iroot ∧ reads 0x301 s.front.droot ∧
      reads 0x210 th.trap1.status ∧ reads 0x211 (BitVec.ofNat 64 th.trap1.cause.toNat) ∧ reads 0x212 th.trap1.tval ∧
      reads 0x213 (BitVec.ofNat 64 th.trap1.tepc.toNat) ∧ reads 0x214 (BitVec.ofNat 64 th.trap1.tvec.toNat) ∧
      reads 0x215 th.trap1.scratch)

/-- The three writing CSR instructions give csr the value `w`, the old value with x[d] set, and with x[d] cleared (R149);
`put` says how the state changes for a new value. -/
def Sys2Proof.Claims.CsrWrites (s : State) (d : BitVec 5) (csr : BitVec 12) (old : Word) (put : Word → State) : Prop :=
  exec (.csrw d csr) s = .next (put (src s d)) ∧
  exec (.csrs d csr) s = .next (put (old ||| src s d)) ∧
  exec (.csrc d csr) s = .next (put (old &&& ~~~src s d))

/-- `s` after a word that changed its thread by `f` alone and stepped past itself. -/
def Sys2Proof.Claims.threadAfter (s : State) (f : Thread → Thread) : State :=
  { s with stat := .done, th := f { s.th with pc := pcAfter s } }

/-- R227: what SPACE and TSCRATCH ask of a handler at `v` besides its address: its instruction leaf is there, executable and pinned
(`walkInstr` gives a leaf only with EX), and a translated TSCRATCH lies in a pinned page. -/
def Sys2Proof.Claims.HandlerPinned (s : State) (scratch : Word) (v : Word) : Prop :=
  (∃ e, s.walkInstr s.src.prog v.toNat = .leaf e ∧ e.pinned = true) ∧
  (onChip scratch.toNat = false → ∃ d, s.leafOf s.src.space.toNat scratch.toNat = some d ∧ d.pinned = true)

/-- A write of the vector of a trap bank: 0 goes in without a check, a handler that passes goes in, any other value traps and the
vector keeps its value (R225, R227). -/
def Sys2Proof.Claims.VectorWrites (s : State) (w : Word) (o : Answer) (scratch : Word) (put : IAddr → Thread → Thread) : Prop :=
  let v : Word := w &&& 0xFFFFFFFFFF
  (v = 0 ∨ (v.toNat % 8 = 0 ∧ HandlerPinned s scratch v) → o = .next (threadAfter s (put (v.setWidth 40)))) ∧
  (v.toNat % 8 ≠ 0 → Traps s 0x03 v (trapAddress s) o) ∧
  (v ≠ 0 → v.toNat % 8 = 0 → ¬ HandlerPinned s scratch v → Traps s 0x12 v (trapAddress s) o)

/-- `VectorWrites` for the three writing CSR instructions, whose old value is `old` (R149). -/
def Sys2Proof.Claims.VectorCsr (s : State) (d : BitVec 5) (csr : BitVec 12) (old : IAddr) (scratch : Word) (put : IAddr → Thread → Thread) :
    Prop :=
  VectorWrites s (src s d) (exec (.csrw d csr) s) scratch put ∧
  VectorWrites s (old.setWidth 64 ||| src s d) (exec (.csrs d csr) s) scratch put ∧
  VectorWrites s (old.setWidth 64 &&& ~~~src s d) (exec (.csrc d csr) s) scratch put

/-- R149, R150, R225, R227, R239, R248, R290, R294: writes reach the writable fields and keep the reserved ones; nothing else changes.
STRMST, PLANBASE and GANGID are written above task level, TENANT by firmware; trap bank 1 belongs to the levels above task. -/
def Obligations.CsrWritesMergeTheWritableFields : Prop :=
  ∀ (s : State) (d : BitVec 5),
    let bank0 (f : Word → TrapBank → TrapBank) (w : Word) : State := threadAfter s fun t => { t with trap0 := f w t.trap0 }
    let bank1 (f : Word → TrapBank → TrapBank) (w : Word) : State := threadAfter s fun t => { t with trap1 := f w t.trap1 }
    CsrWrites s d 0x000 (BitVec.ofNat 64 (s.src.pw.toNat / 2 * 2 + 1))
      (fun w => threadAfter s fun t => { t with pw := BitVec.ofNat 8 (w.toNat / 2 * 2 + 1) }) ∧
    CsrWrites s d 0x001 (s.src.space.setWidth 64) (fun w => threadAfter s fun t => { t with space := w.setWidth 16 }) ∧
    CsrWrites s d 0x002 (s.src.farsp.setWidth 64) (fun w => threadAfter s fun t => { t with farsp := w.setWidth 16 }) ∧
    (s.seqBusy = false → (∀ c ∈ s.co.mx, c.2 = s.bank → c.1 ≤ s.cycle) → CsrWrites s d 0x003 s.src.vconf (fun w =>
      threadAfter s fun t => { t with vconf := (s.src.vconf &&& ~~~0xF3F7F) ||| (w &&& 0xF3F7F) })) ∧
    (s.seqBusy = false → CsrWrites s d 0x101 s.co.linkcfg (fun w =>
      { stepsPast s with co := { s.co with linkcfg := (s.co.linkcfg &&& ~~~0xF) ||| (w &&& 0xF) } })) ∧
    CsrWrites s d 0x200 s.src.trap0.status (bank0 fun w k => { k with pwsave := w.setWidth 8 }) ∧
    CsrWrites s d 0x201 (s.src.trap0.cause.setWidth 64) (bank0 fun w k => { k with cause := w.setWidth 8 }) ∧
    CsrWrites s d 0x202 s.src.trap0.tval (bank0 fun w k => { k with tval := w }) ∧
    CsrWrites s d 0x203 (s.src.trap0.tepc.setWidth 64) (bank0 fun w k => { k with tepc := w.setWidth 40 }) ∧
    CsrWrites s d 0x205 s.src.trap0.scratch (bank0 fun w k => { k with scratch := w }) ∧
    VectorCsr s d 0x204 s.src.trap0.tvec s.src.trap0.scratch (fun v t => { t with trap0 := { t.trap0 with tvec := v } }) ∧
    (s.src.level ≠ .task →
      ((∀ e ∈ s.th.streams, e.1 < 24) → CsrWrites s d 0x004 s.src.strmst (fun w => threadAfter s fun t =>
        { t with streams := t.streams.map fun e => (e.1, { e.2 with killed := w.getLsbD (8 + (e.1 - 20)) }) })) ∧
      CsrWrites s d 0x104 s.src.planbase (fun w =>
        threadAfter s fun t => { t with planbase := (s.src.planbase &&& ~~~0xFFE0) ||| (w &&& 0xFFE0) }) ∧
      CsrWrites s d 0x105 s.src.gangid (fun w =>
        threadAfter s fun t => { t with gangid := (s.src.gangid &&& ~~~0xFFFFFFFF3F3F) ||| (w &&& 0xFFFFFFFF3F3F) }) ∧
      CsrWrites s d 0x210 s.src.trap1.status (bank1 fun w k => { k with pwsave := w.setWidth 8 }) ∧
      CsrWrites s d 0x211 (s.src.trap1.cause.setWidth 64) (bank1 fun w k => { k with cause := w.setWidth 8 }) ∧
      CsrWrites s d 0x212 s.src.trap1.tval (bank1 fun w k => { k with tval := w }) ∧
      CsrWrites s d 0x213 (s.src.trap1.tepc.setWidth 64) (bank1 fun w k => { k with tepc := w.setWidth 40 }) ∧
      CsrWrites s d 0x215 s.src.trap1.scratch (bank1 fun w k => { k with scratch := w }) ∧
      VectorCsr s d 0x214 s.src.trap1.tvec s.src.trap1.scratch (fun v t => { t with trap1 := { t.trap1 with tvec := v } })) ∧
    (s.src.level = .firmware → CsrWrites s d 0x006 (BitVec.ofNat 64 (s.src.tenant % 256))
      (fun w => threadAfter s fun t => { t with tenant := w.toNat % 256 }))

/-- R71, R149: a write of a register that is RO at the level is ignored without a trap; an access that the level does not
permit traps PRIVILEGE with the word as TVAL.
R204: DROOT and IROOT are device-wide, and a write flushes the translation caches, the translation buffers and the L0
caches of the device, locked text among them (notes/assumptions/34.md). -/
def Obligations.CsrAccessAndRootWrites : Prop :=
  (∀ (s : State) (d : BitVec 5),
    (∀ csr : BitVec 12, csr ∈ [0x005, 0x007, 0x100, 0x102, 0x103, 0x106, 0x400, 0x401] →
      exec (.csrw d csr) s = .next (stepsPast s) ∧ exec (.csrs d csr) s = .next (stepsPast s) ∧
      exec (.csrc d csr) s = .next (stepsPast s)) ∧
    (s.src.level = .task → ∀ csr : BitVec 12, csr ∈ [0x004, 0x006, 0x104, 0x105] →
      exec (.csrw d csr) s = .next (stepsPast s) ∧ exec (.csrs d csr) s = .next (stepsPast s) ∧
      exec (.csrc d csr) s = .next (stepsPast s)) ∧
    (s.src.level = .task → ∀ csr : BitVec 12, csr ∈ [0x210, 0x211, 0x212, 0x213, 0x214, 0x215, 0x300, 0x301] →
      let word : Word := s.raw.setWidth 64
      Traps s 0x05 word (trapAddress s) (exec (.csrr d csr) s) ∧
      Traps s 0x05 word (trapAddress s) (exec (.csrw d csr) s) ∧
      Traps s 0x05 word (trapAddress s) (exec (.csrs d csr) s) ∧
      Traps s 0x05 word (trapAddress s) (exec (.csrc d csr) s))) ∧
  (∀ (s : State) (d : BitVec 5), s.src.level ≠ .task →
    Next (exec (.csrw d 0x301) s) (fun t =>
      t.front = { s.front with droot := (s.front.droot &&& ~~~0x3FFFFFF00000) ||| (src s d &&& 0x3FFFFFF00000) } ∧
      t.ibuf = [] ∧ t.co.l0d = [] ∧ t.co.l0i = [] ∧
      (∀ h ∈ t.homes, h.2.tlb = []) ∧ (∀ c ∈ t.cores, c.2.l0d = [] ∧ c.2.l0i = []) ∧
      t.dram = s.dram ∧ t.pads = s.pads ∧ t.th = (stepsPast s).th) ∧
    Next (exec (.csrw d 0x300) s) (fun t =>
      t.front = { s.front with iroot := (s.front.iroot &&& ~~~0x3FFFFFF00000) ||| (src s d &&& 0x3FFFFFF00000) } ∧
      t.ibuf = [] ∧ t.co.l0d = [] ∧ t.co.l0i = [] ∧
      (∀ h ∈ t.homes, h.2.tlb = []) ∧ (∀ c ∈ t.cores, c.2.l0d = [] ∧ c.2.l0i = []) ∧
      t.dram = s.dram ∧ t.pads = s.pads ∧ t.th = (stepsPast s).th))

/-- R151: TRAP and TRAP.BRK take a trap of their own, whose resume address lies behind the word or at it. -/
def Obligations.TrapInstructionsTakeTheirTrap : Prop :=
  ∀ (s : State) (a : BitVec 5), s.form ≠ .par1 →
    Traps s 0x06 (src s a) (returnAddress s) (exec (.trap a) s) ∧
    Traps s 0x07 (src s a) (trapAddress s) (exec (.trapBrk a) s)

/-- R228, R230: where no trap bank can take the trap of a compute core (bank 0 holds one, or TVEC is 0), the program ends with
the cause and TVAL of that trap as its error status, and no core changes. That the error is recorded and the completion is due at once, and
that a second error of the program in that time leaves the first, is the model's choice (notes/assumptions/66.md). -/
def Obligations.NestedTrapEndsTheProgram : Prop :=
  ∀ (s : State) (cause : Nat) (tval : Word) (epc word : IAddr) (g : Prog) (r : Run),
    isCompute s.cid = true → (s.th.trap0.held = true ∨ s.th.trap0.tvec = 0) →
    mget s.front.progs s.th.prog = some g → g.run = some r →
    let t := s.takeTrap cause tval epc word
    ((mget t.front.progs s.th.prog).bind (·.run)).bind (·.ended) = some (r.ended.getD (cause, tval)) ∧
    (s.now, Event.programCompletion s.th.prog) ∈ t.agenda ∧
    t.th.x = s.th.x ∧ t.th.pc = s.th.pc ∧ t.cores = s.cores ∧ t.dram = s.dram

/-- R152, R229: TRET takes PW[7:1] and the resume address from the highest bank that holds a trap, and clears its HELD; with
none held it traps PRIVILEGE.
R153: HALT above task level halts the core, with pc past the word; at task level it traps PRIVILEGE. -/
def Obligations.TrapReturnAndHalt : Prop :=
  (∀ (s : State) (a : IAddr), s.src = s.th →
    (s.th.trap1.held = false → s.th.trap0.held = true → s.th.trap0.tepc = a → a.toNat % 8 = 0 →
      exec .tret s = .next { s with stat := .done, th := { s.th with
        pc := a, notBefore := s.cycle + 2, trap0 := { s.th.trap0 with held := false },
        pw := s.th.trap0.pwsave ||| 1 } }) ∧
    (s.th.trap1.held = true → s.th.trap1.tepc = a → a.toNat % 8 = 0 →
      exec .tret s = .next { s with stat := .done, th := { s.th with
        pc := a, notBefore := s.cycle + 2, trap1 := { s.th.trap1 with held := false },
        pw := s.th.trap1.pwsave ||| 1 } }) ∧
    (s.th.trap1.held = false → s.th.trap0.held = false →
      Traps s 0x05 (s.raw.setWidth 64) (trapAddress s) (exec .tret s))) ∧
  (∀ s : State,
    (s.src.level ≠ .task → clusterOf s.cid ≠ 62 →
      exec .halt s = .next { stepsPast s with co := { s.co with halted := true } }) ∧
    (s.src.level ≠ .task → clusterOf s.cid = 62 → Next (exec .halt s) fun t =>
      t.co = { s.co with halted := true } ∧ t.th = (stepsPast s).th ∧
      (mget t.cores (coreId 62 (1 - coreNo s.cid))).map (·.halted) = some true) ∧
    (s.src.level = .task → Traps s 0x05 (s.raw.setWidth 64) (trapAddress s) (exec .halt s)))

/-- R155, R156: TIME reads meridian time, ready after 4 cycles (R126); TALARM cancels, refuses or arms, and answers whether an alarm was pending. -/
def Obligations.TimeAndAlarmResults : Prop :=
  ∀ (s : State) (d a b : BitVec 5), d.toNat < 16 →
    let t := (src s a).toNat
    let mb := (src s b).toNat
    let was : Word := if s.th.alarm.isSome then 1 else 0
    Next (exec (.time d) s) (XLater s d (BitVec.ofInt 64 (max (s.now + s.meridian) 0)) 4 s.co.divFree) ∧
    (t = 0 → Next (exec (.talarm d a b) s) fun u =>
      u.th.getX d.toNat = (if d.toNat = 0 then 0 else was) ∧ u.th.alarm = none ∧
      (∀ e ∈ u.agenda, e.2 ≠ .alarmFire s.th.who) ∧ (∀ e ∈ s.agenda, e.2 ≠ .alarmFire s.th.who → e ∈ u.agenda)) ∧
    (t ≠ 0 → (mb < 2 ∨ 13 < mb) → Next (exec (.talarm d a b) s) (XWritten s d 2)) ∧
    (t ≠ 0 → 2 ≤ mb → mb ≤ 13 → Next (exec (.talarm d a b) s) fun u =>
      u.th.getX d.toNat = (if d.toNat = 0 then 0 else was) ∧ u.th.alarm = some (t, mb) ∧
      (u.agenda.filter fun e => e.2 = .alarmFire s.th.who) =
        [(s.now + (t - (max (s.now + s.meridian) 0).toNat), Event.alarmFire s.th.who)])

/-! ### Memory instructions (R158-R163, R174, R178, R186-R201) -/

/-- The little-endian value of `n` bytes at `p` (R5). -/
def Sys2Proof.Claims.leAt (m : Mem) (p n : Nat) : Nat := (Finset.range n).sum fun i => (rd8 m (p + i)).toNat * 256 ^ i

/-- x[a] + SignExtend(off7) * n, wrapping at 2^64 (R186, R187). -/
def Sys2Proof.Claims.ea (s : State) (a : BitVec 5) (off : BitVec 7) (n : Nat) : Nat :=
  (src s a + BitVec.ofInt 64 (off.toInt * n)).toNat

/-- No word of the thread's bundle has a request under way. -/
def Sys2Proof.Claims.Unasked (s : State) : Prop := s.th.pend = []

/-- No vector word of the core is queued. -/
def Sys2Proof.Claims.NoQueue (s : State) : Prop := s.co.seq = [] ∧ s.co.vloop = none

/-- The egress buffer has room for a flit (R12). -/
def Sys2Proof.Claims.Room (s : State) : Prop := s.co.egress - s.now < 8

/-- `e` is the own-TCM offset `p` in the window of R158, aligned for `n` bytes that lie in the TCM; the space is a local one that
the thread may use, no unit of the bytes is poisoned, no vector access of the core is queued, and a superstep's undo log finds its
scratchpad free (R46). -/
structure Sys2Proof.Claims.OwnTcm (s : State) (space e p n : Nat) : Prop where
  addr : e = 0xFF00 * 2 ^ 48 + p
  aligned : p % n = 0
  inside : p + n ≤ 0xC000
  space_ok : space < 0xFF00 ∧ s.spaceOk space s.src.tenant = true
  clean : s.co.tcm.poisoned p n = false
  idle : NoQueue s ∧ Unasked s
  log : s.co.undo = none ∨ s.padBusy (clusterOf s.cid) = false

/-- A load of `n` bytes at `e` gives x[d] the value `f` of the bytes and changes nothing else. -/
def Sys2Proof.Claims.LoadsOwn (s : State) (d : BitVec 5) (space e n : Nat) (f : Nat → Word) (o : Answer) : Prop :=
  ∀ p, OwnTcm s space e p n → Next o (XWritten s d (f (leAt s.co.tcm.bytes p n)))

/-- The low `n` bits as a signed number. -/
def Sys2Proof.Claims.signed (n v : Nat) : Word := BitVec.ofInt 64 (if v < 2 ^ (n - 1) then v else v - 2 ^ n)

/-- R187, R188, R190: loads from the own TCM, sign- or zero-extended as the mnemonic says. -/
def Obligations.LoadsReadTheOwnTcm : Prop :=
  ∀ (s : State) (d a : BitVec 5) (off : BitVec 7) (scope : BitVec 3), d.toNat < 16 →
    let sp := s.src.space.toNat
    let zero (v : Nat) : Word := BitVec.ofNat 64 v
    LoadsOwn s d sp (ea s a off 1) 1 (signed 8) (exec (.ld8 d a off) s) ∧
    LoadsOwn s d sp (ea s a off 1) 1 zero (exec (.ld8u d a off) s) ∧
    LoadsOwn s d sp (ea s a off 2) 2 (signed 16) (exec (.ld16 d a off) s) ∧
    LoadsOwn s d sp (ea s a off 2) 2 zero (exec (.ld16u d a off) s) ∧
    LoadsOwn s d sp (ea s a off 4) 4 (signed 32) (exec (.ld32 d a off) s) ∧
    LoadsOwn s d sp (ea s a off 4) 4 zero (exec (.ld32u d a off) s) ∧
    LoadsOwn s d sp (ea s a off 8) 8 zero (exec (.ld64 d a off) s) ∧
    LoadsOwn s d sp (src s a).toNat 4 zero (exec (.lda32 d a scope) s) ∧
    LoadsOwn s d sp (src s a).toNat 8 zero (exec (.lda64 d a scope) s) ∧
    LoadsOwn s d s.src.farsp.toNat (ea s a off 8) 8 zero (exec (.ldf64 d a off) s) ∧
    (d.toNat ≤ 14 → ∀ p, OwnTcm s sp (ea s a off 16) p 16 → Next (exec (.ldp d a off) s) fun t =>
      t.th.getX d.toNat = (if d.toNat = 0 then 0 else zero (leAt s.co.tcm.bytes p 8)) ∧
      t.th.getX (d.toNat + 1) = zero (leAt s.co.tcm.bytes (p + 8) 8) ∧
      (∀ r, r % 16 ≠ d.toNat → r % 16 ≠ d.toNat + 1 → t.th.getX r = s.th.getX r) ∧
      t = { stepsPast s with th := { (stepsPast s).th with x := t.th.x } })

/-- `t` is `s` after a word that stored `data` at own-TCM offset `p` and stepped past itself: every other byte of the TCM, the
registers and every other memory keep their values; only a superstep's undo log (R401) also writes the scratchpad. -/
structure Sys2Proof.Claims.StoredOwn (s : State) (p : Nat) (data : List Byte) (t : State) : Prop where
  stored : ∀ i, i < data.length → rd8 t.co.tcm.bytes (p + i) = data.getD i 0
  others : ∀ q, (q < p ∨ p + data.length ≤ q) → rd8 t.co.tcm.bytes q = rd8 s.co.tcm.bytes q
  thread : t.th = (stepsPast s).th
  pads : s.co.undo = none → t.pads = s.pads
  memories : t.dram = s.dram ∧ t.reflexStore = s.reflexStore ∧ t.lxm = s.lxm ∧ t.homes = s.homes ∧ t.cores = s.cores
  machine : t.front = s.front ∧ t.agenda = s.agenda ∧ t.now = s.now ∧ t.counters = s.counters ∧ t.stat = .done

/-- The low `n` bytes of a register, lowest first (R5). -/
def Sys2Proof.Claims.lowBytes (w : Word) (n : Nat) : List Byte := (List.range n).map fun i => w.extractLsb' (8 * i) 8

/-- A store of `data` at `e`. -/
def Sys2Proof.Claims.StoresOwn (s : State) (space e : Nat) (data : List Byte) (o : Answer) : Prop :=
  ∀ p, OwnTcm s space e p data.length → Next o (StoredOwn s p data)

/-- R187-R190: stores to the own TCM write exactly their bytes, at exactly their address. STL waits for nothing when every
earlier access of the thread has been performed (R174). -/
def Obligations.StoresWriteTheOwnTcm : Prop :=
  ∀ (s : State) (d a : BitVec 5) (off : BitVec 7) (scope : BitVec 3),
    let sp := s.src.space.toNat
    let x := src s d
    StoresOwn s sp (ea s a off 1) (lowBytes x 1) (exec (.st8 d a off) s) ∧
    StoresOwn s sp (ea s a off 2) (lowBytes x 2) (exec (.st16 d a off) s) ∧
    StoresOwn s sp (ea s a off 4) (lowBytes x 4) (exec (.st32 d a off) s) ∧
    StoresOwn s sp (ea s a off 8) (lowBytes x 8) (exec (.st64 d a off) s) ∧
    StoresOwn s s.src.farsp.toNat (ea s a off 8) (lowBytes x 8) (exec (.stf64 d a off) s) ∧
    (d.toNat ≤ 14 → StoresOwn s sp (ea s a off 16) (lowBytes x 8 ++ lowBytes (s.src.getX (d.toNat + 1)) 8)
      (exec (.stp d a off) s)) ∧
    (s.th.unacked = [] → s.th.cacheOps = [] →
      StoresOwn s sp (src s a).toNat (lowBytes x 4) (exec (.stl32 d a scope) s) ∧
      StoresOwn s sp (src s a).toNat (lowBytes x 8) (exec (.stl64 d a scope) s))

/-- A vector load or store of registers below v28 whose own checks pass: no register is a stream, and the type has elements (R242). -/
def Sys2Proof.Claims.PlainVector (s : State) (d b : BitVec 5) : Prop :=
  s.src.streams = [] ∧ d.toNat < 28 ∧ b.toNat < 28 ∧ s.src.vconf.toNat % 8 ≠ 7

/-- R186 step 3: an access whose address is no multiple of its size traps DATA_MISALIGNED with the address as TVAL, before
any other check of the address; a vector access with the address of its first element.
R159, R206, R186: an on-chip offset that names nothing traps ONCHIP_RANGE; a space that the thread may not use traps
SPACE_INVALID, also for an own-TCM address, which is the model's choice (notes/assumptions/12.md); a reflex-array or staked core that
addresses DRAM traps REFLEX_DRAM_ACCESS. -/
def Obligations.AccessAddressesAreChecked : Prop :=
  (∀ (s : State) (d a : BitVec 5) (off : BitVec 7) (scope : BitVec 3) (v : BitVec 5) (ord : BitVec 2),
    let traps (e n : Nat) (o : Answer) : Prop := Unasked s → e % n ≠ 0 → Traps s 0x04 (BitVec.ofNat 64 e) (trapAddress s) o
    let r := (src s a).toNat
    traps (ea s a off 2) 2 (exec (.ld16 d a off) s) ∧ traps (ea s a off 2) 2 (exec (.ld16u d a off) s) ∧
    traps (ea s a off 4) 4 (exec (.ld32 d a off) s) ∧ traps (ea s a off 4) 4 (exec (.ld32u d a off) s) ∧
    traps (ea s a off 8) 8 (exec (.ld64 d a off) s) ∧ traps (ea s a off 8) 8 (exec (.ldf64 d a off) s) ∧
    traps (ea s a off 16) 16 (exec (.ldp d a off) s) ∧
    traps (ea s a off 2) 2 (exec (.st16 d a off) s) ∧ traps (ea s a off 4) 4 (exec (.st32 d a off) s) ∧
    traps (ea s a off 8) 8 (exec (.st64 d a off) s) ∧ traps (ea s a off 8) 8 (exec (.stf64 d a off) s) ∧
    traps (ea s a off 16) 16 (exec (.stp d a off) s) ∧
    traps r 4 (exec (.lda32 d a scope) s) ∧ traps r 8 (exec (.lda64 d a scope) s) ∧
    traps r 4 (exec (.stl32 d a scope) s) ∧ traps r 8 (exec (.stl64 d a scope) s) ∧
    (∀ i : BitVec 1 → Instr, i ∈ [fun w => .amoadd v a w ord scope, fun w => .amoand v a w ord scope, fun w => .amoor v a w ord scope,
        fun w => .amoxor v a w ord scope, fun w => .amomin v a w ord scope, fun w => .amomax v a w ord scope,
        fun w => .amominu v a w ord scope, fun w => .amomaxu v a w ord scope, fun w => .amoswp v a w ord scope,
        fun w => .amofadd v a w ord scope, fun w => .amofmin v a w ord scope, fun w => .amofmax v a w ord scope] →
      traps r 4 (exec (i 0) s) ∧ traps r 8 (exec (i 1) s)) ∧
    traps r 4 (exec (.cas32 v a ord scope) s) ∧ traps r 8 (exec (.cas64 v a ord scope) s) ∧
    (PlainVector s d v →
      let n := match s.src.vconf.toNat % 8 with | 0 => 1 | 1 => 2 | 2 => 4 | 3 => 8 | 6 => 4 | _ => 2
      traps (ea s a off 16) 16 (exec (.vld d a off) s) ∧ traps (ea s a off 16) 16 (exec (.vst d a off) s) ∧
      traps r 16 (exec (.vstm d a v) s) ∧ traps (ea s a off n) n (exec (.vldb d a off) s) ∧
      traps r n (exec (.vlds d a v) s) ∧ traps r n (exec (.vldsPi d a v) s))) ∧
  (∀ (s : State) (d a v : BitVec 5) (off : BitVec 7) (ord : BitVec 2) (scope : BitVec 3) (form : Nat × Nat × Instr),
    let forms : List (Nat × Nat × Instr) :=
      [(ea s a off 8, 8, .ld64 d a off), (ea s a off 8, 8, .st64 d a off), ((src s a).toNat, 8, .amoadd v a 1 ord scope),
        ((src s a).toNat, 8, .cas64 v a ord scope), ((src s a).toNat, 4, .amofadd v a 0 ord scope)]
    let vectors : List (Nat × Nat × Instr) := [(ea s a off 16, 16, .vld d a off), (ea s a off 16, 16, .vst d a off)]
    (form ∈ forms ∨ form ∈ vectors ∧ PlainVector s d d) →
    let e := form.1
    let o := exec form.2.2 s
    e % form.2.1 = 0 → Unasked s →
    (∀ p, e = 0xFF00 * 2 ^ 48 + p → p + form.2.1 ≤ 0xC000 → s.src.space.toNat < 0xFF00 → s.spaceOk s.src.space.toNat s.src.tenant = false →
      Traps s 0x15 (BitVec.ofNat 64 s.src.space.toNat) (trapAddress s) o) ∧
    (e / 2 ^ 56 = 0xFF → window e = none → Traps s 0x16 (BitVec.ofNat 64 e) (trapAddress s) o) ∧
    (e / 2 ^ 56 ≠ 0xFF → s.spaceOk s.src.space.toNat s.src.tenant = false →
      Traps s 0x15 (BitVec.ofNat 64 s.src.space.toNat) (trapAddress s) o) ∧
    (e / 2 ^ 56 ≠ 0xFF → s.spaceOk s.src.space.toNat s.src.tenant = true → (inReflexArray s.cid = true ∨ s.co.staked ≠ none) →
      Traps s 0x08 (BitVec.ofNat 64 e) (trapAddress s) o))

/-- A load of a translated address that the core's L0 data cache does not hold is asked of its home slice and the word
waits; when the value has come, the load completes with it (R163, R168, R169, R174; the model completes a load only then, as
notes/assumptions/1.md says). -/
def Obligations.TranslatedLoadsWaitForTheirValue : Prop :=
  ∀ (s : State) (d a : BitVec 5) (off : BitVec 7), d.toNat < 16 →
    let e := ea s a off 8
    e % 8 = 0 → e / 2 ^ 56 ≠ 0xFF → s.spaceOk s.src.space.toNat s.src.tenant = true → inReflexArray s.cid = false →
    s.co.staked = none → NoQueue s → s.l0Line s.src.space.toNat e = none → s.th.unacked = [] → Room s → s.form ≠ .par1 →
    (s.th.pend = [] → Next (exec (.ld64 d a off) s) fun t =>
      t.stat = .held ∧ t.th.pend = [⟨0, s.nextId, none⟩] ∧ t.th.x = s.th.x ∧ t.th.pc = s.th.pc ∧
      (∃ delay, (s.now + delay, Event.sliceRequest s.nextId) ∈ t.agenda) ∧
      (∃ q, mget t.accs s.nextId = some q ∧ q.op = .read ∧ q.size = 8 ∧ q.todo = [e] ∧
        q.space = s.src.space.toNat ∧ q.tenant = s.src.tenant)) ∧
    (∀ id v, s.th.pend = [⟨0, id, some (.value v)⟩] → Next (exec (.ld64 d a off) s) fun t =>
      t.th.getX d.toNat = (if d.toNat = 0 then 0 else BitVec.ofNat 64 v) ∧ t.th.pend = [] ∧ t.stat = .done ∧
      t.th.pc = pcAfter s ∧ t.dram = s.dram ∧ t.co = s.co)

/-- An atomic at `e` of `n` bytes: x[v] receives `ret` of the old value, and the bytes become those of `new` (nothing is
stored for none). -/
def Sys2Proof.Claims.AtomicOwn (s : State) (v : BitVec 5) (e n : Nat) (ret : Nat → Word) (new : Nat → Option Nat) (o : Answer) : Prop :=
  ∀ p, OwnTcm s s.src.space.toNat e p n →
    let old := leAt s.co.tcm.bytes p n
    Next o fun t =>
      t.th.getX v.toNat = (if v.toNat = 0 then 0 else ret old) ∧
      (∀ r, r % 16 ≠ v.toNat → t.th.getX r = s.th.getX r) ∧
      leAt t.co.tcm.bytes p n = (new old).getD old ∧
      (∀ q, (q < p ∨ p + n ≤ q) → rd8 t.co.tcm.bytes q = rd8 s.co.tcm.bytes q) ∧
      t.th = { (stepsPast s).th with x := t.th.x } ∧ (s.co.undo = none → t.pads = s.pads) ∧
      t.dram = s.dram ∧ t.reflexStore = s.reflexStore ∧ t.cores = s.cores ∧ t.agenda = s.agenda ∧ t.stat = .done

/-- R193: the 32- and 64-bit forms of an AMO, `f` on numbers of `w` bits; a 32-bit old value returns sign-extended. -/
def Sys2Proof.Claims.AmoOwn (s : State) (v a : BitVec 5) (i : BitVec 1 → Instr) (f : Nat → Nat → Nat → Nat) : Prop :=
  AtomicOwn s v (src s a).toNat 4 (signed 32) (fun old => some (f 32 old ((src s v).toNat % 2 ^ 32))) (exec (i 0) s) ∧
  AtomicOwn s v (src s a).toNat 8 (BitVec.ofNat 64) (fun old => some (f 64 old (src s v).toNat)) (exec (i 1) s)

/-- The signed value of `w` bits. -/
def Sys2Proof.Claims.sval (w x : Nat) : Int := if x < 2 ^ (w - 1) then x else x - 2 ^ w

/-- R193: the nine AMO operations on the own TCM, when every earlier access of the thread has been performed. -/
def Obligations.AtomicsReadModifyWrite : Prop :=
  ∀ (s : State) (v a : BitVec 5) (ord : BitVec 2) (scope : BitVec 3), v.toNat < 16 →
    s.th.unacked = [] → s.th.cacheOps = [] →
    AmoOwn s v a (fun w => .amoadd v a w ord scope) (fun w x y => (x + y) % 2 ^ w) ∧
    AmoOwn s v a (fun w => .amoand v a w ord scope) (fun _ x y => x &&& y) ∧
    (v ≠ 0 → AmoOwn s v a (fun w => .amoor v a w ord scope) (fun _ x y => x ||| y)) ∧
    AmoOwn s v a (fun w => .amoxor v a w ord scope) (fun _ x y => x ^^^ y) ∧
    AmoOwn s v a (fun w => .amomin v a w ord scope) (fun w x y => if sval w y < sval w x then y else x) ∧
    AmoOwn s v a (fun w => .amomax v a w ord scope) (fun w x y => if sval w x < sval w y then y else x) ∧
    AmoOwn s v a (fun w => .amominu v a w ord scope) (fun _ x y => min x y) ∧
    AmoOwn s v a (fun w => .amomaxu v a w ord scope) (fun _ x y => max x y) ∧
    AmoOwn s v a (fun w => .amoswp v a w ord scope) (fun _ _ y => y) ∧
    (NoQueue s → ∀ w, exec (.amoorFence a w ord scope) s = .next (stepsPast s))

/-- R194: CAS stores the new value only where memory held the expected one, and returns the old value.
R195: AMOF works on one FP32 number or on two of them, lane by lane, always to nearest; what one lane becomes is the
shared FP32 operation of R112. -/
def Obligations.CompareAndSwapAndFloatAtomics : Prop :=
  (∀ (s : State) (v a : BitVec 5) (ord : BitVec 2) (scope : BitVec 3), v.toNat ≤ 14 →
    s.th.unacked = [] → s.th.cacheOps = [] →
    let e := (src s a).toNat
    let expect := (src s v).toNat
    let new := (s.src.getX (v.toNat + 1)).toNat
    AtomicOwn s v e 4 (signed 32) (fun old => if old = expect % 2 ^ 32 then some (new % 2 ^ 32) else none)
      (exec (.cas32 v a ord scope) s) ∧
    AtomicOwn s v e 8 (BitVec.ofNat 64) (fun old => if old = expect then some new else none) (exec (.cas64 v a ord scope) s)) ∧
  (∀ (s : State) (v a : BitVec 5) (ord : BitVec 2) (scope : BitVec 3), v.toNat < 16 →
    s.th.unacked = [] → s.th.cacheOps = [] →
    let y := (src s v).toNat
    let e := (src s a).toNat
    let one (f : Nat → Nat → Nat) (i : Instr) : Prop :=
      AtomicOwn s v e 4 (BitVec.ofNat 64) (fun old => some (f old (y % 2 ^ 32) % 2 ^ 32)) (exec i s)
    let two (f : Nat → Nat → Nat) (i : Instr) : Prop :=
      AtomicOwn s v e 8 (BitVec.ofNat 64) (fun old => some (f (old % 2 ^ 32) (y % 2 ^ 32) % 2 ^ 32 +
        f (old / 2 ^ 32) (y / 2 ^ 32) % 2 ^ 32 * 2 ^ 32)) (exec i s)
    let add (x y : Nat) : Nat := (fp32.add .nearest x y false).bits
    let least (x y : Nat) : Nat := (fp32.minmax false x y).bits
    let most (x y : Nat) : Nat := (fp32.minmax true x y).bits
    one add (.amofadd v a 0 ord scope) ∧ two add (.amofadd v a 1 ord scope) ∧
    one least (.amofmin v a 0 ord scope) ∧ two least (.amofmin v a 1 ord scope) ∧
    one most (.amofmax v a 0 ord scope) ∧ two most (.amofmax v a 1 ord scope))

/-- Every earlier access, cache operation and queued vector word of the thread has been performed (R174). -/
def Sys2Proof.Claims.Quiet (s : State) : Prop := s.th.unacked = [] ∧ s.th.cacheOps = [] ∧ NoQueue s

/-- R196-R201: a cache operation or prefetch of an on-chip address does nothing; of a line of a space the thread may use, it is
sent to the line's home once what it covers has been performed (R183), and the thread goes on; on a core without a path to DRAM it traps
REFLEX_DRAM_ACCESS (R201). SYNCI ends when the thread's cache operations have (R200). cinv.rc drops the records of that line, and no
other, from the core's record cache alone.
R197: cinv.d of a translated line asks for write permission first, and when that has come the home slice holds the line no
more. -/
def Obligations.CacheOperationResults : Prop :=
  (∀ (s : State) (a : BitVec 5),
    let e := (src s a).toNat
    let sent (op : Bool) (t : State) : Prop :=
      (∃ delay, (s.now + delay, Event.sliceRequest s.nextId) ∈ t.agenda) ∧
      t.th = { (stepsPast s).th with cacheOps := if op then s.nextId :: s.th.cacheOps else s.th.cacheOps } ∧
      t.co = { s.co with egress := max s.co.egress s.now + 1 } ∧ t.dram = s.dram ∧ t.pads = s.pads ∧ t.homes = s.homes
    (e / 2 ^ 56 = 0xFF →
      exec (.cwb a) s = .next (stepsPast s) ∧ exec (.cinv a) s = .next (stepsPast s) ∧
      exec (.cinvD a) s = .next (stepsPast s) ∧ exec (.pref a) s = .next (stepsPast s) ∧
      exec (.prefSc a) s = .next (stepsPast s)) ∧
    (e / 2 ^ 56 ≠ 0xFF → inReflexArray s.cid = false → s.co.staked = none → Room s →
      s.spaceOk s.src.space.toNat s.src.tenant = true → s.src.space.toNat < 0xFF00 →
      (Quiet s → Next (exec (.cwb a) s) (sent true) ∧ Next (exec (.cinv a) s) (sent true)) ∧
      Next (exec (.pref a) s) (sent false) ∧ Next (exec (.prefSc a) s) (sent false)) ∧
    (e < 2 ^ 40 → inReflexArray s.cid = false → s.co.staked = none → Room s → Quiet s → Next (exec (.icinv a) s) (sent true)) ∧
    (inReflexArray s.cid = true ∨ s.co.staked ≠ none → Traps s 0x08 (src s a) (trapAddress s) (exec (.icinv a) s) ∧
      (e / 2 ^ 56 ≠ 0xFF → ∀ i ∈ [Instr.cwb a, .cinv a, .cinvD a, .pref a, .prefSc a],
        Traps s 0x08 (src s a) (trapAddress s) (exec i s))) ∧
    (s.th.cacheOps = [] → exec .synci s = .next (stepsPast s)) ∧
    (s.th.cacheOps ≠ [] → Next (exec .synci s) fun t => t.stat = .held ∧ t.th.pc = s.th.pc) ∧
    Next (exec (.cinvRc a) s) (fun t =>
      (∀ r, r ∈ t.co.records ↔ r ∈ s.co.records ∧ ¬ (r.1 = s.src.space.toNat ∧ r.2.1 = s.src.tenant ∧ r.2.2.1 / 64 = e / 64)) ∧
      t = { stepsPast s with co := { s.co with records := t.co.records } })) ∧
  (∀ (s : State) (a : BitVec 5) (id : Nat),
    let e := (src s a).toNat
    let h := s.homeOf s.src.space.toNat e
    e / 2 ^ 56 ≠ 0xFF → inReflexArray s.cid = false → s.co.staked = none →
    s.spaceOk s.src.space.toNat s.src.tenant = true → s.src.space.toNat < 0xFF00 → s.form = .ser0 →
    s.th.pend = [⟨0, id, some (.value 0)⟩] → s.th.unacked = [] →
    Next (exec (.cinvD a) s) fun t =>
      t.stat = .done ∧ t.th.pend = [] ∧ t.th.pc = s.bundle + 4 ∧
      ∀ l ∈ (t.home h).lines, ¬ (l.instr = false ∧ l.tenant = spaceTenant (s.spaceEntry s.src.space.toNat) ∧
        l.space = s.src.space.toNat ∧ l.line = e / 64))

/-! ### Vector instructions (R108-R119, R191, R239-R265) -/

/-- A vector word of the thread can issue and is performed at once: no vector word, loop or stream of its is open, and the
torus neighbours' sequencers are empty too. It is no word 0 of a parallel bundle, whose effects wait for word 1 (R55). -/
structure Sys2Proof.Claims.VecReady (s : State) : Prop where
  form : s.form ≠ .par0
  same : s.src = s.th
  ready : s.th.st = .ready
  streams : s.th.streams = []
  idle : s.co.seq = [] ∧ s.co.vloop = none
  around : ∀ p, p < 4 → (s.core (neighbour s.cid p)).seq = [] ∧ (s.core (neighbour s.cid p)).vloop = none

/-- `t` is `s` after a vector word that gave v[d] the value `res`, raised `fl` in VCONF (R122) and stepped past itself: no
other register of the thread, no memory and no event changes. -/
structure Sys2Proof.Claims.VecDone (s : State) (d : Nat) (res : Vec) (fl : Flags) (t : State) : Prop where
  value : t.th.getV d = res
  others : ∀ n, n ≠ d → t.th.getV n = s.th.getV n
  flags : t.th.vconf = s.th.vconf ||| (fl.setWidth 64 <<< 8)
  thread : t.th = { (stepsPast s).th with v := t.th.v, vconf := t.th.vconf, compared := s.th.compared + 1 }
  memories : t.co.tcm = s.co.tcm ∧ t.co.tiles = s.co.tiles ∧ t.pads = s.pads ∧ t.dram = s.dram
  machine : t.co.seq = [] ∧ t.agenda = s.agenda ∧ t.front = s.front ∧ t.homes = s.homes ∧ t.stat = .done

/-- The word gives v[d] a value and raises flags as `P` says. -/
def Sys2Proof.Claims.VecRuns (s : State) (d : BitVec 5) (o : Answer) (P : Vec → Flags → Prop) : Prop :=
  ∃ res fl, P res fl ∧ Next o (VecDone s d.toNat res fl)

/-- Bits of a lane by VCONF.TYPE (R109). -/
def Sys2Proof.Claims.width (s : State) : Nat :=
  match s.src.vconf.toNat % 8 with | 0 => 8 | 1 => 16 | 2 => 32 | 3 => 64 | 4 => 16 | 5 => 16 | _ => 32

/-- Lane `k` of `w` bits (R108). -/
def Sys2Proof.Claims.laneOf (v : Vec) (w k : Nat) : Nat := v.toNat / 2 ^ (w * k) % 2 ^ w

/-- A lane as the integer that VCONF.U makes it (R239). -/
def Sys2Proof.Claims.laneVal (s : State) (v : Vec) (k : Nat) : Int :=
  let w := width s
  let x := laneOf v w k
  if s.src.vconf.getLsbD 6 then x else if x < 2 ^ (w - 1) then x else x - 2 ^ w

/-- Every lane of the result, by its number. -/
def Sys2Proof.Claims.Lanes (s : State) (res : Vec) (f : Nat → Nat) : Prop :=
  ∀ k, k < 128 / width s → laneOf res (width s) k = f k

/-- v[n] of the thread. -/
abbrev Sys2Proof.Claims.vsrc (s : State) (r : BitVec 5) : Vec := s.th.getV r.toNat

/-- R253: lanes add, subtract and multiply exactly and then wrap, or clamp to the lane's range with SAT when VCONF.S is set;
minimum, maximum, logic and shifts; a shift count of the lane width or more gives 0, or copies of the sign for VSRA. -/
def Obligations.IntegerLanes : Prop :=
  ∀ (s : State) (d a b : BitVec 5), VecReady s → d.toNat < 28 → a.toNat < 28 → b.toNat < 28 →
    s.src.vconf.toNat % 8 ≠ 7 →
    let w := width s
    let u := s.src.vconf.getLsbD 6
    let lo : Int := if u then 0 else -2 ^ (w - 1)
    let hi : Int := if u then 2 ^ w - 1 else 2 ^ (w - 1) - 1
    let x := vsrc s a
    let y := vsrc s b
    let arith (f : Int → Int → Int) (o : Answer) : Prop := VecRuns s d o fun res fl =>
      let r (k : Nat) : Int := f (laneVal s x k) (laneVal s y k)
      let clamp := s.src.vconf.getLsbD 5
      Lanes s res (fun k => ((if clamp then max lo (min hi (r k)) else r k) % 2 ^ w).toNat) ∧
      (fl = 32 ↔ clamp = true ∧ ∃ k, k < 128 / w ∧ (r k < lo ∨ hi < r k)) ∧ (fl = 0 ∨ fl = 32)
    let plain (f : Nat → Nat) (o : Answer) : Prop := VecRuns s d o fun res fl => Lanes s res f ∧ fl = 0
    arith (· + ·) (exec (.vadd d a b) s) ∧
    arith (· - ·) (exec (.vsub d a b) s) ∧
    arith (· * ·) (exec (.vmul d a b) s) ∧
    plain (fun k => if laneVal s x k ≤ laneVal s y k then laneOf x w k else laneOf y w k) (exec (.vmin d a b) s) ∧
    plain (fun k => if laneVal s x k ≤ laneVal s y k then laneOf y w k else laneOf x w k) (exec (.vmax d a b) s) ∧
    plain (fun k => if laneOf y w k < w then laneOf x w k * 2 ^ laneOf y w k % 2 ^ w else 0) (exec (.vshl d a b) s) ∧
    plain (fun k => if laneOf y w k < w then laneOf x w k / 2 ^ laneOf y w k else 0) (exec (.vshr d a b) s) ∧
    plain (fun k => ((if laneOf x w k < 2 ^ (w - 1) then (laneOf x w k : Int) else laneOf x w k - 2 ^ w) /
      2 ^ min w (laneOf y w k) % 2 ^ w).toNat) (exec (.vsra d a b) s) ∧
    VecRuns s d (exec (.vand d a b) s) (fun res fl => res = x &&& y ∧ fl = 0) ∧
    VecRuns s d (exec (.vor d a b) s) (fun res fl => res = x ||| y ∧ fl = 0) ∧
    VecRuns s d (exec (.vxor d a b) s) (fun res fl => res = x ^^^ y ∧ fl = 0)

/-- VCONF.TYPE names a floating-point type: 4 FP16, 5 BF16, 6 FP32 (R109). -/
def Sys2Proof.Claims.floatType (s : State) (f : Fmt) : Prop :=
  (s.src.vconf.toNat % 8 = 4 ∧ f = fp16) ∨ (s.src.vconf.toNat % 8 = 5 ∧ f = bf16) ∨ (s.src.vconf.toNat % 8 = 6 ∧ f = fp32)

/-- Lane by lane an operation of one element, which gives bits and flags; VCONF takes the flags of all lanes (R122). -/
def Sys2Proof.Claims.Floats (s : State) (res : Vec) (fl : Flags) (f : Nat → Flagged) : Prop :=
  Lanes s res (fun k => (f k).bits % 2 ^ width s) ∧
  ∀ i, fl.getLsbD i = true ↔ ∃ k, k < 128 / width s ∧ (f k).fl.getLsbD i = true

/-- R112, R117, R254, R255: each floating-point word performs its operation on the lanes of equal number, in the type and the
rounding mode of VCONF. What one element becomes is the shared operation of the format (Fmt), which this statement names. -/
def Obligations.FloatLanes : Prop :=
  ∀ (s : State) (d a b : BitVec 5) (f : Fmt), VecReady s → d.toNat < 28 → a.toNat < 28 → b.toNat < 28 → floatType s f →
    let w := width s
    let r := rndOf (s.src.vconf.toNat / 8 % 4)
    let x (k : Nat) : Nat := laneOf (vsrc s a) w k
    let y (k : Nat) : Nat := laneOf (vsrc s b) w k
    let z (k : Nat) : Nat := laneOf (vsrc s d) w k
    let runs (i : Instr) (g : Nat → Flagged) : Prop := VecRuns s d (exec i s) fun res fl => Floats s res fl g
    runs (.vfadd d a b) (fun k => f.add r (x k) (y k) false) ∧
    runs (.vfsub d a b) (fun k => f.add r (x k) (y k) true) ∧
    runs (.vfmul d a b) (fun k => f.mul r (x k) (y k)) ∧
    runs (.vfma d a b) (fun k => f.fma r (x k) (y k) (z k)) ∧
    runs (.vfmin d a b) (fun k => f.minmax false (x k) (y k)) ∧
    runs (.vfmax d a b) (fun k => f.minmax true (x k) (y k)) ∧
    runs (.vfabs d a) (fun k => ⟨x k % 2 ^ (w - 1), 0⟩) ∧
    runs (.vfneg d a) (fun k => ⟨(x k + 2 ^ (w - 1)) % 2 ^ w, 0⟩) ∧
    runs (.vrcp d a) (fun k => f.rcp r (x k)) ∧
    runs (.vrsq d a) (fun k => f.rsq r (x k)) ∧
    runs (.vsqrt d a) (fun k => f.sqrt r (x k)) ∧
    runs (.vexp2 d a) (fun k => f.exp2 r (x k)) ∧
    runs (.vlog2 d a) (fun k => f.log2 r (x k)) ∧
    runs (.vdiv d a b) (fun k => f.div r (x k) (y k))

/-- The register holds `n` results of `w` bits side by side, zeros above them, and every flag that one of them raises (R122, R257). -/
def Sys2Proof.Claims.Packs (n w : Nat) (res : Vec) (fl : Flags) (f : Nat → Flagged) : Prop :=
  (∀ k, k < n → laneOf res w k = (f k).bits % 2 ^ w) ∧ res.toNat < 2 ^ (n * w) ∧
  ∀ i, fl.getLsbD i = true ↔ ∃ k, k < n ∧ (f k).fl.getLsbD i = true

/-- R256-R259: VCVT, VCVTS, VQNT, VRSUM, VRMAX and VRMIN complete under the types and formats that R256-R259 allow them. A conversion
takes 128 / max(w_s, w_t) elements from their places to their places, VCVTS saturating; VQNT converts the exact product of two lanes;
a reduction leaves its result in lane 0 and zeros above it. What one element becomes is the shared conversion (Elem.conv) and
rounding (Fmt.round) of the formats, which this statement names. NV of VQNT for infinity by 0, and of VRSUM (in vSum) for an infinity less
an infinity only where no input is NaN, are the model's choice (notes/assumptions/33.md). -/
def Obligations.ConversionsAndReductions : Prop :=
  ∀ (s : State) (d a b : BitVec 5), VecReady s → d.toNat < 28 → a.toNat < 28 → s.src.vconf.toNat % 8 ≠ 7 →
    let vc := s.src.vconf
    let w := width s
    let r := rndOf (vc.toNat / 8 % 4)
    let x := vsrc s a
    let y := vsrc s b
    (b.toNat % 16 ≠ 15 →
      let code := codeElem (b.toNat % 16)
      let from_ := if b.toNat < 16 then typeElem vc else code
      let to_ := if b.toNat < 16 then code else typeElem vc
      let n := 128 / max from_.width to_.width
      let converts (sat : Bool) (o : Answer) : Prop := VecRuns s d o fun res fl => Packs n to_.width res fl fun k =>
        let e := laneOf x from_.width k
        to_.conv r (from_.num e) (from_.signalling e) sat
      converts false (exec (.vcvt d a b) s) ∧ converts true (exec (.vcvts d a b) s)) ∧
    (b.toNat < 28 →
      let ins : List Nat := (List.range (128 / w)).map (laneOf x w) ++ [laneOf y w 0]
      let val (e : Nat) : Int := if vc.getLsbD 6 then e else if e < 2 ^ (w - 1) then e else e - 2 ^ w
      (∀ f, floatType s f → vQfmt vc ≠ 15 → (codeElem (vQfmt vc)).width ≤ w →
        VecRuns s d (exec (.vqnt d a b) s) fun res fl => Packs (128 / w) (codeElem (vQfmt vc)).width res fl fun k =>
          let u := laneOf x w k
          let v := laneOf y w k
          let o := (codeElem (vQfmt vc)).conv r ((f.num u).mul (f.num v)) (f.signalling u || f.signalling v) true
          ⟨o.bits, o.fl ||| raised (((f.num u).mul (f.num v)).isNan && !(f.num u).isNan && !(f.num v).isNan) flNV⟩) ∧
      VecRuns s d (exec (.vrsum d a b) s) (fun res fl => (res, fl) = vSum vc x y ∧
        (∀ f, floatType s f → ∃ v rest, ins.map f.num = v :: rest ∧ res.toNat = (f.round r (rest.foldl (Machine.Num.add r) v)).bits) ∧
        (vc.toNat % 8 < 4 →
          let lo : Int := if vc.getLsbD 6 then 0 else -2 ^ (w - 1)
          let hi : Int := if vc.getLsbD 6 then 2 ^ w - 1 else 2 ^ (w - 1) - 1
          let sum := (ins.map val).sum
          let out := if vc.getLsbD 5 then max lo (min hi sum) else sum
          res.toNat = (out % 2 ^ w).toNat ∧ fl = if vc.getLsbD 5 ∧ out ≠ sum then 32 else 0)) ∧
      VecRuns s d (exec (.vrmax d a b) s) (fun res fl => (res, fl) = vPick vc true x y ∧
        (vc.toNat % 8 < 4 → res.toNat ∈ ins ∧ (∀ e ∈ ins, val e ≤ val res.toNat) ∧ fl = 0)) ∧
      VecRuns s d (exec (.vrmin d a b) s) (fun res fl => (res, fl) = vPick vc false x y ∧
        (vc.toNat % 8 < 4 → res.toNat ∈ ins ∧ (∀ e ∈ ins, val res.toNat ≤ val e) ∧ fl = 0)))

/-- R260-R262: byte selection, broadcast, extract and insert, comparison, selection and moves. VCMP compares under every type; a floating
lane with a NaN gives 0, and NV is raised by a signalling input alone. The value of VEXT is ready four cycles after it issues (R244,
R245). -/
def Obligations.PermutesComparisonsAndMoves : Prop :=
  ∀ (s : State) (d a b e : BitVec 5), VecReady s → d.toNat < 28 → a.toNat < 28 → b.toNat < 28 →
    s.src.vconf.toNat % 8 ≠ 7 → e.toNat < 128 / width s →
    let w := width s
    let x := vsrc s a
    let y := vsrc s b
    let z := vsrc s d
    let plain (f : Nat → Nat) (o : Answer) : Prop := VecRuns s d o fun res fl => Lanes s res f ∧ fl = 0
    let table (m : Nat) : Nat := if m < 16 then laneOf x 8 m else laneOf y 8 (m - 16)
    VecRuns s d (exec (.vshuf d a b) s) (fun res fl => fl = 0 ∧ ∀ k, k < 16 →
      laneOf res 8 k = if laneOf z 8 k < 128 then table (laneOf z 8 k % 32) else 0) ∧
    plain (fun _ => laneOf x w e.toNat) (exec (.vbcast d a e) s) ∧
    plain (fun k => if k = e.toNat then (src s a).toNat % 2 ^ w else laneOf z w k) (exec (.vins d a e) s) ∧
    (∀ f, floatType s f → VecRuns s d (exec (.vcmp d a b) s) fun res fl =>
      Lanes s res (fun k => if (f.num (laneOf x w k)).lt (f.num (laneOf y w k)) then 2 ^ w - 1 else 0) ∧ (fl = 0 ∨ fl = 1) ∧
      (fl = 1 ↔ ∃ k, k < 128 / w ∧ (f.signalling (laneOf x w k) = true ∨ f.signalling (laneOf y w k) = true))) ∧
    (s.src.vconf.toNat % 8 < 4 →
      plain (fun k => if laneVal s x k < laneVal s y k then 2 ^ w - 1 else 0) (exec (.vcmp d a b) s)) ∧
    plain (fun k => if 2 ^ (w - 1) ≤ laneOf z w k then laneOf x w k else laneOf y w k) (exec (.vsel d a b) s) ∧
    VecRuns s d (exec (.vmovx d a b) s) (fun res fl => res = src s b ++ src s a ∧ fl = 0) ∧
    VecRuns s d (exec (.vmovv d a) s) (fun res fl => res = x ∧ fl = 0) ∧
    plain (fun _ => (src s a).toNat % 2 ^ w) (exec (.vsplat d a) s) ∧
    (d.toNat < 16 → Next (exec (.vext d a e) s) fun t =>
      t.th.getX d.toNat = (if d.toNat = 0 then 0 else
        if s.src.vconf.toNat % 8 < 4 then BitVec.ofInt 64 (laneVal s x e.toNat) else BitVec.ofNat 64 (laneOf x w e.toNat)) ∧
      (∀ r, r % 16 ≠ d.toNat → t.th.getX r = s.th.getX r) ∧
      t.th = { (stepsPast s).th with
        x := t.th.x, xAt := mset s.th.xAt d.toNat (s.cycle + 4), compared := s.th.compared + 1 } ∧ t.co.tcm = s.co.tcm)

/-- R191: vector loads from the own TCM: 16 bytes, one element to every lane, or elements at a stride; VLDS.PI also moves x[a]
past the elements. -/
def Obligations.VectorLoadsReadTheOwnTcm : Prop :=
  ∀ (s : State) (d a b : BitVec 5) (off : BitVec 7) (p : Nat), VecReady s → d.toNat < 28 → s.th.pend = [] →
    s.src.space.toNat < 0xFF00 → s.spaceOk s.src.space.toNat s.src.tenant = true → s.co.tcm.bad = [] →
    let w := width s
    let n := w / 8
    let base := 0xFF00 * 2 ^ 48 + p
    let m := s.co.tcm.bytes
    (ea s a off 16 = base → p % 16 = 0 → p + 16 ≤ 0xC000 →
      VecRuns s d (exec (.vld d a off) s) (fun res fl => fl = 0 ∧ ∀ k, k < 16 → laneOf res 8 k = (rd8 m (p + k)).toNat)) ∧
    (s.src.vconf.toNat % 8 ≠ 7 → ea s a off n = base → p % n = 0 → p + n ≤ 0xC000 →
      VecRuns s d (exec (.vldb d a off) s) (fun res fl => fl = 0 ∧ Lanes s res fun _ => leAt m p n)) ∧
    (s.src.vconf.toNat % 8 ≠ 7 → ∀ stride : Nat, (src s a).toNat = base → (src s b).toNat = stride → p % n = 0 →
      stride % n = 0 → p + (16 / n - 1) * stride + n ≤ 0xC000 →
      let lanes (res : Vec) : Prop := Lanes s res fun k => leAt m (p + k * stride) n
      VecRuns s d (exec (.vlds d a b) s) (fun res fl => fl = 0 ∧ lanes res) ∧
      (a.toNat < 16 → Next (exec (.vldsPi d a b) s) fun t =>
        lanes (t.th.getV d.toNat) ∧
        t.th.getX a.toNat = (if a.toNat = 0 then 0 else src s a + BitVec.ofNat 64 (16 / n) * src s b) ∧
        (∀ r, r % 16 ≠ a.toNat → t.th.getX r = s.th.getX r) ∧ t.co.tcm = s.co.tcm ∧ t.dram = s.dram))

/-- R191: vector stores to the own TCM: all 16 bytes of v[d], or those whose mask byte has its top bit set; every other byte of
the TCM and every register keep their values. -/
def Obligations.VectorStoresWriteTheOwnTcm : Prop :=
  ∀ (s : State) (d a b : BitVec 5) (off : BitVec 7) (p : Nat), VecReady s → d.toNat < 28 → b.toNat < 28 → s.th.pend = [] →
    s.src.space.toNat < 0xFF00 → s.spaceOk s.src.space.toNat s.src.tenant = true → s.co.undo = none → p % 16 = 0 → p + 16 ≤ 0xC000 →
    let base := 0xFF00 * 2 ^ 48 + p
    let stored (keep : Nat → Prop) (t : State) : Prop :=
      (∀ k, k < 16 → keep k → (rd8 t.co.tcm.bytes (p + k)).toNat = laneOf (vsrc s d) 8 k) ∧
      (∀ k, k < 16 → ¬ keep k → rd8 t.co.tcm.bytes (p + k) = rd8 s.co.tcm.bytes (p + k)) ∧
      (∀ q, (q < p ∨ p + 16 ≤ q) → rd8 t.co.tcm.bytes q = rd8 s.co.tcm.bytes q) ∧
      t.th = { (stepsPast s).th with compared := s.th.compared + 1 } ∧ t.pads = s.pads ∧ t.dram = s.dram
    (ea s a off 16 = base → Next (exec (.vst d a off) s) (stored fun _ => True)) ∧
    ((src s a).toNat = base → Next (exec (.vstm d a b) s) (stored fun k => 128 ≤ laneOf (vsrc s b) 8 k))

/-- R263, R264: the stream state record at own-TCM offset `off` is one that VREC and VEMA may use for the thread's type. -/
structure Sys2Proof.Claims.RecordReady (s : State) (off : Nat) : Prop where
  place : off % 64 = 0 ∧ off + 64 ≤ 0xC000
  usable : bit (leAt s.co.tcm.bytes off 64) (8 * 0x24 + 1) = true ∧ bit (leAt s.co.tcm.bytes off 64) (8 * 0x24) = true
  owner : leAt s.co.tcm.bytes (off + 0x18) 6 = s.th.prog % 2 ^ 16 * 2 ^ 32 + s.th.serial % 2 ^ 32
  type : bits (leAt s.co.tcm.bytes off 64) (8 * 0x24 + 2) 3 = s.src.vconf.toNat % 8

/-- R119, R264: VREC folds y := a*y + x over the first c lanes from the record's y, VEMA with the record's coefficient; where the mask has
the lane's bit, ρ takes the place of the carried state. c is bits [19:16] of the control word, 0 for every lane; one beyond the lanes
traps STREAM_FAULT. v[d] receives every y and keeps its lanes above; the record receives the last y, the count and the flags raised, which
VCONF collects too, and no other byte of the TCM changes. -/
def Obligations.RecurrencesFoldTheLanes : Prop :=
  ∀ (s : State) (d a b : BitVec 5) (f : Fmt) (off : Nat), VecReady s → d.toNat < 28 → a.toNat < 28 → floatType s f →
    let ctl := (src s b).toNat
    ctl % 2 ^ 16 = off → RecordReady s off → s.co.undo = none →
    let w := width s
    let n := 128 / w
    let cnt := if ctl / 2 ^ 16 % 16 = 0 then n else ctl / 2 ^ 16 % 16
    let r := rndOf (s.src.vconf.toNat / 8 % 4)
    let m := s.co.tcm.bytes
    let rho := leAt m (off + 8) 8 % 2 ^ w
    let alpha := leAt m (off + 16) 8 % 2 ^ w
    let x (k : Nat) : Nat := laneOf (vsrc s d) w k
    let folds (step : Nat → Nat → Flagged) (o : Answer) : Prop := Next o fun t =>
      ∃ y : Nat → Nat,
        let carried (k : Nat) : Nat := if bit ctl (48 + k) = true then rho else y k
        let raisedAt (i : Nat) : Prop := ∃ k, k < cnt ∧ (step k (carried k)).fl.getLsbD i = true
        y 0 = leAt m off 8 % 2 ^ w ∧ (∀ k, k < cnt → y (k + 1) = (step k (carried k)).bits) ∧
        Lanes s (t.th.getV d.toNat) (fun k => if k < cnt then y (k + 1) % 2 ^ w else x k) ∧
        leAt t.co.tcm.bytes off 8 = y cnt % 2 ^ 64 ∧
        leAt t.co.tcm.bytes (off + 0x28) 8 = (leAt m (off + 0x28) 8 + cnt) % 2 ^ 64 ∧
        (∀ i, i < 8 → ((rd8 t.co.tcm.bytes (off + 0x25)).getLsbD i = true ↔
          (rd8 m (off + 0x25)).getLsbD i = true ∨ i < 6 ∧ raisedAt i)) ∧
        (∀ i, i < 64 → (t.th.vconf.getLsbD i = true ↔ s.th.vconf.getLsbD i = true ∨ 8 ≤ i ∧ i < 14 ∧ raisedAt (i - 8))) ∧
        (∀ q, (q < off ∨ off + 8 ≤ q) → q ≠ off + 0x25 → (q < off + 0x28 ∨ off + 0x30 ≤ q) → rd8 t.co.tcm.bytes q = rd8 m q) ∧
        (∀ v, v ≠ d.toNat → t.th.getV v = s.th.getV v) ∧ t.th.x = s.th.x ∧ t.th.pc = pcAfter s ∧ t.dram = s.dram ∧ t.pads = s.pads
    (cnt ≤ n →
      folds (fun k y => f.fma r (laneOf (vsrc s a) w k) y (x k)) (exec (.vrec d a b) s) ∧
      folds (fun k y => recStep f r true alpha y (x k)) (exec (.vema d b) s)) ∧
    (n < cnt → Traps s 0x13 (src s b) (trapAddress s) (exec (.vrec d a b) s) ∧
      Traps s 0x13 (src s b) (trapAddress s) (exec (.vema d b) s))

/-- R247: VLOOP completes: it opens a loop of d body words with the count in x[a]; a count above 65,535 traps, and so does a VLOOP
among the words of an open body. A count of 0 discards the body without effect.
R65, R252: a vector word under TYPE 7, and a floating-point word under an integer type, trap ILLEGAL_OPERAND, whose TVAL, the word, is the
model's choice (notes/assumptions/108.md); a link port on a core without torus links traps LINK_FAULT with the port as TVAL. -/
def Obligations.VectorLoopsAndChecks : Prop :=
  (∀ (s : State) (d a : BitVec 5), s.src.vconf.toNat % 8 ≠ 7 → 0 < d.toNat → d.toNat < 16 → s.co.vloop = none →
    ((src s a).toNat ≤ 65535 → exec (.vloop d a) s = .next { stepsPast s with co := { s.co with vloop := some {
      bank := s.bank, left := (src s a).toNat, length := d.toNat, toIssue := d.toNat } } }) ∧
    (65535 < (src s a).toNat → Traps s 0x02 (src s a) (trapAddress s) (exec (.vloop d a) s))) ∧
  (∀ (s : State) (d a b : BitVec 5) (v : VLoop), d.toNat < 28 → a.toNat < 28 → b.toNat < 28 → s.src.vconf.toNat % 8 ≠ 7 →
    s.co.vloop = some v → v.bank = s.bank →
    (v.toIssue ≠ 0 → Traps s 0x02 (s.raw.setWidth 64) (trapAddress s) (exec (.vloop d a) s)) ∧
    (v.toIssue = 0 → 0 < d.toNat → d.toNat < 16 → (src s a).toNat ≤ 65535 → Next (exec (.vloop d a) s) fun t =>
      t.stat = .held ∧ t.co = s.co ∧ t.th.pc = s.th.pc) ∧
    (v.toIssue = 1 → v.left = 0 → v.body = [] → v.rest = [] → s.form ≠ .par0 → s.src = s.th → s.th.streams = [] → s.co.seq = [] →
      Next (exec (.vadd d a b) s) fun t => t.co.vloop = none ∧ t.co.seq = [] ∧ t.th.v = s.th.v ∧ t.th.vconf = s.th.vconf ∧
        t.th.pc = pcAfter s ∧ t.stat = .done ∧ t.co.tcm = s.co.tcm)) ∧
  (∀ (s : State) (d a b : BitVec 5),
    (s.src.vconf.toNat % 8 = 7 → Traps s 0x02 (s.raw.setWidth 64) (trapAddress s) (exec (.vadd d a b) s)) ∧
    (s.src.vconf.toNat % 8 < 4 → Traps s 0x02 (s.raw.setWidth 64) (trapAddress s) (exec (.vfadd d a b) s)) ∧
    (isCompute s.cid = false → 28 ≤ a.toNat →
      Traps s 0x0F (BitVec.ofNat 64 (a.toNat - 28)) (trapAddress s) (exec (.vmovv d a) s)))

/-! ### The matrix engine, Levain records and stream state records (R265, R266, R352-R381) -/

/-- x[a] of a 4-bit register field (R62). -/
abbrev Sys2Proof.Claims.src4 (s : State) (r : BitVec 4) : Word := s.src.getX r.toNat

/-- The matrix engine and its queue are idle (R353, R354). -/
def Sys2Proof.Claims.EngineIdle (s : State) : Prop := ∀ c ∈ s.co.mx, c.1 ≤ s.cycle

/-- The conditions of R358 on a configuration value, in its fields. -/
structure Sys2Proof.Claims.ConfigLegal (v : Word) : Prop where
  reserved : v.toNat / 2 ^ 48 = 0 ∧ v.toNat / 2 ^ 24 % 256 = 0 ∧ v.getLsbD 15 = false
  formats : legalFormats (v.toNat % 32) (v.toNat / 32 % 32) (v.toNat / 1024 % 32) = true
  image : slotSize (v.toNat % 32) (v.toNat / 32 % 32) ≤ 512
  mirror : v.getLsbD 22 = true → v.toNat / 2 ^ 19 % 8 + 1 ≤ 4
  delta : (v.getLsbD 23 = true ↔ v.toNat % 32 = 27) ∧ (v.getLsbD 23 = true → v.toNat / 32 % 32 < 22 ∨ 24 < v.toNat / 32 % 32)
  stride : v.toNat / 2 ^ 32 % 2 ^ 16 % 8 = 0 ∧ v.toNat / 2 ^ 32 % 2 ^ 16 ≤ 0xC000 ∧ (v.toNat / 2 ^ 16 % 8 ≠ 0 →
    (if v.getLsbD 23 then 48 else rowBytes (v.toNat / 32 % 32) + rowScales (v.toNat % 32) (v.toNat / 32 % 32)) ≤
      v.toNat / 2 ^ 32 % 2 ^ 16)

/-- R358: MCFG writes the configuration fields and clears WEMPTY, RBROKEN and EXPECT; ASRC and the credits stay, the landing
buffers become empty. A value that fails a check traps MATRIX_CONFIG with the value. R364: with both credits there, no thread of the
core waits in MROT any more. That the credit of a landing buffer comes after exactly 8 core cycles, where R364 gives a bound, is the
model's choice (notes/assumptions/5.md). -/
def Obligations.MatrixConfigurationIsChecked : Prop :=
  ∀ (s : State) (a : BitVec 4), s.th.st = .ready →
    let v := src4 s a
    (ConfigLegal v → EngineIdle s → s.co.landA = none → s.co.landB = none → Next (exec (.mcfg a) s) fun t =>
      t.co.mconf = (s.co.mconf &&& 0xFFFF000003000000) ||| (v &&& 0x0000FFFF00FFFFFF) ∧
      t = { stepsPast s with cores := t.cores, co := t.co } ∧ (∀ c, c ≠ s.cid → t.core c = s.core c) ∧
      t.co = { s.co with mconf := t.co.mconf, mx := t.co.mx, banks := t.co.banks } ∧
      (s.co.mconf.getLsbD 24 = true → s.co.mconf.getLsbD 25 = true →
        ∀ b ∈ t.co.banks, ∀ p, b.2.st ≠ .blocked (.rotation p))) ∧
    (ConfigLegal v → EngineIdle s → s.co.landA ≠ none → s.co.landB = none → Next (exec (.mcfg a) s) fun t =>
      t.co.mconf = (s.co.mconf &&& 0xFFFF000003000000) ||| (v &&& 0x0000FFFF00FFFFFF) ∧ t.co.landA = none ∧
      (s.now + 16, Event.rotationCreditArrival (neighbour s.cid 1) true s.th.prog) ∈ t.agenda) ∧
    (¬ ConfigLegal v → Traps s 0x10 v (trapAddress s) (exec (.mcfg a) s))

/-- R359, R361: MLDA takes the first 48 bytes of each row into the latch and zeros behind them; MLDB marks its slot loading and
asks for the image's lines; SLOT_FILL_COMPLETE makes the slot full. Nothing else of the thread or its TCM changes. -/
def Obligations.MatrixOperandsLoad : Prop :=
  ∀ (s : State) (a : BitVec 4) (w : BitVec 6) (o : Nat), EngineIdle s → NoQueue s →
    let v := src4 s a
    let m := s.co.mconf
    let rows := m.toNat / 2 ^ 16 % 8 + 1
    let stride := m.toNat / 2 ^ 32 % 2 ^ 16
    (v.toNat = 0xFF00 * 2 ^ 48 + o → o % 8 = 0 → m.toNat % 32 ≠ 27 →
      o + (rows - 1) * stride + rowBytes (m.toNat / 32 % 32) + rowScales (m.toNat % 32) (m.toNat / 32 % 32) ≤ 0xC000 →
      Next (exec (.mlda a) s) fun t =>
        (∀ i k, i < 8 → k < 48 → rd8 t.co.latch (48 * i + k) = if i < rows then rd8 s.co.tcm.bytes (o + i * stride + k) else 0) ∧
        t.co.mconf.toNat / 2 ^ 48 = o ∧ t.co.mconf.toNat % 2 ^ 48 = m.toNat % 2 ^ 48 ∧
        t = { stepsPast s with co := { s.co with latch := t.co.latch, mconf := t.co.mconf, mx := t.co.mx } }) ∧
    (m.toNat % 32 = 27 → Traps s 0x10 v (trapAddress s) (exec (.mlda a) s)) ∧
    (v.toNat = 0xFF00 * 2 ^ 48 + o → o % 16 = 0 → o + 512 ≤ 0xC000 → s.src.space.toNat < 0xFF00 →
      s.spaceOk s.src.space.toNat s.src.tenant = true → s.th.unacked = [] → slotSize (m.toNat % 32) (m.toNat / 32 % 32) ≤ 512 →
      Next (exec (.mldb a w) s) fun t =>
        (mget t.co.slots w.toNat).map (·.state) = some (.loading s.nextId) ∧
        (∀ u, u ≠ w.toNat → mget t.co.slots u = mget s.co.slots u) ∧ t.nextId = s.nextId + 1 ∧
        (s.now + 2, Event.remoteAccess s.nextId) ∈ t.agenda ∧ t.th = (stepsPast s).th ∧ t.co.tcm = s.co.tcm ∧
        t.co.tiles = s.co.tiles ∧ t.co.mconf = m) ∧
    (v.toNat % 16 ≠ 0 → Traps s 0x04 v (trapAddress s) (exec (.mldb a w) s)) ∧
    (∀ c fill (q : Acc) (k : WSlot) first len, s.event = .slotFillComplete c w.toNat fill → mget s.accs fill = some q →
      q.forWhom = .fill w.toNat fill first len → mget (s.core c).slots w.toNat = some k → k.state = .loading fill →
      Next (exec .slotFillComplete s) fun t => mget t.accs fill = none ∧
        (q.tags.length = q.done.length / 64 → ∃ k', mget (t.core c).slots w.toNat = some k' ∧ k'.state = .full ∧
          (∀ i, i < len → first + len ≤ q.done.length → rd8 k'.image i = q.done.getD (first + i) 0)) ∧
        (q.tags.length ≠ q.done.length / 64 → (mget (t.core c).slots w.toNat).map (·.state) = some .empty))

/-- Element (i, j) of tile `n` (R352). -/
def Sys2Proof.Claims.tileAt (s : State) (n i j : Nat) : Nat := leAt s.co.tiles (256 * n + 4 * (8 * i + j)) 4

/-- `t` differs from `s`, for its thread, in the flags at most, and of the core in tile `n` (and MCONF) at most. -/
structure Sys2Proof.Claims.TileOnly (s : State) (n : Nat) (t : State) : Prop where
  tiles : ∀ u i j, u ≠ n → i < 8 → j < 8 → u < 64 → tileAt t u i j = tileAt s u i j
  thread : t.th = { (stepsPast s).th with vconf := t.th.vconf }
  flags : ∀ b, b < 8 ∨ 13 < b → t.th.vconf.getLsbD b = s.th.vconf.getLsbD b
  memories : t.co.tcm = s.co.tcm ∧ t.co.latch = s.co.latch ∧ t.co.slots = s.co.slots ∧ t.pads = s.pads ∧ t.dram = s.dram

/-- R363, R102, R104, R105: with its slot full, MMA and MMAS make each element of the M x N shape what the step of its formats
gives (the shared stepElem, on row i of A and column j of the slot image), and keep the others; VCONF collects the flags of the elements
(R107). For INT8 by INT8 into INT32 that step is the sum of products, clamped to 32 bits, and SAT is raised where one was. An empty slot
leaves the tile and sets WEMPTY (R362). -/
def Obligations.MatrixStepsAccumulate : Prop :=
  ∀ (s : State) (n w : BitVec 6) (k : WSlot),
    let m := s.co.mconf
    let fa := m.toNat % 32
    let fb := m.toNat / 32 % 32
    let rows := m.toNat / 2 ^ 16 % 8 + 1
    let cols := m.toNat / 2 ^ 19 % 8 + 1
    let sparse : Prop := 22 ≤ fb ∧ fb ≤ 24
    let steps (o : Answer) : Prop :=
      (k.state = .full → Next o fun t => TileOnly s n.toNat t ∧ t.co.mconf = m ∧
        (let elem (i j : Nat) : Flagged := stepElem fa (m.toNat / 1024 % 32) (tileAt s n.toNat i j)
            ((bColumn fa fb k.image j).map fun p => (s.aVal (s.aRow i) p.1, p.2));
          (∀ i j, i < 8 → j < 8 → tileAt t n.toNat i j =
            if i < rows ∧ j < cols then (elem i j).bits % 2 ^ 32 else tileAt s n.toNat i j) ∧
          ∀ b, b < 6 → (t.th.vconf.getLsbD (8 + b) = true ↔
            s.th.vconf.getLsbD (8 + b) = true ∨ ∃ i j, i < rows ∧ j < cols ∧ (elem i j).fl.getLsbD b = true)) ∧
        (fa = 8 → fb = 8 → m.toNat / 1024 % 32 = 1 →
          let sum (i j : Nat) : Int := (if tileAt s n.toNat i j < 2 ^ 31 then
              (tileAt s n.toNat i j : Int) else tileAt s n.toNat i j - 2 ^ 32) +
            (Finset.range 48).sum fun e => (rd8 s.co.latch (48 * i + e)).toInt * (rd8 k.image (48 * j + e)).toInt
          (∀ i j, i < rows → j < cols →
            tileAt t n.toNat i j = (max (-2 ^ 31) (min (2 ^ 31 - 1) (sum i j)) % 2 ^ 32).toNat) ∧
          (t.th.vconf.getLsbD 13 = true ↔ s.th.vconf.getLsbD 13 = true ∨
            ∃ i j, i < rows ∧ j < cols ∧ (sum i j < -2 ^ 31 ∨ 2 ^ 31 - 1 < sum i j)))) ∧
      (k.state = .empty → Next o fun t => t.co.tiles = s.co.tiles ∧ t.co.mconf = m ||| 0x80000000 ∧ t.th = (stepsPast s).th ∧
        t.co.tcm = s.co.tcm ∧ t.co.slots = s.co.slots ∧ t.pads = s.pads ∧ t.dram = s.dram) ∧
      (∀ f, k.state = .loading f → Next o fun t => t.stat = .held ∧ t.co = s.co ∧ t.th.pc = s.th.pc)
    mget s.co.slots w.toNat = some k → m.getLsbD 22 = false → s.co.undo = none → fa ≠ 27 → EngineIdle s → NoQueue s →
    (¬ sparse → steps (exec (.mma n w) s) ∧ Traps s 0x10 0 (trapAddress s) (exec (.mmas n w) s)) ∧
    (sparse → steps (exec (.mmas n w) s) ∧ Traps s 0x10 0 (trapAddress s) (exec (.mma n w) s))

/-- R364: a first MROT after MCFG performs the step of MMA, sends the latch west and the slot north, and awaits landing data;
arrivals fill the landing buffer or return the credit; once nothing more is awaited, or the rotation is broken, no thread of the core waits
in MROT; one that had waited then traps LINK_FAULT with TVAL 4 where the rotation is broken. That a transfer takes exactly 8 core cycles,
where R364 gives a bound (notes/assumptions/5.md), and that MROT on a staked core reports port 0 (notes/assumptions/81.md), is the
model's choice. -/
def Obligations.RotationMovesOperands : Prop :=
  (∀ (s : State) (n w : BitVec 6) (k : WSlot),
    let m := s.co.mconf
    isCompute s.cid = true → s.co.staked = none →
    (∀ p, p < 4 → ∃ b ∈ (s.core (neighbour s.cid p)).banks, b.2.prog = s.src.prog ∧ b.2.st ≠ .ended) →
    Unasked s → m.toNat % 32 < 13 → m.toNat / 32 % 32 < 22 → m.getLsbD 30 = false → m.getLsbD 28 = false → m.getLsbD 25 = true →
    m.getLsbD 24 = true → mget s.co.slots w.toNat = some k → k.state = .full → EngineIdle s → NoQueue s →
    Next (exec (.mrot n w) s) fun t =>
      (∃ u, exec (.mma n w) s = .next u ∧ t.co.tiles = u.co.tiles ∧ t.th = u.th) ∧
      (s.now + 16, Event.rotationDataArrival (neighbour s.cid 3) true s.th.prog (rdBytes s.co.latch 0 384) none true) ∈ t.agenda ∧
      (s.now + 16, Event.rotationDataArrival (neighbour s.cid 0) false s.th.prog (rdBytes k.image 0 512) k.tag true) ∈ t.agenda ∧
      t.co.mconf.getLsbD 28 = true ∧ t.co.mconf.getLsbD 25 = false ∧ t.co.mconf.getLsbD 24 = false ∧
      t.co.tcm = s.co.tcm ∧ t.co.latch = s.co.latch) ∧
  (∀ (s : State) (n w : BitVec 6), (Unasked s → s.co.staked ≠ none → Traps s 0x0F 0 (trapAddress s) (exec (.mrot n w) s)) ∧
    (∀ id r, s.th.pend = [⟨if s.form = .par1 then 1 else 0, id, r⟩] → s.co.mconf.getLsbD 30 = true →
      Traps s 0x0F 4 (trapAddress s) (exec (.mrot n w) s))) ∧
  (∀ (s : State) (c : Nat) (isA : Bool) (prog : Nat) (data : List Byte) (tag : Option (Nat × Nat)) (full : Bool),
    (s.core c).holds prog = true → (s.core c).seized = none →
    (s.event = .rotationDataArrival c isA prog data tag full → Next (exec .rotationDataArrival s) fun t =>
      (isA = true → (t.core c).landA = some data ∧ (t.core c).mconf = (s.core c).mconf ||| 0x08000000) ∧
      (isA = false → (t.core c).landB = some (data, tag, full) ∧ (t.core c).mconf = (s.core c).mconf ||| 0x04000000) ∧
      ((mrotWait (t.core c).mconf = none ∨ (s.core c).mconf.getLsbD 30 = true) →
        ∀ b ∈ (t.core c).banks, ∀ p, b.2.st ≠ .blocked (.rotation p)) ∧ (t.core c).tcm = (s.core c).tcm ∧ t.agenda = s.agenda) ∧
    (s.event = .rotationCreditArrival c isA prog → Next (exec .rotationCreditArrival s) fun t =>
      (t.core c).mconf = (s.core c).mconf ||| (if isA then 0x02000000 else 0x01000000) ∧
      ((mrotWait (t.core c).mconf = none ∨ (s.core c).mconf.getLsbD 30 = true) →
        ∀ b ∈ (t.core c).banks, ∀ p, b.2.st ≠ .blocked (.rotation p)) ∧ (t.core c).tcm = (s.core c).tcm ∧ t.agenda = s.agenda))

/-- R366-R369: MZERO clears all 64 elements; MST stores the converted rows at its stride and changes no other byte; MSCALE scales
row i by lane i of a register pair; MRED leaves the row results in the pair; MCHK stores and clears the mirror count. -/
def Obligations.TilesAreStoredScaledAndReduced : Prop :=
  ∀ (s : State) (n : BitVec 6) (a e : BitVec 4) (v : BitVec 5) (o : Nat), s.co.undo = none → EngineIdle s → NoQueue s →
    let m := s.co.mconf
    let rows := m.toNat / 2 ^ 16 % 8 + 1
    let cols := m.toNat / 2 ^ 19 % 8 + 1
    let stride := m.toNat / 2 ^ 32 % 2 ^ 16
    let acc := m.toNat / 1024 % 32
    let pair (i : Nat) : Nat := laneOf (if i < 4 then s.th.getV v.toNat else s.th.getV (v.toNat + 1)) 32 (i % 4)
    let row (i : Nat) : List Nat := (List.range cols).map fun j => tileAt s n.toNat i j
    let reduced (sum : Bool) (t : State) : Prop :=
      (∀ i, i < 8 → laneOf (t.th.getV (v.toNat + i / 4)) 32 (i % 4) =
        if i < rows then (redRow acc sum (row i)).bits % 2 ^ 32 else 0) ∧
      (∀ r, r ≠ v.toNat → r ≠ v.toNat + 1 → t.th.getV r = s.th.getV r) ∧ t.th.x = s.th.x ∧
      t.co = { s.co with mx := t.co.mx } ∧ t.dram = s.dram
    Next (exec (.mzero n) s) (fun t => TileOnly s n.toNat t ∧ t.th.vconf = s.th.vconf ∧ t.co.mconf = m ∧
      ∀ i j, i < 8 → j < 8 → tileAt t n.toNat i j = 0) ∧
    ((src4 s a).toNat = 0xFF00 * 2 ^ 48 + o → o % 8 = 0 → mstCode acc e.toNat = true →
      let bytes := (cols * (codeElem e.toNat).width + 7) / 8
      o + (rows - 1) * stride + bytes ≤ 0xC000 → (bytes ≤ stride ∨ rows = 1) →
      Next (exec (.mst n a e) s) fun t =>
        (∀ i, i < rows → rdBytes t.co.tcm.bytes (o + i * stride) bytes =
          toBytes bytes (packBits (codeElem e.toNat).width ((mstRow m e.toNat (leAt s.co.tiles (256 * n.toNat) 256) i).map (·.bits)))) ∧
        (∀ q, (∀ i, i < rows → q < o + i * stride ∨ o + i * stride + bytes ≤ q) →
          rd8 t.co.tcm.bytes q = rd8 s.co.tcm.bytes q) ∧
        t.co.tiles = s.co.tiles ∧ t.th = { (stepsPast s).th with vconf := t.th.vconf } ∧ t.pads = s.pads ∧ t.dram = s.dram) ∧
    (v.toNat % 2 = 0 → v.toNat ≤ 26 → s.th.streams = [] → s.src.streams = [] →
      (acc ≠ 1 → Next (exec (.mscale n v) s) fun t => TileOnly s n.toNat t ∧ t.co.mconf = m ∧
        ∀ i j, i < 8 → j < 8 → tileAt t n.toNat i j = if i < rows ∧ j < cols then
          (scaleElem (tileAt s n.toNat i j) (pair i)).bits % 2 ^ 32 else tileAt s n.toNat i j) ∧
      Next (exec (.mredMax n v) s) (reduced false) ∧ Next (exec (.mredSum n v) s) (reduced true)) ∧
    ((src4 s a).toNat = 0xFF00 * 2 ^ 48 + o → o % 8 = 0 → o + 8 ≤ 0xC000 → Next (exec (.mchk a) s) fun t =>
      leAt t.co.tcm.bytes o 8 = s.co.mirrors % 2 ^ 32 ∧ t.co.mirrors = 0 ∧ t.th = (stepsPast s).th ∧ t.co.tiles = s.co.tiles ∧
      (∀ q, (q < o ∨ o + 8 ≤ q) → rd8 t.co.tcm.bytes q = rd8 s.co.tcm.bytes q) ∧ t.pads = s.pads ∧ t.dram = s.dram)

/-- A field of `n` bits at byte `off`, bit `lo`, of the 64-byte header at own-TCM offset `o` (R374). -/
def Sys2Proof.Claims.hfield (s : State) (o off lo n : Nat) : Nat := leAt s.co.tcm.bytes o 64 / 2 ^ (8 * off + lo) % 2 ^ n

/-- Every byte of the own TCM outside the given ranges (first byte, length) keeps its value, as do the other memories. -/
def Sys2Proof.Claims.OnlyWrites (s t : State) (l : List (Nat × Nat)) : Prop :=
  (∀ q, (∀ r ∈ l, q < r.1 ∨ r.1 + r.2 ≤ q) → rd8 t.co.tcm.bytes q = rd8 s.co.tcm.bytes q) ∧
  (s.co.undo = none → t.pads = s.pads) ∧ t.dram = s.dram ∧ t.reflexStore = s.reflexStore ∧ t.cores = s.cores

/-- R375: LVINIT makes a record header from the parameter fields of an image (layer id, REG, M, N, KC, source format, region, period,
drift bound, tau and steps), with the tenant of the thread and every counter zero; LVINV clears VALID and the mode and returns the old VALID; LVSTAT copies the header and reports it. -/
def Obligations.LevainRecordsAreManaged : Prop :=
  ∀ (s : State) (d a b : BitVec 5) (o i : Nat), d.toNat < 16 → NoQueue s → EngineIdle s → s.co.undo = none →
    (src s a).toNat = 0xFF00 * 2 ^ 48 + o → o % 64 = 0 → o + 64 ≤ 0xC000 →
    (src s b).toNat = 0xFF00 * 2 ^ 48 + i →
    let img := leAt s.co.tcm.bytes i 64
    let h := leAt s.co.tcm.bytes o 64
    let x (v : Word) (t : State) : Prop := t.th.getX d.toNat = (if d.toNat = 0 then 0 else v) ∧
      (∀ r, r % 16 ≠ d.toNat → t.th.getX r = s.th.getX r) ∧ t.th = { (stepsPast s).th with x := t.th.x }
    (i % 8 = 0 → i + 64 ≤ 0xC000 → paramsOk img = true → o + recordSize img ≤ 0xC000 →
      Next (exec (.lvinit d a b) s) fun t => x 0 t ∧ OnlyWrites s t [(o, 64)] ∧
        headerOk (leAt t.co.tcm.bytes o 64) = true ∧ hfield t o 1 4 8 = s.src.tenant % 256 ∧
        hfield t o 2 4 2 = 0 ∧ hfield t o 8 0 32 = 0 ∧ hfield t o 0x0C 0 16 = 0 ∧ hfield t o 0x10 0 32 = 0 ∧
        hfield t o 0x28 0 96 = 0 ∧ hfield t o 0x34 0 32 = 0 ∧ hfield t o 0 0 12 = hfield s i 0 0 12 ∧
        hfield t o 2 6 1 = hfield s i 2 6 1 ∧ hfield t o 3 0 6 = hfield s i 3 0 6 ∧ hfield t o 4 0 24 = hfield s i 4 0 24 ∧
        hfield t o 0x0E 0 16 = hfield s i 0x0E 0 16 ∧ hfield t o 0x14 0 160 = hfield s i 0x14 0 160) ∧
    (i % 8 = 0 → i + 64 ≤ 0xC000 → paramsOk img = false →
      Traps s 0x02 (src s b) (trapAddress s) (exec (.lvinit d a b) s)) ∧
    (fieldsOk h = true → o + recordSize h ≤ 0xC000 → Next (exec (.lvinv d a) s) fun t =>
      x (BitVec.ofNat 64 (hfield s o 2 4 1)) t ∧ OnlyWrites s t [(o, 64)] ∧ hfield t o 2 4 1 = 0 ∧ hfield t o 0x32 0 2 = 0 ∧
      headerOk (leAt t.co.tcm.bytes o 64) = true) ∧
    (fieldsOk h = false → Traps s 0x11 (src s a) (trapAddress s) (exec (.lvinv d a) s)) ∧
    (i % 64 = 0 → i + 64 ≤ 0xC000 → Next (exec (.lvstat d a b) s) fun t =>
      x (BitVec.ofNat 64 (hfield s o 0x28 0 32 + hfield s o 0x0C 0 16 * 2 ^ 32 + hfield s o 2 4 2 * 2 ^ 48 +
        hfield s o 0x32 0 2 * 2 ^ 50 + if headerOk h = true ∧ o + recordSize h ≤ 0xC000 then 0 else 2 ^ 52)) t ∧
      (∀ k, k < 64 → rd8 t.co.tcm.bytes (i + k) = rd8 s.co.tcm.bytes (o + k)) ∧ OnlyWrites s t [(i, 64)])

/-- R378 on one element under delta mode, from its value, its A_ref and the record's tau and step: the latch byte, the new A_ref and
whether the difference was clamped or not finite. -/
def Sys2Proof.Claims.quantised (a : Machine.Num) (aref : Nat) (tau step : Machine.Num) : Nat × Nat × Bool :=
  let r := fp32.num aref
  let d := a.add .nearest r.neg
  let q : Int := if d.isNan || d.isInf || !tau.lt d.abs then 0 else quotInt d step
  let c := max (-128) (min 127 q)
  ((c % 256).toNat, (fp32.round .nearest (r.add .nearest ((Machine.Num.ofInt c).mul step))).bits, d.isNan || d.isInf || c != q)

/-- R376-R379 for a record whose header passes every check, in full and in delta mode, for any number of chunks. An MDQ with chunk 0
decides the mode; it takes the source bytes into the latch, or their quantised differences from A_ref, which it updates. An MDELTA starts
its tile from C_ref or zero at chunk 0; an empty slot raises FORCE, and so does a tag that is not the record's; a chunk whose latch is all
zero is skipped in delta mode; the last chunk commits. -/
def Obligations.LevainInvocationsBeginAndCommit : Prop :=
  ∀ (s : State) (a : BitVec 4) (n w : BitVec 6) (k : WSlot) (h : Nat), NoQueue s → EngineIdle s → s.co.undo = none →
    let x := src4 s a
    let c := x.toNat / 2 ^ 32 % 256
    let o := x.toNat / 2 ^ 16 % 2 ^ 16
    let from_ := x.toNat % 2 ^ 16
    let stride := s.co.mconf.toNat / 2 ^ 32 % 2 ^ 16
    let size := recordSize h
    let aref (i : Nat) : Nat := o + 0x40 + 192 * (i * hKC h + c)
    let cref := o + 0x40 + 192 * hM h * hKC h
    let version := if hReg h then s.regionVersion (hRegion h) else 0
    let full : Bool := if c = 0 then
        !bit h 20 || bit h 21 || hMode h != 0 || hTenant h != s.src.tenant % 256 || !hReg h || version != hWver h ||
          decide (hget h 0x0E 0 16 ≤ hget h 0x10 0 16) || decide (hget h 0x14 0 16 ≤ hget h 0x12 0 16)
      else hMode h == 2
    let elem (i e : Nat) : Nat × Nat × Bool :=
      let b := (rd8 s.co.tcm.bytes (from_ + i * stride + e)).toNat
      let v := srcNum (hSrc h) b
      if full then (b, (fp32.round .nearest v).bits, false)
      else quantised v (leAt s.co.tcm.bytes (aref i + 4 * e) 4) (hTau h) (hStep h i)
    let clamps := ((List.range (hM h)).map fun i => ((List.range 48).filter fun e => (elem i e).2.2).length).sum
    (levainCheck s x false = .ok h → (∀ i, i < hM h → o + size ≤ from_ + i * stride ∨ from_ + i * stride + 48 ≤ o) →
      Next (exec (.mdq a) s) fun t =>
        (∀ i e, i < 8 → e < 48 → (rd8 t.co.latch (48 * i + e)).toNat = if i < hM h then (elem i e).1 else 0) ∧
        (∀ i e, i < hM h → e < 48 → leAt t.co.tcm.bytes (aref i + 4 * e) 4 = (elem i e).2.1 % 2 ^ 32) ∧
        headerOk (leAt t.co.tcm.bytes o 64) = true ∧ hfield t o 0x32 0 3 = (if full then 6 else 5) ∧
        (c = 0 → hfield t o 0x30 0 16 = 0 ∧ hfield t o 0x2C 0 32 = 0) ∧
        (c = 0 → full = true → hfield t o 2 4 1 = 0 ∧ hfield t o 1 4 8 = s.src.tenant % 256 ∧ hfield t o 8 0 32 = version % 2 ^ 32 ∧
          hfield t o 0x0C 0 16 = (hfield s o 0x0C 0 16 + 1) % 2 ^ 16 ∧ hfield t o 0x10 0 32 = 0) ∧
        hfield t o 2 5 1 = (if 0 < clamps then 1 else if c = 0 ∧ full = true then 0 else hfield s o 2 5 1) ∧
        hfield t o 0x34 0 32 = min (hfield s o 0x34 0 32 + clamps) 0xFFFFFFFF ∧
        OnlyWrites s t ((o, 64) :: (List.range (hM h)).map fun i => (aref i, 192)) ∧ t.th = (stepsPast s).th ∧
        t.co.tiles = s.co.tiles ∧ t.co.mconf = s.co.mconf) ∧
    (levainCheck s x true = .ok h → s.co.mconf.toNat % 32 = 27 → s.co.mconf.getLsbD 22 = false → mget s.co.slots w.toNat = some k →
      let start (i j : Nat) : Nat :=
        if c = 0 then (if hMode h = 1 then leAt s.co.tcm.bytes (cref + 4 * (8 * i + j)) 4 else 0) else tileAt s n.toNat i j
      let byte (i e : Nat) : Nat := (rd8 s.co.latch (48 * i + e)).toNat
      let value (i e : Nat) : Machine.Num := if hMode h = 1 then
          (hStep h i).mul (.ofInt (if byte i e < 128 then (byte i e : Int) else byte i e - 256)) else srcNum (hSrc h) (byte i e)
      let zero : Prop := ∀ i e, i < hM h → e < 48 → byte i e = 0
      let force := hfield s o 2 5 1
      let tagged := if hReg h = true ∧ k.tag = some (hRegion h, hWver h) then force else 1
      let goesOn (tile : Nat → Nat → Nat) (mconf : Word) (force skip updates : Nat) (t : State) : Prop :=
        TileOnly s n.toNat { t with co := { t.co with tcm := s.co.tcm } } ∧ t.co.mconf = mconf ∧
        (∀ i j, i < 8 → j < 8 → tileAt t n.toNat i j = tile i j) ∧ headerOk (leAt t.co.tcm.bytes o 64) = true ∧
        hfield t o 2 5 1 = force ∧ hfield t o 0x2C 0 32 = skip ∧ hfield t o 0x12 0 16 = updates ∧
        (c + 1 < hKC h → hfield t o 0x30 0 16 = c + 1 ∧ hfield t o 0x32 0 3 = hMode h ∧ hfield t o 2 4 1 = hfield s o 2 4 1 ∧
          OnlyWrites s t [(o, 64)]) ∧
        (c + 1 = hKC h → hfield t o 0x30 0 19 = 0 ∧ hfield t o 2 4 1 = 1 ∧ hfield t o 0x28 0 32 = skip ∧
          hfield t o 0x10 0 16 = (if hMode h = 1 then min (hfield s o 0x10 0 16 + 1) 0xFFFF else 1) ∧
          (∀ i j, i < 8 → j < 8 → leAt t.co.tcm.bytes (cref + 4 * (8 * i + j)) 4 = tile i j) ∧
          OnlyWrites s t [(o, 64), (cref, 256)])
      let skips := hfield s o 0x2C 0 32
      let updates := hfield s o 0x12 0 16
      (k.state = .empty → Next (exec (.mdelta n a w) s) (goesOn start (s.co.mconf ||| 0x80000000) 1 skips updates)) ∧
      (k.state = .full → hMode h = 1 → zero →
        Next (exec (.mdelta n a w) s) (goesOn start s.co.mconf tagged ((skips + 1) % 2 ^ 32) updates)) ∧
      (k.state = .full → ¬ (hMode h = 1 ∧ zero) → Next (exec (.mdelta n a w) s) (goesOn
        (fun i j => if i < hM h ∧ j < hN h then (stepElem 27 (cAcc s.co.mconf) (start i j)
          ((bColumn 27 (cBfmt s.co.mconf) k.image j).map fun p => (value i p.1, p.2))).bits % 2 ^ 32 else start i j)
        s.co.mconf tagged skips (if hMode h = 1 then min (updates + 1) 0xFFFF else updates))))

/-- The place of the word among those of its bundle that wait for a reply: word 1 of a parallel bundle, else 0. -/
def Sys2Proof.Claims.place (s : State) : Nat := match s.form with | .par1 => 1 | _ => 0

/-- No pair compares the thread's requests (R395). -/
def Sys2Proof.Claims.Unpaired (s : State) : Prop := s.pairOf s.cid s.th.kind = none

/-- The reply `r` to the word's request has come, and it is the only one under way. -/
def Sys2Proof.Claims.Replied (s : State) (r : Reply) : Prop := ∃ id, s.th.pend = [⟨place s, id, some r⟩]

/-- `t` is `s` after a word sent its request under the next number and waits: registers and pc as before (R169, R270). -/
structure Sys2Proof.Claims.Asked (s t : State) : Prop where
  waits : t.stat = .held ∧ t.th.pend = [⟨place s, s.nextId, none⟩] ∧ t.nextId = s.nextId + 1
  kept : t.th.x = s.th.x ∧ t.th.v = s.th.v ∧ t.th.pc = s.th.pc ∧ t.th.pw = s.th.pw
  memories : t.co.tcm = s.co.tcm ∧ t.co.mail = s.co.mail ∧ t.dram = s.dram ∧ t.pads = s.pads ∧ t.cores = s.cores ∧ t.homes = s.homes

/-- `t` is `s` after a word took its reply, wrote x[d] := w and stepped past itself, and did nothing else. -/
structure Sys2Proof.Claims.Took (s : State) (d : BitVec 5) (w : Word) (t : State) : Prop where
  value : t.th.getX d.toNat = if d.toNat % 16 = 0 then 0 else w
  others : ∀ r, r % 16 ≠ d.toNat % 16 → t.th.getX r = s.th.getX r
  frame : t = { stepsPast s with th := { (stepsPast s).th with x := t.th.x, pend := [] } }

/-- R373: WREG and WUNREG send the entry to write, or its release, to the root of the tree of R217 (or to the reflex-store
controller), and x[d] takes the version that comes back; the update at a copy replaces the entry and adds one to its version. -/
def Obligations.WeightRegionsAreRegistered : Prop :=
  (∀ (s : State) (d a b : BitVec 5) (o : Nat), d.toNat < 16 → Quiet s → EngineIdle s → Room s → inReflexArray s.cid = false →
    s.co.staked = none →
    (src s a).toNat = 0xFF00 * 2 ^ 48 + o → o % 32 = 0 → o + 32 ≤ 0xC000 →
    let n := leAt s.co.tcm.bytes o 32
    let base := n % 2 ^ 64
    let len := n / 2 ^ 64 % 2 ^ 64
    (base % 0x10000 = 0 → len % 0x10000 = 0 → len ≠ 0 → base + len ≤ 2 ^ 64 → n / 2 ^ 144 = 0 → (src s b).toNat ≤ 63 →
      Unpaired s → Unasked s → Next (exec (.wreg d a b) s) fun t => Asked s t ∧
        (mget t.front.regionReqs s.nextId).bind (·.entry) =
          some { valid := true, tenant := s.src.tenant, space := n / 2 ^ 128 % 2 ^ 16, base := base, length := len, version := 0 } ∧
        (mget t.front.regionReqs s.nextId).map (·.index) = some (src s b).toNat ∧
        ∃ delay, (s.now + delay, Event.regionTableUpdate 100 s.nextId) ∈ t.agenda) ∧
    (∀ v, v < 2 ^ 64 → Replied s (.value v) → Next (exec (.wreg d a b) s) (Took s d (BitVec.ofNat 64 v))) ∧
    (Unasked s → 63 < (src s b).toNat → Traps s 0x02 (src s b) (trapAddress s) (exec (.wreg d a b) s))) ∧
  (∀ (s : State) (d a : BitVec 5), d.toNat < 16 → Quiet s → EngineIdle s → Room s → inReflexArray s.cid = false → s.co.staked = none →
    let r := (src s a).toNat
    (r < 64 → Unpaired s → Unasked s → Next (exec (.wunreg d a) s) fun t => Asked s t ∧
      (mget t.front.regionReqs s.nextId).map (·.entry) = some none ∧
      (mget t.front.regionReqs s.nextId).map (·.index) = some r ∧
      ∃ delay, (s.now + delay, Event.regionTableUpdate 100 s.nextId) ∈ t.agenda) ∧
    (r < 64 → ∀ v, v < 2 ^ 64 → Replied s (.value v) → Next (exec (.wunreg d a) s) (Took s d (BitVec.ofNat 64 v))) ∧
    (64 ≤ r → r < 256 → Traps s 0x02 (src s a) (trapAddress s) (exec (.wunreg d a) s)))

/-- R265, R266 between the own TCM and an own-TCM record of FARSP: SSRIM claims a valid unlocked record and copies it; a record
that is locked, invalid, or whose place is taken answers 1, 2 or 3 and changes nothing. SSREX writes the released record back and
clears LOCK of its own; a record that the thread does not own answers 1. -/
def Obligations.StreamStateRecordsMove : Prop :=
  ∀ (s : State) (d a b : BitVec 5) (off p : Nat), d.toNat < 16 → Quiet s → Unasked s → s.src.vconf.toNat % 8 ≠ 7 →
    (src s a).toNat = off → off % 64 = 0 → off + 64 ≤ 0xC000 →
    (src s b).toNat = 0xFF00 * 2 ^ 48 + p → p % 64 = 0 → p + 64 ≤ 0xC000 → (off + 64 ≤ p ∨ p + 64 ≤ off) →
    s.src.farsp.toNat < 0xFF00 → s.spaceOk s.src.farsp.toNat s.src.tenant = true → s.co.tcm.bad = [] → s.co.undo = none →
    let own := leAt s.co.tcm.bytes off 64
    let far := leAt s.co.tcm.bytes p 64
    let locked (r : Nat) : Prop := bit r 288 = true
    let valid (r : Nat) : Prop := bit r 289 = true
    let owner := s.src.prog % 2 ^ 16 * 2 ^ 32 + s.src.serial % 2 ^ 32
    let x (v : Word) (t : State) : Prop := t.th.getX d.toNat = (if d.toNat = 0 then 0 else v) ∧
      (∀ r, r % 16 ≠ d.toNat → t.th.getX r = s.th.getX r) ∧ t.th = { (stepsPast s).th with x := t.th.x }
    (valid own → locked own → Next (exec (.ssrim d a b) s) fun t => x 3 t ∧ OnlyWrites s t []) ∧
    (¬ (valid own ∧ locked own) → ¬ valid far → Next (exec (.ssrim d a b) s) fun t => x 2 t ∧ OnlyWrites s t []) ∧
    (¬ (valid own ∧ locked own) → valid far → locked far → Next (exec (.ssrim d a b) s) fun t => x 1 t ∧ OnlyWrites s t []) ∧
    (¬ (valid own ∧ locked own) → valid far → ¬ locked far → Next (exec (.ssrim d a b) s) fun t => x 0 t ∧
      locked (leAt t.co.tcm.bytes p 64) ∧ hfield t p 0x18 0 64 = owner ∧ hfield t off 0x18 0 64 = owner ∧
      locked (leAt t.co.tcm.bytes off 64) ∧ hfield t off 0 0 192 = hfield s p 0 0 192 ∧
      hfield t off 0x20 0 32 = (hfield s p 0x20 0 32 + 1) % 2 ^ 32 ∧ OnlyWrites s t [(off, 64), (p, 64)]) ∧
    (¬ (valid own ∧ locked own ∧ hfield s off 0x18 0 48 = owner) → Next (exec (.ssrex d a b) s) fun t =>
      x 1 t ∧ OnlyWrites s t []) ∧
    (valid own → locked own → hfield s off 0x18 0 48 = owner → Next (exec (.ssrex d a b) s) fun t => x 0 t ∧
      ¬ locked (leAt t.co.tcm.bytes p 64) ∧ valid (leAt t.co.tcm.bytes p 64) ∧ hfield t p 0x18 0 64 = 0 ∧
      hfield t p 0 0 192 = hfield s off 0 0 192 ∧ hfield t p 0x20 0 32 = (hfield s off 0x20 0 32 + 1) % 2 ^ 32 ∧
      ¬ locked (leAt t.co.tcm.bytes off 64) ∧ OnlyWrites s t [(off, 64), (p, 64)])

/-! ### Messages, copies, synchronisation, threads and structures (R271-R349) -/

/-- x[d] := w and nothing else of the register file changes. -/
def Sys2Proof.Claims.XSet (s : State) (d : BitVec 5) (w : Word) (t : State) : Prop :=
  t.th.getX d.toNat = (if d.toNat = 0 then 0 else w) ∧ (∀ r, r % 16 ≠ d.toNat → t.th.getX r = s.th.getX r) ∧
  t.th.v = s.th.v ∧ t.th.pw = s.th.pw ∧ t.th.pc = pcAfter s ∧ t.stat = .done

/-- The TCM of the core, the scratchpads and the DRAM keep their contents. -/
def Sys2Proof.Claims.MemoryKept (s t : State) : Prop :=
  t.co.tcm = s.co.tcm ∧ t.co.tiles = s.co.tiles ∧ t.pads = s.pads ∧ t.dram = s.dram ∧ t.reflexStore = s.reflexStore ∧ t.cores = s.cores

/-- R273, R275, R276: SEND and SENDV send 32 bytes of the own TCM or of a register pair to the mailbox that x[a] names, at the
latency of R273, and give 0; the .ack and .trap forms wait for the status, which they give, but .trap traps on a full mailbox.
R277: RECV and RECVT take the oldest message of the lowest masked mailbox that holds one: its 32 bytes go to the own TCM, the
mailbox number to x[d]. With none, RECVT gives 16 and RECV waits.
That the message arrives at exactly the latency that R273 gives as a bound is the model's choice (notes/assumptions/5.md). -/
def Obligations.MessagesAreSentAndReceived : Prop :=
  (∀ (s : State) (d a b : BitVec 5) (to_ mb off : Nat), d.toNat < 16 → Quiet s → Unpaired s → Room s → s.src.streams = [] →
    isCore to_ = true → mb < 16 → (src s a).toNat = to_ + mb * 2 ^ 16 →
    (s.src.level = .task → mb ∉ [0, 1, 4, 14, 15] ∧ s.reaches to_ = true) →
    let msg (body : Payload) : Msg :=
      { src := s.cid, dst := to_, mb := mb, body := body, level := s.src.level, who := s.th.who, id := s.nextId, form := 0 }
    let due := max s.co.egress s.now + 2 * (6 + 2 * hops (clusterOf s.cid) (clusterOf to_))
    let forms (body : Payload) (plain ack trap : Answer) : Prop :=
      Next plain (fun t => XSet s d 0 t ∧ MemoryKept s t ∧ (due, Event.mailboxArrival (msg body)) ∈ t.agenda ∧
        t.th.sends = s.th.sends + 1) ∧
      (Unasked s → ∀ o ∈ [ack, trap], Next o fun t => Asked s t ∧ (due, Event.mailboxArrival (msg body)) ∈ t.agenda) ∧
      (∀ st, st < 2 ^ 64 → Replied s (.value st) → Next ack (Took s d (BitVec.ofNat 64 st)) ∧
        (st ≠ 1 → Next trap (Took s d (BitVec.ofNat 64 st))) ∧ (st = 1 → Traps s 0x0E (src s a) (trapAddress s) trap))
    ((src s b).toNat = 0xFF00 * 2 ^ 48 + off → off % 32 = 0 → off + 32 ≤ 0xC000 →
      forms (BitVec.ofNat 256 (leAt s.co.tcm.bytes off 32)) (exec (.send d a b) s) (exec (.sendAck d a b) s)
        (exec (.sendTrap d a b) s)) ∧
    (b.toNat ≤ 26 → forms (s.th.getV (b.toNat + 1) ++ s.th.getV b.toNat) (exec (.sendv d a b) s) (exec (.sendvAck d a b) s)
      (exec (.sendvTrap d a b) s))) ∧
  (∀ (s : State) (d a b : BitVec 5) (off : Nat), d.toNat < 16 → Quiet s → s.co.undo = none →
    let mask := src s a
    0 < mask.toNat → mask.toNat < 2 ^ 16 → mask.getLsbD 1 = false → mask.getLsbD 14 = false →
    (src s b).toNat = 0xFF00 * 2 ^ 48 + off → off % 32 = 0 → off + 32 ≤ 0xC000 →
    let stored (mb : Nat) (body : Payload) (t : State) : Prop :=
      XSet s d (BitVec.ofNat 64 mb) t ∧ leAt t.co.tcm.bytes off 32 = body.toNat ∧
      (∀ q, (q < off ∨ off + 32 ≤ q) → rd8 t.co.tcm.bytes q = rd8 s.co.tcm.bytes q) ∧ t.dram = s.dram ∧ t.pads = s.pads
    (Unasked s → ∀ mb body rest, mb < 16 → mask.getLsbD mb = true → s.co.box mb = body :: rest →
      (∀ m, m < mb → mask.getLsbD m = true → s.co.box m = []) → (mb = 0 → (∀ c ∈ s.cores, c.2.grants = []) ∧ s.co.grants = [] ∧ s.co.waiting0 = []) →
      ∀ i ∈ [Instr.recv d a b, Instr.recvt d a b], Next (exec i s) fun t => stored mb body t ∧ t.co.box mb = rest) ∧
    (∀ mb body, 0 < mb → mb < 16 → Replied s (.message mb body) → Next (exec (.recv d a b) s) fun t =>
      stored mb body t ∧ t.th.pend = []) ∧
    (Unasked s → (∀ m, m < 16 → mask.getLsbD m = true → s.co.box m = []) →
      Next (exec (.recvt d a b) s) (XWritten s d 16) ∧
      Next (exec (.recv d a b) s) fun t => Asked s t ∧ t.th.st = .blocked (.recv (mask.setWidth 16))))

/-- `t` is `s` after a word took a free copy id for an operation that meets `P` and started it (R278, R279): nothing of the
memories has changed yet. -/
def Sys2Proof.Claims.Started (s : State) (P : Nat → Copy → Prop) (t : State) : Prop :=
  ∃ id y, id < 96 ∧ mget s.co.copies id = none ∧ mget t.co.copies id = some y ∧ P id y ∧ y.who = s.th.who ∧ y.state = 0 ∧
    y.tenant = s.src.tenant ∧ y.space = s.src.space.toNat ∧ (∀ i, i ≠ id → mget t.co.copies i = mget s.co.copies i) ∧
    (∃ delay, 2 ≤ delay ∧ (s.now + delay, Event.copySectorReply s.cid id) ∈ t.agenda) ∧ MemoryKept s t ∧ t.th.pc = pcAfter s ∧ t.stat = .done

/-- x[d] takes the copy id. -/
def Sys2Proof.Claims.StartsCopy (s : State) (d : BitVec 5) (o : Answer) (P : Copy → Prop) : Prop :=
  Next o fun t => Started s (fun id y => P y ∧ XSet s d (BitVec.ofNat 64 id) t) t

/-- R278-R288, R308-R313: each copy-engine word whose checks pass takes a free copy id, records its operation there and gives the
id in x[d].
R279, R286: addresses that are no multiple of 8 trap DATA_MISALIGNED and a copy above 16 MiB traps ILLEGAL_OPERAND; while all 96
copy ids are in use the word waits (R278).
The model's choice: a CPYH descriptor needs no alignment of its own (notes/assumptions/27.md); an operation's first sector comes
two or more half-cycles after its start (notes/assumptions/28.md); CPYQ is stated for the counts from 1 that R288 speaks of, what
the others do being notes/assumptions/112.md. -/
def Obligations.CopyWordsStartOrTrap : Prop :=
  (∀ (s : State) (d a b : BitVec 5) (i p q : Nat), d.toNat < 16 → Quiet s → i < 96 → mget s.co.copies i = none → s.co.undo = none →
    s.src.space.toNat < 0xFF00 → s.spaceOk s.src.space.toNat s.src.tenant = true →
    let own := 0xFF00 * 2 ^ 48
    let x := (src s a).toNat
    let y := (src s b).toNat
    let z := (src s d).toNat
    let reachable (e n : Nat) : Prop := s.rangeOk s.src.space.toNat e n = .ok ()
    (x = own + p → z = own + q → p % 8 = 0 → q % 8 = 0 → y % 8 = 0 → p + y ≤ 0xC000 → q + y ≤ 0xC000 → p < 0xC000 → q < 0xC000 →
      StartsCopy s d (exec (.cpy d a b) s) fun c => c.kind = 1 ∧ c.src = x ∧ c.dst = z ∧ c.length = y ∧ c.work = .linear x z) ∧
    (let r : Line := BitVec.ofNat 512 (leAt s.co.tcm.bytes p 64)
      let n := tTotal r.toNat
      x = own + p → p % 64 = 0 → p + 64 ≤ 0xC000 → Unasked s → s.co.records = [] → s.co.tcm.bad = [] → tensorOk r.toNat = true → n ≤ 2 ^ 24 →
      z % 8 = 0 → n % 8 = 0 → reachable z n → reachable (tensorSpan r.toNat).1 1 → reachable (tensorSpan r.toNat).2 1 →
      StartsCopy s d (exec (.cpy2d d a) s) (fun c => c.kind = 2 ∧ c.src = x ∧ c.dst = z ∧ c.length = n ∧ c.work = .tensor r z false) ∧
      StartsCopy s d (exec (.cpy2dSt d a) s) (fun c => c.kind = 2 ∧ c.src = x ∧ c.dst = z ∧ c.length = n ∧ c.work = .tensor r z true)) ∧
    (∀ (home : Nat × Nat) (data : List Byte), s.queueRoute (src s a) 32 true = .ok home → 1 ≤ y / 2 ^ 32 → y / 2 ^ 32 ≤ 64 →
      z % 8 = 0 → Replied s (.result 0 true data) →
      (reachable z (blockCopy true z s.src.space.toNat data).2 → StartsCopy s d (exec (.cpyg d a b) s) fun c =>
        c.kind = 3 ∧ c.work = (blockCopy true z s.src.space.toNat data).1 ∧ c.src = x ∧ c.dst = z) ∧
      (reachable z (blockCopy false z s.src.space.toNat data).2 → StartsCopy s d (exec (.cpys d a b) s) fun c =>
        c.kind = 4 ∧ c.work = (blockCopy false z s.src.space.toNat data).1 ∧ c.src = z ∧ c.dst = x)) ∧
    (let len := leAt s.co.tcm.bytes p 4
      let h := leAt s.co.tcm.bytes (p + 8) 8
      y = own + p → p + 16 ≤ 0xC000 → leAt s.co.tcm.bytes (p + 4) 4 = 0 → len % 32 = 0 → 0 < len → len ≤ 49152 → x % 8 = 0 →
      z = own + q → q % 8 = 0 → q + len ≤ 0xC000 → reachable x len → h < 2 ^ 40 → mget s.co.banks 3 = none →
      (h % 8 = 0 ∨ h % 8 = 4 ∧ Unasked s ∧ ∃ bundle, s.bundleAt (BitVec.ofNat 40 (h - 4)) = some bundle ∧ bundle.getLsbD 31 = true ∧
        isWideCode (bundle.extractLsb' 0 27) = false) →
      Next (exec (.cpyh d a b) s) fun t => t.co.reserved = true ∧
        Started s (fun id c => c.kind = 5 ∧ c.work = .handler x q h p ∧ c.length = len ∧ XSet s d (BitVec.ofNat 64 id) t) t) ∧
    (∀ elem, x / 2 ^ 56 ≠ 0xFF → x % 64 = 0 → s.spaceOk s.src.space.toNat s.src.tenant = true → inReflexArray s.cid = false →
      s.co.staked = none → 1 ≤ y → y ≤ 65536 → z % 8 = 0 → Replied s (.value elem) → reachable z (y * elem) →
      StartsCopy s d (exec (.cpyq d a b) s) fun c => c.kind = 6 ∧ c.work = .elements z x elem ∧ c.length = y) ∧
    (∀ l, x < 256 → y % 8 = 0 → s.slotFor x s.src.prog = some l → reachable y l.size →
      StartsCopy s d (exec (.xmpub d a b) s) (fun c => c.kind = 8 ∧ c.work = .publish x y none ∧ c.length = l.size) ∧
      StartsCopy s d (exec (.xmrd d a b) s) (fun c => c.kind = 8 ∧ c.work = .fetch x y none none ∧ c.length = l.size) ∧
      StartsCopy s d (exec (.xmrdt d a b) s) (fun c => c.kind = 8 ∧ c.work = .fetch x y (some z) none ∧ c.length = l.size)) ∧
    (x < 256 → y % 8 = 0 → s.slotFor x s.src.prog = none → ∀ w ∈ [Instr.xmpub d a b, Instr.xmrd d a b, Instr.xmrdt d a b],
      StartsCopy s d (exec w s) fun c => c.status = 6 ∧ c.work = .refused) ∧
    (x = own + p → p % 64 = 0 → p + 512 ≤ 0xC000 → StartsCopy s d (exec (.probe d a b) s) fun c =>
      c.kind = 9 ∧ c.work = .probe p ∧ c.src = y)) ∧
  (∀ (s : State) (d a b : BitVec 5),
    let x := (src s a).toNat
    let y := (src s b).toNat
    let z := (src s d).toNat
    (x % 8 ≠ 0 → Traps s 0x04 (src s a) (trapAddress s) (exec (.cpy d a b) s)) ∧
    (x % 8 = 0 → z % 8 ≠ 0 → Traps s 0x04 (src s d) (trapAddress s) (exec (.cpy d a b) s)) ∧
    (x % 8 = 0 → z % 8 = 0 → y % 8 = 0 → 2 ^ 24 < y → Traps s 0x02 (src s b) (trapAddress s) (exec (.cpy d a b) s)) ∧
    (y / 2 ^ 32 % 2 ^ 16 = 0 ∨ 64 < y / 2 ^ 32 % 2 ^ 16 ∨ 2 ^ 48 ≤ y → Traps s 0x02 (src s b) (trapAddress s) (exec (.cpyg d a b) s) ∧
      Traps s 0x02 (src s b) (trapAddress s) (exec (.cpys d a b) s)) ∧
    (256 ≤ x → Traps s 0x02 (src s a) (trapAddress s) (exec (.xmpub d a b) s)) ∧
    (∀ p, x = 0xFF00 * 2 ^ 48 + p → p % 64 = 0 → p + 512 ≤ 0xC000 → (∀ i, i < 96 → mget s.co.copies i ≠ none) →
      Next (exec (.probe d a b) s) fun t => t.stat = .held ∧ t.co = s.co ∧ t.th.pc = s.th.pc ∧ t.th.x = s.th.x))

/-- R289, R292, R293: STRM and STRM.W bind v20-v23 to a legal descriptor in the own TCM and start its operation; STRMX ends a
binding, whose register then reads 0, and does nothing on a register that is not bound.
That the operation of an ended write stream takes its next step one core cycle later is the model's choice (notes/assumptions/28.md). -/
def Obligations.StreamsAreBoundAndEnded : Prop :=
  ∀ (s : State) (d a : BitVec 5) (i p : Nat), 20 ≤ d.toNat → d.toNat ≤ 23 → NoQueue s →
    (i < 96 → mget s.co.copies i = none → s.src.streams = [] → (src s a).toNat = 0xFF00 * 2 ^ 48 + p → p % 32 = 0 → p + 32 ≤ 0xC000 →
      streamOk (leAt s.co.tcm.bytes p 32) = true →
      s.rangeOk s.src.space.toNat (leAt s.co.tcm.bytes p 8) 1 = .ok () →
      let binds (write : Bool) (t : State) : Prop := Started s (fun id c => c.kind = 7 ∧ c.work = .stream d.toNat ∧
        mget t.th.streams d.toNat = some {
          desc := p, write := write, image := BitVec.ofNat 256 (leAt s.co.tcm.bytes p 32), copy := id, space := s.src.space.toNat } ∧
        ∀ v, v ≠ d.toNat → mget t.th.streams v = mget s.th.streams v) t ∧ t.th.x = s.th.x
      Next (exec (.strm d a) s) (binds false) ∧ Next (exec (.strmW d a) s) (binds true)) ∧
    (mget s.src.streams d.toNat = none → exec (.strmx d) s = .next (stepsPast s)) ∧
    (∀ st, mget s.src.streams d.toNat = some st → s.th = s.src → Next (exec (.strmx d) s) fun t =>
      mget t.th.streams d.toNat = none ∧ t.th.getV d.toNat = 0 ∧ (∀ n, n ≠ d.toNat → t.th.getV n = s.th.getV n) ∧ t.th.x = s.th.x ∧
      t.th.pc = pcAfter s ∧ t.co.tcm = s.co.tcm ∧ (st.write = false → mget t.co.copies st.copy = none) ∧
      (st.write = true → (s.now + 2, Event.copySectorReply s.cid st.copy) ∈ t.agenda))

/-- Byte `k` of plan entry `e`, whose header lies at own-TCM offset `h` (R295). -/
abbrev Sys2Proof.Claims.entryAt (h e k : Nat) : Nat := h + 0x20 + 16 * e + k

/-- R295-R300: XPHASE sets the phase and gives the superstep's origin; XSEND sends its entry's bytes in the entry's window, traps
after it, and waits before it; XRECV takes its entry's arrival flag; SSTEP announces the rank and gives the superstep number. -/
def Obligations.ExchangeWordsFollowThePlan : Prop :=
  ∀ (s : State) (d a : BitVec 5) (r : Run) (g : Prog), d.toNat < 16 → Quiet s → s.co.undo = none →
    mget s.front.progs s.src.prog = some g → g.run = some r → r.twins = [] → s.th.prog = s.src.prog →
    let h := s.src.planbase.toNat % 2 ^ 16
    let m := s.co.tcm.bytes
    let x := (src s a).toNat
    let count := leAt m (h + 0x10) 2
    let e := leAt m (h + 0x0C) 2 + x
    let opens := leAt m h 8 + leAt m (entryAt h e 0) 4
    let cycle := (s.now - s.front.cycle0) / 2
    (x < count → Next (exec (.xphase d a) s) fun t => XSet s d (BitVec.ofNat 64 (leAt m h 8)) t ∧ leAt t.co.tcm.bytes (h + 0x0C) 2 = x ∧
      OnlyWrites s t [(h + 0x0C, 2)]) ∧
    (count ≤ x → Traps s 0x02 (src s a) (trapAddress s) (exec (.xphase d a) s)) ∧
    (e < count → leAt m (entryAt h e 6) 1 = 0 → Unasked s →
      (opens ≤ cycle → cycle < opens + 8 → Next (exec (.xsend a) s) fun t =>
        (∃ delay, (s.now + delay, Event.exchangeArrival ⟨s.cid, leAt m (entryAt h e 4) 2, s.src.prog,
          leAt m (entryAt h e 0x0A) 2, leAt m (entryAt h e 7) 1,
          rdBytes m (leAt m (entryAt h e 8) 2) (leAt m (entryAt h e 0x0C) 2)⟩) ∈ t.agenda) ∧
        t.th = (stepsPast s).th ∧ t.co.tcm = s.co.tcm ∧ t.dram = s.dram) ∧
      (opens + 8 ≤ cycle → bit (leAt m (h + 0x0E) 1) 0 = false → Traps s 0x0D (src s a) (trapAddress s) (exec (.xsend a) s)) ∧
      (cycle < opens → Next (exec (.xsend a) s) fun t => Asked s t ∧
        ∃ delay, (s.now + delay, Event.exchangeWindow s.th.who s.nextId e) ∈ t.agenda)) ∧
    (e < count → leAt m (entryAt h e 6) 1 = 1 → Unasked s →
      (leAt m (entryAt h e 0x0F) 1 ≠ 0 → Next (exec (.xrecv a) s) fun t => t.th = (stepsPast s).th ∧
        leAt t.co.tcm.bytes (entryAt h e 0x0F) 1 = 0 ∧ OnlyWrites s t [(entryAt h e 0x0F, 1)]) ∧
      (leAt m (entryAt h e 0x0F) 1 = 0 → Next (exec (.xrecv a) s) fun t => Asked s t ∧ t.th.st = .blocked (.xrecv e))) ∧
    (s.src.gangid.toNat / 2 ^ 32 % 2 ^ 16 ≠ 0 →
      (Unasked s → Room s → Next (exec (.sstep d) s) fun t => Asked s t ∧ t.th.st = .blocked .sstep ∧
        ∃ delay, (s.now + delay, Event.barrierArrival s.th.who) ∈ t.agenda) ∧
      (∀ n, n < 2 ^ 64 → Replied s (.value n) → Next (exec (.sstep d) s) fun t => ∃ u, Took s d (BitVec.ofNat 64 n) u ∧
        t = { u with th := { u.th with comparedAt := s.th.compared } })) ∧
    (s.src.gangid.toNat / 2 ^ 32 % 2 ^ 16 = 0 → Traps s 0x02 (s.raw.setWidth 64) (trapAddress s) (exec (.sstep d) s))

/-- R301, R302: joining and leaving a barrier group, arriving at it and waiting for an episode. Outside a group GARR, GBAR and GWAIT
trap ILLEGAL_OPERAND (R302); that TVAL is then the word is the model's choice (notes/assumptions/38.md). -/
def Obligations.GroupWordsFollowTheEpisodes : Prop :=
  ∀ (s : State) (d a : BitVec 5) (dom : Nat), d.toNat < 16 → Quiet s → (s.core s.cid).staked = s.co.staked →
    let w := s.th.who
    let n := (src s a).toNat
    (s.th.group ≠ none → Next (exec (.gjoin d a) s) (XWritten s d (-1))) ∧
    (s.th.group = none → s.holdsDomain s.cid s.src.prog n = false → Next (exec (.gjoin d a) s) (XWritten s d (-2))) ∧
    (s.th.group = none → s.holdsDomain s.cid s.src.prog n = true →
      let g := (s.groupOf s.cid n).getD { members := [] }
      Next (exec (.gjoin d a) s) fun t => XSet s d (BitVec.ofNat 64 (g.members.length + 1)) t ∧ t.th.group = some n ∧
        (t.groupOf s.cid n).map (·.members) = some (g.members ++ [w]) ∧ MemoryKept s t) ∧
    (s.th.group = none → Next (exec (.gleave d) s) (XWritten s d (-1))) ∧
    (∀ g, s.th.group = some dom → s.groupOf s.cid dom = some g → Next (exec (.gleave d) s) fun t =>
      t.th.getX d.toNat = 0 ∧ t.th.group = none ∧ t.stat = .done ∧ (g.members = [w] → t.groupOf s.cid dom = none)) ∧
    (∀ g, s.th.group = some dom → s.groupOf s.cid dom = some g → Unasked s → g.stalls w = false →
      let episode := (g.completed + 1).toNat
      let all : Prop := ∀ m ∈ g.members, m = w ∨ m ∈ g.arrived ∨ m ∈ g.late
      Next (exec (.garr d) s) (fun t => t.th.getX d.toNat = (if d.toNat = 0 then 0 else BitVec.ofNat 64 episode) ∧ t.stat = .done) ∧
      (all → g.members ≠ [] → Next (exec (.gbar d) s) fun t =>
        t.th.getX d.toNat = (if d.toNat = 0 then 0 else BitVec.ofNat 64 episode) ∧ t.stat = .done ∧
        (t.groupOf s.cid dom).map (·.completed) = some (g.completed + 1)) ∧
      (¬ all → Next (exec (.gbar d) s) fun t => t.stat = .held ∧ t.th.st = .blocked (.gbar episode) ∧
        (t.groupOf s.cid dom).map (·.arrived) = some (g.arrived ++ [w]))) ∧
    (∀ e, e < 2 ^ 64 → Replied s (.value e) → Next (exec (.gbar d) s) (Took s d (BitVec.ofNat 64 e))) ∧
    (∀ g, s.th.group = some dom → s.groupOf s.cid dom = some g → Unasked s →
      ((g.completed.toNat + 2 ^ 32 - n % 2 ^ 32) % 2 ^ 32 < 2 ^ 31 → exec (.gwait a) s = .next (stepsPast s)) ∧
      (2 ^ 31 ≤ (g.completed.toNat + 2 ^ 32 - n % 2 ^ 32) % 2 ^ 32 → Next (exec (.gwait a) s) fun t =>
        Asked s t ∧ t.th.st = .blocked (.gwait n))) ∧
    (s.th.group = none → Traps s 0x02 (s.raw.setWidth 64) (trapAddress s) (exec (.garr d) s)) ∧
    (s.th.group = none → Unasked s → Traps s 0x02 (s.raw.setWidth 64) (trapAddress s) (exec (.gbar d) s) ∧
      Traps s 0x02 (s.raw.setWidth 64) (trapAddress s) (exec (.gwait a) s))

/-- R303-R307, R41: SPAWN places a thread in a Free bank of its core, EXIT ends its own, MIGR and the migrate hint set out for the
core whose TCM they name, YIELD gives up the turn, and the task-set words read and raise the count. A migrate hint to another
core looks at no alignment here: the word travels and executes at the target.
The model's choice: a raised count asks for new threads one core cycle later (notes/assumptions/2.md); a migration message
arrives at exactly the latency of R273 (notes/assumptions/5.md); a turn given up is the mark `yielded`, which the choice of the
next word reads (notes/assumptions/40.md). -/
def Obligations.ThreadsStartEndAndMove : Prop :=
  ∀ (s : State) (d a b : BitVec 5), d.toNat < 16 → Quiet s → isCore s.cid = true →
    let x := (src s a).toNat
    (∀ n g, (src s d).toNat = 0xFFFF → x % 8 = 0 → x < 2 ^ 40 → Unpaired s → s.co.staked = none → s.store.freeBank s.cid = some n →
      mget s.front.progs s.th.prog = some g → Next (exec (.spawn d a b) s) fun t => ∃ new, mget t.co.banks n = some new ∧
        XSet s d (new.id n) t ∧ new.pc.toNat = x ∧ new.getX 10 = src s b ∧ new.getX 2 = g.stackTop (n % 4) ∧ new.prog = s.th.prog ∧
        new.level = s.th.level ∧ new.st = .ready ∧ new.kind = .spawned ∧ n ≠ s.bank ∧ t.co.tcm = s.co.tcm) ∧
    ((src s d).toNat = 0xFFFF → x % 8 = 0 → x < 2 ^ 40 → Unpaired s → s.store.freeBank s.cid = none →
      Next (exec (.spawn d a b) s) (fun t => XSet s d 0 t ∧ t.co.tcm = s.co.tcm)) ∧
    (s.th.st ≠ .ended → s.th.group = none → s.th.streams = [] → s.th.stakes = [] → s.th.kind = .spawned →
      Next (exec .exit s) fun t => t.th.st = .ended ∧ t.th.pend = [] ∧ t.th.alarm = none ∧
        (∀ e ∈ t.agenda, e.2 ≠ .alarmFire s.th.who) ∧ t.co.tcm = s.co.tcm ∧ t.dram = s.dram) ∧
    (∀ c, s.tcmCore (src s a) = some c →
      (c = s.cid → exec (.migr a) s = .next (stepsPast s)) ∧
      (c ≠ s.cid → s.src.streams = [] → s.refusesMove c = false → s.co.egress ≤ s.now → Next (exec (.migr a) s) fun t =>
        t.th.st = .blocked .slot ∧ t.th.pc = pcAfter s ∧ t.stat = .done ∧ (mget t.moving s.nextId).map (·.dest) = some c ∧
        (s.now + 2 * (6 + 2 * hops (clusterOf s.cid) (clusterOf c)), Event.migrationArrival s.nextId) ∈ t.agenda) ∧
      (c ≠ s.cid → s.src.streams = [] → s.refusesMove c = true → Traps s 0x16 (src s a) (trapAddress s) (exec (.migr a) s)) ∧
      (c ≠ s.cid → s.th.hinted = false → Unasked s → s.src.streams = [] → s.refusesMove c = false → s.co.egress ≤ s.now →
        Next (exec (.migrLd d a) s) fun t => t.stat = .held ∧ t.th.st = .blocked .slot ∧ t.th.pc = s.th.pc ∧
          (mget t.moving s.nextId).map (·.dest) = some c)) ∧
    (s.th.hinted = false → LoadsOwn s d s.src.space.toNat x 8 (BitVec.ofNat 64) (exec (.migrLd d a) s)) ∧
    (s.th.latency = false ∨ s.otherReady = false → exec .yield s = .next (threadAfter s fun t => { t with yielded := true })) ∧
    (s.th.latency = true → s.otherReady = true →
      exec .yield s = .next (threadAfter s fun t => { t with yielded := true, notBefore := s.cycle + 2 })) ∧
    (∀ r, s.taskRun = some r → Next (exec (.tidx d) s) (XWritten s d (BitVec.ofNat 64 r.count)) ∧
      Next (exec (.tidxNx d) s) (XWritten s d (BitVec.ofNat 64 r.next)) ∧
      (r.count + x ≤ 0xFFFFFFFF → Next (exec (.tgrow d a) s) fun t => XSet s d 0 t ∧ MemoryKept s t ∧
        (t.taskRun).map (·.count) = some (r.count + x) ∧ (s.now + 2, Event.taskDispatch s.th.prog) ∈ t.agenda) ∧
      (0xFFFFFFFF < r.count + x → Next (exec (.tgrow d a) s) (XWritten s d 1))) ∧
    (s.taskRun = none → Next (exec (.tgrow d a) s) (XWritten s d 2) ∧ Next (exec (.tidx d) s) (XWritten s d 0) ∧
      Next (exec (.tidxNx d) s) (XWritten s d 0))

/-- R315, R317: STAKE without permission traps PRIVILEGE; with it, it gives the lowest stake id that the thread does not hold and asks
the arbiter, or −1 while all four are held. UNSTAKE gives the number of cores returned, which are staked no more;
before the grant of the stake has come it gives 0 and leaves the stake.
The model's choice: that last (notes/assumptions/35.md), and that the request reaches the arbiter exactly 32 half-cycles after its
message has left (notes/assumptions/5.md and 64.md; R51 gives 16 core cycles as a bound). -/
def Obligations.StakeWordsClaimAndReturnCores : Prop :=
  ∀ (s : State) (d a b : BitVec 5), d.toNat < 16 → Unpaired s →
    let n := (src s a).toNat
    let mask := (src s b).toNat
    (s.mayStake = false → Traps s 0x05 (s.raw.setWidth 64) (trapAddress s) (exec (.stake d a b) s)) ∧
    (s.mayStake = true → n = 0 ∨ 16 < n → Traps s 0x02 (src s a) (trapAddress s) (exec (.stake d a b) s)) ∧
    (s.mayStake = true → 1 ≤ n → n ≤ 16 → mask < 2 ^ 32 →
      (∀ k, k < 4 → (∀ j, j < k → mget s.th.stakes j ≠ none) → mget s.th.stakes k = none → Room s → Next (exec (.stake d a b) s) fun t =>
        XSet s d (BitVec.ofNat 64 k) t ∧ MemoryKept s t ∧ mget t.th.stakes k = some [] ∧ k ∈ t.th.staking ∧
        (max s.co.egress s.now + 32, Event.stakeRequest ⟨s.nextId, s.cid, s.th.who, k, n, BitVec.ofNat 32 mask⟩) ∈ t.agenda) ∧
      ((∀ k, k < 4 → mget s.th.stakes k ≠ none) → Next (exec (.stake d a b) s) (XWritten s d (-1)))) ∧
    (Quiet s → s.store.locate s.th.who = some (.live s.cid s.bank) →
      (mget s.th.stakes n = none → Next (exec (.unstake d a) s) fun t => XSet s d 0 t ∧ mget t.th.stakes n = none) ∧
      (mget s.th.stakes n = some [] → n ∈ s.th.staking → Next (exec (.unstake d a) s) fun t =>
        XSet s d 0 t ∧ t.th.stakes = s.th.stakes) ∧
      (∀ c, mget s.th.stakes n = some [c] → n ∉ s.th.staking → c ≠ s.cid → (s.core c).staked = some s.th.who → (s.core c).banks = [] →
        Next (exec (.unstake d a) s) fun t => XSet s d 1 t ∧ mget t.th.stakes n = none ∧ (t.core c).staked = none ∧
          (t.core c).regions = 0))

/-- A word that a home controller performs (R319, R331): it sends the operation `i` with its operands to the home of `route`, and
waits; the result that comes back goes to x[d], a trap is taken on the word. -/
def Sys2Proof.Claims.HomeWord (s : State) (d : BitVec 5) (i : Instr) (route : Nat × Nat) (x y : Word) (data : List Byte) : Prop :=
  (Unasked s → Unpaired s → Room s → Next (exec i s) fun t => Asked s t ∧
    (∃ delay, (s.now + delay, Event.homeControllerOperation s.nextId none) ∈ t.agenda) ∧
    mget t.qops s.nextId = some { home := route.1, core := s.cid, who := s.th.who, word := place s, tenant := s.src.tenant, space := route.2, op := i, a := x, b := y, data := data }) ∧
  (∀ v ok l, Replied s (.result v ok l) → Next (exec i s) (Took s d v)) ∧
  (∀ c v, Replied s (.trap c v) → Traps s c v (trapAddress s) (exec i s))

/-- R319, R326-R336, R341-R349: the words of queues, pools and block tables go to their structure's home and give what it answers;
ENQT and DEQT also set the predicate that mod names to whether the operation was performed.
That the fields of a descriptor are checked at issue, and in this order, is the model's choice (notes/assumptions/47.md). -/
def Obligations.StructureWordsGoToTheirHome : Prop :=
  ∀ (s : State) (d a b : BitVec 5) (m : BitVec 2) (r : Nat × Nat), d.toNat < 16 → Quiet s →
    let x := src s a
    let y := src s b
    let off := y.toNat % 2 ^ 16
    let len := y.toNat / 2 ^ 16 % 2 ^ 9
    let bytes (n : Nat) : List Byte := rdBytes s.co.tcm.bytes off n
    let own (n : Nat) : Prop := y.toNat = 0xFF00 * 2 ^ 48 + off ∧ off % n = 0 ∧ off + n ≤ 0xC000
    let tries (i : Instr) : Prop :=
      (∀ v ok l, Replied s (.result v ok l) → Next (exec i s) fun t => t.th.getP (4 + m.toNat) = ok ∧ t.th.pend = [] ∧
        t.th.getX d.toNat = (if d.toNat = 0 then 0 else v) ∧ t.th.pc = pcAfter s ∧ t.stat = .done ∧ t.co = s.co) ∧
      (Unasked s → Room s → Next (exec i s) (Asked s))
    (s.queueRoute x 64 true = .ok r → y.toNat < 2 ^ 25 → off % 8 = 0 → len % 8 = 0 → 8 ≤ len → len ≤ 256 → off + len ≤ 0xC000 →
      HomeWord s d (.enq d a b) r x y (bytes len) ∧ tries (.enqt d a b m) ∧
      (s.queueRoute x 64 false = .ok r → HomeWord s d (.deq d a b) r x y [] ∧ tries (.deqt d a b m))) ∧
    (s.queueRoute x 64 false = .ok r → own 32 →
      (queueInitOk (queueInit x.toNat r.2 0 (bytes 32)) (bytes 32) = true → HomeWord s d (.qinit d a b) r x y (bytes 32)) ∧
      (queueInitOk (queueInit x.toNat r.2 0 (bytes 32)) (bytes 32) = false → Unasked s →
        Traps s 0x02 y (trapAddress s) (exec (.qinit d a b) s))) ∧
    (s.queueRoute x 64 true = .ok r → own 64 → HomeWord s d (.qstat d a b) r x y [] ∧ HomeWord s d (.pstat d a b) r x y []) ∧
    (s.queueRoute x 64 false = .ok r → HomeWord s d (.qdrain d a) r x 0 [] ∧ HomeWord s d (.qreset d a) r x 0 []) ∧
    (s.queueRoute x 64 true = .ok r → own 32 → (poolInit x.toNat r.2 0 (bytes 32)).staticOk = true →
      leAt s.co.tcm.bytes (off + 24) 8 = 0 → HomeWord s d (.pinit d a b) r x y (bytes 32)) ∧
    (s.queueRoute x 64 true = .ok r → HomeWord s d (.balloc d a) r x 0 [] ∧ HomeWord s d (.bfree d a b) r x y []) ∧
    (s.queueRoute x 32 true = .ok r → HomeWord s d (.btapp d a) r x 0 [] ∧ HomeWord s d (.btget d a b) r x y [] ∧
      HomeWord s d (.btfork d a b) r x y [] ∧ HomeWord s d (.btrel d a) r x 0 []) ∧
    (x.toNat % 64 ≠ 0 → Traps s 0x04 x (trapAddress s) (exec (.enq d a b) s) ∧ Traps s 0x04 x (trapAddress s) (exec (.balloc d a) s))

/-! ### Events (R16-R51, R155-R157, R165-R173, R207-R224, R235, R270-R349, R383-R432) -/

/-- `s` as the event `e` finds it. -/
abbrev Sys2Proof.Claims.On (s : State) (e : Event) : State := { s with event := e }

/-- In `t`, event `e` comes about at fabric cycle `n`. -/
abbrev Sys2Proof.Claims.Comes (t : State) (n : Nat) (e : Event) : Prop := (n, e) ∈ t.agenda

/-- R403: an error counter has counted once more, up to 2^32 − 1. -/
def Sys2Proof.Claims.Counted (s t : State) (unit ctr : Nat) : Prop :=
  mget t.counters (16 * unit + ctr) = some (min ((mget s.counters (16 * unit + ctr)).getD 0 + 1) 0xFFFFFFFF)

/-- Thread `w` runs in bank `b` of core `c`, with context `u`, and on no other core. -/
def Sys2Proof.Claims.Lives (s : State) (w : Who) (c b : Nat) (u : Thread) : Prop :=
  c < 2 ^ 20 ∧ s.locate w = some (.live c b) ∧ (s.core c).bankOf w = some b ∧ mget (s.core c).banks b = some u ∧
    ∀ e ∈ s.cores, e.2.bankOf w ≠ none → e.1 = c

/-- Every slice is awake, so that no event waits for the wake of one (R166). -/
def Sys2Proof.Claims.Awake (s : State) : Prop := ∀ h, (s.home h).power = .awake

/-- No request of number `id` is shared with the partner of a pair. -/
abbrev Sys2Proof.Claims.Single (s : State) (id : Nat) : Prop := mget s.pairs id = none

/-- R16, R29, R38, R385-R387, R395, R396, R403: a release counts an overrun or starts its activation, and sets the next release; a
deadline that passes is counted; a budget that runs out traps 0x17; a starved slot is guarded; matched requests of a pair go on.
A request with no match, or with another hash, counts PAIR_MISMATCH and the pair's unmatched requests are dropped: the activation
runs once more with the same release, and at the second mismatch it is missed. That the primary's core counts is the model's choice
(notes/assumptions/38.md). -/
def Obligations.ReflexScheduleRuns : Prop :=
  ∀ (s : State) (e k c b : Nat) (r : Reflex), mget s.front.reflex e = some r →
    let entry (t : State) : Option Reflex := mget t.front.reflex e
    let home := rfCore r.n
    (r.armed = true → r.next = k → r.releaseAt k ≤ s.meridianNow →
      (r.active ≠ none → Next (exec .reflexRelease (On s (.reflexRelease e k))) fun t =>
        (entry t).map (fun q => (q.next, q.overruns, q.active)) = some (k + 1, min (r.overruns + 1) 0xFFFFFFFF, r.active) ∧
        Counted s t (unitCore home) ctrOverrun ∧
        Comes t (s.now + (r.releaseAt (k + 1) - s.meridianNow)) (.reflexRelease e (k + 1))) ∧
      (∀ g, r.active = none → r.waiting = none → rfPair r.n = false → rfBank r.n < 4 → mget s.front.progs (rfProg r.n) = some g →
        (∀ x ∈ (s.core home).banks, x.1 ≠ rfBank r.n) →
        Next (exec .reflexRelease (On s (.reflexRelease e k))) fun t => (entry t).map (·.active) = some (some k) ∧
          ∃ u, mget (t.core home).banks (rfBank r.n) = some u ∧ u.kind = .reflex e k ∧ u.st = .ready ∧ u.latency = true ∧
            u.pc.toNat = rfEntry r.n % 2 ^ 40 ∧ u.getX 10 = BitVec.ofNat 64 k ∧ u.getX 11 = BitVec.ofNat 64 (rfArg r.n))) ∧
    (r.releaseAt k + rfDeadline r.n < s.meridianNow → r.active = some k → r.exited = false → r.missed = false →
      Next (exec .deadlineMiss (On s (.deadlineMiss e k))) fun t =>
        (entry t).map (fun q => (q.misses, q.consecutive, q.missed)) =
          some (min (r.misses + 1) 0xFFFF, min (r.consecutive + 1) 255, true) ∧ Counted s t (unitCore home) ctrDeadline) ∧
    (∀ u, mget (s.core c).banks b = some u → u.kind = .reflex e k → u.overBudget = false → u.st = .ready → u.trap0.held = false →
      u.trap0.tvec ≠ 0 → Next (exec .budgetExceeded (On s (.budgetExceeded c b))) fun t => ∃ v, mget (t.core c).banks b = some v ∧
        v.trap0.cause = 0x17 ∧ v.trap0.tval = BitVec.ofNat 64 (rfBudget r.n) ∧ v.trap0.tepc = u.pc ∧ v.trap0.held = true ∧
        v.pc = u.trap0.tvec ∧ v.overBudget = true) ∧
    ((s.core c).shadowWaits b = true → mget (s.core c).banks b = none → (s.core c).bankOfSlot b ≠ b + 4 →
      Next (exec .shadowBankSwitch (On s (.shadowBankSwitch c b))) fun t => (t.core c).bankOfSlot b = b + 4 ∧
        (mget (t.core c).banks (b + 4)).map (·.st) = some .ready) ∧
    (b ∉ (s.core c).guarded → Next (exec .starvationGuard (On s (.starvationGuard c b))) fun t =>
      (t.core c).guarded = (s.core c).guarded ++ [b]) ∧
    (∀ id h q j o, mget s.pairs id = some q →
      let came : State := { s with pairs := mset s.pairs id { q with arrived := true, hash := h } }
      (came.mateOf q = none → Next (exec .pairHashArrival (On s (.pairHashArrival id h))) fun t =>
        t = { On s (.pairHashArrival id h) with pairs := came.pairs }) ∧
      (came.mateOf q = some (j, o) → o.hash = h → (∀ x, mget s.front.reflex q.pair = some x → x.exited = false) →
        Next (exec .pairHashArrival (On s (.pairHashArrival id h))) fun t =>
        Comes t (s.now + if q.primary then q.delay else o.delay) (if q.primary then q.go else o.go)) ∧
      (q.twin ≠ none → exec .pairMatchTimeout (On s (.pairMatchTimeout id)) = .next (On s (.pairMatchTimeout id))) ∧
      (q.twin = none → q.pair = e → e < 64 → r.active = none → exec .pairMatchTimeout (On s (.pairMatchTimeout id)) =
        .next (((On s (.pairMatchTimeout id)).count (unitCore home) ctrPairMismatch).dropPair e)) ∧
      let mismatched (answer : Answer) : Prop :=
        (∀ n, r.active = some n → r.reruns = 0 → Next answer fun t => Counted s t (unitCore home) ctrPairMismatch ∧
          (∀ i y, mget t.pairs i = some y → y.pair = e → y.twin ≠ none) ∧ (entry t).map (·.reruns) = some 1 ∧
          ((entry t).bind (·.waiting) = some n ∨ (entry t).bind (·.active) = some n)) ∧
        (r.active ≠ none → r.reruns ≠ 0 → r.missed = false → Next answer fun t => Counted s t (unitCore home) ctrPairMismatch ∧
          Counted s t (unitCore home) ctrDeadline ∧ (∀ i y, mget t.pairs i = some y → y.pair = e → y.twin ≠ none) ∧
          (entry t).map (fun x => (x.active, x.reruns, x.misses, x.consecutive)) =
            some (none, 0, min (r.misses + 1) 0xFFFF, min (r.consecutive + 1) 255))
      q.pair = e → e < 64 → s.front.reflex = [(e, r)] → r.waiting = none → r.armed = true →
        (q.twin = none → mismatched (exec .pairMatchTimeout (On s (.pairMatchTimeout id)))) ∧
        (came.mateOf q = some (j, o) → o.hash ≠ h → mismatched (exec .pairHashArrival (On s (.pairHashArrival id h)))))

/-- R27, R31, R33-R37, R41-R51, R304, R316, R318: admission, dispatch, the release and clearing of a core, completion, staking,
pre-emption, streams of contexts, restore and the run queue, each where nothing holds it back.
The model's choice: a grant of Free cores leaves exactly 64 core cycles after its request (notes/assumptions/64.md); a seize comes 16
core cycles after the choice of the core and settles it in exactly 96, where R47 gives a bound (notes/assumptions/43.md); the mask that
firmware has asked for stands in `standbyNext` until it takes effect (notes/assumptions/50.md); a message's exact arrival
(notes/assumptions/5.md). -/
def Obligations.CoresAndContextsChangeHands : Prop :=
  ∀ (s : State) (p c b id : Nat) (g : Prog) (r : Run) (x : Context) (u : Thread) (q : StakeReq),
    let run (t : State) : Option Run := (mget t.front.progs p).bind (·.run)
    let cl := clusterOf c
    (mget s.front.progs p = some g → g.run = some r →
      (Awake s → s.front.boot = 5 → s.front.standbyNext = s.front.standby → s.front.latQueue = [] → s.front.bulkQueue = [p] →
        s.contexts = [] → r.gang = false → s.heldBack p g r = false → s.stillComing p = false → (∃ d, (s.maskCores r).find? (fun d => s.isFree d p) = some d) →
        Next (exec .admission (On s .admission)) fun t => (run t).map (·.admitted) = some true ∧ t.front.bulkQueue = []) ∧
      (r.gang = false → r.admitted = true → r.ended = none → r.next + 1 = r.count → r.cores = [c] → r.grouped = false →
        s.takesTasks p r.table c = true → s.freeBank c = some b → Next (exec .taskDispatch (On s (.taskDispatch p))) fun t =>
          (run t).map (·.next) = some r.count ∧ Comes t s.now (.programCompletion p) ∧ ∃ v, mget (t.core c).banks b = some v ∧
            v.kind = .taskSet r.next ∧ v.prog = p ∧ v.pc.toNat = r.entry % 2 ^ 40 ∧ v.getX 10 = BitVec.ofNat 64 r.next ∧
            v.getX 13 = BitVec.ofNat 64 r.count0) ∧
      (Awake s → r.admitted = true → r.hasMore = false → r.ended = none → (s.dropContexts p).progDrained p = true →
        mget s.front.windows r.window = none → Next (exec .programCompletion (On s (.programCompletion p))) fun t =>
          (mget t.front.progs p).map (·.run) = some none ∧ Comes t s.now .admission)) ∧
    (isCompute c = true → (s.core c).banks = [(b, u)] → u.st = .ended → s.drained u = true → (∀ i, u.kind ≠ .landing i) →
      (s.core c).clearing = false → (∀ e ∈ s.front.reflex, e.2.waiting = none) → Next (exec .bankRelease (On s (.bankRelease c b))) fun t => (t.core c).banks = [] ∧
        (t.core c).clearing = true ∧ Comes t (s.now + 2 * 192) (.clearing c)) ∧
    ((∀ e ∈ s.front.reflex, e.2.waiting = none) → Next (exec .clearing (On s (.clearing c))) fun t =>
      (t.core c).tcm = {} ∧ (t.core c).tiles = [] ∧ (t.core c).slots = [] ∧ (t.core c).mconf = 0x03000000 ∧
      (t.core c).linkcfg = 0 ∧ (t.core c).l0d = [] ∧ (t.core c).clearing = false ∧ Comes t s.now .admission) ∧
    (∀ m : BitVec 32, (s.stakeArmed = true → maskSize m < 4 →
        exec .standbyMaskWrite (On s (.standbyMaskWrite m)) = .next (On s (.standbyMaskWrite m))) ∧
      ((s.stakeArmed = false ∨ 4 ≤ maskSize m) → Next (exec .standbyMaskWrite (On s (.standbyMaskWrite m))) fun t =>
        t.front.standbyNext = m ∧ t.front.standby = s.front.standby ∧ Comes t s.now .admission) ∧
      (Awake s → s.front.standbyNext = m → (s.stakeArmed = false ∨ 4 ≤ maskSize m) → s.front.progs = [] → s.contexts = [] →
        s.front.latQueue = [] → s.front.bulkQueue = [] →
        (∀ i, i < 32 → m.getLsbD i = true → s.front.standby.getLsbD i = true ∨ s.mayStandBy i = true) →
        Next (exec .admission (On s .admission)) fun t => t.front.standby = m)) ∧
    (∀ n free, n = min q.count (16 - s.stakeHeld q.who) → free = (delibCores.filter (s.stakeFree q)).take n → free.length = n →
      Next (exec .stakeRequest (On s (.stakeRequest q))) fun t => mget t.front.stakes q.id = some ({ q with count := n }, [], free) ∧
        (∀ d ∈ free, (t.core d).staked = some q.who) ∧
        Comes t (s.now + 2 * 64) (.stakeGrant ((s.originOf q.who).getD q.core) q.id)) ∧
    (∀ from_ w l, mget s.front.stakes id = some (q, w, l) → Single s id →
      (Lives s q.who c b u → (∀ m ∈ s.moving, m.2.thread.who ≠ q.who) → (∀ e ∈ (s.core c).banks, e.2.recvMask = none) →
        ((s.core c).box 0).length < 8 → Next (exec .stakeGrant (On s (.stakeGrant from_ id))) fun t =>
          mget t.front.stakes id = none ∧ (mget (t.core c).banks b).map (·.stakes) = some (mset u.stakes q.stake l) ∧
          (t.core c).box 0 = (s.core c).box 0 ++ [grantEntry q.stake (q.count == 0) l]) ∧
      (s.thread? q.who = none → l = [c] → isCompute c = true → (s.core c).banks = [] → (s.core c).runQueue = [] → (s.core c).clearing = false →
        Next (exec .stakeGrant (On s (.stakeGrant from_ id))) fun t => mget t.front.stakes id = none ∧ (t.core c).staked = none ∧
          (t.core c).clearing = true ∧ Comes t (s.now + 2 * 192) (.clearing c))) ∧
    (s.mayVacate c = true →
      (∀ n, s.streams cl < 4 → s.freeRecord cl = some n → Next (exec .preemption (On s (.preemption c none))) fun t =>
        t.streams cl = s.streams cl + 1 ∧ Comes t (s.now + 2 * 16) (.seize c (.evict n))) ∧
      (∀ d, s.isFree d 0 = true → Next (exec .preemption (On s (.preemption c (some d)))) fun t =>
        Comes t (s.now + 2 * 16) (.seize c (.live d)))) ∧
    (∀ n, Awake s → (s.core c).banks ≠ [] → (∀ e ∈ (s.core c).banks, e.2.streams = []) → Next (exec .seize (On s (.seize c (.evict n)))) fun t =>
      (t.core c).banks = [] ∧ (t.core c).seized = some (.evict n) ∧ ∃ i y, mget t.contexts i = some y ∧ y.origin = c ∧
        y.record = some n ∧ y.dest = none ∧ y.moving = true ∧ y.core.tcm = (s.core c).tcm ∧ y.core.tiles = (s.core c).tiles ∧
        Comes t (s.now + 2 * (96 + 1196)) (.contextStreamEnd i)) ∧
    (mget s.contexts id = some x →
      (∀ n, x.moving = true → x.dest = none → x.record = some n → x.stake = none →
        (∀ i, i < 17 → (s.core (coreId x.cluster i)).queued = []) →
        Next (exec .contextStreamEnd (On s (.contextStreamEnd id))) fun t => mget t.contexts id = some { x with moving := false } ∧
          (t.core x.origin).seized = none ∧ Comes t s.now .admission) ∧
      (x.moving = false → x.dest = none → s.isFree c x.prog = true →
        (s.core c).table = x.core.table → s.streams x.cluster < 4 →
        Next (exec .restore (On s (.restore c id))) fun t => mget t.contexts id = some { x with moving := true, dest := some c } ∧
          t.streams x.cluster = s.streams x.cluster + 1 ∧ Comes t (s.now + 2 * 1196) (.contextStreamEnd id))) ∧
    (∀ m, mget s.moving id = some m →
      (m.arrived = true → s.freeBank m.dest = some b → Next (exec .migrationArrival (On s (.migrationArrival id))) fun t =>
        mget t.moving id = none ∧ id ∉ (t.core m.dest).runQueue ∧ mget (t.core m.dest).banks b =
          some { m.thread with st := .ready, fresh := true, starve := 0, notBefore := s.cycle + 1, fetched := none }) ∧
      Next (exec .migrationResend (On s (.migrationResend id))) fun t =>
        Comes t (max s.now (s.core m.src).egress + 2 * (6 + 2 * hops (clusterOf m.src) (clusterOf m.dest))) (.migrationArrival id))

/-- R42-R45, R156, R233, R249, R270-R276, R297-R302, R309, R310, R330-R340, R402: what arrives for a thread, a mailbox, a barrier or a
queue's home changes what it is addressed to. A full mailbox of 2-13 or 15 drops and counts the message (R273).
The model's choice: an exchange or link word for a program with no thread there counts LINK_DROP (notes/assumptions/37.md); the exact
times of acknowledgements, exchanges and probes within the bounds of the spec (notes/assumptions/5.md). -/
def Obligations.ArrivalsReachTheirTarget : Prop :=
  ∀ (s : State) (w : Who) (c b id : Nat) (u : Thread), c < 2 ^ 20 →
    let bank (t : State) : Option Thread := mget (t.core c).banks b
    (∀ e, mget s.kept id = some e → (∀ m, e ≠ .mailboxArrival m) → Next (exec .retryResend (On s (.retryResend id))) fun t =>
      mget t.kept id = none ∧ Comes t s.now e) ∧
    (∀ m : Msg, m.dst % 256 ≠ 31 → m.dst = c → m.level = .service → m.mb < 16 → m.mb ≠ 1 → m.mb ≠ 14 → (s.core c).seized = none →
      s.departedFrom c = c → s.behind m s.nextId = false → (s.core c).receiver m.mb = none →
      let back := s.now + 2 * (6 + 2 * hops (clusterOf m.dst) (clusterOf m.src))
      (((s.core c).box m.mb).length < 8 → Next (exec .mailboxArrival (On s (.mailboxArrival m))) fun t =>
        (t.core c).box m.mb = (s.core c).box m.mb ++ [m.body] ∧ (m.id ≠ 0 → Comes t back (.sendAcknowledgement m.who m.id 0))) ∧
      (8 ≤ ((s.core c).box m.mb).length → m.mb ≠ 0 → m.form ≠ 3 → Next (exec .mailboxArrival (On s (.mailboxArrival m))) fun t =>
        (t.core c).mail = (s.core c).mail ∧ Counted s t (unitCore c) ctrMboxDrop ∧
        (m.id ≠ 0 → Comes t back (.sendAcknowledgement m.who m.id 1)))) ∧
    (∀ n, Single s id → s.locateAny w = some (c, b) → mget (s.core c).banks b = some u → Next (exec .sendAcknowledgement (On s (.sendAcknowledgement w id n))) fun t =>
      bank t = some { u.answer id (.value n) with sends := u.sends - 1 }) ∧
    (∀ x kind mb body, mget s.contexts id = some x → s.locate w = some (.saved id b) → x.moving = false →
      let delivered : Answer := exec .savedContextDelivery (On s (.savedContextDelivery w kind mb body))
      (x.arrivals.length < 32 → Next delivered fun t => (mget t.contexts id).map (·.arrivals) = some (x.arrivals ++ [(kind, mb, body)])) ∧
      (32 ≤ x.arrivals.length → kind ≠ 2 → kind ≠ 3 → Next delivered fun t => Counted s t (unitCore x.origin) ctrMboxDrop ∧
        t.contexts = s.contexts)) ∧
    (∀ time mb, Lives s w c b u → u.alarm = some (time, mb) → time ≤ s.meridianNow → (∀ e ∈ (s.core c).banks, e.2.recvMask = none) →
      ((s.core c).box mb).length < 8 → Next (exec .alarmFire (On s (.alarmFire w))) fun t =>
        (∀ v, bank t = some v → v.alarm = none) ∧ (t.core c).box mb = (s.core c).box mb ++
          [alarmBody s.meridianNow time (({ prog := w.prog, serial := w.serial } : Thread).id b)]) ∧
    (∀ e, Lives s w c b u → (u.pend.any fun x => x.id == id) = true → Single s id → (s.core c).halted = false → (s.core c).seized = none →
      Next (exec .exchangeWindow (On s (.exchangeWindow w id e))) fun t => bank t = some (u.answer id (.value 0)) ∧
        let m := (s.core c).tcm.bytes
        let n := rdN m (u.planEntry e + 0x0C) 2
        ∃ x : XMsg, x.prog = u.prog ∧ x.offset = rdN m (u.planEntry e + 0x0A) 2 ∧ x.data = rdBytes m (rdN m (u.planEntry e + 8) 2) n ∧
          (s.copyNo u.prog c = 0 → x.src = c ∧ x.dst = rdN m (u.planEntry e + 4) 2) ∧
          Comes t (max s.now (s.core c).egress + (2 * hops (clusterOf c) (clusterOf x.dst) + n / 64 + 8)) (.exchangeArrival x)) ∧
    (∀ x : XMsg, s.placeOf x.prog x.dst = c → (s.core c).seized = none →
      let m := (s.core c).tcm.bytes
      ((s.core c).banks.find? (fun e => e.2.prog == x.prog && e.2.kind.isGang) = some (b, u) →
        mget (s.core c).banks b = some u → rdN m (u.planEntry x.index + 4) 2 = x.src → rdN m (u.planEntry x.index + 0x0F) 1 = 0 →
        Next (exec .exchangeArrival (On s (.exchangeArrival x))) fun t => bank t = some (u.received x.index) ∧
          rdN (t.core c).tcm.bytes (u.planEntry x.index + 0x0F) 1 = 1) ∧
      ((s.core c).banks.find? (fun e => e.2.prog == x.prog && e.2.kind.isGang) = none →
        Next (exec .exchangeArrival (On s (.exchangeArrival x))) fun t => Counted s t (unitCore x.dst) ctrLinkDrop ∧ t.cores = s.cores)) ∧
    (∀ (p copy : Nat) (g : Prog) (r : Run), mget s.front.progs p = some g → g.run = some r →
      let barrier (t : State) : Option Superstep := ((mget t.front.progs p).bind (·.run)).map fun r => r.step copy
      (Lives s w c b u → w.prog = p → s.copyNo p c = copy → Next (exec .barrierArrival (On s (.barrierArrival w))) fun t =>
        ∃ y, barrier t = some y ∧ w.serial ∈ y.arrived) ∧
      (s.ranks p copy = [(c, b, u)] → Lives s w c b u → u.who = w → u.st = .blocked .sstep → (s.core c).undo = none →
        (r.step copy).marked = false → Next (exec .sstepRelease (On s (.sstepRelease p copy))) fun t => (barrier t).map (·.arrived) = some [] ∧
          let n := (rdN (s.core c).tcm.bytes (u.planAt + 8) 4 + 1) % 2 ^ 32
          bank t = some (u.finishWait (.value n)) ∧ rdN (t.core c).tcm.bytes (u.planAt + 8) 4 = n) ∧
      (3 ≤ (r.step copy).replays → r.ended = none → Next (exec .superstepReplay (On s (.superstepReplay p copy))) fun t =>
        (((mget t.front.progs p).bind (·.run)).bind (·.ended)).map (·.1) = some 0x1A ∧ Comes t s.now (.programCompletion p)) ∧
      ((r.step copy).replays < 3 → (∀ q, (s.coreAt q).undoOver = false) → s.gangDrained p copy = true →
        (r.step copy).last + 352 ≤ s.cycle → Next (exec .superstepReplay (On s (.superstepReplay p copy))) fun t =>
          (barrier t).map (fun y => (y.arrived, y.marked, y.replays)) = some ([], false, (r.step copy).replays + 1))) ∧
    (∀ (a : Probe) y area, a.auto = false → a.core = c → a.found ≠ [] → a.at_ = a.start → mget (s.core c).copies a.copy = some y →
      y.work = .probe area → y.who = a.who → Next (exec .probeHop (On s (.probeHop a))) fun t => Comes t (s.now + 4) (.copyCompletion c a.copy) ∧
        (mget (t.core c).copies a.copy).map (fun z => (z.a, z.b, z.state)) = some (a.found.length, 1, 2)) ∧
    (∀ k, Lives s w c b u → u.st = .blocked k → k.hasTarget = true → u.since + 1000000 ≤ s.now → clusterOf c < 34 →
      Next (exec .autoProbe (On s (.autoProbe w))) fun t => Comes t (s.now + 2)
        (.probeHop { who := w, core := coreId (clusterOf c) 16, copy := 0, auto := true, start := w, at_ := w, found := [] })) ∧
    (∀ port prog v hops, (s.core c).seq = [] → (s.core c).vloop = none →
      ((s.core c).holds prog = true → Next (exec .linkWordArrival (On s (.linkWordArrival c port prog v hops))) fun t =>
        mget (t.core c).fifo port = some ((mget (s.core c).fifo port).getD [] ++ [v])) ∧
      ((s.core c).holds prog = false → Next (exec .linkWordArrival (On s (.linkWordArrival c port prog v hops))) fun t =>
        Counted s t (unitCore c) ctrLinkDrop ∧ (t.core c).fifo = (s.core c).fifo)) ∧
    (∀ o q v x y z i w, mget s.qops id = some o → o.reply = none → o.home ≠ 99 → Awake s →
      (o.space = spaceOnChip ∧ v = On s (.homeControllerOperation id none) ∨ o.space ≠ spaceOnChip ∧
        (On s (.homeControllerOperation id none)).translate o.home o.space o.a.toNat .atomic = .ok (i, v)) →
      isPeer o.space = false → o.op = .enq x y w → v.activate o.home o.a.toNat o.space = .ok (q, z) →
      o.data.length = q.elem → ∀ z', z.putElem o.home q o.data false = .ok (some z') →
      exec .homeControllerOperation (On s (.homeControllerOperation id none)) = .next (z'.replyOp id q.multi (.result 0 true []))) ∧
    (∀ o xd ok, Lives s w c b u → mget s.qops id = some o → o.who = w → o.copy = none → keepsData o.op = false → Single s id →
      o.reply = some (.result xd ok []) → Next (exec .homeControllerReply (On s (.homeControllerReply id none))) fun t =>
        bank t = some (u.answer id (.result xd ok [])) ∧ mget t.qops id = none) ∧
    (∀ gr : Grant, Lives s w c b u → gr.who = w → gr.data = [] → u.waitsFor = some id → Single s id → (s.core c).seized = none →
      Next (exec .queueGrant (On s (.queueGrant gr))) fun t =>
        bank t = some (u.answer id (.result (BitVec.ofNat 64 gr.status) (gr.status == 0) []))) ∧
    (∀ h n, (∃ q ∈ (s.home h).queues, ∃ x ∈ q.producers ++ q.consumers, x.ticket = n ∧ x.who = w) →
      Next (exec .waiterWithdrawal (On s (.waiterWithdrawal h n w))) fun t =>
        ∀ q ∈ (t.home h).queues, ∀ x ∈ q.producers ++ q.consumers, x.ticket ≠ n) ∧
    (∀ h, (s.home h).waiters - (s.home h).spilled.length < 256 → Next (exec .waiterRecordReturn (On s (.waiterRecordReturn h))) fun t =>
      (t.home h).spilled = (s.home h).spilled.drop 1) ∧
    (∀ h qcb sp ten n q, Awake s → (s.home h).queue? qcb sp ten = some q → q.shadow = true → q.producers = [] → isPeer sp = true →
      Next (exec .creditMessage (On s (.creditMessage h qcb sp ten n))) fun t =>
        ((t.home h).queue? qcb sp ten).map (·.free) = some (if n = 0 then 0 else q.free + n)) ∧
    Next (exec .peerUnreachable (On s .peerUnreachable)) fun t => t.front.linkUp = false

/-- A fault message that core `c` sends to mailbox 4 of the service core, through its egress buffer (R12, R221). -/
def Sys2Proof.Claims.FaultMail (s t : State) (c : Nat) (f : FaultRec) (fid : Nat) : Prop :=
  ∃ m : Msg, m.src = c ∧ m.dst = faultTarget c ∧ m.mb = 4 ∧ m.body = BitVec.ofNat 256 (ofBytes (faultBody f fid)) ∧
    Comes t ((if isCore c then max s.now (s.core c).egress else s.now) + 2 * (6 + 2 * hops (clusterOf m.src) (clusterOf m.dst)))
      (.mailboxArrival m)

/-- R166, R168-R171, R192, R207-R210, R213-R224, R372, R373: requests at a slice, walks, far accesses, confirmations, replies, faults and
their replies, the overflow handler, the power of a slice, shoot-downs, region updates and peer translations.
The model's choice: reason 0 for a peer's access under a lease that has ended (notes/assumptions/25.md); a slice that wakes takes all
the 1,200 core cycles that R166 allows, and a recall, a confirmation, a reply and the nodes of the tree take the times of
notes/assumptions/5.md. -/
def Obligations.MemoryEventsServeTheirAccess : Prop :=
  ∀ (s : State) (w : Who) (c b id : Nat) (u : Thread) (a : Acc) (n : Nat), c < 2 ^ 20 →
    let bank (t : State) : Option Thread := mget (t.core c).banks b
    let ea := a.todo.headD 0
    let h := s.homeOf a.space ea
    let key := s.lineKey a
    (mget s.accs id = some a →
      (a.forWhom = .word n → a.todo = [ea] →
        ((s.home h).power = .gated → Next (exec .sliceRequest (On s (.sliceRequest id))) fun t => Comes t s.now (.sliceWake h) ∧
          (t.home h).waking = (s.home h).waking ++ [.sliceRequest id]) ∧
        (isLocal a.space = true → (s.home h).power = .awake →
          (s.tlbHit h a.space ea = none → Next (exec .sliceRequest (On s (.sliceRequest id))) fun t =>
            Comes t (s.now + (1 + Config.dramDelay s.draw)) (.pageWalkComplete id)) ∧
          (∀ x wr, s.tlbHit h a.space ea = some x → x.permits a.op.need = true → a.op = .probe wr → onChip ea = false →
            Next (exec .sliceRequest (On s (.sliceRequest id))) fun t => Comes t (s.now + s.legOf a ea) (.confirmation id))) ∧
        (∀ r, s.walk a.space ea = .fail r → Next (exec .pageWalkComplete (On s (.pageWalkComplete id))) fun t =>
          ∃ f : FaultRec, f.of_ = .access id ∧ f.who = a.who ∧ f.offset = ea ∧ f.space = a.space ∧ f.reason = r ∧
            Comes t (s.now + s.legOf a ea) (.translationFault f)) ∧
        (∀ x wr, s.walk a.space ea = .leaf x → x.permits a.op.need = true → a.op = .probe wr → onChip ea = false →
          Next (exec .pageWalkComplete (On s (.pageWalkComplete id))) fun t => x ∈ (t.home h).tlb ∧
            Comes t (s.now + s.legOf a ea) (.confirmation id)) ∧
        (∀ cl off, window ea = some (.pad cl off) → s.padBusy cl = false →
          (∀ d m, a.op = .write d m → Next (exec .remoteAccess (On s (.remoteAccess id))) fun t =>
            t.pad cl = (s.pad cl).write off d m ∧ Comes t (s.now + s.legOf a ea) (.accessReply id)) ∧
          (a.op = .read → (s.pad cl).poisoned off a.size = false → Next (exec .remoteAccess (On s (.remoteAccess id))) fun t =>
            (mget t.accs id).map (·.done) = some (a.done ++ rdBytes (s.pad cl).bytes off a.size) ∧ t.pads = s.pads ∧
            Comes t (s.now + s.legOf a ea) (.accessReply id))) ∧
        (Lives s w c b u → a.who = w → Single s id →
          (∀ wr, a.op = .probe wr → Next (exec .confirmation (On s (.confirmation id))) fun t => mget t.accs id = none ∧
            bank t = some (u.answer id (.value 0))) ∧
          (s.isUnacked w id = false → Next (exec .accessReply (On s (.accessReply id))) fun t => mget t.accs id = none ∧
            bank t = some (u.answer id (.value (ofBytes a.done)))) ∧
          (∀ f : FaultRec, f.of_ = .access id → f.who = w → f.core = c → u.fault = none →
            let fid := (s.core c).faultIds + 1
            Next (exec .translationFault (On s (.translationFault f))) fun t => FaultMail s t c f fid ∧
              bank t = some { u with fault := some (fid, f), st := .blocked .faultReply, since := s.now }))) ∧
      (s.locateAny a.who = some (c, b) → mget (s.core c).banks b = some u →
        Next (exec .cacheOpComplete (On s (.cacheOpComplete id))) fun t => mget t.accs id = none ∧
          bank t = some { u with cacheOps := u.cacheOps.filter (· != id) }) ∧
      (Next (exec .overflowRecall (On s (.overflowRecall id))) fun t => Comes t (s.now + 2 * 6) (.overflowRecallAnswer id) ∧
        ∀ e ∈ (t.core (coreId h 16)).overflow, e.1 ≠ key) ∧
      (let recalled (l : SLine) : SLine := if l.is false key.1 key.2.1 key.2.2 = true then { l with overflowed := false } else l;
        exec .overflowRecallAnswer (On s (.overflowRecallAnswer id)) = .next
          (((On s (.overflowRecallAnswer id)).modHome h fun x => { x with lines := x.lines.map recalled }).sliceRequest id)) ∧
      (∀ rd wr size, a.forWhom = .word n → isPeer a.space = true →
        (Next (exec .peerTranslationReply (On s (.peerTranslationReply id none rd wr size))) fun t =>
          let stop := leaseTime s.front.lease
          let page := ea - min ea (((s.spaceEntry a.space).2 + ea) % leafSize size)
          Comes t (s.now + stop) (.leaseExpiry h a.space page) ∧ ∃ x ∈ (t.home h).tlb, x.space = a.space ∧ x.page = page ∧
            (s.spaceEntry a.space).2 + x.page + x.size =
              ((s.spaceEntry a.space).2 + ea) / leafSize size * leafSize size + leafSize size ∧
            x.rd = rd ∧ x.wr = wr ∧ x.lease = some (s.meridianNow + stop)) ∧
        ∀ r, Next (exec .peerTranslationReply (On s (.peerTranslationReply id (some r) rd wr size))) fun t =>
          ∃ f : FaultRec, f.of_ = .access id ∧ f.who = a.who ∧ f.offset = ea ∧ f.reason = r ∧
            Comes t (s.now + s.legOf a ea) (.translationFault f))) ∧
    (∀ f y, (s.core c).faultOf c id = some (f, y) →
      (Next (exec .faultMessageResend (On s (.faultMessageResend c id))) fun t => FaultMail s t c f id ∧
        id ∉ (t.core c).keptFaults) ∧
      ((s.core c).seized = none → exec .faultReplyRetryLater (On s (.faultReplyRetryLater c id)) =
        .next ((On s (.faultReplyRetryLater c id)).modCore c fun k => k.takeReply id)) ∧
      (∀ k z, (s.core c).seized = none → y = some k → mget (s.core c).copies k = some z → (∀ reg, z.work ≠ .stream reg) →
        (Next (exec .faultReplyResume (On s (.faultReplyResume c id))) fun t => Comes t (s.now + 2) (.copySectorReply c k) ∧
          (mget (t.core c).copies k).map (fun z => (z.state, z.faultId, z.fault)) = some (0, 0, none)) ∧
        (Next (exec .faultReplyKill (On s (.faultReplyKill c id))) fun t => Comes t (s.now + 2) (.copyCompletion c k) ∧
          (mget (t.core c).copies k).map (fun z => (z.state, z.status, z.faultId)) = some (3, 1, 0)))) ∧
    ((∀ e ∈ (s.core (coreId c 16)).overflow, e.1 ≠ key) → (s.core (coreId c 16)).overflow.length < 2048 →
      Next (exec .overflowMessage (On s (.overflowMessage c key.1 key.2.1 key.2.2 n))) fun t =>
        (t.core (coreId c 16)).overflow = (s.core (coreId c 16)).overflow ++ [(key, [n])]) ∧
    (c < 32 → s.clusterIdle c = true → (s.home c).power = .awake → (s.home c).queues = [] → (s.home c).pools = [] → (s.home c).spilled = [] →
      (∀ l ∈ (s.home c).lines, l.overflowed = false) → Next (exec .sliceGate (On s (.sliceGate c))) fun t =>
        (t.home c).power = .gated ∧ (t.home c).lines = [] ∧ (t.home c).tlb = []) ∧
    ((s.home c).power = .gated → Next (exec .sliceWake (On s (.sliceWake c))) fun t => (t.home c).power = .waking ∧
      Comes t (s.now + 2 * 1200) (.sliceWakeComplete c)) ∧
    (Next (exec .sliceWakeComplete (On s (.sliceWakeComplete c))) fun t => (t.home c).power = .awake ∧ (t.home c).waking = [] ∧
      ∀ e ∈ (s.home c).waking, Comes t s.now e) ∧
    (∀ r : Shoot, ∀ p ∈ [(Instr.shootdownDataRange, Event.shootdownDataRange r), (.shootdownDataSpace, .shootdownDataSpace r),
        (.shootdownInstructionRange, .shootdownInstructionRange r), (.shootdownInstructionProgram, .shootdownInstructionProgram r),
        (.shootdownEverything, .shootdownEverything r)], Next (exec p.1 (On s p.2)) fun t =>
      t.front.rootQ = s.front.rootQ ++ [.shoot r] ∧ (s.front.rootQ = [] → t.front.rootWait = List.range 34 ∧
        ∀ k, k < 34 → Comes t (s.now + 2 * (2 * treeDepth k)) (.shootdownNode k))) ∧
    (∀ r l, s.front.rootQ = .shoot r :: l →
      (c < 32 → (s.home c).power = .awake → Next (exec .shootdownNode (On s (.shootdownNode c))) fun t =>
        t.front.rootWait = s.front.rootWait.filter (· != c) ∧ (s.front.rootWait = [c] → Comes t (s.now + 2 * 20) .shootdownCompletion) ∧
        (r.keep = true → (t.home c).tlb = (s.home c).tlb.filter fun x => !shootNamesData r x.space x.page x.size)) ∧
      Next (exec .shootdownCompletion (On s .shootdownCompletion)) fun t => t.front.rootQ = l ∧ ∃ m : Msg, m.dst = r.core ∧ m.mb = r.mb ∧
        m.body = BitVec.ofNat 256 (ofBytes (toBytes 4 r.seq ++ toBytes 4 s.front.skipped)) ∧
        Comes t (s.now + 2 * (6 + 2 * hops 3 (clusterOf r.core))) (.mailboxArrival m)) ∧
    (∀ q : RegionReq, mget s.front.regionReqs id = some q →
      let old := (mget (s.home 32).regions q.index).getD {}
      regionHeld old q.tenant = false → Next (exec .regionTableUpdate (On s (.regionTableUpdate 32 id))) fun t =>
        mget (t.home 32).regions q.index = some (updateRegion old q) ∧ mget t.front.regionReqs id = none ∧
        Comes t (s.now + 2 * (6 + hops (clusterOf q.core) 3)) (.homeControllerReply id none)) ∧
    (let asked (x : Option (Nat × MemOp)) (m : PeerMsg) : Prop :=
        Next (exec .peerTranslationRequest (On s (.peerTranslationRequest id c n x))) fun t => t.front.peerOut = s.front.peerOut ++ [m];
      (s.home (s.homeOf c n)).power = .awake →
      (isLocal c = true → spaceValid (s.spaceEntry c) = true →
        (∀ x, s.walk c n = .leaf x → asked none (.translation id none x.rd x.wr x.size s.front.peerLease)) ∧
        ∀ r, s.walk c n = .fail r → asked none (.translation id (some r) false false 0 s.front.peerLease)) ∧
      ∀ x, (∀ e ∈ s.front.lent, e.2 ≤ s.meridianNow) → asked (some x) (.accessReply id (some 0) [])) ∧
    Next (exec .leaseExpiry (On s (.leaseExpiry c id n))) fun t => ∀ x, x ∈ (t.home c).tlb ↔
      x ∈ (s.home c).tlb ∧ ¬(x.space = id ∧ x.page = n ∧ ∃ e, x.lease = some e ∧ e ≤ s.meridianNow)

/-- R181, R274, R278, R287, R288, R292, R312, R313: the engine moves a copy on by a sector, refills a stream, tries an element again,
invokes a landing handler, commits a publication, ends a fetch, and a completion reaches mailbox 0 of its thread.
That one sector follows the other after one core cycle and the completion after two is the model's choice (notes/assumptions/28.md). -/
def Obligations.CopyEnginesMoveOn : Prop :=
  ∀ (s : State) (c id : Nat) (y : Copy), c < 2 ^ 20 → mget (s.core c).copies id = some y →
    let copy (t : State) : Option Copy := mget (t.core c).copies id
    ((s.core c).engineRuns = true → y.state = 0 → y.busy = false → y.waitPair = none → s.pairOf c y.kind_ = none →
      (∀ src dst, y.work = .linear src dst → y.sectors < y.units → ∀ d v z,
        (On s (.copySectorReply c id)).engGather c y (y.reads y.sectors) = .ok (d, false, v) →
        v.engScatter c y (y.writes y.sectors d) = .ok z → v.pairOf c y.kind_ = none →
        Next (exec .copySectorReply (On s (.copySectorReply c id))) fun t => ∃ x, copy t = some x ∧ x.sectors = y.sectors + 1 ∧
          x.a = y.a + d.length ∧
          (y.sectors + 1 < y.units → x.state = 0 ∧ Comes t
            ((if y.stays c (y.sectors + 1) then z.now else max z.now (z.core c).egress) + 2) (.copySectorReply c id)) ∧
          (y.sectors + 1 = y.units → x.state = 2 ∧ Comes t (z.now + 4) (.copyCompletion c id))) ∧
      (∀ reg b u st d, y.work = .stream reg → (s.core c).streamBank y.who = some b → mget (s.core c).banks b = some u →
        u.stream? reg = some st → st.killed = false → st.write = false → st.strips.length < 4 →
        st.n < stripTotal st.image → (s.core c).seq = [] → (s.core c).vloop = none →
        (On s (.streamRefill c id)).engRead c y y.space 2 (stripOffset st.image st.n) 16 =
          .ok (d, false, On s (.streamRefill c id)) → Next (exec .streamRefill (On s (.streamRefill c id))) fun t =>
          ((mget (t.core c).banks b).bind fun u => u.stream? reg).map (fun x => (x.strips, x.n)) =
            some (st.strips ++ [BitVec.ofNat 128 (ofBytes d)], st.n + 1))) ∧
    (∀ src qcb elem d v, Awake s → (s.core c).engineRuns = true → y.state = 0 → y.work = .elements src qcb elem → y.sectors < y.length → v.pairOf c y.kind_ = none →
        ((On s (.cpyqRetry c id)).setCopy c id { y with busy := false }).engRead c { y with busy := false } y.space (sectorFuel elem)
          ((src + y.sectors * elem) % 2 ^ 64) elem = .ok (d, false, v) → Next (exec .cpyqRetry (On s (.cpyqRetry c id))) fun t =>
          ∃ o k, mget t.qops v.nextId = some o ∧ o.data = d ∧ o.copy = some id ∧ o.a = BitVec.ofNat 64 qcb ∧
            Comes t k (.homeControllerOperation v.nextId none)) ∧
    (∀ k off body rest src dst entry desc, (s.core c).landing = (id, k, off, body) :: rest → y.work = .handler src dst entry desc →
      mget (s.core c).banks 3 = none → mget (s.core c).running 3 = none → (s.core c).halted = false → (s.core c).seized = none →
      Next (exec .landingHandlerInvocation (On s (.landingHandlerInvocation c))) fun t => (t.core c).landing = rest ∧
        ∃ u, mget (t.core c).banks 3 = some u ∧ u.kind = .landing id ∧ u.pc.toNat = entry % 2 ^ 40 ∧
          u.getX 4 = BitVec.ofNat 64 (0xFF00 * 2 ^ 48 + k) ∧ u.getX 5 = BitVec.ofNat 64 off ∧ u.getX 6 = BitVec.ofNat 64 id ∧
          u.getX 11 = BitVec.ofNat 64 (0xFF00 * 2 ^ 48 + desc) ∧ u.getV 1 ++ u.getV 0 = body) ∧
    (∀ slot src b l, y.work = .publish slot src (some b) → y.state = 0 → y.waitPair = none → mget s.lxm slot = some l →
      l.mirrored = false → Next (exec .xmpubCommit (On s (.xmpubCommit c id))) fun t => ∃ m, mget t.lxm slot = some m ∧
        m.latest = some b ∧ m.last = l.last + 1 ∧ m.writing = none ∧ (m.buffer b).version = l.last + 1 ∧
        (m.buffer b).time = s.meridianNow ∧ (m.buffer b).complete = true ∧ (m.buffer b).data = (l.buffer b).data ∧
        (copy t).map (fun x => (x.state, x.a, x.b)) = some (2, (l.last + 1) % 2 ^ 32, s.meridianNow)) ∧
    (∀ slot dst time f l, y.work = .fetch slot dst time (some f) → mget s.lxm slot = some l →
      Next (exec .xmrdCompletion (On s (.xmrdCompletion c id))) fun t => Comes t (s.now + 4) (.copyCompletion c id) ∧
        ((mget t.lxm slot).map fun m => (m.buffer f).readers) = some ((l.buffer f).readers - 1) ∧
        (copy t).map (fun x => (x.state, x.a, x.b, x.c)) =
          some (2, (l.buffer f).version % 2 ^ 32, (l.buffer f).time, y.length)) ∧
    (∀ d b u, y.state = 2 → y.work = .refused → (s.core c).seized = none → (s.core c).landingOf id = false → Lives s y.who d b u →
      (∀ e ∈ (s.core d).banks, e.2.recvMask = none) → ((s.core d).box 0).length < 8 →
      Next (exec .copyCompletion (On s (.copyCompletion c id))) fun t => copy t = none ∧ (t.core d).box 0 = (s.core d).box 0 ++
        [entryOf y.entry y.status id y.a y.b (if y.entry = 3 then 0 else y.c)
          (({ prog := y.who.prog, serial := y.who.serial } : Thread).id b)])

/-- R34, R90, R203, R205, R311, R389, R412-R420, R425, R426, R428, R432: what the host writes and reads, the service of its packets, and
the commands, each with its completion. They are stated while every slice is awake: an event that needs a sleeping one waits (R166).
The model's choice: the places of the fields of a command's body (notes/assumptions/67.md); the statuses of the commands that the
rules give no status for (notes/assumptions/69.md); that a command is executed 16 core cycles after it has left its queue, and a held
packet's signal is read every 64 (notes/assumptions/70.md); what counts as a host error (notes/assumptions/71.md); who may create and
destroy tenants, and the number of a key (notes/assumptions/72.md). -/
def Obligations.HostAccessesAndCommandsTakeEffect : Prop :=
  ∀ (s : State) (k n : Nat) (p : Packet) (u : State), Awake s →
    let f (off size : Nat) : Nat := field p off size
    (s.hostUp = true →
      (∀ off d, (readOnlyAt off = true → exec .hostRegisterWrite (On s (.hostRegisterWrite off d)) =
          .next (On s (.hostRegisterWrite off d))) ∧
        (readOnlyAt off = false → Next (exec .hostRegisterWrite (On s (.hostRegisterWrite off d))) fun t =>
          Counted s t 578 ctrHostErr ∧ t.front = { s.front with aer := s.front.aer + 1 } ∧ t.dram = s.dram ∧ t.cores = s.cores)) ∧
      (∀ w q d v, mget s.front.windows k = some w →
        (On s (.hostQueueEnqueue k 0 d)).activate (s.placeOfWindow w).1 w.qcb (s.placeOfWindow w).2 = .ok (q, u) → q.elem = d.length →
        (u.putElem (s.placeOfWindow w).1 q d false = .ok (some v) → exec .hostQueueEnqueue (On s (.hostQueueEnqueue k 0 d)) = .next v) ∧
        (u.putElem (s.placeOfWindow w).1 q d false = .ok none → mget u.front.windows k = some w →
          Next (exec .hostQueueEnqueue (On s (.hostQueueEnqueue k 0 d))) fun t =>
            (mget t.front.windows k).map (·.drops) = some (min (w.drops + 1) 0xFFFF))) ∧
      (∀ off d, off ≠ 0 → Next (exec .hostQueueEnqueue (On s (.hostQueueEnqueue k off d))) fun t => Counted s t 578 ctrHostErr ∧
        t.homes = s.homes ∧ t.dram = s.dram) ∧
      (∀ off, off ≠ 0x800 → off ≠ 0xFF8 → Next (exec .hostQueueDequeue (On s (.hostQueueDequeue k off n))) fun t =>
        Counted s t 578 ctrHostErr ∧ t.front.hostRead = toBytes n 0 ∧ t.homes = s.homes ∧ t.dram = s.dram) ∧
      (∀ w q d v, mget s.front.windows k = some w →
        (On s (.hostQueueDequeue k 0x800 n)).activate (s.placeOfWindow w).1 w.qcb (s.placeOfWindow w).2 = .ok (q, u) → q.elem = n →
        (u.takeElem (s.placeOfWindow w).1 q = .ok (some (d, v)) →
          (q.multi = false ∨ v.front.mirroring = false → exec .hostQueueDequeue (On s (.hostQueueDequeue k 0x800 n)) =
            .next { v with front := { v.front with hostRead := d } }) ∧
          (q.multi = true → v.front.mirroring = true → v.front.active = true →
            exec .hostQueueDequeue (On s (.hostQueueDequeue k 0x800 n)) =
              .next { v with front := { v.front with hostHeld := v.front.hostHeld ++ [(v.front.mirrorSeq, d)] } })) ∧
        (u.takeElem (s.placeOfWindow w).1 q = .ok none → exec .hostQueueDequeue (On s (.hostQueueDequeue k 0x800 n)) =
          .next { u with front := { u.front with hostRead := List.replicate n 0xFF } })) ∧
      (∀ l b, mget s.lxm k = some l →
        (l.hostLatch = none → l.pick none = some b → l.reads < l.readers →
          Next (exec .hostSlotControlRead (On s (.hostSlotControlRead k))) fun t =>
            t.front.hostRead = slotControl (l.buffer b) 0 ∧ ∃ m, mget t.lxm k = some m ∧ m.hostLatch = some b ∧
              (m.buffer b).readers = (l.buffer b).readers + 1) ∧
        (∀ off d, off + d.length ≤ l.size → l.hostClaim = none → l.claim = some b →
          Next (exec .hostSlotDataWrite (On s (.hostSlotDataWrite k off d))) fun t => ∃ m, mget t.lxm k = some m ∧
            m.hostClaim = some b ∧ m.writing = some b ∧ (m.buffer b).complete = false ∧
            (m.buffer b).data = wrBlock (l.buffer b).data off d) ∧
        (∀ v : Word, l.hostClaim = some b → l.mirrored = false → Next (exec .hostSlotCommit (On s (.hostSlotCommit k v))) fun t =>
          ∃ m, mget t.lxm k = some m ∧ m.latest = some b ∧ m.last = l.last + 1 ∧ m.hostClaim = none ∧ m.writing = none ∧
            (m.buffer b).time = (if v = 0 then s.meridianNow else v.toNat) ∧ (m.buffer b).complete = true) ∧
        (l.hostLatch = some b → l.hostClaim = none → Next (exec .hostSlotRelease (On s (.hostSlotRelease k))) fun t =>
          ∃ m, mget t.lxm k = some m ∧ m.hostLatch = none ∧ (m.buffer b).readers = (l.buffer b).readers - 1)) ∧
      (∀ w off d, s.front.bar2 = none → Next (exec .hostBar2Access (On s (.hostBar2Access w off n d))) fun t =>
        Counted s t 578 ctrHostErr ∧ t.dram = s.dram) ∧
      (∀ b off d l, s.front.bar2 = some b →
        (off + d.length ≤ b.length → (On s (.hostBar2Access true off n d)).wrAny b.space b.tenant (b.offset + off) d = .got () u →
          exec .hostBar2Access (On s (.hostBar2Access true off n d)) = .next u) ∧
        (off + n ≤ b.length → (On s (.hostBar2Access false off n d)).rdAny b.space b.tenant (b.offset + off) n = .got l u →
          exec .hostBar2Access (On s (.hostBar2Access false off n d)) = .next { u with front := { u.front with hostRead := l } }))) ∧
    (s.front.boot = 5 →
      (∀ w e v, s.front.windows = [(k, w)] → s.servable k w = true → w.served < w.weight →
        (On s .commandDispatch).headOf k w = some (p, u) → (bit (f 1 1) 0 = false ∨ mget u.front.freed k = some p) → commandOf p = some e → u.dropHead w = some v →
        Next (exec .commandDispatch (On s .commandDispatch)) fun t => Comes t (v.now + 32) e ∧ p ∈ t.front.dequeued) ∧
      (∀ q w n x, mget s.front.held k = some q → mget s.front.windows k = some w →
        (On s (.packetSignalRelease k)).headOf k w = some (p, u) → u.signalValue p = some (n, x) →
        (signalHolds p n = true → Next (exec .packetSignalRelease (On s (.packetSignalRelease k))) fun t =>
          mget t.front.held k = none ∧ mget t.front.freed k = some p) ∧
        (signalHolds p n = false → Next (exec .packetSignalRelease (On s (.packetSignalRelease k))) fun t =>
          mget t.front.held k = some p ∧ Comes t (x.now + 128) (.packetSignalRelease k)))) ∧
    (∀ o, (On s (.load p)).rdAny (f 0x28 2) p.tenant (f 0x20 8) (f 0x30 8) = .got o u → objectOk o = true →
      exec .load (On s (.load p)) = .next (match u.loadObject o (f 0x28 2) p.tenant with
        | .ok (g, v) => v.completePkt p 0 g 0 0
        | .error c => u.completePkt p 5 0 c 0)) ∧
    (∀ g, mget s.front.progs (f 0x20 2) = some g → (p.tenant = 0 ∨ p.tenant = g.tenant) →
      let r := runOf p g s.front.orders
      (g.run ≠ none → exec .launch (On s (.launch p)) = .next ((On s (.launch p)).completePkt p 3 0 0 0)) ∧
      (g.run = none → launchOk p g = true → r.paired = false → r.planOk g = true →
        Next (exec .launch (On s (.launch p))) fun t => (mget t.front.progs (f 0x20 2)).map (·.run) = some (some r) ∧
          f 0x20 2 ∈ (if r.latency then t.front.latQueue else t.front.bulkQueue) ∧ Comes t s.now .admission)) ∧
    (∀ l e, (On s (.arm p)).rdAny (f 0x28 2) p.tenant (f 0x20 8) 64 = .got l u → ownObject p (some (rfTenant (ofBytes l))) = true →
      u.mayArm (ofBytes l) = true → u.freeEntry = some e →
      exec .arm (On s (.arm p)) = .next ((u.armEntry e (BitVec.ofNat 512 (ofBytes l)) false).completePkt p 0 e 0 0)) ∧
    (∀ i : Line, 0 < rfPeriod i.toNat → ∃ r, mget (s.armEntry k i false).front.reflex k = some r ∧ r.armed = true ∧
      s.meridianNow < r.first ∧ r.next = 0) ∧
    (∀ r, mget s.front.reflex (f 0x20 1) = some r → ownObject p (some (rfTenant r.n)) = true → exec .disarm (On s (.disarm p)) =
      .next (((On s (.disarm p)).disarmEntry (f 0x20 1)).completePkt p 0 0 0 0)) ∧
    ((On s (.signal p)).wrAny (f 0x28 2) p.tenant (f 0x20 8) (toBytes 8 (f 0x30 8)) = .got () u →
      exec .signal (On s (.signal p)) = .next (u.completePkt p 0 0 0 0)) ∧
    (mapqOk p = true → isLocal (f 0x30 2) = true → (p.tenant = 0 ∨ f 0x23 1 = p.tenant) → s.foreignSpace p (f 0x30 2) = false → mget s.front.windows (f 0x20 1) = none →
      ∃ w : Window, w.qcb = f 0x28 8 ∧ w.space = f 0x30 2 ∧ w.tenant = f 0x23 1 ∧ w.cmd = bit (f 0x21 1) 0 ∧
        w.latency = bit (f 0x21 1) 1 ∧ w.weight = f 0x22 1 ∧ exec .mapq (On s (.mapq p)) = .next (({ On s (.mapq p) with
          front := { s.front with windows := mset s.front.windows (f 0x20 1) w } } : State).completePkt p 0 0 0 0)) ∧
    (isLocal (f 0x28 2) = true → f 0x30 8 ≤ 2 ^ 37 → (p.tenant = 0 ∨ f 0x2A 1 = p.tenant ∧ ∀ b, s.front.bar2 = some b → b.tenant = p.tenant) →
      s.foreignSpace p (f 0x28 2) = false → exec .mapbar (On s (.mapbar p)) =
      .next (({ On s (.mapbar p) with front := { s.front with
        bar2 := some ⟨f 0x28 2, f 0x20 8, f 0x30 8, f 0x2A 1⟩ } } : State).completePkt p 0 0 0 0)) ∧
    (windowEntryOk (f 0x20 2) (f 0x28 8) (f 0x30 8) = true → p.tenant = 0 → ∃ v : State,
      exec .mapwin (On s (.mapwin p)) = .next (v.completePkt p 0 0 0 0) ∧
      ∀ h ∈ v.homes, ∀ x ∈ h.2.tlb, x.space ≠ f 0x20 2) ∧
    (∀ l g, mget s.lxm (f 0x20 2) = some l → mget s.front.progs (f 0x22 2) = some g → p.tenant = 0 → ∃ v : State,
      exec .grant (On s (.grant p)) = .next (v.completePkt p 0 0 0 0) ∧
      ∃ m, mget v.lxm (f 0x20 2) = some m ∧ f 0x22 2 ∈ m.granted ∧ m.mirrored = (l.mirrored || bit (f 0x24 1) 0)) ∧
    ((s.critMissed = true ∨ s.front.boot = 6 → exec .holdrel (On s (.holdrel p)) =
        .next ((On s (.holdrel p)).completePkt p 1 0 0 0)) ∧
      (s.critMissed = false → s.front.boot ≠ 6 → exec .holdrel (On s (.holdrel p)) = .next (({ On s (.holdrel p) with
        front := { s.front with hold := false, latched := 0 } } : State).completePkt p 0 0 0 0))) ∧
    (p.tenant = 0 → f 0x20 1 ≠ 0 →
      (mget s.front.tenants (f 0x20 1) = none → exec .tenantCreate (On s (.tenantCreate p)) = .next (({ On s (.tenantCreate p) with
        front := { s.front with
          keys := s.front.keys + 1, tenants := mset s.front.tenants (f 0x20 1) (s.front.keys + 1) } } : State).completePkt p 0 0 0 0)) ∧
      (mget s.front.tenants (f 0x20 1) ≠ none → f 0x21 1 = 1 → s.tenantRuns (f 0x20 1) = false →
        exec .tenantDestroy (On s (.tenantDestroy p)) = .next (({ On s (.tenantDestroy p) with
          front := { s.front with tenants := mdel s.front.tenants (f 0x20 1) } } : State).completePkt p 0 0 0 0))) ∧
    (∃ l : List Byte, l.length = 32 + 48 + 48 + 4 + 4 + 4 + 4 + 64 + 3309 ∧ l.take 32 = toBytes 32 (f 0x20 32) ∧
      exec .attest (On s (.attest p)) = .next (({ On s (.attest p) with
        front := { s.front with report := some (f 8 8, l) } } : State).completePkt p 0 0 0 0)) ∧
    (900 ≤ f 0x20 4 → f 0x20 4 ≤ 3000 → s.front.capBefore = none → exec .cap (On s (.cap p)) = .next (({ On s (.cap p) with
      front := { s.front with cap := f 0x20 4 } } : State).completePkt p 0 0 0 0)) ∧
    (f 0x20 1 < 64 → exec .msix (On s (.msix p)) = .next (({ On s (.msix p) with
      front := { s.front with msix := mset s.front.msix (f 0x22 2) (f 0x20 1) } } : State).completePkt p 0 0 0 0)) ∧
    (∀ w q v st a b c, p ∈ s.front.dequeued → mget s.front.windows (windowOf p) = some w →
      ({ s with front := { s.front with dequeued := s.front.dequeued.erase p } } : State).activate (s.placeOfWindow w).1 w.qcb (s.placeOfWindow w).2 = .ok (q, u) →
      q.elem = 32 → u.putElem (s.placeOfWindow w).1 q (completion (opcodeOf p) st (seqOf p) a b c) false = .ok (some v) →
      s.completePkt p st a b c = v.tryRebind p.window)

/-- R78, R155, R235, R236, R389, R404-R409, R413, R421-R424, R427-R429: debug, boot and its tables, updates, recovery and checkpoints, power, resets,
time, and the heartbeat and mirroring of a pair of modules. A clause on an event that may need a slice holds while every slice is awake
(R166).
The model's choice: the times of the stages of BOOT (notes/assumptions/10.md) and what a configuration blob sets (notes/assumptions/59.md);
the number of an image and the watch on it (notes/assumptions/73.md); the 20 ms of a recovery, what it withdraws, and a snapshot that adds
up (notes/assumptions/74.md); the 10 us after which an acknowledgement is missing, and the rule by which a module is active
(notes/assumptions/77.md). -/
def Obligations.FirmwareEventsTakeEffect : Prop :=
  ∀ (s : State) (p : Packet) (c n : Nat),
    ((s.front.boot = 0 → s.front.pins.released = true → Next (exec .boot (On s .boot)) fun t => t.front.boot = 1 ∧
        t.front.booted = true ∧ Comes t (s.now + 200000) .boot) ∧
      (s.front.boot = 1 → Next (exec .boot (On s .boot)) fun t => t.front.boot = 2 ∧ Comes t (s.now + 1000000) .boot) ∧
      (s.front.boot = 2 → Next (exec .boot (On s .boot)) fun t =>
        (∀ k, s.bootChoice = .ok k → t.front.boot = 3 ∧ t.front.bootSlot = k ∧ mget t.front.images 0 = some (s.flashOf k) ∧
          t.front.measure = measureOf (s.flashOf k) ∧ Comes t (s.now + 37000000) .boot) ∧
        ∀ e, s.bootChoice = .error e → t.front.boot = e ∧ t.agenda = s.agenda) ∧
      (s.front.boot = 3 → Next (exec .boot (On s .boot)) fun t => t.front.boot = 4 ∧ Comes t (s.now + 2000000) .boot) ∧
      (s.front.boot = 4 →
        let i := (mget s.front.images 0).getD 0
        Next (exec .boot (On s .boot)) fun t =>
          if Config.signed (Config.imageBlob i) = true ∧ Config.signed (Config.tableImage i) = true ∧ Config.blobTable i = Config.imageTable i
          then t.front.boot = 5 ∧ t.reflexStore = bootStore i ∧ t.front.windows = bootWindows i ∧
            (t.core 0).banks = [] ∧ (t.core 0).table = Config.imageTable i ∧ t.front.standby = Config.blobStandby i ∧
            Comes t (s.now + 32) .commandDispatch ∧ Comes t (s.now + 1000000) .firmwareCheckpoint
          else t = On s .boot)) ∧
    (∀ i, isCompute c = true → isCore c = true → s.isFree c 0 = true →
      Next (exec .decodeTableLoad (On s (.decodeTableLoad c n i))) fun t =>
        (t.core c).table = if Config.signed i = true then n else (s.core c).table) ∧
    (∀ l v, Awake s → s.front.update = none → (updateQueues p).any (s.foreignWindow p) = false →
      (On s (.update p)).rdAny (field p 0x28 2) p.tenant (field p 0x20 8) (field p 0x30 8) = .got l v →
      Next (exec .update (On s (.update p))) fun t =>
        if Config.signed (ofBytes l) = true ∧ v.front.counter ≤ Config.securityVersion (ofBytes l)
        then (t.front.update.map (·.image)) = some (ofBytes l) ∧ mget t.front.images 2 = some (ofBytes l) ∧
          Comes t (v.now + 10000000000) .updateCommit
        else t = v.completePkt p stInvalid 0 0 0) ∧
    (∀ u, Awake s → s.front.update = some u →
      (firstFailing u.counts = none → exec .updateCommit (On s .updateCommit) = .next (({ On s .updateCommit with front := { s.front with
        flash := mset s.front.flash (1 - s.front.bootSlot) u.image, counter := Config.securityVersion u.image
        images := mdel (mset s.front.images 1 u.image) 2, update := none } } : State).completePkt u.packet 0 0 0 0)) ∧
      (∀ k, firstFailing u.counts = some k → ∃ v : State, exec .updateRevert (On s .updateRevert) = .next (v.completePkt u.packet 1 0 k 0) ∧
        v.front.update = none ∧ v.front.flash = s.front.flash ∧ ∀ e ∈ v.agenda, e.2 ≠ .updateCommit)) ∧
    (s.front.boot = 5 →
      (Awake s → s.front.dequeued = [] → Next (exec .recovery (On s .recovery)) fun t => t.front.hold = true ∧ t.front.boot = 6 ∧
        (∀ k ∈ [coreId 62 0, coreId 62 1], (t.core k).banks = [] ∧ (t.core k).seq = [] ∧ (t.core k).halted = false) ∧
        t.front.latQueue = [] ∧ t.front.bulkQueue = [] ∧ Comes t (s.now + 20000000) .recoveryEnd ∧ ∀ e ∈ t.agenda, isCommand e.2 = false) ∧
      Next (exec .firmwareCheckpoint (On s .firmwareCheckpoint)) fun t => t.front.checkpoint = some s.now ∧
        Comes t (s.now + 1000000) .firmwareCheckpoint) ∧
    (s.front.boot = 6 → Next (exec .recoveryEnd (On s .recoveryEnd)) fun t => t.front.boot = 5 ∧ Comes t (s.now + 32) .commandDispatch) ∧
    (Next (exec .counterSnapshot (On s .counterSnapshot)) fun t => t.snapshot = addCounts s.snapshot s.counters ∧ t.counters = [] ∧
      Comes t (s.now + ((s.meridianNow / 1000000 + 1) * 1000000 - s.meridianNow)) .counterSnapshot) ∧
    (Next (exec .powerCapCheck (On s .powerCapCheck)) fun t => t.front.throttled = decide (s.front.cap < t.front.pwr.toNat) ∧
      Comes t (s.now + 100000) .powerCapCheck) ∧
    (Next (exec .thermAlert (On s .thermAlert)) fun t => t.front.pins.thermAlertN = false ∧
      (s.front.capBefore = none → t.front.cap = 900 ∧ t.front.capBefore = some s.front.cap)) ∧
    (Next (exec .thermAlertClear (On s .thermAlertClear)) fun t => t.front.pins.thermAlertN = true ∧ t.front.capBefore = none ∧
      ∀ k, s.front.capBefore = some k → t.front.cap = k) ∧
    (∀ low, Next (exec .perstN (On s (.perstN low))) fun t => t.front.pins.perstN = !low ∧ t.dram = s.dram ∧ t.cores = s.cores ∧
      (low = true → t.front.raised = [])) ∧
    (∀ power, Next (exec .moduleReset (On s (.moduleReset power true))) fun t => t.cores = [] ∧ t.dram = [] ∧ t.homes = [] ∧ t.lxm = [] ∧
      t.counters = [] ∧ t.front.progs = [] ∧ t.front.boot = 0 ∧ t.front.hold = true ∧ t.front.epoch = s.front.epoch ∧
      t.front.counter = s.front.counter ∧ t.front.flash = s.front.flash ∧ t.cycle = 0) ∧
    (Next (exec .moduleReset (On s (.moduleReset false false))) fun t => t.front.pins.modRstN = true ∧ t.cores = s.cores) ∧
    (Next (exec .moduleReset (On s (.moduleReset true false))) fun t => t.front.pins.pwrGood = true ∧ t.cores = s.cores) ∧
    (Next (exec .ptmSynchronisation (On s (.ptmSynchronisation n))) fun t => t.slew = (n : Int) - s.meridianNow ∧
      t.meridianNow = s.meridianNow) ∧
    (∀ role epoch, Awake s → Next (exec .xegarLinkUp (On s (.xegarLinkUp true n role epoch))) (fun t => t.front.linkUp = true ∧
        t.front.peerLease = n ∧ (epoch < s.front.epoch → t.front.active = true ∧ t.front.spare = false) ∧
        (s.front.epoch < epoch → t.front.active = false ∧ t.front.spare = true ∧ ∀ r ∈ t.front.reflex, r.2.shadow = true)) ∧
      Next (exec .xegarLinkUp (On s (.xegarLinkUp false n role epoch))) fun t => t.front.linkUp = false ∧ Comes t s.now .peerUnreachable) ∧
    (s.front.active = true → s.front.linkUp = true → Next (exec .heartbeatSend (On s .heartbeatSend)) fun t =>
      t.front.peerOut = s.front.peerOut ++ [.heartbeat (s.front.beatSeq + 1) s.front.epoch s.meridianNow s.front.mirrorSeq] ∧
      t.front.beatSeq = s.front.beatSeq + 1 ∧ t.front.ackDue = s.front.mirroring ∧ Comes t (s.now + 10000) .heartbeatAckMiss ∧
      Comes t (s.now + ((s.meridianNow / 100000 + 1) * 100000 - s.meridianNow)) .heartbeatSend) ∧
    (∀ time last, s.front.spare = true → (∀ b, s.front.lastBeat = some b → b.1 < n) → last ≤ s.front.mirrorSeq →
      Next (exec .heartbeatReceive (On s (.heartbeatReceive n s.front.epoch time last true))) fun t =>
        t.front.lastBeat = some (n, s.meridianNow) ∧ t.front.beatMisses = 0 ∧ t.front.peerOut = s.front.peerOut ++ [.heartbeatAck n]) ∧
    (Awake s → s.front.spare = true → Next (exec .heartbeatMiss (On s .heartbeatMiss)) fun t =>
      t.front.beatMisses = s.front.beatMisses + 1 ∧ (s.front.beatMisses = 2 → t.front.epoch = s.front.epoch + 1 ∧
        t.front.active = true ∧ t.front.spare = false)) ∧
    (s.front.active = true → s.front.ackDue = true → Next (exec .heartbeatAckMiss (On s .heartbeatAckMiss)) fun t =>
      t.front.ackMisses = s.front.ackMisses + 1 ∧ t.front.ackDue = false ∧ (s.front.ackMisses = 2 → t.front.isolated = true)) ∧
    (Next (exec .heartbeatAcknowledgement (On s (.heartbeatAcknowledgement s.front.beatSeq))) fun t => t.front.ackDue = false ∧
      t.front.ackMisses = 0) ∧
    (Next (exec .mirrorAcknowledgement (On s (.mirrorAcknowledgement n))) fun t => (∀ e ∈ t.front.mirrorWait, n < e.1) ∧
      ∀ e ∈ s.front.mirrorWait, e.1 ≤ n → Comes t (s.now + 2) e.2) ∧
    (∀ epoch k v time d l b, Awake s → s.front.spare = true → s.front.epoch ≤ epoch → mget s.lxm k = some l → l.forMirror = some b →
      l.last ≤ v →
      Next (exec .mirrorUpdate (On s (.mirrorUpdate n epoch (.publication k v time d)))) fun t => t.front.mirrorSeq = max s.front.mirrorSeq n ∧
        ∃ m, mget t.lxm k = some m ∧ m.latest = some b ∧ m.last = v ∧ (m.buffer b).version = v ∧ (m.buffer b).time = time ∧
          (m.buffer b).data = wrBlock [] 0 d ∧ (m.buffer b).epoch = epoch) ∧
    (isCore c = true → Next (exec .debugHalt (On s (.debugHalt c))) fun t => (t.core c).halted = true ∧ (t.core c).stepSlot = none ∧
      (t.core c).banks = (s.core c).banks ∧ (t.core c).tcm = (s.core c).tcm) ∧
    (isCore c = true → Next (exec .debugResume (On s (.debugResume c))) fun t => (t.core c).halted = false ∧ (t.core c).quiesce = false ∧
      (t.core c).banks = (s.core c).banks) ∧
    (∀ u, (s.core c).halted = true → mget (s.core c).banks ((s.core c).bankOfSlot n) = some u → u.st = .ready →
      Next (exec .debugStep (On s (.debugStep c n))) fun t => (t.core c).stepSlot = some n ∧ (t.core c).halted = true) ∧
    (Next (exec .debugQuiesce (On s (.debugQuiesce c))) fun t => (t.core c).quiesce = true ∧ (t.core c).halted = (s.core c).halted) ∧
    (∀ r mb off, isCore r = true →
      let reply (t : State) : Prop := ∃ m : Msg, m.dst = r ∧ m.mb = mb ∧
        m.body = BitVec.ofNat 256 (ofBytes (toBytes 32 ((s.core c).debugStatus s.now))) ∧
        Comes t ((if isCore c then max s.now (s.core c).egress else s.now) + 2 * (6 + 2 * hops (clusterOf c) (clusterOf r)))
          (.mailboxArrival m)
      Next (exec .debugStatus (On s (.debugStatus c r mb))) reply ∧
      ((s.core c).halted = true → (s.core c).inWord = false → s.padBusy (clusterOf c) = false →
        Next (exec .debugDump (On s (.debugDump c off r mb))) reply ∧
        ∀ img, img = contextHead (s.core c) 0 (fun t => ((s.ticketOf t.who).map (·.2)).getD 0) → isFront c = false →
          off + img.length ≤ 0x200000 → Next (exec .debugDump (On s (.debugDump c off r mb))) fun t =>
            (t.pad (clusterOf c)).bytes = wrBlock (s.pad (clusterOf c)).bytes off img))

/-! ### Steps, encodings and reset (R6, R53-R72, R225, R355, R389, R422) -/

/-- The thread of bank `b` of core `c` as it issues the bundle at its pc. -/
def Sys2Proof.Claims.Entered (s : State) (c b : Nat) : State :=
  let e := s.enter c b
  { e with bundle := bundleOf e.src.pc, th := { e.th with pend := e.th.pend.filter (·.word != 2) } }

/-- A step around a word's own effect: the issue cycle is booked, the thread goes back among the cores, the vector words that its
core has queued run as far as they can, and what every step ends with follows (`afterStep`: R233, R427). -/
def Sys2Proof.Claims.Ended (s : State) (c b : Nat) (o : Answer) : Answer :=
  afterStep s (match o with
    | .next t => .next ((t.booked (s.enter c b)).store.drain c)
    | o => o)

/-- R53-R57, R59: a step takes the event that is due; with none due and none raised, the chosen thread issues the bundle at its
pc. When the bits at hand decode to an instruction whose guard holds, the step is `exec` of that instruction; a word whose guard
fails only steps past itself; the two words of a parallel bundle act as one unit.
That one step takes one event or issues one bundle or word, in this order, is the model's choice (notes/assumptions/2.md). -/
def Obligations.AStepRunsTheDecodedInstruction : Prop :=
  (∀ (s t : State) (ev : Event), s.due = some (ev, t) → step s = afterStep s (exec ev.step { t with event := ev })) ∧
  (∀ (s : State) (ev : Event), s.due = none → s.trigger = some ev → step s = afterStep s (exec ev.step { s with event := ev })) ∧
  (∀ (s : State) (c b : Nat) (w : BitVec 64), s.due = none → s.trigger = none → s.chooseIssue = some (c, b) →
    let q := Entered s c b
    let w0 := w.extractLsb' 0 32
    let w1 := w.extractLsb' 32 32
    let runs (f : Form) (v lit : BitVec 32) : Prop :=
      let p : State := { q with form := f, raw := v }
      ∀ i, skipped v = false → decodeWord q.cid f v lit = .ok i →
        (p.guardHolds v = true → p.unready i = false → step s = Ended s c b (exec i p)) ∧
        (p.guardHolds v = true → p.unready i = true → 
          step s = Ended s c b (.next { p with stat := .held, th := { p.th with notBefore := p.cycle + 1 } })) ∧
        (p.guardHolds v = false → isBodyOp (opOf v) = false → step s = Ended s c b (.next (stepsPast p)))
    ({ s.enter c b with bundle := q.bundle } : State).lateTrap = none → q.bundleHere = some w →
      (q.src.pc.toNat % 8 = 0 → opOf w0 = 7 → runs .wide w0 w1) ∧
      (q.src.pc.toNat % 8 = 0 → opOf w0 ≠ 7 → w0.getLsbD 31 = true → runs .ser0 w0 0) ∧
      (q.src.pc.toNat % 8 = 4 → opOf w0 ≠ 7 → w0.getLsbD 31 = true → runs .ser1 w1 0) ∧
      (∀ i j, q.src.pc.toNat % 8 = 0 → opOf w0 ≠ 7 → w0.getLsbD 31 = false → skipped w0 = false → skipped w1 = false →
        decodeWord q.cid .par0 w0 0 = .ok i → decodeWord q.cid .par1 w1 0 = .ok j → conflict i j = false →
        step s = Ended s c b (runPair (fun t => runWord exec t .par0 w0 i) (fun t => runWord exec t .par1 w1 j) q)))

/-- R53, R60, R61, R66: words written out from the encoding tables decode to the instructions they stand for. -/
def Obligations.WrittenWordsDecode : Prop :=
  decodeTableWord 32 0x80150003 = some (.beq 5 0 3) ∧
  decodeTableWord 32 0x80500400 = some (.jr 1 0) ∧
  decodeTableWord 32 0x80828F00 = some (.ld64 5 3 0) ∧
  decodeTableWord 32 0x80A29960 = some (.lda64 5 6 3) ∧
  decodeTableWord 32 0x81301C05 = some (.cinvRc 7) ∧
  decodeTableWord 32 0x819194C1 = some (.sendAck 3 5 6) ∧
  decodeTableWord 32 0x814214C0 = some (.enq 4 5 6) ∧
  decodeTableWord 32 0x821214C0 = some (.stake 4 5 6) ∧
  decodeTableWord 32 0x84118C08 = some (.addi 3 3 8) ∧
  decodeTableWord 32 0x042310A6 = some (.remu 6 4 5) ∧
  decodeTableWord 32 0x8511D103 = some (.vfma 3 20 8) ∧
  decodeTableWord 32 0x86214030 = some (.mma 5 3) ∧
  decodeTableWord 64 0x000003E800748000 = some (.liw 9 1000) ∧
  decodeTableWord 32 0x82800000 = none

/-- Words as one number, 32 bits each, the first lowest. -/
def Sys2Proof.Claims.asNumber : List (BitVec 32) → Nat
  | [] => 0
  | w :: l => w.toNat + 2 ^ 32 * asNumber l

/-- R53, R60-R68: the words of every well-formed instruction, with any S bit and any guard but !p0 (R59), decode to that
instruction, whatever its operands.
R68: what the decoder accepts is well-formed; the reserved primary opcodes are refused as ILLEGAL_OPCODE. -/
def Obligations.EncodeDecodeRoundTrip : Prop :=
  (∀ (i : Instr) (s : BitVec 1) (g : BitVec 4), i.wf = true → g ≠ 8 →
    decodeTableWord (32 * (encode i s g).length) (asNumber (encode i s g)) = some i) ∧
  (∀ (w : BitVec 27) (lit : BitVec 32) (i : Instr), decodeCode w lit = .ok i → i.wf = true) ∧
  (∀ (w : BitVec 27) (lit : BitVec 32), let op := (w.extractLsb' 20 7).toNat;
    (0x28 ≤ op ∧ op ≤ 0x3F) ∨ (0x4C ≤ op ∧ op ≤ 0x4F) ∨ (0x5A ≤ op ∧ op ≤ 0x5F) ∨ 0x67 ≤ op →
    decodeCode w lit = .error .illegalOpcode)

/-- Chapter 95: every step of the module has an effect or lets time pass; none faults and none is refused (`Safe`). -/
def Obligations.EveryStepAnswersANextState : Prop :=
  (∀ (i : Instr) (s : State), Safe (exec i s)) ∧ ∀ s : State, Safe (step s)

/-- A core's memories are in canonical form: addresses rising, and no entry that reads as an unlisted address does. -/
def Sys2Proof.Claims.CanonicalCore (k : Core) : Prop := Memory.wf k.tcm.bytes = true ∧ Memory.wf k.tiles = true

/-- Every memory of the module is: DRAM, reflex store, scratchpads, and the TCM and tile accumulators of every core, of the context that
issues and of every Saved context. -/
structure Sys2Proof.Claims.Canonical (s : State) : Prop where
  dram : Memory.wf s.dram = true
  store : Memory.wf s.reflexStore.bytes = true
  pads : ∀ p ∈ s.pads, Memory.wf p.2.bytes = true
  issuing : CanonicalCore s.co
  cores : ∀ c ∈ s.cores, CanonicalCore c.2
  contexts : ∀ x ∈ s.contexts, CanonicalCore x.2.core

/-- R65, R158: every step, of a word, an event or time, keeps every memory in its canonical form, so that equal memories stay equal
data; and no write of x0 or p0 changes a thread, whose x0 reads 0 and whose p0 reads 1. -/
def Obligations.EveryStepKeepsTheMemoriesCanonical : Prop :=
  (∀ s t : State, Canonical s → step s = .next t → Canonical t) ∧
  ∀ (u : Thread) (w : Word) (b : Bool), u.getX 0 = 0 ∧ u.getP 0 = true ∧ u.setX 0 w = u ∧ u.setP 0 b = u

/-- R18, R37, R65, R72, R73, R225, R352, R355, R389, R413, R422: the values that the spec gives for reset, and a memory in its canonical
form. -/
def Obligations.ResetState : Prop :=
  let s := State.reset
  Canonical s ∧
  s.front.hold = true ∧ s.front.latched = 0 ∧ s.front.boot = 0 ∧ s.front.bootSlot = 0 ∧ s.front.active = false ∧
    s.front.isolated = false ∧ s.front.pwr = 0 ∧ s.cycle = 0 ∧ s.front.reflex = [] ∧ s.front.progs = [] ∧ s.front.windows = [] ∧
  (∀ a, rd8 s.reflexStore.bytes a = 0) ∧
  (∀ c, (s.core c).banks = [] ∧ (s.core c).mconf = 0x03000000 ∧ (s.core c).linkcfg = 0 ∧ (s.core c).mail = [] ∧
    (s.core c).slots = [] ∧ (s.core c).landA = none ∧ (s.core c).landB = none ∧ (s.core c).headers = [] ∧ (s.core c).seq = [] ∧
    ∀ a, rd8 (s.core c).tcm.bytes a = 0 ∧ rd8 (s.core c).tiles a = 0) ∧
  (∀ h, (s.home h).lines = [] ∧ (s.home h).queues = [] ∧ (s.home h).pools = [] ∧ (s.home h).regions = []) ∧
  (let t : Thread := {};
    t.pw = 1 ∧ t.space = 0 ∧ t.farsp = 0 ∧ t.vconf = 0 ∧ t.trap0 = {} ∧ t.trap1 = {} ∧ t.planbase = 0 ∧ t.gangid = 0 ∧
    t.streams = [] ∧ t.getX 0 = 0 ∧ t.getP 0 = true) ∧
  (let b : TrapBank := {};
    b.held = false ∧ b.level = .task ∧ b.pwsave = 0 ∧ b.cause = 0 ∧ b.tval = 0 ∧ b.tepc = 0 ∧ b.tvec = 0 ∧ b.scratch = 0)
end

