-- ==== Sys2Proof/Laws/Fields.lean ====
section
/-! SUPPORT. Fields of a concatenation, and the fields of each instruction layout of R60-R66 read back from its 27-bit code. -/

namespace Sys2Proof.Laws

/-- A field of the low part of a concatenation. -/
theorem extract_low {m n : Nat} (x : BitVec m) (y : BitVec n) (lo k : Nat) (h : lo + k ≤ n) :
    BitVec.extractLsb' lo k (x ++ y) = y.extractLsb' lo k := BitVec.extractLsb'_append_eq_of_add_le h

/-- A field of the high part. -/
theorem extract_high {m n : Nat} (x : BitVec m) (y : BitVec n) (lo k : Nat) (h : n ≤ lo) :
    BitVec.extractLsb' lo k (x ++ y) = x.extractLsb' (lo - n) k := BitVec.extractLsb'_append_eq_of_le h

/-- The field that is all of a vector. -/
theorem extract_all {n : Nat} (x : BitVec n) (lo : Nat) (h : lo = 0) : x.extractLsb' lo n = x :=
  h ▸ BitVec.extractLsb'_eq_self

/-- A field of a field. -/
theorem extract_extract {n : Nat} (c : BitVec n) (lo k lo' k' : Nat) (h : lo' + k' ≤ k) :
    (c.extractLsb' lo k).extractLsb' lo' k' = c.extractLsb' (lo + lo') k' := by
  ext i hi
  have : lo' + i < k := by omega
  simp [this, Nat.add_assoc]

theorem fields_7_4_4_3_9 {c : BitVec 27} (a0 : BitVec 7) (a1 : BitVec 4) (a2 : BitVec 4) (a3 : BitVec 3) (a4 : BitVec 9)
    (h : c = a0 ++ a1 ++ a2 ++ a3 ++ a4) :
    c.extractLsb' 20 7 = a0 ∧ (c.extractLsb' 0 20).extractLsb' 16 4 = a1 ∧ (c.extractLsb' 0 20).extractLsb' 12 4 = a2 ∧ (c.extractLsb' 0 20).extractLsb' 9 3 = a3 ∧ (c.extractLsb' 0 20).extractLsb' 0 9 = a4 := by
  subst h
  exact (by simp (disch := decide) only [extract_extract, extract_low, extract_high, extract_all, and_self] :
    let c := a0 ++ a1 ++ a2 ++ a3 ++ a4
    c.extractLsb' 20 7 = a0 ∧ (c.extractLsb' 0 20).extractLsb' 16 4 = a1 ∧ (c.extractLsb' 0 20).extractLsb' 12 4 = a2 ∧ (c.extractLsb' 0 20).extractLsb' 9 3 = a3 ∧ (c.extractLsb' 0 20).extractLsb' 0 9 = a4)

theorem fields_7_20 {c : BitVec 27} (a0 : BitVec 7) (a1 : BitVec 20)
    (h : c = a0 ++ a1) :
    c.extractLsb' 20 7 = a0 ∧ (c.extractLsb' 0 20).extractLsb' 0 20 = a1 := by
  subst h
  exact (by simp (disch := decide) only [extract_extract, extract_low, extract_high, extract_all, and_self] :
    let c := a0 ++ a1
    c.extractLsb' 20 7 = a0 ∧ (c.extractLsb' 0 20).extractLsb' 0 20 = a1)

theorem fields_7_5_5_3_7 {c : BitVec 27} (a0 : BitVec 7) (a1 : BitVec 5) (a2 : BitVec 5) (a3 : BitVec 3) (a4 : BitVec 7)
    (h : c = a0 ++ a1 ++ a2 ++ a3 ++ a4) :
    c.extractLsb' 20 7 = a0 ∧ (c.extractLsb' 0 20).extractLsb' 15 5 = a1 ∧ (c.extractLsb' 0 20).extractLsb' 10 5 = a2 ∧ (c.extractLsb' 0 20).extractLsb' 7 3 = a3 ∧ (c.extractLsb' 0 20).extractLsb' 0 7 = a4 := by
  subst h
  exact (by simp (disch := decide) only [extract_extract, extract_low, extract_high, extract_all, and_self] :
    let c := a0 ++ a1 ++ a2 ++ a3 ++ a4
    c.extractLsb' 20 7 = a0 ∧ (c.extractLsb' 0 20).extractLsb' 15 5 = a1 ∧ (c.extractLsb' 0 20).extractLsb' 10 5 = a2 ∧ (c.extractLsb' 0 20).extractLsb' 7 3 = a3 ∧ (c.extractLsb' 0 20).extractLsb' 0 7 = a4)

theorem fields_7_5_1_14 {c : BitVec 27} (a0 : BitVec 7) (a1 : BitVec 5) (a2 : BitVec 1) (a3 : BitVec 14)
    (h : c = a0 ++ a1 ++ a2 ++ a3) :
    c.extractLsb' 20 7 = a0 ∧ (c.extractLsb' 0 20).extractLsb' 15 5 = a1 ∧ (c.extractLsb' 0 20).extractLsb' 14 1 = a2 ∧ (c.extractLsb' 0 20).extractLsb' 0 14 = a3 := by
  subst h
  exact (by simp (disch := decide) only [extract_extract, extract_low, extract_high, extract_all, and_self] :
    let c := a0 ++ a1 ++ a2 ++ a3
    c.extractLsb' 20 7 = a0 ∧ (c.extractLsb' 0 20).extractLsb' 15 5 = a1 ∧ (c.extractLsb' 0 20).extractLsb' 14 1 = a2 ∧ (c.extractLsb' 0 20).extractLsb' 0 14 = a3)

theorem fields_7_5_5_2_3_5 {c : BitVec 27} (a0 : BitVec 7) (a1 : BitVec 5) (a2 : BitVec 5) (a3 : BitVec 2) (a4 : BitVec 3) (a5 : BitVec 5)
    (h : c = a0 ++ a1 ++ a2 ++ a3 ++ a4 ++ a5) :
    c.extractLsb' 20 7 = a0 ∧ (c.extractLsb' 0 20).extractLsb' 15 5 = a1 ∧ (c.extractLsb' 0 20).extractLsb' 10 5 = a2 ∧ (c.extractLsb' 0 20).extractLsb' 8 2 = a3 ∧ (c.extractLsb' 0 20).extractLsb' 5 3 = a4 ∧ (c.extractLsb' 0 20).extractLsb' 0 5 = a5 := by
  subst h
  exact (by simp (disch := decide) only [extract_extract, extract_low, extract_high, extract_all, and_self] :
    let c := a0 ++ a1 ++ a2 ++ a3 ++ a4 ++ a5
    c.extractLsb' 20 7 = a0 ∧ (c.extractLsb' 0 20).extractLsb' 15 5 = a1 ∧ (c.extractLsb' 0 20).extractLsb' 10 5 = a2 ∧ (c.extractLsb' 0 20).extractLsb' 8 2 = a3 ∧ (c.extractLsb' 0 20).extractLsb' 5 3 = a4 ∧ (c.extractLsb' 0 20).extractLsb' 0 5 = a5)

theorem fields_7_5_5_3_5_2 {c : BitVec 27} (a0 : BitVec 7) (a1 : BitVec 5) (a2 : BitVec 5) (a3 : BitVec 3) (a4 : BitVec 5) (a5 : BitVec 2)
    (h : c = a0 ++ a1 ++ a2 ++ a3 ++ a4 ++ a5) :
    c.extractLsb' 20 7 = a0 ∧ (c.extractLsb' 0 20).extractLsb' 15 5 = a1 ∧ (c.extractLsb' 0 20).extractLsb' 10 5 = a2 ∧ (c.extractLsb' 0 20).extractLsb' 7 3 = a3 ∧ (c.extractLsb' 0 20).extractLsb' 2 5 = a4 ∧ (c.extractLsb' 0 20).extractLsb' 0 2 = a5 := by
  subst h
  exact (by simp (disch := decide) only [extract_extract, extract_low, extract_high, extract_all, and_self] :
    let c := a0 ++ a1 ++ a2 ++ a3 ++ a4 ++ a5
    c.extractLsb' 20 7 = a0 ∧ (c.extractLsb' 0 20).extractLsb' 15 5 = a1 ∧ (c.extractLsb' 0 20).extractLsb' 10 5 = a2 ∧ (c.extractLsb' 0 20).extractLsb' 7 3 = a3 ∧ (c.extractLsb' 0 20).extractLsb' 2 5 = a4 ∧ (c.extractLsb' 0 20).extractLsb' 0 2 = a5)

theorem fields_7_5_5_4_1_2_3 {c : BitVec 27} (a0 : BitVec 7) (a1 : BitVec 5) (a2 : BitVec 5) (a3 : BitVec 4) (a4 : BitVec 1) (a5 : BitVec 2) (a6 : BitVec 3)
    (h : c = a0 ++ a1 ++ a2 ++ a3 ++ a4 ++ a5 ++ a6) :
    c.extractLsb' 20 7 = a0 ∧ (c.extractLsb' 0 20).extractLsb' 15 5 = a1 ∧ (c.extractLsb' 0 20).extractLsb' 10 5 = a2 ∧ (c.extractLsb' 0 20).extractLsb' 6 4 = a3 ∧ (c.extractLsb' 0 20).extractLsb' 5 1 = a4 ∧ (c.extractLsb' 0 20).extractLsb' 3 2 = a5 ∧ (c.extractLsb' 0 20).extractLsb' 0 3 = a6 := by
  subst h
  exact (by simp (disch := decide) only [extract_extract, extract_low, extract_high, extract_all, and_self] :
    let c := a0 ++ a1 ++ a2 ++ a3 ++ a4 ++ a5 ++ a6
    c.extractLsb' 20 7 = a0 ∧ (c.extractLsb' 0 20).extractLsb' 15 5 = a1 ∧ (c.extractLsb' 0 20).extractLsb' 10 5 = a2 ∧ (c.extractLsb' 0 20).extractLsb' 6 4 = a3 ∧ (c.extractLsb' 0 20).extractLsb' 5 1 = a4 ∧ (c.extractLsb' 0 20).extractLsb' 3 2 = a5 ∧ (c.extractLsb' 0 20).extractLsb' 0 3 = a6)

theorem fields_7_5_5_5_3_2 {c : BitVec 27} (a0 : BitVec 7) (a1 : BitVec 5) (a2 : BitVec 5) (a3 : BitVec 5) (a4 : BitVec 3) (a5 : BitVec 2)
    (h : c = a0 ++ a1 ++ a2 ++ a3 ++ a4 ++ a5) :
    c.extractLsb' 20 7 = a0 ∧ (c.extractLsb' 0 20).extractLsb' 15 5 = a1 ∧ (c.extractLsb' 0 20).extractLsb' 10 5 = a2 ∧ (c.extractLsb' 0 20).extractLsb' 5 5 = a3 ∧ (c.extractLsb' 0 20).extractLsb' 2 3 = a4 ∧ (c.extractLsb' 0 20).extractLsb' 0 2 = a5 := by
  subst h
  exact (by simp (disch := decide) only [extract_extract, extract_low, extract_high, extract_all, and_self] :
    let c := a0 ++ a1 ++ a2 ++ a3 ++ a4 ++ a5
    c.extractLsb' 20 7 = a0 ∧ (c.extractLsb' 0 20).extractLsb' 15 5 = a1 ∧ (c.extractLsb' 0 20).extractLsb' 10 5 = a2 ∧ (c.extractLsb' 0 20).extractLsb' 5 5 = a3 ∧ (c.extractLsb' 0 20).extractLsb' 2 3 = a4 ∧ (c.extractLsb' 0 20).extractLsb' 0 2 = a5)

theorem fields_7_5_2_1_12 {c : BitVec 27} (a0 : BitVec 7) (a1 : BitVec 5) (a2 : BitVec 2) (a3 : BitVec 1) (a4 : BitVec 12)
    (h : c = a0 ++ a1 ++ a2 ++ a3 ++ a4) :
    c.extractLsb' 20 7 = a0 ∧ (c.extractLsb' 0 20).extractLsb' 15 5 = a1 ∧ (c.extractLsb' 0 20).extractLsb' 13 2 = a2 ∧ (c.extractLsb' 0 20).extractLsb' 12 1 = a3 ∧ (c.extractLsb' 0 20).extractLsb' 0 12 = a4 := by
  subst h
  exact (by simp (disch := decide) only [extract_extract, extract_low, extract_high, extract_all, and_self] :
    let c := a0 ++ a1 ++ a2 ++ a3 ++ a4
    c.extractLsb' 20 7 = a0 ∧ (c.extractLsb' 0 20).extractLsb' 15 5 = a1 ∧ (c.extractLsb' 0 20).extractLsb' 13 2 = a2 ∧ (c.extractLsb' 0 20).extractLsb' 12 1 = a3 ∧ (c.extractLsb' 0 20).extractLsb' 0 12 = a4)

theorem fields_7_5_5_5_5 {c : BitVec 27} (a0 : BitVec 7) (a1 : BitVec 5) (a2 : BitVec 5) (a3 : BitVec 5) (a4 : BitVec 5)
    (h : c = a0 ++ a1 ++ a2 ++ a3 ++ a4) :
    c.extractLsb' 20 7 = a0 ∧ (c.extractLsb' 0 20).extractLsb' 15 5 = a1 ∧ (c.extractLsb' 0 20).extractLsb' 10 5 = a2 ∧ (c.extractLsb' 0 20).extractLsb' 5 5 = a3 ∧ (c.extractLsb' 0 20).extractLsb' 0 5 = a4 := by
  subst h
  exact (by simp (disch := decide) only [extract_extract, extract_low, extract_high, extract_all, and_self] :
    let c := a0 ++ a1 ++ a2 ++ a3 ++ a4
    c.extractLsb' 20 7 = a0 ∧ (c.extractLsb' 0 20).extractLsb' 15 5 = a1 ∧ (c.extractLsb' 0 20).extractLsb' 10 5 = a2 ∧ (c.extractLsb' 0 20).extractLsb' 5 5 = a3 ∧ (c.extractLsb' 0 20).extractLsb' 0 5 = a4)

theorem fields_7_5_5_3_1_6 {c : BitVec 27} (a0 : BitVec 7) (a1 : BitVec 5) (a2 : BitVec 5) (a3 : BitVec 3) (a4 : BitVec 1) (a5 : BitVec 6)
    (h : c = a0 ++ a1 ++ a2 ++ a3 ++ a4 ++ a5) :
    c.extractLsb' 20 7 = a0 ∧ (c.extractLsb' 0 20).extractLsb' 15 5 = a1 ∧ (c.extractLsb' 0 20).extractLsb' 10 5 = a2 ∧ (c.extractLsb' 0 20).extractLsb' 7 3 = a3 ∧ (c.extractLsb' 0 20).extractLsb' 6 1 = a4 ∧ (c.extractLsb' 0 20).extractLsb' 0 6 = a5 := by
  subst h
  exact (by simp (disch := decide) only [extract_extract, extract_low, extract_high, extract_all, and_self] :
    let c := a0 ++ a1 ++ a2 ++ a3 ++ a4 ++ a5
    c.extractLsb' 20 7 = a0 ∧ (c.extractLsb' 0 20).extractLsb' 15 5 = a1 ∧ (c.extractLsb' 0 20).extractLsb' 10 5 = a2 ∧ (c.extractLsb' 0 20).extractLsb' 7 3 = a3 ∧ (c.extractLsb' 0 20).extractLsb' 6 1 = a4 ∧ (c.extractLsb' 0 20).extractLsb' 0 6 = a5)

theorem fields_7_5_15 {c : BitVec 27} (a0 : BitVec 7) (a1 : BitVec 5) (a2 : BitVec 15)
    (h : c = a0 ++ a1 ++ a2) :
    c.extractLsb' 20 7 = a0 ∧ (c.extractLsb' 0 20).extractLsb' 15 5 = a1 ∧ (c.extractLsb' 0 20).extractLsb' 0 15 = a2 := by
  subst h
  exact (by simp (disch := decide) only [extract_extract, extract_low, extract_high, extract_all, and_self] :
    let c := a0 ++ a1 ++ a2
    c.extractLsb' 20 7 = a0 ∧ (c.extractLsb' 0 20).extractLsb' 15 5 = a1 ∧ (c.extractLsb' 0 20).extractLsb' 0 15 = a2)

theorem fields_7_6_4_6_4 {c : BitVec 27} (a0 : BitVec 7) (a1 : BitVec 6) (a2 : BitVec 4) (a3 : BitVec 6) (a4 : BitVec 4)
    (h : c = a0 ++ a1 ++ a2 ++ a3 ++ a4) :
    c.extractLsb' 20 7 = a0 ∧ (c.extractLsb' 0 20).extractLsb' 14 6 = a1 ∧ (c.extractLsb' 0 20).extractLsb' 10 4 = a2 ∧ (c.extractLsb' 0 20).extractLsb' 4 6 = a3 ∧ (c.extractLsb' 0 20).extractLsb' 0 4 = a4 := by
  subst h
  exact (by simp (disch := decide) only [extract_extract, extract_low, extract_high, extract_all, and_self] :
    let c := a0 ++ a1 ++ a2 ++ a3 ++ a4
    c.extractLsb' 20 7 = a0 ∧ (c.extractLsb' 0 20).extractLsb' 14 6 = a1 ∧ (c.extractLsb' 0 20).extractLsb' 10 4 = a2 ∧ (c.extractLsb' 0 20).extractLsb' 4 6 = a3 ∧ (c.extractLsb' 0 20).extractLsb' 0 4 = a4)

theorem fields_7_6_4_2_4_4 {c : BitVec 27} (a0 : BitVec 7) (a1 : BitVec 6) (a2 : BitVec 4) (a3 : BitVec 2) (a4 : BitVec 4) (a5 : BitVec 4)
    (h : c = a0 ++ a1 ++ a2 ++ a3 ++ a4 ++ a5) :
    c.extractLsb' 20 7 = a0 ∧ (c.extractLsb' 0 20).extractLsb' 14 6 = a1 ∧ (c.extractLsb' 0 20).extractLsb' 10 4 = a2 ∧ (c.extractLsb' 0 20).extractLsb' 8 2 = a3 ∧ (c.extractLsb' 0 20).extractLsb' 4 4 = a4 ∧ (c.extractLsb' 0 20).extractLsb' 0 4 = a5 := by
  subst h
  exact (by simp (disch := decide) only [extract_extract, extract_low, extract_high, extract_all, and_self] :
    let c := a0 ++ a1 ++ a2 ++ a3 ++ a4 ++ a5
    c.extractLsb' 20 7 = a0 ∧ (c.extractLsb' 0 20).extractLsb' 14 6 = a1 ∧ (c.extractLsb' 0 20).extractLsb' 10 4 = a2 ∧ (c.extractLsb' 0 20).extractLsb' 8 2 = a3 ∧ (c.extractLsb' 0 20).extractLsb' 4 4 = a4 ∧ (c.extractLsb' 0 20).extractLsb' 0 4 = a5)

theorem fields_7_6_4_1_5_4 {c : BitVec 27} (a0 : BitVec 7) (a1 : BitVec 6) (a2 : BitVec 4) (a3 : BitVec 1) (a4 : BitVec 5) (a5 : BitVec 4)
    (h : c = a0 ++ a1 ++ a2 ++ a3 ++ a4 ++ a5) :
    c.extractLsb' 20 7 = a0 ∧ (c.extractLsb' 0 20).extractLsb' 14 6 = a1 ∧ (c.extractLsb' 0 20).extractLsb' 10 4 = a2 ∧ (c.extractLsb' 0 20).extractLsb' 9 1 = a3 ∧ (c.extractLsb' 0 20).extractLsb' 4 5 = a4 ∧ (c.extractLsb' 0 20).extractLsb' 0 4 = a5 := by
  subst h
  exact (by simp (disch := decide) only [extract_extract, extract_low, extract_high, extract_all, and_self] :
    let c := a0 ++ a1 ++ a2 ++ a3 ++ a4 ++ a5
    c.extractLsb' 20 7 = a0 ∧ (c.extractLsb' 0 20).extractLsb' 14 6 = a1 ∧ (c.extractLsb' 0 20).extractLsb' 10 4 = a2 ∧ (c.extractLsb' 0 20).extractLsb' 9 1 = a3 ∧ (c.extractLsb' 0 20).extractLsb' 4 5 = a4 ∧ (c.extractLsb' 0 20).extractLsb' 0 4 = a5)

end Sys2Proof.Laws
end

