-- ==== Sys2Proof/Laws/Memory.lean ====
section
/-! SUPPORT. Maps and memories: read after write, and every memory operation keeps the canonical form of notes/assumptions/3.md. -/

namespace Sys2Proof.Machine

/-! ### Maps -/

@[simp] theorem mget_nil {α : Type} (k : Nat) : mget ([] : Map α) k = none := rfl

theorem mget_cons {α : Type} (e : Nat × α) (m : Map α) (k : Nat) :
    mget (e :: m) k = if e.1 = k then some e.2 else mget m k := by
  unfold mget
  by_cases h : e.1 = k <;> simp [h]

@[simp] theorem mget_mdel_same {α : Type} (m : Map α) (k : Nat) : mget (mdel m k) k = none := by
  induction m with
  | nil => rfl
  | cons e m ih =>
    unfold mdel at ih ⊢
    by_cases h : e.1 = k
    · simpa [h] using ih
    · simp [h, mget_cons, ih]

theorem mget_mdel_other {α : Type} (m : Map α) {j k : Nat} (h : j ≠ k) : mget (mdel m k) j = mget m j := by
  induction m with
  | nil => rfl
  | cons e m ih =>
    unfold mdel at ih ⊢
    by_cases he : e.1 = k
    · simpa [he, mget_cons, ih] using fun hj : k = j => absurd hj.symm h
    · simp [he, mget_cons, ih]

theorem mget_minsert {α : Type} (m : Map α) (j k : Nat) (v : α) (h : mget m k = none) :
    mget (minsert k v m) j = if k = j then some v else mget m j := by
  induction m with
  | nil => simp [minsert, mget_cons]
  | cons e m ih =>
    have hek : e.1 ≠ k := fun hk => by simp [mget_cons, hk] at h
    have hm : mget m k = none := by simpa [mget_cons, hek] using h
    unfold minsert
    split
    · simp [mget_cons]
    · rw [mget_cons, mget_cons, ih hm]
      by_cases hj : e.1 = j
      · simpa [hj] using fun hk : k = j => absurd (hj.trans hk.symm) hek
      · simp [hj]

@[simp] theorem mget_mset_same {α : Type} (m : Map α) (k : Nat) (v : α) : mget (mset m k v) k = some v := by
  simp [mset, mget_minsert]

theorem mget_mset_other {α : Type} (m : Map α) {j k : Nat} (v : α) (h : j ≠ k) : mget (mset m k v) j = mget m j := by
  simp [mset, mget_minsert, mget_mdel_other m h, h.symm]

theorem mget_mset {α : Type} (m : Map α) (j k : Nat) (v : α) :
    mget (mset m k v) j = if j = k then some v else mget m j := by
  split
  · subst j; simp
  · exact mget_mset_other m v ‹_›

theorem mget_mmod {α : Type} (m : Map α) (j k : Nat) (f : α → α) :
    mget (mmod m k f) j = if j = k then (mget m k).map f else mget m j := by
  unfold mmod
  cases h : mget m k with
  | none => split <;> simp_all
  | some v => rw [mget_mset]; simp

/-! ### Reading what was written -/

@[simp] theorem rd8_wr8_same (m : Mem) (a : Nat) (b : Byte) : rd8 (wr8 m a b) a = b := by
  unfold rd8 wr8
  split <;> simp_all

theorem rd8_wr8_other (m : Mem) {a c : Nat} (b : Byte) (h : c ≠ a) : rd8 (wr8 m a b) c = rd8 m c := by
  unfold rd8 wr8
  split
  · rw [mget_mdel_other m h]
  · rw [mget_mset_other m b h]

theorem rd8_wrBytes_outside (m : Mem) (a : Nat) (l : List Byte) (c : Nat) (h : c < a ∨ a + l.length ≤ c) :
    rd8 (wrBytes m a l) c = rd8 m c := by
  induction l generalizing m a with
  | nil => rfl
  | cons b l ih =>
    simp only [List.length_cons] at h
    rw [wrBytes, ih _ _ (by omega), rd8_wr8_other _ _ (by omega)]

theorem rd8_wrBytes_inside (m : Mem) (a : Nat) (l : List Byte) (i : Nat) (h : i < l.length) :
    rd8 (wrBytes m a l) (a + i) = l[i] := by
  induction l generalizing m a i with
  | nil => simp at h
  | cons b l ih =>
    rw [wrBytes]
    cases i with
    | zero => rw [rd8_wrBytes_outside _ _ _ _ (by omega)]; simp
    | succ i =>
      have := ih (wr8 m a b) (a + 1) i (by simpa using h)
      simpa [Nat.add_assoc, Nat.add_comm 1 i] using this

theorem rd8_zeroRange (m : Mem) (a n c : Nat) :
    rd8 (zeroRange m a n) c = if a ≤ c ∧ c < a + n then 0 else rd8 m c := by
  unfold rd8 zeroRange
  induction m with
  | nil => simp
  | cons e m ih =>
    by_cases he : e.1 < a ∨ a + n ≤ e.1
    · have : (decide (e.1 < a) || decide (a + n ≤ e.1)) = true := by simpa using he
      simp only [List.filter_cons, this, if_true, mget_cons]
      by_cases hc : e.1 = c
      · subst hc; rw [if_pos rfl, if_neg (by omega), if_pos rfl]
      · simpa [hc] using ih
    · have : (decide (e.1 < a) || decide (a + n ≤ e.1)) = false := by simpa using he
      simp only [List.filter_cons, this, mget_cons, Bool.false_eq_true, if_false, ih]
      by_cases hc : e.1 = c
      · rw [if_pos (by omega), if_pos (by omega)]
      · simp [hc]

/-! ### The canonical form -/

theorem Memory.wf_iff (m : Mem) : Memory.wf m = true ↔ m.Pairwise (fun e f => e.1 < f.1) ∧ ∀ e ∈ m, e.2 ≠ 0 := by
  induction m with
  | nil => simp [Memory.wf]
  | cons e m ih =>
    cases m with
    | nil => simp [Memory.wf]
    | cons f m =>
      simp only [Memory.wf, Bool.and_eq_true, decide_eq_true_eq, ih, List.pairwise_cons, List.forall_mem_cons]
      constructor
      · rintro ⟨⟨h1, h2⟩, ⟨h3, h4⟩, h5⟩
        exact ⟨⟨⟨h1, fun x hx => h1.trans (h3 x hx)⟩, h3, h4⟩, h2, h5⟩
      · rintro ⟨⟨⟨h1, _⟩, h3, h4⟩, h2, h5⟩
        exact ⟨⟨h1, h2⟩, ⟨h3, h4⟩, h5⟩

/-- Leaving entries out keeps the form. -/
theorem Memory.wf_filter (m : Mem) (p : Nat × Byte → Bool) (h : Memory.wf m = true) : Memory.wf (m.filter p) = true := by
  rw [Memory.wf_iff] at *
  exact ⟨h.1.filter p, fun e he => h.2 e (List.mem_of_mem_filter he)⟩

theorem Memory.wf_mdel (m : Mem) (a : Nat) (h : Memory.wf m = true) : Memory.wf (mdel m a) = true := Memory.wf_filter m _ h

theorem mem_minsert {α : Type} (k : Nat) (v : α) (m : Map α) (e : Nat × α) : e ∈ minsert k v m ↔ e = (k, v) ∨ e ∈ m := by
  induction m with
  | nil => simp [minsert]
  | cons f m ih =>
    unfold minsert
    split
    · simp
    · simp only [List.mem_cons, ih]; tauto

theorem pairwise_minsert (k : Nat) (v : Byte) (m : Mem) (h : m.Pairwise (fun e f => e.1 < f.1)) (hk : ∀ e ∈ m, e.1 ≠ k) :
    (minsert k v m).Pairwise (fun e f => e.1 < f.1) := by
  induction m with
  | nil => simp [minsert]
  | cons e m ih =>
    rw [List.pairwise_cons] at h
    unfold minsert
    split
    · rename_i hlt
      simp only [List.pairwise_cons, List.forall_mem_cons]
      exact ⟨⟨hlt, fun f hf => lt_trans hlt (h.1 f hf)⟩, h.1, h.2⟩
    · rename_i hge
      have hne := hk e (by simp)
      rw [List.pairwise_cons]
      refine ⟨fun f hf => ?_, ih h.2 fun f hf => hk f (by simp [hf])⟩
      rcases (mem_minsert k v m f).1 hf with rfl | hf
      · show e.1 < k; omega
      · exact h.1 f hf

theorem Memory.wf_wr8 (m : Mem) (a : Nat) (b : Byte) (h : Memory.wf m = true) : Memory.wf (wr8 m a b) = true := by
  unfold wr8
  split
  · exact Memory.wf_mdel m a h
  · rename_i hb
    have hd := (Memory.wf_iff _).1 (Memory.wf_mdel m a h)
    rw [Memory.wf_iff]
    refine ⟨pairwise_minsert a b _ hd.1 fun e he => ?_, fun e he => ?_⟩
    · simpa using (List.mem_filter.1 he).2
    · rcases (mem_minsert _ _ _ _).1 he with rfl | he
      · exact hb
      · exact hd.2 e he

theorem Memory.wf_wrBytes (m : Mem) (a : Nat) (l : List Byte) (h : Memory.wf m = true) : Memory.wf (wrBytes m a l) = true := by
  induction l generalizing m a with
  | nil => exact h
  | cons b l ih => exact ih _ _ (Memory.wf_wr8 m a b h)

theorem Memory.wf_wrN (m : Mem) (a n v : Nat) (h : Memory.wf m = true) : Memory.wf (wrN m a n v) = true :=
  Memory.wf_wrBytes m a _ h

theorem Memory.wf_wrMasked (m : Mem) (a : Nat) (l : List Byte) (k : List Bool) (h : Memory.wf m = true) :
    Memory.wf (wrMasked m a l k) = true := by
  induction l generalizing m a k with
  | nil => cases k <;> exact h
  | cons b l ih =>
    cases k with
    | nil => exact ih _ _ _ (Memory.wf_wr8 m a b h)
    | cons c k =>
      unfold wrMasked
      split
      · exact ih _ _ _ (Memory.wf_wr8 m a b h)
      · exact ih _ _ _ h

theorem Memory.wf_zeroRange (m : Mem) (a n : Nat) (h : Memory.wf m = true) : Memory.wf (zeroRange m a n) = true :=
  Memory.wf_filter m _ h

/-- The entries that a block write adds lie in its range, rising. -/
theorem pairwise_block (a n : Nat) (l : List Byte) :
    (((l.zipIdx n).filter fun e => e.1 != 0).map fun e => (a + e.2, e.1)).Pairwise (fun e f => e.1 < f.1) ∧
    ∀ e ∈ ((l.zipIdx n).filter fun e => e.1 != 0).map fun e => (a + e.2, e.1),
      e.2 ≠ 0 ∧ a + n ≤ e.1 ∧ e.1 < a + n + l.length := by
  induction l generalizing n with
  | nil => simp
  | cons b l ih =>
    obtain ⟨h1, h2⟩ := ih (n + 1)
    simp only [List.zipIdx_cons, List.length_cons]
    by_cases hb : b = 0
    · subst hb
      simp only [List.filter_cons, bne_self_eq_false, Bool.false_eq_true, if_false]
      exact ⟨h1, fun e he => ⟨(h2 e he).1, by have := (h2 e he).2; omega, by have := (h2 e he).2; omega⟩⟩
    · have : (b != 0) = true := by simpa using hb
      simp only [List.filter_cons, this, if_true, List.map_cons, List.pairwise_cons, List.forall_mem_cons]
      exact ⟨⟨fun e he => by have := (h2 e he).2; show a + n < e.1; omega, h1⟩, ⟨hb, le_refl _, by show a + n < _; omega⟩,
        fun e he => ⟨(h2 e he).1, by have := (h2 e he).2; omega, by have := (h2 e he).2; omega⟩⟩

theorem Memory.wf_wrBlock (m : Mem) (a : Nat) (l : List Byte) (h : Memory.wf m = true) : Memory.wf (wrBlock m a l) = true := by
  obtain ⟨hp, hn⟩ := (Memory.wf_iff m).1 h
  obtain ⟨b1, b2⟩ := pairwise_block a 0 l
  unfold wrBlock
  rw [Memory.wf_iff]
  refine ⟨?_, fun e he => ?_⟩
  · rw [List.pairwise_append, List.pairwise_append]
    refine ⟨⟨hp.filter _, b1, fun e he f hf => ?_⟩, hp.filter _, fun e he f hf => ?_⟩
    · have h1 := (List.mem_filter.1 he).2
      have h2 := (b2 f hf).2.1
      simp only [decide_eq_true_eq] at h1
      omega
    · have h3 := (List.mem_filter.1 hf).2
      simp only [decide_eq_true_eq] at h3
      rcases List.mem_append.1 he with he | he
      · have h1 := (List.mem_filter.1 he).2
        simp only [decide_eq_true_eq] at h1
        omega
      · have h2 := (b2 e he).2.2
        omega
  · rcases List.mem_append.1 he with he | he
    · rcases List.mem_append.1 he with he | he
      · exact hn e (List.mem_of_mem_filter he)
      · exact (b2 e he).1
    · exact hn e (List.mem_of_mem_filter he)

/-- Reset lists nothing in any memory. -/
theorem State.reset_memories : Memory.wf State.reset.dram = true ∧ Memory.wf State.reset.reflexStore.bytes = true ∧
    State.reset.pads = [] ∧ State.reset.cores = [] := ⟨rfl, rfl, rfl, rfl⟩

end Sys2Proof.Machine
end

