-- ==== Sys2Proof/Laws/Ops.lean ====
section
/-! SUPPORT. The registers (R65), how a word ends (R54-R56, R126) and taking a trap (R228): what each shared operation does, once. -/

namespace Sys2Proof.Machine

/-! ### Registers -/

@[simp] theorem Thread.getX_zero (t : Thread) : t.getX 0 = 0 := rfl

@[simp] theorem Thread.getX_setX_same (t : Thread) (r : Nat) (w : Word) :
    (t.setX r w).getX r = if r % 16 = 0 then 0 else w := by
  unfold Thread.getX Thread.setX
  split <;> simp_all

theorem Thread.getX_setX_other (t : Thread) {r q : Nat} (w : Word) (h : q % 16 ≠ r % 16) :
    (t.setX r w).getX q = t.getX q := by
  unfold Thread.getX Thread.setX
  split
  · rfl
  · split
    · rfl
    · simp [Ne.symm h]

/-- Writing a register changes the registers alone. -/
theorem Thread.setX_frame (t : Thread) (r : Nat) (w : Word) : t.setX r w = { t with x := (t.setX r w).x } := by
  unfold Thread.setX
  split <;> rfl

@[simp] theorem Thread.getP_zero (t : Thread) : t.getP 0 = true := rfl

@[simp] theorem Thread.getP_setP_same (t : Thread) {p : Nat} (b : Bool) (h : p < 8) :
    (t.setP p b).getP p = if p = 0 then true else b := by
  unfold Thread.getP Thread.setP
  split
  · rfl
  · cases b <;> simp [*]

theorem Thread.getP_setP_other (t : Thread) {p q : Nat} (b : Bool) (h : q ≠ p) :
    (t.setP p b).getP q = t.getP q := by
  unfold Thread.getP Thread.setP
  split
  · rfl
  · split
    · rfl
    · by_cases hq : q < 8
      · cases b <;> simp [*] <;> grind
      · simp [BitVec.getLsbD_of_ge _ _ (by omega : 8 ≤ q)]

theorem Thread.setP_frame (t : Thread) (p : Nat) (b : Bool) : t.setP p b = { t with pw := (t.setP p b).pw } := by
  unfold Thread.setP
  split <;> rfl

/-! ### How a word ends -/

@[simp] theorem finish_ok (s t : State) : finish s (.ok t) = .next t.advance := rfl

@[simp] theorem finish_jump (s t : State) (a : IAddr) : finish s (.jump t a) =
    .next { t with stat := .done, th := { t.th with pc := a, notBefore := s.cycle + 2 } } := rfl

@[simp] theorem finish_wait (s t : State) : finish s (.wait t) =
    .next { t with stat := .held, th := { t.th with notBefore := s.cycle + 1 } } := rfl

@[simp] theorem finish_trap (s : State) (c : Nat) (v : Word) (e : Option IAddr) : finish s (.trap c v e) =
    .next (({ s with draw := s.draw + 1 } : State).takeTrap c v (e.getD s.wordAddr) s.wordAddr) := rfl

/-- Every word of every kind answers a next state. -/
theorem finish_next (s : State) (r : Res) : ∃ t, finish s r = .next t := by
  cases r <;> exact ⟨_, rfl⟩

/-- A word that takes effect leaves pc at the next word, and word 1 of a parallel bundle leaves it alone (R54-R56). -/
theorem State.advance_eq (s : State) : s.advance = { s with stat := .done, th := { s.th with
    pc := match s.form with | .ser0 => s.bundle + 4 | .par1 => s.th.pc | _ => s.bundle + 8 } } := by
  obtain ⟨f, h⟩ : ∃ f, s.form = f := ⟨_, rfl⟩
  unfold State.advance State.nextAddr
  rw [h]
  cases f <;> rfl

theorem State.wordAddr_eq (s : State) :
    s.wordAddr = match s.form with | .ser1 => s.bundle + 4 | _ => s.bundle := by
  obtain ⟨f, h⟩ : ∃ f, s.form = f := ⟨_, rfl⟩
  unfold State.wordAddr
  rw [h]
  cases f <;> rfl

theorem State.nextAddr_eq (s : State) :
    s.nextAddr = match s.form with | .ser0 => s.bundle + 4 | _ => s.bundle + 8 := by
  obtain ⟨f, h⟩ : ∃ f, s.form = f := ⟨_, rfl⟩
  unfold State.nextAddr
  rw [h]
  cases f <;> rfl

/-- A trap into trap bank 0 (R228). -/
theorem State.takeTrap_bank0 (s : State) (c : Nat) (v : Word) (e a : IAddr)
    (h : s.th.trap0.held = false) (hv : s.th.trap0.tvec ≠ 0) :
    s.takeTrap c v e a = { s with
      stat := .trapped c v
      th := { s.th with
        st := s.th.wake.st, pend := [], fetched := none, notBefore := s.cycle + 2, pc := s.th.trap0.tvec
        trap0 := { s.th.trap0 with
          held := true, level := s.th.level, pwsave := s.th.pw, cause := BitVec.ofNat 8 c, tval := v, tepc := e } } } := by
  unfold State.takeTrap State.freeTrapBank Thread.wake
  have hv' : ¬ s.th.trap0.tvec = 0#40 := hv
  cases hs : s.th.st <;> simp [h, hv', hs, Thread.trapBank, Thread.setTrapBank]

end Sys2Proof.Machine
end

