-- ==== Sys2Proof/Laws/PerInstr.lean ====
section
/-! SUPPORT. Per instruction: decoding the code of a well-formed instruction gives the instruction back, with every operand
(R53, R60-R68). An event of the part is held by no word. -/

namespace Sys2Proof.Laws

set_option Elab.async false

/-- The decoder reads `i` from the code and the literal word of `i`. -/
def CodeRoundTrip.Statement (i : Instr) : Prop := i.wf = true → decodeCode i.code i.literal = .ok i

namespace CodeRoundTrip

theorem beq (a : BitVec 4) (b : BitVec 4) (off : BitVec 9) : Statement (.beq a b off) := by
  intro h
  obtain ⟨h0, h1, h2, h3, h4⟩ := fields_7_4_4_3_9 _ _ _ _ _ (show Instr.code (.beq a b off) = _ from rfl)
  rw [decodeCode, h0]
  change decode01 _ = _
  rw [decode01, h1, h2, h3, h4]
  exact if_pos h

theorem bne (a : BitVec 4) (b : BitVec 4) (off : BitVec 9) : Statement (.bne a b off) := by
  intro h
  obtain ⟨h0, h1, h2, h3, h4⟩ := fields_7_4_4_3_9 _ _ _ _ _ (show Instr.code (.bne a b off) = _ from rfl)
  rw [decodeCode, h0]
  change decode01 _ = _
  rw [decode01, h1, h2, h3, h4]
  exact if_pos h

theorem blt (a : BitVec 4) (b : BitVec 4) (off : BitVec 9) : Statement (.blt a b off) := by
  intro h
  obtain ⟨h0, h1, h2, h3, h4⟩ := fields_7_4_4_3_9 _ _ _ _ _ (show Instr.code (.blt a b off) = _ from rfl)
  rw [decodeCode, h0]
  change decode01 _ = _
  rw [decode01, h1, h2, h3, h4]
  exact if_pos h

theorem bge (a : BitVec 4) (b : BitVec 4) (off : BitVec 9) : Statement (.bge a b off) := by
  intro h
  obtain ⟨h0, h1, h2, h3, h4⟩ := fields_7_4_4_3_9 _ _ _ _ _ (show Instr.code (.bge a b off) = _ from rfl)
  rw [decodeCode, h0]
  change decode01 _ = _
  rw [decode01, h1, h2, h3, h4]
  exact if_pos h

theorem bltu (a : BitVec 4) (b : BitVec 4) (off : BitVec 9) : Statement (.bltu a b off) := by
  intro h
  obtain ⟨h0, h1, h2, h3, h4⟩ := fields_7_4_4_3_9 _ _ _ _ _ (show Instr.code (.bltu a b off) = _ from rfl)
  rw [decodeCode, h0]
  change decode01 _ = _
  rw [decode01, h1, h2, h3, h4]
  exact if_pos h

theorem bgeu (a : BitVec 4) (b : BitVec 4) (off : BitVec 9) : Statement (.bgeu a b off) := by
  intro h
  obtain ⟨h0, h1, h2, h3, h4⟩ := fields_7_4_4_3_9 _ _ _ _ _ (show Instr.code (.bgeu a b off) = _ from rfl)
  rw [decodeCode, h0]
  change decode01 _ = _
  rw [decode01, h1, h2, h3, h4]
  exact if_pos h

theorem bpt (a : BitVec 4) (off : BitVec 9) : Statement (.bpt a off) := by
  intro h
  obtain ⟨h0, h1, h2, h3, h4⟩ := fields_7_4_4_3_9 _ _ _ _ _ (show Instr.code (.bpt a off) = _ from rfl)
  rw [decodeCode, h0]
  change decode02 _ = _
  rw [decode02, h1, h2, h3, h4]
  exact if_pos h

theorem bpf (a : BitVec 4) (off : BitVec 9) : Statement (.bpf a off) := by
  intro h
  obtain ⟨h0, h1, h2, h3, h4⟩ := fields_7_4_4_3_9 _ _ _ _ _ (show Instr.code (.bpf a off) = _ from rfl)
  rw [decodeCode, h0]
  change decode02 _ = _
  rw [decode02, h1, h2, h3, h4]
  exact if_pos h

theorem j (off : BitVec 20) : Statement (.j off) := by
  intro h
  obtain ⟨h0, h1⟩ := fields_7_20 _ _ (show Instr.code (.j off) = _ from rfl)
  rw [decodeCode, h0]
  change decode03 _ = _
  rw [decode03, h1]
  exact if_pos h

theorem call (off : BitVec 20) : Statement (.call off) := by
  intro h
  obtain ⟨h0, h1⟩ := fields_7_20 _ _ (show Instr.code (.call off) = _ from rfl)
  rw [decodeCode, h0]
  change decode04 _ = _
  rw [decode04, h1]
  exact if_pos h

theorem jr (a : BitVec 5) (imm : BitVec 7) : Statement (.jr a imm) := by
  intro h
  obtain ⟨h0, h1, h2, h3, h4⟩ := fields_7_5_5_3_7 _ _ _ _ _ (show Instr.code (.jr a imm) = _ from rfl)
  rw [decodeCode, h0]
  change decode05 _ = _
  rw [decode05, h1, h2, h3, h4]
  exact if_pos h

theorem jalr (d : BitVec 5) (a : BitVec 5) (imm : BitVec 7) : Statement (.jalr d a imm) := by
  intro h
  obtain ⟨h0, h1, h2, h3, h4⟩ := fields_7_5_5_3_7 _ _ _ _ _ (show Instr.code (.jalr d a imm) = _ from rfl)
  rw [decodeCode, h0]
  change decode05 _ = _
  rw [decode05, h1, h2, h3, h4]
  exact if_pos h

theorem loop (d : BitVec 5) (a : BitVec 5) (imm : BitVec 7) : Statement (.loop d a imm) := by
  intro h
  obtain ⟨h0, h1, h2, h3, h4⟩ := fields_7_5_5_3_7 _ _ _ _ _ (show Instr.code (.loop d a imm) = _ from rfl)
  rw [decodeCode, h0]
  change decode06 _ = _
  rw [decode06, h1, h2, h3, h4]
  exact if_pos h

theorem liw (d : BitVec 5) (literal : BitVec 32) : Statement (.liw d literal) := by
  intro h
  obtain ⟨h0, h1, h2, h3⟩ := fields_7_5_1_14 _ _ _ _ (show Instr.code (.liw d literal) = _ from rfl)
  rw [decodeCode, h0]
  change decode07 _ literal = _
  rw [decode07, h1, h2, h3]
  exact if_pos h

theorem liwh (d : BitVec 5) (literal : BitVec 32) : Statement (.liwh d literal) := by
  intro h
  obtain ⟨h0, h1, h2, h3⟩ := fields_7_5_1_14 _ _ _ _ (show Instr.code (.liwh d literal) = _ from rfl)
  rw [decodeCode, h0]
  change decode07 _ literal = _
  rw [decode07, h1, h2, h3]
  exact if_pos h

theorem ld8 (d : BitVec 5) (a : BitVec 5) (off : BitVec 7) : Statement (.ld8 d a off) := by
  intro h
  obtain ⟨h0, h1, h2, h3, h4⟩ := fields_7_5_5_3_7 _ _ _ _ _ (show Instr.code (.ld8 d a off) = _ from rfl)
  rw [decodeCode, h0]
  change decode08 _ = _
  rw [decode08, h1, h2, h3, h4]
  exact if_pos h

theorem ld8u (d : BitVec 5) (a : BitVec 5) (off : BitVec 7) : Statement (.ld8u d a off) := by
  intro h
  obtain ⟨h0, h1, h2, h3, h4⟩ := fields_7_5_5_3_7 _ _ _ _ _ (show Instr.code (.ld8u d a off) = _ from rfl)
  rw [decodeCode, h0]
  change decode08 _ = _
  rw [decode08, h1, h2, h3, h4]
  exact if_pos h

theorem ld16 (d : BitVec 5) (a : BitVec 5) (off : BitVec 7) : Statement (.ld16 d a off) := by
  intro h
  obtain ⟨h0, h1, h2, h3, h4⟩ := fields_7_5_5_3_7 _ _ _ _ _ (show Instr.code (.ld16 d a off) = _ from rfl)
  rw [decodeCode, h0]
  change decode08 _ = _
  rw [decode08, h1, h2, h3, h4]
  exact if_pos h

theorem ld16u (d : BitVec 5) (a : BitVec 5) (off : BitVec 7) : Statement (.ld16u d a off) := by
  intro h
  obtain ⟨h0, h1, h2, h3, h4⟩ := fields_7_5_5_3_7 _ _ _ _ _ (show Instr.code (.ld16u d a off) = _ from rfl)
  rw [decodeCode, h0]
  change decode08 _ = _
  rw [decode08, h1, h2, h3, h4]
  exact if_pos h

theorem ld32 (d : BitVec 5) (a : BitVec 5) (off : BitVec 7) : Statement (.ld32 d a off) := by
  intro h
  obtain ⟨h0, h1, h2, h3, h4⟩ := fields_7_5_5_3_7 _ _ _ _ _ (show Instr.code (.ld32 d a off) = _ from rfl)
  rw [decodeCode, h0]
  change decode08 _ = _
  rw [decode08, h1, h2, h3, h4]
  exact if_pos h

theorem ld32u (d : BitVec 5) (a : BitVec 5) (off : BitVec 7) : Statement (.ld32u d a off) := by
  intro h
  obtain ⟨h0, h1, h2, h3, h4⟩ := fields_7_5_5_3_7 _ _ _ _ _ (show Instr.code (.ld32u d a off) = _ from rfl)
  rw [decodeCode, h0]
  change decode08 _ = _
  rw [decode08, h1, h2, h3, h4]
  exact if_pos h

theorem ld64 (d : BitVec 5) (a : BitVec 5) (off : BitVec 7) : Statement (.ld64 d a off) := by
  intro h
  obtain ⟨h0, h1, h2, h3, h4⟩ := fields_7_5_5_3_7 _ _ _ _ _ (show Instr.code (.ld64 d a off) = _ from rfl)
  rw [decodeCode, h0]
  change decode08 _ = _
  rw [decode08, h1, h2, h3, h4]
  exact if_pos h

theorem st8 (d : BitVec 5) (a : BitVec 5) (off : BitVec 7) : Statement (.st8 d a off) := by
  intro h
  obtain ⟨h0, h1, h2, h3, h4⟩ := fields_7_5_5_3_7 _ _ _ _ _ (show Instr.code (.st8 d a off) = _ from rfl)
  rw [decodeCode, h0]
  change decode09 _ = _
  rw [decode09, h1, h2, h3, h4]
  exact if_pos h

theorem st16 (d : BitVec 5) (a : BitVec 5) (off : BitVec 7) : Statement (.st16 d a off) := by
  intro h
  obtain ⟨h0, h1, h2, h3, h4⟩ := fields_7_5_5_3_7 _ _ _ _ _ (show Instr.code (.st16 d a off) = _ from rfl)
  rw [decodeCode, h0]
  change decode09 _ = _
  rw [decode09, h1, h2, h3, h4]
  exact if_pos h

theorem st32 (d : BitVec 5) (a : BitVec 5) (off : BitVec 7) : Statement (.st32 d a off) := by
  intro h
  obtain ⟨h0, h1, h2, h3, h4⟩ := fields_7_5_5_3_7 _ _ _ _ _ (show Instr.code (.st32 d a off) = _ from rfl)
  rw [decodeCode, h0]
  change decode09 _ = _
  rw [decode09, h1, h2, h3, h4]
  exact if_pos h

theorem st64 (d : BitVec 5) (a : BitVec 5) (off : BitVec 7) : Statement (.st64 d a off) := by
  intro h
  obtain ⟨h0, h1, h2, h3, h4⟩ := fields_7_5_5_3_7 _ _ _ _ _ (show Instr.code (.st64 d a off) = _ from rfl)
  rw [decodeCode, h0]
  change decode09 _ = _
  rw [decode09, h1, h2, h3, h4]
  exact if_pos h

theorem lda32 (d : BitVec 5) (a : BitVec 5) (scope : BitVec 3) : Statement (.lda32 d a scope) := by
  intro h
  obtain ⟨h0, h1, h2, h3, h4, h5⟩ := fields_7_5_5_2_3_5 _ _ _ _ _ _ (show Instr.code (.lda32 d a scope) = _ from rfl)
  rw [decodeCode, h0]
  change decode0A _ = _
  rw [decode0A, h1, h2, h3, h4, h5]
  exact if_pos h

theorem lda64 (d : BitVec 5) (a : BitVec 5) (scope : BitVec 3) : Statement (.lda64 d a scope) := by
  intro h
  obtain ⟨h0, h1, h2, h3, h4, h5⟩ := fields_7_5_5_2_3_5 _ _ _ _ _ _ (show Instr.code (.lda64 d a scope) = _ from rfl)
  rw [decodeCode, h0]
  change decode0A _ = _
  rw [decode0A, h1, h2, h3, h4, h5]
  exact if_pos h

theorem stl32 (d : BitVec 5) (a : BitVec 5) (scope : BitVec 3) : Statement (.stl32 d a scope) := by
  intro h
  obtain ⟨h0, h1, h2, h3, h4, h5⟩ := fields_7_5_5_2_3_5 _ _ _ _ _ _ (show Instr.code (.stl32 d a scope) = _ from rfl)
  rw [decodeCode, h0]
  change decode0B _ = _
  rw [decode0B, h1, h2, h3, h4, h5]
  exact if_pos h

theorem stl64 (d : BitVec 5) (a : BitVec 5) (scope : BitVec 3) : Statement (.stl64 d a scope) := by
  intro h
  obtain ⟨h0, h1, h2, h3, h4, h5⟩ := fields_7_5_5_2_3_5 _ _ _ _ _ _ (show Instr.code (.stl64 d a scope) = _ from rfl)
  rw [decodeCode, h0]
  change decode0B _ = _
  rw [decode0B, h1, h2, h3, h4, h5]
  exact if_pos h

theorem ldp (d : BitVec 5) (a : BitVec 5) (off : BitVec 7) : Statement (.ldp d a off) := by
  intro h
  obtain ⟨h0, h1, h2, h3, h4⟩ := fields_7_5_5_3_7 _ _ _ _ _ (show Instr.code (.ldp d a off) = _ from rfl)
  rw [decodeCode, h0]
  change decode0C _ = _
  rw [decode0C, h1, h2, h3, h4]
  exact if_pos h

theorem stp (d : BitVec 5) (a : BitVec 5) (off : BitVec 7) : Statement (.stp d a off) := by
  intro h
  obtain ⟨h0, h1, h2, h3, h4⟩ := fields_7_5_5_3_7 _ _ _ _ _ (show Instr.code (.stp d a off) = _ from rfl)
  rw [decodeCode, h0]
  change decode0C _ = _
  rw [decode0C, h1, h2, h3, h4]
  exact if_pos h

theorem ldf64 (d : BitVec 5) (a : BitVec 5) (off : BitVec 7) : Statement (.ldf64 d a off) := by
  intro h
  obtain ⟨h0, h1, h2, h3, h4⟩ := fields_7_5_5_3_7 _ _ _ _ _ (show Instr.code (.ldf64 d a off) = _ from rfl)
  rw [decodeCode, h0]
  change decode0D _ = _
  rw [decode0D, h1, h2, h3, h4]
  exact if_pos h

theorem stf64 (d : BitVec 5) (a : BitVec 5) (off : BitVec 7) : Statement (.stf64 d a off) := by
  intro h
  obtain ⟨h0, h1, h2, h3, h4⟩ := fields_7_5_5_3_7 _ _ _ _ _ (show Instr.code (.stf64 d a off) = _ from rfl)
  rw [decodeCode, h0]
  change decode0D _ = _
  rw [decode0D, h1, h2, h3, h4]
  exact if_pos h

theorem vld (d : BitVec 5) (a : BitVec 5) (off : BitVec 7) : Statement (.vld d a off) := by
  intro h
  obtain ⟨h0, h1, h2, h3, h4⟩ := fields_7_5_5_3_7 _ _ _ _ _ (show Instr.code (.vld d a off) = _ from rfl)
  rw [decodeCode, h0]
  change decode0E _ = _
  rw [decode0E, h1, h2, h3, h4]
  exact if_pos h

theorem vldb (d : BitVec 5) (a : BitVec 5) (off : BitVec 7) : Statement (.vldb d a off) := by
  intro h
  obtain ⟨h0, h1, h2, h3, h4⟩ := fields_7_5_5_3_7 _ _ _ _ _ (show Instr.code (.vldb d a off) = _ from rfl)
  rw [decodeCode, h0]
  change decode0E _ = _
  rw [decode0E, h1, h2, h3, h4]
  exact if_pos h

theorem vlds (d : BitVec 5) (a : BitVec 5) (b : BitVec 5) : Statement (.vlds d a b) := by
  intro h
  obtain ⟨h0, h1, h2, h3, h4, h5⟩ := fields_7_5_5_3_5_2 _ _ _ _ _ _ (show Instr.code (.vlds d a b) = _ from rfl)
  rw [decodeCode, h0]
  change decode0E _ = _
  rw [decode0E, h1, h2, h3, h4, h5]
  exact if_pos h

theorem vldsPi (d : BitVec 5) (a : BitVec 5) (b : BitVec 5) : Statement (.vldsPi d a b) := by
  intro h
  obtain ⟨h0, h1, h2, h3, h4, h5⟩ := fields_7_5_5_3_5_2 _ _ _ _ _ _ (show Instr.code (.vldsPi d a b) = _ from rfl)
  rw [decodeCode, h0]
  change decode0E _ = _
  rw [decode0E, h1, h2, h3, h4, h5]
  exact if_pos h

theorem vst (d : BitVec 5) (a : BitVec 5) (off : BitVec 7) : Statement (.vst d a off) := by
  intro h
  obtain ⟨h0, h1, h2, h3, h4⟩ := fields_7_5_5_3_7 _ _ _ _ _ (show Instr.code (.vst d a off) = _ from rfl)
  rw [decodeCode, h0]
  change decode0F _ = _
  rw [decode0F, h1, h2, h3, h4]
  exact if_pos h

theorem vstm (d : BitVec 5) (a : BitVec 5) (b : BitVec 5) : Statement (.vstm d a b) := by
  intro h
  obtain ⟨h0, h1, h2, h3, h4, h5⟩ := fields_7_5_5_3_5_2 _ _ _ _ _ _ (show Instr.code (.vstm d a b) = _ from rfl)
  rw [decodeCode, h0]
  change decode0F _ = _
  rw [decode0F, h1, h2, h3, h4, h5]
  exact if_pos h

theorem amoadd (v : BitVec 5) (a : BitVec 5) (w : BitVec 1) (ord : BitVec 2) (scope : BitVec 3) : Statement (.amoadd v a w ord scope) := by
  intro h
  obtain ⟨h0, h1, h2, h3, h4, h5, h6⟩ := fields_7_5_5_4_1_2_3 _ _ _ _ _ _ _ (show Instr.code (.amoadd v a w ord scope) = _ from rfl)
  rw [decodeCode, h0]
  change decode10 _ = _
  rw [decode10, h1, h2, h3, h4, h5, h6]
  exact if_pos h

theorem amoand (v : BitVec 5) (a : BitVec 5) (w : BitVec 1) (ord : BitVec 2) (scope : BitVec 3) : Statement (.amoand v a w ord scope) := by
  intro h
  obtain ⟨h0, h1, h2, h3, h4, h5, h6⟩ := fields_7_5_5_4_1_2_3 _ _ _ _ _ _ _ (show Instr.code (.amoand v a w ord scope) = _ from rfl)
  rw [decodeCode, h0]
  change decode10 _ = _
  rw [decode10, h1, h2, h3, h4, h5, h6]
  exact if_pos h

theorem amoor (v : BitVec 5) (a : BitVec 5) (w : BitVec 1) (ord : BitVec 2) (scope : BitVec 3) : Statement (.amoor v a w ord scope) := by
  intro h
  have hv : ¬(v == 0#5) = true := by rintro hv; simp [Instr.wf, eq_of_beq hv] at h
  obtain ⟨h0, h1, h2, h3, h4, h5, h6⟩ := fields_7_5_5_4_1_2_3 _ _ _ _ _ _ _ (show Instr.code (.amoor v a w ord scope) = _ from rfl)
  rw [decodeCode, h0]
  change decode10 _ = _
  rw [decode10, h1, h2, h3, h4, h5, h6]
  exact (if_neg hv).trans (if_pos h)

theorem amoorFence (a : BitVec 5) (w : BitVec 1) (ord : BitVec 2) (scope : BitVec 3) : Statement (.amoorFence a w ord scope) := by
  intro h
  obtain ⟨h0, h1, h2, h3, h4, h5, h6⟩ := fields_7_5_5_4_1_2_3 _ _ _ _ _ _ _ (show Instr.code (.amoorFence a w ord scope) = _ from rfl)
  rw [decodeCode, h0]
  change decode10 _ = _
  rw [decode10, h1, h2, h3, h4, h5, h6]
  exact if_pos h

theorem amoxor (v : BitVec 5) (a : BitVec 5) (w : BitVec 1) (ord : BitVec 2) (scope : BitVec 3) : Statement (.amoxor v a w ord scope) := by
  intro h
  obtain ⟨h0, h1, h2, h3, h4, h5, h6⟩ := fields_7_5_5_4_1_2_3 _ _ _ _ _ _ _ (show Instr.code (.amoxor v a w ord scope) = _ from rfl)
  rw [decodeCode, h0]
  change decode10 _ = _
  rw [decode10, h1, h2, h3, h4, h5, h6]
  exact if_pos h

theorem amomin (v : BitVec 5) (a : BitVec 5) (w : BitVec 1) (ord : BitVec 2) (scope : BitVec 3) : Statement (.amomin v a w ord scope) := by
  intro h
  obtain ⟨h0, h1, h2, h3, h4, h5, h6⟩ := fields_7_5_5_4_1_2_3 _ _ _ _ _ _ _ (show Instr.code (.amomin v a w ord scope) = _ from rfl)
  rw [decodeCode, h0]
  change decode10 _ = _
  rw [decode10, h1, h2, h3, h4, h5, h6]
  exact if_pos h

theorem amomax (v : BitVec 5) (a : BitVec 5) (w : BitVec 1) (ord : BitVec 2) (scope : BitVec 3) : Statement (.amomax v a w ord scope) := by
  intro h
  obtain ⟨h0, h1, h2, h3, h4, h5, h6⟩ := fields_7_5_5_4_1_2_3 _ _ _ _ _ _ _ (show Instr.code (.amomax v a w ord scope) = _ from rfl)
  rw [decodeCode, h0]
  change decode10 _ = _
  rw [decode10, h1, h2, h3, h4, h5, h6]
  exact if_pos h

theorem amominu (v : BitVec 5) (a : BitVec 5) (w : BitVec 1) (ord : BitVec 2) (scope : BitVec 3) : Statement (.amominu v a w ord scope) := by
  intro h
  obtain ⟨h0, h1, h2, h3, h4, h5, h6⟩ := fields_7_5_5_4_1_2_3 _ _ _ _ _ _ _ (show Instr.code (.amominu v a w ord scope) = _ from rfl)
  rw [decodeCode, h0]
  change decode10 _ = _
  rw [decode10, h1, h2, h3, h4, h5, h6]
  exact if_pos h

theorem amomaxu (v : BitVec 5) (a : BitVec 5) (w : BitVec 1) (ord : BitVec 2) (scope : BitVec 3) : Statement (.amomaxu v a w ord scope) := by
  intro h
  obtain ⟨h0, h1, h2, h3, h4, h5, h6⟩ := fields_7_5_5_4_1_2_3 _ _ _ _ _ _ _ (show Instr.code (.amomaxu v a w ord scope) = _ from rfl)
  rw [decodeCode, h0]
  change decode10 _ = _
  rw [decode10, h1, h2, h3, h4, h5, h6]
  exact if_pos h

theorem amoswp (v : BitVec 5) (a : BitVec 5) (w : BitVec 1) (ord : BitVec 2) (scope : BitVec 3) : Statement (.amoswp v a w ord scope) := by
  intro h
  obtain ⟨h0, h1, h2, h3, h4, h5, h6⟩ := fields_7_5_5_4_1_2_3 _ _ _ _ _ _ _ (show Instr.code (.amoswp v a w ord scope) = _ from rfl)
  rw [decodeCode, h0]
  change decode10 _ = _
  rw [decode10, h1, h2, h3, h4, h5, h6]
  exact if_pos h

theorem cas32 (v : BitVec 5) (a : BitVec 5) (ord : BitVec 2) (scope : BitVec 3) : Statement (.cas32 v a ord scope) := by
  intro h
  obtain ⟨h0, h1, h2, h3, h4, h5, h6⟩ := fields_7_5_5_4_1_2_3 _ _ _ _ _ _ _ (show Instr.code (.cas32 v a ord scope) = _ from rfl)
  rw [decodeCode, h0]
  change decode11 _ = _
  rw [decode11, h1, h2, h3, h4, h5, h6]
  exact if_pos h

theorem cas64 (v : BitVec 5) (a : BitVec 5) (ord : BitVec 2) (scope : BitVec 3) : Statement (.cas64 v a ord scope) := by
  intro h
  obtain ⟨h0, h1, h2, h3, h4, h5, h6⟩ := fields_7_5_5_4_1_2_3 _ _ _ _ _ _ _ (show Instr.code (.cas64 v a ord scope) = _ from rfl)
  rw [decodeCode, h0]
  change decode11 _ = _
  rw [decode11, h1, h2, h3, h4, h5, h6]
  exact if_pos h

theorem amofadd (v : BitVec 5) (a : BitVec 5) (w : BitVec 1) (ord : BitVec 2) (scope : BitVec 3) : Statement (.amofadd v a w ord scope) := by
  intro h
  obtain ⟨h0, h1, h2, h3, h4, h5, h6⟩ := fields_7_5_5_4_1_2_3 _ _ _ _ _ _ _ (show Instr.code (.amofadd v a w ord scope) = _ from rfl)
  rw [decodeCode, h0]
  change decode12 _ = _
  rw [decode12, h1, h2, h3, h4, h5, h6]
  exact if_pos h

theorem amofmin (v : BitVec 5) (a : BitVec 5) (w : BitVec 1) (ord : BitVec 2) (scope : BitVec 3) : Statement (.amofmin v a w ord scope) := by
  intro h
  obtain ⟨h0, h1, h2, h3, h4, h5, h6⟩ := fields_7_5_5_4_1_2_3 _ _ _ _ _ _ _ (show Instr.code (.amofmin v a w ord scope) = _ from rfl)
  rw [decodeCode, h0]
  change decode12 _ = _
  rw [decode12, h1, h2, h3, h4, h5, h6]
  exact if_pos h

theorem amofmax (v : BitVec 5) (a : BitVec 5) (w : BitVec 1) (ord : BitVec 2) (scope : BitVec 3) : Statement (.amofmax v a w ord scope) := by
  intro h
  obtain ⟨h0, h1, h2, h3, h4, h5, h6⟩ := fields_7_5_5_4_1_2_3 _ _ _ _ _ _ _ (show Instr.code (.amofmax v a w ord scope) = _ from rfl)
  rw [decodeCode, h0]
  change decode12 _ = _
  rw [decode12, h1, h2, h3, h4, h5, h6]
  exact if_pos h

theorem cwb (a : BitVec 5) : Statement (.cwb a) := by
  intro h
  obtain ⟨h0, h1, h2, h3, h4, h5⟩ := fields_7_5_5_5_3_2 _ _ _ _ _ _ (show Instr.code (.cwb a) = _ from rfl)
  rw [decodeCode, h0]
  change decode13 _ = _
  rw [decode13, h1, h2, h3, h4, h5]
  exact if_pos h

theorem cinv (a : BitVec 5) : Statement (.cinv a) := by
  intro h
  obtain ⟨h0, h1, h2, h3, h4, h5⟩ := fields_7_5_5_5_3_2 _ _ _ _ _ _ (show Instr.code (.cinv a) = _ from rfl)
  rw [decodeCode, h0]
  change decode13 _ = _
  rw [decode13, h1, h2, h3, h4, h5]
  exact if_pos h

theorem cinvRc (a : BitVec 5) : Statement (.cinvRc a) := by
  intro h
  obtain ⟨h0, h1, h2, h3, h4, h5⟩ := fields_7_5_5_5_3_2 _ _ _ _ _ _ (show Instr.code (.cinvRc a) = _ from rfl)
  rw [decodeCode, h0]
  change decode13 _ = _
  rw [decode13, h1, h2, h3, h4, h5]
  exact if_pos h

theorem cinvD (a : BitVec 5) : Statement (.cinvD a) := by
  intro h
  obtain ⟨h0, h1, h2, h3, h4, h5⟩ := fields_7_5_5_5_3_2 _ _ _ _ _ _ (show Instr.code (.cinvD a) = _ from rfl)
  rw [decodeCode, h0]
  change decode13 _ = _
  rw [decode13, h1, h2, h3, h4, h5]
  exact if_pos h

theorem pref (a : BitVec 5) : Statement (.pref a) := by
  intro h
  obtain ⟨h0, h1, h2, h3, h4, h5⟩ := fields_7_5_5_5_3_2 _ _ _ _ _ _ (show Instr.code (.pref a) = _ from rfl)
  rw [decodeCode, h0]
  change decode13 _ = _
  rw [decode13, h1, h2, h3, h4, h5]
  exact if_pos h

theorem prefSc (a : BitVec 5) : Statement (.prefSc a) := by
  intro h
  obtain ⟨h0, h1, h2, h3, h4, h5⟩ := fields_7_5_5_5_3_2 _ _ _ _ _ _ (show Instr.code (.prefSc a) = _ from rfl)
  rw [decodeCode, h0]
  change decode13 _ = _
  rw [decode13, h1, h2, h3, h4, h5]
  exact if_pos h

theorem icinv (a : BitVec 5) : Statement (.icinv a) := by
  intro h
  obtain ⟨h0, h1, h2, h3, h4, h5⟩ := fields_7_5_5_5_3_2 _ _ _ _ _ _ (show Instr.code (.icinv a) = _ from rfl)
  rw [decodeCode, h0]
  change decode13 _ = _
  rw [decode13, h1, h2, h3, h4, h5]
  exact if_pos h

theorem enq (d : BitVec 5) (a : BitVec 5) (b : BitVec 5) : Statement (.enq d a b) := by
  intro h
  obtain ⟨h0, h1, h2, h3, h4, h5⟩ := fields_7_5_5_5_3_2 _ _ _ _ _ _ (show Instr.code (.enq d a b) = _ from rfl)
  rw [decodeCode, h0]
  change decode14 _ = _
  rw [decode14, h1, h2, h3, h4, h5]
  exact if_pos h

theorem enqt (d : BitVec 5) (a : BitVec 5) (b : BitVec 5) (mod : BitVec 2) : Statement (.enqt d a b mod) := by
  intro h
  obtain ⟨h0, h1, h2, h3, h4, h5⟩ := fields_7_5_5_5_3_2 _ _ _ _ _ _ (show Instr.code (.enqt d a b mod) = _ from rfl)
  rw [decodeCode, h0]
  change decode14 _ = _
  rw [decode14, h1, h2, h3, h4, h5]
  exact if_pos h

theorem deq (d : BitVec 5) (a : BitVec 5) (b : BitVec 5) : Statement (.deq d a b) := by
  intro h
  obtain ⟨h0, h1, h2, h3, h4, h5⟩ := fields_7_5_5_5_3_2 _ _ _ _ _ _ (show Instr.code (.deq d a b) = _ from rfl)
  rw [decodeCode, h0]
  change decode15 _ = _
  rw [decode15, h1, h2, h3, h4, h5]
  exact if_pos h

theorem deqt (d : BitVec 5) (a : BitVec 5) (b : BitVec 5) (mod : BitVec 2) : Statement (.deqt d a b mod) := by
  intro h
  obtain ⟨h0, h1, h2, h3, h4, h5⟩ := fields_7_5_5_5_3_2 _ _ _ _ _ _ (show Instr.code (.deqt d a b mod) = _ from rfl)
  rw [decodeCode, h0]
  change decode15 _ = _
  rw [decode15, h1, h2, h3, h4, h5]
  exact if_pos h

theorem qinit (d : BitVec 5) (a : BitVec 5) (b : BitVec 5) : Statement (.qinit d a b) := by
  intro h
  obtain ⟨h0, h1, h2, h3, h4, h5⟩ := fields_7_5_5_5_3_2 _ _ _ _ _ _ (show Instr.code (.qinit d a b) = _ from rfl)
  rw [decodeCode, h0]
  change decode16 _ = _
  rw [decode16, h1, h2, h3, h4, h5]
  exact if_pos h

theorem qstat (d : BitVec 5) (a : BitVec 5) (b : BitVec 5) : Statement (.qstat d a b) := by
  intro h
  obtain ⟨h0, h1, h2, h3, h4, h5⟩ := fields_7_5_5_5_3_2 _ _ _ _ _ _ (show Instr.code (.qstat d a b) = _ from rfl)
  rw [decodeCode, h0]
  change decode16 _ = _
  rw [decode16, h1, h2, h3, h4, h5]
  exact if_pos h

theorem qdrain (d : BitVec 5) (a : BitVec 5) : Statement (.qdrain d a) := by
  intro h
  obtain ⟨h0, h1, h2, h3, h4, h5⟩ := fields_7_5_5_5_3_2 _ _ _ _ _ _ (show Instr.code (.qdrain d a) = _ from rfl)
  rw [decodeCode, h0]
  change decode16 _ = _
  rw [decode16, h1, h2, h3, h4, h5]
  exact if_pos h

theorem qreset (d : BitVec 5) (a : BitVec 5) : Statement (.qreset d a) := by
  intro h
  obtain ⟨h0, h1, h2, h3, h4, h5⟩ := fields_7_5_5_5_3_2 _ _ _ _ _ _ (show Instr.code (.qreset d a) = _ from rfl)
  rw [decodeCode, h0]
  change decode16 _ = _
  rw [decode16, h1, h2, h3, h4, h5]
  exact if_pos h

theorem pinit (d : BitVec 5) (a : BitVec 5) (b : BitVec 5) : Statement (.pinit d a b) := by
  intro h
  obtain ⟨h0, h1, h2, h3, h4, h5⟩ := fields_7_5_5_5_3_2 _ _ _ _ _ _ (show Instr.code (.pinit d a b) = _ from rfl)
  rw [decodeCode, h0]
  change decode17 _ = _
  rw [decode17, h1, h2, h3, h4, h5]
  exact if_pos h

theorem pstat (d : BitVec 5) (a : BitVec 5) (b : BitVec 5) : Statement (.pstat d a b) := by
  intro h
  obtain ⟨h0, h1, h2, h3, h4, h5⟩ := fields_7_5_5_5_3_2 _ _ _ _ _ _ (show Instr.code (.pstat d a b) = _ from rfl)
  rw [decodeCode, h0]
  change decode17 _ = _
  rw [decode17, h1, h2, h3, h4, h5]
  exact if_pos h

theorem balloc (d : BitVec 5) (a : BitVec 5) : Statement (.balloc d a) := by
  intro h
  obtain ⟨h0, h1, h2, h3, h4, h5⟩ := fields_7_5_5_5_3_2 _ _ _ _ _ _ (show Instr.code (.balloc d a) = _ from rfl)
  rw [decodeCode, h0]
  change decode17 _ = _
  rw [decode17, h1, h2, h3, h4, h5]
  exact if_pos h

theorem bfree (d : BitVec 5) (a : BitVec 5) (b : BitVec 5) : Statement (.bfree d a b) := by
  intro h
  obtain ⟨h0, h1, h2, h3, h4, h5⟩ := fields_7_5_5_5_3_2 _ _ _ _ _ _ (show Instr.code (.bfree d a b) = _ from rfl)
  rw [decodeCode, h0]
  change decode17 _ = _
  rw [decode17, h1, h2, h3, h4, h5]
  exact if_pos h

theorem btapp (d : BitVec 5) (a : BitVec 5) : Statement (.btapp d a) := by
  intro h
  obtain ⟨h0, h1, h2, h3, h4, h5⟩ := fields_7_5_5_5_3_2 _ _ _ _ _ _ (show Instr.code (.btapp d a) = _ from rfl)
  rw [decodeCode, h0]
  change decode18 _ = _
  rw [decode18, h1, h2, h3, h4, h5]
  exact if_pos h

theorem btget (d : BitVec 5) (a : BitVec 5) (b : BitVec 5) : Statement (.btget d a b) := by
  intro h
  obtain ⟨h0, h1, h2, h3, h4, h5⟩ := fields_7_5_5_5_3_2 _ _ _ _ _ _ (show Instr.code (.btget d a b) = _ from rfl)
  rw [decodeCode, h0]
  change decode18 _ = _
  rw [decode18, h1, h2, h3, h4, h5]
  exact if_pos h

theorem btfork (d : BitVec 5) (a : BitVec 5) (b : BitVec 5) : Statement (.btfork d a b) := by
  intro h
  obtain ⟨h0, h1, h2, h3, h4, h5⟩ := fields_7_5_5_5_3_2 _ _ _ _ _ _ (show Instr.code (.btfork d a b) = _ from rfl)
  rw [decodeCode, h0]
  change decode18 _ = _
  rw [decode18, h1, h2, h3, h4, h5]
  exact if_pos h

theorem btrel (d : BitVec 5) (a : BitVec 5) : Statement (.btrel d a) := by
  intro h
  obtain ⟨h0, h1, h2, h3, h4, h5⟩ := fields_7_5_5_5_3_2 _ _ _ _ _ _ (show Instr.code (.btrel d a) = _ from rfl)
  rw [decodeCode, h0]
  change decode18 _ = _
  rw [decode18, h1, h2, h3, h4, h5]
  exact if_pos h

theorem send (d : BitVec 5) (a : BitVec 5) (b : BitVec 5) : Statement (.send d a b) := by
  intro h
  obtain ⟨h0, h1, h2, h3, h4, h5⟩ := fields_7_5_5_5_3_2 _ _ _ _ _ _ (show Instr.code (.send d a b) = _ from rfl)
  rw [decodeCode, h0]
  change decode19 _ = _
  rw [decode19, h1, h2, h3, h4, h5]
  exact if_pos h

theorem sendAck (d : BitVec 5) (a : BitVec 5) (b : BitVec 5) : Statement (.sendAck d a b) := by
  intro h
  obtain ⟨h0, h1, h2, h3, h4, h5⟩ := fields_7_5_5_5_3_2 _ _ _ _ _ _ (show Instr.code (.sendAck d a b) = _ from rfl)
  rw [decodeCode, h0]
  change decode19 _ = _
  rw [decode19, h1, h2, h3, h4, h5]
  exact if_pos h

theorem sendTrap (d : BitVec 5) (a : BitVec 5) (b : BitVec 5) : Statement (.sendTrap d a b) := by
  intro h
  obtain ⟨h0, h1, h2, h3, h4, h5⟩ := fields_7_5_5_5_3_2 _ _ _ _ _ _ (show Instr.code (.sendTrap d a b) = _ from rfl)
  rw [decodeCode, h0]
  change decode19 _ = _
  rw [decode19, h1, h2, h3, h4, h5]
  exact if_pos h

theorem sendv (d : BitVec 5) (a : BitVec 5) (b : BitVec 5) : Statement (.sendv d a b) := by
  intro h
  obtain ⟨h0, h1, h2, h3, h4, h5⟩ := fields_7_5_5_5_3_2 _ _ _ _ _ _ (show Instr.code (.sendv d a b) = _ from rfl)
  rw [decodeCode, h0]
  change decode19 _ = _
  rw [decode19, h1, h2, h3, h4, h5]
  exact if_pos h

theorem sendvAck (d : BitVec 5) (a : BitVec 5) (b : BitVec 5) : Statement (.sendvAck d a b) := by
  intro h
  obtain ⟨h0, h1, h2, h3, h4, h5⟩ := fields_7_5_5_5_3_2 _ _ _ _ _ _ (show Instr.code (.sendvAck d a b) = _ from rfl)
  rw [decodeCode, h0]
  change decode19 _ = _
  rw [decode19, h1, h2, h3, h4, h5]
  exact if_pos h

theorem sendvTrap (d : BitVec 5) (a : BitVec 5) (b : BitVec 5) : Statement (.sendvTrap d a b) := by
  intro h
  obtain ⟨h0, h1, h2, h3, h4, h5⟩ := fields_7_5_5_5_3_2 _ _ _ _ _ _ (show Instr.code (.sendvTrap d a b) = _ from rfl)
  rw [decodeCode, h0]
  change decode19 _ = _
  rw [decode19, h1, h2, h3, h4, h5]
  exact if_pos h

theorem recv (d : BitVec 5) (a : BitVec 5) (b : BitVec 5) : Statement (.recv d a b) := by
  intro h
  obtain ⟨h0, h1, h2, h3, h4, h5⟩ := fields_7_5_5_5_3_2 _ _ _ _ _ _ (show Instr.code (.recv d a b) = _ from rfl)
  rw [decodeCode, h0]
  change decode19 _ = _
  rw [decode19, h1, h2, h3, h4, h5]
  exact if_pos h

theorem recvt (d : BitVec 5) (a : BitVec 5) (b : BitVec 5) : Statement (.recvt d a b) := by
  intro h
  obtain ⟨h0, h1, h2, h3, h4, h5⟩ := fields_7_5_5_5_3_2 _ _ _ _ _ _ (show Instr.code (.recvt d a b) = _ from rfl)
  rw [decodeCode, h0]
  change decode19 _ = _
  rw [decode19, h1, h2, h3, h4, h5]
  exact if_pos h

theorem cpy (d : BitVec 5) (a : BitVec 5) (b : BitVec 5) : Statement (.cpy d a b) := by
  intro h
  obtain ⟨h0, h1, h2, h3, h4, h5⟩ := fields_7_5_5_5_3_2 _ _ _ _ _ _ (show Instr.code (.cpy d a b) = _ from rfl)
  rw [decodeCode, h0]
  change decode1A _ = _
  rw [decode1A, h1, h2, h3, h4, h5]
  exact if_pos h

theorem cpy2d (d : BitVec 5) (a : BitVec 5) : Statement (.cpy2d d a) := by
  intro h
  obtain ⟨h0, h1, h2, h3, h4, h5⟩ := fields_7_5_5_5_3_2 _ _ _ _ _ _ (show Instr.code (.cpy2d d a) = _ from rfl)
  rw [decodeCode, h0]
  change decode1A _ = _
  rw [decode1A, h1, h2, h3, h4, h5]
  exact if_pos h

theorem cpy2dSt (d : BitVec 5) (a : BitVec 5) : Statement (.cpy2dSt d a) := by
  intro h
  obtain ⟨h0, h1, h2, h3, h4, h5⟩ := fields_7_5_5_5_3_2 _ _ _ _ _ _ (show Instr.code (.cpy2dSt d a) = _ from rfl)
  rw [decodeCode, h0]
  change decode1A _ = _
  rw [decode1A, h1, h2, h3, h4, h5]
  exact if_pos h

theorem cpyg (d : BitVec 5) (a : BitVec 5) (b : BitVec 5) : Statement (.cpyg d a b) := by
  intro h
  obtain ⟨h0, h1, h2, h3, h4, h5⟩ := fields_7_5_5_5_3_2 _ _ _ _ _ _ (show Instr.code (.cpyg d a b) = _ from rfl)
  rw [decodeCode, h0]
  change decode1A _ = _
  rw [decode1A, h1, h2, h3, h4, h5]
  exact if_pos h

theorem cpys (d : BitVec 5) (a : BitVec 5) (b : BitVec 5) : Statement (.cpys d a b) := by
  intro h
  obtain ⟨h0, h1, h2, h3, h4, h5⟩ := fields_7_5_5_5_3_2 _ _ _ _ _ _ (show Instr.code (.cpys d a b) = _ from rfl)
  rw [decodeCode, h0]
  change decode1A _ = _
  rw [decode1A, h1, h2, h3, h4, h5]
  exact if_pos h

theorem cpyh (d : BitVec 5) (a : BitVec 5) (b : BitVec 5) : Statement (.cpyh d a b) := by
  intro h
  obtain ⟨h0, h1, h2, h3, h4, h5⟩ := fields_7_5_5_5_3_2 _ _ _ _ _ _ (show Instr.code (.cpyh d a b) = _ from rfl)
  rw [decodeCode, h0]
  change decode1A _ = _
  rw [decode1A, h1, h2, h3, h4, h5]
  exact if_pos h

theorem cpyq (d : BitVec 5) (a : BitVec 5) (b : BitVec 5) : Statement (.cpyq d a b) := by
  intro h
  obtain ⟨h0, h1, h2, h3, h4, h5⟩ := fields_7_5_5_5_3_2 _ _ _ _ _ _ (show Instr.code (.cpyq d a b) = _ from rfl)
  rw [decodeCode, h0]
  change decode1A _ = _
  rw [decode1A, h1, h2, h3, h4, h5]
  exact if_pos h

theorem strm (d : BitVec 5) (a : BitVec 5) : Statement (.strm d a) := by
  intro h
  obtain ⟨h0, h1, h2, h3, h4, h5⟩ := fields_7_5_5_5_3_2 _ _ _ _ _ _ (show Instr.code (.strm d a) = _ from rfl)
  rw [decodeCode, h0]
  change decode1B _ = _
  rw [decode1B, h1, h2, h3, h4, h5]
  exact if_pos h

theorem strmW (d : BitVec 5) (a : BitVec 5) : Statement (.strmW d a) := by
  intro h
  obtain ⟨h0, h1, h2, h3, h4, h5⟩ := fields_7_5_5_5_3_2 _ _ _ _ _ _ (show Instr.code (.strmW d a) = _ from rfl)
  rw [decodeCode, h0]
  change decode1B _ = _
  rw [decode1B, h1, h2, h3, h4, h5]
  exact if_pos h

theorem strmx (d : BitVec 5) : Statement (.strmx d) := by
  intro h
  obtain ⟨h0, h1, h2, h3, h4, h5⟩ := fields_7_5_5_5_3_2 _ _ _ _ _ _ (show Instr.code (.strmx d) = _ from rfl)
  rw [decodeCode, h0]
  change decode1B _ = _
  rw [decode1B, h1, h2, h3, h4, h5]
  exact if_pos h

theorem xsend (a : BitVec 5) : Statement (.xsend a) := by
  intro h
  obtain ⟨h0, h1, h2, h3, h4, h5⟩ := fields_7_5_5_5_3_2 _ _ _ _ _ _ (show Instr.code (.xsend a) = _ from rfl)
  rw [decodeCode, h0]
  change decode1C _ = _
  rw [decode1C, h1, h2, h3, h4, h5]
  exact if_pos h

theorem xrecv (a : BitVec 5) : Statement (.xrecv a) := by
  intro h
  obtain ⟨h0, h1, h2, h3, h4, h5⟩ := fields_7_5_5_5_3_2 _ _ _ _ _ _ (show Instr.code (.xrecv a) = _ from rfl)
  rw [decodeCode, h0]
  change decode1C _ = _
  rw [decode1C, h1, h2, h3, h4, h5]
  exact if_pos h

theorem xphase (d : BitVec 5) (a : BitVec 5) : Statement (.xphase d a) := by
  intro h
  obtain ⟨h0, h1, h2, h3, h4, h5⟩ := fields_7_5_5_5_3_2 _ _ _ _ _ _ (show Instr.code (.xphase d a) = _ from rfl)
  rw [decodeCode, h0]
  change decode1C _ = _
  rw [decode1C, h1, h2, h3, h4, h5]
  exact if_pos h

theorem sstep (d : BitVec 5) : Statement (.sstep d) := by
  intro h
  obtain ⟨h0, h1, h2, h3, h4, h5⟩ := fields_7_5_5_5_3_2 _ _ _ _ _ _ (show Instr.code (.sstep d) = _ from rfl)
  rw [decodeCode, h0]
  change decode1C _ = _
  rw [decode1C, h1, h2, h3, h4, h5]
  exact if_pos h

theorem gjoin (d : BitVec 5) (a : BitVec 5) : Statement (.gjoin d a) := by
  intro h
  obtain ⟨h0, h1, h2, h3, h4, h5⟩ := fields_7_5_5_5_3_2 _ _ _ _ _ _ (show Instr.code (.gjoin d a) = _ from rfl)
  rw [decodeCode, h0]
  change decode1D _ = _
  rw [decode1D, h1, h2, h3, h4, h5]
  exact if_pos h

theorem gleave (d : BitVec 5) : Statement (.gleave d) := by
  intro h
  obtain ⟨h0, h1, h2, h3, h4, h5⟩ := fields_7_5_5_5_3_2 _ _ _ _ _ _ (show Instr.code (.gleave d) = _ from rfl)
  rw [decodeCode, h0]
  change decode1D _ = _
  rw [decode1D, h1, h2, h3, h4, h5]
  exact if_pos h

theorem gbar (d : BitVec 5) : Statement (.gbar d) := by
  intro h
  obtain ⟨h0, h1, h2, h3, h4, h5⟩ := fields_7_5_5_5_3_2 _ _ _ _ _ _ (show Instr.code (.gbar d) = _ from rfl)
  rw [decodeCode, h0]
  change decode1D _ = _
  rw [decode1D, h1, h2, h3, h4, h5]
  exact if_pos h

theorem garr (d : BitVec 5) : Statement (.garr d) := by
  intro h
  obtain ⟨h0, h1, h2, h3, h4, h5⟩ := fields_7_5_5_5_3_2 _ _ _ _ _ _ (show Instr.code (.garr d) = _ from rfl)
  rw [decodeCode, h0]
  change decode1D _ = _
  rw [decode1D, h1, h2, h3, h4, h5]
  exact if_pos h

theorem gwait (a : BitVec 5) : Statement (.gwait a) := by
  intro h
  obtain ⟨h0, h1, h2, h3, h4, h5⟩ := fields_7_5_5_5_3_2 _ _ _ _ _ _ (show Instr.code (.gwait a) = _ from rfl)
  rw [decodeCode, h0]
  change decode1D _ = _
  rw [decode1D, h1, h2, h3, h4, h5]
  exact if_pos h

theorem spawn (d : BitVec 5) (a : BitVec 5) (b : BitVec 5) : Statement (.spawn d a b) := by
  intro h
  obtain ⟨h0, h1, h2, h3, h4, h5⟩ := fields_7_5_5_5_3_2 _ _ _ _ _ _ (show Instr.code (.spawn d a b) = _ from rfl)
  rw [decodeCode, h0]
  change decode1E _ = _
  rw [decode1E, h1, h2, h3, h4, h5]
  exact if_pos h

theorem migr (a : BitVec 5) : Statement (.migr a) := by
  intro h
  obtain ⟨h0, h1, h2, h3, h4, h5⟩ := fields_7_5_5_5_3_2 _ _ _ _ _ _ (show Instr.code (.migr a) = _ from rfl)
  rw [decodeCode, h0]
  change decode1E _ = _
  rw [decode1E, h1, h2, h3, h4, h5]
  exact if_pos h

theorem migrLd (d : BitVec 5) (a : BitVec 5) : Statement (.migrLd d a) := by
  intro h
  obtain ⟨h0, h1, h2, h3, h4, h5⟩ := fields_7_5_5_5_3_2 _ _ _ _ _ _ (show Instr.code (.migrLd d a) = _ from rfl)
  rw [decodeCode, h0]
  change decode1E _ = _
  rw [decode1E, h1, h2, h3, h4, h5]
  exact if_pos h

theorem tgrow (d : BitVec 5) (a : BitVec 5) : Statement (.tgrow d a) := by
  intro h
  obtain ⟨h0, h1, h2, h3, h4, h5⟩ := fields_7_5_5_5_3_2 _ _ _ _ _ _ (show Instr.code (.tgrow d a) = _ from rfl)
  rw [decodeCode, h0]
  change decode1F _ = _
  rw [decode1F, h1, h2, h3, h4, h5]
  exact if_pos h

theorem tidx (d : BitVec 5) : Statement (.tidx d) := by
  intro h
  obtain ⟨h0, h1, h2, h3, h4, h5⟩ := fields_7_5_5_5_3_2 _ _ _ _ _ _ (show Instr.code (.tidx d) = _ from rfl)
  rw [decodeCode, h0]
  change decode1F _ = _
  rw [decode1F, h1, h2, h3, h4, h5]
  exact if_pos h

theorem tidxNx (d : BitVec 5) : Statement (.tidxNx d) := by
  intro h
  obtain ⟨h0, h1, h2, h3, h4, h5⟩ := fields_7_5_5_5_3_2 _ _ _ _ _ _ (show Instr.code (.tidxNx d) = _ from rfl)
  rw [decodeCode, h0]
  change decode1F _ = _
  rw [decode1F, h1, h2, h3, h4, h5]
  exact if_pos h

theorem probe (d : BitVec 5) (a : BitVec 5) (b : BitVec 5) : Statement (.probe d a b) := by
  intro h
  obtain ⟨h0, h1, h2, h3, h4, h5⟩ := fields_7_5_5_5_3_2 _ _ _ _ _ _ (show Instr.code (.probe d a b) = _ from rfl)
  rw [decodeCode, h0]
  change decode1F _ = _
  rw [decode1F, h1, h2, h3, h4, h5]
  exact if_pos h

theorem xmpub (d : BitVec 5) (a : BitVec 5) (b : BitVec 5) : Statement (.xmpub d a b) := by
  intro h
  obtain ⟨h0, h1, h2, h3, h4, h5⟩ := fields_7_5_5_5_3_2 _ _ _ _ _ _ (show Instr.code (.xmpub d a b) = _ from rfl)
  rw [decodeCode, h0]
  change decode20 _ = _
  rw [decode20, h1, h2, h3, h4, h5]
  exact if_pos h

theorem xmrd (d : BitVec 5) (a : BitVec 5) (b : BitVec 5) : Statement (.xmrd d a b) := by
  intro h
  obtain ⟨h0, h1, h2, h3, h4, h5⟩ := fields_7_5_5_5_3_2 _ _ _ _ _ _ (show Instr.code (.xmrd d a b) = _ from rfl)
  rw [decodeCode, h0]
  change decode20 _ = _
  rw [decode20, h1, h2, h3, h4, h5]
  exact if_pos h

theorem xmrdt (d : BitVec 5) (a : BitVec 5) (b : BitVec 5) : Statement (.xmrdt d a b) := by
  intro h
  obtain ⟨h0, h1, h2, h3, h4, h5⟩ := fields_7_5_5_5_3_2 _ _ _ _ _ _ (show Instr.code (.xmrdt d a b) = _ from rfl)
  rw [decodeCode, h0]
  change decode20 _ = _
  rw [decode20, h1, h2, h3, h4, h5]
  exact if_pos h

theorem stake (d : BitVec 5) (a : BitVec 5) (b : BitVec 5) : Statement (.stake d a b) := by
  intro h
  obtain ⟨h0, h1, h2, h3, h4, h5⟩ := fields_7_5_5_5_3_2 _ _ _ _ _ _ (show Instr.code (.stake d a b) = _ from rfl)
  rw [decodeCode, h0]
  change decode21 _ = _
  rw [decode21, h1, h2, h3, h4, h5]
  exact if_pos h

theorem unstake (d : BitVec 5) (a : BitVec 5) : Statement (.unstake d a) := by
  intro h
  obtain ⟨h0, h1, h2, h3, h4, h5⟩ := fields_7_5_5_5_3_2 _ _ _ _ _ _ (show Instr.code (.unstake d a) = _ from rfl)
  rw [decodeCode, h0]
  change decode21 _ = _
  rw [decode21, h1, h2, h3, h4, h5]
  exact if_pos h

theorem lvinit (d : BitVec 5) (a : BitVec 5) (b : BitVec 5) : Statement (.lvinit d a b) := by
  intro h
  obtain ⟨h0, h1, h2, h3, h4, h5⟩ := fields_7_5_5_5_3_2 _ _ _ _ _ _ (show Instr.code (.lvinit d a b) = _ from rfl)
  rw [decodeCode, h0]
  change decode22 _ = _
  rw [decode22, h1, h2, h3, h4, h5]
  exact if_pos h

theorem lvinv (d : BitVec 5) (a : BitVec 5) : Statement (.lvinv d a) := by
  intro h
  obtain ⟨h0, h1, h2, h3, h4, h5⟩ := fields_7_5_5_5_3_2 _ _ _ _ _ _ (show Instr.code (.lvinv d a) = _ from rfl)
  rw [decodeCode, h0]
  change decode22 _ = _
  rw [decode22, h1, h2, h3, h4, h5]
  exact if_pos h

theorem lvstat (d : BitVec 5) (a : BitVec 5) (b : BitVec 5) : Statement (.lvstat d a b) := by
  intro h
  obtain ⟨h0, h1, h2, h3, h4, h5⟩ := fields_7_5_5_5_3_2 _ _ _ _ _ _ (show Instr.code (.lvstat d a b) = _ from rfl)
  rw [decodeCode, h0]
  change decode22 _ = _
  rw [decode22, h1, h2, h3, h4, h5]
  exact if_pos h

theorem wreg (d : BitVec 5) (a : BitVec 5) (b : BitVec 5) : Statement (.wreg d a b) := by
  intro h
  obtain ⟨h0, h1, h2, h3, h4, h5⟩ := fields_7_5_5_5_3_2 _ _ _ _ _ _ (show Instr.code (.wreg d a b) = _ from rfl)
  rw [decodeCode, h0]
  change decode23 _ = _
  rw [decode23, h1, h2, h3, h4, h5]
  exact if_pos h

theorem wunreg (d : BitVec 5) (a : BitVec 5) : Statement (.wunreg d a) := by
  intro h
  obtain ⟨h0, h1, h2, h3, h4, h5⟩ := fields_7_5_5_5_3_2 _ _ _ _ _ _ (show Instr.code (.wunreg d a) = _ from rfl)
  rw [decodeCode, h0]
  change decode23 _ = _
  rw [decode23, h1, h2, h3, h4, h5]
  exact if_pos h

theorem ssrex (d : BitVec 5) (a : BitVec 5) (b : BitVec 5) : Statement (.ssrex d a b) := by
  intro h
  obtain ⟨h0, h1, h2, h3, h4, h5⟩ := fields_7_5_5_5_3_2 _ _ _ _ _ _ (show Instr.code (.ssrex d a b) = _ from rfl)
  rw [decodeCode, h0]
  change decode24 _ = _
  rw [decode24, h1, h2, h3, h4, h5]
  exact if_pos h

theorem ssrim (d : BitVec 5) (a : BitVec 5) (b : BitVec 5) : Statement (.ssrim d a b) := by
  intro h
  obtain ⟨h0, h1, h2, h3, h4, h5⟩ := fields_7_5_5_5_3_2 _ _ _ _ _ _ (show Instr.code (.ssrim d a b) = _ from rfl)
  rw [decodeCode, h0]
  change decode24 _ = _
  rw [decode24, h1, h2, h3, h4, h5]
  exact if_pos h

theorem csrr (d : BitVec 5) (csr : BitVec 12) : Statement (.csrr d csr) := by
  intro h
  obtain ⟨h0, h1, h2, h3, h4⟩ := fields_7_5_2_1_12 _ _ _ _ _ (show Instr.code (.csrr d csr) = _ from rfl)
  rw [decodeCode, h0]
  change decode25 _ = _
  rw [decode25, h1, h2, h3, h4]
  exact if_pos h

theorem csrw (d : BitVec 5) (csr : BitVec 12) : Statement (.csrw d csr) := by
  intro h
  obtain ⟨h0, h1, h2, h3, h4⟩ := fields_7_5_2_1_12 _ _ _ _ _ (show Instr.code (.csrw d csr) = _ from rfl)
  rw [decodeCode, h0]
  change decode25 _ = _
  rw [decode25, h1, h2, h3, h4]
  exact if_pos h

theorem csrs (d : BitVec 5) (csr : BitVec 12) : Statement (.csrs d csr) := by
  intro h
  obtain ⟨h0, h1, h2, h3, h4⟩ := fields_7_5_2_1_12 _ _ _ _ _ (show Instr.code (.csrs d csr) = _ from rfl)
  rw [decodeCode, h0]
  change decode25 _ = _
  rw [decode25, h1, h2, h3, h4]
  exact if_pos h

theorem csrc (d : BitVec 5) (csr : BitVec 12) : Statement (.csrc d csr) := by
  intro h
  obtain ⟨h0, h1, h2, h3, h4⟩ := fields_7_5_2_1_12 _ _ _ _ _ (show Instr.code (.csrc d csr) = _ from rfl)
  rw [decodeCode, h0]
  change decode25 _ = _
  rw [decode25, h1, h2, h3, h4]
  exact if_pos h

theorem trap (a : BitVec 5) : Statement (.trap a) := by
  intro h
  obtain ⟨h0, h1, h2, h3, h4, h5⟩ := fields_7_5_5_5_3_2 _ _ _ _ _ _ (show Instr.code (.trap a) = _ from rfl)
  rw [decodeCode, h0]
  change decode26 _ = _
  rw [decode26, h1, h2, h3, h4, h5]
  exact if_pos h

theorem trapBrk (a : BitVec 5) : Statement (.trapBrk a) := by
  intro h
  obtain ⟨h0, h1, h2, h3, h4, h5⟩ := fields_7_5_5_5_3_2 _ _ _ _ _ _ (show Instr.code (.trapBrk a) = _ from rfl)
  rw [decodeCode, h0]
  change decode26 _ = _
  rw [decode26, h1, h2, h3, h4, h5]
  exact if_pos h

theorem time (d : BitVec 5) : Statement (.time d) := by
  intro h
  obtain ⟨h0, h1, h2, h3, h4, h5⟩ := fields_7_5_5_5_3_2 _ _ _ _ _ _ (show Instr.code (.time d) = _ from rfl)
  rw [decodeCode, h0]
  change decode27 _ = _
  rw [decode27, h1, h2, h3, h4, h5]
  exact if_pos h

theorem talarm (d : BitVec 5) (a : BitVec 5) (b : BitVec 5) : Statement (.talarm d a b) := by
  intro h
  obtain ⟨h0, h1, h2, h3, h4, h5⟩ := fields_7_5_5_5_3_2 _ _ _ _ _ _ (show Instr.code (.talarm d a b) = _ from rfl)
  rw [decodeCode, h0]
  change decode27 _ = _
  rw [decode27, h1, h2, h3, h4, h5]
  exact if_pos h

theorem add (d : BitVec 5) (a : BitVec 5) (b : BitVec 5) : Statement (.add d a b) := by
  intro h
  obtain ⟨h0, h1, h2, h3, h4⟩ := fields_7_5_5_5_5 _ _ _ _ _ (show Instr.code (.add d a b) = _ from rfl)
  rw [decodeCode, h0]
  change decode40 _ = _
  rw [decode40, h1, h2, h3, h4]
  exact if_pos h

theorem sub (d : BitVec 5) (a : BitVec 5) (b : BitVec 5) : Statement (.sub d a b) := by
  intro h
  obtain ⟨h0, h1, h2, h3, h4⟩ := fields_7_5_5_5_5 _ _ _ _ _ (show Instr.code (.sub d a b) = _ from rfl)
  rw [decodeCode, h0]
  change decode40 _ = _
  rw [decode40, h1, h2, h3, h4]
  exact if_pos h

theorem and (d : BitVec 5) (a : BitVec 5) (b : BitVec 5) : Statement (.and d a b) := by
  intro h
  obtain ⟨h0, h1, h2, h3, h4⟩ := fields_7_5_5_5_5 _ _ _ _ _ (show Instr.code (.and d a b) = _ from rfl)
  rw [decodeCode, h0]
  change decode40 _ = _
  rw [decode40, h1, h2, h3, h4]
  exact if_pos h

theorem or (d : BitVec 5) (a : BitVec 5) (b : BitVec 5) : Statement (.or d a b) := by
  intro h
  obtain ⟨h0, h1, h2, h3, h4⟩ := fields_7_5_5_5_5 _ _ _ _ _ (show Instr.code (.or d a b) = _ from rfl)
  rw [decodeCode, h0]
  change decode40 _ = _
  rw [decode40, h1, h2, h3, h4]
  exact if_pos h

theorem xor (d : BitVec 5) (a : BitVec 5) (b : BitVec 5) : Statement (.xor d a b) := by
  intro h
  obtain ⟨h0, h1, h2, h3, h4⟩ := fields_7_5_5_5_5 _ _ _ _ _ (show Instr.code (.xor d a b) = _ from rfl)
  rw [decodeCode, h0]
  change decode40 _ = _
  rw [decode40, h1, h2, h3, h4]
  exact if_pos h

theorem sll (d : BitVec 5) (a : BitVec 5) (b : BitVec 5) : Statement (.sll d a b) := by
  intro h
  obtain ⟨h0, h1, h2, h3, h4⟩ := fields_7_5_5_5_5 _ _ _ _ _ (show Instr.code (.sll d a b) = _ from rfl)
  rw [decodeCode, h0]
  change decode40 _ = _
  rw [decode40, h1, h2, h3, h4]
  exact if_pos h

theorem srl (d : BitVec 5) (a : BitVec 5) (b : BitVec 5) : Statement (.srl d a b) := by
  intro h
  obtain ⟨h0, h1, h2, h3, h4⟩ := fields_7_5_5_5_5 _ _ _ _ _ (show Instr.code (.srl d a b) = _ from rfl)
  rw [decodeCode, h0]
  change decode40 _ = _
  rw [decode40, h1, h2, h3, h4]
  exact if_pos h

theorem sra (d : BitVec 5) (a : BitVec 5) (b : BitVec 5) : Statement (.sra d a b) := by
  intro h
  obtain ⟨h0, h1, h2, h3, h4⟩ := fields_7_5_5_5_5 _ _ _ _ _ (show Instr.code (.sra d a b) = _ from rfl)
  rw [decodeCode, h0]
  change decode40 _ = _
  rw [decode40, h1, h2, h3, h4]
  exact if_pos h

theorem slt (d : BitVec 5) (a : BitVec 5) (b : BitVec 5) : Statement (.slt d a b) := by
  intro h
  obtain ⟨h0, h1, h2, h3, h4⟩ := fields_7_5_5_5_5 _ _ _ _ _ (show Instr.code (.slt d a b) = _ from rfl)
  rw [decodeCode, h0]
  change decode40 _ = _
  rw [decode40, h1, h2, h3, h4]
  exact if_pos h

theorem sltu (d : BitVec 5) (a : BitVec 5) (b : BitVec 5) : Statement (.sltu d a b) := by
  intro h
  obtain ⟨h0, h1, h2, h3, h4⟩ := fields_7_5_5_5_5 _ _ _ _ _ (show Instr.code (.sltu d a b) = _ from rfl)
  rw [decodeCode, h0]
  change decode40 _ = _
  rw [decode40, h1, h2, h3, h4]
  exact if_pos h

theorem min (d : BitVec 5) (a : BitVec 5) (b : BitVec 5) : Statement (.min d a b) := by
  intro h
  obtain ⟨h0, h1, h2, h3, h4⟩ := fields_7_5_5_5_5 _ _ _ _ _ (show Instr.code (.min d a b) = _ from rfl)
  rw [decodeCode, h0]
  change decode40 _ = _
  rw [decode40, h1, h2, h3, h4]
  exact if_pos h

theorem max (d : BitVec 5) (a : BitVec 5) (b : BitVec 5) : Statement (.max d a b) := by
  intro h
  obtain ⟨h0, h1, h2, h3, h4⟩ := fields_7_5_5_5_5 _ _ _ _ _ (show Instr.code (.max d a b) = _ from rfl)
  rw [decodeCode, h0]
  change decode40 _ = _
  rw [decode40, h1, h2, h3, h4]
  exact if_pos h

theorem minu (d : BitVec 5) (a : BitVec 5) (b : BitVec 5) : Statement (.minu d a b) := by
  intro h
  obtain ⟨h0, h1, h2, h3, h4⟩ := fields_7_5_5_5_5 _ _ _ _ _ (show Instr.code (.minu d a b) = _ from rfl)
  rw [decodeCode, h0]
  change decode40 _ = _
  rw [decode40, h1, h2, h3, h4]
  exact if_pos h

theorem maxu (d : BitVec 5) (a : BitVec 5) (b : BitVec 5) : Statement (.maxu d a b) := by
  intro h
  obtain ⟨h0, h1, h2, h3, h4⟩ := fields_7_5_5_5_5 _ _ _ _ _ (show Instr.code (.maxu d a b) = _ from rfl)
  rw [decodeCode, h0]
  change decode40 _ = _
  rw [decode40, h1, h2, h3, h4]
  exact if_pos h

theorem addi (d : BitVec 5) (a : BitVec 5) (imm : BitVec 7) : Statement (.addi d a imm) := by
  intro h
  obtain ⟨h0, h1, h2, h3, h4⟩ := fields_7_5_5_3_7 _ _ _ _ _ (show Instr.code (.addi d a imm) = _ from rfl)
  rw [decodeCode, h0]
  change decode41 _ = _
  rw [decode41, h1, h2, h3, h4]
  exact if_pos h

theorem andi (d : BitVec 5) (a : BitVec 5) (imm : BitVec 7) : Statement (.andi d a imm) := by
  intro h
  obtain ⟨h0, h1, h2, h3, h4⟩ := fields_7_5_5_3_7 _ _ _ _ _ (show Instr.code (.andi d a imm) = _ from rfl)
  rw [decodeCode, h0]
  change decode41 _ = _
  rw [decode41, h1, h2, h3, h4]
  exact if_pos h

theorem ori (d : BitVec 5) (a : BitVec 5) (imm : BitVec 7) : Statement (.ori d a imm) := by
  intro h
  obtain ⟨h0, h1, h2, h3, h4⟩ := fields_7_5_5_3_7 _ _ _ _ _ (show Instr.code (.ori d a imm) = _ from rfl)
  rw [decodeCode, h0]
  change decode41 _ = _
  rw [decode41, h1, h2, h3, h4]
  exact if_pos h

theorem xori (d : BitVec 5) (a : BitVec 5) (imm : BitVec 7) : Statement (.xori d a imm) := by
  intro h
  obtain ⟨h0, h1, h2, h3, h4⟩ := fields_7_5_5_3_7 _ _ _ _ _ (show Instr.code (.xori d a imm) = _ from rfl)
  rw [decodeCode, h0]
  change decode41 _ = _
  rw [decode41, h1, h2, h3, h4]
  exact if_pos h

theorem slli (d : BitVec 5) (a : BitVec 5) (imm : BitVec 6) : Statement (.slli d a imm) := by
  intro h
  obtain ⟨h0, h1, h2, h3, h4, h5⟩ := fields_7_5_5_3_1_6 _ _ _ _ _ _ (show Instr.code (.slli d a imm) = _ from rfl)
  rw [decodeCode, h0]
  change decode41 _ = _
  rw [decode41, h1, h2, h3, h4, h5]
  exact if_pos h

theorem srli (d : BitVec 5) (a : BitVec 5) (imm : BitVec 6) : Statement (.srli d a imm) := by
  intro h
  obtain ⟨h0, h1, h2, h3, h4, h5⟩ := fields_7_5_5_3_1_6 _ _ _ _ _ _ (show Instr.code (.srli d a imm) = _ from rfl)
  rw [decodeCode, h0]
  change decode41 _ = _
  rw [decode41, h1, h2, h3, h4, h5]
  exact if_pos h

theorem srai (d : BitVec 5) (a : BitVec 5) (imm : BitVec 6) : Statement (.srai d a imm) := by
  intro h
  obtain ⟨h0, h1, h2, h3, h4, h5⟩ := fields_7_5_5_3_1_6 _ _ _ _ _ _ (show Instr.code (.srai d a imm) = _ from rfl)
  rw [decodeCode, h0]
  change decode41 _ = _
  rw [decode41, h1, h2, h3, h4, h5]
  exact if_pos h

theorem slti (d : BitVec 5) (a : BitVec 5) (imm : BitVec 7) : Statement (.slti d a imm) := by
  intro h
  obtain ⟨h0, h1, h2, h3, h4⟩ := fields_7_5_5_3_7 _ _ _ _ _ (show Instr.code (.slti d a imm) = _ from rfl)
  rw [decodeCode, h0]
  change decode41 _ = _
  rw [decode41, h1, h2, h3, h4]
  exact if_pos h

theorem mul (d : BitVec 5) (a : BitVec 5) (b : BitVec 5) : Statement (.mul d a b) := by
  intro h
  obtain ⟨h0, h1, h2, h3, h4⟩ := fields_7_5_5_5_5 _ _ _ _ _ (show Instr.code (.mul d a b) = _ from rfl)
  rw [decodeCode, h0]
  change decode42 _ = _
  rw [decode42, h1, h2, h3, h4]
  exact if_pos h

theorem mulh (d : BitVec 5) (a : BitVec 5) (b : BitVec 5) : Statement (.mulh d a b) := by
  intro h
  obtain ⟨h0, h1, h2, h3, h4⟩ := fields_7_5_5_5_5 _ _ _ _ _ (show Instr.code (.mulh d a b) = _ from rfl)
  rw [decodeCode, h0]
  change decode42 _ = _
  rw [decode42, h1, h2, h3, h4]
  exact if_pos h

theorem mulhu (d : BitVec 5) (a : BitVec 5) (b : BitVec 5) : Statement (.mulhu d a b) := by
  intro h
  obtain ⟨h0, h1, h2, h3, h4⟩ := fields_7_5_5_5_5 _ _ _ _ _ (show Instr.code (.mulhu d a b) = _ from rfl)
  rw [decodeCode, h0]
  change decode42 _ = _
  rw [decode42, h1, h2, h3, h4]
  exact if_pos h

theorem div (d : BitVec 5) (a : BitVec 5) (b : BitVec 5) : Statement (.div d a b) := by
  intro h
  obtain ⟨h0, h1, h2, h3, h4⟩ := fields_7_5_5_5_5 _ _ _ _ _ (show Instr.code (.div d a b) = _ from rfl)
  rw [decodeCode, h0]
  change decode42 _ = _
  rw [decode42, h1, h2, h3, h4]
  exact if_pos h

theorem divu (d : BitVec 5) (a : BitVec 5) (b : BitVec 5) : Statement (.divu d a b) := by
  intro h
  obtain ⟨h0, h1, h2, h3, h4⟩ := fields_7_5_5_5_5 _ _ _ _ _ (show Instr.code (.divu d a b) = _ from rfl)
  rw [decodeCode, h0]
  change decode42 _ = _
  rw [decode42, h1, h2, h3, h4]
  exact if_pos h

theorem rem (d : BitVec 5) (a : BitVec 5) (b : BitVec 5) : Statement (.rem d a b) := by
  intro h
  obtain ⟨h0, h1, h2, h3, h4⟩ := fields_7_5_5_5_5 _ _ _ _ _ (show Instr.code (.rem d a b) = _ from rfl)
  rw [decodeCode, h0]
  change decode42 _ = _
  rw [decode42, h1, h2, h3, h4]
  exact if_pos h

theorem remu (d : BitVec 5) (a : BitVec 5) (b : BitVec 5) : Statement (.remu d a b) := by
  intro h
  obtain ⟨h0, h1, h2, h3, h4⟩ := fields_7_5_5_5_5 _ _ _ _ _ (show Instr.code (.remu d a b) = _ from rfl)
  rw [decodeCode, h0]
  change decode42 _ = _
  rw [decode42, h1, h2, h3, h4]
  exact if_pos h

theorem lui (d : BitVec 5) (imm : BitVec 15) : Statement (.lui d imm) := by
  intro h
  obtain ⟨h0, h1, h2⟩ := fields_7_5_15 _ _ _ (show Instr.code (.lui d imm) = _ from rfl)
  rw [decodeCode, h0]
  change decode43 _ = _
  rw [decode43, h1, h2]
  exact if_pos h

theorem addpc (d : BitVec 5) (imm : BitVec 15) : Statement (.addpc d imm) := by
  intro h
  obtain ⟨h0, h1, h2⟩ := fields_7_5_15 _ _ _ (show Instr.code (.addpc d imm) = _ from rfl)
  rw [decodeCode, h0]
  change decode44 _ = _
  rw [decode44, h1, h2]
  exact if_pos h

theorem clz (d : BitVec 5) (a : BitVec 5) : Statement (.clz d a) := by
  intro h
  obtain ⟨h0, h1, h2, h3, h4⟩ := fields_7_5_5_5_5 _ _ _ _ _ (show Instr.code (.clz d a) = _ from rfl)
  rw [decodeCode, h0]
  change decode45 _ = _
  rw [decode45, h1, h2, h3, h4]
  exact if_pos h

theorem ctz (d : BitVec 5) (a : BitVec 5) : Statement (.ctz d a) := by
  intro h
  obtain ⟨h0, h1, h2, h3, h4⟩ := fields_7_5_5_5_5 _ _ _ _ _ (show Instr.code (.ctz d a) = _ from rfl)
  rw [decodeCode, h0]
  change decode45 _ = _
  rw [decode45, h1, h2, h3, h4]
  exact if_pos h

theorem popc (d : BitVec 5) (a : BitVec 5) : Statement (.popc d a) := by
  intro h
  obtain ⟨h0, h1, h2, h3, h4⟩ := fields_7_5_5_5_5 _ _ _ _ _ (show Instr.code (.popc d a) = _ from rfl)
  rw [decodeCode, h0]
  change decode45 _ = _
  rw [decode45, h1, h2, h3, h4]
  exact if_pos h

theorem bswap (d : BitVec 5) (a : BitVec 5) : Statement (.bswap d a) := by
  intro h
  obtain ⟨h0, h1, h2, h3, h4⟩ := fields_7_5_5_5_5 _ _ _ _ _ (show Instr.code (.bswap d a) = _ from rfl)
  rw [decodeCode, h0]
  change decode45 _ = _
  rw [decode45, h1, h2, h3, h4]
  exact if_pos h

theorem peq (d : BitVec 5) (a : BitVec 5) (b : BitVec 5) : Statement (.peq d a b) := by
  intro h
  obtain ⟨h0, h1, h2, h3, h4⟩ := fields_7_5_5_5_5 _ _ _ _ _ (show Instr.code (.peq d a b) = _ from rfl)
  rw [decodeCode, h0]
  change decode46 _ = _
  rw [decode46, h1, h2, h3, h4]
  exact if_pos h

theorem pne (d : BitVec 5) (a : BitVec 5) (b : BitVec 5) : Statement (.pne d a b) := by
  intro h
  obtain ⟨h0, h1, h2, h3, h4⟩ := fields_7_5_5_5_5 _ _ _ _ _ (show Instr.code (.pne d a b) = _ from rfl)
  rw [decodeCode, h0]
  change decode46 _ = _
  rw [decode46, h1, h2, h3, h4]
  exact if_pos h

theorem plt (d : BitVec 5) (a : BitVec 5) (b : BitVec 5) : Statement (.plt d a b) := by
  intro h
  obtain ⟨h0, h1, h2, h3, h4⟩ := fields_7_5_5_5_5 _ _ _ _ _ (show Instr.code (.plt d a b) = _ from rfl)
  rw [decodeCode, h0]
  change decode46 _ = _
  rw [decode46, h1, h2, h3, h4]
  exact if_pos h

theorem pge (d : BitVec 5) (a : BitVec 5) (b : BitVec 5) : Statement (.pge d a b) := by
  intro h
  obtain ⟨h0, h1, h2, h3, h4⟩ := fields_7_5_5_5_5 _ _ _ _ _ (show Instr.code (.pge d a b) = _ from rfl)
  rw [decodeCode, h0]
  change decode46 _ = _
  rw [decode46, h1, h2, h3, h4]
  exact if_pos h

theorem pltu (d : BitVec 5) (a : BitVec 5) (b : BitVec 5) : Statement (.pltu d a b) := by
  intro h
  obtain ⟨h0, h1, h2, h3, h4⟩ := fields_7_5_5_5_5 _ _ _ _ _ (show Instr.code (.pltu d a b) = _ from rfl)
  rw [decodeCode, h0]
  change decode46 _ = _
  rw [decode46, h1, h2, h3, h4]
  exact if_pos h

theorem pgeu (d : BitVec 5) (a : BitVec 5) (b : BitVec 5) : Statement (.pgeu d a b) := by
  intro h
  obtain ⟨h0, h1, h2, h3, h4⟩ := fields_7_5_5_5_5 _ _ _ _ _ (show Instr.code (.pgeu d a b) = _ from rfl)
  rw [decodeCode, h0]
  change decode46 _ = _
  rw [decode46, h1, h2, h3, h4]
  exact if_pos h

theorem pand (d : BitVec 5) (a : BitVec 5) (b : BitVec 5) : Statement (.pand d a b) := by
  intro h
  obtain ⟨h0, h1, h2, h3, h4⟩ := fields_7_5_5_5_5 _ _ _ _ _ (show Instr.code (.pand d a b) = _ from rfl)
  rw [decodeCode, h0]
  change decode47 _ = _
  rw [decode47, h1, h2, h3, h4]
  exact if_pos h

theorem por (d : BitVec 5) (a : BitVec 5) (b : BitVec 5) : Statement (.por d a b) := by
  intro h
  obtain ⟨h0, h1, h2, h3, h4⟩ := fields_7_5_5_5_5 _ _ _ _ _ (show Instr.code (.por d a b) = _ from rfl)
  rw [decodeCode, h0]
  change decode47 _ = _
  rw [decode47, h1, h2, h3, h4]
  exact if_pos h

theorem pxor (d : BitVec 5) (a : BitVec 5) (b : BitVec 5) : Statement (.pxor d a b) := by
  intro h
  obtain ⟨h0, h1, h2, h3, h4⟩ := fields_7_5_5_5_5 _ _ _ _ _ (show Instr.code (.pxor d a b) = _ from rfl)
  rw [decodeCode, h0]
  change decode47 _ = _
  rw [decode47, h1, h2, h3, h4]
  exact if_pos h

theorem pnot (d : BitVec 5) (a : BitVec 5) : Statement (.pnot d a) := by
  intro h
  obtain ⟨h0, h1, h2, h3, h4⟩ := fields_7_5_5_5_5 _ _ _ _ _ (show Instr.code (.pnot d a) = _ from rfl)
  rw [decodeCode, h0]
  change decode47 _ = _
  rw [decode47, h1, h2, h3, h4]
  exact if_pos h

theorem sel (d : BitVec 5) (a : BitVec 5) (b : BitVec 5) : Statement (.sel d a b) := by
  intro h
  obtain ⟨h0, h1, h2, h3, h4⟩ := fields_7_5_5_5_5 _ _ _ _ _ (show Instr.code (.sel d a b) = _ from rfl)
  rw [decodeCode, h0]
  change decode48 _ = _
  rw [decode48, h1, h2, h3, h4]
  exact if_pos h

theorem movpw (d : BitVec 5) : Statement (.movpw d) := by
  intro h
  obtain ⟨h0, h1, h2, h3, h4⟩ := fields_7_5_5_5_5 _ _ _ _ _ (show Instr.code (.movpw d) = _ from rfl)
  rw [decodeCode, h0]
  change decode49 _ = _
  rw [decode49, h1, h2, h3, h4]
  exact if_pos h

theorem movwp (a : BitVec 5) : Statement (.movwp a) := by
  intro h
  obtain ⟨h0, h1, h2, h3, h4⟩ := fields_7_5_5_5_5 _ _ _ _ _ (show Instr.code (.movwp a) = _ from rfl)
  rw [decodeCode, h0]
  change decode49 _ = _
  rw [decode49, h1, h2, h3, h4]
  exact if_pos h

theorem addsh (d : BitVec 5) (a : BitVec 5) (b : BitVec 5) : Statement (.addsh d a b) := by
  intro h
  obtain ⟨h0, h1, h2, h3, h4⟩ := fields_7_5_5_5_5 _ _ _ _ _ (show Instr.code (.addsh d a b) = _ from rfl)
  rw [decodeCode, h0]
  change decode4A _ = _
  rw [decode4A, h1, h2, h3, h4]
  exact if_pos h

theorem part (d : BitVec 5) (a : BitVec 5) (b : BitVec 5) : Statement (.part d a b) := by
  intro h
  obtain ⟨h0, h1, h2, h3, h4⟩ := fields_7_5_5_5_5 _ _ _ _ _ (show Instr.code (.part d a b) = _ from rfl)
  rw [decodeCode, h0]
  change decode4B _ = _
  rw [decode4B, h1, h2, h3, h4]
  exact if_pos h

theorem vadd (d : BitVec 5) (a : BitVec 5) (b : BitVec 5) : Statement (.vadd d a b) := by
  intro h
  obtain ⟨h0, h1, h2, h3, h4⟩ := fields_7_5_5_5_5 _ _ _ _ _ (show Instr.code (.vadd d a b) = _ from rfl)
  rw [decodeCode, h0]
  change decode50 _ = _
  rw [decode50, h1, h2, h3, h4]
  exact if_pos h

theorem vsub (d : BitVec 5) (a : BitVec 5) (b : BitVec 5) : Statement (.vsub d a b) := by
  intro h
  obtain ⟨h0, h1, h2, h3, h4⟩ := fields_7_5_5_5_5 _ _ _ _ _ (show Instr.code (.vsub d a b) = _ from rfl)
  rw [decodeCode, h0]
  change decode50 _ = _
  rw [decode50, h1, h2, h3, h4]
  exact if_pos h

theorem vmul (d : BitVec 5) (a : BitVec 5) (b : BitVec 5) : Statement (.vmul d a b) := by
  intro h
  obtain ⟨h0, h1, h2, h3, h4⟩ := fields_7_5_5_5_5 _ _ _ _ _ (show Instr.code (.vmul d a b) = _ from rfl)
  rw [decodeCode, h0]
  change decode50 _ = _
  rw [decode50, h1, h2, h3, h4]
  exact if_pos h

theorem vmin (d : BitVec 5) (a : BitVec 5) (b : BitVec 5) : Statement (.vmin d a b) := by
  intro h
  obtain ⟨h0, h1, h2, h3, h4⟩ := fields_7_5_5_5_5 _ _ _ _ _ (show Instr.code (.vmin d a b) = _ from rfl)
  rw [decodeCode, h0]
  change decode50 _ = _
  rw [decode50, h1, h2, h3, h4]
  exact if_pos h

theorem vmax (d : BitVec 5) (a : BitVec 5) (b : BitVec 5) : Statement (.vmax d a b) := by
  intro h
  obtain ⟨h0, h1, h2, h3, h4⟩ := fields_7_5_5_5_5 _ _ _ _ _ (show Instr.code (.vmax d a b) = _ from rfl)
  rw [decodeCode, h0]
  change decode50 _ = _
  rw [decode50, h1, h2, h3, h4]
  exact if_pos h

theorem vand (d : BitVec 5) (a : BitVec 5) (b : BitVec 5) : Statement (.vand d a b) := by
  intro h
  obtain ⟨h0, h1, h2, h3, h4⟩ := fields_7_5_5_5_5 _ _ _ _ _ (show Instr.code (.vand d a b) = _ from rfl)
  rw [decodeCode, h0]
  change decode50 _ = _
  rw [decode50, h1, h2, h3, h4]
  exact if_pos h

theorem vor (d : BitVec 5) (a : BitVec 5) (b : BitVec 5) : Statement (.vor d a b) := by
  intro h
  obtain ⟨h0, h1, h2, h3, h4⟩ := fields_7_5_5_5_5 _ _ _ _ _ (show Instr.code (.vor d a b) = _ from rfl)
  rw [decodeCode, h0]
  change decode50 _ = _
  rw [decode50, h1, h2, h3, h4]
  exact if_pos h

theorem vxor (d : BitVec 5) (a : BitVec 5) (b : BitVec 5) : Statement (.vxor d a b) := by
  intro h
  obtain ⟨h0, h1, h2, h3, h4⟩ := fields_7_5_5_5_5 _ _ _ _ _ (show Instr.code (.vxor d a b) = _ from rfl)
  rw [decodeCode, h0]
  change decode50 _ = _
  rw [decode50, h1, h2, h3, h4]
  exact if_pos h

theorem vshl (d : BitVec 5) (a : BitVec 5) (b : BitVec 5) : Statement (.vshl d a b) := by
  intro h
  obtain ⟨h0, h1, h2, h3, h4⟩ := fields_7_5_5_5_5 _ _ _ _ _ (show Instr.code (.vshl d a b) = _ from rfl)
  rw [decodeCode, h0]
  change decode50 _ = _
  rw [decode50, h1, h2, h3, h4]
  exact if_pos h

theorem vshr (d : BitVec 5) (a : BitVec 5) (b : BitVec 5) : Statement (.vshr d a b) := by
  intro h
  obtain ⟨h0, h1, h2, h3, h4⟩ := fields_7_5_5_5_5 _ _ _ _ _ (show Instr.code (.vshr d a b) = _ from rfl)
  rw [decodeCode, h0]
  change decode50 _ = _
  rw [decode50, h1, h2, h3, h4]
  exact if_pos h

theorem vsra (d : BitVec 5) (a : BitVec 5) (b : BitVec 5) : Statement (.vsra d a b) := by
  intro h
  obtain ⟨h0, h1, h2, h3, h4⟩ := fields_7_5_5_5_5 _ _ _ _ _ (show Instr.code (.vsra d a b) = _ from rfl)
  rw [decodeCode, h0]
  change decode50 _ = _
  rw [decode50, h1, h2, h3, h4]
  exact if_pos h

theorem vfadd (d : BitVec 5) (a : BitVec 5) (b : BitVec 5) : Statement (.vfadd d a b) := by
  intro h
  obtain ⟨h0, h1, h2, h3, h4⟩ := fields_7_5_5_5_5 _ _ _ _ _ (show Instr.code (.vfadd d a b) = _ from rfl)
  rw [decodeCode, h0]
  change decode51 _ = _
  rw [decode51, h1, h2, h3, h4]
  exact if_pos h

theorem vfsub (d : BitVec 5) (a : BitVec 5) (b : BitVec 5) : Statement (.vfsub d a b) := by
  intro h
  obtain ⟨h0, h1, h2, h3, h4⟩ := fields_7_5_5_5_5 _ _ _ _ _ (show Instr.code (.vfsub d a b) = _ from rfl)
  rw [decodeCode, h0]
  change decode51 _ = _
  rw [decode51, h1, h2, h3, h4]
  exact if_pos h

theorem vfmul (d : BitVec 5) (a : BitVec 5) (b : BitVec 5) : Statement (.vfmul d a b) := by
  intro h
  obtain ⟨h0, h1, h2, h3, h4⟩ := fields_7_5_5_5_5 _ _ _ _ _ (show Instr.code (.vfmul d a b) = _ from rfl)
  rw [decodeCode, h0]
  change decode51 _ = _
  rw [decode51, h1, h2, h3, h4]
  exact if_pos h

theorem vfma (d : BitVec 5) (a : BitVec 5) (b : BitVec 5) : Statement (.vfma d a b) := by
  intro h
  obtain ⟨h0, h1, h2, h3, h4⟩ := fields_7_5_5_5_5 _ _ _ _ _ (show Instr.code (.vfma d a b) = _ from rfl)
  rw [decodeCode, h0]
  change decode51 _ = _
  rw [decode51, h1, h2, h3, h4]
  exact if_pos h

theorem vfmin (d : BitVec 5) (a : BitVec 5) (b : BitVec 5) : Statement (.vfmin d a b) := by
  intro h
  obtain ⟨h0, h1, h2, h3, h4⟩ := fields_7_5_5_5_5 _ _ _ _ _ (show Instr.code (.vfmin d a b) = _ from rfl)
  rw [decodeCode, h0]
  change decode51 _ = _
  rw [decode51, h1, h2, h3, h4]
  exact if_pos h

theorem vfmax (d : BitVec 5) (a : BitVec 5) (b : BitVec 5) : Statement (.vfmax d a b) := by
  intro h
  obtain ⟨h0, h1, h2, h3, h4⟩ := fields_7_5_5_5_5 _ _ _ _ _ (show Instr.code (.vfmax d a b) = _ from rfl)
  rw [decodeCode, h0]
  change decode51 _ = _
  rw [decode51, h1, h2, h3, h4]
  exact if_pos h

theorem vfabs (d : BitVec 5) (a : BitVec 5) : Statement (.vfabs d a) := by
  intro h
  obtain ⟨h0, h1, h2, h3, h4⟩ := fields_7_5_5_5_5 _ _ _ _ _ (show Instr.code (.vfabs d a) = _ from rfl)
  rw [decodeCode, h0]
  change decode51 _ = _
  rw [decode51, h1, h2, h3, h4]
  exact if_pos h

theorem vfneg (d : BitVec 5) (a : BitVec 5) : Statement (.vfneg d a) := by
  intro h
  obtain ⟨h0, h1, h2, h3, h4⟩ := fields_7_5_5_5_5 _ _ _ _ _ (show Instr.code (.vfneg d a) = _ from rfl)
  rw [decodeCode, h0]
  change decode51 _ = _
  rw [decode51, h1, h2, h3, h4]
  exact if_pos h

theorem vrcp (d : BitVec 5) (a : BitVec 5) : Statement (.vrcp d a) := by
  intro h
  obtain ⟨h0, h1, h2, h3, h4⟩ := fields_7_5_5_5_5 _ _ _ _ _ (show Instr.code (.vrcp d a) = _ from rfl)
  rw [decodeCode, h0]
  change decode52 _ = _
  rw [decode52, h1, h2, h3, h4]
  exact if_pos h

theorem vrsq (d : BitVec 5) (a : BitVec 5) : Statement (.vrsq d a) := by
  intro h
  obtain ⟨h0, h1, h2, h3, h4⟩ := fields_7_5_5_5_5 _ _ _ _ _ (show Instr.code (.vrsq d a) = _ from rfl)
  rw [decodeCode, h0]
  change decode52 _ = _
  rw [decode52, h1, h2, h3, h4]
  exact if_pos h

theorem vsqrt (d : BitVec 5) (a : BitVec 5) : Statement (.vsqrt d a) := by
  intro h
  obtain ⟨h0, h1, h2, h3, h4⟩ := fields_7_5_5_5_5 _ _ _ _ _ (show Instr.code (.vsqrt d a) = _ from rfl)
  rw [decodeCode, h0]
  change decode52 _ = _
  rw [decode52, h1, h2, h3, h4]
  exact if_pos h

theorem vexp2 (d : BitVec 5) (a : BitVec 5) : Statement (.vexp2 d a) := by
  intro h
  obtain ⟨h0, h1, h2, h3, h4⟩ := fields_7_5_5_5_5 _ _ _ _ _ (show Instr.code (.vexp2 d a) = _ from rfl)
  rw [decodeCode, h0]
  change decode52 _ = _
  rw [decode52, h1, h2, h3, h4]
  exact if_pos h

theorem vlog2 (d : BitVec 5) (a : BitVec 5) : Statement (.vlog2 d a) := by
  intro h
  obtain ⟨h0, h1, h2, h3, h4⟩ := fields_7_5_5_5_5 _ _ _ _ _ (show Instr.code (.vlog2 d a) = _ from rfl)
  rw [decodeCode, h0]
  change decode52 _ = _
  rw [decode52, h1, h2, h3, h4]
  exact if_pos h

theorem vdiv (d : BitVec 5) (a : BitVec 5) (b : BitVec 5) : Statement (.vdiv d a b) := by
  intro h
  obtain ⟨h0, h1, h2, h3, h4⟩ := fields_7_5_5_5_5 _ _ _ _ _ (show Instr.code (.vdiv d a b) = _ from rfl)
  rw [decodeCode, h0]
  change decode52 _ = _
  rw [decode52, h1, h2, h3, h4]
  exact if_pos h

theorem vcvt (d : BitVec 5) (a : BitVec 5) (b : BitVec 5) : Statement (.vcvt d a b) := by
  intro h
  obtain ⟨h0, h1, h2, h3, h4⟩ := fields_7_5_5_5_5 _ _ _ _ _ (show Instr.code (.vcvt d a b) = _ from rfl)
  rw [decodeCode, h0]
  change decode53 _ = _
  rw [decode53, h1, h2, h3, h4]
  exact if_pos h

theorem vcvts (d : BitVec 5) (a : BitVec 5) (b : BitVec 5) : Statement (.vcvts d a b) := by
  intro h
  obtain ⟨h0, h1, h2, h3, h4⟩ := fields_7_5_5_5_5 _ _ _ _ _ (show Instr.code (.vcvts d a b) = _ from rfl)
  rw [decodeCode, h0]
  change decode53 _ = _
  rw [decode53, h1, h2, h3, h4]
  exact if_pos h

theorem vqnt (d : BitVec 5) (a : BitVec 5) (b : BitVec 5) : Statement (.vqnt d a b) := by
  intro h
  obtain ⟨h0, h1, h2, h3, h4⟩ := fields_7_5_5_5_5 _ _ _ _ _ (show Instr.code (.vqnt d a b) = _ from rfl)
  rw [decodeCode, h0]
  change decode53 _ = _
  rw [decode53, h1, h2, h3, h4]
  exact if_pos h

theorem vrsum (d : BitVec 5) (a : BitVec 5) (b : BitVec 5) : Statement (.vrsum d a b) := by
  intro h
  obtain ⟨h0, h1, h2, h3, h4⟩ := fields_7_5_5_5_5 _ _ _ _ _ (show Instr.code (.vrsum d a b) = _ from rfl)
  rw [decodeCode, h0]
  change decode54 _ = _
  rw [decode54, h1, h2, h3, h4]
  exact if_pos h

theorem vrmax (d : BitVec 5) (a : BitVec 5) (b : BitVec 5) : Statement (.vrmax d a b) := by
  intro h
  obtain ⟨h0, h1, h2, h3, h4⟩ := fields_7_5_5_5_5 _ _ _ _ _ (show Instr.code (.vrmax d a b) = _ from rfl)
  rw [decodeCode, h0]
  change decode54 _ = _
  rw [decode54, h1, h2, h3, h4]
  exact if_pos h

theorem vrmin (d : BitVec 5) (a : BitVec 5) (b : BitVec 5) : Statement (.vrmin d a b) := by
  intro h
  obtain ⟨h0, h1, h2, h3, h4⟩ := fields_7_5_5_5_5 _ _ _ _ _ (show Instr.code (.vrmin d a b) = _ from rfl)
  rw [decodeCode, h0]
  change decode54 _ = _
  rw [decode54, h1, h2, h3, h4]
  exact if_pos h

theorem vshuf (d : BitVec 5) (a : BitVec 5) (b : BitVec 5) : Statement (.vshuf d a b) := by
  intro h
  obtain ⟨h0, h1, h2, h3, h4⟩ := fields_7_5_5_5_5 _ _ _ _ _ (show Instr.code (.vshuf d a b) = _ from rfl)
  rw [decodeCode, h0]
  change decode55 _ = _
  rw [decode55, h1, h2, h3, h4]
  exact if_pos h

theorem vbcast (d : BitVec 5) (a : BitVec 5) (b : BitVec 5) : Statement (.vbcast d a b) := by
  intro h
  obtain ⟨h0, h1, h2, h3, h4⟩ := fields_7_5_5_5_5 _ _ _ _ _ (show Instr.code (.vbcast d a b) = _ from rfl)
  rw [decodeCode, h0]
  change decode55 _ = _
  rw [decode55, h1, h2, h3, h4]
  exact if_pos h

theorem vext (d : BitVec 5) (a : BitVec 5) (b : BitVec 5) : Statement (.vext d a b) := by
  intro h
  obtain ⟨h0, h1, h2, h3, h4⟩ := fields_7_5_5_5_5 _ _ _ _ _ (show Instr.code (.vext d a b) = _ from rfl)
  rw [decodeCode, h0]
  change decode55 _ = _
  rw [decode55, h1, h2, h3, h4]
  exact if_pos h

theorem vins (d : BitVec 5) (a : BitVec 5) (b : BitVec 5) : Statement (.vins d a b) := by
  intro h
  obtain ⟨h0, h1, h2, h3, h4⟩ := fields_7_5_5_5_5 _ _ _ _ _ (show Instr.code (.vins d a b) = _ from rfl)
  rw [decodeCode, h0]
  change decode55 _ = _
  rw [decode55, h1, h2, h3, h4]
  exact if_pos h

theorem vcmp (d : BitVec 5) (a : BitVec 5) (b : BitVec 5) : Statement (.vcmp d a b) := by
  intro h
  obtain ⟨h0, h1, h2, h3, h4⟩ := fields_7_5_5_5_5 _ _ _ _ _ (show Instr.code (.vcmp d a b) = _ from rfl)
  rw [decodeCode, h0]
  change decode56 _ = _
  rw [decode56, h1, h2, h3, h4]
  exact if_pos h

theorem vsel (d : BitVec 5) (a : BitVec 5) (b : BitVec 5) : Statement (.vsel d a b) := by
  intro h
  obtain ⟨h0, h1, h2, h3, h4⟩ := fields_7_5_5_5_5 _ _ _ _ _ (show Instr.code (.vsel d a b) = _ from rfl)
  rw [decodeCode, h0]
  change decode56 _ = _
  rw [decode56, h1, h2, h3, h4]
  exact if_pos h

theorem vrec (d : BitVec 5) (a : BitVec 5) (b : BitVec 5) : Statement (.vrec d a b) := by
  intro h
  obtain ⟨h0, h1, h2, h3, h4⟩ := fields_7_5_5_5_5 _ _ _ _ _ (show Instr.code (.vrec d a b) = _ from rfl)
  rw [decodeCode, h0]
  change decode57 _ = _
  rw [decode57, h1, h2, h3, h4]
  exact if_pos h

theorem vema (d : BitVec 5) (b : BitVec 5) : Statement (.vema d b) := by
  intro h
  obtain ⟨h0, h1, h2, h3, h4⟩ := fields_7_5_5_5_5 _ _ _ _ _ (show Instr.code (.vema d b) = _ from rfl)
  rw [decodeCode, h0]
  change decode57 _ = _
  rw [decode57, h1, h2, h3, h4]
  exact if_pos h

theorem vmovx (d : BitVec 5) (a : BitVec 5) (b : BitVec 5) : Statement (.vmovx d a b) := by
  intro h
  obtain ⟨h0, h1, h2, h3, h4⟩ := fields_7_5_5_5_5 _ _ _ _ _ (show Instr.code (.vmovx d a b) = _ from rfl)
  rw [decodeCode, h0]
  change decode58 _ = _
  rw [decode58, h1, h2, h3, h4]
  exact if_pos h

theorem vmovv (d : BitVec 5) (a : BitVec 5) : Statement (.vmovv d a) := by
  intro h
  obtain ⟨h0, h1, h2, h3, h4⟩ := fields_7_5_5_5_5 _ _ _ _ _ (show Instr.code (.vmovv d a) = _ from rfl)
  rw [decodeCode, h0]
  change decode58 _ = _
  rw [decode58, h1, h2, h3, h4]
  exact if_pos h

theorem vsplat (d : BitVec 5) (a : BitVec 5) : Statement (.vsplat d a) := by
  intro h
  obtain ⟨h0, h1, h2, h3, h4⟩ := fields_7_5_5_5_5 _ _ _ _ _ (show Instr.code (.vsplat d a) = _ from rfl)
  rw [decodeCode, h0]
  change decode58 _ = _
  rw [decode58, h1, h2, h3, h4]
  exact if_pos h

theorem vloop (d : BitVec 5) (a : BitVec 5) : Statement (.vloop d a) := by
  intro h
  obtain ⟨h0, h1, h2, h3, h4⟩ := fields_7_5_5_5_5 _ _ _ _ _ (show Instr.code (.vloop d a) = _ from rfl)
  rw [decodeCode, h0]
  change decode59 _ = _
  rw [decode59, h1, h2, h3, h4]
  exact if_pos h

theorem mcfg (a : BitVec 4) : Statement (.mcfg a) := by
  intro h
  obtain ⟨h0, h1, h2, h3, h4⟩ := fields_7_6_4_6_4 _ _ _ _ _ (show Instr.code (.mcfg a) = _ from rfl)
  rw [decodeCode, h0]
  change decode60 _ = _
  rw [decode60, h1, h2, h3, h4]
  exact if_pos h

theorem mlda (a : BitVec 4) : Statement (.mlda a) := by
  intro h
  obtain ⟨h0, h1, h2, h3, h4⟩ := fields_7_6_4_6_4 _ _ _ _ _ (show Instr.code (.mlda a) = _ from rfl)
  rw [decodeCode, h0]
  change decode61 _ = _
  rw [decode61, h1, h2, h3, h4]
  exact if_pos h

theorem mldb (a : BitVec 4) (w : BitVec 6) : Statement (.mldb a w) := by
  intro h
  obtain ⟨h0, h1, h2, h3, h4⟩ := fields_7_6_4_6_4 _ _ _ _ _ (show Instr.code (.mldb a w) = _ from rfl)
  rw [decodeCode, h0]
  change decode61 _ = _
  rw [decode61, h1, h2, h3, h4]
  exact if_pos h

theorem mma (t : BitVec 6) (w : BitVec 6) : Statement (.mma t w) := by
  intro h
  obtain ⟨h0, h1, h2, h3, h4⟩ := fields_7_6_4_6_4 _ _ _ _ _ (show Instr.code (.mma t w) = _ from rfl)
  rw [decodeCode, h0]
  change decode62 _ = _
  rw [decode62, h1, h2, h3, h4]
  exact if_pos h

theorem mmas (t : BitVec 6) (w : BitVec 6) : Statement (.mmas t w) := by
  intro h
  obtain ⟨h0, h1, h2, h3, h4⟩ := fields_7_6_4_6_4 _ _ _ _ _ (show Instr.code (.mmas t w) = _ from rfl)
  rw [decodeCode, h0]
  change decode62 _ = _
  rw [decode62, h1, h2, h3, h4]
  exact if_pos h

theorem mrot (t : BitVec 6) (w : BitVec 6) : Statement (.mrot t w) := by
  intro h
  obtain ⟨h0, h1, h2, h3, h4⟩ := fields_7_6_4_6_4 _ _ _ _ _ (show Instr.code (.mrot t w) = _ from rfl)
  rw [decodeCode, h0]
  change decode63 _ = _
  rw [decode63, h1, h2, h3, h4]
  exact if_pos h

theorem mdq (a : BitVec 4) : Statement (.mdq a) := by
  intro h
  obtain ⟨h0, h1, h2, h3, h4⟩ := fields_7_6_4_6_4 _ _ _ _ _ (show Instr.code (.mdq a) = _ from rfl)
  rw [decodeCode, h0]
  change decode64 _ = _
  rw [decode64, h1, h2, h3, h4]
  exact if_pos h

theorem mdelta (t : BitVec 6) (a : BitVec 4) (w : BitVec 6) : Statement (.mdelta t a w) := by
  intro h
  obtain ⟨h0, h1, h2, h3, h4⟩ := fields_7_6_4_6_4 _ _ _ _ _ (show Instr.code (.mdelta t a w) = _ from rfl)
  rw [decodeCode, h0]
  change decode64 _ = _
  rw [decode64, h1, h2, h3, h4]
  exact if_pos h

theorem mzero (t : BitVec 6) : Statement (.mzero t) := by
  intro h
  obtain ⟨h0, h1, h2, h3, h4⟩ := fields_7_6_4_6_4 _ _ _ _ _ (show Instr.code (.mzero t) = _ from rfl)
  rw [decodeCode, h0]
  change decode65 _ = _
  rw [decode65, h1, h2, h3, h4]
  exact if_pos h

theorem mst (t : BitVec 6) (a : BitVec 4) (w : BitVec 4) : Statement (.mst t a w) := by
  intro h
  obtain ⟨h0, h1, h2, h3, h4, h5⟩ := fields_7_6_4_2_4_4 _ _ _ _ _ _ (show Instr.code (.mst t a w) = _ from rfl)
  rw [decodeCode, h0]
  change decode65 _ = _
  rw [decode65, h1, h2, h3, h4, h5]
  exact if_pos h

theorem mscale (t : BitVec 6) (w : BitVec 5) : Statement (.mscale t w) := by
  intro h
  obtain ⟨h0, h1, h2, h3, h4, h5⟩ := fields_7_6_4_1_5_4 _ _ _ _ _ _ (show Instr.code (.mscale t w) = _ from rfl)
  rw [decodeCode, h0]
  change decode65 _ = _
  rw [decode65, h1, h2, h3, h4, h5]
  exact if_pos h

theorem mredMax (t : BitVec 6) (w : BitVec 5) : Statement (.mredMax t w) := by
  intro h
  obtain ⟨h0, h1, h2, h3, h4, h5⟩ := fields_7_6_4_1_5_4 _ _ _ _ _ _ (show Instr.code (.mredMax t w) = _ from rfl)
  rw [decodeCode, h0]
  change decode65 _ = _
  rw [decode65, h1, h2, h3, h4, h5]
  exact if_pos h

theorem mredSum (t : BitVec 6) (w : BitVec 5) : Statement (.mredSum t w) := by
  intro h
  obtain ⟨h0, h1, h2, h3, h4, h5⟩ := fields_7_6_4_1_5_4 _ _ _ _ _ _ (show Instr.code (.mredSum t w) = _ from rfl)
  rw [decodeCode, h0]
  change decode65 _ = _
  rw [decode65, h1, h2, h3, h4, h5]
  exact if_pos h

theorem mchk (a : BitVec 4) : Statement (.mchk a) := by
  intro h
  obtain ⟨h0, h1, h2, h3, h4⟩ := fields_7_6_4_6_4 _ _ _ _ _ (show Instr.code (.mchk a) = _ from rfl)
  rw [decodeCode, h0]
  change decode66 _ = _
  rw [decode66, h1, h2, h3, h4]
  exact if_pos h

theorem nop : Statement .nop := fun _ => rfl

theorem synci : Statement .synci := fun _ => rfl

theorem exit : Statement .exit := fun _ => rfl

theorem yield : Statement .yield := fun _ => rfl

theorem tret : Statement .tret := fun _ => rfl

theorem halt : Statement .halt := fun _ => rfl

theorem reflexRelease : Statement .reflexRelease := fun h => Bool.noConfusion (show false = true from h)

theorem shadowBankSwitch : Statement .shadowBankSwitch := fun h => Bool.noConfusion (show false = true from h)

theorem deadlineMiss : Statement .deadlineMiss := fun h => Bool.noConfusion (show false = true from h)

theorem budgetExceeded : Statement .budgetExceeded := fun h => Bool.noConfusion (show false = true from h)

theorem starvationGuard : Statement .starvationGuard := fun h => Bool.noConfusion (show false = true from h)

theorem admission : Statement .admission := fun h => Bool.noConfusion (show false = true from h)

theorem taskDispatch : Statement .taskDispatch := fun h => Bool.noConfusion (show false = true from h)

theorem bankRelease : Statement .bankRelease := fun h => Bool.noConfusion (show false = true from h)

theorem clearing : Statement .clearing := fun h => Bool.noConfusion (show false = true from h)

theorem programCompletion : Statement .programCompletion := fun h => Bool.noConfusion (show false = true from h)

theorem migrationArrival : Statement .migrationArrival := fun h => Bool.noConfusion (show false = true from h)

theorem migrationResend : Statement .migrationResend := fun h => Bool.noConfusion (show false = true from h)

theorem preemption : Statement .preemption := fun h => Bool.noConfusion (show false = true from h)

theorem seize : Statement .seize := fun h => Bool.noConfusion (show false = true from h)

theorem contextStreamEnd : Statement .contextStreamEnd := fun h => Bool.noConfusion (show false = true from h)

theorem restore : Statement .restore := fun h => Bool.noConfusion (show false = true from h)

theorem retryResend : Statement .retryResend := fun h => Bool.noConfusion (show false = true from h)

theorem stakeRequest : Statement .stakeRequest := fun h => Bool.noConfusion (show false = true from h)

theorem stakeGrant : Statement .stakeGrant := fun h => Bool.noConfusion (show false = true from h)

theorem standbyMaskWrite : Statement .standbyMaskWrite := fun h => Bool.noConfusion (show false = true from h)

theorem mailboxArrival : Statement .mailboxArrival := fun h => Bool.noConfusion (show false = true from h)

theorem sendAcknowledgement : Statement .sendAcknowledgement := fun h => Bool.noConfusion (show false = true from h)

theorem savedContextDelivery : Statement .savedContextDelivery := fun h => Bool.noConfusion (show false = true from h)

theorem alarmFire : Statement .alarmFire := fun h => Bool.noConfusion (show false = true from h)

theorem sliceRequest : Statement .sliceRequest := fun h => Bool.noConfusion (show false = true from h)

theorem pageWalkComplete : Statement .pageWalkComplete := fun h => Bool.noConfusion (show false = true from h)

theorem confirmation : Statement .confirmation := fun h => Bool.noConfusion (show false = true from h)

theorem accessReply : Statement .accessReply := fun h => Bool.noConfusion (show false = true from h)

theorem translationFault : Statement .translationFault := fun h => Bool.noConfusion (show false = true from h)

theorem faultMessageResend : Statement .faultMessageResend := fun h => Bool.noConfusion (show false = true from h)

theorem faultReplyResume : Statement .faultReplyResume := fun h => Bool.noConfusion (show false = true from h)

theorem faultReplyRetryLater : Statement .faultReplyRetryLater := fun h => Bool.noConfusion (show false = true from h)

theorem faultReplyKill : Statement .faultReplyKill := fun h => Bool.noConfusion (show false = true from h)

theorem overflowMessage : Statement .overflowMessage := fun h => Bool.noConfusion (show false = true from h)

theorem overflowRecall : Statement .overflowRecall := fun h => Bool.noConfusion (show false = true from h)

theorem overflowRecallAnswer : Statement .overflowRecallAnswer := fun h => Bool.noConfusion (show false = true from h)

theorem cacheOpComplete : Statement .cacheOpComplete := fun h => Bool.noConfusion (show false = true from h)

theorem sliceGate : Statement .sliceGate := fun h => Bool.noConfusion (show false = true from h)

theorem sliceWake : Statement .sliceWake := fun h => Bool.noConfusion (show false = true from h)

theorem sliceWakeComplete : Statement .sliceWakeComplete := fun h => Bool.noConfusion (show false = true from h)

theorem shootdownDataRange : Statement .shootdownDataRange := fun h => Bool.noConfusion (show false = true from h)

theorem shootdownDataSpace : Statement .shootdownDataSpace := fun h => Bool.noConfusion (show false = true from h)

theorem shootdownInstructionRange : Statement .shootdownInstructionRange := fun h => Bool.noConfusion (show false = true from h)

theorem shootdownInstructionProgram : Statement .shootdownInstructionProgram := fun h => Bool.noConfusion (show false = true from h)

theorem shootdownEverything : Statement .shootdownEverything := fun h => Bool.noConfusion (show false = true from h)

theorem shootdownNode : Statement .shootdownNode := fun h => Bool.noConfusion (show false = true from h)

theorem shootdownCompletion : Statement .shootdownCompletion := fun h => Bool.noConfusion (show false = true from h)

theorem regionTableUpdate : Statement .regionTableUpdate := fun h => Bool.noConfusion (show false = true from h)

theorem peerTranslationRequest : Statement .peerTranslationRequest := fun h => Bool.noConfusion (show false = true from h)

theorem peerTranslationReply : Statement .peerTranslationReply := fun h => Bool.noConfusion (show false = true from h)

theorem leaseExpiry : Statement .leaseExpiry := fun h => Bool.noConfusion (show false = true from h)

theorem debugHalt : Statement .debugHalt := fun h => Bool.noConfusion (show false = true from h)

theorem debugResume : Statement .debugResume := fun h => Bool.noConfusion (show false = true from h)

theorem debugStep : Statement .debugStep := fun h => Bool.noConfusion (show false = true from h)

theorem debugQuiesce : Statement .debugQuiesce := fun h => Bool.noConfusion (show false = true from h)

theorem debugStatus : Statement .debugStatus := fun h => Bool.noConfusion (show false = true from h)

theorem debugDump : Statement .debugDump := fun h => Bool.noConfusion (show false = true from h)

theorem copySectorReply : Statement .copySectorReply := fun h => Bool.noConfusion (show false = true from h)

theorem copyCompletion : Statement .copyCompletion := fun h => Bool.noConfusion (show false = true from h)

theorem landingHandlerInvocation : Statement .landingHandlerInvocation := fun h => Bool.noConfusion (show false = true from h)

theorem cpyqRetry : Statement .cpyqRetry := fun h => Bool.noConfusion (show false = true from h)

theorem streamRefill : Statement .streamRefill := fun h => Bool.noConfusion (show false = true from h)

theorem exchangeWindow : Statement .exchangeWindow := fun h => Bool.noConfusion (show false = true from h)

theorem exchangeArrival : Statement .exchangeArrival := fun h => Bool.noConfusion (show false = true from h)

theorem barrierArrival : Statement .barrierArrival := fun h => Bool.noConfusion (show false = true from h)

theorem sstepRelease : Statement .sstepRelease := fun h => Bool.noConfusion (show false = true from h)

theorem superstepReplay : Statement .superstepReplay := fun h => Bool.noConfusion (show false = true from h)

theorem probeHop : Statement .probeHop := fun h => Bool.noConfusion (show false = true from h)

theorem autoProbe : Statement .autoProbe := fun h => Bool.noConfusion (show false = true from h)

theorem xmpubCommit : Statement .xmpubCommit := fun h => Bool.noConfusion (show false = true from h)

theorem xmrdCompletion : Statement .xmrdCompletion := fun h => Bool.noConfusion (show false = true from h)

theorem homeControllerOperation : Statement .homeControllerOperation := fun h => Bool.noConfusion (show false = true from h)

theorem homeControllerReply : Statement .homeControllerReply := fun h => Bool.noConfusion (show false = true from h)

theorem queueGrant : Statement .queueGrant := fun h => Bool.noConfusion (show false = true from h)

theorem waiterWithdrawal : Statement .waiterWithdrawal := fun h => Bool.noConfusion (show false = true from h)

theorem waiterRecordReturn : Statement .waiterRecordReturn := fun h => Bool.noConfusion (show false = true from h)

theorem creditMessage : Statement .creditMessage := fun h => Bool.noConfusion (show false = true from h)

theorem peerUnreachable : Statement .peerUnreachable := fun h => Bool.noConfusion (show false = true from h)

theorem slotFillComplete : Statement .slotFillComplete := fun h => Bool.noConfusion (show false = true from h)

theorem rotationDataArrival : Statement .rotationDataArrival := fun h => Bool.noConfusion (show false = true from h)

theorem rotationCreditArrival : Statement .rotationCreditArrival := fun h => Bool.noConfusion (show false = true from h)

theorem pairHashArrival : Statement .pairHashArrival := fun h => Bool.noConfusion (show false = true from h)

theorem pairMatchTimeout : Statement .pairMatchTimeout := fun h => Bool.noConfusion (show false = true from h)

theorem counterSnapshot : Statement .counterSnapshot := fun h => Bool.noConfusion (show false = true from h)

theorem firmwareCheckpoint : Statement .firmwareCheckpoint := fun h => Bool.noConfusion (show false = true from h)

theorem recovery : Statement .recovery := fun h => Bool.noConfusion (show false = true from h)

theorem recoveryEnd : Statement .recoveryEnd := fun h => Bool.noConfusion (show false = true from h)

theorem heartbeatSend : Statement .heartbeatSend := fun h => Bool.noConfusion (show false = true from h)

theorem heartbeatReceive : Statement .heartbeatReceive := fun h => Bool.noConfusion (show false = true from h)

theorem heartbeatMiss : Statement .heartbeatMiss := fun h => Bool.noConfusion (show false = true from h)

theorem heartbeatAckMiss : Statement .heartbeatAckMiss := fun h => Bool.noConfusion (show false = true from h)

theorem xegarLinkUp : Statement .xegarLinkUp := fun h => Bool.noConfusion (show false = true from h)

theorem mirrorUpdate : Statement .mirrorUpdate := fun h => Bool.noConfusion (show false = true from h)

theorem hostQueueEnqueue : Statement .hostQueueEnqueue := fun h => Bool.noConfusion (show false = true from h)

theorem hostQueueDequeue : Statement .hostQueueDequeue := fun h => Bool.noConfusion (show false = true from h)

theorem hostSlotControlRead : Statement .hostSlotControlRead := fun h => Bool.noConfusion (show false = true from h)

theorem hostSlotDataWrite : Statement .hostSlotDataWrite := fun h => Bool.noConfusion (show false = true from h)

theorem hostSlotCommit : Statement .hostSlotCommit := fun h => Bool.noConfusion (show false = true from h)

theorem hostSlotRelease : Statement .hostSlotRelease := fun h => Bool.noConfusion (show false = true from h)

theorem hostBar2Access : Statement .hostBar2Access := fun h => Bool.noConfusion (show false = true from h)

theorem hostRegisterWrite : Statement .hostRegisterWrite := fun h => Bool.noConfusion (show false = true from h)

theorem commandDispatch : Statement .commandDispatch := fun h => Bool.noConfusion (show false = true from h)

theorem packetSignalRelease : Statement .packetSignalRelease := fun h => Bool.noConfusion (show false = true from h)

theorem load : Statement .load := fun h => Bool.noConfusion (show false = true from h)

theorem launch : Statement .launch := fun h => Bool.noConfusion (show false = true from h)

theorem arm : Statement .arm := fun h => Bool.noConfusion (show false = true from h)

theorem disarm : Statement .disarm := fun h => Bool.noConfusion (show false = true from h)

theorem signal : Statement .signal := fun h => Bool.noConfusion (show false = true from h)

theorem mapq : Statement .mapq := fun h => Bool.noConfusion (show false = true from h)

theorem mapbar : Statement .mapbar := fun h => Bool.noConfusion (show false = true from h)

theorem mapwin : Statement .mapwin := fun h => Bool.noConfusion (show false = true from h)

theorem grant : Statement .grant := fun h => Bool.noConfusion (show false = true from h)

theorem holdrel : Statement .holdrel := fun h => Bool.noConfusion (show false = true from h)

theorem tenantCreate : Statement .tenantCreate := fun h => Bool.noConfusion (show false = true from h)

theorem tenantDestroy : Statement .tenantDestroy := fun h => Bool.noConfusion (show false = true from h)

theorem attest : Statement .attest := fun h => Bool.noConfusion (show false = true from h)

theorem cap : Statement .cap := fun h => Bool.noConfusion (show false = true from h)

theorem update : Statement .update := fun h => Bool.noConfusion (show false = true from h)

theorem updateCommit : Statement .updateCommit := fun h => Bool.noConfusion (show false = true from h)

theorem updateRevert : Statement .updateRevert := fun h => Bool.noConfusion (show false = true from h)

theorem msix : Statement .msix := fun h => Bool.noConfusion (show false = true from h)

theorem decodeTableLoad : Statement .decodeTableLoad := fun h => Bool.noConfusion (show false = true from h)

theorem powerCapCheck : Statement .powerCapCheck := fun h => Bool.noConfusion (show false = true from h)

theorem thermAlert : Statement .thermAlert := fun h => Bool.noConfusion (show false = true from h)

theorem thermAlertClear : Statement .thermAlertClear := fun h => Bool.noConfusion (show false = true from h)

theorem perstN : Statement .perstN := fun h => Bool.noConfusion (show false = true from h)

theorem moduleReset : Statement .moduleReset := fun h => Bool.noConfusion (show false = true from h)

theorem boot : Statement .boot := fun h => Bool.noConfusion (show false = true from h)

theorem ptmSynchronisation : Statement .ptmSynchronisation := fun h => Bool.noConfusion (show false = true from h)

theorem remoteAccess : Statement .remoteAccess := fun h => Bool.noConfusion (show false = true from h)

theorem linkWordArrival : Statement .linkWordArrival := fun h => Bool.noConfusion (show false = true from h)

theorem heartbeatAcknowledgement : Statement .heartbeatAcknowledgement := fun h => Bool.noConfusion (show false = true from h)

theorem mirrorAcknowledgement : Statement .mirrorAcknowledgement := fun h => Bool.noConfusion (show false = true from h)

end CodeRoundTrip

end Sys2Proof.Laws
end

