-- ==== Sys2Proof/Laws/State.lean ====
section
/-! SUPPORT. What each update of the state leaves in each field, true by definition, and what cores, scratchpads and homes read
after one of them is set. -/

namespace Sys2Proof.Machine

set_option Elab.async false

/-! `State.setX` -/

@[simp] theorem State.setX_now (s : State) (r : BitVec 5) (w : Word) : (s.setX r w).now = s.now := rfl
@[simp] theorem State.setX_meridian (s : State) (r : BitVec 5) (w : Word) : (s.setX r w).meridian = s.meridian := rfl
@[simp] theorem State.setX_slew (s : State) (r : BitVec 5) (w : Word) : (s.setX r w).slew = s.slew := rfl
@[simp] theorem State.setX_agenda (s : State) (r : BitVec 5) (w : Word) : (s.setX r w).agenda = s.agenda := rfl
@[simp] theorem State.setX_inputs (s : State) (r : BitVec 5) (w : Word) : (s.setX r w).inputs = s.inputs := rfl
@[simp] theorem State.setX_upsets (s : State) (r : BitVec 5) (w : Word) : (s.setX r w).upsets = s.upsets := rfl
@[simp] theorem State.setX_event (s : State) (r : BitVec 5) (w : Word) : (s.setX r w).event = s.event := rfl
@[simp] theorem State.setX_kept (s : State) (r : BitVec 5) (w : Word) : (s.setX r w).kept = s.kept := rfl
@[simp] theorem State.setX_cores (s : State) (r : BitVec 5) (w : Word) : (s.setX r w).cores = s.cores := rfl
@[simp] theorem State.setX_pads (s : State) (r : BitVec 5) (w : Word) : (s.setX r w).pads = s.pads := rfl
@[simp] theorem State.setX_evictions (s : State) (r : BitVec 5) (w : Word) : (s.setX r w).evictions = s.evictions := rfl
@[simp] theorem State.setX_contexts (s : State) (r : BitVec 5) (w : Word) : (s.setX r w).contexts = s.contexts := rfl
@[simp] theorem State.setX_moving (s : State) (r : BitVec 5) (w : Word) : (s.setX r w).moving = s.moving := rfl
@[simp] theorem State.setX_homes (s : State) (r : BitVec 5) (w : Word) : (s.setX r w).homes = s.homes := rfl
@[simp] theorem State.setX_dram (s : State) (r : BitVec 5) (w : Word) : (s.setX r w).dram = s.dram := rfl
@[simp] theorem State.setX_dramBad (s : State) (r : BitVec 5) (w : Word) : (s.setX r w).dramBad = s.dramBad := rfl
@[simp] theorem State.setX_dramKey (s : State) (r : BitVec 5) (w : Word) : (s.setX r w).dramKey = s.dramKey := rfl
@[simp] theorem State.setX_reflexStore (s : State) (r : BitVec 5) (w : Word) : (s.setX r w).reflexStore = s.reflexStore := rfl
@[simp] theorem State.setX_lxm (s : State) (r : BitVec 5) (w : Word) : (s.setX r w).lxm = s.lxm := rfl
@[simp] theorem State.setX_accs (s : State) (r : BitVec 5) (w : Word) : (s.setX r w).accs = s.accs := rfl
@[simp] theorem State.setX_qops (s : State) (r : BitVec 5) (w : Word) : (s.setX r w).qops = s.qops := rfl
@[simp] theorem State.setX_pairs (s : State) (r : BitVec 5) (w : Word) : (s.setX r w).pairs = s.pairs := rfl
@[simp] theorem State.setX_counters (s : State) (r : BitVec 5) (w : Word) : (s.setX r w).counters = s.counters := rfl
@[simp] theorem State.setX_snapshot (s : State) (r : BitVec 5) (w : Word) : (s.setX r w).snapshot = s.snapshot := rfl
@[simp] theorem State.setX_ibuf (s : State) (r : BitVec 5) (w : Word) : (s.setX r w).ibuf = s.ibuf := rfl
@[simp] theorem State.setX_front (s : State) (r : BitVec 5) (w : Word) : (s.setX r w).front = s.front := rfl
@[simp] theorem State.setX_nextId (s : State) (r : BitVec 5) (w : Word) : (s.setX r w).nextId = s.nextId := rfl
@[simp] theorem State.setX_draw (s : State) (r : BitVec 5) (w : Word) : (s.setX r w).draw = s.draw := rfl
@[simp] theorem State.setX_cid (s : State) (r : BitVec 5) (w : Word) : (s.setX r w).cid = s.cid := rfl
@[simp] theorem State.setX_bank (s : State) (r : BitVec 5) (w : Word) : (s.setX r w).bank = s.bank := rfl
@[simp] theorem State.setX_form (s : State) (r : BitVec 5) (w : Word) : (s.setX r w).form = s.form := rfl
@[simp] theorem State.setX_bundle (s : State) (r : BitVec 5) (w : Word) : (s.setX r w).bundle = s.bundle := rfl
@[simp] theorem State.setX_raw (s : State) (r : BitVec 5) (w : Word) : (s.setX r w).raw = s.raw := rfl
@[simp] theorem State.setX_th (s : State) (r : BitVec 5) (w : Word) : (s.setX r w).th = s.th.setX r.toNat w := rfl
@[simp] theorem State.setX_src (s : State) (r : BitVec 5) (w : Word) : (s.setX r w).src = s.src := rfl
@[simp] theorem State.setX_co (s : State) (r : BitVec 5) (w : Word) : (s.setX r w).co = s.co := rfl
@[simp] theorem State.setX_stat (s : State) (r : BitVec 5) (w : Word) : (s.setX r w).stat = s.stat := rfl

/-! `State.setP` -/

@[simp] theorem State.setP_now (s : State) (p : Nat) (b : Bool) : (s.setP p b).now = s.now := rfl
@[simp] theorem State.setP_meridian (s : State) (p : Nat) (b : Bool) : (s.setP p b).meridian = s.meridian := rfl
@[simp] theorem State.setP_slew (s : State) (p : Nat) (b : Bool) : (s.setP p b).slew = s.slew := rfl
@[simp] theorem State.setP_agenda (s : State) (p : Nat) (b : Bool) : (s.setP p b).agenda = s.agenda := rfl
@[simp] theorem State.setP_inputs (s : State) (p : Nat) (b : Bool) : (s.setP p b).inputs = s.inputs := rfl
@[simp] theorem State.setP_upsets (s : State) (p : Nat) (b : Bool) : (s.setP p b).upsets = s.upsets := rfl
@[simp] theorem State.setP_event (s : State) (p : Nat) (b : Bool) : (s.setP p b).event = s.event := rfl
@[simp] theorem State.setP_kept (s : State) (p : Nat) (b : Bool) : (s.setP p b).kept = s.kept := rfl
@[simp] theorem State.setP_cores (s : State) (p : Nat) (b : Bool) : (s.setP p b).cores = s.cores := rfl
@[simp] theorem State.setP_pads (s : State) (p : Nat) (b : Bool) : (s.setP p b).pads = s.pads := rfl
@[simp] theorem State.setP_evictions (s : State) (p : Nat) (b : Bool) : (s.setP p b).evictions = s.evictions := rfl
@[simp] theorem State.setP_contexts (s : State) (p : Nat) (b : Bool) : (s.setP p b).contexts = s.contexts := rfl
@[simp] theorem State.setP_moving (s : State) (p : Nat) (b : Bool) : (s.setP p b).moving = s.moving := rfl
@[simp] theorem State.setP_homes (s : State) (p : Nat) (b : Bool) : (s.setP p b).homes = s.homes := rfl
@[simp] theorem State.setP_dram (s : State) (p : Nat) (b : Bool) : (s.setP p b).dram = s.dram := rfl
@[simp] theorem State.setP_dramBad (s : State) (p : Nat) (b : Bool) : (s.setP p b).dramBad = s.dramBad := rfl
@[simp] theorem State.setP_dramKey (s : State) (p : Nat) (b : Bool) : (s.setP p b).dramKey = s.dramKey := rfl
@[simp] theorem State.setP_reflexStore (s : State) (p : Nat) (b : Bool) : (s.setP p b).reflexStore = s.reflexStore := rfl
@[simp] theorem State.setP_lxm (s : State) (p : Nat) (b : Bool) : (s.setP p b).lxm = s.lxm := rfl
@[simp] theorem State.setP_accs (s : State) (p : Nat) (b : Bool) : (s.setP p b).accs = s.accs := rfl
@[simp] theorem State.setP_qops (s : State) (p : Nat) (b : Bool) : (s.setP p b).qops = s.qops := rfl
@[simp] theorem State.setP_pairs (s : State) (p : Nat) (b : Bool) : (s.setP p b).pairs = s.pairs := rfl
@[simp] theorem State.setP_counters (s : State) (p : Nat) (b : Bool) : (s.setP p b).counters = s.counters := rfl
@[simp] theorem State.setP_snapshot (s : State) (p : Nat) (b : Bool) : (s.setP p b).snapshot = s.snapshot := rfl
@[simp] theorem State.setP_ibuf (s : State) (p : Nat) (b : Bool) : (s.setP p b).ibuf = s.ibuf := rfl
@[simp] theorem State.setP_front (s : State) (p : Nat) (b : Bool) : (s.setP p b).front = s.front := rfl
@[simp] theorem State.setP_nextId (s : State) (p : Nat) (b : Bool) : (s.setP p b).nextId = s.nextId := rfl
@[simp] theorem State.setP_draw (s : State) (p : Nat) (b : Bool) : (s.setP p b).draw = s.draw := rfl
@[simp] theorem State.setP_cid (s : State) (p : Nat) (b : Bool) : (s.setP p b).cid = s.cid := rfl
@[simp] theorem State.setP_bank (s : State) (p : Nat) (b : Bool) : (s.setP p b).bank = s.bank := rfl
@[simp] theorem State.setP_form (s : State) (p : Nat) (b : Bool) : (s.setP p b).form = s.form := rfl
@[simp] theorem State.setP_bundle (s : State) (p : Nat) (b : Bool) : (s.setP p b).bundle = s.bundle := rfl
@[simp] theorem State.setP_raw (s : State) (p : Nat) (b : Bool) : (s.setP p b).raw = s.raw := rfl
@[simp] theorem State.setP_th (s : State) (p : Nat) (b : Bool) : (s.setP p b).th = s.th.setP p b := rfl
@[simp] theorem State.setP_src (s : State) (p : Nat) (b : Bool) : (s.setP p b).src = s.src := rfl
@[simp] theorem State.setP_co (s : State) (p : Nat) (b : Bool) : (s.setP p b).co = s.co := rfl
@[simp] theorem State.setP_stat (s : State) (p : Nat) (b : Bool) : (s.setP p b).stat = s.stat := rfl

/-! `State.setCore` -/

@[simp] theorem State.setCore_now (s : State) (c : Nat) (k : Core) : (s.setCore c k).now = s.now := rfl
@[simp] theorem State.setCore_meridian (s : State) (c : Nat) (k : Core) : (s.setCore c k).meridian = s.meridian := rfl
@[simp] theorem State.setCore_slew (s : State) (c : Nat) (k : Core) : (s.setCore c k).slew = s.slew := rfl
@[simp] theorem State.setCore_agenda (s : State) (c : Nat) (k : Core) : (s.setCore c k).agenda = s.agenda := rfl
@[simp] theorem State.setCore_inputs (s : State) (c : Nat) (k : Core) : (s.setCore c k).inputs = s.inputs := rfl
@[simp] theorem State.setCore_upsets (s : State) (c : Nat) (k : Core) : (s.setCore c k).upsets = s.upsets := rfl
@[simp] theorem State.setCore_event (s : State) (c : Nat) (k : Core) : (s.setCore c k).event = s.event := rfl
@[simp] theorem State.setCore_kept (s : State) (c : Nat) (k : Core) : (s.setCore c k).kept = s.kept := rfl
@[simp] theorem State.setCore_cores (s : State) (c : Nat) (k : Core) : (s.setCore c k).cores = mset s.cores c k := rfl
@[simp] theorem State.setCore_pads (s : State) (c : Nat) (k : Core) : (s.setCore c k).pads = s.pads := rfl
@[simp] theorem State.setCore_evictions (s : State) (c : Nat) (k : Core) : (s.setCore c k).evictions = s.evictions := rfl
@[simp] theorem State.setCore_contexts (s : State) (c : Nat) (k : Core) : (s.setCore c k).contexts = s.contexts := rfl
@[simp] theorem State.setCore_moving (s : State) (c : Nat) (k : Core) : (s.setCore c k).moving = s.moving := rfl
@[simp] theorem State.setCore_homes (s : State) (c : Nat) (k : Core) : (s.setCore c k).homes = s.homes := rfl
@[simp] theorem State.setCore_dram (s : State) (c : Nat) (k : Core) : (s.setCore c k).dram = s.dram := rfl
@[simp] theorem State.setCore_dramBad (s : State) (c : Nat) (k : Core) : (s.setCore c k).dramBad = s.dramBad := rfl
@[simp] theorem State.setCore_dramKey (s : State) (c : Nat) (k : Core) : (s.setCore c k).dramKey = s.dramKey := rfl
@[simp] theorem State.setCore_reflexStore (s : State) (c : Nat) (k : Core) : (s.setCore c k).reflexStore = s.reflexStore := rfl
@[simp] theorem State.setCore_lxm (s : State) (c : Nat) (k : Core) : (s.setCore c k).lxm = s.lxm := rfl
@[simp] theorem State.setCore_accs (s : State) (c : Nat) (k : Core) : (s.setCore c k).accs = s.accs := rfl
@[simp] theorem State.setCore_qops (s : State) (c : Nat) (k : Core) : (s.setCore c k).qops = s.qops := rfl
@[simp] theorem State.setCore_pairs (s : State) (c : Nat) (k : Core) : (s.setCore c k).pairs = s.pairs := rfl
@[simp] theorem State.setCore_counters (s : State) (c : Nat) (k : Core) : (s.setCore c k).counters = s.counters := rfl
@[simp] theorem State.setCore_snapshot (s : State) (c : Nat) (k : Core) : (s.setCore c k).snapshot = s.snapshot := rfl
@[simp] theorem State.setCore_ibuf (s : State) (c : Nat) (k : Core) : (s.setCore c k).ibuf = s.ibuf := rfl
@[simp] theorem State.setCore_front (s : State) (c : Nat) (k : Core) : (s.setCore c k).front = s.front := rfl
@[simp] theorem State.setCore_nextId (s : State) (c : Nat) (k : Core) : (s.setCore c k).nextId = s.nextId := rfl
@[simp] theorem State.setCore_draw (s : State) (c : Nat) (k : Core) : (s.setCore c k).draw = s.draw := rfl
@[simp] theorem State.setCore_cid (s : State) (c : Nat) (k : Core) : (s.setCore c k).cid = s.cid := rfl
@[simp] theorem State.setCore_bank (s : State) (c : Nat) (k : Core) : (s.setCore c k).bank = s.bank := rfl
@[simp] theorem State.setCore_form (s : State) (c : Nat) (k : Core) : (s.setCore c k).form = s.form := rfl
@[simp] theorem State.setCore_bundle (s : State) (c : Nat) (k : Core) : (s.setCore c k).bundle = s.bundle := rfl
@[simp] theorem State.setCore_raw (s : State) (c : Nat) (k : Core) : (s.setCore c k).raw = s.raw := rfl
@[simp] theorem State.setCore_th (s : State) (c : Nat) (k : Core) : (s.setCore c k).th = s.th := rfl
@[simp] theorem State.setCore_src (s : State) (c : Nat) (k : Core) : (s.setCore c k).src = s.src := rfl
@[simp] theorem State.setCore_co (s : State) (c : Nat) (k : Core) : (s.setCore c k).co = s.co := rfl
@[simp] theorem State.setCore_stat (s : State) (c : Nat) (k : Core) : (s.setCore c k).stat = s.stat := rfl

/-! `State.setPad` -/

@[simp] theorem State.setPad_now (s : State) (cl : Nat) (m : Sram) : (s.setPad cl m).now = s.now := rfl
@[simp] theorem State.setPad_meridian (s : State) (cl : Nat) (m : Sram) : (s.setPad cl m).meridian = s.meridian := rfl
@[simp] theorem State.setPad_slew (s : State) (cl : Nat) (m : Sram) : (s.setPad cl m).slew = s.slew := rfl
@[simp] theorem State.setPad_agenda (s : State) (cl : Nat) (m : Sram) : (s.setPad cl m).agenda = s.agenda := rfl
@[simp] theorem State.setPad_inputs (s : State) (cl : Nat) (m : Sram) : (s.setPad cl m).inputs = s.inputs := rfl
@[simp] theorem State.setPad_upsets (s : State) (cl : Nat) (m : Sram) : (s.setPad cl m).upsets = s.upsets := rfl
@[simp] theorem State.setPad_event (s : State) (cl : Nat) (m : Sram) : (s.setPad cl m).event = s.event := rfl
@[simp] theorem State.setPad_kept (s : State) (cl : Nat) (m : Sram) : (s.setPad cl m).kept = s.kept := rfl
@[simp] theorem State.setPad_cores (s : State) (cl : Nat) (m : Sram) : (s.setPad cl m).cores = s.cores := rfl
@[simp] theorem State.setPad_pads (s : State) (cl : Nat) (m : Sram) : (s.setPad cl m).pads = mset s.pads cl m := rfl
@[simp] theorem State.setPad_evictions (s : State) (cl : Nat) (m : Sram) : (s.setPad cl m).evictions = s.evictions := rfl
@[simp] theorem State.setPad_contexts (s : State) (cl : Nat) (m : Sram) : (s.setPad cl m).contexts = s.contexts := rfl
@[simp] theorem State.setPad_moving (s : State) (cl : Nat) (m : Sram) : (s.setPad cl m).moving = s.moving := rfl
@[simp] theorem State.setPad_homes (s : State) (cl : Nat) (m : Sram) : (s.setPad cl m).homes = s.homes := rfl
@[simp] theorem State.setPad_dram (s : State) (cl : Nat) (m : Sram) : (s.setPad cl m).dram = s.dram := rfl
@[simp] theorem State.setPad_dramBad (s : State) (cl : Nat) (m : Sram) : (s.setPad cl m).dramBad = s.dramBad := rfl
@[simp] theorem State.setPad_dramKey (s : State) (cl : Nat) (m : Sram) : (s.setPad cl m).dramKey = s.dramKey := rfl
@[simp] theorem State.setPad_reflexStore (s : State) (cl : Nat) (m : Sram) : (s.setPad cl m).reflexStore = s.reflexStore := rfl
@[simp] theorem State.setPad_lxm (s : State) (cl : Nat) (m : Sram) : (s.setPad cl m).lxm = s.lxm := rfl
@[simp] theorem State.setPad_accs (s : State) (cl : Nat) (m : Sram) : (s.setPad cl m).accs = s.accs := rfl
@[simp] theorem State.setPad_qops (s : State) (cl : Nat) (m : Sram) : (s.setPad cl m).qops = s.qops := rfl
@[simp] theorem State.setPad_pairs (s : State) (cl : Nat) (m : Sram) : (s.setPad cl m).pairs = s.pairs := rfl
@[simp] theorem State.setPad_counters (s : State) (cl : Nat) (m : Sram) : (s.setPad cl m).counters = s.counters := rfl
@[simp] theorem State.setPad_snapshot (s : State) (cl : Nat) (m : Sram) : (s.setPad cl m).snapshot = s.snapshot := rfl
@[simp] theorem State.setPad_ibuf (s : State) (cl : Nat) (m : Sram) : (s.setPad cl m).ibuf = s.ibuf := rfl
@[simp] theorem State.setPad_front (s : State) (cl : Nat) (m : Sram) : (s.setPad cl m).front = s.front := rfl
@[simp] theorem State.setPad_nextId (s : State) (cl : Nat) (m : Sram) : (s.setPad cl m).nextId = s.nextId := rfl
@[simp] theorem State.setPad_draw (s : State) (cl : Nat) (m : Sram) : (s.setPad cl m).draw = s.draw := rfl
@[simp] theorem State.setPad_cid (s : State) (cl : Nat) (m : Sram) : (s.setPad cl m).cid = s.cid := rfl
@[simp] theorem State.setPad_bank (s : State) (cl : Nat) (m : Sram) : (s.setPad cl m).bank = s.bank := rfl
@[simp] theorem State.setPad_form (s : State) (cl : Nat) (m : Sram) : (s.setPad cl m).form = s.form := rfl
@[simp] theorem State.setPad_bundle (s : State) (cl : Nat) (m : Sram) : (s.setPad cl m).bundle = s.bundle := rfl
@[simp] theorem State.setPad_raw (s : State) (cl : Nat) (m : Sram) : (s.setPad cl m).raw = s.raw := rfl
@[simp] theorem State.setPad_th (s : State) (cl : Nat) (m : Sram) : (s.setPad cl m).th = s.th := rfl
@[simp] theorem State.setPad_src (s : State) (cl : Nat) (m : Sram) : (s.setPad cl m).src = s.src := rfl
@[simp] theorem State.setPad_co (s : State) (cl : Nat) (m : Sram) : (s.setPad cl m).co = s.co := rfl
@[simp] theorem State.setPad_stat (s : State) (cl : Nat) (m : Sram) : (s.setPad cl m).stat = s.stat := rfl

/-! `State.setHome` -/

@[simp] theorem State.setHome_now (s : State) (h : Nat) (x : Home) : (s.setHome h x).now = s.now := rfl
@[simp] theorem State.setHome_meridian (s : State) (h : Nat) (x : Home) : (s.setHome h x).meridian = s.meridian := rfl
@[simp] theorem State.setHome_slew (s : State) (h : Nat) (x : Home) : (s.setHome h x).slew = s.slew := rfl
@[simp] theorem State.setHome_agenda (s : State) (h : Nat) (x : Home) : (s.setHome h x).agenda = s.agenda := rfl
@[simp] theorem State.setHome_inputs (s : State) (h : Nat) (x : Home) : (s.setHome h x).inputs = s.inputs := rfl
@[simp] theorem State.setHome_upsets (s : State) (h : Nat) (x : Home) : (s.setHome h x).upsets = s.upsets := rfl
@[simp] theorem State.setHome_event (s : State) (h : Nat) (x : Home) : (s.setHome h x).event = s.event := rfl
@[simp] theorem State.setHome_kept (s : State) (h : Nat) (x : Home) : (s.setHome h x).kept = s.kept := rfl
@[simp] theorem State.setHome_cores (s : State) (h : Nat) (x : Home) : (s.setHome h x).cores = s.cores := rfl
@[simp] theorem State.setHome_pads (s : State) (h : Nat) (x : Home) : (s.setHome h x).pads = s.pads := rfl
@[simp] theorem State.setHome_evictions (s : State) (h : Nat) (x : Home) : (s.setHome h x).evictions = s.evictions := rfl
@[simp] theorem State.setHome_contexts (s : State) (h : Nat) (x : Home) : (s.setHome h x).contexts = s.contexts := rfl
@[simp] theorem State.setHome_moving (s : State) (h : Nat) (x : Home) : (s.setHome h x).moving = s.moving := rfl
@[simp] theorem State.setHome_homes (s : State) (h : Nat) (x : Home) : (s.setHome h x).homes = mset s.homes h x := rfl
@[simp] theorem State.setHome_dram (s : State) (h : Nat) (x : Home) : (s.setHome h x).dram = s.dram := rfl
@[simp] theorem State.setHome_dramBad (s : State) (h : Nat) (x : Home) : (s.setHome h x).dramBad = s.dramBad := rfl
@[simp] theorem State.setHome_dramKey (s : State) (h : Nat) (x : Home) : (s.setHome h x).dramKey = s.dramKey := rfl
@[simp] theorem State.setHome_reflexStore (s : State) (h : Nat) (x : Home) : (s.setHome h x).reflexStore = s.reflexStore := rfl
@[simp] theorem State.setHome_lxm (s : State) (h : Nat) (x : Home) : (s.setHome h x).lxm = s.lxm := rfl
@[simp] theorem State.setHome_accs (s : State) (h : Nat) (x : Home) : (s.setHome h x).accs = s.accs := rfl
@[simp] theorem State.setHome_qops (s : State) (h : Nat) (x : Home) : (s.setHome h x).qops = s.qops := rfl
@[simp] theorem State.setHome_pairs (s : State) (h : Nat) (x : Home) : (s.setHome h x).pairs = s.pairs := rfl
@[simp] theorem State.setHome_counters (s : State) (h : Nat) (x : Home) : (s.setHome h x).counters = s.counters := rfl
@[simp] theorem State.setHome_snapshot (s : State) (h : Nat) (x : Home) : (s.setHome h x).snapshot = s.snapshot := rfl
@[simp] theorem State.setHome_ibuf (s : State) (h : Nat) (x : Home) : (s.setHome h x).ibuf = s.ibuf := rfl
@[simp] theorem State.setHome_front (s : State) (h : Nat) (x : Home) : (s.setHome h x).front = s.front := rfl
@[simp] theorem State.setHome_nextId (s : State) (h : Nat) (x : Home) : (s.setHome h x).nextId = s.nextId := rfl
@[simp] theorem State.setHome_draw (s : State) (h : Nat) (x : Home) : (s.setHome h x).draw = s.draw := rfl
@[simp] theorem State.setHome_cid (s : State) (h : Nat) (x : Home) : (s.setHome h x).cid = s.cid := rfl
@[simp] theorem State.setHome_bank (s : State) (h : Nat) (x : Home) : (s.setHome h x).bank = s.bank := rfl
@[simp] theorem State.setHome_form (s : State) (h : Nat) (x : Home) : (s.setHome h x).form = s.form := rfl
@[simp] theorem State.setHome_bundle (s : State) (h : Nat) (x : Home) : (s.setHome h x).bundle = s.bundle := rfl
@[simp] theorem State.setHome_raw (s : State) (h : Nat) (x : Home) : (s.setHome h x).raw = s.raw := rfl
@[simp] theorem State.setHome_th (s : State) (h : Nat) (x : Home) : (s.setHome h x).th = s.th := rfl
@[simp] theorem State.setHome_src (s : State) (h : Nat) (x : Home) : (s.setHome h x).src = s.src := rfl
@[simp] theorem State.setHome_co (s : State) (h : Nat) (x : Home) : (s.setHome h x).co = s.co := rfl
@[simp] theorem State.setHome_stat (s : State) (h : Nat) (x : Home) : (s.setHome h x).stat = s.stat := rfl

/-! `State.modFront` -/

@[simp] theorem State.modFront_now (s : State) (f : Front → Front) : (s.modFront f).now = s.now := rfl
@[simp] theorem State.modFront_meridian (s : State) (f : Front → Front) : (s.modFront f).meridian = s.meridian := rfl
@[simp] theorem State.modFront_slew (s : State) (f : Front → Front) : (s.modFront f).slew = s.slew := rfl
@[simp] theorem State.modFront_agenda (s : State) (f : Front → Front) : (s.modFront f).agenda = s.agenda := rfl
@[simp] theorem State.modFront_inputs (s : State) (f : Front → Front) : (s.modFront f).inputs = s.inputs := rfl
@[simp] theorem State.modFront_upsets (s : State) (f : Front → Front) : (s.modFront f).upsets = s.upsets := rfl
@[simp] theorem State.modFront_event (s : State) (f : Front → Front) : (s.modFront f).event = s.event := rfl
@[simp] theorem State.modFront_kept (s : State) (f : Front → Front) : (s.modFront f).kept = s.kept := rfl
@[simp] theorem State.modFront_cores (s : State) (f : Front → Front) : (s.modFront f).cores = s.cores := rfl
@[simp] theorem State.modFront_pads (s : State) (f : Front → Front) : (s.modFront f).pads = s.pads := rfl
@[simp] theorem State.modFront_evictions (s : State) (f : Front → Front) : (s.modFront f).evictions = s.evictions := rfl
@[simp] theorem State.modFront_contexts (s : State) (f : Front → Front) : (s.modFront f).contexts = s.contexts := rfl
@[simp] theorem State.modFront_moving (s : State) (f : Front → Front) : (s.modFront f).moving = s.moving := rfl
@[simp] theorem State.modFront_homes (s : State) (f : Front → Front) : (s.modFront f).homes = s.homes := rfl
@[simp] theorem State.modFront_dram (s : State) (f : Front → Front) : (s.modFront f).dram = s.dram := rfl
@[simp] theorem State.modFront_dramBad (s : State) (f : Front → Front) : (s.modFront f).dramBad = s.dramBad := rfl
@[simp] theorem State.modFront_dramKey (s : State) (f : Front → Front) : (s.modFront f).dramKey = s.dramKey := rfl
@[simp] theorem State.modFront_reflexStore (s : State) (f : Front → Front) : (s.modFront f).reflexStore = s.reflexStore := rfl
@[simp] theorem State.modFront_lxm (s : State) (f : Front → Front) : (s.modFront f).lxm = s.lxm := rfl
@[simp] theorem State.modFront_accs (s : State) (f : Front → Front) : (s.modFront f).accs = s.accs := rfl
@[simp] theorem State.modFront_qops (s : State) (f : Front → Front) : (s.modFront f).qops = s.qops := rfl
@[simp] theorem State.modFront_pairs (s : State) (f : Front → Front) : (s.modFront f).pairs = s.pairs := rfl
@[simp] theorem State.modFront_counters (s : State) (f : Front → Front) : (s.modFront f).counters = s.counters := rfl
@[simp] theorem State.modFront_snapshot (s : State) (f : Front → Front) : (s.modFront f).snapshot = s.snapshot := rfl
@[simp] theorem State.modFront_ibuf (s : State) (f : Front → Front) : (s.modFront f).ibuf = s.ibuf := rfl
@[simp] theorem State.modFront_front (s : State) (f : Front → Front) : (s.modFront f).front = f s.front := rfl
@[simp] theorem State.modFront_nextId (s : State) (f : Front → Front) : (s.modFront f).nextId = s.nextId := rfl
@[simp] theorem State.modFront_draw (s : State) (f : Front → Front) : (s.modFront f).draw = s.draw := rfl
@[simp] theorem State.modFront_cid (s : State) (f : Front → Front) : (s.modFront f).cid = s.cid := rfl
@[simp] theorem State.modFront_bank (s : State) (f : Front → Front) : (s.modFront f).bank = s.bank := rfl
@[simp] theorem State.modFront_form (s : State) (f : Front → Front) : (s.modFront f).form = s.form := rfl
@[simp] theorem State.modFront_bundle (s : State) (f : Front → Front) : (s.modFront f).bundle = s.bundle := rfl
@[simp] theorem State.modFront_raw (s : State) (f : Front → Front) : (s.modFront f).raw = s.raw := rfl
@[simp] theorem State.modFront_th (s : State) (f : Front → Front) : (s.modFront f).th = s.th := rfl
@[simp] theorem State.modFront_src (s : State) (f : Front → Front) : (s.modFront f).src = s.src := rfl
@[simp] theorem State.modFront_co (s : State) (f : Front → Front) : (s.modFront f).co = s.co := rfl
@[simp] theorem State.modFront_stat (s : State) (f : Front → Front) : (s.modFront f).stat = s.stat := rfl

/-! `State.post` -/

@[simp] theorem State.post_now (s : State) (n : Nat) (e : Event) : (s.post n e).now = s.now := rfl
@[simp] theorem State.post_meridian (s : State) (n : Nat) (e : Event) : (s.post n e).meridian = s.meridian := rfl
@[simp] theorem State.post_slew (s : State) (n : Nat) (e : Event) : (s.post n e).slew = s.slew := rfl
@[simp] theorem State.post_agenda (s : State) (n : Nat) (e : Event) : (s.post n e).agenda = insertEvent (s.now + n) e s.agenda := rfl
@[simp] theorem State.post_inputs (s : State) (n : Nat) (e : Event) : (s.post n e).inputs = s.inputs := rfl
@[simp] theorem State.post_upsets (s : State) (n : Nat) (e : Event) : (s.post n e).upsets = s.upsets := rfl
@[simp] theorem State.post_event (s : State) (n : Nat) (e : Event) : (s.post n e).event = s.event := rfl
@[simp] theorem State.post_kept (s : State) (n : Nat) (e : Event) : (s.post n e).kept = s.kept := rfl
@[simp] theorem State.post_cores (s : State) (n : Nat) (e : Event) : (s.post n e).cores = s.cores := rfl
@[simp] theorem State.post_pads (s : State) (n : Nat) (e : Event) : (s.post n e).pads = s.pads := rfl
@[simp] theorem State.post_evictions (s : State) (n : Nat) (e : Event) : (s.post n e).evictions = s.evictions := rfl
@[simp] theorem State.post_contexts (s : State) (n : Nat) (e : Event) : (s.post n e).contexts = s.contexts := rfl
@[simp] theorem State.post_moving (s : State) (n : Nat) (e : Event) : (s.post n e).moving = s.moving := rfl
@[simp] theorem State.post_homes (s : State) (n : Nat) (e : Event) : (s.post n e).homes = s.homes := rfl
@[simp] theorem State.post_dram (s : State) (n : Nat) (e : Event) : (s.post n e).dram = s.dram := rfl
@[simp] theorem State.post_dramBad (s : State) (n : Nat) (e : Event) : (s.post n e).dramBad = s.dramBad := rfl
@[simp] theorem State.post_dramKey (s : State) (n : Nat) (e : Event) : (s.post n e).dramKey = s.dramKey := rfl
@[simp] theorem State.post_reflexStore (s : State) (n : Nat) (e : Event) : (s.post n e).reflexStore = s.reflexStore := rfl
@[simp] theorem State.post_lxm (s : State) (n : Nat) (e : Event) : (s.post n e).lxm = s.lxm := rfl
@[simp] theorem State.post_accs (s : State) (n : Nat) (e : Event) : (s.post n e).accs = s.accs := rfl
@[simp] theorem State.post_qops (s : State) (n : Nat) (e : Event) : (s.post n e).qops = s.qops := rfl
@[simp] theorem State.post_pairs (s : State) (n : Nat) (e : Event) : (s.post n e).pairs = s.pairs := rfl
@[simp] theorem State.post_counters (s : State) (n : Nat) (e : Event) : (s.post n e).counters = s.counters := rfl
@[simp] theorem State.post_snapshot (s : State) (n : Nat) (e : Event) : (s.post n e).snapshot = s.snapshot := rfl
@[simp] theorem State.post_ibuf (s : State) (n : Nat) (e : Event) : (s.post n e).ibuf = s.ibuf := rfl
@[simp] theorem State.post_front (s : State) (n : Nat) (e : Event) : (s.post n e).front = s.front := rfl
@[simp] theorem State.post_nextId (s : State) (n : Nat) (e : Event) : (s.post n e).nextId = s.nextId := rfl
@[simp] theorem State.post_draw (s : State) (n : Nat) (e : Event) : (s.post n e).draw = s.draw := rfl
@[simp] theorem State.post_cid (s : State) (n : Nat) (e : Event) : (s.post n e).cid = s.cid := rfl
@[simp] theorem State.post_bank (s : State) (n : Nat) (e : Event) : (s.post n e).bank = s.bank := rfl
@[simp] theorem State.post_form (s : State) (n : Nat) (e : Event) : (s.post n e).form = s.form := rfl
@[simp] theorem State.post_bundle (s : State) (n : Nat) (e : Event) : (s.post n e).bundle = s.bundle := rfl
@[simp] theorem State.post_raw (s : State) (n : Nat) (e : Event) : (s.post n e).raw = s.raw := rfl
@[simp] theorem State.post_th (s : State) (n : Nat) (e : Event) : (s.post n e).th = s.th := rfl
@[simp] theorem State.post_src (s : State) (n : Nat) (e : Event) : (s.post n e).src = s.src := rfl
@[simp] theorem State.post_co (s : State) (n : Nat) (e : Event) : (s.post n e).co = s.co := rfl
@[simp] theorem State.post_stat (s : State) (n : Nat) (e : Event) : (s.post n e).stat = s.stat := rfl

/-! `State.unpost` -/

@[simp] theorem State.unpost_now (s : State) (f : Event → Bool) : (s.unpost f).now = s.now := rfl
@[simp] theorem State.unpost_meridian (s : State) (f : Event → Bool) : (s.unpost f).meridian = s.meridian := rfl
@[simp] theorem State.unpost_slew (s : State) (f : Event → Bool) : (s.unpost f).slew = s.slew := rfl
@[simp] theorem State.unpost_agenda (s : State) (f : Event → Bool) : (s.unpost f).agenda = s.agenda.filter fun e => !f e.2 := rfl
@[simp] theorem State.unpost_inputs (s : State) (f : Event → Bool) : (s.unpost f).inputs = s.inputs := rfl
@[simp] theorem State.unpost_upsets (s : State) (f : Event → Bool) : (s.unpost f).upsets = s.upsets := rfl
@[simp] theorem State.unpost_event (s : State) (f : Event → Bool) : (s.unpost f).event = s.event := rfl
@[simp] theorem State.unpost_kept (s : State) (f : Event → Bool) : (s.unpost f).kept = s.kept := rfl
@[simp] theorem State.unpost_cores (s : State) (f : Event → Bool) : (s.unpost f).cores = s.cores := rfl
@[simp] theorem State.unpost_pads (s : State) (f : Event → Bool) : (s.unpost f).pads = s.pads := rfl
@[simp] theorem State.unpost_evictions (s : State) (f : Event → Bool) : (s.unpost f).evictions = s.evictions := rfl
@[simp] theorem State.unpost_contexts (s : State) (f : Event → Bool) : (s.unpost f).contexts = s.contexts := rfl
@[simp] theorem State.unpost_moving (s : State) (f : Event → Bool) : (s.unpost f).moving = s.moving := rfl
@[simp] theorem State.unpost_homes (s : State) (f : Event → Bool) : (s.unpost f).homes = s.homes := rfl
@[simp] theorem State.unpost_dram (s : State) (f : Event → Bool) : (s.unpost f).dram = s.dram := rfl
@[simp] theorem State.unpost_dramBad (s : State) (f : Event → Bool) : (s.unpost f).dramBad = s.dramBad := rfl
@[simp] theorem State.unpost_dramKey (s : State) (f : Event → Bool) : (s.unpost f).dramKey = s.dramKey := rfl
@[simp] theorem State.unpost_reflexStore (s : State) (f : Event → Bool) : (s.unpost f).reflexStore = s.reflexStore := rfl
@[simp] theorem State.unpost_lxm (s : State) (f : Event → Bool) : (s.unpost f).lxm = s.lxm := rfl
@[simp] theorem State.unpost_accs (s : State) (f : Event → Bool) : (s.unpost f).accs = s.accs := rfl
@[simp] theorem State.unpost_qops (s : State) (f : Event → Bool) : (s.unpost f).qops = s.qops := rfl
@[simp] theorem State.unpost_pairs (s : State) (f : Event → Bool) : (s.unpost f).pairs = s.pairs := rfl
@[simp] theorem State.unpost_counters (s : State) (f : Event → Bool) : (s.unpost f).counters = s.counters := rfl
@[simp] theorem State.unpost_snapshot (s : State) (f : Event → Bool) : (s.unpost f).snapshot = s.snapshot := rfl
@[simp] theorem State.unpost_ibuf (s : State) (f : Event → Bool) : (s.unpost f).ibuf = s.ibuf := rfl
@[simp] theorem State.unpost_front (s : State) (f : Event → Bool) : (s.unpost f).front = s.front := rfl
@[simp] theorem State.unpost_nextId (s : State) (f : Event → Bool) : (s.unpost f).nextId = s.nextId := rfl
@[simp] theorem State.unpost_draw (s : State) (f : Event → Bool) : (s.unpost f).draw = s.draw := rfl
@[simp] theorem State.unpost_cid (s : State) (f : Event → Bool) : (s.unpost f).cid = s.cid := rfl
@[simp] theorem State.unpost_bank (s : State) (f : Event → Bool) : (s.unpost f).bank = s.bank := rfl
@[simp] theorem State.unpost_form (s : State) (f : Event → Bool) : (s.unpost f).form = s.form := rfl
@[simp] theorem State.unpost_bundle (s : State) (f : Event → Bool) : (s.unpost f).bundle = s.bundle := rfl
@[simp] theorem State.unpost_raw (s : State) (f : Event → Bool) : (s.unpost f).raw = s.raw := rfl
@[simp] theorem State.unpost_th (s : State) (f : Event → Bool) : (s.unpost f).th = s.th := rfl
@[simp] theorem State.unpost_src (s : State) (f : Event → Bool) : (s.unpost f).src = s.src := rfl
@[simp] theorem State.unpost_co (s : State) (f : Event → Bool) : (s.unpost f).co = s.co := rfl
@[simp] theorem State.unpost_stat (s : State) (f : Event → Bool) : (s.unpost f).stat = s.stat := rfl

/-! `State.count` -/

@[simp] theorem State.count_now (s : State) (u k : Nat) : (s.count u k).now = s.now := rfl
@[simp] theorem State.count_meridian (s : State) (u k : Nat) : (s.count u k).meridian = s.meridian := rfl
@[simp] theorem State.count_slew (s : State) (u k : Nat) : (s.count u k).slew = s.slew := rfl
@[simp] theorem State.count_agenda (s : State) (u k : Nat) : (s.count u k).agenda = s.agenda := rfl
@[simp] theorem State.count_inputs (s : State) (u k : Nat) : (s.count u k).inputs = s.inputs := rfl
@[simp] theorem State.count_upsets (s : State) (u k : Nat) : (s.count u k).upsets = s.upsets := rfl
@[simp] theorem State.count_event (s : State) (u k : Nat) : (s.count u k).event = s.event := rfl
@[simp] theorem State.count_kept (s : State) (u k : Nat) : (s.count u k).kept = s.kept := rfl
@[simp] theorem State.count_cores (s : State) (u k : Nat) : (s.count u k).cores = s.cores := rfl
@[simp] theorem State.count_pads (s : State) (u k : Nat) : (s.count u k).pads = s.pads := rfl
@[simp] theorem State.count_evictions (s : State) (u k : Nat) : (s.count u k).evictions = s.evictions := rfl
@[simp] theorem State.count_contexts (s : State) (u k : Nat) : (s.count u k).contexts = s.contexts := rfl
@[simp] theorem State.count_moving (s : State) (u k : Nat) : (s.count u k).moving = s.moving := rfl
@[simp] theorem State.count_homes (s : State) (u k : Nat) : (s.count u k).homes = s.homes := rfl
@[simp] theorem State.count_dram (s : State) (u k : Nat) : (s.count u k).dram = s.dram := rfl
@[simp] theorem State.count_dramBad (s : State) (u k : Nat) : (s.count u k).dramBad = s.dramBad := rfl
@[simp] theorem State.count_dramKey (s : State) (u k : Nat) : (s.count u k).dramKey = s.dramKey := rfl
@[simp] theorem State.count_reflexStore (s : State) (u k : Nat) : (s.count u k).reflexStore = s.reflexStore := rfl
@[simp] theorem State.count_lxm (s : State) (u k : Nat) : (s.count u k).lxm = s.lxm := rfl
@[simp] theorem State.count_accs (s : State) (u k : Nat) : (s.count u k).accs = s.accs := rfl
@[simp] theorem State.count_qops (s : State) (u k : Nat) : (s.count u k).qops = s.qops := rfl
@[simp] theorem State.count_pairs (s : State) (u k : Nat) : (s.count u k).pairs = s.pairs := rfl
@[simp] theorem State.count_counters (s : State) (u k : Nat) : (s.count u k).counters = mset s.counters (16 * u + k) (min ((mget s.counters (16 * u + k)).getD 0 + 1) 0xFFFFFFFF) := rfl
@[simp] theorem State.count_snapshot (s : State) (u k : Nat) : (s.count u k).snapshot = s.snapshot := rfl
@[simp] theorem State.count_ibuf (s : State) (u k : Nat) : (s.count u k).ibuf = s.ibuf := rfl
@[simp] theorem State.count_front (s : State) (u k : Nat) : (s.count u k).front = s.front := rfl
@[simp] theorem State.count_nextId (s : State) (u k : Nat) : (s.count u k).nextId = s.nextId := rfl
@[simp] theorem State.count_draw (s : State) (u k : Nat) : (s.count u k).draw = s.draw := rfl
@[simp] theorem State.count_cid (s : State) (u k : Nat) : (s.count u k).cid = s.cid := rfl
@[simp] theorem State.count_bank (s : State) (u k : Nat) : (s.count u k).bank = s.bank := rfl
@[simp] theorem State.count_form (s : State) (u k : Nat) : (s.count u k).form = s.form := rfl
@[simp] theorem State.count_bundle (s : State) (u k : Nat) : (s.count u k).bundle = s.bundle := rfl
@[simp] theorem State.count_raw (s : State) (u k : Nat) : (s.count u k).raw = s.raw := rfl
@[simp] theorem State.count_th (s : State) (u k : Nat) : (s.count u k).th = s.th := rfl
@[simp] theorem State.count_src (s : State) (u k : Nat) : (s.count u k).src = s.src := rfl
@[simp] theorem State.count_co (s : State) (u k : Nat) : (s.count u k).co = s.co := rfl
@[simp] theorem State.count_stat (s : State) (u k : Nat) : (s.count u k).stat = s.stat := rfl

/-! `State.store` -/

@[simp] theorem State.store_now (s : State) : s.store.now = s.now := rfl
@[simp] theorem State.store_meridian (s : State) : s.store.meridian = s.meridian := rfl
@[simp] theorem State.store_slew (s : State) : s.store.slew = s.slew := rfl
@[simp] theorem State.store_agenda (s : State) : s.store.agenda = s.agenda := rfl
@[simp] theorem State.store_inputs (s : State) : s.store.inputs = s.inputs := rfl
@[simp] theorem State.store_upsets (s : State) : s.store.upsets = s.upsets := rfl
@[simp] theorem State.store_event (s : State) : s.store.event = s.event := rfl
@[simp] theorem State.store_kept (s : State) : s.store.kept = s.kept := rfl
@[simp] theorem State.store_cores (s : State) : s.store.cores = mset s.cores s.cid { s.co with banks := mset s.co.banks s.bank s.th } := rfl
@[simp] theorem State.store_pads (s : State) : s.store.pads = s.pads := rfl
@[simp] theorem State.store_evictions (s : State) : s.store.evictions = s.evictions := rfl
@[simp] theorem State.store_contexts (s : State) : s.store.contexts = s.contexts := rfl
@[simp] theorem State.store_moving (s : State) : s.store.moving = s.moving := rfl
@[simp] theorem State.store_homes (s : State) : s.store.homes = s.homes := rfl
@[simp] theorem State.store_dram (s : State) : s.store.dram = s.dram := rfl
@[simp] theorem State.store_dramBad (s : State) : s.store.dramBad = s.dramBad := rfl
@[simp] theorem State.store_dramKey (s : State) : s.store.dramKey = s.dramKey := rfl
@[simp] theorem State.store_reflexStore (s : State) : s.store.reflexStore = s.reflexStore := rfl
@[simp] theorem State.store_lxm (s : State) : s.store.lxm = s.lxm := rfl
@[simp] theorem State.store_accs (s : State) : s.store.accs = s.accs := rfl
@[simp] theorem State.store_qops (s : State) : s.store.qops = s.qops := rfl
@[simp] theorem State.store_pairs (s : State) : s.store.pairs = s.pairs := rfl
@[simp] theorem State.store_counters (s : State) : s.store.counters = s.counters := rfl
@[simp] theorem State.store_snapshot (s : State) : s.store.snapshot = s.snapshot := rfl
@[simp] theorem State.store_ibuf (s : State) : s.store.ibuf = s.ibuf := rfl
@[simp] theorem State.store_front (s : State) : s.store.front = s.front := rfl
@[simp] theorem State.store_nextId (s : State) : s.store.nextId = s.nextId := rfl
@[simp] theorem State.store_draw (s : State) : s.store.draw = s.draw := rfl
@[simp] theorem State.store_cid (s : State) : s.store.cid = s.cid := rfl
@[simp] theorem State.store_bank (s : State) : s.store.bank = s.bank := rfl
@[simp] theorem State.store_form (s : State) : s.store.form = s.form := rfl
@[simp] theorem State.store_bundle (s : State) : s.store.bundle = s.bundle := rfl
@[simp] theorem State.store_raw (s : State) : s.store.raw = s.raw := rfl
@[simp] theorem State.store_th (s : State) : s.store.th = s.th := rfl
@[simp] theorem State.store_src (s : State) : s.store.src = s.src := rfl
@[simp] theorem State.store_co (s : State) : s.store.co = s.co := rfl
@[simp] theorem State.store_stat (s : State) : s.store.stat = s.stat := rfl

/-! `State.reload` -/

@[simp] theorem State.reload_now (s : State) : s.reload.now = s.now := rfl
@[simp] theorem State.reload_meridian (s : State) : s.reload.meridian = s.meridian := rfl
@[simp] theorem State.reload_slew (s : State) : s.reload.slew = s.slew := rfl
@[simp] theorem State.reload_agenda (s : State) : s.reload.agenda = s.agenda := rfl
@[simp] theorem State.reload_inputs (s : State) : s.reload.inputs = s.inputs := rfl
@[simp] theorem State.reload_upsets (s : State) : s.reload.upsets = s.upsets := rfl
@[simp] theorem State.reload_event (s : State) : s.reload.event = s.event := rfl
@[simp] theorem State.reload_kept (s : State) : s.reload.kept = s.kept := rfl
@[simp] theorem State.reload_cores (s : State) : s.reload.cores = s.cores := rfl
@[simp] theorem State.reload_pads (s : State) : s.reload.pads = s.pads := rfl
@[simp] theorem State.reload_evictions (s : State) : s.reload.evictions = s.evictions := rfl
@[simp] theorem State.reload_contexts (s : State) : s.reload.contexts = s.contexts := rfl
@[simp] theorem State.reload_moving (s : State) : s.reload.moving = s.moving := rfl
@[simp] theorem State.reload_homes (s : State) : s.reload.homes = s.homes := rfl
@[simp] theorem State.reload_dram (s : State) : s.reload.dram = s.dram := rfl
@[simp] theorem State.reload_dramBad (s : State) : s.reload.dramBad = s.dramBad := rfl
@[simp] theorem State.reload_dramKey (s : State) : s.reload.dramKey = s.dramKey := rfl
@[simp] theorem State.reload_reflexStore (s : State) : s.reload.reflexStore = s.reflexStore := rfl
@[simp] theorem State.reload_lxm (s : State) : s.reload.lxm = s.lxm := rfl
@[simp] theorem State.reload_accs (s : State) : s.reload.accs = s.accs := rfl
@[simp] theorem State.reload_qops (s : State) : s.reload.qops = s.qops := rfl
@[simp] theorem State.reload_pairs (s : State) : s.reload.pairs = s.pairs := rfl
@[simp] theorem State.reload_counters (s : State) : s.reload.counters = s.counters := rfl
@[simp] theorem State.reload_snapshot (s : State) : s.reload.snapshot = s.snapshot := rfl
@[simp] theorem State.reload_ibuf (s : State) : s.reload.ibuf = s.ibuf := rfl
@[simp] theorem State.reload_front (s : State) : s.reload.front = s.front := rfl
@[simp] theorem State.reload_nextId (s : State) : s.reload.nextId = s.nextId := rfl
@[simp] theorem State.reload_draw (s : State) : s.reload.draw = s.draw := rfl
@[simp] theorem State.reload_cid (s : State) : s.reload.cid = s.cid := rfl
@[simp] theorem State.reload_bank (s : State) : s.reload.bank = s.bank := rfl
@[simp] theorem State.reload_form (s : State) : s.reload.form = s.form := rfl
@[simp] theorem State.reload_bundle (s : State) : s.reload.bundle = s.bundle := rfl
@[simp] theorem State.reload_raw (s : State) : s.reload.raw = s.raw := rfl
@[simp] theorem State.reload_th (s : State) : s.reload.th = (mget (s.core s.cid).banks s.bank).getD s.th := rfl
@[simp] theorem State.reload_src (s : State) : s.reload.src = s.src := rfl
@[simp] theorem State.reload_co (s : State) : s.reload.co = s.core s.cid := rfl
@[simp] theorem State.reload_stat (s : State) : s.reload.stat = s.stat := rfl

/-! `State.enter` -/

@[simp] theorem State.enter_now (s : State) (c b : Nat) : (s.enter c b).now = s.now := rfl
@[simp] theorem State.enter_meridian (s : State) (c b : Nat) : (s.enter c b).meridian = s.meridian := rfl
@[simp] theorem State.enter_slew (s : State) (c b : Nat) : (s.enter c b).slew = s.slew := rfl
@[simp] theorem State.enter_agenda (s : State) (c b : Nat) : (s.enter c b).agenda = s.agenda := rfl
@[simp] theorem State.enter_inputs (s : State) (c b : Nat) : (s.enter c b).inputs = s.inputs := rfl
@[simp] theorem State.enter_upsets (s : State) (c b : Nat) : (s.enter c b).upsets = s.upsets := rfl
@[simp] theorem State.enter_event (s : State) (c b : Nat) : (s.enter c b).event = s.event := rfl
@[simp] theorem State.enter_kept (s : State) (c b : Nat) : (s.enter c b).kept = s.kept := rfl
@[simp] theorem State.enter_cores (s : State) (c b : Nat) : (s.enter c b).cores = s.cores := rfl
@[simp] theorem State.enter_pads (s : State) (c b : Nat) : (s.enter c b).pads = s.pads := rfl
@[simp] theorem State.enter_evictions (s : State) (c b : Nat) : (s.enter c b).evictions = s.evictions := rfl
@[simp] theorem State.enter_contexts (s : State) (c b : Nat) : (s.enter c b).contexts = s.contexts := rfl
@[simp] theorem State.enter_moving (s : State) (c b : Nat) : (s.enter c b).moving = s.moving := rfl
@[simp] theorem State.enter_homes (s : State) (c b : Nat) : (s.enter c b).homes = s.homes := rfl
@[simp] theorem State.enter_dram (s : State) (c b : Nat) : (s.enter c b).dram = s.dram := rfl
@[simp] theorem State.enter_dramBad (s : State) (c b : Nat) : (s.enter c b).dramBad = s.dramBad := rfl
@[simp] theorem State.enter_dramKey (s : State) (c b : Nat) : (s.enter c b).dramKey = s.dramKey := rfl
@[simp] theorem State.enter_reflexStore (s : State) (c b : Nat) : (s.enter c b).reflexStore = s.reflexStore := rfl
@[simp] theorem State.enter_lxm (s : State) (c b : Nat) : (s.enter c b).lxm = s.lxm := rfl
@[simp] theorem State.enter_accs (s : State) (c b : Nat) : (s.enter c b).accs = s.accs := rfl
@[simp] theorem State.enter_qops (s : State) (c b : Nat) : (s.enter c b).qops = s.qops := rfl
@[simp] theorem State.enter_pairs (s : State) (c b : Nat) : (s.enter c b).pairs = s.pairs := rfl
@[simp] theorem State.enter_counters (s : State) (c b : Nat) : (s.enter c b).counters = s.counters := rfl
@[simp] theorem State.enter_snapshot (s : State) (c b : Nat) : (s.enter c b).snapshot = s.snapshot := rfl
@[simp] theorem State.enter_ibuf (s : State) (c b : Nat) : (s.enter c b).ibuf = s.ibuf := rfl
@[simp] theorem State.enter_front (s : State) (c b : Nat) : (s.enter c b).front = s.front := rfl
@[simp] theorem State.enter_nextId (s : State) (c b : Nat) : (s.enter c b).nextId = s.nextId := rfl
@[simp] theorem State.enter_draw (s : State) (c b : Nat) : (s.enter c b).draw = s.draw := rfl
@[simp] theorem State.enter_cid (s : State) (c b : Nat) : (s.enter c b).cid = c := rfl
@[simp] theorem State.enter_bank (s : State) (c b : Nat) : (s.enter c b).bank = b := rfl
@[simp] theorem State.enter_form (s : State) (c b : Nat) : (s.enter c b).form = s.form := rfl
@[simp] theorem State.enter_bundle (s : State) (c b : Nat) : (s.enter c b).bundle = s.bundle := rfl
@[simp] theorem State.enter_raw (s : State) (c b : Nat) : (s.enter c b).raw = s.raw := rfl
@[simp] theorem State.enter_th (s : State) (c b : Nat) : (s.enter c b).th = (mget (s.core c).banks b).getD {} := rfl
@[simp] theorem State.enter_src (s : State) (c b : Nat) : (s.enter c b).src = (mget (s.core c).banks b).getD {} := rfl
@[simp] theorem State.enter_co (s : State) (c b : Nat) : (s.enter c b).co = s.core c := rfl
@[simp] theorem State.enter_stat (s : State) (c b : Nat) : (s.enter c b).stat = .done := rfl

/-! Reading what was set -/

@[simp] theorem State.core_setCore_same (s : State) (c : Nat) (k : Core) : (s.setCore c k).core c = k := by
  simp [State.core]

theorem State.core_setCore_other (s : State) {c d : Nat} (k : Core) (h : d ≠ c) : (s.setCore c k).core d = s.core d := by
  simp [State.core, mget_mset_other _ _ h]

@[simp] theorem State.core_modCore_same (s : State) (c : Nat) (f : Core → Core) : (s.modCore c f).core c = f (s.core c) := by
  simp [State.modCore]

theorem State.core_modCore_other (s : State) {c d : Nat} (f : Core → Core) (h : d ≠ c) : (s.modCore c f).core d = s.core d :=
  State.core_setCore_other s _ h

@[simp] theorem State.pad_setPad_same (s : State) (c : Nat) (m : Sram) : (s.setPad c m).pad c = m := by
  simp [State.pad]

theorem State.pad_setPad_other (s : State) {c d : Nat} (m : Sram) (h : d ≠ c) : (s.setPad c m).pad d = s.pad d := by
  simp [State.pad, mget_mset_other _ _ h]

@[simp] theorem State.home_setHome_same (s : State) (h : Nat) (x : Home) : (s.setHome h x).home h = x := by
  simp [State.home]

theorem State.home_setHome_other (s : State) {h j : Nat} (x : Home) (hj : j ≠ h) : (s.setHome h x).home j = s.home j := by
  simp [State.home, mget_mset_other _ _ hj]

@[simp] theorem State.core_post (s : State) (n : Nat) (e : Event) (c : Nat) : (s.post n e).core c = s.core c := rfl
@[simp] theorem State.core_modFront (s : State) (f : Front → Front) (c : Nat) : (s.modFront f).core c = s.core c := rfl
@[simp] theorem State.core_count (s : State) (u k c : Nat) : (s.count u k).core c = s.core c := rfl

/-- The core that was put back, and its thread. -/
@[simp] theorem State.core_store (s : State) : s.store.core s.cid = { s.co with banks := mset s.co.banks s.bank s.th } := by
  simp [State.core]

/-- Work on the module that does nothing changes only the word's own core, which is put back and taken out. -/
@[simp] theorem State.reload_store (s : State) :
    s.store.reload = { s with
      cores := s.store.cores, co := { s.co with banks := mset s.co.banks s.bank s.th } } := by
  simp [State.reload, State.core, State.store, State.setCore]

/-- A posted event is on its way. -/
theorem mem_insertEvent (t : Nat) (e : Event) (l : List (Nat × Event)) (x : Nat × Event) :
    x ∈ insertEvent t e l ↔ x = (t, e) ∨ x ∈ l := by
  induction l with
  | nil => simp [insertEvent]
  | cons y l ih =>
    unfold insertEvent
    split
    · simp
    · simp only [List.mem_cons, ih]; tauto

@[simp] theorem State.mem_post (s : State) (n : Nat) (e : Event) (x : Nat × Event) :
    x ∈ (s.post n e).agenda ↔ x = (s.now + n, e) ∨ x ∈ s.agenda := mem_insertEvent _ _ _ _

end Sys2Proof.Machine
end

