-- ==== Sys2Proof/Laws/Sequencer.lean ====
section
/-! SUPPORT. A vector word that is queued on an idle sequencer and performed at once (R242-R244): what it leaves. -/

namespace Sys2Proof.Machine

set_option Elab.async false

/-- A core whose sequencer holds nothing has no next word. -/
theorem State.seqStep_idle (s : State) (c : Nat) (h : (s.core c).seq = []) (hl : (s.core c).vloop = none) : s.seqStep c = none := by
  simp [State.seqStep, State.serveHeads, State.serveLoop, Core.loopTurn, heads, h, hl]

/-- A drain over cores that all hold nothing does nothing. -/
theorem State.drainLoop_idle (s : State) (n : Nat) (l : List Nat)
    (h : ∀ c ∈ l, (s.core c).seq = [] ∧ (s.core c).vloop = none) : s.drainLoop n l = s := by
  induction l generalizing n with
  | nil => cases n <;> rfl
  | cons c l ih =>
    cases n with
    | zero => rfl
    | succ n =>
      rw [State.drainLoop, State.seqStep_idle s c (h c (by simp)).1 (h c (by simp)).2]
      exact ih n fun d hd => h d (by simp [hd])

/-- The threads of a core whose sequencer holds nothing wait for no link. -/
def unlinked (t : Thread) : Thread := match t.st with | .blocked (.link _) => { t with st := .ready } | _ => t

theorem State.linkBlocked_idle (s : State) (c : Nat) (h : (s.core c).seq = []) (hl : (s.core c).vloop = none) :
    s.linkBlocked c = s.modCore c fun k => { k with banks := k.banks.map fun b => (b.1, unlinked b.2) } := by
  have hp : ∀ b, s.linkPort c b (s.core c) = none := fun b => by simp [State.linkPort, h, hl]
  unfold State.linkBlocked
  simp only [hp]
  have hf : ((s.core c).banks.filter fun b => b.2.st == .ready && (none : Option Nat).isSome) = [] := by simp
  rw [hf]
  rfl

theorem mget_map {α β : Type} (m : Map α) (f : α → β) (k : Nat) : mget (m.map fun b => (b.1, f b.2)) k = (mget m k).map f := by
  induction m with
  | nil => rfl
  | cons e m ih => simp only [List.map_cons, mget_cons, ih]; split <;> rfl

theorem unlinked_unlinked (t : Thread) : unlinked (unlinked t) = unlinked t := by
  obtain ⟨st⟩ := t
  cases st with
  | blocked w => cases w <;> rfl
  | _ => rfl

/-- A core whose threads that waited for a link are Ready again. -/
def Core.unlinked (k : Core) : Core := { k with banks := k.banks.map fun b => (b.1, Machine.unlinked b.2) }

theorem Core.unlinked_unlinked (k : Core) : k.unlinked.unlinked = k.unlinked := by
  simp [Core.unlinked, Machine.unlinked_unlinked]

/-- What the end of a drain does over cores that hold nothing: it changes their threads that waited for a link, and nothing else. -/
theorem State.linkBlocked_all (l : List Nat) (s : State) (h : ∀ c ∈ l, (s.core c).seq = [] ∧ (s.core c).vloop = none) :
    (∀ c, (l.foldl State.linkBlocked s).core c = if c ∈ l then (s.core c).unlinked else s.core c) ∧
    l.foldl State.linkBlocked s = { s with cores := (l.foldl State.linkBlocked s).cores } := by
  induction l generalizing s with
  | nil => simp
  | cons d l ih =>
    obtain ⟨h1, h2⟩ := h d (by simp)
    have e : s.linkBlocked d = s.modCore d Core.unlinked := State.linkBlocked_idle s d h1 h2
    have hc : ∀ c, (s.linkBlocked d).core c = if c = d then (s.core d).unlinked else s.core c := by
      intro c
      rw [e]
      split
      · subst c; simp
      · exact State.core_modCore_other s _ ‹_›
    obtain ⟨i1, i2⟩ := ih (s.linkBlocked d) fun c hm => by
      rw [hc]
      split
      · exact ⟨h1, h2⟩
      · exact h c (by simp [hm])
    rw [List.foldl_cons]
    refine ⟨fun c => ?_, ?_⟩
    · rw [i1, hc]
      by_cases hd : c = d
      · subst hd; simp [Core.unlinked_unlinked]
      · simp [hd]
    · rw [i2, e]; rfl

/-- A sequencer that holds one word, which can be served, serves it and then holds nothing. -/
theorem State.drain_one (s t : State) (c : Nat) (e : SeqEntry) (h : (s.core c).seq = [e]) (hv : (s.core c).vloop = none)
    (hl : e.late = false) (hs : s.serve c e = .done t) (ht : (t.core c).seq = [e]) (htv : (t.core c).vloop = none)
    (hn : isCompute c = true → ∀ p, p < 4 → neighbour c p ≠ c ∧ (t.core (neighbour c p)).seq = [] ∧
      (t.core (neighbour c p)).vloop = none) :
    s.drain c = (c :: if isCompute c then (List.range 4).map (neighbour c) else []).foldl State.linkBlocked
      (t.modCore c fun k => { k with seq := [] }) := by
  have hh : heads (s.core c).seq = [(0, e)] := by simp [heads, h, hl]
  have hstep : s.seqStep c = some (t.modCore c fun k => { k with seq := [] }) := by
    have hb : (s.core c).loopBefore e = false := by simp [Core.loopBefore, Core.loopTurn, hv]
    unfold State.seqStep State.serveHeads
    simp only [hh, List.filter_cons, hb, Bool.not_false, if_true, List.findSome?_cons, hs]
    simp [State.modCore, ht, dropEntry]
  have idle : ∀ d ∈ c :: (if isCompute c then (List.range 4).map (neighbour c) else []),
      ((t.modCore c fun k => { k with seq := [] }).core d).seq = [] ∧
      ((t.modCore c fun k => { k with seq := [] }).core d).vloop = none := by
    intro d hd
    rcases List.mem_cons.1 hd with rfl | hd
    · simp [htv]
    · split at hd
      · rename_i hc
        obtain ⟨p, hp, rfl⟩ := List.mem_map.1 hd
        obtain ⟨h1, h2, h3⟩ := hn hc p (by simpa using hp)
        rw [State.core_modCore_other t _ h1]
        exact ⟨h2, h3⟩
      · simp at hd
  unfold State.drain
  simp only [h, hv, List.isEmpty_cons, Bool.false_and, Bool.false_eq_true, if_false]
  rw [show 8 * s.seqWork (clusterOf c) + 16 = (8 * s.seqWork (clusterOf c) + 15) + 1 from rfl, State.drainLoop, hstep]
  simp only
  rw [State.drainLoop_idle _ _ _ (fun d hd => idle d ?_)]
  · rw [List.foldl_cons]
    generalize t.modCore c (fun k => { k with seq := [] }) = u
    by_cases hc : isCompute c = true
    · simp only [hc, if_true]
    · simp only [hc, Bool.false_eq_true, if_false, List.foldl_nil]
  · rcases List.mem_cons.1 hd with rfl | hd
    · simp
    · exact List.mem_cons_of_mem _ (by simpa using hd)

/-! ### One word on an idle sequencer -/

/-- A word that only reads vector registers and writes one: how the sequencer serves it. -/
def ServedPlainly (i : Instr) (d : Nat) : Prop :=
  ∀ (s : State) (c : Nat) (e : SeqEntry) (t : Thread), e.word = i → mget (s.core c).banks e.bank = some t →
    s.linkWait c (s.core c) i = none → stripsReady t i = true →
    s.serve c e = .done
      (((s.popAll c e.bank e.old (vReads i)).2.putV c e.bank d (vResult i e.vconf e.ops (s.popAll c e.bank e.old (vReads i)).1).1).raise
        c e.bank (vResult i e.vconf e.ops (s.popAll c e.bank e.old (vReads i)).1).2)

theorem servedPlainly_vadd (d : BitVec 5) (a : BitVec 5) (b : BitVec 5) : ServedPlainly (.vadd d a b) d.toNat := by
  intro s c e t he hb hl hr
  simp [State.serve, hb, he, hl, hr, SeqEntry.isMem, vWrite]

theorem servedPlainly_vsub (d : BitVec 5) (a : BitVec 5) (b : BitVec 5) : ServedPlainly (.vsub d a b) d.toNat := by
  intro s c e t he hb hl hr
  simp [State.serve, hb, he, hl, hr, SeqEntry.isMem, vWrite]

theorem servedPlainly_vmul (d : BitVec 5) (a : BitVec 5) (b : BitVec 5) : ServedPlainly (.vmul d a b) d.toNat := by
  intro s c e t he hb hl hr
  simp [State.serve, hb, he, hl, hr, SeqEntry.isMem, vWrite]

theorem servedPlainly_vmin (d : BitVec 5) (a : BitVec 5) (b : BitVec 5) : ServedPlainly (.vmin d a b) d.toNat := by
  intro s c e t he hb hl hr
  simp [State.serve, hb, he, hl, hr, SeqEntry.isMem, vWrite]

theorem servedPlainly_vmax (d : BitVec 5) (a : BitVec 5) (b : BitVec 5) : ServedPlainly (.vmax d a b) d.toNat := by
  intro s c e t he hb hl hr
  simp [State.serve, hb, he, hl, hr, SeqEntry.isMem, vWrite]

theorem servedPlainly_vand (d : BitVec 5) (a : BitVec 5) (b : BitVec 5) : ServedPlainly (.vand d a b) d.toNat := by
  intro s c e t he hb hl hr
  simp [State.serve, hb, he, hl, hr, SeqEntry.isMem, vWrite]

theorem servedPlainly_vor (d : BitVec 5) (a : BitVec 5) (b : BitVec 5) : ServedPlainly (.vor d a b) d.toNat := by
  intro s c e t he hb hl hr
  simp [State.serve, hb, he, hl, hr, SeqEntry.isMem, vWrite]

theorem servedPlainly_vxor (d : BitVec 5) (a : BitVec 5) (b : BitVec 5) : ServedPlainly (.vxor d a b) d.toNat := by
  intro s c e t he hb hl hr
  simp [State.serve, hb, he, hl, hr, SeqEntry.isMem, vWrite]

theorem servedPlainly_vshl (d : BitVec 5) (a : BitVec 5) (b : BitVec 5) : ServedPlainly (.vshl d a b) d.toNat := by
  intro s c e t he hb hl hr
  simp [State.serve, hb, he, hl, hr, SeqEntry.isMem, vWrite]

theorem servedPlainly_vshr (d : BitVec 5) (a : BitVec 5) (b : BitVec 5) : ServedPlainly (.vshr d a b) d.toNat := by
  intro s c e t he hb hl hr
  simp [State.serve, hb, he, hl, hr, SeqEntry.isMem, vWrite]

theorem servedPlainly_vsra (d : BitVec 5) (a : BitVec 5) (b : BitVec 5) : ServedPlainly (.vsra d a b) d.toNat := by
  intro s c e t he hb hl hr
  simp [State.serve, hb, he, hl, hr, SeqEntry.isMem, vWrite]

theorem servedPlainly_vfadd (d : BitVec 5) (a : BitVec 5) (b : BitVec 5) : ServedPlainly (.vfadd d a b) d.toNat := by
  intro s c e t he hb hl hr
  simp [State.serve, hb, he, hl, hr, SeqEntry.isMem, vWrite]

theorem servedPlainly_vfsub (d : BitVec 5) (a : BitVec 5) (b : BitVec 5) : ServedPlainly (.vfsub d a b) d.toNat := by
  intro s c e t he hb hl hr
  simp [State.serve, hb, he, hl, hr, SeqEntry.isMem, vWrite]

theorem servedPlainly_vfmul (d : BitVec 5) (a : BitVec 5) (b : BitVec 5) : ServedPlainly (.vfmul d a b) d.toNat := by
  intro s c e t he hb hl hr
  simp [State.serve, hb, he, hl, hr, SeqEntry.isMem, vWrite]

theorem servedPlainly_vfma (d : BitVec 5) (a : BitVec 5) (b : BitVec 5) : ServedPlainly (.vfma d a b) d.toNat := by
  intro s c e t he hb hl hr
  simp [State.serve, hb, he, hl, hr, SeqEntry.isMem, vWrite]

theorem servedPlainly_vfmin (d : BitVec 5) (a : BitVec 5) (b : BitVec 5) : ServedPlainly (.vfmin d a b) d.toNat := by
  intro s c e t he hb hl hr
  simp [State.serve, hb, he, hl, hr, SeqEntry.isMem, vWrite]

theorem servedPlainly_vfmax (d : BitVec 5) (a : BitVec 5) (b : BitVec 5) : ServedPlainly (.vfmax d a b) d.toNat := by
  intro s c e t he hb hl hr
  simp [State.serve, hb, he, hl, hr, SeqEntry.isMem, vWrite]

theorem servedPlainly_vfabs (d : BitVec 5) (a : BitVec 5) : ServedPlainly (.vfabs d a) d.toNat := by
  intro s c e t he hb hl hr
  simp [State.serve, hb, he, hl, hr, SeqEntry.isMem, vWrite]

theorem servedPlainly_vfneg (d : BitVec 5) (a : BitVec 5) : ServedPlainly (.vfneg d a) d.toNat := by
  intro s c e t he hb hl hr
  simp [State.serve, hb, he, hl, hr, SeqEntry.isMem, vWrite]

theorem servedPlainly_vrcp (d : BitVec 5) (a : BitVec 5) : ServedPlainly (.vrcp d a) d.toNat := by
  intro s c e t he hb hl hr
  simp [State.serve, hb, he, hl, hr, SeqEntry.isMem, vWrite]

theorem servedPlainly_vrsq (d : BitVec 5) (a : BitVec 5) : ServedPlainly (.vrsq d a) d.toNat := by
  intro s c e t he hb hl hr
  simp [State.serve, hb, he, hl, hr, SeqEntry.isMem, vWrite]

theorem servedPlainly_vsqrt (d : BitVec 5) (a : BitVec 5) : ServedPlainly (.vsqrt d a) d.toNat := by
  intro s c e t he hb hl hr
  simp [State.serve, hb, he, hl, hr, SeqEntry.isMem, vWrite]

theorem servedPlainly_vexp2 (d : BitVec 5) (a : BitVec 5) : ServedPlainly (.vexp2 d a) d.toNat := by
  intro s c e t he hb hl hr
  simp [State.serve, hb, he, hl, hr, SeqEntry.isMem, vWrite]

theorem servedPlainly_vlog2 (d : BitVec 5) (a : BitVec 5) : ServedPlainly (.vlog2 d a) d.toNat := by
  intro s c e t he hb hl hr
  simp [State.serve, hb, he, hl, hr, SeqEntry.isMem, vWrite]

theorem servedPlainly_vdiv (d : BitVec 5) (a : BitVec 5) (b : BitVec 5) : ServedPlainly (.vdiv d a b) d.toNat := by
  intro s c e t he hb hl hr
  simp [State.serve, hb, he, hl, hr, SeqEntry.isMem, vWrite]

theorem servedPlainly_vcvt (d : BitVec 5) (a : BitVec 5) (b : BitVec 5) : ServedPlainly (.vcvt d a b) d.toNat := by
  intro s c e t he hb hl hr
  simp [State.serve, hb, he, hl, hr, SeqEntry.isMem, vWrite]

theorem servedPlainly_vcvts (d : BitVec 5) (a : BitVec 5) (b : BitVec 5) : ServedPlainly (.vcvts d a b) d.toNat := by
  intro s c e t he hb hl hr
  simp [State.serve, hb, he, hl, hr, SeqEntry.isMem, vWrite]

theorem servedPlainly_vqnt (d : BitVec 5) (a : BitVec 5) (b : BitVec 5) : ServedPlainly (.vqnt d a b) d.toNat := by
  intro s c e t he hb hl hr
  simp [State.serve, hb, he, hl, hr, SeqEntry.isMem, vWrite]

theorem servedPlainly_vrsum (d : BitVec 5) (a : BitVec 5) (b : BitVec 5) : ServedPlainly (.vrsum d a b) d.toNat := by
  intro s c e t he hb hl hr
  simp [State.serve, hb, he, hl, hr, SeqEntry.isMem, vWrite]

theorem servedPlainly_vrmax (d : BitVec 5) (a : BitVec 5) (b : BitVec 5) : ServedPlainly (.vrmax d a b) d.toNat := by
  intro s c e t he hb hl hr
  simp [State.serve, hb, he, hl, hr, SeqEntry.isMem, vWrite]

theorem servedPlainly_vrmin (d : BitVec 5) (a : BitVec 5) (b : BitVec 5) : ServedPlainly (.vrmin d a b) d.toNat := by
  intro s c e t he hb hl hr
  simp [State.serve, hb, he, hl, hr, SeqEntry.isMem, vWrite]

theorem servedPlainly_vshuf (d : BitVec 5) (a : BitVec 5) (b : BitVec 5) : ServedPlainly (.vshuf d a b) d.toNat := by
  intro s c e t he hb hl hr
  simp [State.serve, hb, he, hl, hr, SeqEntry.isMem, vWrite]

theorem servedPlainly_vbcast (d : BitVec 5) (a : BitVec 5) (b : BitVec 5) : ServedPlainly (.vbcast d a b) d.toNat := by
  intro s c e t he hb hl hr
  simp [State.serve, hb, he, hl, hr, SeqEntry.isMem, vWrite]

theorem servedPlainly_vins (d : BitVec 5) (a : BitVec 5) (b : BitVec 5) : ServedPlainly (.vins d a b) d.toNat := by
  intro s c e t he hb hl hr
  simp [State.serve, hb, he, hl, hr, SeqEntry.isMem, vWrite]

theorem servedPlainly_vcmp (d : BitVec 5) (a : BitVec 5) (b : BitVec 5) : ServedPlainly (.vcmp d a b) d.toNat := by
  intro s c e t he hb hl hr
  simp [State.serve, hb, he, hl, hr, SeqEntry.isMem, vWrite]

theorem servedPlainly_vsel (d : BitVec 5) (a : BitVec 5) (b : BitVec 5) : ServedPlainly (.vsel d a b) d.toNat := by
  intro s c e t he hb hl hr
  simp [State.serve, hb, he, hl, hr, SeqEntry.isMem, vWrite]

theorem servedPlainly_vmovx (d : BitVec 5) (a : BitVec 5) (b : BitVec 5) : ServedPlainly (.vmovx d a b) d.toNat := by
  intro s c e t he hb hl hr
  simp [State.serve, hb, he, hl, hr, SeqEntry.isMem, vWrite]

theorem servedPlainly_vmovv (d : BitVec 5) (a : BitVec 5) : ServedPlainly (.vmovv d a) d.toNat := by
  intro s c e t he hb hl hr
  simp [State.serve, hb, he, hl, hr, SeqEntry.isMem, vWrite]

theorem servedPlainly_vsplat (d : BitVec 5) (a : BitVec 5) : ServedPlainly (.vsplat d a) d.toNat := by
  intro s c e t he hb hl hr
  simp [State.serve, hb, he, hl, hr, SeqEntry.isMem, vWrite]

theorem State.popAll_plain (s : State) (c b : Nat) (t : Thread) (l : List Nat) (hb : mget (s.core c).banks b = some t)
    (hs : t.streams = []) (hl : ∀ n ∈ l, n < 28) : s.popAll c b none l = (l.map t.getV, s) := by
  induction l with
  | nil => rfl
  | cons n l ih =>
    have hn : ¬ 28 ≤ n := by have := hl n (by simp); omega
    have hp : s.popV c b none n = (t.getV n, s) := by
      unfold State.popV
      simp [hb, hn, Thread.stream?, hs]
    rw [State.popAll, hp]
    simp only [ih fun m hm => hl m (by simp [hm]), List.map_cons]

theorem times_eq_zero (l : List Nat) (v : Nat) (h : ∀ n ∈ l, n < 28) (hv : 28 ≤ v) : times l v = 0 := by
  unfold times
  rw [List.length_eq_zero_iff, List.filter_eq_nil_iff]
  intro n hn
  have := h n hn
  simp; omega

theorem State.linkWait_plain (s : State) (c : Nat) (k : Core) (i : Instr) (d : Nat) (hr : ∀ n ∈ vReads i, n < 28)
    (hw : vWrite i = some d) (hd : d < 28) : s.linkWait c k i = none := by
  have h28 := times_eq_zero _ 28 hr (by omega)
  have h29 := times_eq_zero _ 29 hr (by omega)
  have h30 := times_eq_zero _ 30 hr (by omega)
  have h31 := times_eq_zero _ 31 hr (by omega)
  have e28 : ¬ d = 28 := by omega
  have e29 : ¬ d = 29 := by omega
  have e30 : ¬ d = 30 := by omega
  have e31 : ¬ d = 31 := by omega
  simp [State.linkWait, h28, h29, h30, h31, hw, e28, e29, e30, e31]

theorem stripsReady_unbound (t : Thread) (i : Instr) (h : t.streams = []) : stripsReady t i = true := by
  simp [stripsReady, Thread.stream?, h]

theorem neighbour_ne (c p : Nat) (h : isCompute c = true) : neighbour c p ≠ c := by
  have hc : coreNo c < 16 := by simp [isCompute] at h; exact h.2
  have e : c = clusterOf c * 256 + coreNo c := by unfold clusterOf coreNo; omega
  generalize clusterOf c = q at *
  generalize coreNo c = n at *
  subst e
  intro hn
  unfold neighbour coreId at hn
  have hc' : coreNo (q * 256 + n) = n := by unfold coreNo; omega
  have hq' : clusterOf (q * 256 + n) = q := by unfold clusterOf; omega
  rw [hc', hq'] at hn
  rcases p with _ | _ | _ | p <;> simp at hn <;> omega

theorem State.reload_eq (s : State) {k : Core} {t : Thread} (h : s.core s.cid = k) (hb : mget k.banks s.bank = some t) :
    s.reload = { s with co := k, th := t } := by
  subst h
  simp only [State.reload, hb, Option.getD_some]

/-- A word served plainly on a sequencer that held nothing else: the thread's registers and flags as the word gives them, and
nothing of the memories and events. -/
theorem State.enqueue_plain (s : State) (i : Instr) (ops : List Word) (d : Nat) (hf : s.form ≠ .par0) (hst : s.th.st = .ready)
    (hs : s.th.streams = []) (hq : s.co.seq = []) (hv : s.co.vloop = none)
    (ha : ∀ p, p < 4 → (s.core (neighbour s.cid p)).seq = [] ∧ (s.core (neighbour s.cid p)).vloop = none)
    (hr : ∀ n ∈ vReads i, n < 28) (hw : vWrite i = some d) (hd : d < 28) (hp : ServedPlainly i d) :
    let o := vResult i s.src.vconf ops ((vReads i).map s.th.getV)
    (s.enqueue i ops).th = { s.th.setV d o.1 with vconf := orFlags s.th.vconf o.2, compared := s.th.compared + 1 } ∧
    (s.enqueue i ops) = { s with nextId := s.nextId + 1, th := (s.enqueue i ops).th, co := (s.enqueue i ops).co, cores := (s.enqueue i ops).cores } ∧
    (s.enqueue i ops).co.tcm = s.co.tcm ∧ (s.enqueue i ops).co.tiles = s.co.tiles ∧ (s.enqueue i ops).co.seq = [] := by
  intro o
  let th' : Thread := { s.th with compared := s.th.compared + 1 }
  let e : SeqEntry := { s.seqEntry i ops with num := s.th.compared, after := s.nextId }
  let k1 : Core := { s.co with seq := [e] }
  let s1 : State := { s with nextId := s.nextId + 1, th := th', co := k1 }
  have hin : s.co.inBody s.bank = false := by simp [Core.inBody, hv]
  have h1 : s.enqueue i ops = (s1.store.drain s.cid).reload := by
    have hf' : (s.form == Form.par0) = false := by simpa using hf
    unfold State.enqueue
    simp only [State.fresh, hin, Bool.false_and, Bool.false_eq_true, if_false, hf', hq, List.nil_append]
    rfl
  let k2 : Core := { k1 with banks := mset k1.banks s.bank th' }
  have hcore : s1.store.core s.cid = k2 := State.core_store s1
  have hbank : mget k2.banks s.bank = some th' := mget_mset_same _ _ _
  have hpop : s1.store.popAll s.cid s.bank none (vReads i) = ((vReads i).map s.th.getV, s1.store) :=
    State.popAll_plain s1.store s.cid s.bank th' (vReads i) (by rw [hcore]; exact hbank) hs hr
  let th'' : Thread := { th'.setV d o.1 with vconf := orFlags (th'.setV d o.1).vconf o.2 }
  let k3 : Core := { k2 with banks := mset (mset k2.banks s.bank (th'.setV d o.1)) s.bank th'' }
  let t3 : State := (s1.store.setCore s.cid { k2 with banks := mset k2.banks s.bank (th'.setV d o.1) }).setCore s.cid k3
  have hset : th'' = { s.th.setV d o.1 with vconf := orFlags s.th.vconf o.2, compared := s.th.compared + 1 } := by
    show ({ th'.setV d o.1 with vconf := orFlags (th'.setV d o.1).vconf o.2 } : Thread) = _
    unfold Thread.setV; simp [hd, th']
  have hserve : s1.store.serve s.cid e = .done t3 := by
    have := hp s1.store s.cid e th' rfl (by rw [hcore]; exact hbank)
      (State.linkWait_plain _ _ _ _ d hr hw hd) (stripsReady_unbound _ _ hs)
    rw [this]
    have he : e.old = none := rfl
    have hb : e.bank = s.bank := rfl
    rw [he, hb, hpop]
    have hput : s1.store.putV s.cid s.bank d o.1 = s1.store.setCore s.cid { k2 with banks := mset k2.banks s.bank (th'.setV d o.1) } := by
      have hnd : ¬ 28 ≤ d := by omega
      have hs' : th'.streams = [] := hs
      unfold State.putV
      simp only [hcore, hbank, Option.getD_some, hnd, if_false, Thread.stream?, hs', mget_nil, Core.modBank, mmod]
    show Served.done ((s1.store.putV s.cid s.bank d o.1).raise s.cid s.bank o.2) = _
    rw [hput]
    congr 1
    unfold State.raise State.modCore
    rw [State.core_setCore_same]
    simp only [Core.modBank, mmod, mget_mset_same]
    rfl
  have ht3 : t3.core s.cid = k3 := State.core_setCore_same _ _ _
  have hother : ∀ c, c ≠ s.cid → t3.core c = s.core c := by
    intro c hc
    show State.core (State.setCore (State.setCore _ _ _) _ _) c = _
    rw [State.core_setCore_other _ _ hc, State.core_setCore_other _ _ hc]
    exact State.core_setCore_other s _ hc
  have hlate : e.late = false := by
    show (s.seqEntry i ops).late = false
    simp [State.seqEntry, hv]
  have hdrain := State.drain_one s1.store t3 s.cid e (by rw [hcore]) (by rw [hcore]; exact hv) hlate hserve
    (by rw [ht3]) (by rw [ht3]; exact hv) (fun hc p hp4 => by
      have hne := neighbour_ne s.cid p hc
      rw [hother _ hne]
      exact ⟨hne, ha p hp4⟩)
  generalize hu : (t3.modCore s.cid fun k => { k with seq := [] }) = u at hdrain
  have hucore : u.core s.cid = { k3 with seq := [] } := by rw [← hu, State.core_modCore_same, ht3]
  have huother : ∀ c, c ≠ s.cid → u.core c = s.core c := by
    intro c hc; rw [← hu, State.core_modCore_other _ _ hc, hother c hc]
  generalize hL : (s.cid :: if isCompute s.cid then (List.range 4).map (neighbour s.cid) else []) = L at hdrain
  have hidle : ∀ c ∈ L, (u.core c).seq = [] ∧ (u.core c).vloop = none := by
    intro c hc
    by_cases hcc : c = s.cid
    · subst hcc; rw [hucore]; exact ⟨rfl, hv⟩
    · rw [huother c hcc]
      rw [← hL] at hc
      rcases List.mem_cons.1 hc with h | h
      · exact absurd h hcc
      · split at h
        · obtain ⟨p, hp4, rfl⟩ := List.mem_map.1 h
          exact ha p (by simpa using hp4)
        · simp at h
  obtain ⟨hall, hrest⟩ := State.linkBlocked_all L u hidle
  have hmem : s.cid ∈ L := by rw [← hL]; simp
  have hfin : (s1.store.drain s.cid).core s.cid = Core.unlinked { k3 with seq := [] } := by
    rw [hdrain, hall, if_pos hmem, hucore]
  have hstate : s1.store.drain s.cid = { s1 with cores := (s1.store.drain s.cid).cores } := by
    rw [hdrain]
    conv_lhs => rw [hrest]
    generalize (L.foldl State.linkBlocked u).cores = cs
    rw [← hu]
    rfl
  have hth : (mget (Core.unlinked { k3 with seq := [] }).banks s.bank) = some th'' := by
    show mget (List.map (fun (b : Nat × Thread) => (b.1, Machine.unlinked b.2)) _) s.bank = _
    rw [mget_map, mget_mset_same, Option.map_some]
    congr 1
    have : th''.st = .ready := by
      show (th'.setV d o.1).st = .ready
      unfold Thread.setV; simp [hd, th', hst]
    unfold Machine.unlinked
    rw [this]
  have hreload : (s1.store.drain s.cid).reload = { s1 with
      cores := (s1.store.drain s.cid).cores, co := Core.unlinked { k3 with seq := [] }, th := th'' } := by
    have hcid : (s1.store.drain s.cid).cid = s.cid := by rw [hstate]
    have hbk : (s1.store.drain s.cid).bank = s.bank := by rw [hstate]
    rw [State.reload_eq _ ((congrArg _ hcid).trans hfin) ((congrArg _ hbk).trans hth)]
    conv_lhs => rw [hstate]
  rw [h1, hreload]
  exact ⟨hset, rfl, rfl, rfl, rfl⟩

/-- A vector word without memory access on a sequencer that held nothing: its checks pass, and it is performed at once. -/
theorem vec_next (s : State) (i : Instr) (ops : List Word) (d : Nat) (hsame : s.src = s.th) (hst : s.th.streams = [])
    (hq : s.co.seq = []) (hv : s.co.vloop = none) (legal : vLegal i s.src.vconf = true) (hr : ∀ n ∈ vReads i, n < 28)
    (hw : vWrite i = some d) (hd : d < 28) (hc : vCaptures i ≤ 4) : vec i ops s = .next (s.enqueue i ops).advance := by
  have h1 : s.linkFault? i = none := by
    have : ((vReads i ++ (vWrite i).toList).filter (28 ≤ ·)) = [] := by
      rw [List.filter_eq_nil_iff]
      intro n hn
      simp only [hw, Option.toList_some, List.mem_append, List.mem_singleton] at hn
      rcases hn with hn | rfl
      · have := hr n hn; simp; omega
      · simp; omega
    simp [State.linkFault?, this]
  have h2 : s.streamBad i (s.reps i) = .none := by simp [State.streamBad, Thread.stream?, hsame, hst]
  have h3 : s.seqRoom i = true := by simp [State.seqRoom, Core.seqUsed, Core.captured, Core.seqEntries, hq, hv, hc]
  unfold vec State.vecChecked
  simp only [legal, Bool.not_true, Bool.false_eq_true, if_false, h1, h2, h3, if_true]
  split <;> rfl

end Sys2Proof.Machine
end

