-- ==== Sys2Proof/Tests/Slice0.lean ====
section
/-! SUPPORT. Tests of the model: ill-formed instructions, words written out from the encoding tables of chapter 03, single steps
against the manual's examples, and a witness for the hypotheses of each obligation. -/

namespace Sys2Proof.Tests

open Sys2Proof.Machine Sys2Proof.Claims

set_option Elab.async false

/-! ### Ill-formed instructions (R62, R68, R71, R189, R194, R269, R357) -/

theorem test_wf_integer_register : Instr.wf (.add 16 1 1) = false ∧ Instr.wf (.add 1 16 1) = false ∧ Instr.wf (.add 1 1 31) = false := by decide
theorem test_wf_scope : Instr.wf (.lda64 1 2 5) = false ∧ Instr.wf (.amoadd 1 2 0 0 7) = false := by decide
theorem test_wf_cas_pair : Instr.wf (.cas64 15 2 0 0) = false ∧ Instr.wf (.cas32 15 2 0 0) = false := by decide
theorem test_wf_ldp_pair : Instr.wf (.ldp 15 2 0) = false ∧ Instr.wf (.stp 15 2 0) = false := by decide
theorem test_wf_predicate : Instr.wf (.peq 8 1 1) = false ∧ Instr.wf (.pand 1 8 1) = false ∧ Instr.wf (.bpt 8 0) = false := by decide
theorem test_wf_csr : Instr.wf (.csrr 1 0x008) = false ∧ Instr.wf (.csrw 1 0x107) = false ∧ Instr.wf (.csrr 1 0x402) = false := by decide
theorem test_wf_stream_register : Instr.wf (.strm 19 1) = false ∧ Instr.wf (.strmW 24 1) = false ∧ Instr.wf (.strmx 0) = false := by decide
theorem test_wf_vector_pair : Instr.wf (.sendv 1 2 5) = false ∧ Instr.wf (.mscale 0 28) = false ∧ Instr.wf (.mredMax 0 27) = false := by decide
theorem test_wf_fence_needs_no_register : Instr.wf (.amoor 0 2 0 0 0) = false ∧ Instr.wf (.amoorFence 2 0 3 3) = true := by decide
theorem test_wf_event : Instr.wf .boot = false ∧ Instr.wf .load = false := by decide

/-! ### Words written out from R60, R61 and R66, at least one for each family -/

theorem test_decode_nop : decodeTableWord 32 0x80000000 = some .nop := by decide
theorem test_decode_beq : decodeTableWord 32 0x80150003 = some (.beq 5 0 3) := by decide
theorem test_decode_bne_back : decodeTableWord 32 0x001373FF = some (.bne 3 7 (-1)) := by decide
theorem test_decode_j_back : decodeTableWord 32 0x803FFFFE = some (.j (-2)) := by decide
theorem test_decode_jr : decodeTableWord 32 0x80500400 = some (.jr 1 0) := by decide
theorem test_decode_liw : decodeTableWord 64 0x000003E800748000 = some (.liw 9 1000) := by decide
theorem test_decode_ld64 : decodeTableWord 32 0x80828F00 = some (.ld64 5 3 0) := by decide
theorem test_decode_lda64_device : decodeTableWord 32 0x80A29960 = some (.lda64 5 6 3) := by decide
theorem test_decode_fence : decodeTableWord 32 0x810008BB = some (.amoorFence 2 1 3 3) := by decide
theorem test_decode_cinv_rc : decodeTableWord 32 0x81301C05 = some (.cinvRc 7) := by decide
theorem test_decode_enq : decodeTableWord 32 0x814214C0 = some (.enq 4 5 6) := by decide
theorem test_decode_deqt_p5 : decodeTableWord 32 0x815214C5 = some (.deqt 4 5 6 1) := by decide
theorem test_decode_balloc : decodeTableWord 32 0x81721408 = some (.balloc 4 5) := by decide
theorem test_decode_btfork : decodeTableWord 32 0x8183A128 = some (.btfork 7 8 9) := by decide
theorem test_decode_send_ack : decodeTableWord 32 0x819194C1 = some (.sendAck 3 5 6) := by decide
theorem test_decode_recv : decodeTableWord 32 0x819214C8 = some (.recv 4 5 6) := by decide
theorem test_decode_strm_w : decodeTableWord 32 0x81BAA401 = some (.strmW 21 9) := by decide
theorem test_decode_xphase : decodeTableWord 32 0x81C38C08 = some (.xphase 7 3) := by decide
theorem test_decode_xrecv : decodeTableWord 32 0x81C02404 = some (.xrecv 9) := by decide
theorem test_decode_sstep : decodeTableWord 32 0x81C3800C = some (.sstep 7) := by decide
theorem test_decode_gbar : decodeTableWord 32 0x81D20008 = some (.gbar 4) := by decide
theorem test_decode_migr_ld : decodeTableWord 32 0x81E21409 = some (.migrLd 4 5) := by decide
theorem test_decode_stake : decodeTableWord 32 0x821214C0 = some (.stake 4 5 6) := by decide
theorem test_decode_lvinit : decodeTableWord 32 0x822214C0 = some (.lvinit 4 5 6) := by decide
theorem test_decode_ssrim : decodeTableWord 32 0x824214C4 = some (.ssrim 4 5 6) := by decide
theorem test_decode_add : decodeTableWord 32 0x84021400 = some (.add 4 5 0) := by decide
theorem test_decode_add_parallel : decodeTableWord 32 0x040318A0 = some (.add 6 6 5) := by decide
theorem test_decode_addi : decodeTableWord 32 0x84118C08 = some (.addi 3 3 8) := by decide
theorem test_decode_remu : decodeTableWord 32 0x042310A6 = some (.remu 6 4 5) := by decide
theorem test_decode_vfma : decodeTableWord 32 0x8511D103 = some (.vfma 3 20 8) := by decide
theorem test_decode_vrec : decodeTableWord 32 0x857214C0 = some (.vrec 4 5 6) := by decide
theorem test_decode_vloop : decodeTableWord 32 0x85911400 = some (.vloop 2 5) := by decide
theorem test_decode_mcfg : decodeTableWord 32 0x86001400 = some (.mcfg 5) := by decide
theorem test_decode_mlda : decodeTableWord 32 0x86101800 = some (.mlda 6) := by decide
theorem test_decode_mldb : decodeTableWord 32 0x86101CC1 = some (.mldb 7 12) := by decide
theorem test_decode_mma : decodeTableWord 32 0x86214030 = some (.mma 5 3) := by decide
theorem test_decode_mdq : decodeTableWord 32 0x86402400 = some (.mdq 9) := by decide
theorem test_decode_mdelta : decodeTableWord 32 0x8640A441 = some (.mdelta 2 9 4) := by decide
theorem test_decode_mst : decodeTableWord 32 0x86505081 = some (.mst 1 4 8) := by decide
theorem test_decode_mscale : decodeTableWord 32 0x86500082 = some (.mscale 0 8) := by decide
/-- OP 0x28 is reserved, a nonzero zero field and guard !p0 are no instruction (R59, R68). -/
theorem test_decode_refused : decodeTableWord 32 0x82800000 = none ∧ decodeTableWord 32 0x80000001 = none ∧
    decodeTableWord 32 0xC4021400 = none := by decide

/-! ### Single steps

A thread in bank 0 of core 0 of cluster 0, its handler at 0x1000, executes one word as word 0 of the serial bundle at 0x100. -/

/-- A register file with these values. -/
def thread (r : List (Nat × Word)) (v : List (Nat × Vec)) : Thread :=
  v.foldl (fun t e => t.setV e.1 e.2) (r.foldl (fun t e => t.setX e.1 e.2)
    { prog := 1, serial := 1, pc := 0x100, trap0 := { tvec := 0x1000 } })

/-- The state in which the thread's word executes, with own-TCM bytes from offset 0 and space 0's root entry valid (R206). -/
def at_ (t : Thread) (tcm : List Byte := []) : State :=
  let k : Core := { banks := [(0, t)], tcm := { bytes := wrBytes [] 0 tcm } }
  { State.reset with bundle := 0x100, th := t, src := t, co := k, cores := [(0, k)], dram := [(7, 0x80)] }

/-- What a next state shows. -/
def see {α : Type} (o : Answer) (f : State → α) : Option α := match o with | .next t => some (f t) | _ => none

/-- x[r] after a word. -/
def xof (i : Instr) (r : Nat) (regs : List (Nat × Word)) (tcm : List Byte := []) : Option Nat :=
  see (exec i (at_ (thread regs []) tcm)) fun t => (t.th.getX r).toNat

/-- v[r] after a word, with VCONF. -/
def vof (i : Instr) (r : Nat) (vconf : Word) (regs : List (Nat × Vec)) : Option (Vec × Nat) :=
  see (exec i (at_ { thread [] regs with vconf := vconf })) fun t => (t.th.getV r, t.th.vconf.toNat / 256 % 64)

/-- Cause, TVAL and resume address of a trap taken. -/
def trapOf (i : Instr) (regs : List (Nat × Word)) : Option (Nat × Nat × Nat) :=
  see (exec i (at_ (thread regs []))) fun t => (t.th.trap0.cause.toNat, t.th.trap0.tval.toNat, t.th.trap0.tepc.toNat)

/-- Address of own-TCM offset 0 (R158). -/
def tcm0 : Word := 0xFF00000000000000

theorem test_add_wraps : xof (.add 4 5 6) 4 [(5, 0xFFFFFFFFFFFFFFFF), (6, 2)] = some 1 := by decide
theorem test_add_x0_discards : xof (.add 0 5 6) 0 [(5, 1), (6, 2)] = some 0 := by decide
theorem test_sra_uses_six_bits : xof (.sra 4 5 6) 4 [(5, 0x8000000000000000), (6, 0x43)] = some 0xF000000000000000 := by decide
theorem test_sltu_slt : xof (.slt 4 5 6) 4 [(5, 0xFFFFFFFFFFFFFFFF), (6, 1)] = some 1 ∧
    xof (.sltu 4 5 6) 4 [(5, 0xFFFFFFFFFFFFFFFF), (6, 1)] = some 0 := by decide
theorem test_addi_negative : xof (.addi 4 5 (-64)) 4 [(5, 63)] = some 0xFFFFFFFFFFFFFFFF := by decide
theorem test_mulh_signed : xof (.mulh 4 5 6) 4 [(5, 0xFFFFFFFFFFFFFFFF), (6, 2)] = some 0xFFFFFFFFFFFFFFFF ∧
    xof (.mulhu 4 5 6) 4 [(5, 0xFFFFFFFFFFFFFFFF), (6, 2)] = some 1 := by decide
/-- R118's corner rows. -/
theorem test_div_corners : xof (.div 4 5 0) 4 [(5, 7)] = some 0xFFFFFFFFFFFFFFFF ∧ xof (.rem 4 5 0) 4 [(5, 7)] = some 7 ∧
    xof (.div 4 5 6) 4 [(5, 0x8000000000000000), (6, 0xFFFFFFFFFFFFFFFF)] = some 0x8000000000000000 ∧
    xof (.rem 4 5 6) 4 [(5, 0xFFFFFFFFFFFFFFF9), (6, 2)] = some 0xFFFFFFFFFFFFFFFF := by decide
theorem test_lui_sign : xof (.lui 4 0x4000) 4 [] = some 0xFFFFFFFFC0000000 := by decide
theorem test_addpc : xof (.addpc 4 (-1)) 4 [] = some 0xF8 := by decide
theorem test_liwh_keeps_low : xof (.liwh 4 0xFFFFFFFF) 4 [(4, 0x123456789)] = some 0xFFFFFFFF23456789 := by decide
theorem test_clz_zero : xof (.clz 4 5) 4 [] = some 64 ∧ xof (.ctz 4 5) 4 [(5, 8)] = some 3 ∧ xof (.popc 4 5) 4 [(5, 0xFF01)] = some 9 := by decide
theorem test_bswap : xof (.bswap 4 5) 4 [(5, 0x0102030405060708)] = some 0x0807060504030201 := by decide
/-- R144's example: the cluster field of CORE_ID on cluster 33. -/
theorem test_part_cluster : xof (.part 4 5 6) 4 [(5, 0x2105), (6, 0x0608)] = some 33 := by decide
theorem test_sel_old_d : xof (.sel 4 5 6) 4 [(4, 0), (5, 1), (6, 2)] = some 2 := by decide
theorem test_movpw_bit0 : xof (.movpw 4) 4 [] = some 1 := by decide
theorem test_peq : see (exec (.peq 3 5 6) (at_ (thread [] []))) (fun t => t.th.pw.toNat) = some 9 := by decide
theorem test_p0_stays : see (exec (.pnot 0 0) (at_ (thread [] []))) (fun t => t.th.getP 0) = some true := by decide
theorem test_branch_back : see (exec (.bne 5 0 (-2)) (at_ (thread [(5, 1)] []))) (fun t => t.th.pc.toNat) = some 0xF0 := by decide
theorem test_branch_not_taken : see (exec (.blt 5 0 (-2)) (at_ (thread [(5, 1)] []))) (fun t => t.th.pc.toNat) = some 0x104 := by decide
theorem test_branch_below_zero : trapOf (.beq 0 0 (-64)) [] = some (3, 0xFFFFFFFFFFFFFF00, 0x100) := by decide
theorem test_call_links_word1 : xof (.call 4) 1 [] = some 0x104 := by decide
theorem test_jalr_old_base : see (exec (.jalr 5 5 2) (at_ (thread [(5, 0x200)] []))) (fun t => (t.th.pc.toNat, (t.th.getX 5).toNat)) =
    some (0x208, 0x104) := by decide
theorem test_jr_misaligned : trapOf (.jr 5 0) [(5, 0x202)] = some (3, 0x202, 0x100) := by decide
theorem test_loop_from_zero : see (exec (.loop 5 5 1) (at_ (thread [] []))) (fun t => (t.th.pc.toNat, (t.th.getX 5).toNat)) =
    some (0x108, 0xFFFFFFFFFFFFFFFF) := by decide
theorem test_trap_returns_behind : trapOf (.trap 5) [(5, 77)] = some (6, 77, 0x104) ∧ trapOf (.trapBrk 5) [(5, 77)] = some (7, 77, 0x100) := by decide
theorem test_tret_without_trap : (trapOf .tret []).map (·.1) = some 5 := by decide
theorem test_halt_at_task_level : (trapOf .halt []).map (·.1) = some 5 := by decide
theorem test_csr_bank1_forbidden : (trapOf (.csrr 4 0x210) []).map (·.1) = some 5 := by decide
theorem test_csrw_thread_id_ignored : see (exec (.csrw 5 0x005) (at_ (thread [(5, 9)] []))) (fun t => (t.th.serial, t.th.pc.toNat)) = some (1, 0x104) := by decide
theorem test_csrs_pw : see (exec (.csrs 5 0x000) (at_ (thread [(5, 0x102)] []))) (fun t => t.th.pw.toNat) = some 3 := by decide
/-- R74: program 1, serial 1, bank 0. -/
theorem test_thread_id : xof (.csrr 4 0x005) 4 [] = some 0x0001000000010000 := by decide
theorem test_talarm_refuses : xof (.talarm 4 5 6) 4 [(5, 1000), (6, 14)] = some 2 := by decide
theorem test_ld8_signs : xof (.ld8 4 5 1) 4 [(5, tcm0)] [0, 0x80] = some 0xFFFFFFFFFFFFFF80 ∧
    xof (.ld8u 4 5 1) 4 [(5, tcm0)] [0, 0x80] = some 0x80 := by decide
theorem test_ld32_little_endian : xof (.ld32u 4 5 1) 4 [(5, tcm0)] [0, 0, 0, 0, 1, 2, 3, 4] = some 0x04030201 := by decide
theorem test_st16_bytes : see (exec (.st16 4 5 1) (at_ (thread [(4, 0x12345), (5, tcm0)] [])))
    (fun t => t.co.tcm.bytes) = some [(2, 0x45), (3, 0x23)] := by decide
theorem test_ldp_pair : see (exec (.ldp 4 5 0) (at_ (thread [(5, tcm0)] []) [1, 0, 0, 0, 0, 0, 0, 0, 2]))
    (fun t => ((t.th.getX 4).toNat, (t.th.getX 5).toNat)) = some (1, 2) := by decide
theorem test_ld64_misaligned : trapOf (.ld64 4 5 0) [(5, tcm0 + 4)] = some (4, 0xFF00000000000004, 0x100) := by decide
theorem test_onchip_hole : (trapOf (.ld64 4 5 0) [(5, 0xFF70000000000000)]).map (·.1) = some 0x16 := by decide
theorem test_amomin_signed : see (exec (.amomin 4 5 0 0 0) (at_ (thread [(4, 1), (5, tcm0)] []) [0xFF, 0xFF, 0xFF, 0xFF]))
    (fun t => ((t.th.getX 4).toNat, rdN t.co.tcm.bytes 0 4)) = some (0xFFFFFFFFFFFFFFFF, 0xFFFFFFFF) := by decide
theorem test_cas64_fails : see (exec (.cas64 4 5 0 0) (at_ (thread [(4, 1), (5, tcm0)] []) [7]))
    (fun t => ((t.th.getX 4).toNat, rdN t.co.tcm.bytes 0 8)) = some (7, 7) := by decide
theorem test_amofadd : see (exec (.amofadd 4 5 0 0 0) (at_ (thread [(4, 0x3F800000), (5, tcm0)] []) [0, 0, 0x80, 0x3F]))
    (fun t => rdN t.co.tcm.bytes 0 4) = some 0x40000000 := by decide
theorem test_vadd_bytes_wrap : vof (.vadd 2 0 1) 2 0 [(0, 0xFF), (1, 0x0102)] = some (0x0101, 0) := by decide
theorem test_vadd_saturates : vof (.vadd 2 0 1) 2 0x20 [(0, 0x7F), (1, 1)] = some (0x7F, 32) := by decide
theorem test_vshl_by_width : vof (.vshl 2 0 1) 2 2 [(0, 0xFF), (1, 32)] = some (0, 0) := by decide
theorem test_vfadd : vof (.vfadd 2 0 1) 2 6 [(0, 0x3F800000), (1, 0x40000000)] = some (0x40400000, 0) := by decide
/-- The example of chapter 12's Cases: VCVTS of FP32 lanes (470, -470, NaN, 13) to code 8 gives 0x557F_FE7E with SAT and NX. -/
theorem test_vcvts_example : vof (.vcvts 2 0 8) 2 6 [(0, 0x415000007FC00000C3EB000043EB0000)] = some (0x557FFE7E, 40) := by decide
theorem test_vfadd_integer_type : (trapOf (.vfadd 2 0 1) []).map (·.1) = some 2 := by decide
/-- The example of R264: y = 0, rho = 10, a = 0.5 and x = (1, 2, 3, 4) with a reset at element 2. -/
theorem test_recurrence_example :
    let o := recurrence fp32 .nearest false 0x41200000
      [(false, 0x3F000000, 0x3F800000), (false, 0x3F000000, 0x40000000), (true, 0x3F000000, 0x40400000), (false, 0x3F000000, 0x40800000)] 0
    o.1 = [0x3F800000, 0x40200000, 0x41000000, 0x41000000] ∧ o.2.1 = 0x41000000 ∧ o.2.2 = 0 := by decide
/-- The rows of R381's example, s = 0.25 and tau = 0.0625 under E4M3: latch byte, new A_ref, clamped. -/
theorem test_mdq_example :
    let tau := fp16.num 0x2C00
    let s := fp16.num 0x3400
    deltaElem (e4m3.num 0x38) 0x3F800000 tau s = (0x00, 0x3F800000, false) ∧
    deltaElem (e4m3.num 0x42) 0x40000000 tau s = (0x02, 0x40200000, false) ∧
    deltaElem (e4m3.num 0x31) 0x3F000000 tau s = (0x00, 0x3F000000, false) ∧
    deltaElem (e4m3.num 0x45) 0x40480000 tau s = (0x00, 0x40480000, false) ∧
    deltaElem (e4m3.num 0x7E) 0xBF800000 tau s = (0x7F, 0x41F60000, true) := by decide
theorem test_mzero : see (exec (.mzero 1) { at_ (thread [] []) with co := { (at_ (thread [] [])).co with tiles := [(256, 1), (511, 2), (512, 3)] } })
    (fun t => t.co.tiles) = some [(512, 3)] := by decide +kernel
theorem test_recvt_empty : xof (.recvt 4 5 6) 4 [(5, 4), (6, tcm0)] = some 16 := by decide
theorem test_send_to_no_core : (trapOf (.send 4 5 6) [(5, 0xFFFF), (6, tcm0)]).isSome = true := by decide

/-! ### The two standard functions (R422, R426), on the examples of their standards -/

/-- FIPS 180-4: SHA-384 of "abc". -/
theorem test_sha384_abc : (sha384 [0x61, 0x62, 0x63]).foldl (fun n b => n * 256 + b.toNat) 0 =
    0xcb00753f45a35e8bb5a03d699ac65007272c32ab0eded1631a8b605a43ff5bed8086072ba1e7cc2358baeca134c825a7 := by decide +kernel
/-- FIPS 197: the S-box of 0x53 (5.1.1) and a column of MixColumns (its round matrix has the first row 2, 3, 1, 1). -/
theorem test_aes_steps : subByte 0x53 = 0xED ∧ invSubByte 0xED = 0x53 ∧
    mixColumn [2, 3, 1, 1] [0xDB, 0x13, 0x53, 0x45] = [0x8E, 0x4D, 0xA1, 0xBC] := by decide +kernel

/-! ### One step of the module -/

/-- R393, R403: an uncorrectable error at TCM bytes 16-23 of core 0 poisons them and counts in ECC_UNCORR of unit 0. -/
theorem test_uncorrectable_error_poisons :
    let s := ({ upsets := [(1, ⟨0, .tcm 0, 18, false⟩)] } : State).pass
    (s.core 0).tcm.bad = [2] ∧ mget s.counters 1 = some 1 ∧ s.upsets = [] := by decide +kernel

/-- The placed word is the first to execute (R53): ADDI x4, x0, 5 gives x4 = 5 and pc = 4. -/
theorem test_step_placed_word : see (step (State.reset.withFetchWord 32 0x84120005)) (fun t =>
    (mget (t.core 0).banks 0).map fun u => ((u.getX 4).toNat, u.pc.toNat)) = some (some (5, 4)) := by decide
theorem test_step_boots : see (step State.reset) (fun t => t.front.boot) = some 1 := by decide

/-! ### Witnesses of the obligations' hypotheses

States and values first; then, for each obligation with hypotheses, one theorem: a group of its conjunction for each clause,
with the state and operands that meet all hypotheses of that clause. A value that an opaque constant gives is quantified away. -/

set_option maxRecDepth 4000
set_option synthInstance.maxSize 4000
set_option linter.unusedTactic false
set_option linter.unreachableTactic false

/-- A word on these registers and own-TCM bytes. -/
abbrev sx (r : List (Nat × Word)) (tcm : List Byte := []) : State := at_ (thread r []) tcm

/-- The same with a bundle at 0x200 that a register target may name the second word of. -/
def codeAt (b : BitVec 64) : State :=
  let s := at_ (thread [(5, 0x204)] [])
  let k : Core := { s.co with l0i := [⟨1, 8, true, b.setWidth 512, []⟩] }
  { s with co := k, cores := [(0, k)] }

/-- A service thread in place of the task. -/
def serviceAt : State :=
  let s := at_ { thread [] [] with level := .service } []
  s
/-- A thread that has taken a trap, in bank 0 or in both banks. -/
def trapped (one : Bool) : State :=
  at_ { thread [] [] with trap0 := { tvec := 0x1000, held := true, tepc := 0x208 }, trap1 := { held := one, tepc := 0x300 } }

/-- Program 1, whose task-set run has no error yet. -/
def runA : Run :=
  { gang := false, latency := false, rollback := false, paired := false, count := 3, next := 2, arg := 5, clusterMask := 1
    coreMask := 0xFFFF, domain := 0, domains := 2, grouped := false, tvec := 0x1000, entry := 0x100, reads := [], writes := []
    window := 0, seq := 1, opcode := 2, cores := [0], order := 0, admitted := true }
def progA : Prog :=
  { tenant := 0, space := 0, profile := 0, entry := 0x100, stack := 0x400, text := [], image := [], tasks := [], plans := []
    slots := [], run := some runA }
/-- With program 1 running its task set. -/
def ofProg (s : State) (g : Prog) : State := { s with front := { s.front with progs := [(1, g)] } }
/-- The core of the thread is another one. -/
def onCore (s : State) (c : Nat) : State := { s with cid := c, cores := [(c, s.co)] }
/-- Space 0 has no valid root entry. -/
def noSpace (s : State) : State := { s with dram := [] }
/-- Space 0 is valid and belongs to no tenant. -/
def withSpace (s : State) : State := { s with dram := [(7, 0x80)] }
/-- A thread with VCONF, registers and vector registers, whose vector words run at once. -/
def vx (vconf : Word) (r : List (Nat × Word)) (v : List (Nat × Vec)) (tcm : List Byte := []) : State :=
  at_ { thread r v with vconf := vconf } tcm
/-- A loop of bank 0 with `toIssue` body words to come and `left` repetitions. -/
def loopAt (toIssue left : Nat) : State :=
  let s := vx 0 [] []
  let k : Core := { s.co with vloop := some { bank := 0, left := left, length := 2, toIssue := toIssue } }
  { s with co := k, cores := [(0, k)] }

/-- A line of space 0 in the slice that is its home. -/
def sliceLine : SLine := { tenant := 0, space := 0, line := 0, frame := 0, key := 0 }
/-- The 64-byte stream state record at offset 0: type 6, valid and locked, owned by the thread. -/
def recordBytes : List Byte := toBytes 24 0 ++ toBytes 8 (2 ^ 32 + 1) ++ toBytes 4 0 ++ toBytes 4 (3 + 4 * 6) ++ toBytes 24 0
/-- Matrix state: configuration, latch, slot 2 in a state, and a torus neighbourhood of the same program. -/
def mx (mconf : Word) (st : SlotState) (r : List (Nat × Word)) (tcm : List Byte := []) : State :=
  let s := at_ (thread r []) tcm
  let k : Core := { s.co with mconf := mconf, slots := [(2, { state := st, image := [(0, 3)] })], latch := [(0, 2)], vloop := none }
  { s with co := k, cores := (0, k) :: (List.range 4).map fun p => (neighbour 0 p, k) }
/-- A Levain header of one row, one column and one chunk of source format 8, in mode `m`, with its check (R374). -/
def levain (m : Nat) : Nat :=
  let h := hput (hput (hput (hput (hput 0 4 0 8 1) 5 0 8 8) 0x0E 0 16 7) 0x14 0 16 9) 0x18 0 16 0x3C00
  let h := hput (hput h 0x32 0 2 m) 0x32 2 1 (if m = 0 then 0 else 1)
  hput h 0x3C 0 32 (headerCheck h)
/-- A valid record of `kc` chunks in mode `m` whose cursor stands at chunk `c`, whose latch is loaded for it or not. -/
def levainK (m kc c q : Nat) : Nat :=
  let h := hput (hput (hput (putBits (levain m) 20 1 1) 4 0 8 kc) 0x30 0 16 c) 0x32 2 1 q
  hput h 0x3C 0 32 (headerCheck h)
/-- Slot 2 of the core is another one. -/
def withSlots (s : State) (k : WSlot) : State := { s with co := { s.co with slots := [(2, k)] } }
/-- A thread whose core's delta configuration fits the record at TCM offset 0. -/
def deltaAt (n : Nat) (x : Word) : State :=
  let s := at_ (thread [(5, x)] []) (toBytes 64 n)
  let k : Core := { s.co with mconf := 0x3000800000 + 27 + 256, slots := [(2, { state := .full })] }
  { s with co := k, cores := [(0, k)] }
/-- A fill of slot 2 of core 0 whose lines have come. -/
def fillAt (tags : List (Option (Nat × Nat))) : State :=
  let s := mx 0 (.loading 9) []
  { s with
    event := .slotFillComplete 0 2 9
    accs := [(9, { core := 0, bank := 0, who := ⟨1, 1⟩, tenant := 0, level := .task, space := 0, op := .read, size := 64, todo := []
                   done := List.replicate 64 3, forWhom := .fill 2 9 0 64, wordAddr := 0, tags := tags })] }
/-- Own and far stream state records. -/
def ssr (own far : Nat) : State :=
  at_ (thread [(5, 0), (6, tcm0 + 64)] []) (toBytes 24 0 ++ toBytes 8 (2 ^ 32 + 1) ++ toBytes 4 0 ++ toBytes 4 own ++ toBytes 24 0 ++
    toBytes 36 0 ++ toBytes 4 far ++ toBytes 24 0)
/-- A word whose reply has come. -/
def replied (r : List (Nat × Word)) (y : Reply) (tcm : List Byte := []) : State :=
  at_ { thread r [] with pend := [⟨0, 4, some y⟩] } tcm
/-- A service thread on these registers. -/
def svc (r : List (Nat × Word)) (tcm : List Byte := []) : State := at_ { thread r [] with level := .service } tcm
/-- Mailboxes of the core. -/
def withMail (s : State) (m : Map (List Payload)) : State := { s with co := { s.co with mail := m } }
/-- All copy ids in use. -/
def copyA : Copy := { kind := 1, slot := 0, who := ⟨1, 1⟩, space := 0, tenant := 0, level := .task, work := .refused, kind_ := .spawned }
def busyAt (r : List (Nat × Word)) : State :=
  let s := sx r
  { s with co := { s.co with copies := (List.range 96).map fun i => (i, copyA) } }
/-- A tensor record of one dimension and 16 bytes at own-TCM offset 0x100 (R283). -/
def tensorBytes : List Byte :=
  toBytes 8 (0xFF00 * 2 ^ 48 + 0x100) ++ toBytes 8 0x100 ++ toBytes 4 16 ++ toBytes 4 1 ++ toBytes 4 1 ++ toBytes 4 1 ++ toBytes 32 1
/-- A landing copy whose handler is the second word of the bundle at 0x200 (R284). -/
def handlerAt : State :=
  let s := at_ (thread [(5, tcm0 + 0x100), (6, tcm0), (4, tcm0 + 0x800)] []) (toBytes 8 32 ++ toBytes 8 0x204)
  let k : Core := { s.co with l0i := (codeAt 0x8000000080000000).co.l0i }
  { s with co := k, cores := [(0, k)] }
/-- A latency-class thread beside another one that can issue. -/
def twoBanks : State :=
  let t : Thread := { thread [] [] with latency := true }
  let k : Core := { banks := [(0, t), (1, { t with serial := 2 })] }
  { at_ t with co := k, cores := [(0, k)] }
/-- Slot 1 of program 1. -/
def slotA : LxmSlot := { size := 64, readers := 2, owner := 1 }
def withSlot (s : State) : State := { s with lxm := [(1, slotA)] }
/-- A stream descriptor of one strip at own-TCM offset 0x100 (R290). -/
def streamDescBytes : List Byte := toBytes 8 (0xFF00 * 2 ^ 48 + 0x100) ++ toBytes 2 1 ++ toBytes 2 1 ++ toBytes 2 1 ++ toBytes 18 0
/-- v20 is bound to a stream. -/
def streaming (write : Bool) : State :=
  let s := at_ { thread [] [] with streams := [(20, { desc := 0, write := write, copy := 3, space := 0 })] }
  { s with co := { s.co with copies := [(3, { copyA with kind := 7, work := .stream 20 })] } }
/-- A gang thread whose plan has one send entry (0) and one receive entry (1) at TCM offset 0 (R294, R295); `num` is the plan's
origin cycle, `flag` the arrival flag of entry 1, `late` the header's LATE report. -/
def planBytes (num flag : Nat) : List Byte :=
  toBytes 8 num ++ toBytes 4 1 ++ toBytes 2 0 ++ toBytes 2 0 ++ toBytes 2 2 ++ toBytes 14 0 ++
  (toBytes 4 3 ++ toBytes 2 2 ++ toBytes 1 0 ++ toBytes 1 1 ++ toBytes 2 0x100 ++ toBytes 2 0x140 ++ toBytes 2 8 ++ toBytes 2 0) ++
  (toBytes 4 3 ++ toBytes 2 2 ++ toBytes 1 1 ++ toBytes 1 0 ++ toBytes 2 0x100 ++ toBytes 2 0x140 ++ toBytes 2 8 ++ toBytes 1 0 ++ toBytes 1 flag)
def gangRun : Run := { runA with gang := true, links := [], gangNo := 1, clusters := [0] }
def gangAt (x : Word) (num flag now : Nat) (gangid : Word := 0x200000000) : State :=
  let s := at_ { thread [(5, x)] [] with gangid := gangid, kind := .gang 1 0 } (planBytes num flag)
  { ofProg s { progA with run := some gangRun } with now := now }
/-- A thread in barrier group 1, with the group. -/
def grouped (g : Group) (x : Word := 0) : State :=
  let s := ofProg (at_ { thread [(5, x)] [] with group := some 1 } []) progA
  { s with front := { s.front with groups := [(1, g)] } }
/-- Program 1 runs on the core. -/
def running (r : List (Nat × Word)) (st : State := sx r) : State :=
  let s := ofProg st progA
  { s with cores := [(0, { s.co with banks := [(0, s.th)] })], co := { s.co with banks := [] } }
/-- Core 1 beside it holds the program too, or does not. -/
def twoCores (holds : Bool) (r : List (Nat × Word)) : State :=
  let s := running r
  { s with cores := s.cores ++ [(1, { banks := if holds then [(0, thread [] [])] else [] })] }
/-- A reflex activation whose schedule entry may stake. -/
def stakeImage : Line := BitVec.ofNat 512 (2 ^ (8 * 0x2E + 1))
def staker (r : List (Nat × Word)) (held : Map (List Nat)) : State :=
  let s := at_ { thread r [] with kind := .reflex 0 0, stakes := held } []
  { s with
    front := { s.front with reflex := [(0, { image := stakeImage, armed := true })] }
    cores := [(0, { s.co with banks := [(0, { thread r [] with kind := .reflex 0 0, stakes := held })] }), (1, { staked := some ⟨1, 1⟩ })] }
/-- The same with stake 3 asked for and not granted yet. -/
def asking : State :=
  let s := staker [(5, 3)] [(3, [])]
  { s with th := { s.th with staking := [3] } }
/-- A schedule entry of program 1 for bank 0 of core 0x2000 (R383): period 1000, deadline 100, budget 50, entry 0x100, argument 7. -/
def rfImage (flags : Nat) : Line :=
  BitVec.ofNat 512 (1000 + 100 * 2 ^ 128 + 50 * 2 ^ 160 + 0x100 * 2 ^ 192 + 7 * 2 ^ 256 + 0x2000 * 2 ^ 320 + flags * 2 ^ 368 + 2 ^ 384)
def entryA : Reflex := { image := rfImage 0, armed := true, first := 500, next := 2 }
def reflexAt (r : Reflex) (banks : Map Thread) (now : Nat) : State :=
  { State.reset with
    now := now
    cores := [(0x2000, { banks := banks })]
    front := { State.reset.front with reflex := [(0, r)], progs := [(1, progA)] } }
def reflexThread : Thread := { thread [] [] with kind := .reflex 0 2 }
def pairA : PairReq := { number := 1, pair := 0, primary := true, who := ⟨1, 1⟩, hash := 5, go := .admission, delay := 3 }
def pairsAt (m : Map PairReq) : State := { reflexAt entryA [] 0 with pairs := m }
/-- Entry 0 runs, with these requests of its pair. -/
def rerunAt (r : Reflex) (m : Map PairReq) : State := { reflexAt r [] 0 with pairs := m }
/-- The front end runs. -/
def up (s : State) : State := { s with front := { s.front with boot := 5 } }
/-- A run that waits in the bulk queue. -/
def queuedAt : State :=
  let s := up (ofProg State.reset { progA with run := some { runA with admitted := false, cores := [] } })
  { s with front := { s.front with bulkQueue := [1] } }
def endedAt (r : Run) : State := ofProg State.reset { progA with run := some r }
def endedThread : Thread := { thread [] [] with st := .ended }
def coreWith (k : Core) (c : Nat := 0) : State := { State.reset with cores := [(c, k)] }
def stakeA : StakeReq := { id := 4, core := 0x2000, who := ⟨1, 1⟩, stake := 0, count := 16, mask := 0 }
def standbyAt (m : BitVec 32) (armed : Bool) : State :=
  { State.reset with front := { State.reset.front with standby := m, reflex := [(0, { image := rfImage 2, armed := armed })] } }
/-- A thread in bank 0 of core 0. -/
def live (t : Thread) (k : Core := {}) : State := { State.reset with cores := [(0, { k with banks := [(0, t)] })] }
/-- A mask that waits to be taken over. -/
def nextMask (m n : BitVec 32) : State :=
  let s := standbyAt m true
  { s with front := { s.front with standbyNext := n } }
/-- A stake that the front end has granted, and cores `l` for it. -/
def granted (s : State) (l : List Nat) : State := { s with front := { s.front with stakes := [(4, stakeA, [], l)] } }
def contextA : Context :=
  { origin := 1, cluster := 0, record := some 3, moving := true, order := 0, prog := 1, gangMember := false, core := {} }
/-- A Saved context that holds the thread, with `n` arrivals recorded. -/
def savedA (n : Nat) : Context :=
  { contextA with moving := false, core := { banks := [(0, thread [] [])] }, arrivals := List.replicate n (1, 0, 0) }
def movingA : Moving := { src := 0, dest := 1, bank := 0, hint := false, arrived := true, thread := thread [] [] }
def msgA : Msg := { src := 0, dst := 0, mb := 15, body := 5, level := .service, who := ⟨1, 1⟩, id := 4, form := 0 }
def waiting : Thread := { thread [] [] with pend := [⟨0, 4, none⟩], sends := 1 }
def alarmed : Thread := { thread [] [] with alarm := some (0, 13) }
/-- A rank with the plan of `planBytes`. -/
def rankA : Thread := { thread [] [] with kind := .gang 1 0, pend := [⟨0, 4, none⟩] }
def planCore : Core := { tcm := { bytes := wrBytes [] 0 (planBytes 7 0) } }
def xmsgA : XMsg := { src := 2, dst := 0, prog := 1, offset := 0x100, index := 1, data := [1, 2, 3, 4, 5, 6, 7, 8] }
def stepping : Thread := { rankA with st := .blocked .sstep }
def probeA : Probe := { core := 0, copy := 3, who := ⟨1, 1⟩, auto := false, start := ⟨1, 1⟩, at_ := ⟨1, 1⟩, found := [5] }
def probing : Core := { copies := [(3, { copyA with kind := 9, work := .probe 0 })] }
def lost : Thread := { thread [] [] with st := .blocked .sstep }
/-- An active queue of two 8-byte elements in the reflex store, an element on its way to it. -/
def queueA : Queue :=
  { qcb := 0xFF04 * 2 ^ 48, space := spaceOnChip, tenant := 0, free := 2, capacity := 2, elem := 8, flags := 0, baseSpace := 0
    base := 0xFF04 * 2 ^ 48 + 64 }
def qopA : QOp :=
  { home := 32, core := 0, who := ⟨1, 1⟩, word := 0, tenant := 0, space := spaceOnChip, op := .enq 4 5 6, a := 0xFF04000000000000
    b := 0x80000, data := [1, 2, 3, 4, 5, 6, 7, 8] }
def queueAt (q : Queue) : State := { live waiting with qops := [(4, qopA)], homes := [(32, { queues := [q] })] }
def qEvent : State := On (queueAt queueA) (.homeControllerOperation 4 none)
def qAfter : State := match (qEvent.setQueue 32 queueA).putElem 32 queueA [1, 2, 3, 4, 5, 6, 7, 8] false with | .ok (some z) => z | _ => qEvent
def grantA : Grant := { who := ⟨1, 1⟩, core := 0, ticket := 3, consumer := false, status := 0, desc := 0, data := [] }
def waiterA : Waiter := { ticket := 3, who := ⟨1, 1⟩, core := 0, desc := 0, data := [] }
def everyHome (h : Home) : Map Home := (List.range 33).map fun i => (i, h)
/-- Space 0 with one leaf that maps its lowest 4 TiB to frame 0, readable and writable (R207, R208). -/
def pages : Mem := [(2, 1), (7, 0x80), (0x10000, 1), (0x10002, 2), (0x20000, 0x0F)]
def tlbA : Tlb := leafTlb 0x0F 42 0 0 64 0x20000
def accA : Acc :=
  { core := 0, bank := 0, who := ⟨1, 1⟩, tenant := 0, level := .task, space := 0, op := .probe true, size := 8, todo := [64]
    forWhom := .word 0, wordAddr := 0 }
def accAt (a : Acc) (h : Home) (m : Mem := []) (t : Thread := waiting) : State :=
  { live t with accs := [(4, a)], homes := everyHome h, dram := m }
/-- An access of cluster 1's scratchpad. -/
def padAcc (op : MemOp) : Acc := { accA with op := op, todo := [0xFF03 * 2 ^ 48 + 2 ^ 24] }
def faultA : FaultRec :=
  { core := 0, who := ⟨1, 1⟩, bank := 0, of_ := .access 4, offset := 64, space := 0, kind := 1, reason := 0, tenant := 0, word := 0 }
def copyFaultA : FaultRec := { faultA with of_ := .copy 3 }
def faulted : Thread := { thread [] [] with fault := some (2, faultA) }
def copyFault : Copy := { copyA with faultId := 2, fault := some copyFaultA, state := 1 }
def shootA : Shoot := { kind := 0, keep := true, subject := 0, seq := 7, first := 0, length := 65536, core := 0, mb := 4 }
def shootAt (w : List Nat) : State :=
  { State.reset with
    front := { State.reset.front with rootQ := [.shoot shootA], rootWait := w }
    homes := [(5, { tlb := [tlbA] })] }
def regionReqA : RegionReq :=
  { core := 0, who := ⟨1, 1⟩, tenant := 0, index := 63, entry := some { base := 0x10000, length := 0x10000 } }
/-- A copy of `n` bytes within the own TCM. -/
def linearA (n : Nat) : Copy := { copyA with work := .linear (0xFF00 * 2 ^ 48) (0xFF00 * 2 ^ 48 + 64), length := n, src := 0xFF00 * 2 ^ 48, dst := 0xFF00 * 2 ^ 48 + 64 }
def engineAt (y : Copy) (t : Thread := thread [] []) (tcm : List Byte := [1, 2, 3]) : State :=
  live t { copies := [(3, y)], tcm := { bytes := wrBytes [] 0 tcm } }
def scattered (s : State) (y : Copy) (d : List Byte) : State :=
  match s.engScatter 0 y (y.writes y.sectors d) with | .ok z => z | .error _ => s
def streamA : Stream := { desc := 0, write := false, copy := 3, space := 0, image := BitVec.ofNat 256 (ofBytes streamDescBytes) }
def streamThread : Thread := { thread [] [] with streams := [(20, streamA)] }
def streamCopy : Copy := { copyA with kind := 7, work := .stream 20 }
def elementsA : Copy := { copyA with kind := 6, work := .elements (0xFF00 * 2 ^ 48) 64 8, length := 2 }
def landingA : Copy := { copyA with kind := 5, work := .handler 0 0 0x100 0x40 }
def publishA : Copy := { copyA with kind := 8, work := .publish 1 0 (some 2) }
def fetchA : Copy := { copyA with kind := 8, work := .fetch 1 0 none (some 2) }
/-- A packet of these fields (offset, value). -/
def pkt (tenant : Nat) (l : List (Nat × Nat)) : Packet := ⟨0, tenant, BitVec.ofNat 512 (l.foldl (fun n f => n + f.2 * 2 ^ (8 * f.1)) 0)⟩
/-- Window 0 on a queue of the reflex store. -/
def windowA : Window := { qcb := 0xFF04 * 2 ^ 48, space := 0, tenant := 0, cmd := true, latency := false, weight := 2 }
def windowAt (q : Queue) (w : Window := windowA) : State :=
  { State.reset with homes := [(32, { queues := [q] })], front := { State.reset.front with boot := 5, windows := [(0, w)] } }
def holding (q : Queue) (l : List Byte) : Queue := { q with free := q.capacity - 1 }
def lxmAt (l : LxmSlot) : State := { up State.reset with lxm := [(1, l)] }
def paged : State := { up State.reset with dram := pages }
def barA : Bar2 := ⟨0, 64, 64, 0⟩
def bar2At : State := { paged with front := { paged.front with bar2 := some barA } }
def dataOf (l : List Byte) (s : State := paged) : State := match s.wrAny 0 0 64 l with | .got _ t => t | _ => s
def armBytes : List Byte := toBytes 64 (100000 + 100 * 2 ^ 128 + 50 * 2 ^ 160 + 0x100 * 2 ^ 192 + 0x2000 * 2 ^ 320 + 2 ^ 384)
/-- The entry's bytes at offset 64; an empty slice map takes every line to slice 0. -/
def armAt : State :=
  let s := ofProg { paged with dram := wrBytes pages 64 armBytes } { progA with run := none }
  { s with front := { s.front with slices := [] } }
/-- A code object of one empty text section, at offset 64. -/
def objBytes : List Byte := toBytes 96 (0x4F5A4A54 + 2 ^ 32 + 2 ^ 128 + 64 * 2 ^ 160)
def objAt : State :=
  let s := { paged with dram := wrBytes pages 64 objBytes }
  { s with front := { s.front with slices := [] } }
def loadPkt : Packet := pkt 0 [(0, 1), (0x20, 64), (0x30, 96)]
def updPkt : Packet := pkt 0 [(0, 14), (0x20, 64), (0x30, 96)]
def loaded (e : Event) : State := match (On objAt e).rdAny 0 0 64 96 with | .got _ t => t | _ => objAt
def readAt (s : State) (n : Nat) : List Byte × State := match s.rdAny 0 0 64 n with | .got l t => (l, t) | _ => ([], s)
def queue32 : Queue := { queueA with elem := 32, flags := 0 }
def queue64 : Queue := { queueA with elem := 64, free := 1, tail := 1 }
def taken (s : State) (q : Queue) (h : Nat := 32) : List Byte × State := match s.takeElem h q with | .ok (some r) => r | _ => ([], s)
def putTo (s : State) (q : Queue) (l : List Byte) : State := match s.putElem 32 q l false with | .ok (some r) => r | _ => s
def launchPkt : Packet := pkt 0 [(0, 2), (0x20, 1), (0x24, 1), (0x30, 1), (0x34, 4), (0x38, 0x1000)]
def cmdQueue (b : List Byte) : State := { windowAt queue64 with reflexStore := { bytes := wrBytes [] 64 b } }
def headIn (s : State) : Packet × State := (s.headOf 0 windowA).getD (pkt 0 [], s)
/-- A packet that waits for the word at 64 to reach `v`, at the head of window 0's queue and held there. -/
def sigPkt (v : Nat) : Packet := pkt 0 [(0, 1), (1, 1), (8, 64), (0x18, v)]
def sigAt (v : Nat) : State :=
  let s := cmdQueue (toBytes 64 (sigPkt v).body.toNat)
  { s with dram := pages, front := { s.front with held := [(0, sigPkt v)], slices := [] } }
def signalled (s : State) (v : Nat) : State := (((headIn (On s (.packetSignalRelease 0))).2.signalValue (sigPkt v)).getD (0, s)).2
def released (b : Nat) : State := { State.reset with front := { State.reset.front with boot := b } }
def updateA : Update := { image := 5, queues := [], packet := pkt 0 [(0, 14)] }
def beats : State := { up State.reset with front := { (up State.reset).front with active := true, linkUp := true, ackDue := true, ackMisses := 2 } }
def spareAt : State := { up State.reset with front := { (up State.reset).front with spare := true, beatMisses := 2, mirrorSeq := 4 } }

def state1 : State := sx []
def state2 : State := { sx [] with co := { (sx []).co with divFree := 1 } }
def state3 : State := sx [(6, 1)]
def state4 : State := sx [(5, 1)]
def state5 : State := sx [(5, 0xFFFFFFFFF8)]
def state6 : State := sx [(5, 2)]
def state7 : State := codeAt 0x8000000080000000
def state8 : State := codeAt 0x8000000000000000
def state9 : State := sx [(5, 9)]
def state10 : State := sx [(5, 8)]
def state11 : State := svc [(5, 0xFFFFFFFFFC)]
def state12 : State := svc [(5, 0xFFFFFFFFF8)]
def state13 : State := at_ { thread [] [] with level := .firmware }
def state14 : State := ofProg (trapped false) progA
def state15 : State := trapped false
def state16 : State := trapped true
def state17 : State := onCore serviceAt (62 * 256)
def state18 : State := sx [(5, 100), (6, 2)]
def state19 : State := sx [(5, 100), (6, 1)]
def state20 : State := sx [(5, 100), (6, 13)]
def state21 : State := sx [(5, tcm0 + 0xBFFF)]
def state22 : State := sx [(5, tcm0 + 0xBFF8)]
def state23 : State := sx [(5, tcm0)]
def state24 : State := sx [(5, tcm0 + 0xBFF0)]
def state25 : State := sx [(5, 4)]
def state26 : State := vx 3 [(5, 8)] []
def state27 : State := vx 3 [(5, 4)] []
def state28 : State := noSpace (sx [(5, tcm0 + 0xBFF8)])
def state29 : State := sx [(5, tcm0 + 0xC100)]
def state30 : State := noSpace (sx [(5, 8)])
def state31 : State := withSpace (onCore (sx [(5, 8)]) (33 * 256))
def state32 : State := { withSpace (sx [(5, 8)]) with co := { (sx []).co with staked := some ⟨1, 1⟩ } }
def state33 : State := sx [(5, tcm0 + 0xBFFC), (6, 1)]
def state34 : State := sx [(5, tcm0 + 4)]
def state35 : State := withSpace (sx [(5, 8)])
def state36 : State := withSpace (at_ { thread [(5, 8)] [] with pend := [⟨0, 4, some (.value 9)⟩] })
def state37 : State := withSpace (sx [(5, 64)])
def state38 : State := sx [(5, 2 ^ 40 - 1)]
def state39 : State := onCore (sx []) (32 * 256)
def state40 : State := at_ { thread [] [] with cacheOps := [3] }
def state41 : State := { withSpace (at_ { thread [] [] with pend := [⟨0, 4, some (.value 0)⟩] }) with homes := [(0, { lines := [sliceLine] })] }
def state42 : State := vx 0x20 [] [(5, 0x7F), (6, 0x01)]
def state43 : State := vx 6 [] [(5, 0x7F), (6, 0x01)]
def state44 : State := vx 4 [] [(5, 0x3C00), (6, 0x7C01)]
def state45 : State := vx 5 [] [(5, 0x3C00), (6, 0x7FC0)]
def state46 : State := vx 6 [] [(5, 0x3F800000)]
def state47 : State := vx 6 [] [(5, 0x7FC00000)]
def state48 : State := vx 0x22 [] [(5, 0x7FFFFFFF), (6, 1)]
def state49 : State := vx 0 [(5, 7)] [(5, 0x3F800000)]
def state50 : State := vx 4 [(5, 7)] [(5, 0x7C01)]
def state51 : State := vx 5 [(5, 7)] [(5, 0x7FC0)]
def state52 : State := vx 6 [(5, 7)] [(5, 0x3F800000)]
def state53 : State := vx 3 [(5, 7)] [(5, 1)]
def state54 : State := vx 0 [(5, tcm0 + 0xBFF0)] []
def state55 : State := vx 2 [(5, tcm0 + 0xBFFC)] []
def state56 : State := vx 2 [(5, tcm0), (6, 16380)] []
def state57 : State := vx 2 [(5, tcm0 + 0xBFF0)] []
def state58 : State := vx 6 [(6, 0)] [] recordBytes
def state59 : State := vx 6 [(6, 0x000F000000040000)] [] recordBytes
def state60 : State := vx 6 [(6, 0x50000)] [] recordBytes
def state61 : State := sx [(5, 65535)]
def state62 : State := sx [(5, 65536)]
def state63 : State := loopAt 2 3
def arg1 : VLoop := { bank := 0, left := 3, length := 2, toIssue := 2 }
def state64 : State := loopAt 0 3
def arg2 : VLoop := { bank := 0, left := 3, length := 2, toIssue := 0 }
def state65 : State := loopAt 1 0
def arg3 : VLoop := { bank := 0, left := 0, length := 2, toIssue := 1 }
def state66 : State := vx 7 [] []
def state67 : State := vx 3 [] []
def state68 : State := onCore (vx 3 [] []) 16
def state69 : State := sx [(5, 1288)]
def state70 : State := { sx [(5, 1288)] with co := { (sx []).co with mconf := 0x3000000 } }
def state71 : State := { sx [(5, 1288)] with co := { landA := some [] } }
def state72 : State := sx [(5, 0x8000)]
def state73 : State := mx 0x4000030508 .empty [(5, tcm0 + 0xBED0)]
def state74 : State := mx 0x1B .empty [(5, 1)]
def state75 : State := mx 0x3000000508 .empty [(5, tcm0 + 0xBE00)]
def state76 : State := mx 0x3000000508 .empty [(5, tcm0 + 8)]
def state77 : State := mx 0x0000003000090508 .full []
def arg4 : WSlot := { state := .full, image := [(0, 3)] }
def state78 : State := mx 0x0000003000090508 .empty []
def arg5 : WSlot := { state := .empty, image := [(0, 3)] }
def state79 : State := mx 0x0000003000090508 (.loading 7) []
def arg6 : WSlot := { state := .loading 7, image := [(0, 3)] }
def state80 : State := mx 0x0000006000090708 .full []
def state81 : State := mx 0x3003000508 .full []
def state82 : State := { mx 0x3003000508 .full [] with co := { staked := some ⟨1, 1⟩ } }
def state83 : State := { at_ { thread [] [] with pend := [⟨0, 9, none⟩] } with co := { mconf := 0x40000000 } }
def state84 : State := { mx 0x3003000508 .full [] with event := .rotationDataArrival 0 true 1 [1] none true }
def state85 : State := { mx 0x3003000508 .full [] with event := .rotationDataArrival 0 false 1 [1] none true }
def state86 : State := { mx 0x3003000508 .full [] with event := .rotationCreditArrival 0 false 1 }
def state87 : State := fillAt [none]
def arg7 : Acc := { core := 0, bank := 0, who := ⟨1, 1⟩, tenant := 0, level := .task, space := 0, op := .read, size := 64, todo := [], done := List.replicate 64 3, forWhom := .fill 2 9 0 64, wordAddr := 0, tags := [none] }
def arg8 : WSlot := { state := .loading 9, image := [(0, 3)] }
def state88 : State := fillAt []
def arg9 : Acc := { core := 0, bank := 0, who := ⟨1, 1⟩, tenant := 0, level := .task, space := 0, op := .read, size := 64, todo := [], done := List.replicate 64 3, forWhom := .fill 2 9 0 64, wordAddr := 0, tags := [] }
def state89 : State := mx 0x800090000 .full [(5, tcm0 + 0xBFF0)]
def state90 : State := mx 0x800090000 .full [(5, tcm0 + 0xBFF8)]
def state91 : State := at_ (thread [(5, tcm0), (6, tcm0 + 64)] []) (toBytes 64 0 ++ toBytes 64 (levain 0))
def state92 : State := at_ (thread [(5, tcm0), (6, tcm0 + 64)] []) (toBytes 64 (levain 2))
def state93 : State := at_ (thread [(5, tcm0), (6, tcm0 + 64)] [])
def state94 : State := at_ (thread [(5, tcm0), (6, tcm0 + 0xBFC0)] []) (toBytes 64 (levain 2))
def state95 : State := deltaAt (levain 0) 0x1000
def arg10 : WSlot := { state := .full }
def state96 : State := deltaAt (levainK 1 2 1 0) (2 ^ 32 + 0x1000)
def state97 : State := deltaAt (levainK 2 2 0 1) 0x1000
def state98 : State := deltaAt (levainK 1 2 1 1) (2 ^ 32 + 0x1000)
def state99 : State := withSlots (deltaAt (levainK 2 2 0 1) 0x1000) { state := .empty }
def arg11 : WSlot := { state := .empty }
def state100 : State := sx [(5, tcm0 + 32), (6, 63)] (toBytes 40 0 ++ toBytes 8 0x10000)
def state101 : State := replied [(5, tcm0 + 32), (6, 63)] (.value 7)
def state102 : State := sx [(5, tcm0 + 32), (6, 64)] (toBytes 41 0 ++ toBytes 8 0x100)
def state103 : State := sx [(5, 63)]
def state104 : State := replied [(5, 63)] (.value (2 ^ 64 - 1))
def state105 : State := sx [(5, 64)]
def state106 : State := ssr 3 0
def state107 : State := ssr 2 0
def state108 : State := ssr 2 3
def state109 : State := ssr 1 2
def state110 : State := svc [(5, 0), (6, tcm0 + 0xBFE0)]
def state111 : State := { replied [(5, 0x50000), (6, tcm0 + 0xBFE0)] (.value 1) with co := {} }
def state112 : State := sx [(5, 0xD0000)]
def state113 : State := withMail (svc [(5, 0x21), (6, tcm0 + 0x20)]) [(0, [7]), (5, [8])]
def state114 : State := replied [(5, 0x20), (6, tcm0)] (.message 5 8)
def state115 : State := sx [(5, 0x8000), (6, tcm0)]
def state116 : State := sx [(5, tcm0), (6, 0xBFF8), (4, tcm0 + 8)]
def state117 : State := sx [(5, tcm0), (4, tcm0 + 64)] (tensorBytes)
def state118 : State := withSpace (replied [(5, 0x1000), (6, 2 ^ 32 * 64), (4, tcm0)] (.result 0 true (List.replicate 280 0)))
def state119 : State := sx [(5, tcm0 + 0x100), (6, tcm0), (4, tcm0 + 0x800)] (toBytes 4 32)
def state120 : State := withSpace (replied [(5, 0x1000), (6, 65536), (4, tcm0)] (.value 0))
def state121 : State := withSlot (sx [(5, 1), (6, tcm0)])
def state122 : State := withSlot (sx [(5, 255), (6, tcm0)])
def state123 : State := sx [(5, tcm0 + 0xBE00)]
def state124 : State := sx [(4, 1)]
def state125 : State := sx [(6, 2 ^ 24 + 8)]
def state126 : State := sx [(6, 65 * 2 ^ 32)]
def state127 : State := sx [(5, 256)]
def state128 : State := busyAt [(5, tcm0 + 0xBE00)]
def state129 : State := sx [(5, tcm0)] streamDescBytes
def state130 : State := streaming false
def arg12 : Stream := { desc := 0, write := false, copy := 3, space := 0 }
def state131 : State := streaming true
def arg13 : Stream := { desc := 0, write := true, copy := 3, space := 0 }
def state132 : State := gangAt 1 7 0 0
def arg14 := { progA with run := some gangRun }
def state133 : State := gangAt 2 7 0 0
def state134 : State := gangAt 0 7 0 35
def state135 : State := gangAt 0 7 0 36
def state136 : State := gangAt 0 7 0 19
def state137 : State := gangAt 1 7 1 0
def state138 : State := { gangAt 1 7 0 0 with th := { (gangAt 1 7 0 0).th with pend := [⟨0, 4, some (.value 2)⟩] } }
def state139 : State := gangAt 1 7 0 0 0
def state140 : State := grouped { members := [⟨1, 1⟩] }
def state141 : State := running [(5, 2)]
def state142 : State := running [(5, 1)]
def arg15 : Group := { members := [⟨1, 1⟩] }
def state143 : State := grouped { members := [⟨1, 1⟩, ⟨1, 2⟩] }
def arg16 : Group := { members := [⟨1, 1⟩, ⟨1, 2⟩] }
def state144 : State := replied [] (.value 6)
def state145 : State := grouped { members := [⟨1, 1⟩], completed := 5 } 5
def arg17 : Group := { members := [⟨1, 1⟩], completed := 5 }
def state146 : State := grouped { members := [⟨1, 1⟩], completed := 5 } 6
def state147 : State := running [(4, 0xFFFF), (5, 2 ^ 40 - 8)]
def state148 : State := { running [(4, 0xFFFF), (5, 2 ^ 40 - 8)] with co := { clearing := true } }
def state149 : State := running []
def state150 : State := running [(5, 0xFF02000000000000)]
def state151 : State := twoCores true [(5, 0xFF02000000010000)]
def state152 : State := twoCores false [(5, 0xFF02000000010000)]
def state153 : State := sx [(5, tcm0 + 8)]
def state154 : State := at_ { thread [] [] with latency := true }
def state155 : State := ofProg (at_ { thread [(5, 0xFFFFFFFC)] [] with kind := .taskSet 0 } []) progA
def state156 : State := ofProg (at_ { thread [(5, 0xFFFFFFFD)] [] with kind := .taskSet 0 } []) progA
def state157 : State := staker [(5, 17)] []
def state158 : State := staker [(5, 16)] []
def state159 : State := staker [(5, 16)] [(0, []), (1, []), (2, [])]
def state160 : State := staker [(5, 16)] [(0, []), (1, []), (2, []), (3, [])]
def state161 : State := staker [(5, 3)] []
def state162 : State := staker [(5, 3)] [(3, [1])]
def state163 : State := withSpace (sx [(5, 64), (6, 0x1000000)])
def state164 : State := withSpace (sx [(5, 64), (6, 0x80000)])
def state165 : State := withSpace (replied [(5, 64), (6, 0x8BFF8)] (.result 0 true [1, 2, 3, 4, 5, 6, 7, 8]))
def state166 : State := withSpace (replied [(5, 64), (6, 0x80000)] (.trap 5 6))
def state167 : State := withSpace (replied [(5, 64), (6, 0x80000)] (.result 3 true []))
def state168 : State := withSpace (sx [(5, 64), (6, tcm0 + 0xBFE0)] )
def state169 : State := withSpace (sx [(5, 64), (6, tcm0)] (toBytes 8 0x1000 ++ toBytes 4 2 ++ toBytes 4 8))
def state170 : State := withSpace (sx [(5, 64), (6, tcm0 + 0xBFC0)])
def state171 : State := withSpace (sx [(5, 64), (6, tcm0)] (toBytes 8 0x10000 ++ toBytes 8 0x1000 ++ toBytes 4 1 ++ toBytes 2 0 ++ toBytes 1 8))
def state172 : State := withSpace (sx [(5, 32)])
def state173 : State := reflexAt { entryA with active := some 1 } [] 2500
def arg18 := { entryA with active := some 1 }
def state174 : State := reflexAt entryA [] 2500
def state175 : State := reflexAt { entryA with active := some 2, next := 3 } [] 2601
def arg19 := { entryA with active := some 2, next := 3 }
def state176 : State := reflexAt entryA [(0, reflexThread)] 2600
def state177 : State := reflexAt entryA [(4, { reflexThread with st := .blocked .slot })] 0
def state178 : State := reflexAt entryA [] 0
def state179 : State := pairsAt [(4, pairA)]
def state180 : State := pairsAt [(4, pairA), (5, { pairA with primary := false, arrived := true })]
def arg20 := { pairA with primary := false, arrived := true }
def state181 : State := pairsAt [(4, { pairA with twin := some 5 })]
def arg21 := { pairA with twin := some 5 }
def state182 : State := rerunAt { entryA with active := some 2, next := 3 } [(4, pairA)]
def state183 : State := rerunAt { entryA with active := some 2, next := 3, reruns := 1 } [(4, pairA), (5, { pairA with primary := false, arrived := true })]
def arg22 := { entryA with active := some 2, next := 3, reruns := 1 }
def arg23 := { progA with run := some { runA with admitted := false, cores := [] } }
def arg24 := { runA with admitted := false, cores := [] }
def state184 : State := endedAt runA
def state185 : State := endedAt { runA with next := 3 }
def arg25 := { progA with run := some { runA with next := 3 } }
def arg26 := { runA with next := 3 }
def state186 : State := coreWith { banks := [(0, endedThread)] }
def state187 : State := coreWith { clearing := true, mconf := 5 }
def state188 : State := standbyAt 0xF true
def state189 : State := nextMask 0xF 0x1F
def arg27 := { stakeA with count := 0 }
def state190 : State := granted (live (thread [] [])) [5]
def state191 : State := granted State.reset [0]
def state192 : State := coreWith { banks := [(0, thread [] [])] }
def state193 : State := { State.reset with contexts := [(4, contextA)] }
def state194 : State := { State.reset with contexts := [(4, { contextA with moving := false })] }
def arg28 := { contextA with moving := false }
def state195 : State := { State.reset with moving := [(4, movingA)] }
def state196 : State := { State.reset with kept := [(4, .admission)] }
def state197 : State := live waiting { mail := [(15, List.replicate 7 1)] }
def state198 : State := live waiting { mail := [(15, List.replicate 8 1)] }
def state199 : State := live waiting
def state200 : State := { State.reset with contexts := [(4, savedA 31)] }
def state201 : State := { State.reset with contexts := [(4, savedA 32)] }
def state202 : State := live alarmed { mail := [(13, List.replicate 7 1)] }
def state203 : State := live rankA planCore
def state204 : State := live { rankA with prog := 2 } planCore
def state205 : State := ofProg (live stepping planCore) { progA with run := some gangRun }
def state206 : State := ofProg (live stepping planCore) { progA with run := some { gangRun with step0 := { replays := 3 } } }
def arg29 := { progA with run := some { gangRun with step0 := { replays := 3 } } }
def arg30 := { gangRun with step0 := { replays := 3 } }
def state207 : State := { ofProg (live { stepping with sends := 0 } planCore) { progA with run := some gangRun } with now := 704 }
def state208 : State := live waiting probing
def arg31 := { copyA with kind := 9, work := .probe 0 }
def state209 : State := { live lost with now := 1000000 }
def state210 : State := queueAt queueA
def arg32 : Tlb := { tenant := 0, space := 0, page := 0, size := 0, frame := 0, rd := true, wr := true, hint := false, pinned := true, region := 0, key := 0, entry := 0 }
def state211 : State := { live waiting with qops := [(4, { qopA with reply := some (.result 0 true []) })] }
def arg33 := { qopA with reply := some (.result 0 true []) }
def state212 : State := queueAt { queueA with producers := [waiterA] }
def state213 : State := { State.reset with homes := [(0, { queues := [{ queueA with producers := List.replicate 256 waiterA }], spilled := [(3, 0), (4, 1)] })] }
def state214 : State := { State.reset with homes := [(0, { queues := [{ queueA with shadow := true, space := 0xFF01 }] })] }
def arg34 := { queueA with shadow := true, space := 0xFF01 }
def state215 : State := accAt accA { power := .gated }
def state216 : State := accAt accA {}
def state217 : State := accAt accA { tlb := [tlbA] }
def state218 : State := accAt accA {} pages
def state219 : State := accAt (padAcc (.write [1, 2] [])) {}
def state220 : State := accAt (padAcc .read) {}
def state221 : State := accAt { accA with op := .read, done := [1, 2, 3] } {}
def arg35 := { accA with op := .read, done := [1, 2, 3] }
def state222 : State := accAt { accA with forWhom := .cacheOp 0 } {}
def arg36 := { accA with forWhom := .cacheOp 0 }
def state223 : State := accAt { accA with space := 0xFF00 } {}
def arg37 := { accA with space := 0xFF00 }
def state224 : State := live faulted { keptFaults := [2] }
def state225 : State := live waiting { copies := [(3, copyFault)] }
def state226 : State := accAt accA { power := .gated, waking := [.sliceRequest 4] }
def state227 : State := accAt accA { power := .waking, waking := [.sliceRequest 4] }
def state228 : State := shootAt [5]
def state229 : State := shootAt []
def state230 : State := { State.reset with front := { State.reset.front with regionReqs := [(4, regionReqA)] } }
def state231 : State := accAt accA {} [(7, 0x80)]
def state232 : State := { State.reset with front := { State.reset.front with lent := [(tlbA, 0)] } }
def state233 : State := { State.reset with homes := [(5, { tlb := [{ tlbA with lease := some 0 }] })] }
def state234 : State := engineAt (linearA 64)
def state235 : State := engineAt (linearA 8)
def state236 : State := engineAt streamCopy streamThread streamDescBytes
def state237 : State := engineAt elementsA
def arg38 := { elementsA with busy := false }
def state238 : State := live (thread [] []) { copies := [(3, landingA)], landing := [(3, 64, 5, 9)] }
def state239 : State := { engineAt publishA with lxm := [(1, slotA)] }
def state240 : State := { engineAt fetchA with lxm := [(1, { slotA with buffers := [(2, { readers := 1, version := 4 })] })] }
def arg39 := { slotA with buffers := [(2, { readers := 1, version := 4 })] }
def state241 : State := engineAt { copyA with state := 2 }
def arg40 := { copyA with state := 2 }
def state242 : State := up State.reset
def state243 : State := windowAt queueA
def state244 : State := windowAt { queueA with free := 0, flags := 0 }
def arg41 := { queueA with free := 0, flags := 0 }
def state245 : State := windowAt { queueA with free := 1, tail := 1 }
def arg42 := { queueA with free := 1, tail := 1 }
def state246 : State := lxmAt { slotA with latest := some 1, buffers := [(1, { complete := true, version := 3 })] }
def arg43 := { slotA with latest := some 1, buffers := [(1, { complete := true, version := 3 })] }
def state247 : State := lxmAt slotA
def state248 : State := lxmAt { slotA with hostClaim := some 2, writing := some 2 }
def arg44 := { slotA with hostClaim := some 2, writing := some 2 }
def state249 : State := lxmAt { slotA with hostLatch := some 2, buffers := [(2, { readers := 1 })] }
def arg45 := { slotA with hostLatch := some 2, buffers := [(2, { readers := 1 })] }
def state250 : State := cmdQueue (toBytes 64 1)
def state251 : State := ofProg (up State.reset) { progA with run := some runA }
def arg46 := { progA with run := some runA }
def state252 : State := ofProg (up State.reset) { progA with run := none }
def arg47 := { progA with run := none }
def state253 : State := { up State.reset with homes := [(5, { tlb := [tlbA] })] }
def state254 : State := ofProg (lxmAt slotA) progA
def state255 : State := { up State.reset with front := { (up State.reset).front with boot := 6 } }
def state256 : State := { up State.reset with front := { (up State.reset).front with tenants := [(4, 2)] } }
def state257 : State := { windowAt queue32 with front := { (windowAt queue32).front with dequeued := [pkt 0 [(0, 13)]] } }
def arg48 (s : State) := { s with front := { s.front with dequeued := s.front.dequeued.erase (pkt 0 [(0, 13)]) } }
def state258 : State := sigAt 0
def state259 : State := sigAt 1
def state260 : State := released 0
def state261 : State := released 1
def state262 : State := released 2
def state263 : State := released 3
def state264 : State := released 4
def state265 : State := { released 5 with front := { (released 5).front with update := some updateA } }
def state266 : State := { released 5 with front := { (released 5).front with update := some { updateA with counts := [0, 3, 0, 0] } } }
def arg49 := { updateA with counts := [0, 3, 0, 0] }
def state267 : State := { released 5 with front := { (released 5).front with progs := [(1, progA)], bulkQueue := [1] } }
def state268 : State := released 6
def state269 : State := { spareAt with lxm := [(1, slotA)] }
def state270 : State := live (thread [] [])
def state271 : State := live (thread [] []) { halted := true }

/-- A home slice is one of the 32 (R165), whatever the hash. -/
theorem homeOf_lt (s : State) (sp ea : Nat) : s.homeOf sp ea < 32 := Nat.mod_lt _ (by decide)
theorem coreless (q : Nat) : (state207.core q).undoOver = false := by
  by_cases h : q = 0
  · subst h; decide +kernel
  · have e : mget state207.cores q = none := by
      show Option.map _ (List.find? (fun e => e.1 == q) [((0 : Nat), _)]) = none
      rw [List.find?_cons_of_neg (by simpa using Ne.symm h)]; rfl
    unfold State.core; rw [e]; rfl
theorem undoless (q : Nat) : (state207.coreAt q).undoOver = false := by
  unfold State.coreAt
  cases ctxOf? q with
  | none => exact coreless q
  | some i => rfl

theorem awake_of (s : State) (h : s.homes.all (fun x => x.2.power == .awake) = true := by decide +kernel) : Awake s := by
  intro n
  unfold State.home mget
  cases hf : s.homes.find? (fun e => e.1 == n) with
  | none => rfl
  | some x => simpa using List.all_eq_true.mp h x (List.mem_of_find?_eq_some hf)
theorem notPinned (s : State) (scratch v : Word) (r : Nat) (h : s.walkInstr s.src.prog v.toNat = .fail r) : ¬ HandlerPinned s scratch v := by
  rintro ⟨⟨e, he, _⟩, _⟩
  rw [h] at he; cases he

theorem witness_AluWritesTheTableResult :
    BitVec.toNat (15 : BitVec 5) < 16 :=
  by decide +kernel
theorem witness_AluImmediateWritesTheTableResult :
    BitVec.toNat (15 : BitVec 5) < 16 ∧
    ((BitVec.extractLsb' 20 7 (68158144 : BitVec 27)).toNat = 65 ∧ 4 ≤ (BitVec.extractLsb' 7 3 (68158144 : BitVec 27)).toNat ∧
     (BitVec.extractLsb' 7 3 (68158144 : BitVec 27)).toNat ≤ 6 ∧ BitVec.getLsbD (68158144 : BitVec 27) 6 = true) :=
  by decide +kernel
theorem witness_MultiplyAndDivideResults :
    (BitVec.toNat (15 : BitVec 5) < 16 ∧ state2.cycle < state2.co.divFree) ∧
    (BitVec.toNat (15 : BitVec 5) < 16 ∧ state1.co.divFree ≤ state1.cycle ∧ src state1 6 = 0) ∧
    (BitVec.toNat (15 : BitVec 5) < 16 ∧ state3.co.divFree ≤ state3.cycle ∧ src state3 6 ≠ 0) :=
  by decide +kernel
theorem witness_ConstantAndAddressResults :
    BitVec.toNat (15 : BitVec 5) < 16 :=
  by decide +kernel
theorem witness_BitCountAndFieldResults :
    BitVec.toNat (15 : BitVec 5) < 16 :=
  by decide +kernel
theorem witness_PredicateResults :
    BitVec.toNat (7 : BitVec 5) < 8 ∧
    ((BitVec.extractLsb' 20 7 (74448931 : BitVec 27)).toNat = 71 ∧ (BitVec.extractLsb' 0 5 (74448931 : BitVec 27)).toNat = 3 ∧
     BitVec.extractLsb' 5 5 (74448931 : BitVec 27) ≠ BitVec.ofNat 5 0) :=
  by decide +kernel
theorem witness_BranchesTakeTheirTarget :
    (BundleTarget ((↑(BitVec.toNat state1.bundle) : ℤ) + BitVec.toInt (3 : BitVec 9) * (8 : ℤ)) (280 : IAddr) ∧
     state1.src.getX (BitVec.toNat (0 : BitVec 4)) = state1.src.getX (BitVec.toNat (0 : BitVec 4))) ∧
    (BadTarget ((↑(BitVec.toNat state1.bundle) : ℤ) + (-256 : BitVec 9).toInt * (8 : ℤ)) ∧
     state1.src.getX (BitVec.toNat (0 : BitVec 4)) = state1.src.getX (BitVec.toNat (0 : BitVec 4))) ∧
    (¬state4.src.getX (BitVec.toNat (0 : BitVec 4)) = state4.src.getX (BitVec.toNat (5 : BitVec 4))) :=
  ⟨⟨by (constructor <;> decide +kernel), by decide +kernel⟩,
   ⟨by (unfold BadTarget; decide +kernel), by decide +kernel⟩,
   by decide +kernel⟩
theorem witness_JumpsCallsAndLoops :
    (BundleTarget ((↑(BitVec.toNat state1.bundle) : ℤ) + (-32 : BitVec 20).toInt * (8 : ℤ)) (0 : IAddr) ∧ BitVec.toNat (15 : BitVec 5) < 16) ∧
    (BadTarget ((↑(BitVec.toNat state1.bundle) : ℤ) + (-33 : BitVec 20).toInt * (8 : ℤ)) ∧ BitVec.toNat (15 : BitVec 5) < 16) ∧
    (BundleTarget ((↑(BitVec.toNat (src state5 (5 : BitVec 5))) : ℤ) + BitVec.toInt (0 : BitVec 7) * (4 : ℤ)) (1099511627768 : IAddr) ∧
     BitVec.toNat (15 : BitVec 5) < 16) ∧
    (BadTarget ((↑(BitVec.toNat (src state6 (5 : BitVec 5))) : ℤ) + BitVec.toInt (0 : BitVec 7) * (4 : ℤ)) ∧ BitVec.toNat (15 : BitVec 5) < 16) ∧
    (BundleTarget ((↑(BitVec.toNat state6.bundle) : ℤ) + (-1 : BitVec 7).toInt * (8 : ℤ)) (248 : IAddr) ∧ BitVec.toNat (15 : BitVec 5) < 16 ∧
     src state6 5 - 1 ≠ 0) ∧
    (BadTarget ((↑(BitVec.toNat state6.bundle) : ℤ) + (-33 : BitVec 7).toInt * (8 : ℤ)) ∧ BitVec.toNat (15 : BitVec 5) < 16 ∧
     src state6 5 - 1 ≠ 0) ∧
    (BitVec.toNat (15 : BitVec 5) < 16 ∧ src state4 5 - 1 = 0) ∧
    ((0 : ℤ) ≤ (↑(BitVec.toNat (src state7 (5 : BitVec 5))) : ℤ) + BitVec.toInt (0 : BitVec 7) * (4 : ℤ) ∧
     (↑(BitVec.toNat (src state7 (5 : BitVec 5))) : ℤ) + BitVec.toInt (0 : BitVec 7) * (4 : ℤ) < (2 : ℤ) ^ 40 ∧
     ((↑(BitVec.toNat (src state7 (5 : BitVec 5))) : ℤ) + BitVec.toInt (0 : BitVec 7) * (4 : ℤ)) % (8 : ℤ) = (4 : ℤ) ∧
     (516 : IAddr) = BitVec.ofInt 40 ((↑(BitVec.toNat (src state7 (5 : BitVec 5))) : ℤ) + BitVec.toInt (0 : BitVec 7) * (4 : ℤ)) ∧
     state7.bundleAt (516 - 4) = some 9223372039002259456 ∧ state7.th.pend = [] ∧
     (BitVec.getLsbD (9223372039002259456 : BitVec 64) 31 = true ∧ BitVec.extractLsb' 20 7 (9223372039002259456 : BitVec 64) ≠ BitVec.ofNat 7 7)) ∧
    ((0 : ℤ) ≤ (↑(BitVec.toNat (src state8 (5 : BitVec 5))) : ℤ) + BitVec.toInt (0 : BitVec 7) * (4 : ℤ) ∧
     (↑(BitVec.toNat (src state8 (5 : BitVec 5))) : ℤ) + BitVec.toInt (0 : BitVec 7) * (4 : ℤ) < (2 : ℤ) ^ 40 ∧
     ((↑(BitVec.toNat (src state8 (5 : BitVec 5))) : ℤ) + BitVec.toInt (0 : BitVec 7) * (4 : ℤ)) % (8 : ℤ) = (4 : ℤ) ∧
     (516 : IAddr) = BitVec.ofInt 40 ((↑(BitVec.toNat (src state8 (5 : BitVec 5))) : ℤ) + BitVec.toInt (0 : BitVec 7) * (4 : ℤ)) ∧
     state8.bundleAt (516 - 4) = some 9223372036854775808 ∧ state8.th.pend = [] ∧
     (BitVec.getLsbD (9223372036854775808 : BitVec 64) 31 = false ∨ BitVec.extractLsb' 20 7 (9223372036854775808 : BitVec 64) = BitVec.ofNat 7 7)) :=
  ⟨⟨by (constructor <;> decide +kernel), by decide +kernel⟩,
   ⟨by (unfold BadTarget; decide +kernel), by decide +kernel⟩,
   ⟨by (constructor <;> decide +kernel), by decide +kernel⟩,
   ⟨by (unfold BadTarget; decide +kernel), by decide +kernel⟩,
   ⟨by (constructor <;> decide +kernel), by decide +kernel⟩,
   ⟨by (unfold BadTarget; decide +kernel), by decide +kernel⟩,
   by decide +kernel⟩
theorem witness_CsrReadsGiveTheRegister :
    (BitVec.toNat (15 : BitVec 5) < 16 ∧ serviceAt.seqBusy = false ∧ (∀ c ∈ serviceAt.co.mx, c.2 = serviceAt.bank → c.1 ≤ serviceAt.cycle)) ∧
    (BitVec.toNat (15 : BitVec 5) < 16 ∧ (∀ c ∈ state1.co.mx, c.1 ≤ state1.cycle)) ∧
    (BitVec.toNat (15 : BitVec 5) < 16 ∧ serviceAt.src.level ≠ Level.task) :=
  by decide +kernel
theorem witness_CsrWritesMergeTheWritableFields :
    (src state1 5 &&& 1099511627775 = 0 ∨ BitVec.toNat (src state1 5 &&& 1099511627775) % 8 = 0 ∧ HandlerPinned state1 state1.src.trap0.scratch (src state1 5 &&& 1099511627775)) ∧
    ((¬HandlerPinned state10 state10.src.trap0.scratch (src state10 5 &&& 1099511627775)) ∧ src state10 5 &&& 1099511627775 ≠ 0 ∧
     BitVec.toNat (src state10 5 &&& 1099511627775) % 8 = 0) ∧
    ((src serviceAt 5 &&& 1099511627775 = 0 ∨ BitVec.toNat (src serviceAt 5 &&& 1099511627775) % 8 = 0 ∧ HandlerPinned serviceAt serviceAt.src.trap1.scratch (src serviceAt 5 &&& 1099511627775)) ∧
     serviceAt.src.level ≠ Level.task) ∧
    ((¬HandlerPinned state12 state12.src.trap1.scratch (src state12 5 &&& 1099511627775)) ∧ state12.src.level ≠ Level.task ∧
     src state12 5 &&& 1099511627775 ≠ 0 ∧ BitVec.toNat (src state12 5 &&& 1099511627775) % 8 = 0) ∧
    (state1.seqBusy = false ∧ (∀ c ∈ state1.co.mx, c.2 = state1.bank → c.1 ≤ state1.cycle)) ∧
    BitVec.toNat (src state9 5 &&& 1099511627775) % 8 ≠ 0 ∧
    (serviceAt.src.level ≠ Level.task ∧ (∀ e ∈ serviceAt.th.streams, e.1 < 24)) ∧
    (state11.src.level ≠ Level.task ∧ BitVec.toNat (src state11 5 &&& 1099511627775) % 8 ≠ 0) ∧
    state13.src.level = Level.firmware :=
  ⟨by (left; decide +kernel),
   ⟨notPinned _ _ _ _ rfl, by decide +kernel⟩,
   ⟨by (left; decide +kernel), by decide +kernel⟩,
   ⟨notPinned _ _ _ _ rfl, by decide +kernel⟩,
   by decide +kernel⟩
theorem witness_CsrAccessAndRootWrites :
    (262 : BitVec 12) ∈ [(5 : BitVec 12), (7 : BitVec 12), (256 : BitVec 12), (258 : BitVec 12), (259 : BitVec 12), (262 : BitVec 12), (1024 : BitVec 12), (1025 : BitVec 12)] ∧
    (state1.src.level = Level.task ∧ (261 : BitVec 12) ∈ [(4 : BitVec 12), (6 : BitVec 12), (260 : BitVec 12), (261 : BitVec 12)]) ∧
    (state1.src.level = Level.task ∧
     (769 : BitVec 12) ∈ [(528 : BitVec 12), (529 : BitVec 12), (530 : BitVec 12), (531 : BitVec 12), (532 : BitVec 12), (533 : BitVec 12), (768 : BitVec 12), (769 : BitVec 12)]) ∧
    serviceAt.src.level ≠ Level.task :=
  by decide +kernel
theorem witness_TrapInstructionsTakeTheirTrap :
    state1.form ≠ Form.par1 :=
  by decide +kernel
theorem witness_NestedTrapEndsTheProgram :
    isCompute state14.cid = true ∧ (state14.th.trap0.held = true ∨ state14.th.trap0.tvec = 0) ∧
    mget state14.front.progs state14.th.prog = some progA ∧ progA.run = some runA :=
  by decide +kernel
theorem witness_TrapReturnAndHalt :
    (state15.src = state15.th ∧ state15.th.trap1.held = false ∧ state15.th.trap0.held = true ∧ state15.th.trap0.tepc = 520 ∧
     BitVec.toNat (520 : IAddr) % 8 = 0) ∧
    (state16.src = state16.th ∧ state16.th.trap1.held = true ∧ state16.th.trap1.tepc = 768 ∧ BitVec.toNat (768 : IAddr) % 8 = 0) ∧
    (state1.src = state1.th ∧ state1.th.trap1.held = false ∧ state1.th.trap0.held = false) ∧
    (serviceAt.src.level ≠ Level.task ∧ clusterOf serviceAt.cid ≠ 62) ∧
    (state17.src.level ≠ Level.task ∧ clusterOf state17.cid = 62) ∧
    state1.src.level = Level.task :=
  by decide +kernel
theorem witness_TimeAndAlarmResults :
    (BitVec.toNat (15 : BitVec 5) < 16 ∧ BitVec.toNat (src state18 0) = 0) ∧
    (BitVec.toNat (15 : BitVec 5) < 16 ∧ BitVec.toNat (src state19 5) ≠ 0 ∧
     (BitVec.toNat (src state19 6) < 2 ∨ 13 < BitVec.toNat (src state19 6))) ∧
    (BitVec.toNat (15 : BitVec 5) < 16 ∧ BitVec.toNat (src state20 5) ≠ 0 ∧ 2 ≤ BitVec.toNat (src state20 6) ∧ BitVec.toNat (src state20 6) ≤ 13) :=
  by decide +kernel
theorem witness_LoadsReadTheOwnTcm :
    (OwnTcm state21 state21.src.space.toNat (ea state21 5 0 1) 49151 1 ∧ BitVec.toNat (15 : BitVec 5) < 16) ∧
    (OwnTcm state22 state22.src.space.toNat (ea state22 5 0 8) 49144 8 ∧ BitVec.toNat (14 : BitVec 5) < 16) ∧
    (OwnTcm state23 state23.src.space.toNat (ea state23 5 0 16) 0 16 ∧ BitVec.toNat (14 : BitVec 5) < 16 ∧ BitVec.toNat (14 : BitVec 5) ≤ 14) :=
  ⟨⟨by (constructor <;> first | decide +kernel | (unfold NoQueue Unasked; decide +kernel)), by decide +kernel⟩,
   ⟨by (constructor <;> first | decide +kernel | (unfold NoQueue Unasked; decide +kernel)), by decide +kernel⟩,
   ⟨by (constructor <;> first | decide +kernel | (unfold NoQueue Unasked; decide +kernel)), by decide +kernel⟩⟩
theorem witness_StoresWriteTheOwnTcm :
    OwnTcm state23 state23.src.space.toNat (ea state23 5 0 1) 0 (lowBytes (src state23 4) 1).length ∧
    (OwnTcm state24 state24.src.space.toNat (ea state24 (5 : BitVec 5) (0 : BitVec 7) 16) 49136 (lowBytes (src state24 (14 : BitVec 5)) 8 ++ lowBytes (state24.src.getX (BitVec.toNat (14 : BitVec 5) + 1)) 8).length ∧
     BitVec.toNat (14 : BitVec 5) ≤ 14) ∧
    (OwnTcm state22 state22.src.space.toNat (BitVec.toNat (src state22 5)) 49144 (lowBytes (src state22 14) 8).length ∧ state22.th.unacked = [] ∧
     state22.th.cacheOps = []) :=
  ⟨by (constructor <;> first | decide +kernel | (unfold NoQueue Unasked; decide +kernel)),
   ⟨by (constructor <;> first | decide +kernel | (unfold NoQueue Unasked; decide +kernel)), by decide +kernel⟩,
   ⟨by (constructor <;> first | decide +kernel | (unfold NoQueue Unasked; decide +kernel)), by decide +kernel⟩⟩
theorem witness_AccessAddressesAreChecked :
    (Unasked state4 ∧ ea state4 5 0 2 % 2 ≠ 0) ∧
    (Unasked state6 ∧
     ((fun w => Instr.amoadd 6 5 w 1 0) ∈ [fun w => Instr.amoadd 6 5 w 1 0, fun w => Instr.amoand 6 5 w 1 0, fun w => Instr.amoor 6 5 w 1 0, fun w => Instr.amoxor 6 5 w 1 0, fun w => Instr.amomin 6 5 w 1 0, fun w => Instr.amomax 6 5 w 1 0, fun w => Instr.amominu 6 5 w 1 0, fun w => Instr.amomaxu 6 5 w 1 0, fun w => Instr.amoswp 6 5 w 1 0, fun w => Instr.amofadd 6 5 w 1 0, fun w => Instr.amofmin 6 5 w 1 0, fun w => Instr.amofmax 6 5 w 1 0]) ∧
     BitVec.toNat (src state6 5) % 4 ≠ 0) ∧
    (Unasked state25 ∧
     ((fun w => Instr.amofmax 6 5 w 1 0) ∈ [fun w => Instr.amoadd 6 5 w 1 0, fun w => Instr.amoand 6 5 w 1 0, fun w => Instr.amoor 6 5 w 1 0, fun w => Instr.amoxor 6 5 w 1 0, fun w => Instr.amomin 6 5 w 1 0, fun w => Instr.amomax 6 5 w 1 0, fun w => Instr.amominu 6 5 w 1 0, fun w => Instr.amomaxu 6 5 w 1 0, fun w => Instr.amoswp 6 5 w 1 0, fun w => Instr.amofadd 6 5 w 1 0, fun w => Instr.amofmin 6 5 w 1 0, fun w => Instr.amofmax 6 5 w 1 0]) ∧
     BitVec.toNat (src state25 5) % 8 ≠ 0) ∧
    (PlainVector state26 4 6 ∧ Unasked state26 ∧ ea state26 5 0 16 % 16 ≠ 0) ∧
    (PlainVector state27 4 6 ∧ Unasked state27 ∧
     ((src state27 5).toNat % (match state27.src.vconf.toNat % 8 with | 0 => 1 | 1 => 2 | 2 => 4 | 3 => 8 | 6 => 4 | _ => 2) ≠ 0)) ∧
    (((ea state28 5 0 8, 8, Instr.ld64 4 5 0) ∈ [(ea state28 5 0 8, 8, Instr.ld64 4 5 0), (ea state28 5 0 8, 8, Instr.st64 4 5 0), (BitVec.toNat (src state28 5), 8, Instr.amoadd 6 5 1 1 0), (BitVec.toNat (src state28 5), 8, Instr.cas64 6 5 1 0), (BitVec.toNat (src state28 5), 4, Instr.amofadd 6 5 0 1 0)] ∨ (ea state28 5 0 8, 8, Instr.ld64 4 5 0) ∈ [(ea state28 5 0 16, 16, Instr.vld 4 5 0), (ea state28 5 0 16, 16, Instr.vst 4 5 0)] ∧ PlainVector state28 4 4) ∧
     Unasked state28 ∧ (ea state28 5 0 8, 8, Instr.ld64 4 5 0).1 % (ea state28 5 0 8, 8, Instr.ld64 4 5 0).2.1 = 0 ∧
     (ea state28 5 0 8, 8, Instr.ld64 4 5 0).1 = 65280 * 2 ^ 48 + 49144 ∧ 49144 + (ea state28 5 0 8, 8, Instr.ld64 4 5 0).2.1 ≤ 49152 ∧
     state28.src.space.toNat < 65280 ∧ state28.spaceOk state28.src.space.toNat state28.src.tenant = false) ∧
    (((ea state29 5 0 16, 16, Instr.vld 4 5 0) ∈ [(ea state29 5 0 8, 8, Instr.ld64 4 5 0), (ea state29 5 0 8, 8, Instr.st64 4 5 0), (BitVec.toNat (src state29 5), 8, Instr.amoadd 6 5 1 1 0), (BitVec.toNat (src state29 5), 8, Instr.cas64 6 5 1 0), (BitVec.toNat (src state29 5), 4, Instr.amofadd 6 5 0 1 0)] ∨ (ea state29 5 0 16, 16, Instr.vld 4 5 0) ∈ [(ea state29 5 0 16, 16, Instr.vld 4 5 0), (ea state29 5 0 16, 16, Instr.vst 4 5 0)] ∧ PlainVector state29 4 4) ∧
     Unasked state29 ∧ (ea state29 5 0 16, 16, Instr.vld 4 5 0).1 % (ea state29 5 0 16, 16, Instr.vld 4 5 0).2.1 = 0 ∧
     (ea state29 5 0 16, 16, Instr.vld 4 5 0).1 / 2 ^ 56 = 255 ∧ window (ea state29 5 0 16, 16, Instr.vld 4 5 0).1 = none) ∧
    (((BitVec.toNat (src state30 5), 8, Instr.cas64 6 5 1 0) ∈ [(ea state30 5 0 8, 8, Instr.ld64 4 5 0), (ea state30 5 0 8, 8, Instr.st64 4 5 0), (BitVec.toNat (src state30 5), 8, Instr.amoadd 6 5 1 1 0), (BitVec.toNat (src state30 5), 8, Instr.cas64 6 5 1 0), (BitVec.toNat (src state30 5), 4, Instr.amofadd 6 5 0 1 0)] ∨ (BitVec.toNat (src state30 5), 8, Instr.cas64 6 5 1 0) ∈ [(ea state30 5 0 16, 16, Instr.vld 4 5 0), (ea state30 5 0 16, 16, Instr.vst 4 5 0)] ∧ PlainVector state30 4 4) ∧
     Unasked state30 ∧
     (BitVec.toNat (src state30 5), 8, Instr.cas64 6 5 1 0).1 % (BitVec.toNat (src state30 5), 8, Instr.cas64 6 5 1 0).2.1 = 0 ∧
     (BitVec.toNat (src state30 5), 8, Instr.cas64 6 5 1 0).1 / 2 ^ 56 ≠ 255 ∧ state30.spaceOk state30.src.space.toNat state30.src.tenant = false) ∧
    (((BitVec.toNat (src state31 5), 4, Instr.amofadd 6 5 0 1 0) ∈ [(ea state31 5 0 8, 8, Instr.ld64 4 5 0), (ea state31 5 0 8, 8, Instr.st64 4 5 0), (BitVec.toNat (src state31 5), 8, Instr.amoadd 6 5 1 1 0), (BitVec.toNat (src state31 5), 8, Instr.cas64 6 5 1 0), (BitVec.toNat (src state31 5), 4, Instr.amofadd 6 5 0 1 0)] ∨ (BitVec.toNat (src state31 5), 4, Instr.amofadd 6 5 0 1 0) ∈ [(ea state31 5 0 16, 16, Instr.vld 4 5 0), (ea state31 5 0 16, 16, Instr.vst 4 5 0)] ∧ PlainVector state31 4 4) ∧
     Unasked state31 ∧
     (BitVec.toNat (src state31 5), 4, Instr.amofadd 6 5 0 1 0).1 % (BitVec.toNat (src state31 5), 4, Instr.amofadd 6 5 0 1 0).2.1 = 0 ∧
     (BitVec.toNat (src state31 5), 4, Instr.amofadd 6 5 0 1 0).1 / 2 ^ 56 ≠ 255 ∧
     state31.spaceOk state31.src.space.toNat state31.src.tenant = true ∧ (inReflexArray state31.cid = true ∨ state31.co.staked ≠ none)) ∧
    (((ea state32 5 0 8, 8, Instr.st64 4 5 0) ∈ [(ea state32 5 0 8, 8, Instr.ld64 4 5 0), (ea state32 5 0 8, 8, Instr.st64 4 5 0), (BitVec.toNat (src state32 5), 8, Instr.amoadd 6 5 1 1 0), (BitVec.toNat (src state32 5), 8, Instr.cas64 6 5 1 0), (BitVec.toNat (src state32 5), 4, Instr.amofadd 6 5 0 1 0)] ∨ (ea state32 5 0 8, 8, Instr.st64 4 5 0) ∈ [(ea state32 5 0 16, 16, Instr.vld 4 5 0), (ea state32 5 0 16, 16, Instr.vst 4 5 0)] ∧ PlainVector state32 4 4) ∧
     Unasked state32 ∧ (ea state32 5 0 8, 8, Instr.st64 4 5 0).1 % (ea state32 5 0 8, 8, Instr.st64 4 5 0).2.1 = 0 ∧
     (ea state32 5 0 8, 8, Instr.st64 4 5 0).1 / 2 ^ 56 ≠ 255 ∧ state32.spaceOk state32.src.space.toNat state32.src.tenant = true ∧
     (inReflexArray state32.cid = true ∨ state32.co.staked ≠ none)) :=
  ⟨⟨by (constructor <;> decide +kernel), by decide +kernel⟩,
   ⟨by (constructor <;> decide +kernel), by decide +kernel⟩,
   ⟨by (constructor <;> decide +kernel), by decide +kernel⟩,
   ⟨by (unfold PlainVector; decide +kernel), by (constructor <;> decide +kernel), by decide +kernel⟩,
   ⟨by (unfold PlainVector; decide +kernel), by (constructor <;> decide +kernel), by decide +kernel⟩,
   ⟨by (left; decide +kernel), by (constructor <;> decide +kernel), by decide +kernel⟩,
   ⟨by (right; unfold PlainVector; decide +kernel), by (constructor <;> decide +kernel), by decide +kernel⟩,
   ⟨by (left; decide +kernel), by (constructor <;> decide +kernel), by decide +kernel⟩,
   ⟨by (left; decide +kernel), by (constructor <;> decide +kernel), by decide +kernel⟩,
   ⟨by (left; decide +kernel), by (constructor <;> decide +kernel), by decide +kernel⟩⟩
theorem witness_AtomicsReadModifyWrite :
    (OwnTcm state33 state33.src.space.toNat (BitVec.toNat (src state33 5)) 49148 4 ∧ BitVec.toNat (15 : BitVec 5) < 16 ∧
     state33.th.unacked = [] ∧ state33.th.cacheOps = []) ∧
    (OwnTcm state23 state23.src.space.toNat (BitVec.toNat (src state23 5)) 0 8 ∧ BitVec.toNat (15 : BitVec 5) < 16 ∧ state23.th.unacked = [] ∧
     state23.th.cacheOps = [] ∧ (15 : BitVec 5) ≠ (0 : BitVec 5)) ∧
    (NoQueue state1 ∧ BitVec.toNat (15 : BitVec 5) < 16 ∧ state1.th.unacked = [] ∧ state1.th.cacheOps = []) :=
  ⟨⟨by (constructor <;> first | decide +kernel | (unfold NoQueue Unasked; decide +kernel)), by decide +kernel⟩,
   ⟨by (constructor <;> first | decide +kernel | (unfold NoQueue Unasked; decide +kernel)), by decide +kernel⟩,
   ⟨by (unfold NoQueue; decide +kernel), by decide +kernel⟩⟩
theorem witness_CompareAndSwapAndFloatAtomics :
    (OwnTcm state22 state22.src.space.toNat (BitVec.toNat (src state22 5)) 49144 8 ∧ BitVec.toNat (14 : BitVec 5) ≤ 14 ∧
     state22.th.unacked = [] ∧ state22.th.cacheOps = []) ∧
    (OwnTcm state34 state34.src.space.toNat (BitVec.toNat (src state34 5)) 4 4 ∧ BitVec.toNat (15 : BitVec 5) < 16 ∧ state34.th.unacked = [] ∧
     state34.th.cacheOps = []) :=
  ⟨⟨by (constructor <;> first | decide +kernel | (unfold NoQueue Unasked; decide +kernel)), by decide +kernel⟩,
   ⟨by (constructor <;> first | decide +kernel | (unfold NoQueue Unasked; decide +kernel)), by decide +kernel⟩⟩
theorem witness_TranslatedLoadsWaitForTheirValue :
    (NoQueue state35 ∧ Room state35 ∧ BitVec.toNat (15 : BitVec 5) < 16 ∧ ea state35 5 0 8 % 8 = 0 ∧ ea state35 5 0 8 / 2 ^ 56 ≠ 255 ∧
     state35.spaceOk state35.src.space.toNat state35.src.tenant = true ∧ inReflexArray state35.cid = false ∧ state35.co.staked = none ∧
     state35.l0Line state35.src.space.toNat (ea state35 5 0 8) = none ∧ state35.th.unacked = [] ∧ state35.form ≠ Form.par1 ∧ state35.th.pend = []) ∧
    (NoQueue state36 ∧ Room state36 ∧ BitVec.toNat (15 : BitVec 5) < 16 ∧ ea state36 5 0 8 % 8 = 0 ∧ ea state36 5 0 8 / 2 ^ 56 ≠ 255 ∧
     state36.spaceOk state36.src.space.toNat state36.src.tenant = true ∧ inReflexArray state36.cid = false ∧ state36.co.staked = none ∧
     state36.l0Line state36.src.space.toNat (ea state36 5 0 8) = none ∧ state36.th.unacked = [] ∧ state36.form ≠ Form.par1 ∧
     state36.th.pend = [{ word := 0, id := 4, reply := some (Reply.value 9) }]) :=
  ⟨⟨by (unfold NoQueue; decide +kernel), by (unfold Room; decide +kernel), by decide +kernel⟩,
   ⟨by (unfold NoQueue; decide +kernel), by (unfold Room; decide +kernel), by decide +kernel⟩⟩
theorem witness_CacheOperationResults :
    (Room state37 ∧ Quiet state37 ∧ BitVec.toNat (src state37 5) / 2 ^ 56 ≠ 255 ∧ inReflexArray state37.cid = false ∧ state37.co.staked = none ∧
     state37.spaceOk state37.src.space.toNat state37.src.tenant = true ∧ state37.src.space.toNat < 65280) ∧
    (Room state38 ∧ Quiet state38 ∧ BitVec.toNat (src state38 5) < 2 ^ 40 ∧ inReflexArray state38.cid = false ∧ state38.co.staked = none) ∧
    BitVec.toNat (src state23 5) / 2 ^ 56 = 255 ∧
    (inReflexArray state39.cid = true ∨ state39.co.staked ≠ none) ∧
    ((inReflexArray state39.cid = true ∨ state39.co.staked ≠ none) ∧ BitVec.toNat (src state39 5) / 2 ^ 56 ≠ 255 ∧
     Instr.prefSc 5 ∈ [Instr.cwb 5, Instr.cinv 5, Instr.cinvD 5, Instr.pref 5, Instr.prefSc 5]) ∧
    state1.th.cacheOps = [] ∧
    state40.th.cacheOps ≠ [] ∧
    (BitVec.toNat (src state41 5) / 2 ^ 56 ≠ 255 ∧ inReflexArray state41.cid = false ∧ state41.co.staked = none ∧
     state41.spaceOk state41.src.space.toNat state41.src.tenant = true ∧ state41.src.space.toNat < 65280 ∧ state41.form = Form.ser0 ∧
     state41.th.pend = [{ word := 0, id := 4, reply := some (Reply.value 0) }] ∧ state41.th.unacked = []) :=
  ⟨⟨by (unfold Room; decide +kernel), by (unfold Quiet NoQueue; decide +kernel), by decide +kernel⟩,
   ⟨by (unfold Room; decide +kernel), by (unfold Quiet NoQueue; decide +kernel), by decide +kernel⟩,
   by decide +kernel⟩
theorem witness_IntegerLanes :
    VecReady state42 ∧ BitVec.toNat (27 : BitVec 5) < 28 ∧ BitVec.toNat (5 : BitVec 5) < 28 ∧ BitVec.toNat (6 : BitVec 5) < 28 ∧
    BitVec.toNat state42.src.vconf % 8 ≠ 7 :=
  ⟨by (constructor <;> decide +kernel), by decide +kernel⟩
theorem witness_FloatLanes :
    (VecReady state43 ∧ floatType state43 fp32 ∧ BitVec.toNat (27 : BitVec 5) < 28 ∧ BitVec.toNat (5 : BitVec 5) < 28 ∧
     BitVec.toNat (6 : BitVec 5) < 28) ∧
    (VecReady state44 ∧ floatType state44 fp16 ∧ BitVec.toNat (27 : BitVec 5) < 28 ∧ BitVec.toNat (5 : BitVec 5) < 28 ∧
     BitVec.toNat (6 : BitVec 5) < 28) ∧
    (VecReady state45 ∧ floatType state45 bf16 ∧ BitVec.toNat (27 : BitVec 5) < 28 ∧ BitVec.toNat (5 : BitVec 5) < 28 ∧
     BitVec.toNat (6 : BitVec 5) < 28) :=
  ⟨⟨by (constructor <;> decide +kernel), by (unfold floatType; decide +kernel), by decide +kernel⟩,
   ⟨by (constructor <;> decide +kernel), by (unfold floatType; decide +kernel), by decide +kernel⟩,
   ⟨by (constructor <;> decide +kernel), by (unfold floatType; decide +kernel), by decide +kernel⟩⟩
theorem witness_ConversionsAndReductions :
    (VecReady state46 ∧ BitVec.toNat (27 : BitVec 5) < 28 ∧ BitVec.toNat (5 : BitVec 5) < 28 ∧ BitVec.toNat state46.src.vconf % 8 ≠ 7 ∧
     BitVec.toNat (6 : BitVec 5) % 16 ≠ 15) ∧
    (VecReady state46 ∧ floatType state46 fp32 ∧ BitVec.toNat (27 : BitVec 5) < 28 ∧ BitVec.toNat (5 : BitVec 5) < 28 ∧
     BitVec.toNat state46.src.vconf % 8 ≠ 7 ∧ BitVec.toNat (6 : BitVec 5) < 28 ∧ vQfmt state46.src.vconf ≠ 15 ∧
     (codeElem (vQfmt state46.src.vconf)).width ≤ width state46) ∧
    (VecReady state47 ∧ BitVec.toNat (27 : BitVec 5) < 28 ∧ BitVec.toNat (5 : BitVec 5) < 28 ∧ BitVec.toNat state47.src.vconf % 8 ≠ 7 ∧
     BitVec.toNat (6 : BitVec 5) < 28) ∧
    (VecReady state48 ∧ BitVec.toNat (27 : BitVec 5) < 28 ∧ BitVec.toNat (5 : BitVec 5) < 28 ∧ BitVec.toNat state48.src.vconf % 8 ≠ 7 ∧
     BitVec.toNat (6 : BitVec 5) < 28) :=
  ⟨⟨by (constructor <;> decide +kernel), by decide +kernel⟩,
   ⟨by (constructor <;> decide +kernel), by (unfold floatType; decide +kernel), by decide +kernel⟩,
   ⟨by (constructor <;> decide +kernel), by decide +kernel⟩,
   ⟨by (constructor <;> decide +kernel), by decide +kernel⟩⟩
theorem witness_PermutesComparisonsAndMoves :
    (VecReady state49 ∧ BitVec.toNat (15 : BitVec 5) < 28 ∧ BitVec.toNat (5 : BitVec 5) < 28 ∧ BitVec.toNat (6 : BitVec 5) < 28 ∧
     BitVec.toNat state49.src.vconf % 8 ≠ 7 ∧ BitVec.toNat (15 : BitVec 5) < 128 / width state49) ∧
    (VecReady state50 ∧ floatType state50 fp16 ∧ BitVec.toNat (15 : BitVec 5) < 28 ∧ BitVec.toNat (5 : BitVec 5) < 28 ∧
     BitVec.toNat (6 : BitVec 5) < 28 ∧ BitVec.toNat state50.src.vconf % 8 ≠ 7 ∧ BitVec.toNat (7 : BitVec 5) < 128 / width state50) ∧
    (VecReady state51 ∧ floatType state51 bf16 ∧ BitVec.toNat (15 : BitVec 5) < 28 ∧ BitVec.toNat (5 : BitVec 5) < 28 ∧
     BitVec.toNat (6 : BitVec 5) < 28 ∧ BitVec.toNat state51.src.vconf % 8 ≠ 7 ∧ BitVec.toNat (7 : BitVec 5) < 128 / width state51) ∧
    (VecReady state52 ∧ floatType state52 fp32 ∧ BitVec.toNat (15 : BitVec 5) < 28 ∧ BitVec.toNat (5 : BitVec 5) < 28 ∧
     BitVec.toNat (6 : BitVec 5) < 28 ∧ BitVec.toNat state52.src.vconf % 8 ≠ 7 ∧ BitVec.toNat (3 : BitVec 5) < 128 / width state52) ∧
    (VecReady state53 ∧ BitVec.toNat (15 : BitVec 5) < 28 ∧ BitVec.toNat (5 : BitVec 5) < 28 ∧ BitVec.toNat (6 : BitVec 5) < 28 ∧
     BitVec.toNat state53.src.vconf % 8 ≠ 7 ∧ BitVec.toNat (1 : BitVec 5) < 128 / width state53 ∧ BitVec.toNat state53.src.vconf % 8 < 4) ∧
    (VecReady state52 ∧ BitVec.toNat (15 : BitVec 5) < 28 ∧ BitVec.toNat (5 : BitVec 5) < 28 ∧ BitVec.toNat (6 : BitVec 5) < 28 ∧
     BitVec.toNat state52.src.vconf % 8 ≠ 7 ∧ BitVec.toNat (3 : BitVec 5) < 128 / width state52 ∧ BitVec.toNat (15 : BitVec 5) < 16) :=
  ⟨⟨by (constructor <;> decide +kernel), by decide +kernel⟩,
   ⟨by (constructor <;> decide +kernel), by (unfold floatType; decide +kernel), by decide +kernel⟩,
   ⟨by (constructor <;> decide +kernel), by (unfold floatType; decide +kernel), by decide +kernel⟩,
   ⟨by (constructor <;> decide +kernel), by (unfold floatType; decide +kernel), by decide +kernel⟩,
   ⟨by (constructor <;> decide +kernel), by decide +kernel⟩,
   ⟨by (constructor <;> decide +kernel), by decide +kernel⟩⟩
theorem witness_VectorLoadsReadTheOwnTcm :
    (VecReady state54 ∧ BitVec.toNat (27 : BitVec 5) < 28 ∧ state54.th.pend = [] ∧ state54.src.space.toNat < 65280 ∧
     state54.spaceOk state54.src.space.toNat state54.src.tenant = true ∧ state54.co.tcm.bad = [] ∧ ea state54 5 0 16 = 65280 * 2 ^ 48 + 49136 ∧
     49136 % 16 = 0 ∧ 49136 + 16 ≤ 49152) ∧
    (VecReady state55 ∧ BitVec.toNat (27 : BitVec 5) < 28 ∧ state55.th.pend = [] ∧ state55.src.space.toNat < 65280 ∧
     state55.spaceOk state55.src.space.toNat state55.src.tenant = true ∧ state55.co.tcm.bad = [] ∧ BitVec.toNat state55.src.vconf % 8 ≠ 7 ∧
     ea state55 5 0 (width state55 / 8) = 65280 * 2 ^ 48 + 49148 ∧ 49148 % (width state55 / 8) = 0 ∧ 49148 + width state55 / 8 ≤ 49152) ∧
    (VecReady state56 ∧ BitVec.toNat (27 : BitVec 5) < 28 ∧ state56.th.pend = [] ∧ state56.src.space.toNat < 65280 ∧
     state56.spaceOk state56.src.space.toNat state56.src.tenant = true ∧ state56.co.tcm.bad = [] ∧ BitVec.toNat state56.src.vconf % 8 ≠ 7 ∧
     BitVec.toNat (src state56 5) = 65280 * 2 ^ 48 + 0 ∧ BitVec.toNat (src state56 6) = 16380 ∧ 0 % (width state56 / 8) = 0 ∧
     16380 % (width state56 / 8) = 0 ∧ 0 + (16 / (width state56 / 8) - 1) * 16380 + width state56 / 8 ≤ 49152) :=
  ⟨⟨by (constructor <;> decide +kernel), by decide +kernel⟩,
   ⟨by (constructor <;> decide +kernel), by decide +kernel⟩,
   ⟨by (constructor <;> decide +kernel), by decide +kernel⟩⟩
theorem witness_VectorStoresWriteTheOwnTcm :
    VecReady state57 ∧ BitVec.toNat (27 : BitVec 5) < 28 ∧ BitVec.toNat (6 : BitVec 5) < 28 ∧ state57.th.pend = [] ∧
    state57.src.space.toNat < 65280 ∧ state57.spaceOk state57.src.space.toNat state57.src.tenant = true ∧ state57.co.undo = none ∧
    49136 % 16 = 0 ∧ 49136 + 16 ≤ 49152 :=
  ⟨by (constructor <;> decide +kernel), by decide +kernel⟩
theorem witness_RecurrencesFoldTheLanes :
    (VecReady state58 ∧ floatType state58 fp32 ∧ RecordReady state58 0 ∧ BitVec.toNat (27 : BitVec 5) < 28 ∧ BitVec.toNat (5 : BitVec 5) < 28 ∧
     BitVec.toNat (src state58 6) % 2 ^ 16 = 0 ∧ state58.co.undo = none ∧
     (if BitVec.toNat (src state58 6) / 2 ^ 16 % 16 = 0 then 128 / width state58 else BitVec.toNat (src state58 6) / 2 ^ 16 % 16) ≤ 128 / width state58) ∧
    (VecReady state59 ∧ floatType state59 fp32 ∧ RecordReady state59 0 ∧ BitVec.toNat (27 : BitVec 5) < 28 ∧ BitVec.toNat (5 : BitVec 5) < 28 ∧
     BitVec.toNat (src state59 6) % 2 ^ 16 = 0 ∧ state59.co.undo = none ∧
     (if BitVec.toNat (src state59 6) / 2 ^ 16 % 16 = 0 then 128 / width state59 else BitVec.toNat (src state59 6) / 2 ^ 16 % 16) ≤ 128 / width state59) ∧
    (VecReady state60 ∧ floatType state60 fp32 ∧ RecordReady state60 0 ∧ BitVec.toNat (27 : BitVec 5) < 28 ∧ BitVec.toNat (5 : BitVec 5) < 28 ∧
     BitVec.toNat (src state60 6) % 2 ^ 16 = 0 ∧ state60.co.undo = none ∧
     128 / width state60 < if BitVec.toNat (src state60 6) / 2 ^ 16 % 16 = 0 then 128 / width state60 else BitVec.toNat (src state60 6) / 2 ^ 16 % 16) :=
  ⟨⟨by (constructor <;> decide +kernel), by (unfold floatType; decide +kernel), by (constructor <;> decide +kernel), by decide +kernel⟩,
   ⟨by (constructor <;> decide +kernel), by (unfold floatType; decide +kernel), by (constructor <;> decide +kernel), by decide +kernel⟩,
   ⟨by (constructor <;> decide +kernel), by (unfold floatType; decide +kernel), by (constructor <;> decide +kernel), by decide +kernel⟩⟩
theorem witness_VectorLoopsAndChecks :
    (BitVec.toNat state61.src.vconf % 8 ≠ 7 ∧ 0 < BitVec.toNat (15 : BitVec 5) ∧ BitVec.toNat (15 : BitVec 5) < 16 ∧ state61.co.vloop = none ∧
     BitVec.toNat (src state61 5) ≤ 65535) ∧
    (BitVec.toNat state62.src.vconf % 8 ≠ 7 ∧ 0 < BitVec.toNat (1 : BitVec 5) ∧ BitVec.toNat (1 : BitVec 5) < 16 ∧ state62.co.vloop = none ∧
     65535 < BitVec.toNat (src state62 5)) ∧
    (BitVec.toNat (2 : BitVec 5) < 28 ∧ BitVec.toNat (5 : BitVec 5) < 28 ∧ BitVec.toNat (6 : BitVec 5) < 28 ∧
     BitVec.toNat state63.src.vconf % 8 ≠ 7 ∧ state63.co.vloop = some arg1 ∧ arg1.bank = state63.bank ∧ arg1.toIssue ≠ 0) ∧
    (BitVec.toNat (2 : BitVec 5) < 28 ∧ BitVec.toNat (5 : BitVec 5) < 28 ∧ BitVec.toNat (6 : BitVec 5) < 28 ∧
     BitVec.toNat state64.src.vconf % 8 ≠ 7 ∧ state64.co.vloop = some arg2 ∧ arg2.bank = state64.bank ∧ arg2.toIssue = 0 ∧
     0 < BitVec.toNat (2 : BitVec 5) ∧ BitVec.toNat (2 : BitVec 5) < 16 ∧ BitVec.toNat (src state64 5) ≤ 65535) ∧
    (BitVec.toNat (2 : BitVec 5) < 28 ∧ BitVec.toNat (5 : BitVec 5) < 28 ∧ BitVec.toNat (6 : BitVec 5) < 28 ∧
     BitVec.toNat state65.src.vconf % 8 ≠ 7 ∧ state65.co.vloop = some arg3 ∧ arg3.bank = state65.bank ∧ arg3.toIssue = 1 ∧ arg3.left = 0 ∧
     arg3.body = [] ∧ arg3.rest = [] ∧ state65.form ≠ Form.par0 ∧ state65.src = state65.th ∧ state65.th.streams = [] ∧ state65.co.seq = []) ∧
    BitVec.toNat state66.src.vconf % 8 = 7 ∧
    BitVec.toNat state67.src.vconf % 8 < 4 ∧
    (isCompute state68.cid = false ∧ 28 ≤ BitVec.toNat (31 : BitVec 5)) :=
  by decide +kernel
theorem witness_MatrixConfigurationIsChecked :
    (ConfigLegal (src4 state69 5) ∧ EngineIdle state69 ∧ state69.th.st = TState.ready ∧ state69.co.landA = none ∧ state69.co.landB = none) ∧
    (ConfigLegal (src4 state70 5) ∧ EngineIdle state70 ∧ state70.th.st = TState.ready ∧ state70.co.landA = none ∧ state70.co.landB = none) ∧
    (ConfigLegal (src4 state71 5) ∧ EngineIdle state71 ∧ state71.th.st = TState.ready ∧ state71.co.landA ≠ none ∧ state71.co.landB = none) ∧
    ((¬ConfigLegal (src4 state72 5)) ∧ state72.th.st = TState.ready) :=
  ⟨⟨by (constructor <;> decide +kernel), by (unfold EngineIdle; decide +kernel), by decide +kernel⟩,
   ⟨by (constructor <;> decide +kernel), by (unfold EngineIdle; decide +kernel), by decide +kernel⟩,
   ⟨by (constructor <;> decide +kernel), by (unfold EngineIdle; decide +kernel), by decide +kernel⟩,
   ⟨by (intro h; cases h; contradiction), by decide +kernel⟩⟩
theorem witness_MatrixOperandsLoad :
    (EngineIdle state73 ∧ NoQueue state73 ∧ BitVec.toNat (src4 state73 5) = 65280 * 2 ^ 48 + 48848 ∧ 48848 % 8 = 0 ∧
     BitVec.toNat state73.co.mconf % 32 ≠ 27 ∧
     48848 + (BitVec.toNat state73.co.mconf / 2 ^ 16 % 8 + 1 - 1) * (BitVec.toNat state73.co.mconf / 2 ^ 32 % 2 ^ 16) + rowBytes (BitVec.toNat state73.co.mconf / 32 % 32) + rowScales (BitVec.toNat state73.co.mconf % 32) (BitVec.toNat state73.co.mconf / 32 % 32) ≤ 49152) ∧
    (EngineIdle state74 ∧ NoQueue state74 ∧ BitVec.toNat state74.co.mconf % 32 = 27) ∧
    (EngineIdle state75 ∧ NoQueue state75 ∧ BitVec.toNat (src4 state75 5) = 65280 * 2 ^ 48 + 48640 ∧ 48640 % 16 = 0 ∧ 48640 + 512 ≤ 49152 ∧
     state75.src.space.toNat < 65280 ∧ state75.spaceOk state75.src.space.toNat state75.src.tenant = true ∧ state75.th.unacked = [] ∧
     slotSize (BitVec.toNat state75.co.mconf % 32) (BitVec.toNat state75.co.mconf / 32 % 32) ≤ 512) ∧
    (EngineIdle state76 ∧ NoQueue state76 ∧ BitVec.toNat (src4 state76 5) % 16 ≠ 0) ∧
    (EngineIdle state87 ∧ NoQueue state87 ∧ state87.event = Event.slotFillComplete 0 (BitVec.toNat (2 : BitVec 6)) 9 ∧
     mget state87.accs 9 = some arg7 ∧ arg7.forWhom = For.fill (BitVec.toNat (2 : BitVec 6)) 9 0 64 ∧
     mget (state87.core 0).slots (BitVec.toNat (2 : BitVec 6)) = some arg8 ∧ arg8.state = SlotState.loading 9) ∧
    (EngineIdle state88 ∧ NoQueue state88 ∧ state88.event = Event.slotFillComplete 0 (BitVec.toNat (2 : BitVec 6)) 9 ∧
     mget state88.accs 9 = some arg9 ∧ arg9.forWhom = For.fill (BitVec.toNat (2 : BitVec 6)) 9 0 64 ∧
     mget (state88.core 0).slots (BitVec.toNat (2 : BitVec 6)) = some arg8 ∧ arg8.state = SlotState.loading 9) :=
  ⟨⟨by (unfold EngineIdle; decide +kernel), by (unfold NoQueue; decide +kernel), by decide +kernel⟩,
   ⟨by (unfold EngineIdle; decide +kernel), by (unfold NoQueue; decide +kernel), by decide +kernel⟩,
   ⟨by (unfold EngineIdle; decide +kernel), by (unfold NoQueue; decide +kernel), by decide +kernel⟩,
   ⟨by (unfold EngineIdle; decide +kernel), by (unfold NoQueue; decide +kernel), by decide +kernel⟩,
   ⟨by (unfold EngineIdle; decide +kernel), by (unfold NoQueue; decide +kernel), by decide +kernel⟩,
   ⟨by (unfold EngineIdle; decide +kernel), by (unfold NoQueue; decide +kernel), by decide +kernel⟩⟩
theorem witness_MatrixStepsAccumulate :
    (EngineIdle state77 ∧ NoQueue state77 ∧ mget state77.co.slots (BitVec.toNat (2 : BitVec 6)) = some arg4 ∧
     BitVec.getLsbD state77.co.mconf 22 = false ∧ state77.co.undo = none ∧ BitVec.toNat state77.co.mconf % 32 ≠ 27 ∧
     (¬(22 ≤ BitVec.toNat state77.co.mconf / 32 % 32 ∧ BitVec.toNat state77.co.mconf / 32 % 32 ≤ 24)) ∧ arg4.state = SlotState.full) ∧
    (EngineIdle state78 ∧ NoQueue state78 ∧ mget state78.co.slots (BitVec.toNat (2 : BitVec 6)) = some arg5 ∧
     BitVec.getLsbD state78.co.mconf 22 = false ∧ state78.co.undo = none ∧ BitVec.toNat state78.co.mconf % 32 ≠ 27 ∧
     (¬(22 ≤ BitVec.toNat state78.co.mconf / 32 % 32 ∧ BitVec.toNat state78.co.mconf / 32 % 32 ≤ 24)) ∧ arg5.state = SlotState.empty) ∧
    (EngineIdle state79 ∧ NoQueue state79 ∧ mget state79.co.slots (BitVec.toNat (2 : BitVec 6)) = some arg6 ∧
     BitVec.getLsbD state79.co.mconf 22 = false ∧ state79.co.undo = none ∧ BitVec.toNat state79.co.mconf % 32 ≠ 27 ∧
     (¬(22 ≤ BitVec.toNat state79.co.mconf / 32 % 32 ∧ BitVec.toNat state79.co.mconf / 32 % 32 ≤ 24)) ∧ arg6.state = SlotState.loading 7) ∧
    (EngineIdle state80 ∧ NoQueue state80 ∧ mget state80.co.slots (BitVec.toNat (2 : BitVec 6)) = some arg4 ∧
     BitVec.getLsbD state80.co.mconf 22 = false ∧ state80.co.undo = none ∧ BitVec.toNat state80.co.mconf % 32 ≠ 27 ∧
     (22 ≤ BitVec.toNat state80.co.mconf / 32 % 32 ∧ BitVec.toNat state80.co.mconf / 32 % 32 ≤ 24) ∧ arg4.state = SlotState.full) :=
  ⟨⟨by (unfold EngineIdle; decide +kernel), by (unfold NoQueue; decide +kernel), by decide +kernel⟩,
   ⟨by (unfold EngineIdle; decide +kernel), by (unfold NoQueue; decide +kernel), by decide +kernel⟩,
   ⟨by (unfold EngineIdle; decide +kernel), by (unfold NoQueue; decide +kernel), by decide +kernel⟩,
   ⟨by (unfold EngineIdle; decide +kernel), by (unfold NoQueue; decide +kernel), by decide +kernel⟩⟩
theorem witness_RotationMovesOperands :
    (Unasked state81 ∧ EngineIdle state81 ∧ NoQueue state81 ∧ isCompute state81.cid = true ∧ state81.co.staked = none ∧
     (∀ p < 4, ∃ b ∈ (state81.core (neighbour state81.cid p)).banks, b.2.prog = state81.src.prog ∧ b.2.st ≠ TState.ended) ∧
     BitVec.toNat state81.co.mconf % 32 < 13 ∧ BitVec.toNat state81.co.mconf / 32 % 32 < 22 ∧ BitVec.getLsbD state81.co.mconf 30 = false ∧
     BitVec.getLsbD state81.co.mconf 28 = false ∧ BitVec.getLsbD state81.co.mconf 25 = true ∧ BitVec.getLsbD state81.co.mconf 24 = true ∧
     mget state81.co.slots (BitVec.toNat (2 : BitVec 6)) = some arg4 ∧ arg4.state = SlotState.full) ∧
    (Unasked state82 ∧ state82.co.staked ≠ none) ∧
    (state83.th.pend = [{ word := if state83.form = Form.par1 then 1 else 0, id := 9, reply := none }] ∧
     BitVec.getLsbD state83.co.mconf 30 = true) ∧
    ((state84.core 0).holds 1 = true ∧ (state84.core 0).seized = none ∧ state84.event = Event.rotationDataArrival 0 true 1 [1] none true) ∧
    ((state85.core 0).holds 1 = true ∧ (state85.core 0).seized = none ∧ state85.event = Event.rotationDataArrival 0 false 1 [1] none true) ∧
    ((state86.core 0).holds 1 = true ∧ (state86.core 0).seized = none ∧ state86.event = Event.rotationCreditArrival 0 false 1) :=
  ⟨⟨by (constructor <;> decide +kernel), by (unfold EngineIdle; decide +kernel), by (unfold NoQueue; decide +kernel), by decide +kernel⟩,
   ⟨by (constructor <;> decide +kernel), by decide +kernel⟩,
   by decide +kernel⟩
theorem witness_TilesAreStoredScaledAndReduced :
    (EngineIdle state89 ∧ NoQueue state89 ∧ state89.co.undo = none) ∧
    (EngineIdle state89 ∧ NoQueue state89 ∧ state89.co.undo = none ∧ BitVec.toNat (src4 state89 5) = 65280 * 2 ^ 48 + 49136 ∧ 49136 % 8 = 0 ∧
     mstCode (BitVec.toNat state89.co.mconf / 1024 % 32) (BitVec.toNat (6 : BitVec 4)) = true ∧
     49136 + (BitVec.toNat state89.co.mconf / 2 ^ 16 % 8 + 1 - 1) * (BitVec.toNat state89.co.mconf / 2 ^ 32 % 2 ^ 16) + ((BitVec.toNat state89.co.mconf / 2 ^ 19 % 8 + 1) * (codeElem (BitVec.toNat (6 : BitVec 4))).width + 7) / 8 ≤ 49152 ∧
     (((BitVec.toNat state89.co.mconf / 2 ^ 19 % 8 + 1) * (codeElem (BitVec.toNat (6 : BitVec 4))).width + 7) / 8 ≤ BitVec.toNat state89.co.mconf / 2 ^ 32 % 2 ^ 16 ∨ BitVec.toNat state89.co.mconf / 2 ^ 16 % 8 + 1 = 1)) ∧
    (EngineIdle state89 ∧ NoQueue state89 ∧ state89.co.undo = none ∧ BitVec.toNat (26 : BitVec 5) % 2 = 0 ∧ BitVec.toNat (26 : BitVec 5) ≤ 26 ∧
     state89.th.streams = [] ∧ state89.src.streams = []) ∧
    (EngineIdle state90 ∧ NoQueue state90 ∧ state90.co.undo = none ∧ BitVec.toNat (src4 state90 5) = 65280 * 2 ^ 48 + 49144 ∧ 49144 % 8 = 0 ∧
     49144 + 8 ≤ 49152) :=
  ⟨⟨by (unfold EngineIdle; decide +kernel), by (unfold NoQueue; decide +kernel), by decide +kernel⟩,
   ⟨by (unfold EngineIdle; decide +kernel), by (unfold NoQueue; decide +kernel), by decide +kernel⟩,
   ⟨by (unfold EngineIdle; decide +kernel), by (unfold NoQueue; decide +kernel), by decide +kernel⟩,
   ⟨by (unfold EngineIdle; decide +kernel), by (unfold NoQueue; decide +kernel), by decide +kernel⟩⟩
theorem witness_LevainRecordsAreManaged :
    (NoQueue state91 ∧ EngineIdle state91 ∧ BitVec.toNat (15 : BitVec 5) < 16 ∧ state91.co.undo = none ∧
     BitVec.toNat (src state91 5) = 65280 * 2 ^ 48 + 0 ∧ 0 % 64 = 0 ∧ 0 + 64 ≤ 49152 ∧ BitVec.toNat (src state91 6) = 65280 * 2 ^ 48 + 64 ∧
     64 % 8 = 0 ∧ 64 + 64 ≤ 49152 ∧ paramsOk (leAt state91.co.tcm.bytes 64 64) = true ∧ 0 + recordSize (leAt state91.co.tcm.bytes 64 64) ≤ 49152) ∧
    (NoQueue state92 ∧ EngineIdle state92 ∧ BitVec.toNat (15 : BitVec 5) < 16 ∧ state92.co.undo = none ∧
     BitVec.toNat (src state92 5) = 65280 * 2 ^ 48 + 0 ∧ 0 % 64 = 0 ∧ 0 + 64 ≤ 49152 ∧ BitVec.toNat (src state92 6) = 65280 * 2 ^ 48 + 64 ∧
     64 % 8 = 0 ∧ 64 + 64 ≤ 49152 ∧ paramsOk (leAt state92.co.tcm.bytes 64 64) = false) ∧
    (NoQueue state92 ∧ EngineIdle state92 ∧ BitVec.toNat (15 : BitVec 5) < 16 ∧ state92.co.undo = none ∧
     BitVec.toNat (src state92 5) = 65280 * 2 ^ 48 + 0 ∧ 0 % 64 = 0 ∧ 0 + 64 ≤ 49152 ∧ BitVec.toNat (src state92 6) = 65280 * 2 ^ 48 + 64 ∧
     fieldsOk (leAt state92.co.tcm.bytes 0 64) = true ∧ 0 + recordSize (leAt state92.co.tcm.bytes 0 64) ≤ 49152) ∧
    (NoQueue state93 ∧ EngineIdle state93 ∧ BitVec.toNat (15 : BitVec 5) < 16 ∧ state93.co.undo = none ∧
     BitVec.toNat (src state93 5) = 65280 * 2 ^ 48 + 0 ∧ 0 % 64 = 0 ∧ 0 + 64 ≤ 49152 ∧ BitVec.toNat (src state93 6) = 65280 * 2 ^ 48 + 64 ∧
     fieldsOk (leAt state93.co.tcm.bytes 0 64) = false) ∧
    (NoQueue state94 ∧ EngineIdle state94 ∧ BitVec.toNat (15 : BitVec 5) < 16 ∧ state94.co.undo = none ∧
     BitVec.toNat (src state94 5) = 65280 * 2 ^ 48 + 0 ∧ 0 % 64 = 0 ∧ 0 + 64 ≤ 49152 ∧ BitVec.toNat (src state94 6) = 65280 * 2 ^ 48 + 49088 ∧
     49088 % 64 = 0 ∧ 49088 + 64 ≤ 49152) :=
  ⟨⟨by (unfold NoQueue; decide +kernel), by (unfold EngineIdle; decide +kernel), by decide +kernel⟩,
   ⟨by (unfold NoQueue; decide +kernel), by (unfold EngineIdle; decide +kernel), by decide +kernel⟩,
   ⟨by (unfold NoQueue; decide +kernel), by (unfold EngineIdle; decide +kernel), by decide +kernel⟩,
   ⟨by (unfold NoQueue; decide +kernel), by (unfold EngineIdle; decide +kernel), by decide +kernel⟩,
   ⟨by (unfold NoQueue; decide +kernel), by (unfold EngineIdle; decide +kernel), by decide +kernel⟩⟩
theorem witness_LevainInvocationsBeginAndCommit :
    (NoQueue state95 ∧ EngineIdle state95 ∧ state95.co.undo = none ∧ levainCheck state95 (src4 state95 5) false = Except.ok (levain 0) ∧
     (∀ i < hM (levain 0), BitVec.toNat (src4 state95 5) / 2 ^ 16 % 2 ^ 16 + recordSize (levain 0) ≤ BitVec.toNat (src4 state95 5) % 2 ^ 16 + i * (BitVec.toNat state95.co.mconf / 2 ^ 32 % 2 ^ 16) ∨ BitVec.toNat (src4 state95 5) % 2 ^ 16 + i * (BitVec.toNat state95.co.mconf / 2 ^ 32 % 2 ^ 16) + 48 ≤ BitVec.toNat (src4 state95 5) / 2 ^ 16 % 2 ^ 16)) ∧
    (NoQueue state96 ∧ EngineIdle state96 ∧ state96.co.undo = none ∧ levainCheck state96 (src4 state96 5) false = Except.ok (levainK 1 2 1 0) ∧
     (∀ i < hM (levainK 1 2 1 0), BitVec.toNat (src4 state96 5) / 2 ^ 16 % 2 ^ 16 + recordSize (levainK 1 2 1 0) ≤ BitVec.toNat (src4 state96 5) % 2 ^ 16 + i * (BitVec.toNat state96.co.mconf / 2 ^ 32 % 2 ^ 16) ∨ BitVec.toNat (src4 state96 5) % 2 ^ 16 + i * (BitVec.toNat state96.co.mconf / 2 ^ 32 % 2 ^ 16) + 48 ≤ BitVec.toNat (src4 state96 5) / 2 ^ 16 % 2 ^ 16)) ∧
    (NoQueue state97 ∧ EngineIdle state97 ∧
     (¬(hMode (levainK 2 2 0 1) = 1 ∧ ∀ (i e : ℕ), i < hM (levainK 2 2 0 1) → e < 48 → BitVec.toNat (rd8 state97.co.latch (48 * i + e)) = 0)) ∧
     state97.co.undo = none ∧ levainCheck state97 (src4 state97 5) true = Except.ok (levainK 2 2 0 1) ∧ BitVec.toNat state97.co.mconf % 32 = 27 ∧
     BitVec.getLsbD state97.co.mconf 22 = false ∧ mget state97.co.slots (BitVec.toNat (2 : BitVec 6)) = some arg10 ∧ arg10.state = SlotState.full) ∧
    (NoQueue state98 ∧ EngineIdle state98 ∧
     (∀ (i e : ℕ), i < hM (levainK 1 2 1 1) → e < 48 → BitVec.toNat (rd8 state98.co.latch (48 * i + e)) = 0) ∧ state98.co.undo = none ∧
     levainCheck state98 (src4 state98 5) true = Except.ok (levainK 1 2 1 1) ∧ BitVec.toNat state98.co.mconf % 32 = 27 ∧
     BitVec.getLsbD state98.co.mconf 22 = false ∧ mget state98.co.slots (BitVec.toNat (2 : BitVec 6)) = some arg10 ∧
     arg10.state = SlotState.full ∧ hMode (levainK 1 2 1 1) = 1) ∧
    (NoQueue state99 ∧ EngineIdle state99 ∧ state99.co.undo = none ∧ levainCheck state99 (src4 state99 5) true = Except.ok (levainK 2 2 0 1) ∧
     BitVec.toNat state99.co.mconf % 32 = 27 ∧ BitVec.getLsbD state99.co.mconf 22 = false ∧
     mget state99.co.slots (BitVec.toNat (2 : BitVec 6)) = some arg11 ∧ arg11.state = SlotState.empty) :=
  ⟨⟨by (unfold NoQueue; decide +kernel), by (unfold EngineIdle; decide +kernel), by decide +kernel⟩,
   ⟨by (unfold NoQueue; decide +kernel), by (unfold EngineIdle; decide +kernel), by decide +kernel⟩,
   ⟨by (unfold NoQueue; decide +kernel), by (unfold EngineIdle; decide +kernel), fun h => absurd h.1 (by decide +kernel), by decide +kernel⟩,
   ⟨by (unfold NoQueue; decide +kernel), by (unfold EngineIdle; decide +kernel), by (intro i e _ _; rfl), by decide +kernel⟩,
   ⟨by (unfold NoQueue; decide +kernel), by (unfold EngineIdle; decide +kernel), by decide +kernel⟩⟩
theorem witness_WeightRegionsAreRegistered :
    (Quiet state100 ∧ EngineIdle state100 ∧ Room state100 ∧ Unpaired state100 ∧ Unasked state100 ∧ BitVec.toNat (15 : BitVec 5) < 16 ∧
     inReflexArray state100.cid = false ∧ state100.co.staked = none ∧ BitVec.toNat (src state100 5) = 65280 * 2 ^ 48 + 32 ∧ 32 % 32 = 0 ∧
     32 + 32 ≤ 49152 ∧ leAt state100.co.tcm.bytes 32 32 % 2 ^ 64 % 65536 = 0 ∧ leAt state100.co.tcm.bytes 32 32 / 2 ^ 64 % 2 ^ 64 % 65536 = 0 ∧
     leAt state100.co.tcm.bytes 32 32 / 2 ^ 64 % 2 ^ 64 ≠ 0 ∧
     leAt state100.co.tcm.bytes 32 32 % 2 ^ 64 + leAt state100.co.tcm.bytes 32 32 / 2 ^ 64 % 2 ^ 64 ≤ 2 ^ 64 ∧
     leAt state100.co.tcm.bytes 32 32 / 2 ^ 144 = 0 ∧ BitVec.toNat (src state100 6) ≤ 63) ∧
    (Quiet state101 ∧ EngineIdle state101 ∧ Room state101 ∧ Replied state101 (Reply.value 7) ∧ BitVec.toNat (15 : BitVec 5) < 16 ∧
     inReflexArray state101.cid = false ∧ state101.co.staked = none ∧ BitVec.toNat (src state101 5) = 65280 * 2 ^ 48 + 32 ∧ 32 % 32 = 0 ∧
     32 + 32 ≤ 49152 ∧ 7 < 2 ^ 64) ∧
    (Quiet state102 ∧ EngineIdle state102 ∧ Room state102 ∧ Unasked state102 ∧ BitVec.toNat (15 : BitVec 5) < 16 ∧
     inReflexArray state102.cid = false ∧ state102.co.staked = none ∧ BitVec.toNat (src state102 5) = 65280 * 2 ^ 48 + 32 ∧ 32 % 32 = 0 ∧
     32 + 32 ≤ 49152 ∧ 63 < BitVec.toNat (src state102 6)) ∧
    (Quiet state103 ∧ EngineIdle state103 ∧ Room state103 ∧ Unpaired state103 ∧ Unasked state103 ∧ BitVec.toNat (15 : BitVec 5) < 16 ∧
     inReflexArray state103.cid = false ∧ state103.co.staked = none ∧ BitVec.toNat (src state103 5) < 64) ∧
    (Quiet state104 ∧ EngineIdle state104 ∧ Room state104 ∧ Replied state104 (Reply.value (2 ^ 64 - 1)) ∧ BitVec.toNat (15 : BitVec 5) < 16 ∧
     inReflexArray state104.cid = false ∧ state104.co.staked = none ∧ BitVec.toNat (src state104 5) < 64 ∧ 2 ^ 64 - 1 < 2 ^ 64) ∧
    (Quiet state105 ∧ EngineIdle state105 ∧ Room state105 ∧ BitVec.toNat (15 : BitVec 5) < 16 ∧ inReflexArray state105.cid = false ∧
     state105.co.staked = none ∧ 64 ≤ BitVec.toNat (src state105 5) ∧ BitVec.toNat (src state105 5) < 256) :=
  ⟨⟨by (unfold Quiet NoQueue; decide +kernel), by (unfold EngineIdle; decide +kernel), by (unfold Room; decide +kernel), by (constructor <;> decide +kernel), by (constructor <;> decide +kernel), by decide +kernel⟩,
   ⟨by (unfold Quiet NoQueue; decide +kernel), by (unfold EngineIdle; decide +kernel), by (unfold Room; decide +kernel), ⟨4, by decide +kernel⟩, by decide +kernel⟩,
   ⟨by (unfold Quiet NoQueue; decide +kernel), by (unfold EngineIdle; decide +kernel), by (unfold Room; decide +kernel), by (constructor <;> decide +kernel), by decide +kernel⟩,
   ⟨by (unfold Quiet NoQueue; decide +kernel), by (unfold EngineIdle; decide +kernel), by (unfold Room; decide +kernel), by (constructor <;> decide +kernel), by (constructor <;> decide +kernel), by decide +kernel⟩,
   ⟨by (unfold Quiet NoQueue; decide +kernel), by (unfold EngineIdle; decide +kernel), by (unfold Room; decide +kernel), ⟨4, by decide +kernel⟩, by decide +kernel⟩,
   ⟨by (unfold Quiet NoQueue; decide +kernel), by (unfold EngineIdle; decide +kernel), by (unfold Room; decide +kernel), by decide +kernel⟩⟩
theorem witness_StreamStateRecordsMove :
    (Quiet state106 ∧ Unasked state106 ∧ BitVec.toNat (15 : BitVec 5) < 16 ∧ BitVec.toNat state106.src.vconf % 8 ≠ 7 ∧
     BitVec.toNat (src state106 5) = 0 ∧ 0 % 64 = 0 ∧ 0 + 64 ≤ 49152 ∧ BitVec.toNat (src state106 6) = 65280 * 2 ^ 48 + 64 ∧ 64 % 64 = 0 ∧
     64 + 64 ≤ 49152 ∧ (0 + 64 ≤ 64 ∨ 64 + 64 ≤ 0) ∧ state106.src.farsp.toNat < 65280 ∧
     state106.spaceOk state106.src.farsp.toNat state106.src.tenant = true ∧ state106.co.tcm.bad = [] ∧ state106.co.undo = none ∧
     bit (leAt state106.co.tcm.bytes 0 64) 289 = true ∧ bit (leAt state106.co.tcm.bytes 0 64) 288 = true) ∧
    (Quiet state107 ∧ Unasked state107 ∧ BitVec.toNat (15 : BitVec 5) < 16 ∧ BitVec.toNat state107.src.vconf % 8 ≠ 7 ∧
     BitVec.toNat (src state107 5) = 0 ∧ 0 % 64 = 0 ∧ 0 + 64 ≤ 49152 ∧ BitVec.toNat (src state107 6) = 65280 * 2 ^ 48 + 64 ∧ 64 % 64 = 0 ∧
     64 + 64 ≤ 49152 ∧ (0 + 64 ≤ 64 ∨ 64 + 64 ≤ 0) ∧ state107.src.farsp.toNat < 65280 ∧
     state107.spaceOk state107.src.farsp.toNat state107.src.tenant = true ∧ state107.co.tcm.bad = [] ∧ state107.co.undo = none ∧
     (¬(bit (leAt state107.co.tcm.bytes 0 64) 289 = true ∧ bit (leAt state107.co.tcm.bytes 0 64) 288 = true)) ∧
     (¬bit (leAt state107.co.tcm.bytes 64 64) 289 = true)) ∧
    (Quiet state108 ∧ Unasked state108 ∧ BitVec.toNat (15 : BitVec 5) < 16 ∧ BitVec.toNat state108.src.vconf % 8 ≠ 7 ∧
     BitVec.toNat (src state108 5) = 0 ∧ 0 % 64 = 0 ∧ 0 + 64 ≤ 49152 ∧ BitVec.toNat (src state108 6) = 65280 * 2 ^ 48 + 64 ∧ 64 % 64 = 0 ∧
     64 + 64 ≤ 49152 ∧ (0 + 64 ≤ 64 ∨ 64 + 64 ≤ 0) ∧ state108.src.farsp.toNat < 65280 ∧
     state108.spaceOk state108.src.farsp.toNat state108.src.tenant = true ∧ state108.co.tcm.bad = [] ∧ state108.co.undo = none ∧
     (¬(bit (leAt state108.co.tcm.bytes 0 64) 289 = true ∧ bit (leAt state108.co.tcm.bytes 0 64) 288 = true)) ∧
     bit (leAt state108.co.tcm.bytes 64 64) 289 = true ∧ bit (leAt state108.co.tcm.bytes 64 64) 288 = true) ∧
    (Quiet state109 ∧ Unasked state109 ∧ BitVec.toNat (15 : BitVec 5) < 16 ∧ BitVec.toNat state109.src.vconf % 8 ≠ 7 ∧
     BitVec.toNat (src state109 5) = 0 ∧ 0 % 64 = 0 ∧ 0 + 64 ≤ 49152 ∧ BitVec.toNat (src state109 6) = 65280 * 2 ^ 48 + 64 ∧ 64 % 64 = 0 ∧
     64 + 64 ≤ 49152 ∧ (0 + 64 ≤ 64 ∨ 64 + 64 ≤ 0) ∧ state109.src.farsp.toNat < 65280 ∧
     state109.spaceOk state109.src.farsp.toNat state109.src.tenant = true ∧ state109.co.tcm.bad = [] ∧ state109.co.undo = none ∧
     (¬(bit (leAt state109.co.tcm.bytes 0 64) 289 = true ∧ bit (leAt state109.co.tcm.bytes 0 64) 288 = true)) ∧
     bit (leAt state109.co.tcm.bytes 64 64) 289 = true ∧ (¬bit (leAt state109.co.tcm.bytes 64 64) 288 = true)) ∧
    (Quiet state108 ∧ Unasked state108 ∧ BitVec.toNat (15 : BitVec 5) < 16 ∧ BitVec.toNat state108.src.vconf % 8 ≠ 7 ∧
     BitVec.toNat (src state108 5) = 0 ∧ 0 % 64 = 0 ∧ 0 + 64 ≤ 49152 ∧ BitVec.toNat (src state108 6) = 65280 * 2 ^ 48 + 64 ∧ 64 % 64 = 0 ∧
     64 + 64 ≤ 49152 ∧ (0 + 64 ≤ 64 ∨ 64 + 64 ≤ 0) ∧ state108.src.farsp.toNat < 65280 ∧
     state108.spaceOk state108.src.farsp.toNat state108.src.tenant = true ∧ state108.co.tcm.bad = [] ∧ state108.co.undo = none ∧
     (¬(bit (leAt state108.co.tcm.bytes 0 64) 289 = true ∧ bit (leAt state108.co.tcm.bytes 0 64) 288 = true ∧ hfield state108 0 24 0 48 = state108.src.prog % 2 ^ 16 * 2 ^ 32 + state108.src.serial % 2 ^ 32))) ∧
    (Quiet state106 ∧ Unasked state106 ∧ BitVec.toNat (15 : BitVec 5) < 16 ∧ BitVec.toNat state106.src.vconf % 8 ≠ 7 ∧
     BitVec.toNat (src state106 5) = 0 ∧ 0 % 64 = 0 ∧ 0 + 64 ≤ 49152 ∧ BitVec.toNat (src state106 6) = 65280 * 2 ^ 48 + 64 ∧ 64 % 64 = 0 ∧
     64 + 64 ≤ 49152 ∧ (0 + 64 ≤ 64 ∨ 64 + 64 ≤ 0) ∧ state106.src.farsp.toNat < 65280 ∧
     state106.spaceOk state106.src.farsp.toNat state106.src.tenant = true ∧ state106.co.tcm.bad = [] ∧ state106.co.undo = none ∧
     bit (leAt state106.co.tcm.bytes 0 64) 289 = true ∧ bit (leAt state106.co.tcm.bytes 0 64) 288 = true ∧
     hfield state106 0 24 0 48 = state106.src.prog % 2 ^ 16 * 2 ^ 32 + state106.src.serial % 2 ^ 32) :=
  ⟨⟨by (unfold Quiet NoQueue; decide +kernel), by (constructor <;> decide +kernel), by decide +kernel⟩,
   ⟨by (unfold Quiet NoQueue; decide +kernel), by (constructor <;> decide +kernel), by decide +kernel⟩,
   ⟨by (unfold Quiet NoQueue; decide +kernel), by (constructor <;> decide +kernel), by decide +kernel⟩,
   ⟨by (unfold Quiet NoQueue; decide +kernel), by (constructor <;> decide +kernel), by decide +kernel⟩,
   ⟨by (unfold Quiet NoQueue; decide +kernel), by (constructor <;> decide +kernel), by decide +kernel⟩,
   ⟨by (unfold Quiet NoQueue; decide +kernel), by (constructor <;> decide +kernel), by decide +kernel⟩⟩
theorem witness_MessagesAreSentAndReceived :
    (Quiet state110 ∧ Unpaired state110 ∧ Room state110 ∧ BitVec.toNat (15 : BitVec 5) < 16 ∧ state110.src.streams = [] ∧ isCore 0 = true ∧
     0 < 16 ∧ BitVec.toNat (src state110 5) = 0 + 0 * 2 ^ 16 ∧
     (state110.src.level = Level.task → 0 ∉ [0, 1, 4, 14, 15] ∧ state110.reaches 0 = true) ∧
     BitVec.toNat (src state110 6) = 65280 * 2 ^ 48 + 49120 ∧ 49120 % 32 = 0 ∧ 49120 + 32 ≤ 49152) ∧
    (Quiet state110 ∧ Unpaired state110 ∧ Room state110 ∧ Unasked state110 ∧ BitVec.toNat (15 : BitVec 5) < 16 ∧ state110.src.streams = [] ∧
     isCore 0 = true ∧ 0 < 16 ∧ BitVec.toNat (src state110 5) = 0 + 0 * 2 ^ 16 ∧
     (state110.src.level = Level.task → 0 ∉ [0, 1, 4, 14, 15] ∧ state110.reaches 0 = true) ∧
     BitVec.toNat (src state110 6) = 65280 * 2 ^ 48 + 49120 ∧ 49120 % 32 = 0 ∧ 49120 + 32 ≤ 49152) ∧
    (Quiet state111 ∧ Unpaired state111 ∧ Room state111 ∧ Replied state111 (Reply.value 1) ∧ BitVec.toNat (15 : BitVec 5) < 16 ∧
     state111.src.streams = [] ∧ isCore 0 = true ∧ 5 < 16 ∧ BitVec.toNat (src state111 5) = 0 + 5 * 2 ^ 16 ∧
     (state111.src.level = Level.task → 5 ∉ [0, 1, 4, 14, 15] ∧ state111.reaches 0 = true) ∧
     BitVec.toNat (src state111 6) = 65280 * 2 ^ 48 + 49120 ∧ 49120 % 32 = 0 ∧ 49120 + 32 ≤ 49152 ∧ 1 < 2 ^ 64) ∧
    (Quiet state112 ∧ Unpaired state112 ∧ Room state112 ∧ BitVec.toNat (15 : BitVec 5) < 16 ∧ state112.src.streams = [] ∧ isCore 0 = true ∧
     13 < 16 ∧ BitVec.toNat (src state112 5) = 0 + 13 * 2 ^ 16 ∧
     (state112.src.level = Level.task → 13 ∉ [0, 1, 4, 14, 15] ∧ state112.reaches 0 = true) ∧ BitVec.toNat (26 : BitVec 5) ≤ 26) ∧
    (Quiet state113 ∧ Unasked state113 ∧ BitVec.toNat (15 : BitVec 5) < 16 ∧ state113.co.undo = none ∧ 0 < BitVec.toNat (src state113 5) ∧
     BitVec.toNat (src state113 5) < 2 ^ 16 ∧ BitVec.getLsbD (src state113 5) 1 = false ∧ BitVec.getLsbD (src state113 5) 14 = false ∧
     BitVec.toNat (src state113 6) = 65280 * 2 ^ 48 + 32 ∧ 32 % 32 = 0 ∧ 32 + 32 ≤ 49152 ∧ 0 < 16 ∧ BitVec.getLsbD (src state113 5) 0 = true ∧
     state113.co.box 0 = [7] ∧ (∀ m < 0, BitVec.getLsbD (src state113 5) m = true → state113.co.box m = []) ∧
     (0 = 0 → (∀ c ∈ state113.cores, c.2.grants = []) ∧ state113.co.grants = [] ∧ state113.co.waiting0 = [])) ∧
    (Quiet state114 ∧ Replied state114 (Reply.message 5 8) ∧ BitVec.toNat (15 : BitVec 5) < 16 ∧ state114.co.undo = none ∧
     0 < BitVec.toNat (src state114 5) ∧ BitVec.toNat (src state114 5) < 2 ^ 16 ∧ BitVec.getLsbD (src state114 5) 1 = false ∧
     BitVec.getLsbD (src state114 5) 14 = false ∧ BitVec.toNat (src state114 6) = 65280 * 2 ^ 48 + 0 ∧ 0 % 32 = 0 ∧ 0 + 32 ≤ 49152 ∧ 0 < 5 ∧
     5 < 16) ∧
    (Quiet state115 ∧ Unasked state115 ∧ BitVec.toNat (15 : BitVec 5) < 16 ∧ state115.co.undo = none ∧ 0 < BitVec.toNat (src state115 5) ∧
     BitVec.toNat (src state115 5) < 2 ^ 16 ∧ BitVec.getLsbD (src state115 5) 1 = false ∧ BitVec.getLsbD (src state115 5) 14 = false ∧
     BitVec.toNat (src state115 6) = 65280 * 2 ^ 48 + 0 ∧ 0 % 32 = 0 ∧ 0 + 32 ≤ 49152 ∧
     (∀ m < 16, BitVec.getLsbD (src state115 5) m = true → state115.co.box m = [])) :=
  ⟨⟨by (unfold Quiet NoQueue; decide +kernel), by (constructor <;> decide +kernel), by (unfold Room; decide +kernel), by decide +kernel⟩,
   ⟨by (unfold Quiet NoQueue; decide +kernel), by (constructor <;> decide +kernel), by (unfold Room; decide +kernel), by (constructor <;> decide +kernel), by decide +kernel⟩,
   ⟨by (unfold Quiet NoQueue; decide +kernel), by (constructor <;> decide +kernel), by (unfold Room; decide +kernel), ⟨4, by decide +kernel⟩, by decide +kernel⟩,
   ⟨by (unfold Quiet NoQueue; decide +kernel), by (constructor <;> decide +kernel), by (unfold Room; decide +kernel), by decide +kernel⟩,
   ⟨by (unfold Quiet NoQueue; decide +kernel), by (constructor <;> decide +kernel), by decide +kernel⟩,
   ⟨by (unfold Quiet NoQueue; decide +kernel), ⟨4, by decide +kernel⟩, by decide +kernel⟩,
   ⟨by (unfold Quiet NoQueue; decide +kernel), by (constructor <;> decide +kernel), by decide +kernel⟩⟩
theorem witness_CopyWordsStartOrTrap :
    (Quiet state116 ∧ BitVec.toNat (4 : BitVec 5) < 16 ∧ 0 < 96 ∧ mget state116.co.copies 0 = none ∧ state116.co.undo = none ∧
     state116.src.space.toNat < 65280 ∧ state116.spaceOk state116.src.space.toNat state116.src.tenant = true ∧
     BitVec.toNat (src state116 5) = 65280 * 2 ^ 48 + 0 ∧ BitVec.toNat (src state116 4) = 65280 * 2 ^ 48 + 8 ∧ 0 % 8 = 0 ∧ 8 % 8 = 0 ∧
     BitVec.toNat (src state116 6) % 8 = 0 ∧ 0 + BitVec.toNat (src state116 6) ≤ 49152 ∧ 8 + BitVec.toNat (src state116 6) ≤ 49152 ∧ 0 < 49152 ∧
     8 < 49152) ∧
    (Quiet state117 ∧ Unasked state117 ∧
     state117.rangeOk state117.src.space.toNat (BitVec.toNat (src state117 4)) (tTotal (BitVec.ofNat 512 (leAt state117.co.tcm.bytes 0 64)).toNat) = Except.ok () ∧
     state117.rangeOk state117.src.space.toNat (tensorSpan (BitVec.ofNat 512 (leAt state117.co.tcm.bytes 0 64)).toNat).1 1 = Except.ok () ∧
     state117.rangeOk state117.src.space.toNat (tensorSpan (BitVec.ofNat 512 (leAt state117.co.tcm.bytes 0 64)).toNat).2 1 = Except.ok () ∧
     BitVec.toNat (4 : BitVec 5) < 16 ∧ 0 < 96 ∧ mget state117.co.copies 0 = none ∧ state117.co.undo = none ∧ state117.src.space.toNat < 65280 ∧
     state117.spaceOk state117.src.space.toNat state117.src.tenant = true ∧ BitVec.toNat (src state117 5) = 65280 * 2 ^ 48 + 0 ∧ 0 % 64 = 0 ∧
     0 + 64 ≤ 49152 ∧ state117.co.records = [] ∧ state117.co.tcm.bad = [] ∧
     tensorOk (BitVec.ofNat 512 (leAt state117.co.tcm.bytes 0 64)).toNat = true ∧
     tTotal (BitVec.ofNat 512 (leAt state117.co.tcm.bytes 0 64)).toNat ≤ 2 ^ 24 ∧ BitVec.toNat (src state117 4) % 8 = 0 ∧
     tTotal (BitVec.ofNat 512 (leAt state117.co.tcm.bytes 0 64)).toNat % 8 = 0) ∧
    (Quiet state118 ∧ state118.queueRoute (src state118 5) 32 true = Except.ok (state118.homeOf 0 4096, 0) ∧
     Replied state118 (Reply.result 0 true (List.replicate 280 0)) ∧ BitVec.toNat (4 : BitVec 5) < 16 ∧ 0 < 96 ∧
     mget state118.co.copies 0 = none ∧ state118.co.undo = none ∧ state118.src.space.toNat < 65280 ∧
     state118.spaceOk state118.src.space.toNat state118.src.tenant = true ∧ 1 ≤ BitVec.toNat (src state118 6) / 2 ^ 32 ∧
     BitVec.toNat (src state118 6) / 2 ^ 32 ≤ 64 ∧ BitVec.toNat (src state118 4) % 8 = 0) ∧
    (Quiet state119 ∧ state119.rangeOk state119.src.space.toNat (BitVec.toNat (src state119 5)) (leAt state119.co.tcm.bytes 0 4) = Except.ok () ∧
     (leAt state119.co.tcm.bytes (0 + 8) 8 % 8 = 0 ∨ leAt state119.co.tcm.bytes (0 + 8) 8 % 8 = 4 ∧ Unasked state119 ∧ ∃ bundle, state119.bundleAt (BitVec.ofNat 40 (leAt state119.co.tcm.bytes (0 + 8) 8 - 4)) = some bundle ∧ bundle.getLsbD 31 = true ∧ isWideCode (BitVec.extractLsb' 0 27 bundle) = false) ∧
     BitVec.toNat (4 : BitVec 5) < 16 ∧ 0 < 96 ∧ mget state119.co.copies 0 = none ∧ state119.co.undo = none ∧ state119.src.space.toNat < 65280 ∧
     state119.spaceOk state119.src.space.toNat state119.src.tenant = true ∧ BitVec.toNat (src state119 6) = 65280 * 2 ^ 48 + 0 ∧ 0 + 16 ≤ 49152 ∧
     leAt state119.co.tcm.bytes (0 + 4) 4 = 0 ∧ leAt state119.co.tcm.bytes 0 4 % 32 = 0 ∧ 0 < leAt state119.co.tcm.bytes 0 4 ∧
     leAt state119.co.tcm.bytes 0 4 ≤ 49152 ∧ BitVec.toNat (src state119 5) % 8 = 0 ∧ BitVec.toNat (src state119 4) = 65280 * 2 ^ 48 + 2048 ∧
     2048 % 8 = 0 ∧ 2048 + leAt state119.co.tcm.bytes 0 4 ≤ 49152 ∧ leAt state119.co.tcm.bytes (0 + 8) 8 < 2 ^ 40 ∧
     mget state119.co.banks 3 = none) ∧
    (Quiet handlerAt ∧
     handlerAt.rangeOk handlerAt.src.space.toNat (BitVec.toNat (src handlerAt 5)) (leAt handlerAt.co.tcm.bytes 0 4) = Except.ok () ∧
     (leAt handlerAt.co.tcm.bytes (0 + 8) 8 % 8 = 0 ∨ leAt handlerAt.co.tcm.bytes (0 + 8) 8 % 8 = 4 ∧ Unasked handlerAt ∧ ∃ bundle, handlerAt.bundleAt (BitVec.ofNat 40 (leAt handlerAt.co.tcm.bytes (0 + 8) 8 - 4)) = some bundle ∧ bundle.getLsbD 31 = true ∧ isWideCode (BitVec.extractLsb' 0 27 bundle) = false) ∧
     BitVec.toNat (4 : BitVec 5) < 16 ∧ 0 < 96 ∧ mget handlerAt.co.copies 0 = none ∧ handlerAt.co.undo = none ∧
     handlerAt.src.space.toNat < 65280 ∧ handlerAt.spaceOk handlerAt.src.space.toNat handlerAt.src.tenant = true ∧
     BitVec.toNat (src handlerAt 6) = 65280 * 2 ^ 48 + 0 ∧ 0 + 16 ≤ 49152 ∧ leAt handlerAt.co.tcm.bytes (0 + 4) 4 = 0 ∧
     leAt handlerAt.co.tcm.bytes 0 4 % 32 = 0 ∧ 0 < leAt handlerAt.co.tcm.bytes 0 4 ∧ leAt handlerAt.co.tcm.bytes 0 4 ≤ 49152 ∧
     BitVec.toNat (src handlerAt 5) % 8 = 0 ∧ BitVec.toNat (src handlerAt 4) = 65280 * 2 ^ 48 + 2048 ∧ 2048 % 8 = 0 ∧
     2048 + leAt handlerAt.co.tcm.bytes 0 4 ≤ 49152 ∧ leAt handlerAt.co.tcm.bytes (0 + 8) 8 < 2 ^ 40 ∧ mget handlerAt.co.banks 3 = none) ∧
    (Quiet state120 ∧ Replied state120 (Reply.value 0) ∧
     state120.rangeOk state120.src.space.toNat (BitVec.toNat (src state120 4)) (BitVec.toNat (src state120 6) * 0) = Except.ok () ∧
     BitVec.toNat (4 : BitVec 5) < 16 ∧ 0 < 96 ∧ mget state120.co.copies 0 = none ∧ state120.co.undo = none ∧ state120.src.space.toNat < 65280 ∧
     state120.spaceOk state120.src.space.toNat state120.src.tenant = true ∧ BitVec.toNat (src state120 5) / 2 ^ 56 ≠ 255 ∧
     BitVec.toNat (src state120 5) % 64 = 0 ∧ inReflexArray state120.cid = false ∧ state120.co.staked = none ∧
     1 ≤ BitVec.toNat (src state120 6) ∧ BitVec.toNat (src state120 6) ≤ 65536 ∧ BitVec.toNat (src state120 4) % 8 = 0) ∧
    (Quiet state121 ∧ state121.rangeOk state121.src.space.toNat (BitVec.toNat (src state121 6)) slotA.size = Except.ok () ∧
     BitVec.toNat (4 : BitVec 5) < 16 ∧ 0 < 96 ∧ mget state121.co.copies 0 = none ∧ state121.co.undo = none ∧ state121.src.space.toNat < 65280 ∧
     state121.spaceOk state121.src.space.toNat state121.src.tenant = true ∧ BitVec.toNat (src state121 5) < 256 ∧
     BitVec.toNat (src state121 6) % 8 = 0 ∧ state121.slotFor (BitVec.toNat (src state121 5)) state121.src.prog = some slotA) ∧
    (Quiet state122 ∧ BitVec.toNat (4 : BitVec 5) < 16 ∧ 0 < 96 ∧ mget state122.co.copies 0 = none ∧ state122.co.undo = none ∧
     state122.src.space.toNat < 65280 ∧ state122.spaceOk state122.src.space.toNat state122.src.tenant = true ∧
     BitVec.toNat (src state122 5) < 256 ∧ BitVec.toNat (src state122 6) % 8 = 0 ∧
     state122.slotFor (BitVec.toNat (src state122 5)) state122.src.prog = none) ∧
    (Quiet state123 ∧ BitVec.toNat (4 : BitVec 5) < 16 ∧ 95 < 96 ∧ mget state123.co.copies 95 = none ∧ state123.co.undo = none ∧
     state123.src.space.toNat < 65280 ∧ state123.spaceOk state123.src.space.toNat state123.src.tenant = true ∧
     BitVec.toNat (src state123 5) = 65280 * 2 ^ 48 + 48640 ∧ 48640 % 64 = 0 ∧ 48640 + 512 ≤ 49152) ∧
    BitVec.toNat (src state4 5) % 8 ≠ 0 ∧
    (BitVec.toNat (src state124 5) % 8 = 0 ∧ BitVec.toNat (src state124 4) % 8 ≠ 0) ∧
    (BitVec.toNat (src state125 5) % 8 = 0 ∧ BitVec.toNat (src state125 4) % 8 = 0 ∧ BitVec.toNat (src state125 6) % 8 = 0 ∧
     2 ^ 24 < BitVec.toNat (src state125 6)) ∧
    (BitVec.toNat (src state126 6) / 2 ^ 32 % 2 ^ 16 = 0 ∨ 64 < BitVec.toNat (src state126 6) / 2 ^ 32 % 2 ^ 16 ∨ 2 ^ 48 ≤ BitVec.toNat (src state126 6)) ∧
    256 ≤ BitVec.toNat (src state127 5) ∧
    (BitVec.toNat (src state128 5) = 65280 * 2 ^ 48 + 48640 ∧ 48640 % 64 = 0 ∧ 48640 + 512 ≤ 49152 ∧ (∀ i < 96, mget state128.co.copies i ≠ none)) :=
  ⟨⟨by (unfold Quiet NoQueue; decide +kernel), by decide +kernel⟩,
   ⟨by (unfold Quiet NoQueue; decide +kernel), by (constructor <;> decide +kernel), rfl, rfl, rfl, by decide +kernel⟩,
   ⟨by (unfold Quiet NoQueue; decide +kernel), rfl, ⟨4, by decide +kernel⟩, by decide +kernel⟩,
   ⟨by (unfold Quiet NoQueue; decide +kernel), rfl, by (left; decide +kernel), by decide +kernel⟩,
   ⟨by (unfold Quiet NoQueue; decide +kernel), rfl, by (right; exact ⟨by decide +kernel, by unfold Unasked; decide +kernel, _, rfl, by decide +kernel⟩), by decide +kernel⟩,
   ⟨by (unfold Quiet NoQueue; decide +kernel), ⟨4, by decide +kernel⟩, rfl, by decide +kernel⟩,
   ⟨by (unfold Quiet NoQueue; decide +kernel), rfl, by decide +kernel⟩,
   ⟨by (unfold Quiet NoQueue; decide +kernel), by decide +kernel⟩,
   ⟨by (unfold Quiet NoQueue; decide +kernel), by decide +kernel⟩,
   by decide +kernel⟩
theorem witness_StreamsAreBoundAndEnded :
    (NoQueue state129 ∧ state129.rangeOk state129.src.space.toNat (leAt state129.co.tcm.bytes 0 8) 1 = Except.ok () ∧
     20 ≤ BitVec.toNat (23 : BitVec 5) ∧ BitVec.toNat (23 : BitVec 5) ≤ 23 ∧ 95 < 96 ∧ mget state129.co.copies 95 = none ∧
     state129.src.streams = [] ∧ BitVec.toNat (src state129 5) = 65280 * 2 ^ 48 + 0 ∧ 0 % 32 = 0 ∧ 0 + 32 ≤ 49152 ∧
     streamOk (leAt state129.co.tcm.bytes 0 32) = true) ∧
    (NoQueue state129 ∧ 20 ≤ BitVec.toNat (20 : BitVec 5) ∧ BitVec.toNat (20 : BitVec 5) ≤ 23 ∧
     mget state129.src.streams (BitVec.toNat (20 : BitVec 5)) = none) ∧
    (NoQueue state130 ∧ 20 ≤ BitVec.toNat (20 : BitVec 5) ∧ BitVec.toNat (20 : BitVec 5) ≤ 23 ∧
     mget state130.src.streams (BitVec.toNat (20 : BitVec 5)) = some arg12 ∧ state130.th = state130.src) ∧
    (NoQueue state131 ∧ 20 ≤ BitVec.toNat (20 : BitVec 5) ∧ BitVec.toNat (20 : BitVec 5) ≤ 23 ∧
     mget state131.src.streams (BitVec.toNat (20 : BitVec 5)) = some arg13 ∧ state131.th = state131.src) :=
  ⟨⟨by (unfold NoQueue; decide +kernel), rfl, by decide +kernel⟩,
   ⟨by (unfold NoQueue; decide +kernel), by decide +kernel⟩,
   ⟨by (unfold NoQueue; decide +kernel), by decide +kernel⟩,
   ⟨by (unfold NoQueue; decide +kernel), by decide +kernel⟩⟩
theorem witness_ExchangeWordsFollowThePlan :
    (Quiet state132 ∧ BitVec.toNat (15 : BitVec 5) < 16 ∧ state132.co.undo = none ∧ mget state132.front.progs state132.src.prog = some arg14 ∧
     arg14.run = some gangRun ∧ gangRun.twins = [] ∧ state132.th.prog = state132.src.prog ∧
     BitVec.toNat (src state132 5) < leAt state132.co.tcm.bytes (BitVec.toNat state132.src.planbase % 2 ^ 16 + 16) 2) ∧
    (Quiet state133 ∧ BitVec.toNat (15 : BitVec 5) < 16 ∧ state133.co.undo = none ∧ mget state133.front.progs state133.src.prog = some arg14 ∧
     arg14.run = some gangRun ∧ gangRun.twins = [] ∧ state133.th.prog = state133.src.prog ∧
     leAt state133.co.tcm.bytes (BitVec.toNat state133.src.planbase % 2 ^ 16 + 16) 2 ≤ BitVec.toNat (src state133 5)) ∧
    (Quiet state134 ∧ Unasked state134 ∧ BitVec.toNat (15 : BitVec 5) < 16 ∧ state134.co.undo = none ∧
     mget state134.front.progs state134.src.prog = some arg14 ∧ arg14.run = some gangRun ∧ gangRun.twins = [] ∧
     state134.th.prog = state134.src.prog ∧
     leAt state134.co.tcm.bytes (BitVec.toNat state134.src.planbase % 2 ^ 16 + 12) 2 + BitVec.toNat (src state134 5) < leAt state134.co.tcm.bytes (BitVec.toNat state134.src.planbase % 2 ^ 16 + 16) 2 ∧
     leAt state134.co.tcm.bytes (entryAt (BitVec.toNat state134.src.planbase % 2 ^ 16) (leAt state134.co.tcm.bytes (BitVec.toNat state134.src.planbase % 2 ^ 16 + 12) 2 + BitVec.toNat (src state134 5)) 6) 1 = 0 ∧
     leAt state134.co.tcm.bytes (BitVec.toNat state134.src.planbase % 2 ^ 16) 8 + leAt state134.co.tcm.bytes (entryAt (BitVec.toNat state134.src.planbase % 2 ^ 16) (leAt state134.co.tcm.bytes (BitVec.toNat state134.src.planbase % 2 ^ 16 + 12) 2 + BitVec.toNat (src state134 5)) 0) 4 ≤ (state134.now - state134.front.cycle0) / 2 ∧
     (state134.now - state134.front.cycle0) / 2 < leAt state134.co.tcm.bytes (BitVec.toNat state134.src.planbase % 2 ^ 16) 8 + leAt state134.co.tcm.bytes (entryAt (BitVec.toNat state134.src.planbase % 2 ^ 16) (leAt state134.co.tcm.bytes (BitVec.toNat state134.src.planbase % 2 ^ 16 + 12) 2 + BitVec.toNat (src state134 5)) 0) 4 + 8) ∧
    (Quiet state135 ∧ Unasked state135 ∧ BitVec.toNat (15 : BitVec 5) < 16 ∧ state135.co.undo = none ∧
     mget state135.front.progs state135.src.prog = some arg14 ∧ arg14.run = some gangRun ∧ gangRun.twins = [] ∧
     state135.th.prog = state135.src.prog ∧
     leAt state135.co.tcm.bytes (BitVec.toNat state135.src.planbase % 2 ^ 16 + 12) 2 + BitVec.toNat (src state135 5) < leAt state135.co.tcm.bytes (BitVec.toNat state135.src.planbase % 2 ^ 16 + 16) 2 ∧
     leAt state135.co.tcm.bytes (entryAt (BitVec.toNat state135.src.planbase % 2 ^ 16) (leAt state135.co.tcm.bytes (BitVec.toNat state135.src.planbase % 2 ^ 16 + 12) 2 + BitVec.toNat (src state135 5)) 6) 1 = 0 ∧
     leAt state135.co.tcm.bytes (BitVec.toNat state135.src.planbase % 2 ^ 16) 8 + leAt state135.co.tcm.bytes (entryAt (BitVec.toNat state135.src.planbase % 2 ^ 16) (leAt state135.co.tcm.bytes (BitVec.toNat state135.src.planbase % 2 ^ 16 + 12) 2 + BitVec.toNat (src state135 5)) 0) 4 + 8 ≤ (state135.now - state135.front.cycle0) / 2 ∧
     bit (leAt state135.co.tcm.bytes (BitVec.toNat state135.src.planbase % 2 ^ 16 + 14) 1) 0 = false) ∧
    (Quiet state136 ∧ Unasked state136 ∧ BitVec.toNat (15 : BitVec 5) < 16 ∧ state136.co.undo = none ∧
     mget state136.front.progs state136.src.prog = some arg14 ∧ arg14.run = some gangRun ∧ gangRun.twins = [] ∧
     state136.th.prog = state136.src.prog ∧
     leAt state136.co.tcm.bytes (BitVec.toNat state136.src.planbase % 2 ^ 16 + 12) 2 + BitVec.toNat (src state136 5) < leAt state136.co.tcm.bytes (BitVec.toNat state136.src.planbase % 2 ^ 16 + 16) 2 ∧
     leAt state136.co.tcm.bytes (entryAt (BitVec.toNat state136.src.planbase % 2 ^ 16) (leAt state136.co.tcm.bytes (BitVec.toNat state136.src.planbase % 2 ^ 16 + 12) 2 + BitVec.toNat (src state136 5)) 6) 1 = 0 ∧
     (state136.now - state136.front.cycle0) / 2 < leAt state136.co.tcm.bytes (BitVec.toNat state136.src.planbase % 2 ^ 16) 8 + leAt state136.co.tcm.bytes (entryAt (BitVec.toNat state136.src.planbase % 2 ^ 16) (leAt state136.co.tcm.bytes (BitVec.toNat state136.src.planbase % 2 ^ 16 + 12) 2 + BitVec.toNat (src state136 5)) 0) 4) ∧
    (Quiet state137 ∧ Unasked state137 ∧ BitVec.toNat (15 : BitVec 5) < 16 ∧ state137.co.undo = none ∧
     mget state137.front.progs state137.src.prog = some arg14 ∧ arg14.run = some gangRun ∧ gangRun.twins = [] ∧
     state137.th.prog = state137.src.prog ∧
     leAt state137.co.tcm.bytes (BitVec.toNat state137.src.planbase % 2 ^ 16 + 12) 2 + BitVec.toNat (src state137 5) < leAt state137.co.tcm.bytes (BitVec.toNat state137.src.planbase % 2 ^ 16 + 16) 2 ∧
     leAt state137.co.tcm.bytes (entryAt (BitVec.toNat state137.src.planbase % 2 ^ 16) (leAt state137.co.tcm.bytes (BitVec.toNat state137.src.planbase % 2 ^ 16 + 12) 2 + BitVec.toNat (src state137 5)) 6) 1 = 1 ∧
     leAt state137.co.tcm.bytes (entryAt (BitVec.toNat state137.src.planbase % 2 ^ 16) (leAt state137.co.tcm.bytes (BitVec.toNat state137.src.planbase % 2 ^ 16 + 12) 2 + BitVec.toNat (src state137 5)) 15) 1 ≠ 0) ∧
    (Quiet state132 ∧ Unasked state132 ∧ BitVec.toNat (15 : BitVec 5) < 16 ∧ state132.co.undo = none ∧
     mget state132.front.progs state132.src.prog = some arg14 ∧ arg14.run = some gangRun ∧ gangRun.twins = [] ∧
     state132.th.prog = state132.src.prog ∧
     leAt state132.co.tcm.bytes (BitVec.toNat state132.src.planbase % 2 ^ 16 + 12) 2 + BitVec.toNat (src state132 5) < leAt state132.co.tcm.bytes (BitVec.toNat state132.src.planbase % 2 ^ 16 + 16) 2 ∧
     leAt state132.co.tcm.bytes (entryAt (BitVec.toNat state132.src.planbase % 2 ^ 16) (leAt state132.co.tcm.bytes (BitVec.toNat state132.src.planbase % 2 ^ 16 + 12) 2 + BitVec.toNat (src state132 5)) 6) 1 = 1 ∧
     leAt state132.co.tcm.bytes (entryAt (BitVec.toNat state132.src.planbase % 2 ^ 16) (leAt state132.co.tcm.bytes (BitVec.toNat state132.src.planbase % 2 ^ 16 + 12) 2 + BitVec.toNat (src state132 5)) 15) 1 = 0) ∧
    (Quiet state132 ∧ Unasked state132 ∧ Room state132 ∧ BitVec.toNat (15 : BitVec 5) < 16 ∧ state132.co.undo = none ∧
     mget state132.front.progs state132.src.prog = some arg14 ∧ arg14.run = some gangRun ∧ gangRun.twins = [] ∧
     state132.th.prog = state132.src.prog ∧ BitVec.toNat state132.src.gangid / 2 ^ 32 % 2 ^ 16 ≠ 0) ∧
    (Quiet state138 ∧ Replied state138 (Reply.value 2) ∧ BitVec.toNat (15 : BitVec 5) < 16 ∧ state138.co.undo = none ∧
     mget state138.front.progs state138.src.prog = some arg14 ∧ arg14.run = some gangRun ∧ gangRun.twins = [] ∧
     state138.th.prog = state138.src.prog ∧ BitVec.toNat state138.src.gangid / 2 ^ 32 % 2 ^ 16 ≠ 0 ∧ 2 < 2 ^ 64) ∧
    (Quiet state139 ∧ BitVec.toNat (15 : BitVec 5) < 16 ∧ state139.co.undo = none ∧ mget state139.front.progs state139.src.prog = some arg14 ∧
     arg14.run = some gangRun ∧ gangRun.twins = [] ∧ state139.th.prog = state139.src.prog ∧
     BitVec.toNat state139.src.gangid / 2 ^ 32 % 2 ^ 16 = 0) :=
  ⟨⟨by (unfold Quiet NoQueue; decide +kernel), by decide +kernel⟩,
   ⟨by (unfold Quiet NoQueue; decide +kernel), by decide +kernel⟩,
   ⟨by (unfold Quiet NoQueue; decide +kernel), by (constructor <;> decide +kernel), by decide +kernel⟩,
   ⟨by (unfold Quiet NoQueue; decide +kernel), by (constructor <;> decide +kernel), by decide +kernel⟩,
   ⟨by (unfold Quiet NoQueue; decide +kernel), by (constructor <;> decide +kernel), by decide +kernel⟩,
   ⟨by (unfold Quiet NoQueue; decide +kernel), by (constructor <;> decide +kernel), by decide +kernel⟩,
   ⟨by (unfold Quiet NoQueue; decide +kernel), by (constructor <;> decide +kernel), by decide +kernel⟩,
   ⟨by (unfold Quiet NoQueue; decide +kernel), by (constructor <;> decide +kernel), by (unfold Room; decide +kernel), by decide +kernel⟩,
   ⟨by (unfold Quiet NoQueue; decide +kernel), ⟨4, by decide +kernel⟩, by decide +kernel⟩,
   ⟨by (unfold Quiet NoQueue; decide +kernel), by decide +kernel⟩⟩
theorem witness_GroupWordsFollowTheEpisodes :
    (Quiet state140 ∧ BitVec.toNat (15 : BitVec 5) < 16 ∧ (state140.core state140.cid).staked = state140.co.staked ∧ state140.th.group ≠ none) ∧
    (Quiet state141 ∧ BitVec.toNat (15 : BitVec 5) < 16 ∧ (state141.core state141.cid).staked = state141.co.staked ∧ state141.th.group = none ∧
     state141.holdsDomain state141.cid state141.src.prog (BitVec.toNat (src state141 5)) = false) ∧
    (Quiet state142 ∧ BitVec.toNat (15 : BitVec 5) < 16 ∧ (state142.core state142.cid).staked = state142.co.staked ∧ state142.th.group = none ∧
     state142.holdsDomain state142.cid state142.src.prog (BitVec.toNat (src state142 5)) = true) ∧
    (Quiet state140 ∧ BitVec.toNat (15 : BitVec 5) < 16 ∧ (state140.core state140.cid).staked = state140.co.staked ∧ state140.th.group = some 1 ∧
     state140.groupOf state140.cid 1 = some arg15) ∧
    (Quiet state140 ∧ Unasked state140 ∧ BitVec.toNat (15 : BitVec 5) < 16 ∧ (state140.core state140.cid).staked = state140.co.staked ∧
     state140.th.group = some 1 ∧ state140.groupOf state140.cid 1 = some arg15 ∧ arg15.stalls state140.th.who = false) ∧
    (Quiet state140 ∧ Unasked state140 ∧ BitVec.toNat (15 : BitVec 5) < 16 ∧ (state140.core state140.cid).staked = state140.co.staked ∧
     state140.th.group = some 1 ∧ state140.groupOf state140.cid 1 = some arg15 ∧ arg15.stalls state140.th.who = false ∧
     (∀ m ∈ arg15.members, m = state140.th.who ∨ m ∈ arg15.arrived ∨ m ∈ arg15.late) ∧ arg15.members ≠ []) ∧
    (Quiet state143 ∧ Unasked state143 ∧ BitVec.toNat (15 : BitVec 5) < 16 ∧ (state143.core state143.cid).staked = state143.co.staked ∧
     state143.th.group = some 1 ∧ state143.groupOf state143.cid 1 = some arg16 ∧ arg16.stalls state143.th.who = false ∧
     (¬∀ m ∈ arg16.members, m = state143.th.who ∨ m ∈ arg16.arrived ∨ m ∈ arg16.late)) ∧
    (Quiet state144 ∧ Replied state144 (Reply.value 6) ∧ BitVec.toNat (15 : BitVec 5) < 16 ∧
     (state144.core state144.cid).staked = state144.co.staked ∧ 6 < 2 ^ 64) ∧
    (Quiet state145 ∧ Unasked state145 ∧ BitVec.toNat (15 : BitVec 5) < 16 ∧ (state145.core state145.cid).staked = state145.co.staked ∧
     state145.th.group = some 1 ∧ state145.groupOf state145.cid 1 = some arg17 ∧
     (arg17.completed.toNat + 2 ^ 32 - BitVec.toNat (src state145 5) % 2 ^ 32) % 2 ^ 32 < 2 ^ 31) ∧
    (Quiet state146 ∧ Unasked state146 ∧ BitVec.toNat (15 : BitVec 5) < 16 ∧ (state146.core state146.cid).staked = state146.co.staked ∧
     state146.th.group = some 1 ∧ state146.groupOf state146.cid 1 = some arg17 ∧
     2 ^ 31 ≤ (arg17.completed.toNat + 2 ^ 32 - BitVec.toNat (src state146 5) % 2 ^ 32) % 2 ^ 32) ∧
    (Quiet state1 ∧ BitVec.toNat (15 : BitVec 5) < 16 ∧ (state1.core state1.cid).staked = state1.co.staked ∧ state1.th.group = none) ∧
    (Quiet state1 ∧ Unasked state1 ∧ BitVec.toNat (15 : BitVec 5) < 16 ∧ (state1.core state1.cid).staked = state1.co.staked ∧
     state1.th.group = none) :=
  ⟨⟨by (unfold Quiet NoQueue; decide +kernel), by decide +kernel⟩,
   ⟨by (unfold Quiet NoQueue; decide +kernel), by decide +kernel⟩,
   ⟨by (unfold Quiet NoQueue; decide +kernel), by decide +kernel⟩,
   ⟨by (unfold Quiet NoQueue; decide +kernel), by decide +kernel⟩,
   ⟨by (unfold Quiet NoQueue; decide +kernel), by (constructor <;> decide +kernel), by decide +kernel⟩,
   ⟨by (unfold Quiet NoQueue; decide +kernel), by (constructor <;> decide +kernel), by decide +kernel⟩,
   ⟨by (unfold Quiet NoQueue; decide +kernel), by (constructor <;> decide +kernel), by decide +kernel⟩,
   ⟨by (unfold Quiet NoQueue; decide +kernel), ⟨4, by decide +kernel⟩, by decide +kernel⟩,
   ⟨by (unfold Quiet NoQueue; decide +kernel), by (constructor <;> decide +kernel), by decide +kernel⟩,
   ⟨by (unfold Quiet NoQueue; decide +kernel), by (constructor <;> decide +kernel), by decide +kernel⟩,
   ⟨by (unfold Quiet NoQueue; decide +kernel), by decide +kernel⟩,
   ⟨by (unfold Quiet NoQueue; decide +kernel), by (constructor <;> decide +kernel), by decide +kernel⟩⟩
theorem witness_ThreadsStartEndAndMove :
    (Quiet state147 ∧ Unpaired state147 ∧ BitVec.toNat (4 : BitVec 5) < 16 ∧ isCore state147.cid = true ∧ BitVec.toNat (src state147 4) = 65535 ∧
     BitVec.toNat (src state147 5) % 8 = 0 ∧ BitVec.toNat (src state147 5) < 2 ^ 40 ∧ state147.co.staked = none ∧
     state147.store.freeBank state147.cid = some 1 ∧ mget state147.front.progs state147.th.prog = some progA) ∧
    (Quiet state148 ∧ Unpaired state148 ∧ BitVec.toNat (4 : BitVec 5) < 16 ∧ isCore state148.cid = true ∧ BitVec.toNat (src state148 4) = 65535 ∧
     BitVec.toNat (src state148 5) % 8 = 0 ∧ BitVec.toNat (src state148 5) < 2 ^ 40 ∧ state148.store.freeBank state148.cid = none) ∧
    (Quiet state149 ∧ BitVec.toNat (4 : BitVec 5) < 16 ∧ isCore state149.cid = true ∧ state149.th.st ≠ TState.ended ∧ state149.th.group = none ∧
     state149.th.streams = [] ∧ state149.th.stakes = [] ∧ state149.th.kind = Kind.spawned) ∧
    (Quiet state150 ∧ BitVec.toNat (4 : BitVec 5) < 16 ∧ isCore state150.cid = true ∧ state150.tcmCore (src state150 5) = some 0 ∧
     0 = state150.cid) ∧
    (Quiet state151 ∧ BitVec.toNat (4 : BitVec 5) < 16 ∧ isCore state151.cid = true ∧ state151.tcmCore (src state151 5) = some 1 ∧
     1 ≠ state151.cid ∧ state151.src.streams = [] ∧ state151.refusesMove 1 = false ∧ state151.co.egress ≤ state151.now) ∧
    (Quiet state152 ∧ BitVec.toNat (4 : BitVec 5) < 16 ∧ isCore state152.cid = true ∧ state152.tcmCore (src state152 5) = some 1 ∧
     1 ≠ state152.cid ∧ state152.src.streams = [] ∧ state152.refusesMove 1 = true) ∧
    (Quiet state151 ∧ Unasked state151 ∧ BitVec.toNat (4 : BitVec 5) < 16 ∧ isCore state151.cid = true ∧
     state151.tcmCore (src state151 5) = some 1 ∧ 1 ≠ state151.cid ∧ state151.th.hinted = false ∧ state151.src.streams = [] ∧
     state151.refusesMove 1 = false ∧ state151.co.egress ≤ state151.now) ∧
    (Quiet state153 ∧ BitVec.toNat (4 : BitVec 5) < 16 ∧ isCore state153.cid = true ∧ state153.th.hinted = false) ∧
    (Quiet state1 ∧ BitVec.toNat (4 : BitVec 5) < 16 ∧ isCore state1.cid = true ∧ (state1.th.latency = false ∨ state1.otherReady = false)) ∧
    (Quiet state154 ∧ BitVec.toNat (4 : BitVec 5) < 16 ∧ isCore state154.cid = true ∧ (state154.th.latency = false ∨ state154.otherReady = false)) ∧
    (Quiet twoBanks ∧ BitVec.toNat (4 : BitVec 5) < 16 ∧ isCore twoBanks.cid = true ∧ twoBanks.th.latency = true ∧ twoBanks.otherReady = true) ∧
    (Quiet state155 ∧ BitVec.toNat (4 : BitVec 5) < 16 ∧ isCore state155.cid = true ∧ state155.taskRun = some runA ∧
     runA.count + BitVec.toNat (src state155 5) ≤ 4294967295) ∧
    (Quiet state156 ∧ BitVec.toNat (4 : BitVec 5) < 16 ∧ isCore state156.cid = true ∧ state156.taskRun = some runA ∧
     4294967295 < runA.count + BitVec.toNat (src state156 5)) ∧
    (Quiet state1 ∧ BitVec.toNat (4 : BitVec 5) < 16 ∧ isCore state1.cid = true ∧ state1.taskRun = none) :=
  ⟨⟨by (unfold Quiet NoQueue; decide +kernel), by (constructor <;> decide +kernel), by decide +kernel⟩,
   ⟨by (unfold Quiet NoQueue; decide +kernel), by (constructor <;> decide +kernel), by decide +kernel⟩,
   ⟨by (unfold Quiet NoQueue; decide +kernel), by decide +kernel⟩,
   ⟨by (unfold Quiet NoQueue; decide +kernel), by decide +kernel⟩,
   ⟨by (unfold Quiet NoQueue; decide +kernel), by decide +kernel⟩,
   ⟨by (unfold Quiet NoQueue; decide +kernel), by decide +kernel⟩,
   ⟨by (unfold Quiet NoQueue; decide +kernel), by (constructor <;> decide +kernel), by decide +kernel⟩,
   ⟨by (unfold Quiet NoQueue; decide +kernel), by decide +kernel⟩,
   ⟨by (unfold Quiet NoQueue; decide +kernel), by decide +kernel⟩,
   ⟨by (unfold Quiet NoQueue; decide +kernel), by decide +kernel⟩,
   ⟨by (unfold Quiet NoQueue; decide +kernel), by decide +kernel⟩,
   ⟨by (unfold Quiet NoQueue; decide +kernel), by decide +kernel⟩,
   ⟨by (unfold Quiet NoQueue; decide +kernel), by decide +kernel⟩,
   ⟨by (unfold Quiet NoQueue; decide +kernel), by decide +kernel⟩⟩
theorem witness_StakeWordsClaimAndReturnCores :
    (Unpaired state1 ∧ BitVec.toNat (15 : BitVec 5) < 16 ∧ state1.mayStake = false) ∧
    (Unpaired state157 ∧ BitVec.toNat (15 : BitVec 5) < 16 ∧ state157.mayStake = true ∧
     (BitVec.toNat (src state157 5) = 0 ∨ 16 < BitVec.toNat (src state157 5))) ∧
    (Unpaired state158 ∧ Room state158 ∧ BitVec.toNat (15 : BitVec 5) < 16 ∧ state158.mayStake = true ∧ 1 ≤ BitVec.toNat (src state158 5) ∧
     BitVec.toNat (src state158 5) ≤ 16 ∧ BitVec.toNat (src state158 6) < 2 ^ 32 ∧ 0 < 4 ∧ (∀ j < 0, mget state158.th.stakes j ≠ none) ∧
     mget state158.th.stakes 0 = none) ∧
    (Unpaired state159 ∧ Room state159 ∧ BitVec.toNat (15 : BitVec 5) < 16 ∧ state159.mayStake = true ∧ 1 ≤ BitVec.toNat (src state159 5) ∧
     BitVec.toNat (src state159 5) ≤ 16 ∧ BitVec.toNat (src state159 6) < 2 ^ 32 ∧ 3 < 4 ∧ (∀ j < 3, mget state159.th.stakes j ≠ none) ∧
     mget state159.th.stakes 3 = none) ∧
    (Unpaired state160 ∧ BitVec.toNat (15 : BitVec 5) < 16 ∧ state160.mayStake = true ∧ 1 ≤ BitVec.toNat (src state160 5) ∧
     BitVec.toNat (src state160 5) ≤ 16 ∧ BitVec.toNat (src state160 6) < 2 ^ 32 ∧ (∀ k < 4, mget state160.th.stakes k ≠ none)) ∧
    (Unpaired state161 ∧ Quiet state161 ∧ BitVec.toNat (15 : BitVec 5) < 16 ∧
     state161.store.locate state161.th.who = some (Loc.live state161.cid state161.bank) ∧
     mget state161.th.stakes (BitVec.toNat (src state161 5)) = none) ∧
    (Unpaired asking ∧ Quiet asking ∧ BitVec.toNat (15 : BitVec 5) < 16 ∧
     asking.store.locate asking.th.who = some (Loc.live asking.cid asking.bank) ∧ mget asking.th.stakes (BitVec.toNat (src asking 5)) = some [] ∧
     BitVec.toNat (src asking 5) ∈ asking.th.staking) ∧
    (Unpaired state162 ∧ Quiet state162 ∧ BitVec.toNat (15 : BitVec 5) < 16 ∧
     state162.store.locate state162.th.who = some (Loc.live state162.cid state162.bank) ∧
     mget state162.th.stakes (BitVec.toNat (src state162 5)) = some [1] ∧ BitVec.toNat (src state162 5) ∉ state162.th.staking ∧
     1 ≠ state162.cid ∧ (state162.core 1).staked = some state162.th.who ∧ (state162.core 1).banks = []) :=
  ⟨⟨by (constructor <;> decide +kernel), by decide +kernel⟩,
   ⟨by (constructor <;> decide +kernel), by decide +kernel⟩,
   ⟨by (constructor <;> decide +kernel), by (unfold Room; decide +kernel), by decide +kernel⟩,
   ⟨by (constructor <;> decide +kernel), by (unfold Room; decide +kernel), by decide +kernel⟩,
   ⟨by (constructor <;> decide +kernel), by decide +kernel⟩,
   ⟨by (constructor <;> decide +kernel), by (unfold Quiet NoQueue; decide +kernel), by decide +kernel⟩,
   ⟨by (constructor <;> decide +kernel), by (unfold Quiet NoQueue; decide +kernel), by decide +kernel⟩,
   ⟨by (constructor <;> decide +kernel), by (unfold Quiet NoQueue; decide +kernel), by decide +kernel⟩⟩
theorem witness_StructureWordsGoToTheirHome :
    (Quiet state163 ∧ state163.queueRoute (src state163 5) 64 true = Except.ok (state163.homeOf 0 64, 0) ∧ Unasked state163 ∧ Unpaired state163 ∧
     Room state163 ∧ BitVec.toNat (15 : BitVec 5) < 16 ∧ BitVec.toNat (src state163 6) < 2 ^ 25 ∧
     BitVec.toNat (src state163 6) % 2 ^ 16 % 8 = 0 ∧ BitVec.toNat (src state163 6) / 2 ^ 16 % 2 ^ 9 % 8 = 0 ∧
     8 ≤ BitVec.toNat (src state163 6) / 2 ^ 16 % 2 ^ 9 ∧ BitVec.toNat (src state163 6) / 2 ^ 16 % 2 ^ 9 ≤ 256 ∧
     BitVec.toNat (src state163 6) % 2 ^ 16 + BitVec.toNat (src state163 6) / 2 ^ 16 % 2 ^ 9 ≤ 49152) ∧
    (Quiet state164 ∧ state164.queueRoute (src state164 5) 64 true = Except.ok (state164.homeOf 0 64, 0) ∧ BitVec.toNat (15 : BitVec 5) < 16 ∧
     BitVec.toNat (src state164 6) < 2 ^ 25 ∧ BitVec.toNat (src state164 6) % 2 ^ 16 % 8 = 0 ∧
     BitVec.toNat (src state164 6) / 2 ^ 16 % 2 ^ 9 % 8 = 0 ∧ 8 ≤ BitVec.toNat (src state164 6) / 2 ^ 16 % 2 ^ 9 ∧
     BitVec.toNat (src state164 6) / 2 ^ 16 % 2 ^ 9 ≤ 256 ∧
     BitVec.toNat (src state164 6) % 2 ^ 16 + BitVec.toNat (src state164 6) / 2 ^ 16 % 2 ^ 9 ≤ 49152) ∧
    (Quiet state165 ∧ state165.queueRoute (src state165 5) 64 true = Except.ok (state165.homeOf 0 64, 0) ∧
     Replied state165 (Reply.result 0 true [1, 2, 3, 4, 5, 6, 7, 8]) ∧ BitVec.toNat (15 : BitVec 5) < 16 ∧
     BitVec.toNat (src state165 6) < 2 ^ 25 ∧ BitVec.toNat (src state165 6) % 2 ^ 16 % 8 = 0 ∧
     BitVec.toNat (src state165 6) / 2 ^ 16 % 2 ^ 9 % 8 = 0 ∧ 8 ≤ BitVec.toNat (src state165 6) / 2 ^ 16 % 2 ^ 9 ∧
     BitVec.toNat (src state165 6) / 2 ^ 16 % 2 ^ 9 ≤ 256 ∧
     BitVec.toNat (src state165 6) % 2 ^ 16 + BitVec.toNat (src state165 6) / 2 ^ 16 % 2 ^ 9 ≤ 49152) ∧
    (Quiet state166 ∧ state166.queueRoute (src state166 5) 64 true = Except.ok (state166.homeOf 0 64, 0) ∧ Replied state166 (Reply.trap 5 6) ∧
     BitVec.toNat (15 : BitVec 5) < 16 ∧ BitVec.toNat (src state166 6) < 2 ^ 25 ∧ BitVec.toNat (src state166 6) % 2 ^ 16 % 8 = 0 ∧
     BitVec.toNat (src state166 6) / 2 ^ 16 % 2 ^ 9 % 8 = 0 ∧ 8 ≤ BitVec.toNat (src state166 6) / 2 ^ 16 % 2 ^ 9 ∧
     BitVec.toNat (src state166 6) / 2 ^ 16 % 2 ^ 9 ≤ 256 ∧
     BitVec.toNat (src state166 6) % 2 ^ 16 + BitVec.toNat (src state166 6) / 2 ^ 16 % 2 ^ 9 ≤ 49152) ∧
    (Quiet state167 ∧ state167.queueRoute (src state167 5) 64 true = Except.ok (state167.homeOf 0 64, 0) ∧
     Replied state167 (Reply.result 3 true []) ∧ BitVec.toNat (15 : BitVec 5) < 16 ∧ BitVec.toNat (src state167 6) < 2 ^ 25 ∧
     BitVec.toNat (src state167 6) % 2 ^ 16 % 8 = 0 ∧ BitVec.toNat (src state167 6) / 2 ^ 16 % 2 ^ 9 % 8 = 0 ∧
     8 ≤ BitVec.toNat (src state167 6) / 2 ^ 16 % 2 ^ 9 ∧ BitVec.toNat (src state167 6) / 2 ^ 16 % 2 ^ 9 ≤ 256 ∧
     BitVec.toNat (src state167 6) % 2 ^ 16 + BitVec.toNat (src state167 6) / 2 ^ 16 % 2 ^ 9 ≤ 49152) ∧
    (Quiet state167 ∧ state167.queueRoute (src state167 5) 64 true = Except.ok (state167.homeOf 0 64, 0) ∧
     state167.queueRoute (src state167 5) 64 false = Except.ok (state167.homeOf 0 64, 0) ∧ Replied state167 (Reply.result 3 true []) ∧
     BitVec.toNat (15 : BitVec 5) < 16 ∧ BitVec.toNat (src state167 6) < 2 ^ 25 ∧ BitVec.toNat (src state167 6) % 2 ^ 16 % 8 = 0 ∧
     BitVec.toNat (src state167 6) / 2 ^ 16 % 2 ^ 9 % 8 = 0 ∧ 8 ≤ BitVec.toNat (src state167 6) / 2 ^ 16 % 2 ^ 9 ∧
     BitVec.toNat (src state167 6) / 2 ^ 16 % 2 ^ 9 ≤ 256 ∧
     BitVec.toNat (src state167 6) % 2 ^ 16 + BitVec.toNat (src state167 6) / 2 ^ 16 % 2 ^ 9 ≤ 49152) ∧
    (Quiet state168 ∧ state168.queueRoute (src state168 5) 64 false = Except.ok (state168.homeOf 0 64, 0) ∧ Unasked state168 ∧
     BitVec.toNat (15 : BitVec 5) < 16 ∧
     (BitVec.toNat (src state168 6) = 65280 * 2 ^ 48 + BitVec.toNat (src state168 6) % 2 ^ 16 ∧ BitVec.toNat (src state168 6) % 2 ^ 16 % 32 = 0 ∧ BitVec.toNat (src state168 6) % 2 ^ 16 + 32 ≤ 49152) ∧
     queueInitOk (queueInit (BitVec.toNat (src state168 5)) (state168.homeOf 0 64, 0).2 0 (rdBytes state168.co.tcm.bytes (BitVec.toNat (src state168 6) % 2 ^ 16) 32)) (rdBytes state168.co.tcm.bytes (BitVec.toNat (src state168 6) % 2 ^ 16) 32) = false) ∧
    (Quiet state169 ∧ state169.queueRoute (src state169 5) 64 false = Except.ok (state169.homeOf 0 64, 0) ∧ BitVec.toNat (15 : BitVec 5) < 16 ∧
     (BitVec.toNat (src state169 6) = 65280 * 2 ^ 48 + BitVec.toNat (src state169 6) % 2 ^ 16 ∧ BitVec.toNat (src state169 6) % 2 ^ 16 % 32 = 0 ∧ BitVec.toNat (src state169 6) % 2 ^ 16 + 32 ≤ 49152) ∧
     queueInitOk (queueInit (BitVec.toNat (src state169 5)) (state169.homeOf 0 64, 0).2 0 (rdBytes state169.co.tcm.bytes (BitVec.toNat (src state169 6) % 2 ^ 16) 32)) (rdBytes state169.co.tcm.bytes (BitVec.toNat (src state169 6) % 2 ^ 16) 32) = true) ∧
    (Quiet state170 ∧ state170.queueRoute (src state170 5) 64 true = Except.ok (state170.homeOf 0 64, 0) ∧ BitVec.toNat (15 : BitVec 5) < 16 ∧
     (BitVec.toNat (src state170 6) = 65280 * 2 ^ 48 + BitVec.toNat (src state170 6) % 2 ^ 16 ∧ BitVec.toNat (src state170 6) % 2 ^ 16 % 64 = 0 ∧ BitVec.toNat (src state170 6) % 2 ^ 16 + 64 ≤ 49152)) ∧
    (Quiet state37 ∧ state37.queueRoute (src state37 5) 64 false = Except.ok (state37.homeOf 0 64, 0) ∧ BitVec.toNat (15 : BitVec 5) < 16) ∧
    (Quiet state171 ∧ state171.queueRoute (src state171 5) 64 true = Except.ok (state171.homeOf 0 64, 0) ∧ BitVec.toNat (15 : BitVec 5) < 16 ∧
     (BitVec.toNat (src state171 6) = 65280 * 2 ^ 48 + BitVec.toNat (src state171 6) % 2 ^ 16 ∧ BitVec.toNat (src state171 6) % 2 ^ 16 % 32 = 0 ∧ BitVec.toNat (src state171 6) % 2 ^ 16 + 32 ≤ 49152) ∧
     (poolInit (BitVec.toNat (src state171 5)) (state171.homeOf 0 64, 0).2 0 (rdBytes state171.co.tcm.bytes (BitVec.toNat (src state171 6) % 2 ^ 16) 32)).staticOk = true ∧
     leAt state171.co.tcm.bytes (BitVec.toNat (src state171 6) % 2 ^ 16 + 24) 8 = 0) ∧
    (Quiet state37 ∧ state37.queueRoute (src state37 5) 64 true = Except.ok (state37.homeOf 0 64, 0) ∧ BitVec.toNat (15 : BitVec 5) < 16) ∧
    (Quiet state172 ∧ state172.queueRoute (src state172 5) 32 true = Except.ok (state172.homeOf 0 32, 0) ∧ BitVec.toNat (15 : BitVec 5) < 16) ∧
    (Quiet state103 ∧ BitVec.toNat (15 : BitVec 5) < 16 ∧ BitVec.toNat (src state103 5) % 64 ≠ 0) :=
  ⟨⟨by (unfold Quiet NoQueue; decide +kernel), rfl, by (constructor <;> decide +kernel), by (constructor <;> decide +kernel), by (unfold Room; decide +kernel), by decide +kernel⟩,
   ⟨by (unfold Quiet NoQueue; decide +kernel), rfl, by decide +kernel⟩,
   ⟨by (unfold Quiet NoQueue; decide +kernel), rfl, ⟨4, by decide +kernel⟩, by decide +kernel⟩,
   ⟨by (unfold Quiet NoQueue; decide +kernel), rfl, ⟨4, by decide +kernel⟩, by decide +kernel⟩,
   ⟨by (unfold Quiet NoQueue; decide +kernel), rfl, ⟨4, by decide +kernel⟩, by decide +kernel⟩,
   ⟨by (unfold Quiet NoQueue; decide +kernel), rfl, rfl, ⟨4, by decide +kernel⟩, by decide +kernel⟩,
   ⟨by (unfold Quiet NoQueue; decide +kernel), rfl, by (constructor <;> decide +kernel), by decide +kernel⟩,
   ⟨by (unfold Quiet NoQueue; decide +kernel), rfl, by decide +kernel⟩,
   ⟨by (unfold Quiet NoQueue; decide +kernel), rfl, by decide +kernel⟩,
   ⟨by (unfold Quiet NoQueue; decide +kernel), rfl, by decide +kernel⟩,
   ⟨by (unfold Quiet NoQueue; decide +kernel), rfl, by decide +kernel⟩,
   ⟨by (unfold Quiet NoQueue; decide +kernel), rfl, by decide +kernel⟩,
   ⟨by (unfold Quiet NoQueue; decide +kernel), rfl, by decide +kernel⟩,
   ⟨by (unfold Quiet NoQueue; decide +kernel), by decide +kernel⟩⟩
theorem witness_ReflexScheduleRuns :
    (mget state173.front.reflex 0 = some arg18 ∧ arg18.armed = true ∧ arg18.next = 2 ∧ arg18.releaseAt 2 ≤ state173.meridianNow ∧
     arg18.active ≠ none) ∧
    (mget state174.front.reflex 0 = some entryA ∧ entryA.armed = true ∧ entryA.next = 2 ∧ entryA.releaseAt 2 ≤ state174.meridianNow ∧
     entryA.active = none ∧ entryA.waiting = none ∧ rfPair entryA.n = false ∧ rfBank entryA.n < 4 ∧
     mget state174.front.progs (rfProg entryA.n) = some progA ∧ (∀ x ∈ (state174.core (rfCore entryA.n)).banks, x.1 ≠ rfBank entryA.n)) ∧
    (mget state175.front.reflex 0 = some arg19 ∧ arg19.releaseAt 2 + rfDeadline arg19.n < state175.meridianNow ∧ arg19.active = some 2 ∧
     arg19.exited = false ∧ arg19.missed = false) ∧
    (mget state176.front.reflex 0 = some entryA ∧ mget (state176.core 8192).banks 0 = some reflexThread ∧ reflexThread.kind = Kind.reflex 0 2 ∧
     reflexThread.overBudget = false ∧ reflexThread.st = TState.ready ∧ reflexThread.trap0.held = false ∧ reflexThread.trap0.tvec ≠ 0) ∧
    (mget state177.front.reflex 0 = some entryA ∧ (state177.core 8192).shadowWaits 0 = true ∧ mget (state177.core 8192).banks 0 = none ∧
     (state177.core 8192).bankOfSlot 0 ≠ 0 + 4) ∧
    (mget state178.front.reflex 0 = some entryA ∧ 3 ∉ (state178.core 8192).guarded) ∧
    (mget state179.front.reflex 0 = some entryA ∧ mget state179.pairs 4 = some pairA ∧
     State.mateOf { state179 with pairs := mset state179.pairs 4 { pairA with arrived := true, hash := 6 } } pairA = none) ∧
    (mget state180.front.reflex 0 = some entryA ∧ mget state180.pairs 4 = some pairA ∧
     State.mateOf { state180 with pairs := mset state180.pairs 4 { pairA with arrived := true, hash := 5 } } pairA = some (5, { pairA with primary := false, arrived := true }) ∧
     arg20.hash = 5 ∧ (∀ (x : Reflex), mget state180.front.reflex pairA.pair = some x → x.exited = false)) ∧
    (mget state181.front.reflex 0 = some entryA ∧ mget state181.pairs 4 = some arg21 ∧ arg21.twin ≠ none) ∧
    (mget state179.front.reflex 0 = some entryA ∧ mget state179.pairs 4 = some pairA ∧ pairA.twin = none ∧ pairA.pair = 0 ∧ 0 < 64 ∧
     entryA.active = none) ∧
    (mget state182.front.reflex 0 = some arg19 ∧ mget state182.pairs 4 = some pairA ∧ pairA.pair = 0 ∧ 0 < 64 ∧
     state182.front.reflex = [(0, arg19)] ∧ arg19.waiting = none ∧ arg19.armed = true ∧ pairA.twin = none ∧ arg19.active = some 2 ∧
     arg19.reruns = 0) ∧
    (mget state183.front.reflex 0 = some arg22 ∧ mget state183.pairs 4 = some pairA ∧ pairA.pair = 0 ∧ 0 < 64 ∧
     state183.front.reflex = [(0, arg22)] ∧ arg22.waiting = none ∧ arg22.armed = true ∧
     State.mateOf { state183 with pairs := mset state183.pairs 4 { pairA with arrived := true, hash := 6 } } pairA = some (5, { pairA with primary := false, arrived := true }) ∧
     arg20.hash ≠ 6 ∧ arg22.active ≠ none ∧ arg22.reruns ≠ 0 ∧ arg22.missed = false) :=
  by decide +kernel
theorem witness_CoresAndContextsChangeHands :
    (Awake queuedAt ∧ (∃ d, List.find? (fun d => queuedAt.isFree d 1) (queuedAt.maskCores arg24) = some d) ∧
     mget queuedAt.front.progs 1 = some arg23 ∧ arg23.run = some arg24 ∧ queuedAt.front.boot = 5 ∧
     queuedAt.front.standbyNext = queuedAt.front.standby ∧ queuedAt.front.latQueue = [] ∧ queuedAt.front.bulkQueue = [1] ∧
     queuedAt.contexts = [] ∧ arg24.gang = false ∧ queuedAt.heldBack 1 arg23 arg24 = false ∧ queuedAt.stillComing 1 = false) ∧
    (Awake state185 ∧ mget state185.front.progs 1 = some arg25 ∧ arg25.run = some arg26 ∧ arg26.admitted = true ∧ arg26.hasMore = false ∧
     arg26.ended = none ∧ (state185.dropContexts 1).progDrained 1 = true ∧ mget state185.front.windows arg26.window = none) ∧
    ((∀ (i : ℕ), endedThread.kind ≠ Kind.landing i) ∧ isCompute 0 = true ∧ (state186.core 0).banks = [(0, endedThread)] ∧
     endedThread.st = TState.ended ∧ state186.drained endedThread = true ∧ (state186.core 0).clearing = false ∧
     (∀ e ∈ state186.front.reflex, e.2.waiting = none)) ∧
    (Awake state189 ∧ state189.front.standbyNext = 31 ∧ (state189.stakeArmed = false ∨ 4 ≤ maskSize 31) ∧ state189.front.progs = [] ∧
     state189.contexts = [] ∧ state189.front.latQueue = [] ∧ state189.front.bulkQueue = [] ∧
     (∀ i < 32, BitVec.getLsbD (31 : BitVec 32) i = true → state189.front.standby.getLsbD i = true ∨ state189.mayStandBy i = true)) ∧
    (Lives state190 stakeA.who 0 0 (thread [] []) ∧ mget state190.front.stakes 4 = some (stakeA, [], [5]) ∧ Single state190 4 ∧
     (∀ m ∈ state190.moving, m.2.thread.who ≠ stakeA.who) ∧ (∀ e ∈ (state190.core 0).banks, e.2.recvMask = none) ∧
     ((state190.core 0).box 0).length < 8) ∧
    (Awake state192 ∧ (state192.core 0).banks ≠ [] ∧ (∀ e ∈ (state192.core 0).banks, e.2.streams = [])) ∧
    (mget state184.front.progs 1 = some progA ∧ progA.run = some runA ∧ runA.gang = false ∧ runA.admitted = true ∧ runA.ended = none ∧
     runA.next + 1 = runA.count ∧ runA.cores = [0] ∧ runA.grouped = false ∧ state184.takesTasks 1 runA.table 0 = true ∧
     state184.freeBank 0 = some 0) ∧
    (∀ e ∈ state187.front.reflex, e.2.waiting = none) ∧
    (state188.stakeArmed = true ∧ maskSize 7 < 4) ∧
    (state188.stakeArmed = false ∨ 4 ≤ maskSize 15) ∧
    (16 = min stakeA.count (16 - state188.stakeHeld stakeA.who) ∧
     List.take 16 (List.filter (state188.stakeFree stakeA) delibCores) = List.take 16 (List.filter (state188.stakeFree stakeA) delibCores) ∧
     (List.take 16 (List.filter (state188.stakeFree stakeA) delibCores)).length = 16) ∧
    (0 = min arg27.count (16 - state188.stakeHeld arg27.who) ∧ [] = List.take 0 (List.filter (state188.stakeFree arg27) delibCores)) ∧
    (mget state191.front.stakes 4 = some (stakeA, [], [0]) ∧ Single state191 4 ∧ state191.thread? stakeA.who = none ∧ [0] = [0] ∧
     isCompute 0 = true ∧ (state191.core 0).banks = [] ∧ (state191.core 0).runQueue = [] ∧ (state191.core 0).clearing = false) ∧
    (state192.mayVacate 0 = true ∧ state192.streams (clusterOf 0) < 4 ∧ state192.freeRecord (clusterOf 0) = some 0) ∧
    (state192.mayVacate 0 = true ∧ state192.isFree 1 0 = true) ∧
    (mget state193.contexts 4 = some contextA ∧ contextA.moving = true ∧ contextA.dest = none ∧ contextA.record = some 3 ∧
     contextA.stake = none ∧ (∀ i < 17, (state193.core (coreId contextA.cluster i)).queued = [])) ∧
    (mget state194.contexts 4 = some arg28 ∧ arg28.moving = false ∧ arg28.dest = none ∧ state194.isFree 0 arg28.prog = true ∧
     (state194.core 0).table = arg28.core.table ∧ state194.streams arg28.cluster < 4) ∧
    (mget state195.moving 4 = some movingA ∧ movingA.arrived = true ∧ state195.freeBank movingA.dest = some 0) :=
  ⟨⟨awake_of _, ⟨0, by decide +kernel⟩, by decide +kernel⟩,
   ⟨awake_of _, by decide +kernel⟩,
   ⟨by nofun, by decide +kernel⟩,
   ⟨awake_of _, by decide +kernel⟩,
   ⟨by (constructor <;> decide +kernel), by decide +kernel⟩,
   ⟨awake_of _, by decide +kernel⟩,
   by decide +kernel⟩
theorem witness_ArrivalsReachTheirTarget :
    ((∀ (m : Msg), Event.admission ≠ Event.mailboxArrival m) ∧ 0 < 2 ^ 20 ∧ mget state196.kept 4 = some Event.admission) ∧
    (Lives state202 { prog := 1, serial := 1 } 0 0 alarmed ∧ 0 < 2 ^ 20 ∧ alarmed.alarm = some (0, 13) ∧ 0 ≤ state202.meridianNow ∧
     (∀ e ∈ (state202.core 0).banks, e.2.recvMask = none) ∧ ((state202.core 0).box 13).length < 8) ∧
    (Lives state203 { prog := 1, serial := 1 } 0 0 rankA ∧ 0 < 2 ^ 20 ∧ ((rankA.pend.any fun x => x.id == 4) = true) ∧ Single state203 4 ∧
     (state203.core 0).halted = false ∧ (state203.core 0).seized = none) ∧
    (Lives state205 { prog := 1, serial := 1 } 0 0 stepping ∧ 0 < 2 ^ 20 ∧ mget state205.front.progs 1 = some arg14 ∧ arg14.run = some gangRun ∧
     state205.copyNo 1 0 = 0) ∧
    (Lives state205 { prog := 1, serial := 1 } 0 0 stepping ∧ 0 < 2 ^ 20 ∧ mget state205.front.progs 1 = some arg14 ∧ arg14.run = some gangRun ∧
     state205.ranks 1 0 = [(0, 0, stepping)] ∧ stepping.who = { prog := 1, serial := 1 } ∧ stepping.st = TState.blocked Wait.sstep ∧
     (state205.core 0).undo = none ∧ (gangRun.step 0).marked = false) ∧
    ((∀ (q : ℕ), (state207.coreAt q).undoOver = false) ∧ 0 < 2 ^ 20 ∧ mget state207.front.progs 1 = some arg14 ∧ arg14.run = some gangRun ∧
     (gangRun.step 0).replays < 3 ∧ state207.gangDrained 1 0 = true ∧ (gangRun.step 0).last + 352 ≤ state207.cycle) ∧
    (Lives state209 { prog := 1, serial := 1 } 0 0 lost ∧ 0 < 2 ^ 20 ∧ lost.st = TState.blocked Wait.sstep ∧ Wait.sstep.hasTarget = true ∧
     lost.since + 1000000 ≤ state209.now ∧ clusterOf 0 < 34) ∧
    (Awake state210 ∧
     (On state210 (Event.homeControllerOperation 4 none)).activate qopA.home (BitVec.toNat qopA.a) qopA.space = Except.ok (queueA, (On state210 (Event.homeControllerOperation 4 none)).setQueue 32 queueA) ∧
     (((On state210 (Event.homeControllerOperation 4 none)).setQueue 32 queueA).putElem qopA.home queueA qopA.data false = Except.ok (some (match ((On state210 (Event.homeControllerOperation 4 none)).setQueue 32 queueA).putElem 32 queueA [1, 2, 3, 4, 5, 6, 7, 8] false with | Except.ok (some z) => z | x => state210))) ∧
     0 < 2 ^ 20 ∧ mget state210.qops 4 = some qopA ∧ qopA.reply = none ∧ qopA.home ≠ 99 ∧
     (qopA.space = spaceOnChip ∧ On state210 (Event.homeControllerOperation 4 none) = On state210 (Event.homeControllerOperation 4 none) ∨ qopA.space ≠ spaceOnChip ∧ (On state210 (Event.homeControllerOperation 4 none)).translate qopA.home qopA.space (BitVec.toNat qopA.a) Need.atomic = Except.ok (arg32, On state210 (Event.homeControllerOperation 4 none))) ∧
     isPeer qopA.space = false ∧ qopA.op = Instr.enq 4 5 6 ∧ qopA.data.length = queueA.elem) ∧
    (Lives state211 { prog := 1, serial := 1 } 0 0 waiting ∧ 0 < 2 ^ 20 ∧ mget state211.qops 4 = some arg33 ∧
     arg33.who = { prog := 1, serial := 1 } ∧ arg33.copy = none ∧ keepsData arg33.op = false ∧ Single state211 4 ∧
     arg33.reply = some (Reply.result 0 true [])) ∧
    (Lives state199 { prog := 1, serial := 1 } 0 0 waiting ∧ 0 < 2 ^ 20 ∧ grantA.who = { prog := 1, serial := 1 } ∧ grantA.data = [] ∧
     waiting.waitsFor = some 4 ∧ Single state199 4 ∧ (state199.core 0).seized = none) ∧
    (Awake state214 ∧ 0 < 2 ^ 20 ∧ (state214.home 0).queue? (65284 * 2 ^ 48) 65281 0 = some arg34 ∧ arg34.shadow = true ∧ arg34.producers = [] ∧
     isPeer 65281 = true) ∧
    (0 < 2 ^ 20 ∧ msgA.dst % 256 ≠ 31 ∧ msgA.dst = 0 ∧ msgA.level = Level.service ∧ msgA.mb < 16 ∧ msgA.mb ≠ 1 ∧ msgA.mb ≠ 14 ∧
     (state197.core 0).seized = none ∧ state197.departedFrom 0 = 0 ∧ state197.behind msgA state197.nextId = false ∧
     (state197.core 0).receiver msgA.mb = none ∧ ((state197.core 0).box msgA.mb).length < 8) ∧
    (0 < 2 ^ 20 ∧ msgA.dst % 256 ≠ 31 ∧ msgA.dst = 0 ∧ msgA.level = Level.service ∧ msgA.mb < 16 ∧ msgA.mb ≠ 1 ∧ msgA.mb ≠ 14 ∧
     (state198.core 0).seized = none ∧ state198.departedFrom 0 = 0 ∧ state198.behind msgA state198.nextId = false ∧
     (state198.core 0).receiver msgA.mb = none ∧ 8 ≤ ((state198.core 0).box msgA.mb).length ∧ msgA.mb ≠ 0 ∧ msgA.form ≠ 3) ∧
    (0 < 2 ^ 20 ∧ Single state199 4 ∧ state199.locateAny { prog := 1, serial := 1 } = some (0, 0) ∧ mget (state199.core 0).banks 0 = some waiting) ∧
    (0 < 2 ^ 20 ∧ mget state200.contexts 4 = some (savedA 31) ∧ state200.locate { prog := 1, serial := 1 } = some (Loc.saved 4 0) ∧
     (savedA 31).moving = false ∧ (savedA 31).arrivals.length < 32) ∧
    (0 < 2 ^ 20 ∧ mget state201.contexts 4 = some (savedA 32) ∧ state201.locate { prog := 1, serial := 1 } = some (Loc.saved 4 0) ∧
     (savedA 32).moving = false ∧ 32 ≤ (savedA 32).arrivals.length ∧ 1 ≠ 2 ∧ 1 ≠ 3) ∧
    (0 < 2 ^ 20 ∧ state203.placeOf xmsgA.prog xmsgA.dst = 0 ∧ (state203.core 0).seized = none ∧
     (List.find? (fun e => e.2.prog == xmsgA.prog && e.2.kind.isGang) (state203.core 0).banks = some (0, rankA)) ∧
     mget (state203.core 0).banks 0 = some rankA ∧ rdN (state203.core 0).tcm.bytes (rankA.planEntry xmsgA.index + 4) 2 = xmsgA.src ∧
     rdN (state203.core 0).tcm.bytes (rankA.planEntry xmsgA.index + 15) 1 = 0) ∧
    (0 < 2 ^ 20 ∧ state204.placeOf xmsgA.prog xmsgA.dst = 0 ∧ (state204.core 0).seized = none ∧
     (List.find? (fun e => e.2.prog == xmsgA.prog && e.2.kind.isGang) (state204.core 0).banks = none)) ∧
    (0 < 2 ^ 20 ∧ mget state206.front.progs 1 = some arg29 ∧ arg29.run = some arg30 ∧ 3 ≤ (arg30.step 0).replays ∧ arg30.ended = none) ∧
    (0 < 2 ^ 20 ∧ probeA.auto = false ∧ probeA.core = 0 ∧ probeA.found ≠ [] ∧ probeA.at_ = probeA.start ∧
     mget (state208.core 0).copies probeA.copy = some arg31 ∧ arg31.work = CopyWork.probe 0 ∧ arg31.who = probeA.who) ∧
    (0 < 2 ^ 20 ∧ (state199.core 0).seq = [] ∧ (state199.core 0).vloop = none ∧ (state199.core 0).holds 1 = true) ∧
    (0 < 2 ^ 20 ∧ (state199.core 0).seq = [] ∧ (state199.core 0).vloop = none ∧ (state199.core 0).holds 2 = false) ∧
    (0 < 2 ^ 20 ∧ (∃ q ∈ (state212.home 32).queues, ∃ x ∈ q.producers ++ q.consumers, x.ticket = 3 ∧ x.who = { prog := 1, serial := 1 })) ∧
    (0 < 2 ^ 20 ∧ (state213.home 0).waiters - List.length (state213.home 0).spilled < 256) :=
  ⟨⟨by nofun, by decide +kernel⟩,
   ⟨by (constructor <;> decide +kernel), by decide +kernel⟩,
   ⟨by (constructor <;> decide +kernel), by decide +kernel⟩,
   ⟨by (constructor <;> decide +kernel), by decide +kernel⟩,
   ⟨by (constructor <;> decide +kernel), by decide +kernel⟩,
   ⟨by (intro q; exact undoless q), by decide +kernel⟩,
   ⟨by (constructor <;> decide +kernel), by decide +kernel⟩,
   ⟨awake_of _, rfl, rfl, by decide +kernel⟩,
   ⟨by (constructor <;> decide +kernel), by decide +kernel⟩,
   ⟨by (constructor <;> decide +kernel), by decide +kernel⟩,
   ⟨awake_of _, by decide +kernel⟩,
   by decide +kernel⟩
theorem witness_MemoryEventsServeTheirAccess :
    ((state215.home (state215.homeOf accA.space (accA.todo.headD 0))).power = Power.gated ∧ 0 < 2 ^ 20 ∧ mget state215.accs 4 = some accA ∧
     accA.forWhom = For.word 0 ∧ accA.todo = [accA.todo.headD 0]) ∧
    ((state216.home (state216.homeOf accA.space (accA.todo.headD 0))).power = Power.awake ∧
     state216.tlbHit (state216.homeOf accA.space (accA.todo.headD 0)) accA.space (accA.todo.headD 0) = none ∧ 0 < 2 ^ 20 ∧
     mget state216.accs 4 = some accA ∧ accA.forWhom = For.word 0 ∧ accA.todo = [accA.todo.headD 0] ∧ isLocal accA.space = true) ∧
    ((state217.home (state217.homeOf accA.space (accA.todo.headD 0))).power = Power.awake ∧
     state217.tlbHit (state217.homeOf accA.space (accA.todo.headD 0)) accA.space (accA.todo.headD 0) = some tlbA ∧ 0 < 2 ^ 20 ∧
     mget state217.accs 4 = some accA ∧ accA.forWhom = For.word 0 ∧ accA.todo = [accA.todo.headD 0] ∧ isLocal accA.space = true ∧
     tlbA.permits accA.op.need = true ∧ accA.op = MemOp.probe true ∧ onChip (accA.todo.headD 0) = false) ∧
    (Lives state216 { prog := 1, serial := 1 } 0 0 waiting ∧ 0 < 2 ^ 20 ∧ mget state216.accs 4 = some accA ∧ accA.forWhom = For.word 0 ∧
     accA.todo = [accA.todo.headD 0] ∧ accA.who = { prog := 1, serial := 1 } ∧ Single state216 4 ∧ accA.op = MemOp.probe true) ∧
    (Lives state221 { prog := 1, serial := 1 } 0 0 waiting ∧ 0 < 2 ^ 20 ∧ mget state221.accs 4 = some arg35 ∧ arg35.forWhom = For.word 0 ∧
     arg35.todo = [arg35.todo.headD 0] ∧ arg35.who = { prog := 1, serial := 1 } ∧ Single state221 4 ∧
     state221.isUnacked { prog := 1, serial := 1 } 4 = false) ∧
    (Lives state216 { prog := 1, serial := 1 } 0 0 waiting ∧ 0 < 2 ^ 20 ∧ mget state216.accs 4 = some accA ∧ accA.forWhom = For.word 0 ∧
     accA.todo = [accA.todo.headD 0] ∧ accA.who = { prog := 1, serial := 1 } ∧ Single state216 4 ∧ faultA.of_ = FaultOf.access 4 ∧
     faultA.who = { prog := 1, serial := 1 } ∧ faultA.core = 0 ∧ waiting.fault = none) ∧
    ((∀ (reg : ℕ), copyFault.work ≠ CopyWork.stream reg) ∧ 0 < 2 ^ 20 ∧ (state225.core 0).faultOf 0 2 = some (copyFaultA, some 3) ∧
     (state225.core 0).seized = none ∧ some 3 = some 3 ∧ mget (state225.core 0).copies 3 = some copyFault) ∧
    ((state218.home (state218.homeOf 0 64)).power = Power.awake ∧ 0 < 2 ^ 20 ∧ isLocal 0 = true ∧ spaceValid (state218.spaceEntry 0) = true ∧
     state218.walk 0 64 = Walked.leaf tlbA) ∧
    ((state231.home (state231.homeOf 0 64)).power = Power.awake ∧ 0 < 2 ^ 20 ∧ isLocal 0 = true ∧ spaceValid (state231.spaceEntry 0) = true ∧
     state231.walk 0 64 = Walked.fail 0) ∧
    ((state232.home (state232.homeOf 0 64)).power = Power.awake ∧ 0 < 2 ^ 20 ∧ (∀ e ∈ state232.front.lent, e.2 ≤ state232.meridianNow)) ∧
    (0 < 2 ^ 20 ∧ mget state216.accs 4 = some accA ∧ accA.forWhom = For.word 0 ∧ accA.todo = [accA.todo.headD 0] ∧
     state216.walk accA.space (accA.todo.headD 0) = Walked.fail 0) ∧
    (0 < 2 ^ 20 ∧ mget state218.accs 4 = some accA ∧ accA.forWhom = For.word 0 ∧ accA.todo = [accA.todo.headD 0] ∧
     state218.walk accA.space (accA.todo.headD 0) = Walked.leaf tlbA ∧ tlbA.permits accA.op.need = true ∧ accA.op = MemOp.probe true ∧
     onChip (accA.todo.headD 0) = false) ∧
    (0 < 2 ^ 20 ∧ mget state219.accs 4 = some (padAcc (MemOp.write [1, 2] [])) ∧ (padAcc (MemOp.write [1, 2] [])).forWhom = For.word 0 ∧
     (padAcc (MemOp.write [1, 2] [])).todo = [(padAcc (MemOp.write [1, 2] [])).todo.headD 0] ∧
     window ((padAcc (MemOp.write [1, 2] [])).todo.headD 0) = some (Win.pad 1 0) ∧ state219.padBusy 1 = false ∧
     (padAcc (MemOp.write [1, 2] [])).op = MemOp.write [1, 2] []) ∧
    (0 < 2 ^ 20 ∧ mget state220.accs 4 = some (padAcc MemOp.read) ∧ (padAcc MemOp.read).forWhom = For.word 0 ∧
     (padAcc MemOp.read).todo = [(padAcc MemOp.read).todo.headD 0] ∧ window ((padAcc MemOp.read).todo.headD 0) = some (Win.pad 1 0) ∧
     state220.padBusy 1 = false ∧ (padAcc MemOp.read).op = MemOp.read ∧ (state220.pad 1).poisoned 0 (padAcc MemOp.read).size = false) ∧
    (0 < 2 ^ 20 ∧ mget state222.accs 4 = some arg36 ∧ state222.locateAny arg36.who = some (0, 0) ∧ mget (state222.core 0).banks 0 = some waiting) ∧
    (0 < 2 ^ 20 ∧ mget state223.accs 4 = some arg37) ∧
    (0 < 2 ^ 20 ∧ (state224.core 0).faultOf 0 2 = some (faultA, none)) ∧
    (0 < 2 ^ 20 ∧ (state224.core 0).faultOf 0 2 = some (faultA, none) ∧ (state224.core 0).seized = none) ∧
    (0 < 2 ^ 20 ∧ (∀ e ∈ (state216.core (coreId 0 16)).overflow, e.1 ≠ state216.lineKey accA) ∧
     (state216.core (coreId 0 16)).overflow.length < 2048) ∧
    (31 < 2 ^ 20 ∧ 31 < 32 ∧ state216.clusterIdle 31 = true ∧ (state216.home 31).power = Power.awake ∧ (state216.home 31).queues = [] ∧
     (state216.home 31).pools = [] ∧ (state216.home 31).spilled = [] ∧ (∀ l ∈ (state216.home 31).lines, l.overflowed = false)) ∧
    (31 < 2 ^ 20 ∧ (state226.home 31).power = Power.gated) ∧
    (5 < 2 ^ 20 ∧ state228.front.rootQ = [RootOp.shoot shootA] ∧ 5 < 32 ∧ (state228.home 5).power = Power.awake) ∧
    (5 < 2 ^ 20 ∧ state229.front.rootQ = [RootOp.shoot shootA]) ∧
    (5 < 2 ^ 20 ∧ mget state230.front.regionReqs 4 = some regionReqA ∧
     regionHeld ((mget (state230.home 32).regions regionReqA.index).getD { }) regionReqA.tenant = false) :=
  ⟨⟨by (have h := homeOf_lt state215 accA.space (accA.todo.headD 0); revert h; generalize state215.homeOf accA.space (accA.todo.headD 0) = n; revert n; decide +kernel), by decide +kernel⟩,
   ⟨by (have h := homeOf_lt state216 accA.space (accA.todo.headD 0); revert h; generalize state216.homeOf accA.space (accA.todo.headD 0) = n; revert n; decide +kernel), by (have h := homeOf_lt state216 accA.space (accA.todo.headD 0); revert h; generalize state216.homeOf accA.space (accA.todo.headD 0) = n; revert n; decide +kernel), by decide +kernel⟩,
   ⟨by (have h := homeOf_lt state217 accA.space (accA.todo.headD 0); revert h; generalize state217.homeOf accA.space (accA.todo.headD 0) = n; revert n; decide +kernel), by (have h := homeOf_lt state217 accA.space (accA.todo.headD 0); revert h; generalize state217.homeOf accA.space (accA.todo.headD 0) = n; revert n; decide +kernel), by decide +kernel⟩,
   ⟨by (constructor <;> decide +kernel), by decide +kernel⟩,
   ⟨by (constructor <;> decide +kernel), by decide +kernel⟩,
   ⟨by (constructor <;> decide +kernel), by decide +kernel⟩,
   ⟨by nofun, by decide +kernel⟩,
   ⟨awake_of _ (by decide +kernel) _, by decide +kernel⟩,
   ⟨awake_of _ (by decide +kernel) _, by decide +kernel⟩,
   ⟨awake_of _ (by decide +kernel) _, by decide +kernel⟩,
   by decide +kernel⟩
theorem witness_CopyEnginesMoveOn :
    ((On state234 (Event.copySectorReply 0 3)).engGather 0 (linearA 64) ((linearA 64).reads (linearA 64).sectors) = Except.ok (rdBytes (state234.core 0).tcm.bytes 0 32, false, On state234 (Event.copySectorReply 0 3)) ∧
     (On state234 (Event.copySectorReply 0 3)).engScatter 0 (linearA 64) ((linearA 64).writes (linearA 64).sectors (rdBytes (state234.core 0).tcm.bytes 0 32)) = Except.ok (scattered (On state234 (Event.copySectorReply 0 3)) (linearA 64) (rdBytes (state234.core 0).tcm.bytes 0 32)) ∧
     0 < 2 ^ 20 ∧ mget (state234.core 0).copies 3 = some (linearA 64) ∧ (state234.core 0).engineRuns = true ∧ (linearA 64).state = 0 ∧
     (linearA 64).busy = false ∧ (linearA 64).waitPair = none ∧ state234.pairOf 0 (linearA 64).kind_ = none ∧
     (linearA 64).work = CopyWork.linear (65280 * 2 ^ 48) (65280 * 2 ^ 48 + 64) ∧ (linearA 64).sectors < (linearA 64).units ∧
     (On state234 (Event.copySectorReply 0 3)).pairOf 0 (linearA 64).kind_ = none) ∧
    ((On state235 (Event.copySectorReply 0 3)).engGather 0 (linearA 8) ((linearA 8).reads (linearA 8).sectors) = Except.ok (rdBytes (state235.core 0).tcm.bytes 0 8, false, On state235 (Event.copySectorReply 0 3)) ∧
     (On state235 (Event.copySectorReply 0 3)).engScatter 0 (linearA 8) ((linearA 8).writes (linearA 8).sectors (rdBytes (state235.core 0).tcm.bytes 0 8)) = Except.ok (scattered (On state235 (Event.copySectorReply 0 3)) (linearA 8) (rdBytes (state235.core 0).tcm.bytes 0 8)) ∧
     0 < 2 ^ 20 ∧ mget (state235.core 0).copies 3 = some (linearA 8) ∧ (state235.core 0).engineRuns = true ∧ (linearA 8).state = 0 ∧
     (linearA 8).busy = false ∧ (linearA 8).waitPair = none ∧ state235.pairOf 0 (linearA 8).kind_ = none ∧
     (linearA 8).work = CopyWork.linear (65280 * 2 ^ 48) (65280 * 2 ^ 48 + 64) ∧ (linearA 8).sectors < (linearA 8).units ∧
     (On state235 (Event.copySectorReply 0 3)).pairOf 0 (linearA 8).kind_ = none) ∧
    ((On state236 (Event.streamRefill 0 3)).engRead 0 streamCopy streamCopy.space 2 (stripOffset streamA.image streamA.n) 16 = Except.ok (rdBytes (state236.core 0).tcm.bytes 256 16, false, On state236 (Event.streamRefill 0 3)) ∧
     0 < 2 ^ 20 ∧ mget (state236.core 0).copies 3 = some streamCopy ∧ (state236.core 0).engineRuns = true ∧ streamCopy.state = 0 ∧
     streamCopy.busy = false ∧ streamCopy.waitPair = none ∧ state236.pairOf 0 streamCopy.kind_ = none ∧ streamCopy.work = CopyWork.stream 20 ∧
     (state236.core 0).streamBank streamCopy.who = some 0 ∧ mget (state236.core 0).banks 0 = some streamThread ∧
     streamThread.stream? 20 = some streamA ∧ streamA.killed = false ∧ streamA.write = false ∧ streamA.strips.length < 4 ∧
     streamA.n < stripTotal streamA.image ∧ (state236.core 0).seq = [] ∧ (state236.core 0).vloop = none) ∧
    (Awake state237 ∧
     ((On state237 (Event.cpyqRetry 0 3)).setCopy 0 3 { kind := elementsA.kind, state := elementsA.state, slot := elementsA.slot, who := elementsA.who, space := elementsA.space, tenant := elementsA.tenant, level := elementsA.level, faultId := elementsA.faultId, src := elementsA.src, dst := elementsA.dst, length := elementsA.length, sectors := elementsA.sectors, work := elementsA.work, entry := elementsA.entry, status := elementsA.status, a := elementsA.a, b := elementsA.b, c := elementsA.c, kind_ := elementsA.kind_, number := elementsA.number, waitPair := elementsA.waitPair, fault := elementsA.fault }).engRead 0 { kind := elementsA.kind, state := elementsA.state, slot := elementsA.slot, who := elementsA.who, space := elementsA.space, tenant := elementsA.tenant, level := elementsA.level, faultId := elementsA.faultId, src := elementsA.src, dst := elementsA.dst, length := elementsA.length, sectors := elementsA.sectors, work := elementsA.work, entry := elementsA.entry, status := elementsA.status, a := elementsA.a, b := elementsA.b, c := elementsA.c, kind_ := elementsA.kind_, number := elementsA.number, waitPair := elementsA.waitPair, fault := elementsA.fault } elementsA.space (sectorFuel 8) ((65280 * 2 ^ 48 + elementsA.sectors * 8) % 2 ^ 64) 8 = Except.ok (rdBytes (state237.core 0).tcm.bytes 0 8, false, (On state237 (Event.cpyqRetry 0 3)).setCopy 0 3 arg38) ∧
     0 < 2 ^ 20 ∧ mget (state237.core 0).copies 3 = some elementsA ∧ (state237.core 0).engineRuns = true ∧ elementsA.state = 0 ∧
     elementsA.work = CopyWork.elements (65280 * 2 ^ 48) 64 8 ∧ elementsA.sectors < elementsA.length ∧
     ((On state237 (Event.cpyqRetry 0 3)).setCopy 0 3 arg38).pairOf 0 elementsA.kind_ = none) ∧
    (Lives state241 arg40.who 0 0 (thread [] []) ∧ 0 < 2 ^ 20 ∧ mget (state241.core 0).copies 3 = some arg40 ∧ arg40.state = 2 ∧
     arg40.work = CopyWork.refused ∧ (state241.core 0).seized = none ∧ (state241.core 0).landingOf 3 = false ∧
     (∀ e ∈ (state241.core 0).banks, e.2.recvMask = none) ∧ ((state241.core 0).box 0).length < 8) ∧
    (0 < 2 ^ 20 ∧ mget (state238.core 0).copies 3 = some landingA ∧ (state238.core 0).landing = [(3, 64, 5, 9)] ∧
     landingA.work = CopyWork.handler 0 0 256 64 ∧ mget (state238.core 0).banks 3 = none ∧ mget (state238.core 0).running 3 = none ∧
     (state238.core 0).halted = false ∧ (state238.core 0).seized = none) ∧
    (0 < 2 ^ 20 ∧ mget (state239.core 0).copies 3 = some publishA ∧ publishA.work = CopyWork.publish 1 0 (some 2) ∧ publishA.state = 0 ∧
     publishA.waitPair = none ∧ mget state239.lxm 1 = some slotA ∧ slotA.mirrored = false) ∧
    (0 < 2 ^ 20 ∧ mget (state240.core 0).copies 3 = some fetchA ∧ fetchA.work = CopyWork.fetch 1 0 none (some 2) ∧
     mget state240.lxm 1 = some arg39) :=
  ⟨⟨rfl, rfl, by decide +kernel⟩,
   ⟨rfl, rfl, by decide +kernel⟩,
   ⟨rfl, by decide +kernel⟩,
   ⟨awake_of _, rfl, by decide +kernel⟩,
   ⟨by (constructor <;> decide +kernel), by decide +kernel⟩,
   by decide +kernel⟩
theorem witness_HostAccessesAndCommandsTakeEffect :
    (Awake state242 ∧ state242.hostUp = true ∧ readOnlyAt 8 = true) ∧
    (Awake state242 ∧ state242.hostUp = true ∧ 8 ≠ 0) ∧
    (Awake state242 ∧ state242.hostUp = true ∧ 2049 ≠ 2048 ∧ 2049 ≠ 4088) ∧
    (Awake state243 ∧
     (On state243 (Event.hostQueueEnqueue 0 0 [1, 2, 3, 4, 5, 6, 7, 8])).activate (state243.placeOfWindow windowA).1 windowA.qcb (state243.placeOfWindow windowA).2 = Except.ok (queueA, (On state243 (Event.hostQueueEnqueue 0 0 [1, 2, 3, 4, 5, 6, 7, 8])).setQueue 32 queueA) ∧
     ((On state243 (Event.hostQueueEnqueue 0 0 [1, 2, 3, 4, 5, 6, 7, 8])).setQueue 32 queueA).putElem (state243.placeOfWindow windowA).1 queueA [1, 2, 3, 4, 5, 6, 7, 8] false = Except.ok (some (putTo ((On state243 (Event.hostQueueEnqueue 0 0 [1, 2, 3, 4, 5, 6, 7, 8])).setQueue 32 queueA) queueA [1, 2, 3, 4, 5, 6, 7, 8])) ∧
     state243.hostUp = true ∧ mget state243.front.windows 0 = some windowA ∧ queueA.elem = [1, 2, 3, 4, 5, 6, 7, 8].length) ∧
    (Awake state244 ∧
     (On state244 (Event.hostQueueEnqueue 0 0 [1, 2, 3, 4, 5, 6, 7, 8])).activate (state244.placeOfWindow windowA).1 windowA.qcb (state244.placeOfWindow windowA).2 = Except.ok (arg41, (On state244 (Event.hostQueueEnqueue 0 0 [1, 2, 3, 4, 5, 6, 7, 8])).setQueue 32 arg41) ∧
     ((On state244 (Event.hostQueueEnqueue 0 0 [1, 2, 3, 4, 5, 6, 7, 8])).setQueue 32 arg41).putElem (state244.placeOfWindow windowA).1 arg41 [1, 2, 3, 4, 5, 6, 7, 8] false = Except.ok none ∧
     state244.hostUp = true ∧ mget state244.front.windows 0 = some windowA ∧ arg41.elem = [1, 2, 3, 4, 5, 6, 7, 8].length ∧
     mget ((On state244 (Event.hostQueueEnqueue 0 0 [1, 2, 3, 4, 5, 6, 7, 8])).setQueue 32 arg41).front.windows 0 = some windowA) ∧
    (Awake state245 ∧
     (On state245 (Event.hostQueueDequeue 0 2048 8)).activate (state245.placeOfWindow windowA).1 windowA.qcb (state245.placeOfWindow windowA).2 = Except.ok (arg42, (On state245 (Event.hostQueueDequeue 0 2048 8)).setQueue 32 arg42) ∧
     ((On state245 (Event.hostQueueDequeue 0 2048 8)).setQueue 32 arg42).takeElem (state245.placeOfWindow windowA).1 arg42 = Except.ok (some ((taken ((On state245 (Event.hostQueueDequeue 0 2048 8)).setQueue 32 arg42) arg42).1, (taken ((On state245 (Event.hostQueueDequeue 0 2048 8)).setQueue 32 arg42) arg42).2)) ∧
     state245.hostUp = true ∧ mget state245.front.windows 0 = some windowA ∧ arg42.elem = 8) ∧
    (Awake state243 ∧
     (On state243 (Event.hostQueueDequeue 0 2048 8)).activate (state243.placeOfWindow windowA).1 windowA.qcb (state243.placeOfWindow windowA).2 = Except.ok (queueA, (On state243 (Event.hostQueueDequeue 0 2048 8)).setQueue 32 queueA) ∧
     ((On state243 (Event.hostQueueDequeue 0 2048 8)).setQueue 32 queueA).takeElem (state243.placeOfWindow windowA).1 queueA = Except.ok none ∧
     state243.hostUp = true ∧ mget state243.front.windows 0 = some windowA ∧ queueA.elem = 8) ∧
    (Awake state246 ∧ state246.hostUp = true ∧ mget state246.lxm 1 = some arg43 ∧ arg43.hostLatch = none ∧ arg43.pick none = some 1 ∧
     arg43.reads < arg43.readers) ∧
    (Awake state247 ∧ state247.hostUp = true ∧ mget state247.lxm 1 = some slotA ∧ 8 + [1, 2, 3].length ≤ slotA.size ∧ slotA.hostClaim = none ∧
     slotA.claim = some (slotA.claim.getD 9)) ∧
    (Awake state248 ∧ state248.hostUp = true ∧ mget state248.lxm 1 = some arg44 ∧ arg44.hostClaim = some 2 ∧ arg44.mirrored = false) ∧
    (Awake state249 ∧ state249.hostUp = true ∧ mget state249.lxm 1 = some arg45 ∧ arg45.hostLatch = some 2 ∧ arg45.hostClaim = none) ∧
    (Awake state242 ∧ state242.hostUp = true ∧ state242.front.bar2 = none) ∧
    (Awake bar2At ∧
     (On bar2At (Event.hostBar2Access true 0 8 [1, 2, 3])).wrAny barA.space barA.tenant (barA.offset + 0) [1, 2, 3] = Reached.got () (dataOf [1, 2, 3] (On bar2At (Event.hostBar2Access true 0 8 [1, 2, 3]))) ∧
     bar2At.hostUp = true ∧ bar2At.front.bar2 = some barA ∧ 0 + [1, 2, 3].length ≤ barA.length) ∧
    (Awake bar2At ∧
     (On bar2At (Event.hostBar2Access false 0 8 [])).rdAny barA.space barA.tenant (barA.offset + 0) 8 = Reached.got (readAt (On bar2At (Event.hostBar2Access false 0 8 [])) 8).1 (readAt (On bar2At (Event.hostBar2Access false 0 8 [])) 8).2 ∧
     bar2At.hostUp = true ∧ bar2At.front.bar2 = some barA ∧ 0 + 8 ≤ barA.length) ∧
    (Awake state250 ∧ state250.front.boot = 5 ∧ state250.front.windows = [(0, windowA)] ∧ state250.servable 0 windowA = true ∧
     windowA.served < windowA.weight ∧
     (On state250 Event.commandDispatch).headOf 0 windowA = some ((headIn (On state250 Event.commandDispatch)).1, (headIn (On state250 Event.commandDispatch)).2) ∧
     (bit (field (headIn (On state250 Event.commandDispatch)).1 1 1) 0 = false ∨ mget (headIn (On state250 Event.commandDispatch)).2.front.freed 0 = some (headIn (On state250 Event.commandDispatch)).1) ∧
     commandOf (headIn (On state250 Event.commandDispatch)).1 = some (Event.load (headIn (On state250 Event.commandDispatch)).1) ∧
     (headIn (On state250 Event.commandDispatch)).2.dropHead windowA = some (((headIn (On state250 Event.commandDispatch)).2.dropHead windowA).getD state250)) ∧
    (Awake state251 ∧ mget state251.front.progs (field launchPkt 32 2) = some arg46 ∧ (launchPkt.tenant = 0 ∨ launchPkt.tenant = arg46.tenant) ∧
     arg46.run ≠ none) ∧
    (Awake state252 ∧ mget state252.front.progs (field launchPkt 32 2) = some arg47 ∧ (launchPkt.tenant = 0 ∨ launchPkt.tenant = arg47.tenant) ∧
     arg47.run = none ∧ launchOk launchPkt arg47 = true ∧ (runOf launchPkt arg47 state252.front.orders).paired = false ∧
     (runOf launchPkt arg47 state252.front.orders).planOk arg47 = true) ∧
    (Awake armAt ∧
     (On armAt (Event.arm (pkt 0 [(0, 3), (32, 64)]))).rdAny (field (pkt 0 [(0, 3), (32, 64)]) 40 2) (pkt 0 [(0, 3), (32, 64)]).tenant (field (pkt 0 [(0, 3), (32, 64)]) 32 8) 64 = Reached.got armBytes (readAt (On armAt (Event.arm (pkt 0 [(0, 3), (32, 64)]))) 64).2 ∧
     ownObject (pkt 0 [(0, 3), (32, 64)]) (some (rfTenant (ofBytes armBytes))) = true ∧
     (readAt (On armAt (Event.arm (pkt 0 [(0, 3), (32, 64)]))) 64).2.mayArm (ofBytes armBytes) = true ∧
     (readAt (On armAt (Event.arm (pkt 0 [(0, 3), (32, 64)]))) 64).2.freeEntry = some 0) ∧
    (Awake armAt ∧ 0 < rfPeriod (BitVec.ofNat 512 (ofBytes armBytes)).toNat) ∧
    (Awake state178 ∧ mget state178.front.reflex (field (pkt 0 [(0, 4)]) 32 1) = some entryA ∧
     ownObject (pkt 0 [(0, 4)]) (some (rfTenant entryA.n)) = true) ∧
    (Awake paged ∧
     (On paged (Event.signal (pkt 0 [(0, 5), (32, 64), (48, 7)]))).wrAny (field (pkt 0 [(0, 5), (32, 64), (48, 7)]) 40 2) (pkt 0 [(0, 5), (32, 64), (48, 7)]).tenant (field (pkt 0 [(0, 5), (32, 64), (48, 7)]) 32 8) (toBytes 8 (field (pkt 0 [(0, 5), (32, 64), (48, 7)]) 48 8)) = Reached.got () (dataOf (toBytes 8 7) (On paged (Event.signal (pkt 0 [(0, 5), (32, 64), (48, 7)]))))) ∧
    (Awake state242 ∧ mapqOk (pkt 0 [(0, 6), (32, 3), (33, 3), (34, 5), (40, 64), (48, 2)]) = true ∧
     isLocal (field (pkt 0 [(0, 6), (32, 3), (33, 3), (34, 5), (40, 64), (48, 2)]) 48 2) = true ∧
     ((pkt 0 [(0, 6), (32, 3), (33, 3), (34, 5), (40, 64), (48, 2)]).tenant = 0 ∨ field (pkt 0 [(0, 6), (32, 3), (33, 3), (34, 5), (40, 64), (48, 2)]) 35 1 = (pkt 0 [(0, 6), (32, 3), (33, 3), (34, 5), (40, 64), (48, 2)]).tenant) ∧
     state242.foreignSpace (pkt 0 [(0, 6), (32, 3), (33, 3), (34, 5), (40, 64), (48, 2)]) (field (pkt 0 [(0, 6), (32, 3), (33, 3), (34, 5), (40, 64), (48, 2)]) 48 2) = false ∧
     mget state242.front.windows (field (pkt 0 [(0, 6), (32, 3), (33, 3), (34, 5), (40, 64), (48, 2)]) 32 1) = none) ∧
    (Awake state242 ∧ isLocal (field (pkt 0 [(0, 7), (32, 64), (48, 64)]) 40 2) = true ∧
     field (pkt 0 [(0, 7), (32, 64), (48, 64)]) 48 8 ≤ 2 ^ 37 ∧
     ((pkt 0 [(0, 7), (32, 64), (48, 64)]).tenant = 0 ∨ field (pkt 0 [(0, 7), (32, 64), (48, 64)]) 42 1 = (pkt 0 [(0, 7), (32, 64), (48, 64)]).tenant ∧ ∀ (b : Bar2), state242.front.bar2 = some b → b.tenant = (pkt 0 [(0, 7), (32, 64), (48, 64)]).tenant) ∧
     state242.foreignSpace (pkt 0 [(0, 7), (32, 64), (48, 64)]) (field (pkt 0 [(0, 7), (32, 64), (48, 64)]) 40 2) = false) ∧
    (Awake state253 ∧
     windowEntryOk (field (pkt 0 [(0, 8), (32, 65280), (40, 2 ^ 63)]) 32 2) (field (pkt 0 [(0, 8), (32, 65280), (40, 2 ^ 63)]) 40 8) (field (pkt 0 [(0, 8), (32, 65280), (40, 2 ^ 63)]) 48 8) = true ∧
     (pkt 0 [(0, 8), (32, 65280), (40, 2 ^ 63)]).tenant = 0) ∧
    (Awake state254 ∧ mget state254.lxm (field (pkt 0 [(0, 9), (32, 1), (34, 1), (36, 1)]) 32 2) = some slotA ∧
     mget state254.front.progs (field (pkt 0 [(0, 9), (32, 1), (34, 1), (36, 1)]) 34 2) = some progA ∧
     (pkt 0 [(0, 9), (32, 1), (34, 1), (36, 1)]).tenant = 0) ∧
    (Awake state255 ∧ (state255.critMissed = true ∨ state255.front.boot = 6)) ∧
    (Awake state242 ∧ state242.critMissed = false ∧ state242.front.boot ≠ 6) ∧
    (Awake state242 ∧ (pkt 0 [(0, 11), (32, 4)]).tenant = 0 ∧ field (pkt 0 [(0, 11), (32, 4)]) 32 1 ≠ 0 ∧
     mget state242.front.tenants (field (pkt 0 [(0, 11), (32, 4)]) 32 1) = none) ∧
    (Awake state256 ∧ (pkt 0 [(0, 11), (32, 4), (33, 1)]).tenant = 0 ∧ field (pkt 0 [(0, 11), (32, 4), (33, 1)]) 32 1 ≠ 0 ∧
     mget state256.front.tenants (field (pkt 0 [(0, 11), (32, 4), (33, 1)]) 32 1) ≠ none ∧ field (pkt 0 [(0, 11), (32, 4), (33, 1)]) 33 1 = 1 ∧
     state256.tenantRuns (field (pkt 0 [(0, 11), (32, 4), (33, 1)]) 32 1) = false) ∧
    (Awake state242 ∧ 900 ≤ field (pkt 0 [(0, 13), (32, 1000)]) 32 4 ∧ field (pkt 0 [(0, 13), (32, 1000)]) 32 4 ≤ 3000 ∧
     state242.front.capBefore = none) ∧
    (Awake state242 ∧ field (pkt 0 [(0, 15), (32, 4), (34, 2)]) 32 1 < 64) ∧
    (Awake state257 ∧
     (arg48 state257).activate (state257.placeOfWindow windowA).1 windowA.qcb (state257.placeOfWindow windowA).2 = .ok (queue32, (arg48 state257).setQueue 32 queue32) ∧
     ((arg48 state257).setQueue 32 queue32).putElem (state257.placeOfWindow windowA).1 queue32 (completion (opcodeOf (pkt 0 [(0, 13)])) 0 (seqOf (pkt 0 [(0, 13)])) 1 2 3) false = Except.ok (some (putTo ((arg48 state257).setQueue 32 queue32) queue32 (completion 13 0 0 1 2 3))) ∧
     pkt 0 [(0, 13)] ∈ state257.front.dequeued ∧ mget state257.front.windows (windowOf (pkt 0 [(0, 13)])) = some windowA ∧ queue32.elem = 32) ∧
    (Awake objAt ∧
     (On objAt (Event.load loadPkt)).rdAny (field loadPkt 40 2) loadPkt.tenant (field loadPkt 32 8) (field loadPkt 48 8) = Reached.got objBytes (loaded (Event.load loadPkt)) ∧
     objectOk objBytes = true) ∧
    (Awake state258 ∧ state258.front.boot = 5 ∧ mget state258.front.held 0 = some (sigPkt 0) ∧ mget state258.front.windows 0 = some windowA ∧
     (On state258 (Event.packetSignalRelease 0)).headOf 0 windowA = some (sigPkt 0, (headIn (On state258 (Event.packetSignalRelease 0))).2) ∧
     (headIn (On state258 (Event.packetSignalRelease 0))).2.signalValue (sigPkt 0) = some (0, signalled state258 0) ∧
     signalHolds (sigPkt 0) 0 = true) ∧
    (Awake state259 ∧ state259.front.boot = 5 ∧ mget state259.front.held 0 = some (sigPkt 1) ∧ mget state259.front.windows 0 = some windowA ∧
     (On state259 (Event.packetSignalRelease 0)).headOf 0 windowA = some (sigPkt 1, (headIn (On state259 (Event.packetSignalRelease 0))).2) ∧
     (headIn (On state259 (Event.packetSignalRelease 0))).2.signalValue (sigPkt 1) = some (0, signalled state259 1) ∧
     signalHolds (sigPkt 1) 0 = false) :=
  by repeat' first | exact awake_of _ | exact (rfl : _ = Except.ok _) | decide +kernel | exact rfl | apply And.intro
theorem witness_FirmwareEventsTakeEffect :
    (Awake objAt ∧
     (On objAt (Event.update updPkt)).rdAny (field updPkt 40 2) updPkt.tenant (field updPkt 32 8) (field updPkt 48 8) = Reached.got objBytes (loaded (Event.update updPkt)) ∧
     objAt.front.update = none ∧ (updateQueues updPkt).any (objAt.foreignWindow updPkt) = false) ∧
    (Awake state265 ∧ state265.front.update = some updateA ∧ firstFailing updateA.counts = none) ∧
    (Awake state266 ∧ state266.front.update = some arg49 ∧ firstFailing arg49.counts = some 2) ∧
    (Awake state267 ∧ state267.front.boot = 5 ∧ state267.front.dequeued = []) ∧
    Awake beats ∧
    (Awake spareAt ∧ spareAt.front.spare = true) ∧
    (Awake state269 ∧ state269.front.spare = true ∧ state269.front.epoch ≤ 3 ∧ mget state269.lxm 1 = some slotA ∧
     slotA.forMirror = some (slotA.forMirror.getD 9) ∧ slotA.last ≤ 8) ∧
    (state260.front.boot = 0 ∧ state260.front.pins.released = true) ∧
    state261.front.boot = 1 ∧
    state262.front.boot = 2 ∧
    state263.front.boot = 3 ∧
    state264.front.boot = 4 ∧
    (isCompute 0 = true ∧ isCore 0 = true ∧ State.reset.isFree 0 0 = true) ∧
    state268.front.boot = 6 ∧
    (beats.front.active = true ∧ beats.front.linkUp = true) ∧
    (spareAt.front.spare = true ∧ (∀ (b : ℕ × ℕ), spareAt.front.lastBeat = some b → b.1 < 5) ∧ 4 ≤ spareAt.front.mirrorSeq) ∧
    (beats.front.active = true ∧ beats.front.ackDue = true) ∧
    ((state271.core 0).halted = true ∧ mget (state271.core 0).banks ((state271.core 0).bankOfSlot 0) = some (thread [] []) ∧
     (thread [] []).st = TState.ready) ∧
    isCore 1 = true ∧
    (isCore 1 = true ∧ (state271.core 0).halted = true ∧ (state271.core 0).inWord = false ∧ state271.padBusy (clusterOf 0) = false ∧
     ((contextHead (state271.core 0) 0 fun t => (Option.map (fun x => x.2) (state271.ticketOf t.who)).getD 0) = contextHead (state271.core 0) 0 fun t => (Option.map (fun x => x.2) (state271.ticketOf t.who)).getD 0) ∧
     isFront 0 = false ∧
     (64 + (contextHead (state271.core 0) 0 fun t => (Option.map (fun x => x.2) (state271.ticketOf t.who)).getD 0).length ≤ 2097152)) :=
  ⟨⟨awake_of _, rfl, by decide +kernel⟩,
   ⟨awake_of _, by decide +kernel⟩,
   ⟨awake_of _, by decide +kernel⟩,
   ⟨awake_of _, by decide +kernel⟩,
   awake_of _,
   ⟨awake_of _, by decide +kernel⟩,
   ⟨awake_of _, by decide +kernel⟩,
   by decide +kernel⟩

/-! ### A step and the decoder -/

/-- The 64 bits `w` as the bundle at the thread's pc, the thread changed by `f`. -/
def bundleAt (w : Nat) (f : Thread → Thread := fun t => { t with pc := 0 }) : State :=
  let s := State.reset.withFetchWord 64 w
  { s with cores := s.cores.map fun c => (c.1, { c.2 with
    l0i := [{ prog := 1, line := 0, locked := true, data := BitVec.ofNat 512 w }], banks := c.2.banks.map fun b => (b.1, f b.2) }) }
/-- Core 0, bank 0 issues the word `v` of the bundle `w` under form `f`, which decodes to `i`. -/
structure Issues (s : State) (w : BitVec 64) (f : Form) (v lit : BitVec 32) (i : Instr) (holds waits : Bool) : Prop where
  due : s.due = none
  trigger : s.trigger = none
  chosen : s.chooseIssue = some (0, 0)
  late : ({ s.enter 0 0 with bundle := (Entered s 0 0).bundle } : State).lateTrap = none
  here : (Entered s 0 0).bundleHere = some w
  word : skipped v = false ∧ decodeWord (Entered s 0 0).cid f v lit = .ok i
  guard : ({ Entered s 0 0 with form := f, raw := v } : State).guardHolds v = holds
  waiting : ({ Entered s 0 0 with form := f, raw := v } : State).unready i = waits
def addiTwo : Nat := 0x84120005 + 0x04128007 * 2 ^ 32
def loadPair : Nat := 0x00828F00 + 0x04120005 * 2 ^ 32
def starved : State := bundleAt addiTwo fun t => { t with latency := false, starve := 256 }

theorem witness_AStepRunsTheDecodedInstruction_event : (({ State.reset with agenda := [(0, .boot)] } : State).due.map (·.1)) = some .boot ∧
    starved.due = none ∧ starved.trigger = some (.starvationGuard 0 0) := by decide +kernel
theorem witness_AStepRunsTheDecodedInstruction_word0 :
    Issues (bundleAt addiTwo) (BitVec.ofNat 64 addiTwo) .ser0 0x84120005 0 (.addi 4 0 5) true false ∧
    Issues (bundleAt (addiTwo + 0x1000) fun t => { t with pc := 0, xAt := [(4, 100)] }) (BitVec.ofNat 64 (addiTwo + 0x1000)) .ser0 0x84121005 0
      (.addi 4 4 5) true true ∧
    Issues (bundleAt (addiTwo + 2 ^ 27)) (BitVec.ofNat 64 (addiTwo + 2 ^ 27)) .ser0 0x8C120005 0 (.addi 4 0 5) false false := by
  refine ⟨?_, ?_, ?_⟩ <;> constructor <;> decide +kernel
theorem witness_AStepRunsTheDecodedInstruction_word1 :
    Issues (bundleAt addiTwo fun t => { t with pc := 4 }) (BitVec.ofNat 64 addiTwo) .ser1 0x04128007 0 (.addi 5 0 7) true false ∧
    Issues (bundleAt 0x000003E800748000) 0x000003E800748000 .wide 0x00748000 1000 (.liw 9 1000) true false := by
  refine ⟨?_, ?_⟩ <;> constructor <;> decide +kernel
theorem witness_AStepRunsTheDecodedInstruction_form :
    (Entered (bundleAt addiTwo) 0 0).src.pc.toNat % 8 = 0 ∧ opOf 0x84120005 ≠ 7 ∧ isBodyOp (opOf 0x8C120005) = false ∧
    (Entered (bundleAt addiTwo fun t => { t with pc := 4 }) 0 0).src.pc.toNat % 8 = 4 ∧ opOf 0x00748000 = 7 := by
  decide +kernel
theorem witness_AStepRunsTheDecodedInstruction_pair :
    Issues (bundleAt loadPair) (BitVec.ofNat 64 loadPair) .par0 0x00828F00 0 (.ld64 5 3 0) true false ∧
    (decodeWord (Entered (bundleAt loadPair) 0 0).cid .par1 0x04120005 0 = .ok (.addi 4 0 5) ∧ skipped 0x04120005 = false ∧
      conflict (.ld64 5 3 0) (.addi 4 0 5) = false) := by
  refine ⟨?_, by decide +kernel⟩
  constructor <;> decide +kernel
theorem witness_EncodeDecodeRoundTrip : Instr.wf (.addi 15 15 (-64)) = true ∧ Instr.wf (.liw 0 0xFFFFFFFF) = true ∧ (15 : BitVec 4) ≠ 8 ∧
    decodeCode 0x4120005 0 = .ok (.addi 4 0 5) ∧ 0x67 ≤ ((0x6700000 : BitVec 27).extractLsb' 20 7).toNat ∧
    ((0x3F00000 : BitVec 27).extractLsb' 20 7).toNat = 0x3F := by decide
theorem witness_EveryStepKeepsTheMemoriesCanonical : Canonical (bundleAt addiTwo) ∧ ∃ t, step (bundleAt addiTwo) = .next t := by
  refine ⟨?_, ?_⟩
  · constructor <;> first | decide +kernel | (unfold CanonicalCore; decide +kernel)
  · cases h : step (bundleAt addiTwo) with
    | next t => exact ⟨t, rfl⟩
    | fault f => exact absurd h (by intro h; exact nomatch (show some () = none from by rw [← show (see (step (bundleAt addiTwo)) fun _ => ()) = some () by decide +kernel, h]; rfl))
    | refused r => exact absurd h (by intro h; exact nomatch (show some () = none from by rw [← show (see (step (bundleAt addiTwo)) fun _ => ()) = some () by decide +kernel, h]; rfl))

end Sys2Proof.Tests
end

section
/-! SUPPORT. What the statements' words come to on the model's operations: the word that takes effect, places below 2^20, threads that
live on one core, counters, agendas and the wait for a slice. -/

namespace Sys2Proof.Machine

open Sys2Proof.Claims

/-! ### Values that the kernel is not to evaluate -/

/-- What holds of every value holds of `a`: with `a` so set aside, the kernel checks a proof about it without evaluating it. -/
theorem of_forall {α : Sort*} {P : α → Prop} (a : α) (all : ∀ x, P x) : P a := all a

/-! ### Words -/

theorem State.advance_eq_stepsPast (s : State) : s.advance = stepsPast s := by
  obtain ⟨f, h⟩ : ∃ f, s.form = f := ⟨_, rfl⟩
  rw [State.advance_eq]
  unfold stepsPast pcAfter
  cases f <;> simp only [h]

theorem State.wordAddr_eq_trapAddress (s : State) : s.wordAddr = trapAddress s := by
  obtain ⟨f, h⟩ : ∃ f, s.form = f := ⟨_, rfl⟩
  rw [State.wordAddr_eq]
  unfold trapAddress
  cases f <;> simp only [h]

/-- Where a word goes on depends on the bundle's place, its form and pc alone. -/
theorem pcAfter_congr {s t : State} (hf : t.form = s.form) (hb : t.bundle = s.bundle) (hp : t.th.pc = s.th.pc) :
    pcAfter t = pcAfter s := by
  unfold pcAfter
  rw [hf, hb, hp]

/-- A trap of a word whose thread can take it (R228). -/
theorem traps_trapR (s : State) (c : Nat) (v : Word) : Traps s c v (trapAddress s) (finish s (trapR c v)) := by
  intro h
  obtain ⟨hheld, hvec⟩ := h
  have e := State.takeTrap_bank0 { s with draw := s.draw + 1 } c v s.wordAddr s.wordAddr hheld hvec
  rw [trapR, finish_trap, Option.getD_none, e, State.wordAddr_eq_trapAddress]
  exact ⟨_, rfl, { code := rfl, value := rfl, resume := rfl, saved := ⟨rfl, rfl, rfl⟩, kept := ⟨rfl, rfl⟩, pc := rfl, frame := rfl }⟩

/-- The register file after x[d] := w. -/
theorem xSet_setX {s u : State} (d : BitVec 5) (w : Word) (hd : d.toNat < 16) (ht : u.th = s.th) (hf : u.form = s.form)
    (hb : u.bundle = s.bundle) : XSet s d w (stepsPast (u.setX d w)) := by
  have hx : (stepsPast (u.setX d w)).th.getX d.toNat = (u.th.setX d.toNat w).getX d.toNat := rfl
  have hpc : ∀ (t : Thread), (t.setX d.toNat w).pc = t.pc ∧ (t.setX d.toNat w).v = t.v ∧ (t.setX d.toNat w).pw = t.pw := by
    intro t
    rw [Thread.setX_frame]
    exact ⟨rfl, rfl, rfl⟩
  refine ⟨?_, fun r hr => ?_, ?_, ?_, ?_, rfl⟩
  · rw [hx, Thread.getX_setX_same, Nat.mod_eq_of_lt hd]
  · show (u.th.setX d.toNat w).getX r = _
    rw [Thread.getX_setX_other _ _ (by rwa [Nat.mod_eq_of_lt hd]), ht]
  · exact (hpc u.th).2.1.trans (by rw [ht])
  · exact (hpc u.th).2.2.trans (by rw [ht])
  · exact pcAfter_congr hf hb ((hpc u.th).1.trans (by rw [ht]))

/-- A word that wrote x[d] and did nothing else. -/
theorem xWritten_setX (s : State) (d : BitVec 5) (w : Word) : XWritten s d w (stepsPast (s.setX d w)) := by
  have hframe := Thread.setX_frame s.th d.toNat w
  refine ⟨Thread.getX_setX_same s.th d.toNat w, fun r hr => Thread.getX_setX_other s.th w hr, ?_⟩
  have hpc : pcAfter (s.setX d w) = pcAfter s := pcAfter_congr rfl rfl (by rw [State.setX_th, hframe])
  show ({ s.setX d w with stat := .done, th := { s.th.setX d.toNat w with pc := pcAfter (s.setX d w) } } : State) = _
  rw [hpc, hframe]
  rfl

theorem writeX_next (s : State) (d : BitVec 5) (w : Word) : Next (writeX s d w) (XWritten s d w) :=
  ⟨_, by rw [writeX, finish_ok, State.advance_eq_stepsPast], xWritten_setX s d w⟩

/-- With nothing of the thread queued, its words find the sequencer done. -/
theorem seqBusy_of_noQueue {s : State} (h : NoQueue s) : s.seqBusy = false := by
  obtain ⟨hs, hl⟩ := h
  simp [State.seqBusy, hs, hl]

theorem overlapsQueued_of_noQueue {s : State} (h : NoQueue s) (sp ea n : Nat) : s.overlapsQueued sp ea n = false := by
  obtain ⟨hs, hl⟩ := h
  simp [State.overlapsQueued, Core.queued, hs, hl]

theorem unreleased_of_quiet {s : State} (h : Quiet s) : s.unreleased = false := by
  obtain ⟨hu, hc, hs, hl⟩ := h
  simp [State.unreleased, State.quiet, State.queuedMem, Core.queued, hu, hc, hs, hl]

/-- A release that has nothing to wait for. -/
theorem release_of_quiet {s : State} (h : Quiet s) (k : State → Res) : s.release k = k s := by
  simp [State.release, unreleased_of_quiet h]

theorem pending_of_unasked {s : State} (h : Unasked s) : s.pending = none := by
  unfold State.pending
  rw [show s.th.pend = [] from h]
  rfl

/-! ### Places -/

theorem ctxOf?_of_lt {c : Nat} (h : c < 2 ^ 20) : ctxOf? c = none := by
  unfold ctxOf?
  exact if_neg (Nat.not_le.2 h)

@[simp] theorem ctxOf?_ctxPlace (id : Nat) : ctxOf? (ctxPlace id) = some id := by
  simp [ctxOf?, ctxPlace]

theorem isCore_lt {c : Nat} (h : isCore c = true) : c < 2 ^ 20 := by
  simp only [isCore, Bool.or_eq_true, Bool.and_eq_true, decide_eq_true_eq, beq_iff_eq] at h
  unfold clusterOf coreNo at h
  omega

theorem State.coreAt_of_lt (s : State) {c : Nat} (h : c < 2 ^ 20) : s.coreAt c = s.core c := by
  simp [State.coreAt, ctxOf?_of_lt h]

theorem State.modCoreAt_of_lt (s : State) {c : Nat} (h : c < 2 ^ 20) (f : Core → Core) : s.modCoreAt c f = s.modCore c f := by
  simp [State.modCoreAt, ctxOf?_of_lt h]

theorem State.streaming_of_lt (s : State) {c : Nat} (h : c < 2 ^ 20) : s.streaming c = (s.core c).seized.isSome := by
  simp [State.streaming, ctxOf?_of_lt h]

end Sys2Proof.Machine
end

section
/-! The reset state (O60). -/

namespace Sys2Proof.Proofs

open Sys2Proof.Machine Sys2Proof.Claims

theorem reset_canonical : Canonical State.reset where
  dram := rfl
  store := rfl
  pads := by intro p hp; cases hp
  issuing := ⟨rfl, rfl⟩
  cores := by intro c hc; cases hc
  contexts := by intro x hx; cases hx

/-- Settles O60: each field has its value in the definition of the reset state. -/
theorem resetState : Obligations.ResetState := by
  refine ⟨reset_canonical, rfl, rfl, rfl, rfl, rfl, rfl, rfl, rfl, rfl, rfl, rfl, fun _ => rfl, ?_, ?_, ?_, ?_⟩
  · intro c
    exact ⟨rfl, rfl, rfl, rfl, rfl, rfl, rfl, rfl, rfl, fun _ => ⟨rfl, rfl⟩⟩
  · intro h
    exact ⟨rfl, rfl, rfl, rfl⟩
  · exact ⟨rfl, rfl, rfl, rfl, rfl, rfl, rfl, rfl, rfl, rfl, rfl⟩
  · exact ⟨rfl, rfl, rfl, rfl, rfl, rfl, rfl, rfl⟩

end Sys2Proof.Proofs
end

section
/-! The counterexample to O49. -/

namespace Sys2Proof.Proofs

open Sys2Proof.Machine Sys2Proof.Claims

/-- A state whose core map lists core 0 twice: first as a Free core, then with the staking thread in bank 0. -/
def listedTwice : State :=
  { cores := [(0, {}), (0, { banks := [(0, { prog := 1, serial := 1 })] })], front := { standby := 1 } }

/-- The request of that thread for one core. -/
def requestOfOne : StakeReq := { id := 1, core := 7, who := ⟨1, 1⟩, stake := 0, count := 1, mask := 0 }

/-- The agenda of a next state. -/
def agendaOf (o : Answer) : List (Nat × Event) := match o with
  | .next t => t.agenda
  | _ => []

def noProg : Prog :=
  { tenant := 0, space := 0, profile := 0, entry := 0, stack := 0, text := [], image := [], tasks := [], plans := [], slots := [] }

def noRun : Run :=
  { gang := false, latency := false, rollback := false, paired := false, count := 0, arg := 0, clusterMask := 0, coreMask := 0
    domain := 0, domains := 0, grouped := false, tvec := 0, entry := 0, reads := [], writes := [], window := 0, seq := 0, opcode := 0
    order := 0 }

def noContext : Context :=
  { origin := 0, cluster := 0, record := none, moving := false, order := 0, prog := 0, gangMember := false, core := {} }

/-- Before the claim the thread is found on core 0. -/
theorem originOf_listedTwice : listedTwice.originOf requestOfOne.who = some 0 := by decide

/-- Core 0 is the one that is claimed. -/
theorem free_listedTwice : (delibCores.filter (listedTwice.stakeFree requestOfOne)).take
    (min requestOfOne.count (16 - listedTwice.stakeHeld requestOfOne.who)) = [0] := by decide +kernel

/-- Staking core 0 keeps its first entry alone, so that the grant leaves for the core that the request names. -/
theorem stakeRequest_listedTwice :
    agendaOf (exec .stakeRequest (On listedTwice (.stakeRequest requestOfOne))) = [(128, .stakeGrant 7 1)] := by decide +kernel

/-- Refutes O49: its clause on a stake request names the core on which the thread was found before the claims. The statement holds the
keys of the core map to nothing; where the map lists a core twice, claiming that core drops the second entry, and the thread in it is
found no more when the grant is addressed. -/
theorem not_coresAndContextsChangeHands : ¬ Obligations.CoresAndContextsChangeHands := by
  intro h
  obtain ⟨-, -, -, -, hstake, -⟩ := h listedTwice 0 0 0 0 noProg noRun noContext {} requestOfOne
  obtain ⟨t, ht, -, -, hcomes⟩ := hstake _ _ rfl rfl (by rw [free_listedTwice]; decide)
  have hagenda : t.agenda = [(128, .stakeGrant 7 1)] := by
    simpa only [ht, agendaOf] using stakeRequest_listedTwice
  rw [Comes, hagenda, originOf_listedTwice] at hcomes
  exact absurd hcomes (by decide)

end Sys2Proof.Proofs
end

section
/-! SUPPORT. SPAWN, EXIT, MIGR, the migrate hint, YIELD and the task-set words (R303-R307, R41). -/

namespace Sys2Proof.Machine

open Sys2Proof.Claims

/-! ### Shared operations -/

/-- A target in a whole bundle passes the check of R70. -/
theorem checkTarget_bundle (s : State) {x : Nat} (k : State → IAddr → Res) (h8 : x % 8 = 0) (h40 : x < 2 ^ 40) :
    checkTarget s x k = k s (BitVec.ofNat 40 x) := by
  have hx : (BitVec.ofInt 40 (x : Int)) = BitVec.ofNat 40 x := by simp
  have hn : (BitVec.ofNat 40 x).toNat = x := by simpa using h40
  unfold checkTarget
  rw [if_neg (by omega), hx]
  simp only [hn]
  rw [if_neg (by omega), if_pos h8]

/-- A bank that takes a thread is one of the four live banks, and Free. -/
theorem State.freeBank_some {s : State} {c b : Nat} (h : s.freeBank c = some b) : b < 4 ∧ mget (s.core c).banks b = none := by
  unfold State.freeBank at h
  simp only at h
  split at h
  · exact absurd h (by simp)
  · have hb := List.find?_some h
    have hm := List.mem_of_find?_eq_some h
    simp only [Bool.and_eq_true, Option.isNone_iff_eq_none] at hb
    exact ⟨List.mem_range.1 hm, hb.1.1⟩

theorem State.core_newSerial (s : State) (p c : Nat) : (s.newSerial p).2.core c = s.core c := rfl

theorem State.core_putThread_same (s : State) (c b : Nat) (t : Thread) :
    (s.putThread c b t).core c = { s.core c with banks := mset (s.core c).banks b t } := State.core_modCore_same _ _ _

/-- The thread and core that a word takes out of the cores again. -/
theorem State.reload_of_core (s : State) {k : Core} {t : Thread} (hk : s.core s.cid = k) (hb : mget k.banks s.bank = some t) :
    s.reload = { s with co := k, th := t } := by
  unfold State.reload
  simp only [hk, hb, Option.getD_some]

/-! ### SPAWN (R303) -/

/-- The thread that SPAWN starts in bank `n` of a core that is not staked. -/
def spawnedThread (s : State) (g : Prog) (n x : Nat) (arg : Word) : Thread :=
  { g.start s.th.prog (s.store.newSerial s.th.prog).1 (slotOf n) .spawned x s.th.trap0.tvec s.th.latency arg 0 0 s.th.arg with
    space := s.th.space, farsp := s.th.space, tenant := s.th.tenant, level := s.th.level }

theorem execSpawn_own {s : State} (d a b : BitVec 5) (hq : Quiet s) (hu : Unpaired s) (hd : (src s d).toNat = 0xFFFF)
    (h8 : (src s a).toNat % 8 = 0) (h40 : (src s a).toNat < 2 ^ 40) :
    exec (.spawn d a b) s = .next (stepsPast
      ((s.store.spawnNow s.cid s.th s.cid (BitVec.ofNat 40 (src s a).toNat) (src s b)).2.reload.setX d
        (s.store.spawnNow s.cid s.th s.cid (BitVec.ofNat 40 (src s a).toNat) (src s b)).1)) := by
  show execSpawn d a b s = _
  have hv : (s.x d).toNat = 0xFFFF := hd
  have hu' : (s.pairOf s.cid s.th.kind).isSome = false := by rw [show s.pairOf s.cid s.th.kind = none from hu]; rfl
  unfold execSpawn
  simp only [hv, if_true]
  rw [show s.x a = src s a from rfl, checkTarget_bundle s _ h8 h40, release_of_quiet hq]
  simp only [hu', Bool.false_eq_true, if_false, finish_ok, State.advance_eq_stepsPast]
  rfl

/-- Without a Free bank SPAWN gives 0 (R303). -/
theorem spawn_without_bank {s : State} (d a b : BitVec 5) (hd16 : d.toNat < 16) (hq : Quiet s) (hu : Unpaired s)
    (hd : (src s d).toNat = 0xFFFF) (h8 : (src s a).toNat % 8 = 0) (h40 : (src s a).toNat < 2 ^ 40)
    (hb : s.store.freeBank s.cid = none) :
    Next (exec (.spawn d a b) s) fun t => XSet s d 0 t ∧ t.co.tcm = s.co.tcm := by
  have hallowed : s.store.spawnAllowed s.cid s.cid s.th = true := by simp [State.spawnAllowed]
  have hnow : ∀ e w, s.store.spawnNow s.cid s.th s.cid e w = (0, s.store) := by
    intro e w
    simp [State.spawnNow, hallowed, hb]
  refine ⟨_, execSpawn_own d a b hq hu hd h8 h40, ?_⟩
  rw [hnow, State.reload_store]
  exact ⟨xSet_setX d 0 hd16 rfl rfl rfl, rfl⟩

theorem spawnNow_own {s : State} {g : Prog} {n : Nat} (e : IAddr) (w : Word) (hst : s.co.staked = none)
    (hb : s.store.freeBank s.cid = some n) (hg : mget s.front.progs s.th.prog = some g) :
    s.store.spawnNow s.cid s.th s.cid e w = ((spawnedThread s g n e.toNat w).id n,
      (s.store.newSerial s.th.prog).2.putThread s.cid n (spawnedThread s g n e.toNat w)) := by
  have hallowed : s.store.spawnAllowed s.cid s.cid s.th = true := by simp [State.spawnAllowed]
  have hcore : (((s.store.newSerial s.th.prog).2).core s.cid).staked = none := by
    rw [State.core_newSerial, State.core_store]; exact hst
  have hg' : s.store.prog? s.th.prog = some g := hg
  simp only [State.spawnNow, hallowed, hb, hg', hcore, Bool.not_true, Bool.false_eq_true, if_false, Option.isSome_none, Bool.or_false,
    Bool.false_and]
  rfl

/-- SPAWN places a thread of the program in the Free bank (R303, R31). -/
theorem spawn_places {s : State} {g : Prog} {n : Nat} (d a b : BitVec 5) (hd16 : d.toNat < 16) (hq : Quiet s) (hu : Unpaired s)
    (hd : (src s d).toNat = 0xFFFF) (h8 : (src s a).toNat % 8 = 0) (h40 : (src s a).toNat < 2 ^ 40) (hst : s.co.staked = none)
    (hb : s.store.freeBank s.cid = some n) (hg : mget s.front.progs s.th.prog = some g) :
    Next (exec (.spawn d a b) s) fun t => ∃ new, mget t.co.banks n = some new ∧
      XSet s d (new.id n) t ∧ new.pc.toNat = (src s a).toNat ∧ new.getX 10 = src s b ∧ new.getX 2 = g.stackTop (n % 4) ∧
      new.prog = s.th.prog ∧ new.level = s.th.level ∧ new.st = .ready ∧ new.kind = .spawned ∧ n ≠ s.bank ∧ t.co.tcm = s.co.tcm := by
  obtain ⟨hn4, hfree⟩ := State.freeBank_some hb
  have hbank : n ≠ s.bank := by
    rintro rfl
    rw [State.core_store, mget_mset_same] at hfree
    exact absurd hfree (by simp)
  set new := spawnedThread s g n (BitVec.ofNat 40 (src s a).toNat).toNat (src s b) with hnew
  set u := (s.store.newSerial s.th.prog).2.putThread s.cid n new with hu'
  have hcore : u.core s.cid = { s.co with banks := mset (mset s.co.banks s.bank s.th) n new } := by
    rw [hu', State.core_putThread_same, State.core_newSerial, State.core_store]
  have hth : mget (mset (mset s.co.banks s.bank s.th) n new) s.bank = some s.th := by
    rw [mget_mset_other _ _ hbank.symm, mget_mset_same]
  have hload : u.reload = { u with co := { s.co with banks := mset (mset s.co.banks s.bank s.th) n new }, th := s.th } :=
    State.reload_of_core u hcore hth
  refine ⟨_, execSpawn_own d a b hq hu hd h8 h40, new, ?_⟩
  rw [spawnNow_own _ _ hst hb hg, ← hnew, ← hu', hload]
  refine ⟨mget_mset_same _ _ _, xSet_setX d _ hd16 rfl rfl rfl, ?_, ?_, ?_, rfl, rfl, rfl, rfl, hbank, rfl⟩
  · show (BitVec.ofNat 40 _).toNat = _
    simpa using h40
  · rfl
  · rfl

/-! ### EXIT (R304) -/

/-- `t` is `s` but for events added to the agenda, which are completions of copies, and for what copies held of the LXM and what Saved
contexts hold of copies. -/
structure CopiesDropped (s t : State) : Prop where
  frame : t = { s with agenda := t.agenda, lxm := t.lxm, contexts := t.contexts }
  agenda : ∀ x ∈ t.agenda, x ∈ s.agenda ∨ ∃ c id, x.2 = .copyCompletion c id

theorem CopiesDropped.refl (s : State) : CopiesDropped s s := ⟨rfl, fun _ h => .inl h⟩

theorem CopiesDropped.trans {s t u : State} (h : CopiesDropped s t) (g : CopiesDropped t u) : CopiesDropped s u := by
  obtain ⟨hf, ha⟩ := h
  obtain ⟨gf, ga⟩ := g
  refine ⟨?_, fun x hx => (ga x hx).elim (ha x) .inr⟩
  rw [gf, hf]

theorem CopiesDropped.foldl {α : Type} {s : State} (f : State → α → State) (l : List α) (h : ∀ s a, CopiesDropped s (f s a)) :
    CopiesDropped s (l.foldl f s) :=
  List.foldlRecOn l f (motive := fun t => CopiesDropped s t) (.refl s) fun t ht a _ => ht.trans (h t a)

theorem copiesDropped_post (s : State) (n c id : Nat) : CopiesDropped s (s.post n (.copyCompletion c id)) :=
  ⟨rfl, fun x hx => ((State.mem_post _ _ _ _).1 hx).elim (fun h => .inr ⟨c, id, by rw [h]⟩) .inl⟩

theorem copiesDropped_modSlot (s : State) (n : Nat) (f : LxmSlot → LxmSlot) : CopiesDropped s (s.modSlot n f) :=
  ⟨rfl, fun _ h => .inl h⟩

theorem copiesDropped_contexts (s : State) (l : List (Nat × Context)) : CopiesDropped s { s with contexts := l } := ⟨rfl, fun _ h => .inl h⟩

theorem copiesDropped_endFetch (s : State) (y : Copy) : CopiesDropped s (s.endFetch y) := by
  unfold State.endFetch
  split
  · exact copiesDropped_modSlot _ _ _
  · exact .refl s

theorem copiesDropped_giveUp (s : State) (y : Copy) : CopiesDropped s (s.giveUp y) := by
  unfold State.giveUp
  split
  · exact copiesDropped_modSlot _ _ _
  · exact copiesDropped_endFetch s y

/-- The completions of an ended thread change no core (R181, R313). -/
theorem copiesDropped_dropCompletions (s : State) (w : Who) : CopiesDropped s (s.dropCompletions w) := by
  unfold State.dropCompletions
  refine CopiesDropped.trans ?_ (copiesDropped_contexts _ _)
  refine CopiesDropped.trans ?_ (CopiesDropped.foldl _ _ fun s x => CopiesDropped.foldl _ _ fun s y => copiesDropped_giveUp s y.2)
  exact CopiesDropped.foldl _ _ fun s c => CopiesDropped.foldl _ _ fun s y => copiesDropped_post s 0 c.1 y.1

/-- A thread that has drained only posts the release of its bank, or the completion of its program (R304, R318). -/
theorem State.releaseIfDrained_cases (s : State) (w : Who) : s.releaseIfDrained w = s ∨
    (∃ p b, s.releaseIfDrained w = s.post 0 (.bankRelease p b)) ∨ s.releaseIfDrained w = s.post 0 (.programCompletion w.prog) := by
  unfold State.releaseIfDrained
  split
  · split
    · split
      · exact .inr (.inl ⟨_, _, rfl⟩)
      · exact .inl rfl
    · exact .inl rfl
  · split
    · exact .inl rfl
    · exact .inr (.inr rfl)

/-- What of a thread ends with it: its group, streams, alarm, stakes and requests (R304). -/
def Thread.stopped (t : Thread) : Thread :=
  { t with
    st := .ended, pend := [], fetched := none, xAt := [], fault := none, streams := [], alarm := none, alarmOn := none
    group := none, stakes := [], staking := [] }

/-- The core with the thread of bank `b` ended and its queued words gone. -/
def Core.stopped (k : Core) (b : Nat) : Core :=
  { k with
    seq := k.seq.filter fun e => e.bank != b
    vloop := k.vloop.filter fun v => v.bank != b
    banks := mmod k.banks b Thread.stopped }

/-- The end of a thread that is in no group or gang and holds no stream. -/
theorem State.stopThread_alone {s : State} {c b : Nat} {t : Thread} (hc : c < 2 ^ 20) (ht : mget (s.core c).banks b = some t)
    (hst : t.st ≠ .ended) (hg : t.group = none) (hs : t.streams = []) (hk : t.kind = .spawned) :
    s.stopThread c b = (((s.cancelAlarm t.who).modCore c (Core.stopped · b)).dropCompletions t.who).releaseIfDrained t.who := by
  unfold State.stopThread
  simp only [State.coreAt_of_lt s hc, ht, beq_iff_eq, hst, if_false, hg, State.endStreams, hs, List.foldl_nil, hk, Kind.isGang,
    Bool.false_eq_true, State.modCoreAt_of_lt _ hc]
  rfl

/-- EXIT ends the thread, and nothing of it is left to fire (R304). -/
theorem exit_ends {s : State} (hc : isCore s.cid = true) (hq : NoQueue s) (hst : s.th.st ≠ .ended) (hg : s.th.group = none)
    (hs : s.th.streams = []) (hk : s.th.stakes = []) (hkind : s.th.kind = .spawned) :
    Next (exec .exit s) fun t => t.th.st = .ended ∧ t.th.pend = [] ∧ t.th.alarm = none ∧
      (∀ e ∈ t.agenda, e.2 ≠ .alarmFire s.th.who) ∧ t.co.tcm = s.co.tcm ∧ t.dram = s.dram := by
  have hthread : mget (s.store.core s.cid).banks s.bank = some s.th := by rw [State.core_store]; exact mget_mset_same _ _ _
  set v := (s.store.cancelAlarm s.th.who).modCore s.cid (Core.stopped · s.bank) with hv
  set u := (v.dropCompletions s.th.who).releaseIfDrained s.th.who with hu
  have hend : s.store.endThread s.cid s.bank = u := by
    have hthread' : mget (s.store.coreAt s.cid).banks s.bank = some s.th := by
      rw [State.coreAt_of_lt _ (isCore_lt hc)]; exact hthread
    unfold State.endThread
    simp only [hthread', State.stopThread_alone (isCore_lt hc) hthread hst hg hs hkind, State.returnStakes, hk]
    rfl
  have hexec : exec .exit s = .next (stepsPast u.reload) := by
    show execExit s = _
    unfold execExit
    simp only [seqBusy_of_noQueue hq, Bool.false_eq_true, if_false, hkind, State.onModule, finish_ok, State.advance_eq_stepsPast]
    rw [show s.store.cid = s.cid from rfl, show s.store.bank = s.bank from rfl, hend]
  obtain ⟨dframe, dagenda⟩ := copiesDropped_dropCompletions v s.th.who
  set x := v.dropCompletions s.th.who with hx
  have hcore : v.core s.cid = Core.stopped { s.co with banks := mset s.co.banks s.bank s.th } s.bank := by
    rw [hv, State.core_modCore_same]
    show Core.stopped (s.store.core s.cid) _ = _
    rw [State.core_store]
  have hbanks : mget (v.core s.cid).banks s.bank = some s.th.stopped := by
    rw [hcore]
    show mget (mmod (mset s.co.banks s.bank s.th) s.bank Thread.stopped) s.bank = _
    rw [mget_mmod, if_pos rfl, mget_mset_same]
    rfl
  have hvcancel : ∀ e ∈ v.agenda, e.2 ≠ .alarmFire s.th.who := by
    intro e he heq
    have := (List.mem_filter.1 (show e ∈ s.agenda.filter fun e => !isAlarmOf s.th.who e.2 from he)).2
    simp [heq, isAlarmOf] at this
  have hxcancel : ∀ e ∈ x.agenda, e.2 ≠ .alarmFire s.th.who := by
    intro e he heq
    rcases dagenda e he with h | ⟨c, id, h⟩
    · exact hvcancel e h heq
    · rw [heq] at h; cases h
  -- the release of the bank is posted, and changes nothing else
  have hrelease : u.cores = x.cores ∧ u.dram = x.dram ∧ u.cid = x.cid ∧ u.bank = x.bank ∧
      ∀ e ∈ u.agenda, e.2 ≠ .alarmFire s.th.who := by
    rw [hu]
    rcases State.releaseIfDrained_cases x s.th.who with h | ⟨p, b, h⟩ | h <;> rw [h]
    · exact ⟨rfl, rfl, rfl, rfl, hxcancel⟩
    all_goals
      refine ⟨rfl, rfl, rfl, rfl, fun e he heq => ?_⟩
      rcases (State.mem_post _ _ _ _).1 he with h | h
      · rw [h] at heq; cases heq
      · exact hxcancel e h heq
  obtain ⟨rcores, rdram, rcid, rbank, ragenda⟩ := hrelease
  have hxv : x.cores = v.cores ∧ x.dram = v.dram ∧ x.cid = s.cid ∧ x.bank = s.bank := by
    rw [dframe]; exact ⟨rfl, rfl, rfl, rfl⟩
  obtain ⟨xcores, xdram, xcid, xbank⟩ := hxv
  have hucore : u.core u.cid = v.core s.cid := by
    rw [rcid, xcid]
    unfold State.core
    rw [rcores, xcores]
  refine ⟨_, hexec, ?_⟩
  rw [State.reload_of_core u hucore (by rw [rbank, xbank]; exact hbanks)]
  refine ⟨rfl, rfl, rfl, ragenda, ?_, ?_⟩
  · show (v.core s.cid).tcm = _
    rw [hcore]; rfl
  · show u.dram = _
    rw [rdram, xdram]; rfl

end Sys2Proof.Machine
end

section
/-! SUPPORT. MIGR, the migrate hint, YIELD and the task-set words (R305-R307, R41). -/

namespace Sys2Proof.Machine

open Sys2Proof.Claims

/-! ### Loads from the own TCM (R158, R186) -/

theorem rdBytes_succ (m : Mem) (p n : Nat) : rdBytes m p (n + 1) = rd8 m p :: rdBytes m (p + 1) n := by
  unfold rdBytes
  rw [List.range_succ_eq_map, List.map_cons, List.map_map]
  congr 1
  exact List.map_congr_left fun i _ => by simp [Nat.add_comm, Nat.add_left_comm]

theorem leAt_succ (m : Mem) (p n : Nat) : leAt m p (n + 1) = (rd8 m p).toNat + 256 * leAt m (p + 1) n := by
  unfold leAt
  rw [Finset.sum_range_succ', Finset.mul_sum, Nat.add_comm]
  congr 1
  · simp
  · refine Finset.sum_congr rfl fun i _ => ?_
    rw [Nat.add_right_comm, Nat.add_assoc p]
    ring

/-- What the model reads little-endian is the sum that the statements write. -/
theorem ofBytes_rdBytes (m : Mem) (p n : Nat) : ofBytes (rdBytes m p n) = leAt m p n := by
  induction n generalizing p with
  | zero => rfl
  | succ n ih =>
    rw [rdBytes_succ, leAt_succ, ← ih]
    rfl

theorem window_ownTcm {p : Nat} (hp : p < 0xC000) : window (0xFF00 * 2 ^ 48 + p) = some (.ownTcm p) := by
  have h48 : bits (0xFF00 * 2 ^ 48 + p) 48 16 = 0xFF00 := by unfold bits; omega
  have h32 : bits (0xFF00 * 2 ^ 48 + p) 16 32 = 0 := by unfold bits; omega
  have h16 : bits (0xFF00 * 2 ^ 48 + p) 0 16 = p := by unfold bits; omega
  unfold window
  simp only [h48, h32, h16, hp, and_self, if_true]

theorem onChip_ownTcm {p : Nat} (hp : p < 0xC000) : onChip (0xFF00 * 2 ^ 48 + p) = true := by
  have h : bits (0xFF00 * 2 ^ 48 + p) 56 8 = 0xFF := by unfold bits; omega
  unfold onChip
  rw [h]
  rfl

/-- The bytes that `OwnTcm` names lie in the TCM (R158). -/
theorem ownTcm_lt {s : State} {space e p n : Nat} (h : OwnTcm s space e p n) (hn : 0 < n) : p < 0xC000 := by
  have := h.inside
  omega

/-- The checks of R186 lead to the own TCM. -/
theorem routeFor_ownTcm {s : State} {space e p n : Nat} (h : OwnTcm s space e p n) (hn : n = 1 ∨ n = 2 ∨ n = 4 ∨ n = 8) (atomic : Bool) :
    s.routeFor space e n atomic = .ok (.ownTcm p) := by
  obtain ⟨rfl, haligned, hinside, ⟨hlocal, hspace⟩, -, -, -⟩ := h
  have hp : p < 0xC000 := by omega
  have ha : (0xFF00 * 2 ^ 48 + p) % n = 0 := by rcases hn with rfl | rfl | rfl | rfl <;> omega
  unfold State.routeFor State.routeTo
  simp only [ha, onChip_ownTcm hp, window_ownTcm hp, hspace, State.winAllowed, ne_eq, not_true_eq_false, if_false, if_true,
    Bool.not_true, Bool.or_false, Nat.not_le.2 hlocal, decide_false, Bool.false_eq_true]

/-- A load from the own TCM goes on at once with the bytes. -/
theorem State.loadRes_ownTcm {s : State} {space e p n : Nat} (h : OwnTcm s space e p n) (hn : n = 1 ∨ n = 2 ∨ n = 4 ∨ n = 8)
    (k : Nat → State → Res) : s.loadRes space e n k = k (leAt s.co.tcm.bytes p n) s := by
  have hpending : s.pending.isSome = false := by rw [pending_of_unasked h.idle.2]; rfl
  have hbusy : s.ownBusy (.ownTcm p) .read = false := by simp [State.ownBusy, MemOp.isWrite, MemOp.need]
  have hown : s.atOwn (.ownTcm p) n .read = (rdBytes s.co.tcm.bytes p n, s) := by
    simp [State.atOwn, h.clean, MemOp.isAtomic, MemOp.perform, State.rdOwn]
  unfold State.loadRes State.access
  simp only [hpending, Bool.false_eq_true, if_false, MemOp.isAtomic, routeFor_ownTcm h hn, overlapsQueued_of_noQueue h.idle.1, hbusy, hown,
    Bool.false_and, Bool.or_self, ofBytes_rdBytes]

/-! ### MIGR and the migrate hint (R41, R305) -/

theorem egressEmpty_of_le {s : State} (h : s.co.egress ≤ s.now) : s.egressEmpty = true := decide_eq_true h

/-- A thread that sets out waits for its slot, and its message arrives at the latency of R273. -/
theorem State.setOut_spec (s : State) (c : Nat) (hint : Bool) (h : s.co.egress ≤ s.now) :
    let t := s.setOut c hint
    t.th = { s.th with st := .blocked .slot, hinted := hint } ∧ (mget t.moving s.nextId).map (·.dest) = some c ∧
      (s.now + 2 * (6 + 2 * hops (clusterOf s.cid) (clusterOf c)), Event.migrationArrival s.nextId) ∈ t.agenda ∧
      t.form = s.form ∧ t.bundle = s.bundle := by
  refine ⟨rfl, ?_, ?_, rfl, rfl⟩
  · show (mget (mset s.moving s.nextId _) s.nextId).map (·.dest) = some c
    rw [mget_mset_same]
    rfl
  · have hegress : ∀ k : Core, k.egress = s.co.egress → k.egress - s.now = 0 := by intro k hk; omega
    refine (State.mem_post _ _ _ _).2 (.inl ?_)
    have hput : (s.co.putEntry { prog := s.th.prog, thread := some s.th.who, dest := c }).1.egress = s.co.egress := by
      unfold Core.putEntry
      split <;> rfl
    have := hegress _ hput
    exact Prod.ext (by
      show _ = s.now + ((s.co.putEntry _).1.egress - s.now + _)
      simp only [State.fresh] at *
      rw [this, Nat.zero_add]; rfl) rfl

theorem migr_own {s : State} {a : BitVec 5} (h : s.tcmCore (src s a) = some s.cid) : exec (.migr a) s = .next (stepsPast s) := by
  show execMigr a s = _
  have h' : s.tcmCore (s.x a) = some s.cid := h
  simp only [execMigr, h', if_true, finish_ok, State.advance_eq_stepsPast]

theorem migr_sets_out {s : State} {a : BitVec 5} {c : Nat} (h : s.tcmCore (src s a) = some c) (hc : c ≠ s.cid) (hq : NoQueue s)
    (hs : s.src.streams = []) (hr : s.refusesMove c = false) (he : s.co.egress ≤ s.now) :
    Next (exec (.migr a) s) fun t => t.th.st = .blocked .slot ∧ t.th.pc = pcAfter s ∧ t.stat = .done ∧
      (mget t.moving s.nextId).map (·.dest) = some c ∧
      (s.now + 2 * (6 + 2 * hops (clusterOf s.cid) (clusterOf c)), Event.migrationArrival s.nextId) ∈ t.agenda := by
  have h' : s.tcmCore (s.x a) = some c := h
  obtain ⟨hth, hmoving, hagenda, hform, hbundle⟩ := State.setOut_spec s c false he
  refine ⟨stepsPast (s.setOut c false), ?_, ?_, ?_, rfl, hmoving, hagenda⟩
  · show execMigr a s = _
    simp only [execMigr, h', hc, if_false, seqBusy_of_noQueue hq, Bool.false_eq_true, hs, List.isEmpty_nil, Bool.not_true, hr,
      egressEmpty_of_le he, finish_ok, State.advance_eq_stepsPast]
  · show (s.setOut c false).th.st = _
    rw [hth]
  · exact pcAfter_congr hform hbundle (by rw [hth])

theorem migr_refused {s : State} {a : BitVec 5} {c : Nat} (h : s.tcmCore (src s a) = some c) (hc : c ≠ s.cid) (hq : NoQueue s)
    (hs : s.src.streams = []) (hr : s.refusesMove c = true) : Traps s 0x16 (src s a) (trapAddress s) (exec (.migr a) s) := by
  have h' : s.tcmCore (s.x a) = some c := h
  have hexec : exec (.migr a) s = finish s (trapR 0x16 (src s a)) := by
    show execMigr a s = _
    simp only [execMigr, h', hc, if_false, seqBusy_of_noQueue hq, Bool.false_eq_true, hs, List.isEmpty_nil, Bool.not_true, hr, if_true]
    rfl
  rw [hexec]
  exact traps_trapR _ _ _

theorem migrLd_sets_out {s : State} {d a : BitVec 5} {c : Nat} (h : s.tcmCore (src s a) = some c) (hc : c ≠ s.cid)
    (hh : s.th.hinted = false) (hp : Unasked s) (hq : NoQueue s) (hs : s.src.streams = []) (hr : s.refusesMove c = false)
    (he : s.co.egress ≤ s.now) :
    Next (exec (.migrLd d a) s) fun t => t.stat = .held ∧ t.th.st = .blocked .slot ∧ t.th.pc = s.th.pc ∧
      (mget t.moving s.nextId).map (·.dest) = some c := by
  have h' : s.tcmCore (s.x a) = some c := h
  obtain ⟨hth, hmoving, -, -, -⟩ := State.setOut_spec s c true he
  refine ⟨{ s.setOut c true with stat := .held, th := { (s.setOut c true).th with notBefore := s.cycle + 1 } }, ?_, rfl, ?_, ?_, hmoving⟩
  · show execMigrLd d a s = _
    simp only [execMigrLd, h', hc, hh, pending_of_unasked hp, Option.isSome_none, decide_false, Bool.or_self, if_false,
      seqBusy_of_noQueue hq, Bool.false_eq_true, hs, List.isEmpty_nil, Bool.not_true, hr, egressEmpty_of_le he, finish_wait]
  · show (s.setOut c true).th.st = _
    rw [hth]
  · show (s.setOut c true).th.pc = _
    rw [hth]

/-- The migrate hint to the own core loads in place (R305). -/
theorem migrLd_loads {s : State} (d a : BitVec 5) (hh : s.th.hinted = false) :
    LoadsOwn s d s.src.space.toNat (src s a).toNat 8 (BitVec.ofNat 64) (exec (.migrLd d a) s) := by
  intro p hp
  have hcore : s.tcmCore (s.x a) = none := by
    have haddr : (s.x a).toNat = 0xFF00 * 2 ^ 48 + p := hp.addr
    simp only [State.tcmCore, haddr, window_ownTcm (ownTcm_lt hp (by decide))]
  have hload := State.loadRes_ownTcm hp (.inr (.inr (.inr rfl)))
  have hth : ({ s with th := { s.th with hinted := false } } : State) = s := by rw [← hh]
  refine ⟨stepsPast (s.setX d (BitVec.ofNat 64 (leAt s.co.tcm.bytes p 8))), ?_, xWritten_setX s d _⟩
  show execMigrLd d a s = _
  rw [show (src s a) = s.x a from rfl] at hload
  simp only [execMigrLd, hcore, hload, hth, finish_ok, State.advance_eq_stepsPast]

/-! ### YIELD (R306) -/

theorem yield_steps (s : State) : exec .yield s = .next (threadAfter s fun t => { t with
    yielded := true, notBefore := if s.th.latency && s.otherReady then s.cycle + 2 else s.th.notBefore }) := by
  show execYield s = _
  rw [execYield, finish_ok, State.advance_eq_stepsPast]
  rfl

theorem yield_keeps_notBefore {s : State} (h : s.th.latency = false ∨ s.otherReady = false) :
    exec .yield s = .next (threadAfter s fun t => { t with yielded := true }) := by
  have hb : (s.th.latency && s.otherReady) = false := by rcases h with h | h <;> simp [h]
  rw [yield_steps, hb]
  rfl

theorem yield_waits {s : State} (hl : s.th.latency = true) (ho : s.otherReady = true) :
    exec .yield s = .next (threadAfter s fun t => { t with yielded := true, notBefore := s.cycle + 2 }) := by
  rw [yield_steps, hl, ho]
  rfl

/-! ### Task sets (R27, R28, R307) -/

/-- TGROW raises the count of the run of the issuing thread's program. -/
theorem tgrow_raises {s : State} {r : Run} (d a : BitVec 5) (hd : d.toNat < 16) (hr : s.taskRun = some r)
    (hle : r.count + (src s a).toNat ≤ 0xFFFFFFFF) :
    Next (exec (.tgrow d a) s) fun t => XSet s d 0 t ∧ MemoryKept s t ∧ (t.taskRun).map (·.count) = some (r.count + (src s a).toNat) ∧
      (s.now + 2, Event.taskDispatch s.th.prog) ∈ t.agenda := by
  set u := (s.modRun s.th.prog fun r => { r with count := r.count + (src s a).toNat }).post 2 (.taskDispatch s.th.prog) with hu
  have hexec : exec (.tgrow d a) s = .next (stepsPast (u.setX d 0)) := by
    show execTgrow d a s = _
    have hnlt : ¬0xFFFFFFFF < r.count + (s.x a).toNat := Nat.not_lt.2 hle
    simp only [execTgrow, hr, hnlt, if_false, finish_ok, State.advance_eq_stepsPast]
    rfl
  have hrun : u.taskRun = s.taskRun.map fun r => { r with count := r.count + (src s a).toNat } := by
    have hprog : u.prog? s.th.prog = (s.prog? s.th.prog).map fun g => { g with
        run := g.run.map fun r => { r with count := r.count + (src s a).toNat } } := by
      show mget (mmod s.front.progs _ _) _ = _
      rw [mget_mmod, if_pos rfl]
      rfl
    obtain ⟨k, hk⟩ : ∃ k, s.th.kind = k := ⟨_, rfl⟩
    unfold State.taskRun
    rw [show u.th = s.th from rfl, hprog, hk]
    cases k <;> cases s.prog? s.th.prog <;> rfl
  refine ⟨_, hexec, xSet_setX d 0 hd rfl rfl rfl, ⟨rfl, rfl, rfl, rfl, rfl, rfl⟩, ?_, (State.mem_post _ _ _ _).2 (.inl rfl)⟩
  have hframe : (stepsPast (u.setX d 0)).taskRun = u.taskRun := by
    have hth : u.setX d 0 = { u with th := { u.th with x := (u.th.setX d.toNat 0).x } } := by
      show ({ u with th := u.th.setX d.toNat 0 } : State) = _
      rw [Thread.setX_frame]
    rw [hth]
    rfl
  rw [hframe, hrun, hr]
  rfl

theorem tgrow_full {s : State} {r : Run} (d a : BitVec 5) (hr : s.taskRun = some r) (hlt : 0xFFFFFFFF < r.count + (src s a).toNat) :
    Next (exec (.tgrow d a) s) (XWritten s d 1) := by
  have hexec : exec (.tgrow d a) s = writeX s d 1 := by
    show execTgrow d a s = _
    have hlt' : 0xFFFFFFFF < r.count + (s.x a).toNat := hlt
    simp only [execTgrow, hr, hlt', if_true]
    rfl
  rw [hexec]
  exact writeX_next s d 1

theorem tgrow_outside {s : State} (d a : BitVec 5) (hr : s.taskRun = none) : Next (exec (.tgrow d a) s) (XWritten s d 2) := by
  have hexec : exec (.tgrow d a) s = writeX s d 2 := by
    show execTgrow d a s = _
    simp only [execTgrow, hr]
    rfl
  rw [hexec]
  exact writeX_next s d 2

theorem tidx_reads {s : State} {n : Nat} (d : BitVec 5) (h : (s.taskRun.map (·.count)).getD 0 = n) :
    Next (exec (.tidx d) s) (XWritten s d (BitVec.ofNat 64 n)) := h ▸ writeX_next s d _

theorem tidxNx_reads {s : State} {n : Nat} (d : BitVec 5) (h : (s.taskRun.map (·.next)).getD 0 = n) :
    Next (exec (.tidxNx d) s) (XWritten s d (BitVec.ofNat 64 n)) := h ▸ writeX_next s d _

end Sys2Proof.Machine

namespace Sys2Proof.Proofs

open Sys2Proof.Machine Sys2Proof.Claims

/-- Settles O45, word by word. -/
theorem threadsStartEndAndMove : Obligations.ThreadsStartEndAndMove := by
  intro s d a b hd hquiet hcore x
  have hq : NoQueue s := hquiet.2.2
  refine ⟨fun n g hslot h8 h40 hu hst hb hg => spawn_places d a b hd hquiet hu hslot h8 h40 hst hb hg,
    fun hslot h8 h40 hu hb => spawn_without_bank d a b hd hquiet hu hslot h8 h40 hb,
    fun hst hg hs hk hkind => exit_ends hcore hq hst hg hs hk hkind,
    fun c hc => ⟨?_, fun hne => migr_sets_out hc hne hq, fun hne => migr_refused hc hne hq, fun hne hh hp => migrLd_sets_out hc hne hh hp hq⟩,
    migrLd_loads d a, yield_keeps_notBefore, yield_waits,
    fun r hr => ⟨tidx_reads d (by rw [hr]; rfl), tidxNx_reads d (by rw [hr]; rfl), tgrow_raises d a hd hr, tgrow_full d a hr⟩,
    fun hr => ⟨tgrow_outside d a hr, tidx_reads d (by rw [hr]; rfl), tidxNx_reads d (by rw [hr]; rfl)⟩⟩
  rintro rfl
  exact migr_own hc

end Sys2Proof.Proofs
end

section
/-! SUPPORT. What the host reads and writes, and the service of its packets (R34, R412-R417). -/

namespace Sys2Proof.Machine

open Sys2Proof.Claims

/-! ### Events while every slice is awake (R166) -/

/-- With every slice awake, no step waits for one. -/
theorem orWait_of_awake {s : State} (h : Awake s) (e : Event) (t : State) : (On s e).orWait (.next t) = .next t := by
  have hnone : (List.range 32).find? (fun h => ((On s e).home h).power != .awake && (t.home h).power == .awake) = none := by
    refine List.find?_eq_none.2 fun k _ => ?_
    have hk : ((On s e).home k).power = .awake := h k
    simp [hk]
  unfold State.orWait
  simp only [hnone]

@[simp] theorem length_toBytes (n v : Nat) : (toBytes n v).length = n := by simp [toBytes]

/-! ### Host errors (R413) -/

theorem counted_countHost (s : State) (e : Event) : Counted s (On s e).countHost 578 ctrHostErr := mget_mset_same _ _ _

/-! ### Registers (R412) -/

theorem hostRegisterWrite_readOnly {s : State} {off : Nat} (d : List Byte) (h : readOnlyAt off = true) :
    exec .hostRegisterWrite (On s (.hostRegisterWrite off d)) = .next (On s (.hostRegisterWrite off d)) := by
  show execHostRegisterWrite (On s (.hostRegisterWrite off d)) = _
  simp only [execHostRegisterWrite, h, Bool.not_true, Bool.and_false, Bool.false_eq_true, if_false]

theorem hostRegisterWrite_reserved {s : State} {off : Nat} (d : List Byte) (hup : s.hostUp = true) (h : readOnlyAt off = false) :
    exec .hostRegisterWrite (On s (.hostRegisterWrite off d)) = .next (On s (.hostRegisterWrite off d)).countHost := by
  have hup' : (On s (.hostRegisterWrite off d)).hostUp = true := hup
  show execHostRegisterWrite (On s (.hostRegisterWrite off d)) = _
  simp only [execHostRegisterWrite, h, hup', Bool.not_false, Bool.and_self, if_true]

/-! ### Queue windows (R414) -/

theorem hostQueueEnqueue_inside {s : State} (k : Nat) (d : List Byte) (ha : Awake s) (hup : s.hostUp = true) :
    exec .hostQueueEnqueue (On s (.hostQueueEnqueue k 0 d)) = .next ((On s (.hostQueueEnqueue k 0 d)).toWindow k d) := by
  have hup' : (On s (.hostQueueEnqueue k 0 d)).hostUp = true := hup
  show execHostQueueEnqueue (On s (.hostQueueEnqueue k 0 d)) = _
  simp only [execHostQueueEnqueue, orWait_of_awake ha, hup', Bool.not_true, Bool.false_eq_true, if_false, if_true]

theorem hostQueueEnqueue_outside {s : State} {off : Nat} (k : Nat) (d : List Byte) (ha : Awake s) (hup : s.hostUp = true) (h : off ≠ 0) :
    exec .hostQueueEnqueue (On s (.hostQueueEnqueue k off d)) = .next (On s (.hostQueueEnqueue k off d)).countHost := by
  have hup' : (On s (.hostQueueEnqueue k off d)).hostUp = true := hup
  show execHostQueueEnqueue (On s (.hostQueueEnqueue k off d)) = _
  simp only [execHostQueueEnqueue, orWait_of_awake ha, hup', Bool.not_true, Bool.false_eq_true, if_false, h]

/-- An element that finds room is in the queue. -/
theorem State.toWindow_enqueues {s u v : State} {k : Nat} {w : Window} {q : Queue} {d : List Byte}
    (hw : mget s.front.windows k = some w) (ha : s.activate (s.placeOfWindow w).1 w.qcb (s.placeOfWindow w).2 = .ok (q, u))
    (hlen : q.elem = d.length) (hput : u.putElem (s.placeOfWindow w).1 q d false = .ok (some v)) : s.toWindow k d = v := by
  unfold State.toWindow
  simp only [hw, ha, hlen, bne_self_eq_false, Bool.false_eq_true, if_false, hput]

/-- An element that finds none is counted at its window. -/
theorem State.toWindow_drops {s u : State} {k : Nat} {w : Window} {q : Queue} {d : List Byte}
    (hw : mget s.front.windows k = some w) (ha : s.activate (s.placeOfWindow w).1 w.qcb (s.placeOfWindow w).2 = .ok (q, u))
    (hlen : q.elem = d.length) (hput : u.putElem (s.placeOfWindow w).1 q d false = .ok none) : s.toWindow k d = u.dropElem k := by
  unfold State.toWindow
  simp only [hw, ha, hlen, bne_self_eq_false, Bool.false_eq_true, if_false, hput]

theorem State.dropElem_drops {s : State} {k : Nat} {w : Window} (hw : mget s.front.windows k = some w) :
    (mget (s.dropElem k).front.windows k).map (·.drops) = some (min (w.drops + 1) 0xFFFF) := by
  show (mget (mmod s.front.windows k _) k).map _ = _
  rw [mget_mmod, if_pos rfl, hw]
  rfl

theorem hostQueueDequeue_reads {s : State} (k n off : Nat) (ha : Awake s) (hup : s.hostUp = true) :
    exec .hostQueueDequeue (On s (.hostQueueDequeue k off n)) = .next ((On s (.hostQueueDequeue k off n)).readWindow k off n) := by
  have hup' : (On s (.hostQueueDequeue k off n)).hostUp = true := hup
  show execHostQueueDequeue (On s (.hostQueueDequeue k off n)) = _
  simp only [execHostQueueDequeue, orWait_of_awake ha, hup', if_true]

theorem State.readWindow_elsewhere (s : State) (k n : Nat) {off : Nat} (h8 : off ≠ 0x800) (hF : off ≠ 0xFF8) :
    s.readWindow k off n = s.countHost.modFront fun f => { f with hostRead := toBytes n 0 } := by
  unfold State.readWindow
  simp only [h8, hF, if_false, decide_false, Bool.false_and, Bool.false_eq_true]

/-- An element of the queue goes to the host. -/
theorem State.readWindow_dequeues {s u v : State} {k : Nat} {w : Window} {q : Queue} {d : List Byte}
    (hw : mget s.front.windows k = some w) (ha : s.activate (s.placeOfWindow w).1 w.qcb (s.placeOfWindow w).2 = .ok (q, u))
    (htake : u.takeElem (s.placeOfWindow w).1 q = .ok (some (d, v))) : s.readWindow k 0x800 q.elem = v.toHost q.multi d := by
  unfold State.readWindow State.fromWindow
  simp only [if_true, hw, ha, bne_self_eq_false, Bool.false_eq_true, if_false, htake]

theorem State.readWindow_empty {s u : State} {k : Nat} {w : Window} {q : Queue}
    (hw : mget s.front.windows k = some w) (ha : s.activate (s.placeOfWindow w).1 w.qcb (s.placeOfWindow w).2 = .ok (q, u))
    (htake : u.takeElem (s.placeOfWindow w).1 q = .ok none) :
    s.readWindow k 0x800 q.elem = u.modFront fun f => { f with hostRead := List.replicate q.elem 0xFF } := by
  unfold State.readWindow State.fromWindow
  simp only [if_true, hw, ha, bne_self_eq_false, Bool.false_eq_true, if_false, htake]

theorem State.toHost_now {s : State} {m : Bool} (d : List Byte) (h : m = false ∨ s.front.mirroring = false) :
    s.toHost m d = { s with front := { s.front with hostRead := d } } := by
  have hno : (m && s.front.mirroring && s.front.active) = false := by rcases h with h | h <;> simp [h]
  unfold State.toHost
  rw [hno]
  rfl

theorem State.toHost_held {s : State} (d : List Byte) (hm : s.front.mirroring = true) (ha : s.front.active = true) :
    s.toHost true d = { s with front := { s.front with hostHeld := s.front.hostHeld ++ [(s.front.mirrorSeq, d)] } } := by
  unfold State.toHost
  rw [hm, ha]
  rfl

/-! ### LXM slots (R415) -/

theorem mget_lxm_modSlot {s : State} {n : Nat} {l : LxmSlot} (f : LxmSlot → LxmSlot) (h : mget s.lxm n = some l) :
    mget (s.modSlot n f).lxm n = some (f l) := by
  show mget (mmod s.lxm n f) n = _
  rw [mget_mmod, if_pos rfl, h]
  rfl

/-- A slot with buffer `b` changed by `f`. -/
def LxmSlot.setBuffer (l : LxmSlot) (b : Nat) (f : Buffer → Buffer) : LxmSlot := { l with buffers := mset l.buffers b (f (l.buffer b)) }

@[simp] theorem LxmSlot.buffer_setBuffer (l : LxmSlot) (b : Nat) (f : Buffer → Buffer) : (l.setBuffer b f).buffer b = f (l.buffer b) := by
  show (mget (mset l.buffers b _) b).getD {} = _
  rw [mget_mset_same]
  rfl

theorem mget_lxm_modBuffer {s : State} {n : Nat} {l : LxmSlot} (b : Nat) (f : Buffer → Buffer) (h : mget s.lxm n = some l) :
    mget (s.modBuffer n b f).lxm n = some (l.setBuffer b f) := mget_lxm_modSlot _ h

/-- What the host reads of the control of a slot whose buffer it has latched. -/
theorem State.slotView_latched {s : State} {k b : Nat} {m : LxmSlot} (hm : mget s.lxm k = some m) (hb : m.hostLatch = some b) :
    (s.slotView k).1 = slotControl (m.buffer b) m.hostStatus := by
  simp only [State.slotView, hm, hb]

/-- Control does not show the count of readers. -/
theorem slotControl_readers (x : Buffer) (n st : Nat) : slotControl { x with readers := n } st = slotControl x st := rfl

theorem hostSlotControlRead_latches {s : State} {k b : Nat} {l : LxmSlot} (hup : s.hostUp = true) (hl : mget s.lxm k = some l)
    (hlatch : l.hostLatch = none) (hpick : l.pick none = some b) (hr : l.reads < l.readers) :
    Next (exec .hostSlotControlRead (On s (.hostSlotControlRead k))) fun t => t.front.hostRead = slotControl (l.buffer b) 0 ∧
      ∃ m, mget t.lxm k = some m ∧ m.hostLatch = some b ∧ (m.buffer b).readers = (l.buffer b).readers + 1 := by
  set e := On s (.hostSlotControlRead k) with he
  have hl' : mget e.lxm k = some l := hl
  have hup' : e.hostUp = true := hup
  have hun : e.unlatch k = e := by simp only [State.unlatch, hl', Option.bind_some, hlatch]
  set u := ((e.modBuffer k b fun x => { x with readers := x.readers + 1 }).modSlot k fun l => { l with hostLatch := some b }).modSlot k
    fun l => { l with hostStatus := 0 } with hu
  have hlatched : e.latchSlot k = u := by
    simp only [State.latchSlot, hun, hl', hpick, Nat.not_le.2 hr, if_false]
    rfl
  have hm := mget_lxm_modSlot (fun l => { l with hostStatus := 0 }) (mget_lxm_modSlot (fun l => { l with hostLatch := some b })
    (mget_lxm_modBuffer b (fun x => { x with readers := x.readers + 1 }) hl'))
  rw [← hu] at hm
  have hbuf := LxmSlot.buffer_setBuffer l b fun x => { x with readers := x.readers + 1 }
  refine ⟨u.modFront fun f => { f with hostRead := (u.slotView k).1 }, ?_, ?_, _, hm, rfl, congrArg Buffer.readers hbuf⟩
  · show execHostSlotControlRead e = _
    simp only [execHostSlotControlRead, he] at hup' hlatched ⊢
    simp only [hup', hlatched, Bool.not_true, Bool.false_eq_true, if_false]
  · exact (State.slotView_latched hm rfl).trans ((congrArg (slotControl · 0) hbuf).trans (slotControl_readers _ _ _))

theorem hostSlotDataWrite_claims {s : State} {k b off : Nat} {l : LxmSlot} (d : List Byte) (hup : s.hostUp = true)
    (hl : mget s.lxm k = some l) (hfits : off + d.length ≤ l.size) (hnone : l.hostClaim = none) (hclaim : l.claim = some b) :
    Next (exec .hostSlotDataWrite (On s (.hostSlotDataWrite k off d))) fun t => ∃ m, mget t.lxm k = some m ∧
      m.hostClaim = some b ∧ m.writing = some b ∧ (m.buffer b).complete = false ∧
      (m.buffer b).data = wrBlock (l.buffer b).data off d := by
  have hup' : (On s (.hostSlotDataWrite k off d)).hostUp = true := hup
  have hl' : mget (On s (.hostSlotDataWrite k off d)).lxm k = some l := hl
  have hm := mget_lxm_modBuffer b (fun x => { x with data := wrBlock x.data off d })
    (mget_lxm_modBuffer b (fun x => { x with complete := false, bad := [] })
      (mget_lxm_modSlot (fun l => { l with writing := some b, hostClaim := some b }) hl'))
  refine ⟨_, ?_, _, hm, rfl, rfl, ?_, ?_⟩
  · show execHostSlotDataWrite (On s (.hostSlotDataWrite k off d)) = _
    simp only [execHostSlotDataWrite, hup', if_true, State.writeSlot, hl', Nat.not_lt.2 hfits, if_false, hnone, hclaim]
  · rw [LxmSlot.buffer_setBuffer, LxmSlot.buffer_setBuffer]
  · rw [LxmSlot.buffer_setBuffer, LxmSlot.buffer_setBuffer]
    rfl

/-- A commit to a slot that is not mirrored. -/
theorem State.commitSlot_unmirrored {s : State} {k : Nat} {l : LxmSlot} (b time : Nat) (hl : mget s.lxm k = some l)
    (hmir : l.mirrored = false) :
    s.commitSlot k b time = (s.modBuffer k b fun x =>
      { x with version := l.last + 1, time := time, complete := true, epoch := s.front.epoch }).modSlot k fun x =>
      { x with last := l.last + 1, latest := some b, writing := none } := by
  have hm := mget_lxm_modSlot (fun x => { x with last := l.last + 1, latest := some b, writing := none })
    (mget_lxm_modBuffer b (fun x => { x with version := l.last + 1, time := time, complete := true, epoch := s.front.epoch }) hl)
  have hno : (l.setBuffer b fun x =>
    { x with version := l.last + 1, time := time, complete := true, epoch := s.front.epoch }).mirrored = false := hmir
  simp only [State.commitSlot, hl, Option.map_some, Option.getD_some, hm, hno, Bool.false_eq_true, if_false]

theorem hostSlotCommit_publishes {s : State} {k b : Nat} {l : LxmSlot} (v : Word) (hup : s.hostUp = true) (hl : mget s.lxm k = some l)
    (hclaim : l.hostClaim = some b) (hmir : l.mirrored = false) :
    Next (exec .hostSlotCommit (On s (.hostSlotCommit k v))) fun t => ∃ m, mget t.lxm k = some m ∧ m.latest = some b ∧
      m.last = l.last + 1 ∧ m.hostClaim = none ∧ m.writing = none ∧
      (m.buffer b).time = (if v = 0 then s.meridianNow else v.toNat) ∧ (m.buffer b).complete = true := by
  have hup' : (On s (.hostSlotCommit k v)).hostUp = true := hup
  have hl' : mget (On s (.hostSlotCommit k v)).lxm k = some l := hl
  have hzero : v.toNat = 0 ↔ v = 0 := by simp [← BitVec.toNat_inj]
  have hbuf := LxmSlot.buffer_setBuffer l b fun x => { x with
    version := l.last + 1, time := if v = 0 then s.meridianNow else v.toNat, complete := true, epoch := s.front.epoch }
  refine ⟨_, ?_, _, mget_lxm_modSlot (fun l => { l with hostClaim := none, hostStatus := 0 })
    (mget_lxm_modSlot (fun x => { x with last := l.last + 1, latest := some b, writing := none }) (mget_lxm_modBuffer b (fun x => { x with
      version := l.last + 1, time := if v = 0 then s.meridianNow else v.toNat, complete := true, epoch := s.front.epoch }) hl')),
    rfl, rfl, rfl, rfl, congrArg Buffer.time hbuf, congrArg Buffer.complete hbuf⟩
  show execHostSlotCommit (On s (.hostSlotCommit k v)) = _
  simp only [execHostSlotCommit, hup', if_true, State.hostCommit, hl', hclaim, State.commitSlot_unmirrored _ _ hl' hmir, hzero]
  rfl

theorem hostSlotRelease_unlatches {s : State} {k b : Nat} {l : LxmSlot} (hup : s.hostUp = true) (hl : mget s.lxm k = some l)
    (hlatch : l.hostLatch = some b) (hclaim : l.hostClaim = none) :
    Next (exec .hostSlotRelease (On s (.hostSlotRelease k))) fun t =>
      ∃ m, mget t.lxm k = some m ∧ m.hostLatch = none ∧ (m.buffer b).readers = (l.buffer b).readers - 1 := by
  have hup' : (On s (.hostSlotRelease k)).hostUp = true := hup
  have hl' : mget (On s (.hostSlotRelease k)).lxm k = some l := hl
  have hm := mget_lxm_modSlot (fun l => { l with hostLatch := none }) (mget_lxm_modBuffer b (fun x => { x with readers := x.readers - 1 }) hl')
  refine ⟨_, ?_, _, hm, rfl, ?_⟩
  · show execHostSlotRelease (On s (.hostSlotRelease k)) = _
    simp only [execHostSlotRelease, hup', Bool.not_true, Bool.false_eq_true, if_false, hl', Option.bind_some, hlatch, hclaim,
      Option.isSome_some, Option.isSome_none, Bool.or_self, State.unlatch]
  · exact congrArg Buffer.readers (LxmSlot.buffer_setBuffer l b fun x => { x with readers := x.readers - 1 })

/-! ### BAR2 (R416) -/

theorem hostBar2Access_unbound {s : State} (w : Bool) (off n : Nat) (d : List Byte) (ha : Awake s) (hup : s.hostUp = true)
    (hb : s.front.bar2 = none) :
    Next (exec .hostBar2Access (On s (.hostBar2Access w off n d))) fun t => Counted s t 578 ctrHostErr ∧ t.dram = s.dram := by
  have hup' : (On s (.hostBar2Access w off n d)).hostUp = true := hup
  refine ⟨(On s (.hostBar2Access w off n d)).bar2Access w off n d, ?_, ?_⟩
  · show execHostBar2Access (On s (.hostBar2Access w off n d)) = _
    simp only [execHostBar2Access, orWait_of_awake ha, hup', if_true]
  · unfold State.bar2Access
    simp only [hb]
    cases w
    · exact ⟨counted_countHost s _, rfl⟩
    · exact ⟨counted_countHost s _, rfl⟩

theorem hostBar2Access_writes {s u : State} {b : Bar2} {off n : Nat} {d : List Byte} (ha : Awake s) (hup : s.hostUp = true)
    (hb : s.front.bar2 = some b) (hfits : off + d.length ≤ b.length)
    (hw : (On s (.hostBar2Access true off n d)).wrAny b.space b.tenant (b.offset + off) d = .got () u) :
    exec .hostBar2Access (On s (.hostBar2Access true off n d)) = .next u := by
  have hup' : (On s (.hostBar2Access true off n d)).hostUp = true := hup
  show execHostBar2Access (On s (.hostBar2Access true off n d)) = _
  simp only [execHostBar2Access, orWait_of_awake ha, hup', if_true, State.bar2Access, hb, Nat.not_lt.2 hfits, if_false, hw]

theorem hostBar2Access_reads {s u : State} {b : Bar2} {off n : Nat} {d l : List Byte} (ha : Awake s) (hup : s.hostUp = true)
    (hb : s.front.bar2 = some b) (hfits : off + n ≤ b.length)
    (hr : (On s (.hostBar2Access false off n d)).rdAny b.space b.tenant (b.offset + off) n = .got l u) :
    exec .hostBar2Access (On s (.hostBar2Access false off n d)) = .next { u with front := { u.front with hostRead := l } } := by
  have hup' : (On s (.hostBar2Access false off n d)).hostUp = true := hup
  show execHostBar2Access (On s (.hostBar2Access false off n d)) = _
  simp only [execHostBar2Access, orWait_of_awake ha, hup', if_true, Bool.false_eq_true, if_false, State.bar2Access, hb, Nat.not_lt.2 hfits, hr]
  rfl

end Sys2Proof.Machine
end

section
/-! SUPPORT. The service of packets and the commands with their completions (R34, R205, R311, R384, R385, R417-R420, R425-R432). -/

namespace Sys2Proof.Machine

open Sys2Proof.Claims

/-! ### Service of packets (R34) -/

/-- A window without a packet to serve yields none. -/
theorem State.serveClass_none {s : State} {k : Nat} {w : Window} {class_ : Bool} (hw : s.front.windows = [(k, w)]) (hc : w.latency ≠ class_) :
    s.serveClass class_ = (s, false) := by
  have hl : (s.front.windows.filter fun w => s.servable w.1 w.2 && w.2.latency == class_) = [] := by simp [hw, hc]
  unfold State.serveClass
  simp only [hl, List.filter_nil, State.firstPacket, Bool.false_eq_true, if_false]

/-- A window alone in its class is served. -/
theorem State.serveClass_served {s v : State} {k : Nat} {w : Window} (hw : s.front.windows = [(k, w)]) (hs : s.servable k w = true)
    (hn : w.served < w.weight) (hv : s.servePacket k w = (v, true)) : s.serveClass w.latency = (v, true) := by
  have hl : (s.front.windows.filter fun x => s.servable x.1 x.2 && x.2.latency == w.latency) = [(k, w)] := by simp [hw, hs]
  unfold State.serveClass
  simp only [hl, List.filter_cons, hn, decide_true, if_true, List.filter_nil, State.firstPacket, hv]

/-- A packet that nothing holds leaves its queue and runs 16 core cycles later. -/
theorem State.servePacket_runs {s u v : State} {k : Nat} {w : Window} {p : Packet} {e : Event} (hh : s.headOf k w = some (p, u))
    (hfree : bit (field p 1 1) 0 = false ∨ mget u.front.freed k = some p) (he : commandOf p = some e) (hv : u.dropHead w = some v) :
    s.servePacket k w = ((((v.modFront fun r => { r with freed := mdel r.freed k }).modWindow k fun w =>
      { w with served := w.served + 1 }).take1 p).post 32 e, true) := by
  have hgo : (!bit (field p 1 1) 0 || mget u.front.freed k == some p) = true := by
    rcases hfree with h | h <;> simp [h]
  unfold State.servePacket
  simp only [hh, hgo, if_true, hv, State.runPacket, he]
  rfl

theorem commandDispatch_serves {s u v : State} {k : Nat} {p : Packet} {w : Window} {e : Event} (ha : Awake s) (hboot : s.front.boot = 5)
    (hw : s.front.windows = [(k, w)]) (hs : s.servable k w = true) (hn : w.served < w.weight)
    (hh : (On s .commandDispatch).headOf k w = some (p, u)) (hfree : bit (field p 1 1) 0 = false ∨ mget u.front.freed k = some p)
    (he : commandOf p = some e) (hv : u.dropHead w = some v) :
    Next (exec .commandDispatch (On s .commandDispatch)) fun t => Comes t (v.now + 32) e ∧ p ∈ t.front.dequeued := by
  set x := (((v.modFront fun r => { r with freed := mdel r.freed k }).modWindow k fun w => { w with served := w.served + 1 }).take1 p).post 32 e
    with hx
  have hserved : (On s .commandDispatch).serveClass w.latency = (x, true) :=
    State.serveClass_served hw hs hn (State.servePacket_runs hh hfree he hv)
  -- the class of the window is the latency class or comes second
  have hclasses : (if ((On s .commandDispatch).serveClass true).2 then ((On s .commandDispatch).serveClass true).1
      else (((On s .commandDispatch).serveClass true).1.serveClass false).1) = x := by
    cases hl : w.latency with
    | true =>
      rw [hl] at hserved
      rw [hserved]
      rfl
    | false =>
      rw [hl] at hserved
      rw [State.serveClass_none (s := On s .commandDispatch) (class_ := true) hw (by simp [hl]), hserved]
      rfl
  refine ⟨x.post (cyc 16) .commandDispatch, ?_, ?_, ?_⟩
  · have hboot' : ¬(On s .commandDispatch).front.boot ≠ 5 := fun h => h hboot
    show execCommandDispatch (On s .commandDispatch) = _
    simp only [execCommandDispatch, orWait_of_awake ha, hboot', if_false, hclasses]
  · exact (State.mem_post _ _ _ _).2 (.inr ((State.mem_post _ _ _ _).2 (.inl rfl)))
  · exact List.mem_append_right _ (List.mem_singleton_self p)

/-- A held packet whose signal is read. -/
theorem packetSignalRelease_reads {s : State} {k : Nat} {q : Packet} {w : Window} (ha : Awake s) (hboot : s.front.boot = 5)
    (hq : mget s.front.held k = some q) (hw : mget s.front.windows k = some w) :
    exec .packetSignalRelease (On s (.packetSignalRelease k)) = .next ((On s (.packetSignalRelease k)).readSignal k w) := by
  have hboot' : ¬(On s (.packetSignalRelease k)).front.boot ≠ 5 := fun h => h hboot
  show execPacketSignalRelease (On s (.packetSignalRelease k)) = _
  simp only [execPacketSignalRelease, orWait_of_awake ha, hq, hw, hboot', if_false]

/-- A signal that can be read lets the packet go on, or holds it on. -/
theorem State.readSignal_eq {s u x : State} {k n : Nat} {w : Window} {p : Packet} (hh : s.headOf k w = some (p, u))
    (hv : u.signalValue p = some (n, x)) :
    s.readSignal k w = if signalHolds p n then
        (x.modFront fun f => { f with held := mdel f.held k }).modFront fun f => { f with freed := mset f.freed k p }
      else (x.modFront fun f => { f with held := mset f.held k p }).post (cyc 64) (.packetSignalRelease k) := by
  unfold State.readSignal
  revert hv
  induction State.signalValue using of_forall with | all value =>
  intro hv
  simp only [hh, hv]

theorem State.readSignal_holds {s u x : State} {k n : Nat} {w : Window} {p : Packet} (hh : s.headOf k w = some (p, u))
    (hv : u.signalValue p = some (n, x)) (hsig : signalHolds p n = true) :
    s.readSignal k w = (x.modFront fun f => { f with held := mdel f.held k }).modFront fun f => { f with freed := mset f.freed k p } := by
  rw [State.readSignal_eq hh hv, if_pos hsig]

theorem State.readSignal_waits {s u x : State} {k n : Nat} {w : Window} {p : Packet} (hh : s.headOf k w = some (p, u))
    (hv : u.signalValue p = some (n, x)) (hsig : signalHolds p n = false) :
    s.readSignal k w = (x.modFront fun f => { f with held := mset f.held k p }).post 128 (.packetSignalRelease k) := by
  rw [State.readSignal_eq hh hv, if_neg (Bool.eq_false_iff.1 hsig)]
  rfl

/-! ### Completions (R420) -/

theorem length_completion (op st seq a b c : Nat) : (completion op st seq a b c).length = 32 := by
  simp [completion]

/-- A packet that has left its queue completes with 32 bytes in the queue of its completion window. -/
theorem State.completePkt_enqueues {s u v : State} {p : Packet} {w : Window} {q : Queue} {st a b c : Nat} (hp : p ∈ s.front.dequeued)
    (hw : mget s.front.windows (windowOf p) = some w)
    (ha : ({ s with front := { s.front with dequeued := s.front.dequeued.erase p } } : State).activate (s.placeOfWindow w).1 w.qcb
      (s.placeOfWindow w).2 = .ok (q, u)) (hlen : q.elem = 32)
    (hput : u.putElem (s.placeOfWindow w).1 q (completion (opcodeOf p) st (seqOf p) a b c) false = .ok (some v)) :
    s.completePkt p st a b c = v.tryRebind p.window := by
  have hmem : (!s.front.dequeued.contains p) = false := by simpa using hp
  unfold State.completePkt
  simp only [hmem, Bool.false_eq_true, if_false]
  exact congrArg (State.tryRebind · p.window) (State.toWindow_enqueues (s := s.modFront fun f => { f with dequeued := f.dequeued.erase p })
    hw ha (hlen.trans (length_completion _ _ _ _ _ _).symm) hput)

/-! ### LOAD and LAUNCH (R418, R419) -/

theorem load_loads {s u : State} {p : Packet} {o : List Byte} (ha : Awake s)
    (hr : (On s (.load p)).rdAny (field p 0x28 2) p.tenant (field p 0x20 8) (field p 0x30 8) = .got o u) (ho : objectOk o = true) :
    exec .load (On s (.load p)) = .next (match u.loadObject o (field p 0x28 2) p.tenant with
      | .ok (g, v) => v.completePkt p 0 g 0 0
      | .error c => u.completePkt p 5 0 c 0) := by
  show execLoad (On s (.load p)) = _
  simp only [execLoad, orWait_of_awake ha, hr, ho, Bool.not_true, Bool.false_eq_true, if_false]
  cases u.loadObject o (field p 0x28 2) p.tenant <;> rfl

theorem launch_tenant {p : Packet} {g : Prog} (h : p.tenant = 0 ∨ p.tenant = g.tenant) : (p.tenant != 0 && p.tenant != g.tenant) = false := by
  rcases h with h | h <;> simp [h]

theorem launch_busy {s : State} {p : Packet} {g : Prog} (ha : Awake s) (hg : mget s.front.progs (field p 0x20 2) = some g)
    (ht : p.tenant = 0 ∨ p.tenant = g.tenant) (hrun : g.run ≠ none) :
    exec .launch (On s (.launch p)) = .next ((On s (.launch p)).completePkt p 3 0 0 0) := by
  have hg' : (On s (.launch p)).prog? (field p 0x20 2) = some g := hg
  have hsome : g.run.isSome = true := Option.isSome_iff_ne_none.2 hrun
  show execLaunch (On s (.launch p)) = _
  simp only [execLaunch, orWait_of_awake ha, hg', launch_tenant ht, hsome, Bool.false_eq_true, if_false, if_true]
  rfl

theorem launch_runs {s : State} {p : Packet} {g : Prog} (ha : Awake s) (hg : mget s.front.progs (field p 0x20 2) = some g)
    (ht : p.tenant = 0 ∨ p.tenant = g.tenant) (hrun : g.run = none) (hok : launchOk p g = true)
    (hpaired : (runOf p g s.front.orders).paired = false) (hplan : (runOf p g s.front.orders).planOk g = true) :
    Next (exec .launch (On s (.launch p))) fun t => (mget t.front.progs (field p 0x20 2)).map (·.run) = some (some (runOf p g s.front.orders)) ∧
      field p 0x20 2 ∈ (if (runOf p g s.front.orders).latency then t.front.latQueue else t.front.bulkQueue) ∧ Comes t s.now .admission := by
  set r := runOf p g s.front.orders with hr
  set n := field p 0x20 2 with hn
  set v := ((On s (.launch p)).modProg n fun g => { g with run := some r }).modFront fun f => { f with orders := f.orders + 1 } with hv
  set x := v.modFront fun f => if r.latency then { f with latQueue := f.latQueue ++ [n] } else { f with bulkQueue := f.bulkQueue ++ [n] }
    with hx
  have hexec : exec .launch (On s (.launch p)) = .next (x.post 0 .admission) := by
    have hg' : (On s (.launch p)).prog? n = some g := hg
    show execLaunch (On s (.launch p)) = _
    simp only [execLaunch, orWait_of_awake ha, ← hn, hg', launch_tenant ht, hrun, ← hr, hok, hpaired, hplan, Option.isSome_none,
      Bool.not_true, Bool.false_and, Bool.false_eq_true, if_false]
    rfl
  have hprogs : x.front.progs = v.front.progs := by
    show (if r.latency then _ else _ : Front).progs = _
    split <;> rfl
  refine ⟨_, hexec, ?_, ?_, (State.mem_post _ _ _ _).2 (.inl rfl)⟩
  · show (mget x.front.progs n).map _ = _
    rw [hprogs]
    show (mget (mmod s.front.progs n _) n).map _ = _
    rw [mget_mmod, if_pos rfl, hg]
    rfl
  · show n ∈ if r.latency then x.front.latQueue else x.front.bulkQueue
    rw [hx]
    show n ∈ if r.latency then (if r.latency then _ else _ : Front).latQueue else (if r.latency then _ else _ : Front).bulkQueue
    split <;> exact List.mem_append_right _ (List.mem_singleton_self n)

end Sys2Proof.Machine
end

section
/-! SUPPORT. Entries armed and disarmed, and the other commands (R205, R311, R384, R385, R389, R414-R418, R425, R426, R428, R432). -/

namespace Sys2Proof.Machine

open Sys2Proof.Claims

/-! ### Arming (R384, R385) -/

theorem State.front_foldl {α : Type} (f : State → α → State) (h : ∀ s a, (f s a).front = s.front) (l : List α) (s : State) :
    (l.foldl f s).front = s.front := by
  induction l generalizing s with
  | nil => rfl
  | cons a l ih => rw [List.foldl_cons, ih, h]

@[simp] theorem State.front_foldl_modCore (g : Nat → Core → Core) (l : List Nat) (s : State) :
    (l.foldl (fun s c => s.modCore c (g c)) s).front = s.front :=
  State.front_foldl (fun s c => s.modCore c (g c)) (fun _ _ => rfl) l s

@[simp] theorem State.front_foldl_lockText (p : Nat) (g : Prog) (l : List Nat) (s : State) :
    (l.foldl (fun s c => s.lockText c p g) s).front = s.front :=
  State.front_foldl (fun s c => s.lockText c p g) (fun _ _ => rfl) l s

@[simp] theorem State.front_wrReflex (s : State) (off : Nat) (d : List Byte) (m : List Bool) : (s.wrReflex off d m).front = s.front := by
  unfold State.wrReflex
  dsimp only
  split <;> rfl

@[simp] theorem State.front_copyText (s : State) (p : Nat) (g : Prog) : (s.copyText p g).front = s.front :=
  State.front_foldl _ (fun _ _ => State.front_wrReflex _ _ _ _) _ _

@[simp] theorem State.front_postRelease (s : State) (e k : Nat) : (s.postRelease e k).front = s.front := by
  unfold State.postRelease
  split <;> rfl

@[simp] theorem State.reflex_mirrorOut (s : State) (m : Mirror) : (s.mirrorOut m).front.reflex = s.front.reflex := by
  unfold State.mirrorOut
  split <;> rfl

/-- The first release on the grid of an entry lies after the arming (R385). -/
theorem first_release_later {t off period : Nat} (h : 0 < period) : t < off + (if t < off then 0 else (t - off) / period + 1) * period := by
  split
  · omega
  · have := Nat.lt_div_mul_add (a := t - off) h
    rw [Nat.add_mul, Nat.one_mul]
    omega

/-- The entry that an arming at this moment makes of an image (R385). -/
def State.armedReflex (s : State) (i : Line) : Reflex :=
  { image := armedImage i.toNat, armed := true
    first := rfOffset i.toNat +
      (if s.meridianNow < rfOffset i.toNat then 0 else (s.meridianNow - rfOffset i.toNat) / rfPeriod i.toNat + 1) * rfPeriod i.toNat }

/-- Arming enters the image in the table; the copy of the text and the maps leave the table as it is. -/
theorem State.reflex_armEntry (s : State) (k : Nat) (i : Line) :
    (s.armEntry k i false).front.reflex = mset s.front.reflex k (s.armedReflex i) := by
  unfold State.armEntry
  simp only [State.reflex_mirrorOut, State.front_postRelease, State.front_foldl_modCore]
  split
  · rw [State.front_foldl_lockText, State.front_copyText]
    rfl
  · rfl

theorem armEntry_arms (s : State) (k : Nat) (i : Line) (h : 0 < rfPeriod i.toNat) : ∃ r, mget (s.armEntry k i false).front.reflex k = some r ∧
    r.armed = true ∧ s.meridianNow < r.first ∧ r.next = 0 :=
  ⟨s.armedReflex i, by rw [State.reflex_armEntry, mget_mset_same], rfl, first_release_later h, rfl⟩

theorem arm_arms {s u : State} {p : Packet} {l : List Byte} {e : Nat} (ha : Awake s)
    (hr : (On s (.arm p)).rdAny (field p 0x28 2) p.tenant (field p 0x20 8) 64 = .got l u)
    (ho : ownObject p (some (rfTenant (ofBytes l))) = true) (hm : u.mayArm (ofBytes l) = true) (he : u.freeEntry = some e) :
    exec .arm (On s (.arm p)) = .next ((u.armEntry e (BitVec.ofNat 512 (ofBytes l)) false).completePkt p 0 e 0 0) := by
  show execArm (On s (.arm p)) = _
  unfold execArm
  revert hr
  induction State.rdAny using of_forall with | all read =>
  intro hr
  simp only [orWait_of_awake ha, hr, ho, hm, he, Bool.not_true, Bool.or_self, Bool.false_eq_true, if_false]
  rfl

theorem disarm_disarms {s : State} {p : Packet} {r : Reflex} (ha : Awake s) (hr : mget s.front.reflex (field p 0x20 1) = some r)
    (ho : ownObject p (some (rfTenant r.n)) = true) :
    exec .disarm (On s (.disarm p)) = .next (((On s (.disarm p)).disarmEntry (field p 0x20 1)).completePkt p 0 0 0 0) := by
  show execDisarm (On s (.disarm p)) = _
  simp only [execDisarm, orWait_of_awake ha, hr, ho, Bool.not_true, Bool.false_eq_true, if_false]
  rfl

/-! ### Commands (R418) -/

theorem signal_writes {s u : State} {p : Packet} (ha : Awake s)
    (hw : (On s (.signal p)).wrAny (field p 0x28 2) p.tenant (field p 0x20 8) (toBytes 8 (field p 0x30 8)) = .got () u) :
    exec .signal (On s (.signal p)) = .next (u.completePkt p 0 0 0 0) := by
  show execSignal (On s (.signal p)) = _
  unfold execSignal
  revert hw
  induction State.wrAny using of_forall with | all write =>
  intro hw
  simp only [orWait_of_awake ha, hw]
  rfl

/-- The window that a MAPQ describes (R432). -/
def mapqWindow (p : Packet) : Window :=
  { qcb := field p 0x28 8, space := field p 0x30 2, tenant := field p 0x23 1, cmd := bit (field p 0x21 1) 0
    latency := bit (field p 0x21 1) 1, weight := field p 0x22 1 }

theorem mapq_binds {s : State} {p : Packet} (ha : Awake s) (hok : mapqOk p = true) (hl : isLocal (field p 0x30 2) = true)
    (ht : p.tenant = 0 ∨ field p 0x23 1 = p.tenant) (hf : s.foreignSpace p (field p 0x30 2) = false)
    (hw : mget s.front.windows (field p 0x20 1) = none) :
    exec .mapq (On s (.mapq p)) = .next (({ On s (.mapq p) with
      front := { s.front with windows := mset s.front.windows (field p 0x20 1) (mapqWindow p) } } : State).completePkt p 0 0 0 0) := by
  have ht' : (p.tenant != 0 && field p 0x23 1 != p.tenant) = false := by rcases ht with h | h <;> simp [h]
  have hf' : (On s (.mapq p)).foreignSpace p (field p 0x30 2) = false := hf
  have hfw : (On s (.mapq p)).foreignWindow p (field p 0x20 1) = false := by simp [State.foreignWindow, hw]
  show execMapq (On s (.mapq p)) = _
  simp only [execMapq, orWait_of_awake ha, hok, hl, ht', hf', hfw, hw, Bool.not_true, Bool.or_self, Bool.false_eq_true, if_false]
  rfl

theorem mapbar_binds {s : State} {p : Packet} (ha : Awake s) (hl : isLocal (field p 0x28 2) = true) (hn : field p 0x30 8 ≤ 2 ^ 37)
    (ht : p.tenant = 0 ∨ field p 0x2A 1 = p.tenant ∧ ∀ b, s.front.bar2 = some b → b.tenant = p.tenant)
    (hf : s.foreignSpace p (field p 0x28 2) = false) :
    exec .mapbar (On s (.mapbar p)) = .next (({ On s (.mapbar p) with front := { s.front with
      bar2 := some ⟨field p 0x28 2, field p 0x20 8, field p 0x30 8, field p 0x2A 1⟩ } } : State).completePkt p 0 0 0 0) := by
  have ht' : (p.tenant != 0 && (field p 0x2A 1 != p.tenant || s.front.bar2.any fun b => b.tenant != p.tenant)) = false := by
    rcases ht with h | ⟨h, hb⟩
    · simp [h]
    · cases hbar : s.front.bar2 with
      | none => simp [h]
      | some b => simp [h, hb b hbar]
  have hf' : (On s (.mapbar p)).foreignSpace p (field p 0x28 2) = false := hf
  have hn' : ¬2 ^ 37 < field p 0x30 8 := Nat.not_lt.2 hn
  show execMapbar (On s (.mapbar p)) = _
  simp only [execMapbar, orWait_of_awake ha, hl, hn', ht', hf', Bool.not_true, decide_false, Bool.or_self, Bool.false_eq_true, if_false]
  rfl

/-- The state after a MAPWIN has written the descriptor: translations cached under the window are dropped (R205). -/
def State.windowMapped (s : State) (p : Packet) : State :=
  let a := bits s.front.droot.toNat 20 26 * 2 ^ 20 + 16 * field p 0x20 2
  let s := (s.pokeDram a 0 (toBytes 8 (field p 0x28 8)) []).pokeDram (a + 8) 0 (toBytes 8 (field p 0x30 8)) []
  { s with homes := s.homes.map fun h => (h.1, { h.2 with tlb := h.2.tlb.filter fun t => t.space != field p 0x20 2 }) }

theorem mapwin_binds {s : State} {p : Packet} (ha : Awake s) (hok : windowEntryOk (field p 0x20 2) (field p 0x28 8) (field p 0x30 8) = true)
    (ht : p.tenant = 0) : ∃ v : State, exec .mapwin (On s (.mapwin p)) = .next (v.completePkt p 0 0 0 0) ∧
      ∀ h ∈ v.homes, ∀ x ∈ h.2.tlb, x.space ≠ field p 0x20 2 := by
  have hf : (On s (.mapwin p)).foreignSpace p (field p 0x20 2) = false := by simp [State.foreignSpace, ht]
  refine ⟨(On s (.mapwin p)).windowMapped p, ?_, fun h hh x hx => ?_⟩
  · show execMapwin (On s (.mapwin p)) = _
    simp only [execMapwin, orWait_of_awake ha, hok, hf, ht, bne_self_eq_false, Bool.false_and, Bool.not_true, Bool.or_self,
      Bool.false_eq_true, if_false]
    rfl
  · obtain ⟨g, -, rfl⟩ := List.mem_map.1 hh
    simpa using (List.mem_filter.1 hx).2

theorem grant_grants {s : State} {p : Packet} {l : LxmSlot} {g : Prog} (ha : Awake s) (hl : mget s.lxm (field p 0x20 2) = some l)
    (hg : mget s.front.progs (field p 0x22 2) = some g) (ht : p.tenant = 0) :
    ∃ v : State, exec .grant (On s (.grant p)) = .next (v.completePkt p 0 0 0 0) ∧
      ∃ m, mget v.lxm (field p 0x20 2) = some m ∧ field p 0x22 2 ∈ m.granted ∧ m.mirrored = (l.mirrored || bit (field p 0x24 1) 0) := by
  have hg' : (On s (.grant p)).prog? (field p 0x22 2) = some g := hg
  have hown : ∀ t, ownObject p t = true := by intro t; simp [ownObject, ht]
  have hl' : mget (On s (.grant p)).lxm (field p 0x20 2) = some l := hl
  refine ⟨_, ?_, _, mget_lxm_modSlot (fun l => { l with
    granted := field p 0x22 2 :: l.granted.filter (· != field p 0x22 2), mirrored := l.mirrored || bit (field p 0x24 1) 0 }) hl',
    List.mem_cons_self, rfl⟩
  show execGrant (On s (.grant p)) = _
  simp only [execGrant, orWait_of_awake ha, hl', hg', hown, Bool.not_true, Bool.or_self, Bool.false_eq_true, if_false]
  rfl

theorem holdrel_refused {s : State} {p : Packet} (ha : Awake s) (h : s.critMissed = true ∨ s.front.boot = 6) :
    exec .holdrel (On s (.holdrel p)) = .next ((On s (.holdrel p)).completePkt p 1 0 0 0) := by
  have h' : ((On s (.holdrel p)).critMissed = true ∨ (On s (.holdrel p)).front.boot = 6) := h
  show execHoldrel (On s (.holdrel p)) = _
  simp only [execHoldrel, orWait_of_awake ha, Bool.or_eq_true, decide_eq_true_eq, h', if_true]
  rfl

theorem holdrel_releases {s : State} {p : Packet} (ha : Awake s) (hc : s.critMissed = false) (hb : s.front.boot ≠ 6) :
    exec .holdrel (On s (.holdrel p)) = .next (({ On s (.holdrel p) with
      front := { s.front with hold := false, latched := 0 } } : State).completePkt p 0 0 0 0) := by
  have hc' : (On s (.holdrel p)).critMissed = false := hc
  show execHoldrel (On s (.holdrel p)) = _
  simp only [execHoldrel, orWait_of_awake ha, hc', hb, decide_false, Bool.or_self, Bool.false_eq_true, if_false]
  rfl

theorem tenantCreate_creates {s : State} {p : Packet} (ha : Awake s) (ht : p.tenant = 0) (hn : field p 0x20 1 ≠ 0)
    (hnone : mget s.front.tenants (field p 0x20 1) = none) :
    exec .tenantCreate (On s (.tenantCreate p)) = .next (({ On s (.tenantCreate p) with
      front := { s.front with
        keys := s.front.keys + 1, tenants := mset s.front.tenants (field p 0x20 1) (s.front.keys + 1) } } : State).completePkt p 0 0 0 0) := by
  show execTenantCreate (On s (.tenantCreate p)) = _
  simp only [execTenantCreate, orWait_of_awake ha, ht, hn, hnone, Option.isSome_none, ne_eq, not_true_eq_false, or_self, Bool.false_eq_true,
    if_false]
  rfl

theorem tenantDestroy_destroys {s : State} {p : Packet} (ha : Awake s) (ht : p.tenant = 0) (hn : field p 0x20 1 ≠ 0)
    (hsome : mget s.front.tenants (field p 0x20 1) ≠ none) (hop : field p 0x21 1 = 1) (hr : s.tenantRuns (field p 0x20 1) = false) :
    exec .tenantDestroy (On s (.tenantDestroy p)) = .next (({ On s (.tenantDestroy p) with
      front := { s.front with tenants := mdel s.front.tenants (field p 0x20 1) } } : State).completePkt p 0 0 0 0) := by
  have hr' : (On s (.tenantDestroy p)).tenantRuns (field p 0x20 1) = false := hr
  have hnone : (mget s.front.tenants (field p 0x20 1)).isNone = false := by simpa [Option.isSome_iff_ne_none] using hsome
  show execTenantDestroy (On s (.tenantDestroy p)) = _
  simp only [execTenantDestroy, orWait_of_awake ha, ht, hn, hnone, hop, hr', ne_eq, not_true_eq_false, or_self, Bool.false_eq_true, if_false]
  rfl

/-- The report of R425: its head, the Ed25519 and the ML-DSA-65 signature. -/
theorem length_report (s : State) (nonce n : Nat) :
    (s.reportHead nonce ++ toBytes 64 (Config.ed25519 n).toNat ++ toBytes 3309 (Config.mlDsa65 n).toNat).length =
      32 + 48 + 48 + 4 + 4 + 4 + 4 + 64 + 3309 := by
  simp only [State.reportHead, List.length_append, length_toBytes]

theorem take_report (s : State) (nonce n : Nat) :
    (s.reportHead nonce ++ toBytes 64 (Config.ed25519 n).toNat ++ toBytes 3309 (Config.mlDsa65 n).toNat).take 32 = toBytes 32 nonce := by
  simp only [State.reportHead, List.append_assoc]
  exact List.take_left' (length_toBytes 32 nonce)

theorem attest_reports {s : State} (p : Packet) (ha : Awake s) :
    ∃ l : List Byte, l.length = 32 + 48 + 48 + 4 + 4 + 4 + 4 + 64 + 3309 ∧ l.take 32 = toBytes 32 (field p 0x20 32) ∧
      exec .attest (On s (.attest p)) = .next (({ On s (.attest p) with
        front := { s.front with report := some (field p 8 8, l) } } : State).completePkt p 0 0 0 0) := by
  refine ⟨_, length_report (On s (.attest p)) (field p 0x20 32) (ofBytes ((On s (.attest p)).reportHead (field p 0x20 32))),
    take_report _ _ _, ?_⟩
  show execAttest (On s (.attest p)) = _
  simp only [execAttest, orWait_of_awake ha]
  rfl

theorem cap_sets {s : State} {p : Packet} (ha : Awake s) (hlo : 900 ≤ field p 0x20 4) (hhi : field p 0x20 4 ≤ 3000)
    (hb : s.front.capBefore = none) :
    exec .cap (On s (.cap p)) = .next (({ On s (.cap p) with front := { s.front with cap := field p 0x20 4 } } : State).completePkt p 0 0 0 0) := by
  have hin : ¬(field p 0x20 4 < 900 ∨ 3000 < field p 0x20 4) := by omega
  show execCap (On s (.cap p)) = _
  simp only [execCap, orWait_of_awake ha, hin, if_false, State.modFront, hb]
  rfl

theorem msix_routes {s : State} {p : Packet} (ha : Awake s) (hv : field p 0x20 1 < 64) :
    exec .msix (On s (.msix p)) = .next (({ On s (.msix p) with
      front := { s.front with msix := mset s.front.msix (field p 0x22 2) (field p 0x20 1) } } : State).completePkt p 0 0 0 0) := by
  show execMsix (On s (.msix p)) = _
  simp only [execMsix, orWait_of_awake ha, Nat.not_le.2 hv, if_false]
  rfl

end Sys2Proof.Machine

namespace Sys2Proof.Proofs

open Sys2Proof.Machine Sys2Proof.Claims

/-- Settles O53, access by access and command by command. -/
theorem hostAccessesAndCommandsTakeEffect : Obligations.HostAccessesAndCommandsTakeEffect := by
  intro s k n p u ha f
  refine ⟨fun hup => ⟨?register, ?enqueue, ?outside, ?elsewhere, ?dequeue, ?slot,
      fun w off d => hostBar2Access_unbound w off n d ha hup,
      fun b off d l hb => ⟨hostBar2Access_writes ha hup hb, hostBar2Access_reads ha hup hb⟩⟩,
    fun hboot => ⟨fun w e v hw hs hn hh => commandDispatch_serves ha hboot hw hs hn hh, ?held⟩,
    fun o => load_loads ha, fun g hg ht => ⟨launch_busy ha hg ht, launch_runs ha hg ht⟩, fun l e => arm_arms ha,
    armEntry_arms s k, fun r => disarm_disarms ha, signal_writes ha,
    fun hok hl ht hf hw => ⟨mapqWindow p, rfl, rfl, rfl, rfl, rfl, rfl, mapq_binds ha hok hl ht hf hw⟩, mapbar_binds ha, mapwin_binds ha,
    fun l g => grant_grants ha, ⟨holdrel_refused ha, holdrel_releases ha⟩,
    fun ht hn => ⟨tenantCreate_creates ha ht hn, tenantDestroy_destroys ha ht hn⟩,
    attest_reports p ha, cap_sets ha, msix_routes ha, fun w q v st a b c => State.completePkt_enqueues⟩
  case register =>
    exact fun off d => ⟨hostRegisterWrite_readOnly d,
      fun h => ⟨_, hostRegisterWrite_reserved d hup h, counted_countHost s _, rfl, rfl, rfl⟩⟩
  case enqueue =>
    intro w q d v hw hact hlen
    refine ⟨fun hput => ?_, fun hput hw' => ⟨_, hostQueueEnqueue_inside k d ha hup, ?_⟩⟩
    · rw [hostQueueEnqueue_inside k d ha hup, State.toWindow_enqueues (s := On s (.hostQueueEnqueue k 0 d)) hw hact hlen hput]
    · rw [State.toWindow_drops (s := On s (.hostQueueEnqueue k 0 d)) hw hact hlen hput]
      exact State.dropElem_drops hw'
  case outside =>
    exact fun off d h => ⟨_, hostQueueEnqueue_outside k d ha hup h, counted_countHost s _, rfl, rfl⟩
  case elsewhere =>
    intro off h8 hF
    refine ⟨_, hostQueueDequeue_reads k n off ha hup, ?_⟩
    rw [State.readWindow_elsewhere _ k n h8 hF]
    exact ⟨counted_countHost s _, rfl, rfl, rfl⟩
  case dequeue =>
    intro w q d v hw hact hlen
    subst hlen
    rw [hostQueueDequeue_reads k _ _ ha hup]
    refine ⟨fun htake => ⟨fun hm => ?_, fun hm hmir hactive => ?_⟩, fun htake => ?_⟩
    · rw [State.readWindow_dequeues (s := On s (.hostQueueDequeue k 0x800 q.elem)) hw hact htake, State.toHost_now d hm]
    · rw [State.readWindow_dequeues (s := On s (.hostQueueDequeue k 0x800 q.elem)) hw hact htake, hm, State.toHost_held d hmir hactive]
    · rw [State.readWindow_empty (s := On s (.hostQueueDequeue k 0x800 q.elem)) hw hact htake]
      rfl
  case slot =>
    exact fun l b hl => ⟨hostSlotControlRead_latches hup hl, fun off d => hostSlotDataWrite_claims d hup hl,
      fun v => hostSlotCommit_publishes v hup hl, hostSlotRelease_unlatches hup hl⟩
  case held =>
    intro q w n x hq hw hh hv
    refine ⟨fun hsig => ⟨_, packetSignalRelease_reads ha hboot hq hw, ?_⟩, fun hsig => ⟨_, packetSignalRelease_reads ha hboot hq hw, ?_⟩⟩
    · rw [State.readSignal_holds hh hv hsig]
      exact ⟨mget_mdel_same _ _, mget_mset_same _ _ _⟩
    · rw [State.readSignal_waits hh hv hsig]
      exact ⟨mget_mset_same _ _ _, (State.mem_post _ _ _ _).2 (.inl rfl)⟩

end Sys2Proof.Proofs
end

section
/-! SUPPORT. What the end of a thread and the dropping of a compared request leave of the reflex schedule, the counters and the pairs
(R304, R396). -/

namespace Sys2Proof.Machine

open Sys2Proof.Claims

/-- From `s` to `t` the schedule and the counters stay, and no compared request comes in. -/
structure SchedKept (s t : State) : Prop where
  reflex : t.front.reflex = s.front.reflex
  counters : t.counters = s.counters
  pairs : ∀ x ∈ t.pairs, x ∈ s.pairs

namespace SchedKept

theorem refl (s : State) : SchedKept s s := ⟨rfl, rfl, fun _ h => h⟩

theorem trans {s t u : State} (h : SchedKept s t) (g : SchedKept t u) : SchedKept s u :=
  ⟨g.reflex.trans h.reflex, g.counters.trans h.counters, fun x hx => h.pairs x (g.pairs x hx)⟩

theorem foldl {α : Type} {s : State} (f : State → α → State) (l : List α) (h : ∀ s a, SchedKept s (f s a)) :
    SchedKept s (l.foldl f s) :=
  List.foldlRecOn l f (motive := fun t => SchedKept s t) (.refl s) fun t ht a _ => ht.trans (h t a)

/-! ### Changes of one part of the state -/

theorem post (s : State) (n : Nat) (e : Event) : SchedKept s (s.post n e) := ⟨rfl, rfl, fun _ h => h⟩

theorem modCore (s : State) (c : Nat) (f : Core → Core) : SchedKept s (s.modCore c f) := ⟨rfl, rfl, fun _ h => h⟩

theorem contexts (s : State) (l : List (Nat × Context)) : SchedKept s { s with contexts := l } := ⟨rfl, rfl, fun _ h => h⟩

theorem modSlot (s : State) (n : Nat) (f : LxmSlot → LxmSlot) : SchedKept s (s.modSlot n f) := ⟨rfl, rfl, fun _ h => h⟩

theorem modProg (s : State) (p : Nat) (f : Prog → Prog) : SchedKept s (s.modProg p f) := ⟨rfl, rfl, fun _ h => h⟩

theorem mapCores (s : State) (f : Core → Core) : SchedKept s (s.mapCores f) := ⟨rfl, rfl, fun _ h => h⟩

theorem cancelAlarm (s : State) (w : Who) : SchedKept s (s.cancelAlarm w) := ⟨rfl, rfl, fun _ h => h⟩

theorem modCoreAt (s : State) (place : Nat) (f : Core → Core) : SchedKept s (s.modCoreAt place f) := by
  unfold State.modCoreAt
  split
  · exact .contexts s _
  · exact .modCore s _ _

theorem modThread (s : State) (w : Who) (f : Thread → Thread) : SchedKept s (s.modThread w f) := by
  unfold State.modThread
  split
  · exact .modCore s _ _
  · exact .contexts s _
  · exact ⟨rfl, rfl, fun _ h => h⟩
  · exact .refl s

theorem modAny (s : State) (w : Who) (f : Thread → Thread) : SchedKept s (s.modAny w f) := by
  unfold State.modAny
  split
  · exact .modCoreAt s _ _
  · exact .modThread s _ _

theorem releaseIfDrained (s : State) (w : Who) : SchedKept s (s.releaseIfDrained w) := by
  rcases State.releaseIfDrained_cases s w with h | ⟨p, b, h⟩ | h <;> rw [h]
  · exact .refl s
  · exact .post s _ _
  · exact .post s _ _

/-! ### The end of a thread (R304) -/

theorem setGroup (s : State) (c dom : Nat) (g : Option Group) : SchedKept s (s.setGroup c dom g) := by
  unfold State.setGroup
  dsimp only
  refine ⟨?_, rfl, fun _ h => h⟩
  show (if s.reflexSide c then _ else _ : Front).reflex = _
  split <;> rfl

theorem settleGroup (s : State) (c dom : Nat) (g : Group) : SchedKept s (s.settleGroup c dom g) := by
  unfold State.settleGroup
  split
  · exact .setGroup s _ _ _
  · split
    · exact (SchedKept.setGroup s _ _ _).trans (.foldl _ _ fun s m => .modThread s m _)
    · exact .setGroup s _ _ _

theorem leaveGroup (s : State) (c : Nat) (w : Who) (dom : Nat) : SchedKept s (s.leaveGroup c w dom) := by
  unfold State.leaveGroup
  split
  · exact .refl s
  · exact .settleGroup s _ _ _

theorem endStreams (s : State) (place : Nat) (t : Thread) : SchedKept s (s.endStreams place t) := by
  refine .foldl _ _ fun s e => ?_
  dsimp only
  split
  · exact .modCoreAt s _ _
  · exact (SchedKept.modCoreAt s _ _).trans (.post _ _ _)

theorem checkBarrier (s : State) (p copy : Nat) : SchedKept s (s.checkBarrier p copy) := by
  unfold State.checkBarrier
  split
  · exact .refl s
  · dsimp only
    split
    · exact .refl s
    · split
      · exact (SchedKept.modProg s _ _).trans (.post _ _ _)
      · exact (SchedKept.modProg s _ _).trans (.post _ _ _)

theorem dropCompletions (s : State) (w : Who) : SchedKept s (s.dropCompletions w) := by
  rw [(copiesDropped_dropCompletions s w).frame]
  exact ⟨rfl, rfl, fun _ h => h⟩

theorem stopThread (s : State) (place b : Nat) : SchedKept s (s.stopThread place b) := by
  unfold State.stopThread
  dsimp only
  split
  · exact .refl s
  · next t _ =>
    split
    · exact .refl s
    · refine .trans ?_ (.releaseIfDrained _ _)
      refine .trans ?_ (.dropCompletions _ _)
      have hstopped (u : State) (hu : SchedKept s u) (k : Core → Core) :
          SchedKept s (((u.endStreams place t).cancelAlarm t.who).modCoreAt place k) :=
        ((hu.trans (.endStreams _ _ _)).trans (.cancelAlarm _ _)).trans (.modCoreAt _ _ _)
      have hleft : SchedKept s (match t.group with
          | some dom => s.leaveGroup place t.who dom
          | none => s) := by
        split
        · exact .leaveGroup s _ _ _
        · exact .refl s
      split
      · exact (hstopped _ hleft _).trans (.checkBarrier _ _ _)
      · exact hstopped _ hleft _

theorem stopQueued (s : State) (id : Nat) (m : Moving) : SchedKept s (s.stopQueued id m) := by
  unfold State.stopQueued
  dsimp only
  refine .trans ?_ (.post _ _ _)
  refine .trans ?_ (.dropCompletions _ _)
  refine .trans ?_ (.cancelAlarm _ _)
  refine .trans ?_ (.modCoreAt _ _ _)
  have hleft : SchedKept s (match m.thread.group with
      | some dom => s.leaveGroup m.dest m.thread.who dom
      | none => s) := by
    split
    · exact .leaveGroup s _ _ _
    · exact .refl s
  exact ⟨hleft.reflex, hleft.counters, hleft.pairs⟩

theorem startClearing (s : State) (c : Nat) : SchedKept s (s.startClearing c) := by
  unfold State.startClearing
  split
  · exact .refl s
  · exact (SchedKept.modCore s _ _).trans (.post _ _ _)

theorem unstakeCore (s : State) (p c : Nat) : SchedKept s (s.unstakeCore p c) := by
  unfold State.unstakeCore
  dsimp only
  refine .trans ?_ (.startClearing _ _)
  refine .trans ?_ (.mapCores _ _)
  refine .trans ?_ (.modCore _ _ _)
  refine .trans ?_ (.modProg _ _ _)
  exact .trans (.foldl _ _ fun s b => .stopThread s _ _) (.foldl _ _ fun s m => .stopQueued s _ _)

theorem endThread (s : State) (place b : Nat) : SchedKept s (s.endThread place b) := by
  unfold State.endThread
  split
  · exact .refl s
  · exact (SchedKept.stopThread s _ _).trans (.foldl _ _ fun s c => .unstakeCore s _ _)

theorem endActivation (s : State) (e : Nat) : SchedKept s (s.endActivation e) :=
  .foldl _ _ fun s _ => .endThread s _ _

/-! ### Compared requests that are dropped (R396) -/

theorem giveUp (s : State) (y : Copy) : SchedKept s (s.giveUp y) := by
  rw [(copiesDropped_giveUp s y).frame]
  exact ⟨rfl, rfl, fun _ h => h⟩

theorem dropCopy (s : State) (place cid : Nat) (y : Copy) : SchedKept s (s.dropCopy place cid y) := by
  have hput (s : State) (y : Copy) :
      SchedKept s ((s.modCoreAt place fun k => { k with copies := mset k.copies cid y }).post 2 (.copySectorReply place cid)) :=
    (SchedKept.modCoreAt s _ _).trans (.post _ _ _)
  unfold State.dropCopy
  dsimp only
  split
  · exact (SchedKept.giveUp s _).trans (hput _ _)
  · exact hput _ _
  · exact (SchedKept.modThread s _ _).trans (hput _ _)
  · exact hput _ _

/-- A dropped request is gone from the pairs, whatever else its thread and engine do. -/
theorem dropRequest (s : State) (id : Nat) (q : PairReq) : SchedKept { s with pairs := mdel s.pairs id } (s.dropRequest id q) := by
  unfold State.dropRequest
  dsimp only
  refine .trans ?_ (.releaseIfDrained _ _)
  refine .trans ?_ (.foldl _ _ fun s y => .dropCopy s _ _ _)
  refine .trans ?_ (.modAny _ _ _)
  exact ⟨rfl, rfl, fun _ h => h⟩

end SchedKept

end Sys2Proof.Machine
end

section
/-! SUPPORT. Releases, deadlines, budgets, guards and the compared requests of reflex programs (R16, R29, R38, R385-R387, R395, R396). -/

namespace Sys2Proof.Machine

open Sys2Proof.Claims

/-! ### The entry, the counters and the agenda after a change -/

theorem mget_modReflex {s : State} {e : Nat} {r : Reflex} (f : Reflex → Reflex) (h : mget s.front.reflex e = some r) :
    mget (s.modReflex e f).front.reflex e = some (f r) := by
  show mget (mmod s.front.reflex e f) e = _
  rw [mget_mmod, if_pos rfl, h]
  rfl

theorem counted_count (s : State) (unit ctr : Nat) : Counted s (s.count unit ctr) unit ctr := mget_mset_same _ _ _

theorem Counted.of_eq {s s' t t' : State} {unit ctr : Nat} (h : Counted s t unit ctr) (hs : s.counters = s'.counters)
    (ht : t'.counters = t.counters) : Counted s' t' unit ctr := by
  unfold Counted
  rw [ht, ← hs]
  exact h

/-- Two counters of one unit are counted apart. -/
theorem Counted.count_other {s t : State} {unit a : Nat} (h : Counted s t unit a) {b : Nat} (hab : a ≠ b) :
    Counted s (t.count unit b) unit a := by
  refine Eq.trans (mget_mset_other _ _ ?_) h
  omega

theorem Counted.of_count_other {s t : State} {unit a b : Nat} (h : Counted (s.count unit a) t unit b) (hab : a ≠ b) : Counted s t unit b := by
  have hkey : 16 * unit + b ≠ 16 * unit + a := by omega
  unfold Counted at h ⊢
  rwa [show mget (s.count unit a).counters (16 * unit + b) = mget s.counters (16 * unit + b) from mget_mset_other _ _ hkey] at h

/-- The next release of an entry falls due when meridian time reaches it. -/
theorem comes_postRelease {s : State} {e k : Nat} {r : Reflex} (h : mget s.front.reflex e = some r) :
    Comes (s.postRelease e k) (s.now + (r.releaseAt k - s.meridianNow)) (.reflexRelease e k) := by
  unfold State.postRelease
  rw [h]
  exact (State.mem_post _ _ _ _).2 (.inl rfl)

/-! ### Releases (R29, R385) -/

theorem reflexRelease_due {s : State} {e k : Nat} {r : Reflex} (hr : mget s.front.reflex e = some r) (ha : r.armed = true) (hn : r.next = k)
    (hdue : r.releaseAt k ≤ s.meridianNow) :
    exec .reflexRelease (On s (.reflexRelease e k)) = .next ((On s (.reflexRelease e k)).releaseEntry e k r) := by
  have hdue' : ¬(On s (.reflexRelease e k)).meridianNow < r.releaseAt k := Nat.not_lt.2 hdue
  have hgo : (!r.armed || decide (r.next ≠ k)) = false := by simp [ha, hn]
  show execReflexRelease (On s (.reflexRelease e k)) = _
  simp only [execReflexRelease, hr, hgo, hdue', Bool.false_eq_true, if_false]

/-- A release of an entry that still runs is an overrun. -/
theorem reflexRelease_overruns {s : State} {e k : Nat} {r : Reflex} (hr : mget s.front.reflex e = some r) (ha : r.armed = true)
    (hn : r.next = k) (hdue : r.releaseAt k ≤ s.meridianNow) (hact : r.active ≠ none) :
    Next (exec .reflexRelease (On s (.reflexRelease e k))) fun t =>
      (mget t.front.reflex e).map (fun q => (q.next, q.overruns, q.active)) = some (k + 1, min (r.overruns + 1) 0xFFFFFFFF, r.active) ∧
      Counted s t (unitCore (rfCore r.n)) ctrOverrun ∧
      Comes t (s.now + (r.releaseAt (k + 1) - s.meridianNow)) (.reflexRelease e (k + 1)) := by
  set v := (On s (.reflexRelease e k)).modReflex e fun r => { r with next := k + 1 } with hv
  have hv' : mget v.front.reflex e = some { r with next := k + 1 } :=
    mget_modReflex (s := On s (.reflexRelease e k)) (fun r => { r with next := k + 1 }) hr
  set w := (v.postRelease e (k + 1)).modReflex e fun r => { r with overruns := min (r.overruns + 1) 0xFFFFFFFF } with hw
  have hw' : mget w.front.reflex e = some { r with next := k + 1, overruns := min (r.overruns + 1) 0xFFFFFFFF } :=
    mget_modReflex (s := v.postRelease e (k + 1)) (fun r => { r with overruns := min (r.overruns + 1) 0xFFFFFFFF })
      (by rw [State.front_postRelease]; exact hv')
  have hcounters : w.counters = s.counters := by
    show (v.postRelease e (k + 1)).counters = _
    unfold State.postRelease
    rw [hv']
    rfl
  have hsome : (r.active.isSome || r.waiting.isSome) = true := by simp [Option.isSome_iff_ne_none, hact]
  refine ⟨w.count (unitCore (rfCore r.n)) ctrOverrun, ?_, ?_, Counted.of_eq (counted_count w _ _) hcounters rfl, ?_⟩
  · rw [reflexRelease_due hr ha hn hdue]
    unfold State.releaseEntry
    simp only [hsome, if_true]
    rfl
  · show (mget w.front.reflex e).map _ = _
    rw [hw']
    rfl
  · exact comes_postRelease (s := v) (r := { r with next := k + 1 }) hv'

/-- A release finds its bank free and starts its thread there (R29, R31). -/
theorem State.startActivation_starts {s : State} {e k : Nat} {r : Reflex} {g : Prog} (hr : mget s.front.reflex e = some r)
    (hpair : rfPair r.n = false) (hbank : rfBank r.n < 4) (hg : mget s.front.progs (rfProg r.n) = some g)
    (hfree : ∀ x ∈ (s.core (rfCore r.n)).banks, x.1 ≠ rfBank r.n) :
    (mget (s.startActivation e k).front.reflex e).map (·.active) = some (some k) ∧
      ∃ u, mget ((s.startActivation e k).core (rfCore r.n)).banks (rfBank r.n) = some u ∧ u.kind = .reflex e k ∧ u.st = .ready ∧
        u.latency = true ∧ u.pc.toNat = rfEntry r.n % 2 ^ 40 ∧ u.getX 10 = BitVec.ofNat 64 k ∧ u.getX 11 = BitVec.ofNat 64 (rfArg r.n) := by
  have hcores : rfCores r.n = [rfCore r.n] := by simp [rfCores, hpair]
  have hheld : ((s.core (rfCore r.n)).banks.any fun b => b.1 == rfBank r.n ||
      (rfBank r.n == 7 && (s.core (rfCore r.n)).reserved && b.1 == 3)) = false := by
    have h7 : (rfBank r.n == 7) = false := by rw [beq_eq_false_iff_ne]; omega
    simpa [h7] using hfree
  set n := s.newSerial (rfProg r.n) with hn
  set u : Thread := { g.start (rfProg r.n) n.1 (slotOf (rfBank r.n)) (.reflex e k) (rfEntry r.n) g.reflexTvec true (BitVec.ofNat 64 k) 0 1
    (BitVec.ofNat 64 (rfArg r.n)) with tenant := rfTenant r.n } with hu
  have hload : s.loadActivation e k (rfCore r.n) r = n.2.putThread (rfCore r.n) (rfBank r.n) u := by
    have hg' : s.prog? (rfProg r.n) = some g := hg
    simp only [State.loadActivation, hg', hbank, if_true]
    rfl
  have hstart : s.startActivation e k = (n.2.putThread (rfCore r.n) (rfBank r.n) u).modReflex e fun r =>
      { r with active := some k, waiting := none, endedTwins := [] } := by
    simp only [State.startActivation, hr, hcores, List.any_cons, List.any_nil, hheld, Bool.or_self, Bool.false_eq_true, if_false,
      List.foldl_cons, List.foldl_nil, hload]
  rw [hstart]
  refine ⟨?_, u, ?_, rfl, rfl, rfl, BitVec.toNat_ofNat _ _, rfl, rfl⟩
  · rw [mget_modReflex (s := n.2.putThread (rfCore r.n) (rfBank r.n) u) _ hr]
    rfl
  · show mget ((n.2.putThread (rfCore r.n) (rfBank r.n) u).core (rfCore r.n)).banks (rfBank r.n) = _
    rw [State.core_putThread_same]
    exact mget_mset_same _ _ _

theorem reflexRelease_starts {s : State} {e k : Nat} {r : Reflex} {g : Prog} (hr : mget s.front.reflex e = some r) (ha : r.armed = true)
    (hn : r.next = k) (hdue : r.releaseAt k ≤ s.meridianNow) (hact : r.active = none) (hwait : r.waiting = none)
    (hpair : rfPair r.n = false) (hbank : rfBank r.n < 4) (hg : mget s.front.progs (rfProg r.n) = some g)
    (hfree : ∀ x ∈ (s.core (rfCore r.n)).banks, x.1 ≠ rfBank r.n) :
    Next (exec .reflexRelease (On s (.reflexRelease e k))) fun t => (mget t.front.reflex e).map (·.active) = some (some k) ∧
      ∃ u, mget (t.core (rfCore r.n)).banks (rfBank r.n) = some u ∧ u.kind = .reflex e k ∧ u.st = .ready ∧ u.latency = true ∧
        u.pc.toNat = rfEntry r.n % 2 ^ 40 ∧ u.getX 10 = BitVec.ofNat 64 k ∧ u.getX 11 = BitVec.ofNat 64 (rfArg r.n) := by
  set v := (On s (.reflexRelease e k)).modReflex e fun r => { r with next := k + 1 } with hv
  have hv' : mget v.front.reflex e = some { r with next := k + 1 } :=
    mget_modReflex (s := On s (.reflexRelease e k)) (fun r => { r with next := k + 1 }) hr
  set w := ((v.postRelease e (k + 1)).modReflex e fun r =>
    { r with missed := false, reruns := 0, shadow := r.shadow && !(v.postRelease e (k + 1)).front.active }).postAt
      (r.releaseAt k + rfDeadline r.n + 1) (.deadlineMiss e k) with hw
  have hpost : v.postRelease e (k + 1) = v.postAt (Reflex.releaseAt { r with next := k + 1 } (k + 1)) (.reflexRelease e (k + 1)) := by
    unfold State.postRelease
    rw [hv']
  set x : Reflex := { r with
    next := k + 1, missed := false, reruns := 0, shadow := r.shadow && !(v.postRelease e (k + 1)).front.active } with hx
  have hw' : mget w.front.reflex e = some x :=
    mget_modReflex (s := v.postRelease e (k + 1)) (e := e) (r := { r with next := k + 1 }) (fun r =>
      { r with missed := false, reruns := 0, shadow := r.shadow && !(v.postRelease e (k + 1)).front.active })
      (by rw [State.front_postRelease]; exact hv')
  have hnone : (r.active.isSome || r.waiting.isSome) = false := by simp [hact, hwait]
  refine ⟨w.startActivation e k, ?_, State.startActivation_starts (r := x) hw' hpair hbank (g := g) ?_ ?_⟩
  · rw [reflexRelease_due hr ha hn hdue]
    unfold State.releaseEntry
    simp only [hnone, Bool.false_eq_true, if_false]
    rfl
  · rw [hw, hpost]
    exact hg
  · rw [hw, hpost]
    exact hfree

end Sys2Proof.Machine
end

section
/-! SUPPORT. Deadlines, budgets, guards (R16, R38, R386, R387) and compared requests (R395, R396). -/

namespace Sys2Proof.Machine

open Sys2Proof.Claims

/-! ### Deadlines (R387) -/

/-- The entry after one miss. -/
def Reflex.missedOnce (r : Reflex) : Reflex :=
  { r with misses := min (r.misses + 1) 0xFFFF, consecutive := min (r.consecutive + 1) 255, missed := true }

/-- A miss is counted in the entry and at its core; HOLD_N may be asserted besides. -/
theorem State.missOnce_spec {s : State} {e : Nat} {r : Reflex} (hr : mget s.front.reflex e = some r) :
    mget (s.missOnce e).front.reflex e = some r.missedOnce ∧ (s.missOnce e).pairs = s.pairs ∧
      (s.missOnce e).counters = (s.count (unitCore (rfCore r.n)) ctrDeadline).counters := by
  unfold State.missOnce
  rw [hr]
  dsimp only
  unfold State.holdCheck
  split
  · exact ⟨mget_modReflex _ hr, rfl, rfl⟩
  · exact ⟨mget_modReflex _ hr, rfl, rfl⟩

theorem deadlineMiss_counts {s : State} {e k : Nat} {r : Reflex} (hr : mget s.front.reflex e = some r)
    (hdue : r.releaseAt k + rfDeadline r.n < s.meridianNow) (hact : r.active = some k) (hex : r.exited = false) (hm : r.missed = false) :
    Next (exec .deadlineMiss (On s (.deadlineMiss e k))) fun t =>
      (mget t.front.reflex e).map (fun q => (q.misses, q.consecutive, q.missed)) =
        some (min (r.misses + 1) 0xFFFF, min (r.consecutive + 1) 255, true) ∧ Counted s t (unitCore (rfCore r.n)) ctrDeadline := by
  obtain ⟨hentry, -, hcounters⟩ := State.missOnce_spec (s := On s (.deadlineMiss e k)) hr
  refine ⟨(On s (.deadlineMiss e k)).missOnce e, ?_, by rw [hentry]; rfl,
    Counted.of_eq (counted_count (On s (.deadlineMiss e k)) _ _) rfl hcounters⟩
  have hdue' : ¬(On s (.deadlineMiss e k)).meridianNow ≤ r.releaseAt k + rfDeadline r.n := Nat.not_le.2 hdue
  have hgo : ((r.active == some k && !r.exited || r.waiting == some k) && !r.missed) = true := by simp [hact, hex, hm]
  show execDeadlineMiss (On s (.deadlineMiss e k)) = _
  simp only [execDeadlineMiss, hr, hdue', if_false, hgo, if_true]

/-! ### Budgets (R386) -/

theorem budgetExceeded_traps {s : State} {e k c b : Nat} {r : Reflex} {u : Thread} (hr : mget s.front.reflex e = some r)
    (hu : mget (s.core c).banks b = some u) (hk : u.kind = .reflex e k) (ho : u.overBudget = false) (hst : u.st = .ready)
    (hh : u.trap0.held = false) (hv : u.trap0.tvec ≠ 0) :
    Next (exec .budgetExceeded (On s (.budgetExceeded c b))) fun t => ∃ v, mget (t.core c).banks b = some v ∧
      v.trap0.cause = 0x17 ∧ v.trap0.tval = BitVec.ofNat 64 (rfBudget r.n) ∧ v.trap0.tepc = u.pc ∧ v.trap0.held = true ∧
      v.pc = u.trap0.tvec ∧ v.overBudget = true := by
  set x : State := { (On s (.budgetExceeded c b)).enter c b with th := { u with overBudget := true } } with hx
  have htrap := State.takeTrap_bank0 x budgetExceeded (BitVec.ofNat 64 (rfBudget r.n)) u.pc u.pc hh hv
  set y := x.takeTrap budgetExceeded (BitVec.ofNat 64 (rfBudget r.n)) u.pc u.pc with hy
  have hcore : (y.store.core c).banks = mset y.co.banks y.bank y.th := by
    have hcid : y.cid = c := by rw [htrap]; rfl
    have h := State.core_store y
    rw [hcid] at h
    rw [h]
  have hbank : y.bank = b := by rw [htrap]; rfl
  refine ⟨y.store, ?_, y.th, ?_, ?_, ?_, ?_, ?_, ?_, ?_⟩
  · have hu' : mget ((On s (.budgetExceeded c b)).core c).banks b = some u := hu
    have hrun : (u.overBudget || u.st != .ready) = false := by simp [ho, hst]
    show execBudgetExceeded (On s (.budgetExceeded c b)) = _
    simp only [execBudgetExceeded, hu', hk, hr, Option.map_some, Option.getD_some, hrun, Bool.false_eq_true, if_false]
    rw [← hk]
  · rw [hcore, hbank]
    exact mget_mset_same _ _ _
  · rw [htrap]
    rfl
  all_goals rw [htrap]

/-! ### Bank switches and guards (R16, R38) -/

theorem shadowBankSwitch_switches {s : State} {c b : Nat} (hw : (s.core c).shadowWaits b = true) (hfree : mget (s.core c).banks b = none)
    (hlive : (s.core c).bankOfSlot b ≠ b + 4) :
    Next (exec .shadowBankSwitch (On s (.shadowBankSwitch c b))) fun t => (t.core c).bankOfSlot b = b + 4 ∧
      (mget (t.core c).banks (b + 4)).map (·.st) = some .ready := by
  obtain ⟨u, hu⟩ : ∃ u, mget (s.core c).banks (b + 4) = some u := by
    unfold Core.shadowWaits at hw
    cases h : mget (s.core c).banks (b + 4) with
    | none => simp [h] at hw
    | some u => exact ⟨u, rfl⟩
  have hgo : (!(s.core c).shadowWaits b || (mget (s.core c).banks b).isSome || (s.core c).bankOfSlot b == b + 4) = false := by
    simp [hw, hfree, hlive]
  refine ⟨(On s (.shadowBankSwitch c b)).modCore c fun k => { k with
      running := mset k.running b (b + 4), banks := mmod k.banks (b + 4) fun t => { t with st := .ready } }, ?_, ?_, ?_⟩
  · have hgo' : (!((On s (.shadowBankSwitch c b)).core c).shadowWaits b || (mget ((On s (.shadowBankSwitch c b)).core c).banks b).isSome ||
        ((On s (.shadowBankSwitch c b)).core c).bankOfSlot b == b + 4) = false := hgo
    show execShadowBankSwitch (On s (.shadowBankSwitch c b)) = _
    simp only [execShadowBankSwitch, hgo', Bool.false_eq_true, if_false]
  · rw [State.core_modCore_same]
    show (mget (mset (s.core c).running b (b + 4)) b).getD b = _
    rw [mget_mset_same]
    rfl
  · rw [State.core_modCore_same]
    show (mget (mmod (s.core c).banks (b + 4) _) (b + 4)).map _ = _
    rw [mget_mmod, if_pos rfl, hu]
    rfl

theorem starvationGuard_guards {s : State} {c b : Nat} (h : b ∉ (s.core c).guarded) :
    Next (exec .starvationGuard (On s (.starvationGuard c b))) fun t => (t.core c).guarded = (s.core c).guarded ++ [b] := by
  have h' : (s.core c).guarded.contains b = false := by simpa using h
  refine ⟨_, rfl, ?_⟩
  show (((On s (.starvationGuard c b)).modCore c _).core c).guarded = _
  rw [State.core_modCore_same]
  show (if (s.core c).guarded.contains b then _ else _ : Core).guarded = _
  rw [h']
  rfl

/-! ### Compared requests (R395) -/

/-- A mate is a request of the same pair. -/
theorem State.mateOf_some {s : State} {q o : PairReq} {j : Nat} (h : s.mateOf q = some (j, o)) : o.pair = q.pair := by
  have hmate := List.find?_some h
  simp only [Bool.and_eq_true, beq_iff_eq] at hmate
  obtain ⟨⟨⟨⟨hpair, -⟩, -⟩, -⟩, -⟩ := hmate
  exact hpair

theorem pairHashArrival_waits {s : State} {id : Nat} {h : BitVec 64} {q : PairReq} (hq : mget s.pairs id = some q)
    (hmate : ({ s with pairs := mset s.pairs id { q with arrived := true, hash := h } } : State).mateOf q = none) :
    exec .pairHashArrival (On s (.pairHashArrival id h)) = .next { On s (.pairHashArrival id h) with
      pairs := mset s.pairs id { q with arrived := true, hash := h } } := by
  have hmate' : ({ On s (.pairHashArrival id h) with pairs := mset s.pairs id { q with arrived := true, hash := h } } : State).mateOf q =
    none := hmate
  show execPairHashArrival (On s (.pairHashArrival id h)) = _
  simp only [execPairHashArrival, hq, hmate']

/-- An activation whose threads run on has not ended. -/
theorem State.activationEnd_runs {s : State} {e : Nat} (h : ∀ x, mget s.front.reflex e = some x → x.exited = false) : s.activationEnd e = s := by
  unfold State.activationEnd
  cases hr : mget s.front.reflex e with
  | none => rfl
  | some r => simp [h r hr]

/-- A match lets the primary's request go on. -/
theorem State.matchPair_goes {s : State} {i j : Nat} {q : PairReq} (h : ∀ x, mget s.front.reflex q.pair = some x → x.exited = false) :
    Comes (s.matchPair i j q) (s.now + q.delay) q.go := by
  have hruns (t : State) (ht : t.front = s.front) : t.activationEnd q.pair = t := State.activationEnd_runs (by rw [ht]; exact h)
  unfold State.matchPair
  dsimp only
  split
  · rw [hruns]
    · exact (State.mem_post _ _ _ _).2 (.inl rfl)
    · rfl
  · exact (State.mem_post _ _ _ _).2 (.inl rfl)

theorem pairHashArrival_matches {s : State} {id j : Nat} {h : BitVec 64} {q o : PairReq} (hq : mget s.pairs id = some q)
    (hmate : ({ s with pairs := mset s.pairs id { q with arrived := true, hash := h } } : State).mateOf q = some (j, o)) (hh : o.hash = h)
    (hex : ∀ x, mget s.front.reflex q.pair = some x → x.exited = false) :
    Next (exec .pairHashArrival (On s (.pairHashArrival id h))) fun t =>
      Comes t (s.now + if q.primary then q.delay else o.delay) (if q.primary then q.go else o.go) := by
  set came : State := { On s (.pairHashArrival id h) with pairs := mset s.pairs id { q with arrived := true, hash := h } } with hcame
  have hmate' : came.mateOf q = some (j, o) := hmate
  have hpair : o.pair = q.pair := State.mateOf_some hmate
  refine ⟨if q.primary then came.matchPair id j q else came.matchPair j id o, ?_, ?_⟩
  · show execPairHashArrival (On s (.pairHashArrival id h)) = _
    simp only [execPairHashArrival, hq, ← hcame, hmate', hh, ne_eq, not_true_eq_false, if_false]
  · cases hp : q.primary with
    | true => exact State.matchPair_goes (s := came) hex
    | false => exact State.matchPair_goes (s := came) (by rw [hpair]; exact hex)

theorem pairHashArrival_differs {s : State} {id j : Nat} {h : BitVec 64} {q o : PairReq} (hq : mget s.pairs id = some q)
    (hmate : ({ s with pairs := mset s.pairs id { q with arrived := true, hash := h } } : State).mateOf q = some (j, o)) (hh : o.hash ≠ h) :
    exec .pairHashArrival (On s (.pairHashArrival id h)) = .next (({ On s (.pairHashArrival id h) with
      pairs := mset s.pairs id { q with arrived := true, hash := h } } : State).pairMismatch q.pair) := by
  have hmate' : ({ On s (.pairHashArrival id h) with pairs := mset s.pairs id { q with arrived := true, hash := h } } : State).mateOf q =
    some (j, o) := hmate
  show execPairHashArrival (On s (.pairHashArrival id h)) = _
  simp only [execPairHashArrival, hq, hmate', hh, ne_eq, not_false_eq_true, if_true]

theorem pairMatchTimeout_matched {s : State} {id : Nat} {q : PairReq} (hq : mget s.pairs id = some q) (ht : q.twin ≠ none) :
    exec .pairMatchTimeout (On s (.pairMatchTimeout id)) = .next (On s (.pairMatchTimeout id)) := by
  have ht' : q.twin.isNone = false := by
    cases h : q.twin with
    | none => exact absurd h ht
    | some _ => rfl
  show execPairMatchTimeout (On s (.pairMatchTimeout id)) = _
  simp only [execPairMatchTimeout, hq, ht', Bool.false_eq_true, if_false]

theorem pairMatchTimeout_unmatched {s : State} {id : Nat} {q : PairReq} (hq : mget s.pairs id = some q) (ht : q.twin = none) :
    exec .pairMatchTimeout (On s (.pairMatchTimeout id)) = .next ((On s (.pairMatchTimeout id)).pairMismatch q.pair) := by
  show execPairMatchTimeout (On s (.pairMatchTimeout id)) = _
  simp only [execPairMatchTimeout, hq, ht, Option.isNone_none, if_true]

/-! ### A mismatch (R396) -/

theorem mem_of_mget {α : Type} {m : Map α} {k : Nat} {v : α} (h : mget m k = some v) : (k, v) ∈ m := by
  obtain ⟨x, hx, rfl⟩ := Option.map_eq_some_iff.1 (show (m.find? fun e => e.1 == k).map (·.2) = some v from h)
  have hk : x.1 = k := by simpa using List.find?_some hx
  rw [← hk]
  exact List.mem_of_find?_eq_some hx

theorem SchedKept.of_dropRequest (s : State) (id : Nat) (q : PairReq) : SchedKept s (s.dropRequest id q) ∧
    ∀ x ∈ (s.dropRequest id q).pairs, x.1 ≠ id := by
  obtain ⟨hreflex, hcounters, hpairs⟩ := SchedKept.dropRequest s id q
  refine ⟨⟨hreflex, hcounters, fun x hx => List.mem_of_mem_filter (hpairs x hx)⟩, fun x hx => ?_⟩
  simpa using (List.mem_filter.1 (hpairs x hx)).2

/-- Each dropped request is gone. -/
theorem SchedKept.foldl_dropRequest (l : List (Nat × PairReq)) (s : State) : SchedKept s (l.foldl (fun s q => s.dropRequest q.1 q.2) s) ∧
    ∀ q ∈ l, ∀ x ∈ (l.foldl (fun s q => s.dropRequest q.1 q.2) s).pairs, x.1 ≠ q.1 := by
  induction l generalizing s with
  | nil => exact ⟨.refl s, fun q hq => by simp at hq⟩
  | cons a l ih =>
    obtain ⟨hkept, hgone⟩ := SchedKept.of_dropRequest s a.1 a.2
    obtain ⟨hrest, hothers⟩ := ih (s.dropRequest a.1 a.2)
    refine ⟨hkept.trans hrest, fun q hq x hx => ?_⟩
    rcases List.mem_cons.1 hq with rfl | hq
    · exact hgone x (hrest.pairs x hx)
    · exact hothers q hq x hx

theorem SchedKept.dropPair (s : State) (pair : Nat) : SchedKept s (s.dropPair pair) := (SchedKept.foldl_dropRequest _ s).1

/-- No unmatched request of the pair is left. -/
theorem State.dropPair_unmatched (s : State) (pair : Nat) : ∀ x ∈ (s.dropPair pair).pairs, x.2.pair = pair → x.2.twin ≠ none := by
  intro x hx hpair htwin
  obtain ⟨hkept, hgone⟩ := SchedKept.foldl_dropRequest (s.pairs.filter fun q => q.2.pair == pair && q.2.twin.isNone) s
  have hmem : x ∈ s.pairs.filter fun q => q.2.pair == pair && q.2.twin.isNone :=
    List.mem_filter.2 ⟨hkept.pairs x hx, by simp [hpair, htwin]⟩
  exact hgone x hmem x hx rfl

/-- The threads of the activation end after the mismatch is counted and the pair's requests are dropped. -/
def State.mismatchEnded (s : State) (e : Nat) (r : Reflex) : State :=
  ((s.count (unitCore (rfCore r.n)) ctrPairMismatch).dropPair e).endActivation e

theorem State.mismatchEnded_spec (s : State) (e : Nat) (r : Reflex) :
    (s.mismatchEnded e r).front.reflex = s.front.reflex ∧
      (s.mismatchEnded e r).counters = (s.count (unitCore (rfCore r.n)) ctrPairMismatch).counters ∧
      ∀ x ∈ (s.mismatchEnded e r).pairs, x.2.pair = e → x.2.twin ≠ none := by
  set c := s.count (unitCore (rfCore r.n)) ctrPairMismatch with hc
  have hdrop := SchedKept.dropPair c e
  have hend := SchedKept.endActivation (c.dropPair e) e
  refine ⟨hend.reflex.trans hdrop.reflex, hend.counters.trans hdrop.counters, fun x hx => State.dropPair_unmatched c e x (hend.pairs x hx)⟩

theorem State.pairMismatch_idle {s : State} {e : Nat} {r : Reflex} (hr : mget s.front.reflex e = some r) (h64 : e < 64) (hact : r.active = none) :
    s.pairMismatch e = (s.count (unitCore (rfCore r.n)) ctrPairMismatch).dropPair e := by
  unfold State.pairMismatch
  simp only [Nat.not_le.2 h64, if_false, hr, hact]

theorem State.pairMismatch_first {s : State} {e k : Nat} {r : Reflex} (hr : mget s.front.reflex e = some r) (h64 : e < 64)
    (hact : r.active = some k) (hre : r.reruns = 0) :
    s.pairMismatch e = ((s.mismatchEnded e r).modReflex e fun r =>
      { r with active := none, waiting := some k, reruns := 1, endedTwins := [] }).retryReleases (rfCore r.n) := by
  unfold State.pairMismatch
  simp only [Nat.not_le.2 h64, if_false, hr, hact, hre, if_true]
  rfl

theorem State.pairMismatch_second {s : State} {e k : Nat} {r : Reflex} (hr : mget s.front.reflex e = some r) (h64 : e < 64)
    (hact : r.active = some k) (hre : r.reruns ≠ 0) (hm : r.missed = false) :
    s.pairMismatch e = ((s.mismatchEnded e r).missOnce e).closeActivation e := by
  unfold State.pairMismatch
  simp only [Nat.not_le.2 h64, if_false, hr, hact, hre, hm, Bool.false_eq_true]
  rfl

theorem SchedKept.loadActivation (s : State) (e k c : Nat) (r : Reflex) : SchedKept s (s.loadActivation e k c r) := by
  unfold State.loadActivation
  dsimp only
  split
  · exact .refl s
  · split
    · exact ⟨rfl, rfl, fun _ h => h⟩
    · exact ⟨rfl, rfl, fun _ h => h⟩

/-- An activation that is to run starts or waits for its bank. -/
theorem State.startActivation_spec {s : State} {e k : Nat} {r : Reflex} (hr : mget s.front.reflex e = some r) :
    (s.startActivation e k).counters = s.counters ∧ (∀ x ∈ (s.startActivation e k).pairs, x ∈ s.pairs) ∧
      ∃ x, mget (s.startActivation e k).front.reflex e = some x ∧ x.reruns = r.reruns ∧ (x.waiting = some k ∨ x.active = some k) := by
  unfold State.startActivation
  rw [hr]
  dsimp only
  split
  · exact ⟨rfl, fun _ h => h, _, mget_modReflex _ hr, rfl, .inl rfl⟩
  · obtain ⟨hreflex, hcounters, hpairs⟩ := SchedKept.foldl (fun s c => s.loadActivation e k c r) (rfCores r.n)
      (fun s c => .loadActivation s e k c r) (s := s)
    exact ⟨hcounters, hpairs, _, mget_modReflex _ (by rw [hreflex]; exact hr), rfl, .inr rfl⟩

theorem mmod_singleton {α : Type} (k : Nat) (v : α) (f : α → α) : mmod [(k, v)] k f = [(k, f v)] := by
  simp [mmod, mget, mset, mdel, minsert]

theorem rfCore_mem_rfCores (n : Nat) : (rfCores n).contains (rfCore n) = true := by
  unfold rfCores
  split <;> simp

/-- Where one entry alone waits, it is tried again. -/
theorem State.retryReleases_one {s : State} {e k : Nat} {r : Reflex} (h : s.front.reflex = [(e, r)]) (hw : r.waiting = some k) :
    s.retryReleases (rfCore r.n) = s.startActivation e k := by
  unfold State.retryReleases
  simp only [h, List.foldl_cons, List.foldl_nil, hw, rfCore_mem_rfCores, if_true]

theorem pairMismatch_reruns {s : State} {e k : Nat} {r : Reflex} (hone : s.front.reflex = [(e, r)]) (h64 : e < 64) (hact : r.active = some k)
    (hre : r.reruns = 0) :
    Counted s (s.pairMismatch e) (unitCore (rfCore r.n)) ctrPairMismatch ∧
      (∀ i y, mget (s.pairMismatch e).pairs i = some y → y.pair = e → y.twin ≠ none) ∧
      (mget (s.pairMismatch e).front.reflex e).map (·.reruns) = some 1 ∧
      ((mget (s.pairMismatch e).front.reflex e).bind (·.waiting) = some k ∨
        (mget (s.pairMismatch e).front.reflex e).bind (·.active) = some k) := by
  have hr : mget s.front.reflex e = some r := by rw [hone]; simp [mget]
  obtain ⟨hreflex, hcounters, hgone⟩ := State.mismatchEnded_spec s e r
  set v := (s.mismatchEnded e r).modReflex e fun r => { r with active := none, waiting := some k, reruns := 1, endedTwins := [] } with hv
  have hvone : v.front.reflex = [(e, { r with active := none, waiting := some k, reruns := 1, endedTwins := [] })] := by
    show mmod (s.mismatchEnded e r).front.reflex e _ = _
    rw [hreflex, hone, mmod_singleton]
  have hresult : s.pairMismatch e = v.startActivation e k := by
    rw [State.pairMismatch_first hr h64 hact hre]
    exact State.retryReleases_one (s := v) (r := { r with active := none, waiting := some k, reruns := 1, endedTwins := [] }) hvone rfl
  obtain ⟨kcounters, kpairs, x, hx, hreruns, hruns⟩ := State.startActivation_spec (s := v) (e := e) (k := k)
    (r := { r with active := none, waiting := some k, reruns := 1, endedTwins := [] }) (by rw [hvone]; simp [mget])
  rw [hresult]
  refine ⟨Counted.of_eq (counted_count s _ _) rfl (kcounters.trans hcounters), fun i y hy => hgone (i, y) (kpairs _ (mem_of_mget hy)), ?_, ?_⟩
  · rw [hx, Option.map_some, hreruns]
  · rw [hx]
    exact hruns

theorem pairMismatch_misses {s : State} {e k : Nat} {r : Reflex} (hr : mget s.front.reflex e = some r) (h64 : e < 64) (ha : r.armed = true)
    (hact : r.active = some k) (hre : r.reruns ≠ 0) (hm : r.missed = false) :
    Counted s (s.pairMismatch e) (unitCore (rfCore r.n)) ctrPairMismatch ∧ Counted s (s.pairMismatch e) (unitCore (rfCore r.n)) ctrDeadline ∧
      (∀ i y, mget (s.pairMismatch e).pairs i = some y → y.pair = e → y.twin ≠ none) ∧
      (mget (s.pairMismatch e).front.reflex e).map (fun x => (x.active, x.reruns, x.misses, x.consecutive)) =
        some (none, 0, min (r.misses + 1) 0xFFFF, min (r.consecutive + 1) 255) := by
  obtain ⟨hreflex, hcounters, hgone⟩ := State.mismatchEnded_spec s e r
  set v := (s.mismatchEnded e r).missOnce e with hv
  obtain ⟨mentry, mpairs, mcounters⟩ := State.missOnce_spec (s := s.mismatchEnded e r) (by rw [hreflex]; exact hr)
  set w := v.modReflex e fun r => { r with active := none, reruns := 0, endedTwins := [] } with hw
  have hentry : mget w.front.reflex e = some { r.missedOnce with active := none, reruns := 0, endedTwins := [] } := mget_modReflex _ mentry
  have hresult : s.pairMismatch e = w := by
    have harmed : (r.missedOnce.armed || false || r.missedOnce.waiting.isSome) = true := by
      have : r.missedOnce.armed = true := ha
      simp [this]
    rw [State.pairMismatch_second hr h64 hact hre hm]
    show w.unbindIfDone e = w
    simp only [State.unbindIfDone, hentry, Option.isSome_none, harmed, if_true]
  have hboth : w.counters = ((s.count (unitCore (rfCore r.n)) ctrPairMismatch).count (unitCore (rfCore r.n)) ctrDeadline).counters := by
    refine mcounters.trans ?_
    show mset _ _ _ = mset _ _ _
    rw [hcounters]
  have hother : ctrPairMismatch ≠ ctrDeadline := by decide
  rw [hresult]
  refine ⟨Counted.of_eq (Counted.count_other (counted_count s _ _) hother) rfl hboth, ?_, fun i y hy => hgone (i, y) ?_, by rw [hentry]; rfl⟩
  · exact Counted.of_eq (Counted.of_count_other (counted_count (s.count (unitCore (rfCore r.n)) ctrPairMismatch) _ ctrDeadline) hother) rfl hboth
  · rw [← mpairs]
    exact mem_of_mget hy

end Sys2Proof.Machine

namespace Sys2Proof.Proofs

open Sys2Proof.Machine Sys2Proof.Claims

/-- Settles O48, event by event; what a mismatch drops and ends leaves the schedule and the counters as they are (`SchedKept`). -/
theorem reflexScheduleRuns : Obligations.ReflexScheduleRuns := by
  intro s e k c b r hr entry home
  refine ⟨fun ha hn hdue => ⟨reflexRelease_overruns hr ha hn hdue, fun g hact hwait hpair hbank hg hfree =>
      reflexRelease_starts hr ha hn hdue hact hwait hpair hbank hg hfree⟩,
    deadlineMiss_counts hr, fun u hu hk => budgetExceeded_traps hr hu hk, shadowBankSwitch_switches, starvationGuard_guards,
    fun id h q j o hq => ?_⟩
  intro came
  refine ⟨fun hmate => ⟨_, pairHashArrival_waits hq hmate, rfl⟩, pairHashArrival_matches hq, pairMatchTimeout_matched hq, ?_, ?_⟩
  · rintro htwin rfl h64 hact
    rw [pairMatchTimeout_unmatched hq htwin, State.pairMismatch_idle (s := On s (.pairMatchTimeout id)) hr h64 hact]
  · rintro mismatched rfl h64 hone - ha
    -- a mismatch in a state that differs from `s` in its event and its pairs alone
    have hmismatch (t : State) (answer : Answer) (hanswer : answer = .next (t.pairMismatch q.pair)) (hf : t.front = s.front)
        (hc : t.counters = s.counters) : mismatched answer := by
      have hone' : t.front.reflex = [(q.pair, r)] := by rw [hf]; exact hone
      have hr' : mget t.front.reflex q.pair = some r := by rw [hf]; exact hr
      refine ⟨fun n hact hre => ?_, fun hact hre hm => ?_⟩
      · obtain ⟨hcount, hrest⟩ := pairMismatch_reruns hone' h64 hact hre
        exact ⟨_, hanswer, Counted.of_eq hcount hc rfl, hrest⟩
      · obtain ⟨n, hn⟩ := Option.ne_none_iff_exists'.1 hact
        obtain ⟨hcount, hmiss, hrest⟩ := pairMismatch_misses hr' h64 ha hn hre hm
        exact ⟨_, hanswer, Counted.of_eq hcount hc rfl, Counted.of_eq hmiss hc rfl, hrest⟩
    exact ⟨fun htwin => hmismatch _ _ (pairMatchTimeout_unmatched hq htwin) rfl rfl,
      fun hmate hh => hmismatch _ _ (pairHashArrival_differs hq hmate hh) rfl rfl⟩

end Sys2Proof.Proofs
end

section
/-! SUPPORT. A thread that lives on one core: where the model finds it, and what changes it there; bytes of a TCM after a store. -/

namespace Sys2Proof.Machine

open Sys2Proof.Claims

/-! ### Maps -/

/-- An entry of a map in which `k` has been set: the new one, or an old one of another key. -/
theorem mem_mset {α : Type} {k : Nat} {v : α} {m : Map α} {e : Nat × α} (h : e ∈ mset m k v) : e = (k, v) ∨ e ∈ m ∧ e.1 ≠ k := by
  refine ((mem_minsert _ _ _ _).1 h).imp id fun h => ?_
  obtain ⟨hm, hk⟩ := List.mem_filter.1 h
  exact ⟨hm, by simpa using hk⟩

theorem mget_mmod_same {α : Type} {m : Map α} {k : Nat} {v : α} (f : α → α) (h : mget m k = some v) : mget (mmod m k f) k = some (f v) := by
  rw [mget_mmod, if_pos rfl, h]
  rfl

/-- What holds of every value of a map, and of the changed one, holds after the change. -/
theorem forall_mem_mmod {α : Type} {m : Map α} {P : α → Prop} (k : Nat) {f : α → α} (h : ∀ e ∈ m, P e.2) (hf : ∀ v, P v → P (f v)) :
    ∀ e ∈ mmod m k f, P e.2 := by
  intro e he
  unfold mmod at he
  split at he
  · next v hv =>
    obtain rfl | ⟨he, -⟩ := mem_mset he
    · exact hf v (h _ (mem_of_mget hv))
    · exact h e he
  · exact h e he

/-! ### Threads that live on one core -/

theorem Core.modBank_bank {k : Core} {b : Nat} {u : Thread} (f : Thread → Thread) (h : mget k.banks b = some u) :
    mget (k.modBank b f).banks b = some (f u) := mget_mmod_same f h

theorem Core.bankOf_congr {k l : Core} (w : Who) (h : l.banks = k.banks) : l.bankOf w = k.bankOf w := by
  unfold Core.bankOf
  rw [h]

theorem State.locate_congr {s t : State} {w : Who} {c b : Nat} (hc : t.cores = s.cores) (h : s.locate w = some (.live c b)) :
    t.locate w = some (.live c b) := by
  unfold State.locate at h ⊢
  rw [hc]
  cases hf : s.cores.findSome? fun c => (c.2.bankOf w).map (Loc.live c.1) with
  | some l => simpa [hf] using h
  | none =>
    exfalso
    simp only [hf] at h
    split at h
    · next l hl =>
      obtain ⟨x, -, hx⟩ := List.exists_of_findSome?_eq_some hl
      obtain ⟨b', -, rfl⟩ := Option.map_eq_some_iff.1 hx
      cases h
    · obtain ⟨m, -, hm⟩ := Option.map_eq_some_iff.1 h
      cases hm

theorem State.core_congr {s t : State} (hc : t.cores = s.cores) (c : Nat) : t.core c = s.core c := by
  unfold State.core
  rw [hc]

end Sys2Proof.Machine

namespace Sys2Proof.Claims

open Sys2Proof.Machine

/-- A change that leaves the cores leaves a thread where it lives. -/
theorem Lives.congr {s t : State} {w : Who} {c b : Nat} {u : Thread} (h : Lives s w c b u) (hc : t.cores = s.cores) : Lives t w c b u := by
  obtain ⟨hlt, hloc, hbank, hget, hall⟩ := h
  exact ⟨hlt, State.locate_congr hc hloc, by rw [State.core_congr hc, hbank], by rw [State.core_congr hc, hget], by rwa [hc]⟩

/-- The core of a thread changes: the thread still lives there if the new core holds it. -/
theorem Lives.setCore {s : State} {w : Who} {c b : Nat} {u v : Thread} {k : Core} (h : Lives s w c b u) (hk : k.bankOf w = some b)
    (hv : mget k.banks b = some v) : Lives (s.setCore c k) w c b v := by
  obtain ⟨hlt, -, -, -, hall⟩ := h
  have hmem : (c, k) ∈ mset s.cores c k := mem_of_mget (mget_mset_same _ _ _)
  have hone : ∀ e ∈ mset s.cores c k, ∀ l, (e.2.bankOf w).map (Loc.live e.1) = some l → l = .live c b := by
    intro e he l hl
    obtain ⟨b', hb', rfl⟩ := Option.map_eq_some_iff.1 hl
    obtain rfl | ⟨he, hne⟩ := mem_mset he
    · rw [hk] at hb'
      cases hb'
      rfl
    · exact absurd (hall e he (by simp [hb'])) hne
  have hloc : (s.setCore c k).locate w = some (.live c b) := by
    unfold State.locate
    cases hf : (s.setCore c k).cores.findSome? fun c => (c.2.bankOf w).map (Loc.live c.1) with
    | none =>
      have := List.findSome?_eq_none_iff.1 hf _ hmem
      simp [hk] at this
    | some l =>
      obtain ⟨e, he, hl⟩ := List.exists_of_findSome?_eq_some hf
      exact congrArg some (hone e he l hl)
  refine ⟨hlt, hloc, ?_, ?_, fun e he hb => ?_⟩
  · rw [State.core_setCore_same, hk]
  · rw [State.core_setCore_same, hv]
  · obtain rfl | ⟨he, -⟩ := mem_mset he
    · rfl
    · exact hall e he hb

section
variable {s : State} {w : Who} {c b : Nat} {u : Thread} (h : Lives s w c b u)
include h

theorem Lives.thread : s.thread? w = some u := by
  obtain ⟨-, hloc, -, hget, -⟩ := h
  simp only [State.thread?, hloc, hget]

theorem Lives.origin : s.originOf w = some c := by
  obtain ⟨-, hloc, -⟩ := h
  simp only [State.originOf, hloc]

theorem Lives.place : s.placeOfThread w = some (c, b) := by
  obtain ⟨-, hloc, -⟩ := h
  simp only [State.placeOfThread, hloc]

theorem Lives.bankNo : s.bankNo w = b := by
  obtain ⟨-, hloc, -⟩ := h
  simp only [State.bankNo, hloc]

theorem Lives.modThread (f : Thread → Thread) : s.modThread w f = s.modCore c fun k => k.modBank b f := by
  obtain ⟨-, hloc, -⟩ := h
  simp only [State.modThread, hloc]

theorem Lives.bank_modThread (f : Thread → Thread) : mget ((s.modThread w f).core c).banks b = some (f u) := by
  rw [h.modThread, State.core_modCore_same]
  obtain ⟨-, -, -, hget, -⟩ := h
  exact Core.modBank_bank f hget

theorem Lives.bank_answer1 (id : Nat) (r : Reply) : mget ((s.answer1 w id r).core c).banks b = some (u.answer id r) := h.bank_modThread _

end

end Sys2Proof.Claims

namespace Sys2Proof.Machine

/-! ### Bytes after a store -/

/-- A store that no mask cuts writes its bytes in a row. -/
theorem wrMasked_whole (m : Mem) (a : Nat) (d : List Byte) : wrMasked m a d [] = wrBytes m a d := by
  induction d generalizing m a with
  | nil => rfl
  | cons x d ih => exact ih _ _

theorem rdBytes_wrBytes_same (m : Mem) (a : Nat) (d : List Byte) : rdBytes (wrBytes m a d) a d.length = d := by
  refine List.ext_getElem (by simp [rdBytes]) fun i h1 h2 => ?_
  simp [rdBytes, rd8_wrBytes_inside m a d i h2]

theorem rdN_wrBytes_same (m : Mem) (a : Nat) {d : List Byte} {n : Nat} (h : d.length = n) : rdN (wrBytes m a d) a n = ofBytes d := by
  rw [rdN, ← h, rdBytes_wrBytes_same]

theorem rdBytes_wrBytes_outside (m : Mem) {a p n : Nat} {d : List Byte} (h : p + n ≤ a ∨ a + d.length ≤ p) :
    rdBytes (wrBytes m a d) p n = rdBytes m p n := by
  refine List.map_congr_left fun i hi => ?_
  have := List.mem_range.1 hi
  exact rd8_wrBytes_outside m a d _ (by omega)

theorem logGranule_core (cid : Nat) (old : List Byte) (g : Nat) (k : Core × Sram) :
    (logGranule cid old g k).1.banks = k.1.banks ∧ (logGranule cid old g k).1.tcm = k.1.tcm := by
  unfold logGranule
  split
  · exact ⟨rfl, rfl⟩
  · split
    · exact ⟨rfl, rfl⟩
    · split <;> exact ⟨rfl, rfl⟩

/-- A store to a TCM changes its bytes as it says, whatever the undo log keeps of them, and no bank. -/
theorem tcmStore_core (cid : Nat) (k : Core × Sram) (a : Nat) (d : List Byte) (m : List Bool) :
    (tcmStore cid k a d m).1.banks = k.1.banks ∧ (tcmStore cid k a d m).1.tcm = k.1.tcm.write a d m := by
  have hfold : ∀ (l : List Nat) (k : Core × Sram),
      let r := l.foldl (fun k g => logGranule cid (rdBytes k.1.tcm.bytes (256 * g) 256) g k) k
      r.1.banks = k.1.banks ∧ r.1.tcm = k.1.tcm := by
    intro l
    induction l with
    | nil => exact fun k => ⟨rfl, rfl⟩
    | cons g l ih =>
      intro k
      obtain ⟨hb, ht⟩ := logGranule_core cid (rdBytes k.1.tcm.bytes (256 * g) 256) g k
      obtain ⟨jb, jt⟩ := ih (logGranule cid (rdBytes k.1.tcm.bytes (256 * g) 256) g k)
      exact ⟨jb.trans hb, jt.trans ht⟩
  obtain ⟨hb, ht⟩ := hfold (granules a d.length) k
  exact ⟨hb, congrArg (·.write a d m) ht⟩

theorem State.wrTcmAt_of_lt (s : State) {c : Nat} (hc : c < 2 ^ 20) (a : Nat) (d : List Byte) (m : List Bool) :
    ∃ p, s.wrTcmAt c a d m = { s.setCore c (tcmStore c (s.core c, s.pad (clusterOf c)) a d m).1 with pads := p } := by
  simp only [State.wrTcmAt, ctxOf?_of_lt hc, State.wrTcm]
  split
  · exact ⟨_, rfl⟩
  · exact ⟨_, rfl⟩

/-- A store to the TCM of a core: its bytes. -/
theorem State.bytes_wrTcmAt (s : State) {c : Nat} (hc : c < 2 ^ 20) (a : Nat) (d : List Byte) :
    ((s.wrTcmAt c a d []).core c).tcm.bytes = wrBytes (s.core c).tcm.bytes a d := by
  obtain ⟨p, hp⟩ := s.wrTcmAt_of_lt hc a d []
  obtain ⟨-, ht⟩ := tcmStore_core c (s.core c, s.pad (clusterOf c)) a d []
  rw [hp]
  show ((s.setCore c _).core c).tcm.bytes = _
  rw [State.core_setCore_same, ht]
  exact wrMasked_whole _ _ _

theorem State.banks_wrTcmAt (s : State) {c : Nat} (hc : c < 2 ^ 20) (a : Nat) (d : List Byte) (m : List Bool) :
    ((s.wrTcmAt c a d m).core c).banks = (s.core c).banks := by
  obtain ⟨p, hp⟩ := s.wrTcmAt_of_lt hc a d m
  obtain ⟨hb, -⟩ := tcmStore_core c (s.core c, s.pad (clusterOf c)) a d m
  rw [hp]
  show ((s.setCore c _).core c).banks = _
  rw [State.core_setCore_same, hb]

theorem State.front_wrTcmAt (s : State) {c : Nat} (hc : c < 2 ^ 20) (a : Nat) (d : List Byte) (m : List Bool) :
    (s.wrTcmAt c a d m).front = s.front := by
  obtain ⟨p, hp⟩ := s.wrTcmAt_of_lt hc a d m
  rw [hp]
  rfl

end Sys2Proof.Machine
end

section
/-! SUPPORT. Messages that arrive, are kept, or are acknowledged, arrivals at a Saved context, and alarms that fire (R42-R45, R156,
R233, R270-R276). -/

namespace Sys2Proof.Machine

open Sys2Proof.Claims

/-! ### Messages -/

theorem retryResend_resends {s : State} {id : Nat} {e : Event} (he : mget s.kept id = some e) (hm : ∀ m, e ≠ .mailboxArrival m) :
    Next (exec .retryResend (On s (.retryResend id))) fun t => mget t.kept id = none ∧ Comes t s.now e := by
  have he' : mget (On s (.retryResend id)).kept id = some e := he
  refine ⟨({ On s (.retryResend id) with kept := mdel s.kept id } : State).post 0 e, ?_, mget_mdel_same _ _, ?_⟩
  · show execRetryResend (On s (.retryResend id)) = _
    simp only [execRetryResend, State.resend, he']
  · exact (State.mem_post _ _ _ _).2 (.inl rfl)

/-- A message of service level to an ordinary mailbox of a core goes to that core, if no other one takes its messages. -/
theorem mailboxArrival_delivers {s : State} {m : Msg} {c : Nat} (hc : c < 2 ^ 20) (h31 : m.dst % 256 ≠ 31) (hdst : m.dst = c)
    (hlevel : m.level = .service) (h1 : m.mb ≠ 1) (h14 : m.mb ≠ 14) (hseized : (s.core c).seized = none) (hdep : s.departedFrom c = c)
    (hbehind : s.behind m s.nextId = false) :
    exec .mailboxArrival (On s (.mailboxArrival m)) = .next ((On s (.mailboxArrival m)).deliver m c) := by
  have hplace : (On s (.mailboxArrival m)).msgPlace m = c := by
    simp only [State.msgPlace, hlevel, reduceCtorEq, if_false, h1, h14, hdst]
    exact hdep
  have hstream : (On s (.mailboxArrival m)).streaming c = false := by
    rw [State.streaming_of_lt _ hc]
    show (s.core c).seized.isSome = false
    rw [hseized]
    rfl
  have hbehind' : (On s (.mailboxArrival m)).behind m (On s (.mailboxArrival m)).nextId = false := hbehind
  show execMailboxArrival (On s (.mailboxArrival m)) = _
  simp only [execMailboxArrival, State.msgBlocked, State.arrive, hplace, hstream, hbehind', h31, hlevel, Bool.and_false, Bool.or_self,
    if_false, Bool.false_eq_true]
  rfl

theorem comes_ackMsg (s : State) {m : Msg} (st : Nat) (h : m.id ≠ 0) :
    Comes (s.ackMsg m st) (s.now + 2 * (6 + 2 * hops (clusterOf m.dst) (clusterOf m.src))) (.sendAcknowledgement m.who m.id st) := by
  unfold State.ackMsg
  rw [if_neg h]
  exact (State.mem_post _ _ _ _).2 (.inl rfl)

/-- Acknowledging a message changes nothing but the agenda. -/
theorem State.ackMsg_agenda (s : State) (m : Msg) (st : Nat) : ∃ l, s.ackMsg m st = { s with agenda := l } := by
  unfold State.ackMsg
  split
  · exact ⟨_, rfl⟩
  · exact ⟨_, rfl⟩

/-- A mailbox with room for which no thread waits takes the entry at its end. -/
theorem Core.putMail_room {k : Core} {mb : Nat} (body : Payload) (hr : k.receiver mb = none) (hlen : (k.box mb).length < 8) :
    k.putMail mb body = some { k with mail := mset k.mail mb (k.box mb ++ [body]) } := by
  simp only [Core.putMail, hr, if_neg (Nat.not_le.2 hlen)]

theorem Core.putMail_full {k : Core} {mb : Nat} (body : Payload) (hr : k.receiver mb = none) (hlen : 8 ≤ (k.box mb).length) :
    k.putMail mb body = none := by
  simp only [Core.putMail, hr, if_pos hlen]

theorem Core.box_mset (k : Core) (mb : Nat) (l : List Payload) : ({ k with mail := mset k.mail mb l } : Core).box mb = l := by
  simp [Core.box]

theorem State.deliver_room {s : State} {m : Msg} {c : Nat} (hc : c < 2 ^ 20) (h1 : m.mb ≠ 1) (h14 : m.mb ≠ 14)
    (hr : (s.core c).receiver m.mb = none) (hlen : ((s.core c).box m.mb).length < 8) :
    s.deliver m c = (s.modCore c fun _ => { s.core c with mail := mset (s.core c).mail m.mb ((s.core c).box m.mb ++ [m.body]) }).ackMsg m 0 := by
  simp only [State.deliver, ctxOf?_of_lt hc, h14, h1, if_false, State.putMail, State.coreAt_of_lt _ hc, Core.putMail_room m.body hr hlen,
    Option.map_some, State.modCoreAt_of_lt _ hc]

theorem State.deliver_full {s : State} {m : Msg} {c : Nat} (hc : c < 2 ^ 20) (h1 : m.mb ≠ 1) (h14 : m.mb ≠ 14) (hform : m.form ≠ 3)
    (hr : (s.core c).receiver m.mb = none) (hlen : 8 ≤ ((s.core c).box m.mb).length) :
    s.deliver m c = (s.count (unitCore c) ctrMboxDrop).ackMsg m 1 := by
  simp only [State.deliver, ctxOf?_of_lt hc, h14, h1, hform, if_false, State.putMail, State.coreAt_of_lt _ hc, Core.putMail_full m.body hr hlen,
    Option.map_none]

/-- The acknowledgement of a message goes back from the core that took or dropped it. -/
theorem comes_back {s t : State} {m : Msg} (st : Nat) (hid : m.id ≠ 0) (hnow : t.now = s.now) :
    Comes (t.ackMsg m st) (s.now + 2 * (6 + 2 * hops (clusterOf m.dst) (clusterOf m.src))) (.sendAcknowledgement m.who m.id st) :=
  hnow ▸ comes_ackMsg t st hid

theorem mailboxArrival_room {s : State} {m : Msg} {c : Nat}
    (hexec : exec .mailboxArrival (On s (.mailboxArrival m)) = .next ((On s (.mailboxArrival m)).deliver m c))
    (hc : c < 2 ^ 20) (h1 : m.mb ≠ 1) (h14 : m.mb ≠ 14) (hr : (s.core c).receiver m.mb = none) (hlen : ((s.core c).box m.mb).length < 8) :
    Next (exec .mailboxArrival (On s (.mailboxArrival m))) fun t => (t.core c).box m.mb = (s.core c).box m.mb ++ [m.body] ∧
      (m.id ≠ 0 → Comes t (s.now + 2 * (6 + 2 * hops (clusterOf m.dst) (clusterOf m.src))) (.sendAcknowledgement m.who m.id 0)) := by
  have hdeliver := State.deliver_room (s := On s (.mailboxArrival m)) hc h1 h14 hr hlen
  rw [hexec, hdeliver]
  refine ⟨_, rfl, ?_, fun hid => comes_back 0 hid rfl⟩
  generalize hv : (On s (.mailboxArrival m)).modCore c _ = v
  obtain ⟨l, hl⟩ := v.ackMsg_agenda m 0
  rw [hl]
  show (v.core c).box m.mb = _
  rw [← hv, State.core_modCore_same, Core.box_mset]
  rfl

theorem mailboxArrival_full {s : State} {m : Msg} {c : Nat}
    (hexec : exec .mailboxArrival (On s (.mailboxArrival m)) = .next ((On s (.mailboxArrival m)).deliver m c))
    (hc : c < 2 ^ 20) (h1 : m.mb ≠ 1) (h14 : m.mb ≠ 14) (hr : (s.core c).receiver m.mb = none)
    (hlen : 8 ≤ ((s.core c).box m.mb).length) (hform : m.form ≠ 3) :
    Next (exec .mailboxArrival (On s (.mailboxArrival m))) fun t => (t.core c).mail = (s.core c).mail ∧
      Counted s t (unitCore c) ctrMboxDrop ∧
      (m.id ≠ 0 → Comes t (s.now + 2 * (6 + 2 * hops (clusterOf m.dst) (clusterOf m.src))) (.sendAcknowledgement m.who m.id 1)) := by
  have hdeliver := State.deliver_full (s := On s (.mailboxArrival m)) hc h1 h14 hform hr hlen
  rw [hexec, hdeliver]
  obtain ⟨l, hl⟩ := ((On s (.mailboxArrival m)).count (unitCore c) ctrMboxDrop).ackMsg_agenda m 1
  refine ⟨_, rfl, ?_, ?_, fun hid => comes_back 1 hid rfl⟩
  · rw [hl]
    rfl
  · rw [hl]
    exact Counted.of_eq (counted_count s _ _) rfl rfl

/-! ### Acknowledgements -/

/-- An event for a request that no twin shares is for its thread alone. -/
theorem State.forTwins_single {s : State} {w : Who} {id : Nat} {f : State → Who → Nat → State} (h : mget (f s w id).pairs id = none) :
    s.forTwins w id f = { f s w id with pairs := mdel (f s w id).pairs id } := by
  simp only [State.forTwins, h, Option.bind_none]

theorem State.modAny_of_lt {s : State} {w : Who} {c b : Nat} (hc : c < 2 ^ 20) (h : s.locateAny w = some (c, b)) (f : Thread → Thread) :
    s.modAny w f = s.modCore c fun k => k.modBank b f := by
  simp only [State.modAny, h, State.modCoreAt_of_lt _ hc, ctxOf?_of_lt hc, Option.isSome_none, Bool.false_eq_true, if_false]

theorem State.releaseIfDrained_agenda (s : State) (w : Who) : ∃ l, s.releaseIfDrained w = { s with agenda := l } := by
  obtain h | ⟨p, b, h⟩ | h := s.releaseIfDrained_cases w
  · exact ⟨_, h⟩
  · exact ⟨_, h⟩
  · exact ⟨_, h⟩

theorem sendAcknowledgement_answers {s : State} {w : Who} {c b id : Nat} {u : Thread} (n : Nat) (hc : c < 2 ^ 20) (hs : Single s id)
    (hloc : s.locateAny w = some (c, b)) (hu : mget (s.core c).banks b = some u) :
    Next (exec .sendAcknowledgement (On s (.sendAcknowledgement w id n))) fun t =>
      mget (t.core c).banks b = some { u.answer id (.value n) with sends := u.sends - 1 } := by
  have hloc' : (On s (.sendAcknowledgement w id n)).locateAny w = some (c, b) := hloc
  set v := (On s (.sendAcknowledgement w id n)).modCore c fun k => k.modBank b fun t =>
    { t.answer id (.value n) with sends := t.sends - 1 } with hv
  have hbank : mget (v.core c).banks b = some { u.answer id (.value n) with sends := u.sends - 1 } := by
    rw [hv, State.core_modCore_same]
    exact Core.modBank_bank _ hu
  obtain ⟨l, hl⟩ := v.releaseIfDrained_agenda w
  have hpairs : mget (v.releaseIfDrained w).pairs id = none := by
    rw [hl]
    exact hs
  refine ⟨{ v.releaseIfDrained w with pairs := mdel (v.releaseIfDrained w).pairs id }, ?_, ?_⟩
  · show execSendAcknowledgement (On s (.sendAcknowledgement w id n)) = _
    simp only [execSendAcknowledgement]
    rw [State.forTwins_single (by rw [State.modAny_of_lt hc hloc']; exact hpairs), State.modAny_of_lt hc hloc']
  · show mget ((v.releaseIfDrained w).core c).banks b = _
    rw [hl]
    exact hbank

/-! ### A Saved context -/

section
variable {s : State} {w : Who} {id b : Nat} {x : Context} (kind mb : Nat) (body : Payload)
variable (hx : mget s.contexts id = some x) (hloc : s.locate w = some (.saved id b)) (hmoving : x.moving = false)
include hx hloc hmoving

theorem savedContextDelivery_appends (hlen : x.arrivals.length < 32) :
    Next (exec .savedContextDelivery (On s (.savedContextDelivery w kind mb body))) fun t =>
      (mget t.contexts id).map (·.arrivals) = some (x.arrivals ++ [(kind, mb, body)]) := by
  have hloc' : (On s (.savedContextDelivery w kind mb body)).locate w = some (.saved id b) := hloc
  have hx' : mget (On s (.savedContextDelivery w kind mb body)).contexts id = some x := hx
  have hfull : decide (32 ≤ x.arrivals.length) = false := decide_eq_false (Nat.not_le.2 hlen)
  refine ⟨(On s (.savedContextDelivery w kind mb body)).append id kind mb body, ?_, ?_⟩
  · show execSavedContextDelivery (On s (.savedContextDelivery w kind mb body)) = _
    simp only [execSavedContextDelivery, hloc', State.streaming, ctxOf?_ctxPlace, State.arrivalsFull, hx', Option.map_some, Option.getD_some,
      hmoving, hfull, Bool.false_eq_true, if_false, Bool.not_false, if_true]
  · simp only [State.append, hx']
    cases x.record with
    | none => simp
    | some n => simp [State.setPad]

theorem savedContextDelivery_drops (hlen : 32 ≤ x.arrivals.length) (h2 : kind ≠ 2) (h3 : kind ≠ 3) :
    Next (exec .savedContextDelivery (On s (.savedContextDelivery w kind mb body))) fun t =>
      Counted s t (unitCore x.origin) ctrMboxDrop ∧ t.contexts = s.contexts := by
  have hloc' : (On s (.savedContextDelivery w kind mb body)).locate w = some (.saved id b) := hloc
  have hx' : mget (On s (.savedContextDelivery w kind mb body)).contexts id = some x := hx
  have hfull : decide (32 ≤ x.arrivals.length) = true := decide_eq_true hlen
  refine ⟨(On s (.savedContextDelivery w kind mb body)).count (unitCore x.origin) ctrMboxDrop, ?_,
    Counted.of_eq (counted_count s _ _) rfl rfl, rfl⟩
  show execSavedContextDelivery (On s (.savedContextDelivery w kind mb body)) = _
  have hkind : (decide (kind = 2) || decide (kind = 3)) = false := by simp [h2, h3]
  simp only [execSavedContextDelivery, hloc', State.streaming, ctxOf?_ctxPlace, State.arrivalsFull, hx', Option.map_some, Option.getD_some,
    hmoving, hfull, Bool.false_eq_true, if_false, Bool.not_true, hkind, State.coreOfPlace]

end

/-! ### Alarms -/

theorem Core.receiver_none {k : Core} (mb : Nat) (h : ∀ e ∈ k.banks, e.2.recvMask = none) : k.receiver mb = none := by
  have hfold : ∀ (l : List (Nat × Thread)), (∀ e ∈ l, e.2.recvMask = none) →
      l.foldl (fun (best : Option (Nat × Nat)) b =>
        match b.2.recvMask with
        | some m =>
          if !m.getLsbD mb then best
          else match best with
            | some (_, t) => if b.2.since < t then some (b.1, b.2.since) else best
            | none => some (b.1, b.2.since)
        | none => best) none = none := by
    intro l hl
    induction l with
    | nil => rfl
    | cons e l ih =>
      rw [List.foldl_cons, hl e (List.mem_cons_self ..)]
      exact ih fun x hx => hl x (List.mem_cons_of_mem _ hx)
  exact congrArg (Option.map (·.1)) (hfold k.banks h)

/-- A thread whose alarm has fired. -/
def Thread.unalarmed (t : Thread) : Thread := { t with alarm := none, alarmOn := none }

theorem alarmFire_fires {s : State} {w : Who} {c b time mb : Nat} {u : Thread} (h : Lives s w c b u) (ha : u.alarm = some (time, mb))
    (htime : time ≤ s.meridianNow) (hrecv : ∀ e ∈ (s.core c).banks, e.2.recvMask = none) (hroom : ((s.core c).box mb).length < 8) :
    Next (exec .alarmFire (On s (.alarmFire w))) fun t => (∀ v, mget (t.core c).banks b = some v → v.alarm = none) ∧
      (t.core c).box mb = (s.core c).box mb ++
        [alarmBody s.meridianNow time (({ prog := w.prog, serial := w.serial } : Thread).id b)] := by
  have h' : Lives (On s (.alarmFire w)) w c b u := h.congr rfl
  have hlive := h'
  obtain ⟨hc, hloc, -, hget, -⟩ := hlive
  set body := alarmBody s.meridianNow time (({ prog := w.prog, serial := w.serial } : Thread).id b) with hbody
  set v := (On s (.alarmFire w)).modCore c fun k => k.modBank b Thread.unalarmed with hv
  have hcore : v.core c = (s.core c).modBank b Thread.unalarmed := State.core_modCore_same _ _ _
  have hquiet : (v.core c).receiver mb = none := by
    rw [hcore]
    exact Core.receiver_none mb (forall_mem_mmod (P := fun t : Thread => t.recvMask = none) (f := Thread.unalarmed) b hrecv fun _ ht => ht)
  have hput : v.mailOrDrop c mb body = v.modCore c fun _ => { v.core c with mail := mset (v.core c).mail mb ((v.core c).box mb ++ [body]) } := by
    have hlen : ((v.core c).box mb).length < 8 := by
      rw [hcore]
      exact hroom
    simp only [State.mailOrDrop, State.putMail, State.coreAt_of_lt _ hc, Core.putMail_room body hquiet hlen, Option.map_some,
      Option.getD_some, State.modCoreAt_of_lt _ hc]
  refine ⟨v.mailOrDrop c mb body, ?_, ?_, ?_⟩
  · have htime' : ¬ (On s (.alarmFire w)).meridianNow < time := Nat.not_lt.2 htime
    show execAlarmFire (On s (.alarmFire w)) = _
    simp only [execAlarmFire, h'.thread, Option.bind_some, ha, htime', if_false, State.fireAlarm, hloc, h'.bankNo, h'.modThread]
    rfl
  · rw [hput, State.core_modCore_same, hcore]
    intro t ht
    obtain rfl : Thread.unalarmed u = t := Option.some.inj ((Core.modBank_bank _ hget).symm.trans ht)
    rfl
  · rw [hput, State.core_modCore_same, Core.box_mset, hcore]
    rfl

end Sys2Proof.Machine
end

section
/-! SUPPORT. The exchange and the barrier of a gang (R295, R297, R299, R300, R402). -/

namespace Sys2Proof.Claims

open Sys2Proof.Machine

theorem Lives.wrTcmAt {s : State} {w : Who} {c b : Nat} {u : Thread} (h : Lives s w c b u) (a : Nat) (d : List Byte) (m : List Bool) :
    Lives (s.wrTcmAt c a d m) w c b u := by
  have h' := h
  obtain ⟨hc, -, hbank, hget, -⟩ := h'
  obtain ⟨p, hp⟩ := s.wrTcmAt_of_lt hc a d m
  obtain ⟨hb, -⟩ := tcmStore_core c (s.core c, s.pad (clusterOf c)) a d m
  rw [hp]
  exact (h.setCore ((Core.bankOf_congr w hb).trans hbank) (by rw [hb]; exact hget)).congr rfl

theorem Lives.emit {s : State} {w : Who} {c b : Nat} {u : Thread} (h : Lives s w c b u) (f delay : Nat) (e : Event) :
    Lives (s.emit c f delay e) w c b u := by
  have h' := h
  obtain ⟨-, -, hbank, hget, -⟩ := h'
  exact (h.setCore (k := ((s.core c).enterEgress s.now f).2) hbank hget).congr rfl

end Sys2Proof.Claims

namespace Sys2Proof.Machine

open Sys2Proof.Claims

/-! ### The exchange -/

/-- A message of a core comes about when its head flit has left and `delay` more fabric cycles are over (R12). -/
theorem comes_emit (s : State) (c f delay : Nat) (e : Event) : Comes (s.emit c f delay e) (max s.now (s.core c).egress + delay) e := by
  refine (State.mem_post _ _ _ _).2 (.inl (congrArg (·, e) ?_))
  show max s.now (s.core c).egress + delay = s.now + ((s.core c).egress - s.now + delay)
  omega

/-- What entry `e` of the plan table of thread `t` on core `c` sends, and to whom (R295, R299). -/
def State.exchangeMsg (s : State) (c : Nat) (t : Thread) (e : Nat) : XMsg :=
  let m := (s.core c).tcm.bytes
  let named := rdN m (t.planEntry e + 4) 2
  { src := if s.copyNo t.prog c = 1 then s.planCore t.prog c false else c
    dst := if s.copyNo t.prog c = 1 then s.planCore t.prog named true else named
    prog := t.prog, offset := rdN m (t.planEntry e + 0x0A) 2, index := rdN m (t.planEntry e + 7) 1
    data := rdBytes m (rdN m (t.planEntry e + 8) 2) (rdN m (t.planEntry e + 0x0C) 2) }

theorem State.sendExchange_emits (s : State) (c : Nat) (t : Thread) (e : Nat) :
    let n := rdN (s.core c).tcm.bytes (t.planEntry e + 0x0C) 2
    s.sendExchange c t e false = s.emit c (flitsOf n) (2 * hops (clusterOf c) (clusterOf (s.exchangeMsg c t e).dst) + n / 64 + 8)
      (.exchangeArrival (s.exchangeMsg c t e)) := rfl

/-- In the copy that is no twin, an entry's message comes from its core and goes where the entry says (R397). -/
theorem State.exchangeMsg_untwinned {s : State} {c : Nat} {t : Thread} (e : Nat) (h : s.copyNo t.prog c = 0) :
    (s.exchangeMsg c t e).src = c ∧ (s.exchangeMsg c t e).dst = rdN (s.core c).tcm.bytes (t.planEntry e + 4) 2 := by
  have hone : ¬ s.copyNo t.prog c = 1 := by omega
  exact ⟨if_neg hone, if_neg hone⟩

theorem exchangeWindow_sends {s : State} {w : Who} {c b id : Nat} {u : Thread} (e : Nat) (h : Lives s w c b u)
    (hp : (u.pend.any fun x => x.id == id) = true) (hhalt : (s.core c).halted = false) (hseized : (s.core c).seized = none) :
    Next (exec .exchangeWindow (On s (.exchangeWindow w id e))) fun t => mget (t.core c).banks b = some (u.answer id (.value 0)) ∧
      let m := (s.core c).tcm.bytes
      let n := rdN m (u.planEntry e + 0x0C) 2
      ∃ x : XMsg, x.prog = u.prog ∧ x.offset = rdN m (u.planEntry e + 0x0A) 2 ∧ x.data = rdBytes m (rdN m (u.planEntry e + 8) 2) n ∧
        (s.copyNo u.prog c = 0 → x.src = c ∧ x.dst = rdN m (u.planEntry e + 4) 2) ∧
        Comes t (max s.now (s.core c).egress + (2 * hops (clusterOf c) (clusterOf x.dst) + n / 64 + 8)) (.exchangeArrival x) := by
  have h' : Lives (On s (.exchangeWindow w id e)) w c b u := h.congr rfl
  have hlive := h'
  obtain ⟨-, hloc, hbank, hget, -⟩ := hlive
  have hhalt' : ((On s (.exchangeWindow w id e)).core c).halted = false := hhalt
  have hseized' : ((On s (.exchangeWindow w id e)).core c).seized = none := hseized
  have hsend := (On s (.exchangeWindow w id e)).sendExchange_emits c u e
  have hsent : Lives ((On s (.exchangeWindow w id e)).sendExchange c u e false) w c b u := by
    rw [hsend]
    exact h'.emit _ _ _
  refine ⟨((On s (.exchangeWindow w id e)).sendExchange c u e false).answer1 w id (.value 0), ?_, hsent.bank_answer1 _ _,
    s.exchangeMsg c u e, rfl, rfl, rfl, State.exchangeMsg_untwinned e, ?_⟩
  · show execExchangeWindow (On s (.exchangeWindow w id e)) = _
    simp only [execExchangeWindow, hloc, hget, hp, hhalt', hseized', Bool.not_true, Bool.false_eq_true, if_false, Option.isSome_none,
      Bool.or_self]
  · rw [State.answer1, hsent.modThread, hsend]
    exact comes_emit (On s (.exchangeWindow w id e)) _ _ _ _

section
variable {s : State} {x : XMsg} {c : Nat} (hc : c < 2 ^ 20) (hplace : s.placeOf x.prog x.dst = c) (hseized : (s.core c).seized = none)
include hc hplace hseized

theorem exchangeArrival_lands : exec .exchangeArrival (On s (.exchangeArrival x)) = .next ((On s (.exchangeArrival x)).landExchange x c) := by
  have hplace' : (On s (.exchangeArrival x)).placeOf x.prog x.dst = c := hplace
  have hstream : (On s (.exchangeArrival x)).streaming c = false := by
    rw [State.streaming_of_lt _ hc]
    show (s.core c).seized.isSome = false
    rw [hseized]
    rfl
  show execExchangeArrival (On s (.exchangeArrival x)) = _
  simp only [execExchangeArrival, hplace', hstream, Bool.false_eq_true, if_false]

theorem exchangeArrival_received {b : Nat} {u : Thread}
    (hfind : ((s.core c).banks.find? fun e => e.2.prog == x.prog && e.2.kind.isGang) = some (b, u))
    (hget : mget (s.core c).banks b = some u) (hsrc : rdN (s.core c).tcm.bytes (u.planEntry x.index + 4) 2 = x.src)
    (hflag : rdN (s.core c).tcm.bytes (u.planEntry x.index + 0x0F) 1 = 0) :
    Next (exec .exchangeArrival (On s (.exchangeArrival x))) fun t => mget (t.core c).banks b = some (u.received x.index) ∧
      rdN (t.core c).tcm.bytes (u.planEntry x.index + 0x0F) 1 = 1 := by
  set v := ((On s (.exchangeArrival x)).wrTcmAt c x.offset x.data []).wrTcmAt c (u.planEntry x.index + 0x0F) [1] [] with hv
  have hland : (On s (.exchangeArrival x)).landExchange x c = v.modCore c fun k => k.modBank b fun t => t.received x.index := by
    have hfind' : (((On s (.exchangeArrival x)).core c).banks.find? fun e => e.2.prog == x.prog && e.2.kind.isGang) = some (b, u) := hfind
    have hsrc' : rdN ((On s (.exchangeArrival x)).core c).tcm.bytes (u.planEntry x.index + 4) 2 = x.src := hsrc
    have hflag' : rdN ((On s (.exchangeArrival x)).core c).tcm.bytes (u.planEntry x.index + 0x0F) 1 = 0 := hflag
    simp only [State.landExchange, State.coreAt_of_lt _ hc, hfind', hsrc', hflag', ne_eq, not_true_eq_false, or_self, if_false,
      ctxOf?_of_lt hc, Option.isSome_none, Bool.false_eq_true, State.modCoreAt_of_lt _ hc]
    rfl
  have hbanks : mget (v.core c).banks b = some u := by
    rw [hv, State.banks_wrTcmAt _ hc, State.banks_wrTcmAt _ hc]
    exact hget
  refine ⟨_, exchangeArrival_lands hc hplace hseized, ?_, ?_⟩
  · rw [hland, State.core_modCore_same]
    exact Core.modBank_bank _ hbanks
  · rw [hland, State.core_modCore_same]
    show rdN (v.core c).tcm.bytes _ 1 = 1
    rw [hv, State.bytes_wrTcmAt _ hc, rdN_wrBytes_same _ _ (d := [1]) (n := 1) rfl]
    rfl

theorem exchangeArrival_strays (hfind : ((s.core c).banks.find? fun e => e.2.prog == x.prog && e.2.kind.isGang) = none) :
    Next (exec .exchangeArrival (On s (.exchangeArrival x))) fun t => Counted s t (unitCore x.dst) ctrLinkDrop ∧ t.cores = s.cores := by
  refine ⟨(On s (.exchangeArrival x)).count (unitCore x.dst) ctrLinkDrop, ?_, Counted.of_eq (counted_count s _ _) rfl rfl, rfl⟩
  have hfind' : (((On s (.exchangeArrival x)).core c).banks.find? fun e => e.2.prog == x.prog && e.2.kind.isGang) = none := hfind
  rw [exchangeArrival_lands hc hplace hseized]
  simp only [State.landExchange, State.coreAt_of_lt _ hc, hfind']

end

/-! ### The barrier -/

/-- The barrier of a copy of the gang of program `p`. -/
def State.barrier (s : State) (p copy : Nat) : Option Superstep := ((mget s.front.progs p).bind (·.run)).map fun r => r.step copy

@[simp] theorem Run.step_modStep (r : Run) (copy : Nat) (f : Superstep → Superstep) : (r.modStep copy f).step copy = f (r.step copy) := by
  unfold Run.step Run.modStep
  split <;> rfl

theorem State.barrier_congr {s t : State} (h : t.front = s.front) (p copy : Nat) : t.barrier p copy = s.barrier p copy := by
  unfold State.barrier
  rw [h]

theorem State.barrier_modStep {s : State} {p copy : Nat} {x : Superstep} (f : Superstep → Superstep) (h : s.barrier p copy = some x) :
    (s.modRun p fun r => r.modStep copy f).barrier p copy = some (f x) := by
  unfold State.barrier at h ⊢
  show ((mget (mmod s.front.progs p _) p).bind _).map _ = _
  cases hg : mget s.front.progs p with
  | none => simp [hg] at h
  | some g =>
    rw [mget_mmod_same _ hg]
    cases hr : g.run with
    | none => simp [hg, hr] at h
    | some r =>
      obtain rfl : r.step copy = x := by simpa [hg, hr] using h
      simp

/-- Looking whether all have arrived leaves who has. -/
theorem State.barrier_checkBarrier {s : State} {p copy : Nat} {x : Superstep} (h : s.barrier p copy = some x) :
    ∃ y, (s.checkBarrier p copy).barrier p copy = some y ∧ y.arrived = x.arrived := by
  have hset := State.barrier_modStep (fun x => { x with last := s.cycle }) h
  unfold State.checkBarrier
  split
  · exact ⟨x, h, rfl⟩
  · dsimp only
    split
    · exact ⟨x, h, rfl⟩
    · split
      · exact ⟨_, hset, rfl⟩
      · exact ⟨_, hset, rfl⟩

theorem barrierArrival_arrives {s : State} {w : Who} {c b copy : Nat} {u : Thread} {g : Prog} {r : Run}
    (hg : mget s.front.progs w.prog = some g) (hr : g.run = some r) (h : Lives s w c b u) (hcopy : s.copyNo w.prog c = copy) :
    Next (exec .barrierArrival (On s (.barrierArrival w))) fun t => ∃ y, t.barrier w.prog copy = some y ∧ w.serial ∈ y.arrived := by
  have h' : Lives (On s (.barrierArrival w)) w c b u := h.congr rfl
  have hcopy' : (On s (.barrierArrival w)).copyNo w.prog c = copy := hcopy
  have hbar : (On s (.barrierArrival w)).barrier w.prog copy = some (r.step copy) := by simp [State.barrier, hg, hr]
  obtain ⟨y, hy, harr⟩ := State.barrier_checkBarrier
    (State.barrier_modStep (fun x => { x with arrived := w.serial :: x.arrived.filter (· != w.serial) }) hbar)
  refine ⟨_, ?_, y, hy, harr ▸ List.mem_cons_self ..⟩
  show execBarrierArrival (On s (.barrierArrival w)) = _
  simp only [execBarrierArrival, h'.origin, hcopy']

end Sys2Proof.Machine
end

section
/-! SUPPORT. The release of a superstep and its replay (R297, R402). -/

namespace Sys2Proof.Machine

open Sys2Proof.Claims

/-! ### Bytes of a number -/

theorem toBytes_succ (n v : Nat) : toBytes (n + 1) v = BitVec.ofNat 8 v :: toBytes n (v / 256) := by
  unfold toBytes
  rw [List.range_succ_eq_map, List.map_cons, List.map_map]
  refine congrArg₂ _ (by simp) (List.map_congr_left fun i _ => ?_)
  show BitVec.ofNat 8 (v / 2 ^ (8 * (i + 1))) = BitVec.ofNat 8 (v / 256 / 2 ^ (8 * i))
  rw [Nat.div_div_eq_div_mul, Nat.mul_succ, Nat.pow_add, Nat.mul_comm (2 ^ (8 * i))]

theorem ofBytes_toBytes (n v : Nat) : ofBytes (toBytes n v) = v % 2 ^ (8 * n) := by
  induction n generalizing v with
  | zero => simp [toBytes, ofBytes, Nat.mod_one]
  | succ n ih =>
    rw [toBytes_succ]
    show (BitVec.ofNat 8 v).toNat + 256 * ofBytes (toBytes n (v / 256)) = _
    rw [ih, BitVec.toNat_ofNat, show 2 ^ (8 * (n + 1)) = 256 * 2 ^ (8 * n) by rw [Nat.mul_succ, Nat.pow_add, Nat.mul_comm], Nat.mod_mul]

theorem wrBytes_append (m : Mem) (a : Nat) (d e : List Byte) : wrBytes m a (d ++ e) = wrBytes (wrBytes m a d) (a + d.length) e := by
  induction d generalizing m a with
  | nil => rfl
  | cons x d ih =>
    show wrBytes (wr8 m a x) (a + 1) (d ++ e) = wrBytes (wrBytes (wr8 m a x) (a + 1) d) (a + (d.length + 1)) e
    rw [ih, show a + (d.length + 1) = a + 1 + d.length by omega]

/-! ### The release -/

theorem State.clearLog_unlogged {s : State} {c : Nat} (hc : c < 2 ^ 20) (hu : (s.core c).undo = none) (f : State → State) :
    s.clearLog c f = f s := by
  simp only [State.clearLog, State.coreAt_of_lt _ hc, hu, Option.isNone_none, if_true]

/-- The header of a rank's plan table as a release leaves it: the origin, the number of the superstep, and no LATE (R295, R297). -/
def State.releaseHeader (s : State) (c h n late : Nat) : State :=
  (s.wrTcmAt c h (toBytes 8 s.cycle ++ toBytes 4 n) []).wrTcmAt c (h + 0x0E) (toBytes 1 (late / 2 * 2)) []

theorem State.number_releaseHeader (s : State) {c : Nat} (hc : c < 2 ^ 20) (h late : Nat) {n : Nat} (hn : n < 2 ^ 32) :
    rdN ((s.releaseHeader c h n late).core c).tcm.bytes (h + 8) 4 = n := by
  have hnum : ofBytes (toBytes 4 n) = n := (ofBytes_toBytes 4 n).trans (Nat.mod_eq_of_lt hn)
  rw [State.releaseHeader, State.bytes_wrTcmAt _ hc, State.bytes_wrTcmAt _ hc, rdN, rdBytes_wrBytes_outside _ (by simp), wrBytes_append,
    length_toBytes, ← rdN, rdN_wrBytes_same _ _ (length_toBytes 4 n), hnum]

/-- A rank that waits on SSTEP, on a core whose writes no log keeps, at T0. -/
theorem State.releaseRank_waiting {s : State} {w : Who} {c b : Nat} {u : Thread} (h : Lives s w c b u) (hst : u.st = .blocked .sstep)
    (hundo : (s.core c).undo = none) :
    let n := (rdN (s.core c).tcm.bytes (u.planAt + 8) 4 + 1) % 2 ^ 32
    s.releaseRank w = (s.releaseHeader c u.planAt n (rdN (s.core c).tcm.bytes (u.planAt + 0x0E) 1)).modCore c fun k =>
      k.modBank b fun t => t.finishWait (.value n) := by
  intro n
  have h' := h
  obtain ⟨hc, -, -, hget, -⟩ := h'
  have hlate : mget ((s.releaseHeader c u.planAt n (rdN (s.core c).tcm.bytes (u.planAt + 0x0E) 1)).core c).banks b = some u := by
    rw [State.releaseHeader, State.banks_wrTcmAt _ hc, State.banks_wrTcmAt _ hc, hget]
  rw [State.releaseHeader] at hlate ⊢
  have hwaits : (u.st == .blocked .sstep || (u.st == .blocked .faultReply && u.pend.any (·.reply.isNone))) = true := by
    rw [hst]
    rfl
  simp only [State.releaseRank, h.place, State.coreAt_of_lt _ hc, hget, Option.getD_some, State.clearLog_unlogged hc hundo, ctxOf?_of_lt hc,
    State.modCoreAt_of_lt _ hc]
  rw [hlate]
  simp only [Option.getD_some, hwaits, Bool.not_true, Bool.false_eq_true, if_false]
  rfl

theorem sstepRelease_releases {s : State} {w : Who} {c b p copy : Nat} {u : Thread} {g : Prog} {r : Run}
    (hg : mget s.front.progs p = some g) (hr : g.run = some r) (hranks : s.ranks p copy = [(c, b, u)]) (h : Lives s w c b u)
    (hw : u.who = w) (hst : u.st = .blocked .sstep) (hundo : (s.core c).undo = none) (hmark : (r.step copy).marked = false) :
    Next (exec .sstepRelease (On s (.sstepRelease p copy))) fun t => (t.barrier p copy).map (·.arrived) = some [] ∧
      let n := (rdN (s.core c).tcm.bytes (u.planAt + 8) 4 + 1) % 2 ^ 32
      mget (t.core c).banks b = some (u.finishWait (.value n)) ∧ rdN (t.core c).tcm.bytes (u.planAt + 8) 4 = n := by
  set v := (On s (.sstepRelease p copy)).modRun p fun r => r.modStep copy fun x => { x with arrived := [], replays := 0 } with hv
  have hbar : (On s (.sstepRelease p copy)).barrier p copy = some (r.step copy) := by simp [State.barrier, hg, hr]
  have hvbar : v.barrier p copy = some { r.step copy with arrived := [], replays := 0 } := State.barrier_modStep _ hbar
  have hlives : Lives v w c b u := h.congr rfl
  have hlive := hlives
  obtain ⟨hc, -, -, hget, -⟩ := hlive
  have hrelease := State.releaseRank_waiting hlives hst hundo
  set n := (rdN (v.core c).tcm.bytes (u.planAt + 8) 4 + 1) % 2 ^ 32 with hn
  set x := v.releaseHeader c u.planAt n (rdN (v.core c).tcm.bytes (u.planAt + 0x0E) 1) with hx
  have hfront : x.front = v.front := by rw [hx, State.releaseHeader, State.front_wrTcmAt _ hc, State.front_wrTcmAt _ hc]
  have hbank : mget (x.core c).banks b = some u := by
    rw [hx, State.releaseHeader, State.banks_wrTcmAt _ hc, State.banks_wrTcmAt _ hc, hget]
  refine ⟨v.releaseRank w, ?_, ?_, ?_, ?_⟩
  · have hunmarked : (On s (.sstepRelease p copy)).stepMarked p copy = false := by
      simp only [State.stepMarked, State.prog?, hg, Option.bind_some, hr, Option.any_some, hmark]
    have hranks' : (On s (.sstepRelease p copy)).ranks p copy = [(c, b, u)] := hranks
    show execSstepRelease (On s (.sstepRelease p copy)) = _
    simp only [execSstepRelease, hunmarked, Bool.false_eq_true, if_false, hranks', List.foldl_cons, List.foldl_nil, hw]
    rfl
  · have hbarrier : (v.releaseRank w).barrier p copy = v.barrier p copy := by
      rw [hrelease]
      exact State.barrier_congr hfront _ _
    rw [hbarrier, hvbar]
    rfl
  · rw [hrelease, State.core_modCore_same]
    exact Core.modBank_bank _ hbank
  · rw [hrelease, State.core_modCore_same]
    exact State.number_releaseHeader v hc _ _ (Nat.mod_lt _ (by decide))

/-! ### The replay -/

@[simp] theorem State.front_modCoreAt (s : State) (place : Nat) (f : Core → Core) : (s.modCoreAt place f).front = s.front := by
  unfold State.modCoreAt
  split <;> rfl

/-- Emptying the undo log of a rank leaves the front end, if what it is done with does. -/
theorem State.front_clearLog (s : State) (place : Nat) {f : State → State} (hf : ∀ v, (f v).front = v.front) :
    (s.clearLog place f).front = s.front := by
  unfold State.clearLog
  dsimp only
  split
  · exact hf s
  · rw [State.front_modCoreAt]
    refine (hf _).trans ?_
    rw [State.front_modCoreAt]
    split <;> rfl

theorem State.front_replayRank (s : State) (w : Who) : (s.replayRank w).front = s.front := by
  unfold State.replayRank
  split
  · rfl
  · exact (State.front_modCoreAt _ _ _).trans (State.front_clearLog _ _ fun v => State.front_modCoreAt v _ _)

/-- Why a program ended, as the first end of it says (R37). -/
theorem State.endProgram_ends {s : State} {p cause : Nat} {g : Prog} {r : Run} (v : Word) (hg : mget s.front.progs p = some g)
    (hr : g.run = some r) (hended : r.ended = none) :
    (((mget (s.endProgram p cause v).front.progs p).bind (·.run)).bind (·.ended)) = some (cause, v) ∧
      Comes (s.endProgram p cause v) s.now (.programCompletion p) := by
  refine ⟨?_, (State.mem_post _ _ _ _).2 (.inl rfl)⟩
  show (((mget (mmod s.front.progs p _) p).bind _).bind _) = _
  rw [mget_mmod_same _ hg]
  simp [hr, hended]

theorem State.foldl_count_kept (s : State) (ctr : Nat) (l : List Nat) :
    (l.foldl (fun s c => s.count (unitCore c) ctr) s).front = s.front ∧ (l.foldl (fun s c => s.count (unitCore c) ctr) s).now = s.now := by
  induction l generalizing s with
  | nil => exact ⟨rfl, rfl⟩
  | cons c l ih => exact ih _

section
variable {s : State} {p copy : Nat} {g : Prog} {r : Run} (hg : mget s.front.progs p = some g) (hr : g.run = some r)
include hg hr

theorem superstepReplay_fails (h3 : 3 ≤ (r.step copy).replays) (hended : r.ended = none) :
    Next (exec .superstepReplay (On s (.superstepReplay p copy))) fun t =>
      (((mget t.front.progs p).bind (·.run)).bind (·.ended)).map (·.1) = some 0x1A ∧ Comes t s.now (.programCompletion p) := by
  have hrun : ((On s (.superstepReplay p copy)).prog? p).bind (·.run) = some r := by simp [State.prog?, hg, hr]
  show Next (execSuperstepReplay (On s (.superstepReplay p copy))) _
  simp only [execSuperstepReplay, hrun, h3, decide_true, Bool.true_or, if_true]
  refine ⟨_, rfl, ?_⟩
  generalize hv : List.foldl (fun (s : State) c => s.count (unitCore c) ctrUndoOverflow) (On s (.superstepReplay p copy)) _ = v
  obtain ⟨hfront, hnow⟩ : v.front = s.front ∧ v.now = s.now := hv ▸ State.foldl_count_kept _ _ _
  obtain ⟨hcause, hcomes⟩ := State.endProgram_ends (cause := 0x1A) _ (hfront ▸ hg) hr hended
  exact ⟨by rw [hcause]; rfl, hnow ▸ hcomes⟩

theorem superstepReplay_replays (h3 : (r.step copy).replays < 3) (hover : ∀ q, (s.coreAt q).undoOver = false)
    (hdrained : s.gangDrained p copy = true) (hcycle : (r.step copy).last + 352 ≤ s.cycle) :
    Next (exec .superstepReplay (On s (.superstepReplay p copy))) fun t =>
      (t.barrier p copy).map (fun y => (y.arrived, y.marked, y.replays)) = some ([], false, (r.step copy).replays + 1) := by
  have hrun : ((On s (.superstepReplay p copy)).prog? p).bind (·.run) = some r := by simp [State.prog?, hg, hr]
  have hover' : ∀ q, ((On s (.superstepReplay p copy)).coreAt q).undoOver = false := hover
  have hdrained' : (On s (.superstepReplay p copy)).gangDrained p copy = true := hdrained
  have hcycle' : ¬ (On s (.superstepReplay p copy)).cycle < (r.step copy).last + 352 := Nat.not_lt.2 hcycle
  have hbar : (On s (.superstepReplay p copy)).barrier p copy = some (r.step copy) := by simp [State.barrier, hg, hr]
  set v := (On s (.superstepReplay p copy)).modRun p fun r => r.modStep copy fun x =>
    { x with arrived := [], marked := false, replays := x.replays + 1 } with hv
  refine ⟨((On s (.superstepReplay p copy)).ranks p copy).foldl (fun s t => s.replayRank t.2.2.who) v, ?_, ?_⟩
  · show execSuperstepReplay (On s (.superstepReplay p copy)) = _
    simp only [execSuperstepReplay, hrun]
    rw [if_neg, if_neg, if_neg hcycle']
    · rw [hdrained']
      decide
    · simp [hover', Nat.not_le.2 h3]
  · have hfront : (((On s (.superstepReplay p copy)).ranks p copy).foldl (fun s t => s.replayRank t.2.2.who) v).front = v.front :=
      State.front_foldl _ (fun s t => State.front_replayRank s _) _ _
    have hvbar := State.barrier_modStep (fun x => { x with arrived := [], marked := false, replays := x.replays + 1 }) hbar
    exact congrArg (Option.map _) ((State.barrier_congr hfront p copy).trans hvbar)

end

end Sys2Proof.Machine
end

section
/-! SUPPORT. Probes, link words, and what a queue's home is asked and answers (R249, R309, R310, R328, R330, R331). -/

namespace Sys2Proof.Machine

open Sys2Proof.Claims

/-! ### Probes -/

/-- The record of a probe stands on the core that the probe names. -/
theorem State.probePlace_own {s : State} {a : Probe} {y : Copy} {area : Nat} (hc : a.core < 2 ^ 20)
    (hy : mget (s.core a.core).copies a.copy = some y) (hwork : y.work = .probe area) (hwho : y.who = a.who) :
    s.probePlace a = some (a.core, area) := by
  obtain ⟨⟩ := y
  subst hwork hwho
  simp only [State.probePlace, State.placesOf, List.cons_append, List.findSome?_cons, State.coreAt_of_lt _ hc, hy, if_true]

theorem probeHop_closes {s : State} {c : Nat} {a : Probe} {y : Copy} {area : Nat} (hc : c < 2 ^ 20) (hauto : a.auto = false)
    (hcore : a.core = c) (hfound : a.found ≠ []) (hat : a.at_ = a.start) (hy : mget (s.core c).copies a.copy = some y)
    (hwork : y.work = .probe area) (hwho : y.who = a.who) :
    Next (exec .probeHop (On s (.probeHop a))) fun t => Comes t (s.now + 4) (.copyCompletion c a.copy) ∧
      (mget (t.core c).copies a.copy).map (fun z => (z.a, z.b, z.state)) = some (a.found.length, 1, 2) := by
  subst hcore
  have hplace : (On s (.probeHop a)).probePlace a = some (a.core, area) := State.probePlace_own hc hy hwork hwho
  have hmet : (!a.found.isEmpty && a.at_ == a.start) = true := by simp [hfound, hat]
  refine ⟨(On s (.probeHop a)).finishAt a.core a.copy fun y => { y with a := a.found.length, b := 1 }, ?_, ?_⟩
  · show execProbeHop (On s (.probeHop a)) = _
    simp only [execProbeHop, State.probeHop, hmet, if_true, State.endProbe, hauto, Bool.false_eq_true, if_false, hplace]
  · simp only [State.finishAt, ctxOf?_of_lt hc, Option.isSome_none, Bool.false_eq_true, if_false, State.modCoreAt_of_lt _ hc]
    refine ⟨(State.mem_post _ _ _ _).2 (.inl rfl), ?_⟩
    rw [State.core_post, State.core_modCore_same]
    show (mget (mmod (s.core a.core).copies a.copy _) a.copy).map _ = _
    rw [mget_mmod_same _ hy]
    rfl

theorem autoProbe_starts {s : State} {w : Who} {c b : Nat} {u : Thread} {k : Wait} (h : Lives s w c b u) (hst : u.st = .blocked k)
    (htarget : k.hasTarget = true) (hsince : u.since + 1000000 ≤ s.now) (hcl : clusterOf c < 34) :
    Next (exec .autoProbe (On s (.autoProbe w))) fun t => Comes t (s.now + 2)
      (.probeHop { who := w, core := coreId (clusterOf c) 16, copy := 0, auto := true, start := w, at_ := w, found := [] }) := by
  have h' : Lives (On s (.autoProbe w)) w c b u := h.congr rfl
  have hlong : 1000000 ≤ (On s (.autoProbe w)).now - u.since := by
    show 1000000 ≤ s.now - u.since
    omega
  refine ⟨(On s (.autoProbe w)).post 2
    (.probeHop { who := w, core := coreId (clusterOf c) 16, copy := 0, auto := true, start := w, at_ := w, found := [] }), ?_,
    (State.mem_post _ _ _ _).2 (.inl rfl)⟩
  show execAutoProbe (On s (.autoProbe w)) = _
  simp only [execAutoProbe, h'.thread, h'.origin, hst, htarget, hlong, hcl, decide_true, Bool.and_self, if_true]

/-! ### Link words -/

theorem linkWordArrival_taken {s : State} {c port prog : Nat} {v : Vec} {via : List Nat} (hseq : (s.core c).seq = [])
    (hloop : (s.core c).vloop = none) (hholds : (s.core c).holds prog = true) :
    Next (exec .linkWordArrival (On s (.linkWordArrival c port prog v via))) fun t =>
      mget (t.core c).fifo port = some ((mget (s.core c).fifo port).getD [] ++ [v]) := by
  have hholds' : ((On s (.linkWordArrival c port prog v via)).core c).holds prog = true := hholds
  set x := (On s (.linkWordArrival c port prog v via)).modCore c fun k =>
    { k with fifo := mset k.fifo port ((mget k.fifo port).getD [] ++ [v]) } with hx
  have hcore : x.core c = { s.core c with fifo := mset (s.core c).fifo port ((mget (s.core c).fifo port).getD [] ++ [v]) } :=
    State.core_modCore_same _ _ _
  have hidle : x.drain c = x := by
    have hempty : ((x.core c).seq.isEmpty && (x.core c).vloop.isNone) = true := by
      rw [hcore, hseq, hloop]
      rfl
    simp only [State.drain, hempty, if_true]
  refine ⟨x, ?_, by show mget (x.core c).fifo port = _; rw [hcore]; exact mget_mset_same _ _ _⟩
  show execLinkWordArrival (On s (.linkWordArrival c port prog v via)) = _
  simp only [execLinkWordArrival, hholds', if_true]
  exact congrArg _ hidle

theorem linkWordArrival_strays {s : State} {c : Nat} (port : Nat) {prog : Nat} (v : Vec) (via : List Nat)
    (hholds : (s.core c).holds prog = false) :
    Next (exec .linkWordArrival (On s (.linkWordArrival c port prog v via))) fun t =>
      Counted s t (unitCore c) ctrLinkDrop ∧ (t.core c).fifo = (s.core c).fifo := by
  have hholds' : ((On s (.linkWordArrival c port prog v via)).core c).holds prog = false := hholds
  refine ⟨((On s (.linkWordArrival c port prog v via)).modCore c fun k => k.dropLink 1).count (unitCore c) ctrLinkDrop, ?_,
    Counted.of_eq (counted_count s _ _) rfl rfl, ?_⟩
  · show execLinkWordArrival (On s (.linkWordArrival c port prog v via)) = _
    simp only [execLinkWordArrival, hholds', Bool.false_eq_true, if_false]
  · rw [State.core_count, State.core_modCore_same]
    rfl

/-! ### An operation at its home -/

/-- ENQ at the home of a queue of this module that takes the element. -/
theorem State.performOp_enq {v y z : State} {id : Nat} {o : QOp} {q : Queue} {d a b : BitVec 5} (hpeer : isPeer o.space = false)
    (hop : o.op = .enq d a b) (hact : v.activate o.home o.a.toNat o.space = .ok (q, y)) (hlen : o.data.length = q.elem)
    (hput : y.putElem o.home q o.data false = .ok (some z)) :
    v.performOp o.home id o = z.replyOp id q.multi (.result 0 true []) := by
  simp only [State.performOp, hop, hpeer, Bool.false_eq_true, if_false, State.enqOp, hact, hlen, ne_eq, not_true_eq_false, hput]

/-- An operation that comes to an awake home of this module is performed where its address is confirmed. -/
theorem State.homeOperation_performs {s v : State} {id : Nat} {o : QOp} {i : Tlb} (h99 : o.home ≠ 99) (ha : Awake s)
    (hpeer : isPeer o.space = false)
    (hv : o.space = spaceOnChip ∧ v = s ∨ o.space ≠ spaceOnChip ∧ s.translate o.home o.space o.a.toNat .atomic = .ok (i, v)) :
    s.homeOperation id o = v.performOp o.home id o := by
  have hpower : ¬ (s.home o.home).power ≠ .awake := fun h => h (ha o.home)
  unfold State.homeOperation
  obtain ⟨hsp, rfl⟩ | ⟨hsp, hi⟩ := hv
  · simp only [h99, if_false, hpower, hsp, if_true]
  · simp only [h99, if_false, hpower, hsp, hpeer, Bool.false_and, Bool.false_eq_true]
    revert hi
    induction s.translate o.home o.space o.a.toNat .atomic using of_forall with
    | all r =>
      intro hi
      subst hi
      rfl

theorem homeControllerOperation_enqueues {s v y z : State} {id : Nat} {o : QOp} {q : Queue} {d a b : BitVec 5} {i : Tlb}
    (ho : mget s.qops id = some o)
    (hreply : o.reply = none) (h99 : o.home ≠ 99) (ha : Awake s)
    (hv : o.space = spaceOnChip ∧ v = On s (.homeControllerOperation id none) ∨ o.space ≠ spaceOnChip ∧
      (On s (.homeControllerOperation id none)).translate o.home o.space o.a.toNat .atomic = .ok (i, v))
    (hpeer : isPeer o.space = false) (hop : o.op = .enq d a b) (hact : v.activate o.home o.a.toNat o.space = .ok (q, y))
    (hlen : o.data.length = q.elem) (hput : y.putElem o.home q o.data false = .ok (some z)) :
    exec .homeControllerOperation (On s (.homeControllerOperation id none)) = .next (z.replyOp id q.multi (.result 0 true [])) := by
  have ho' : mget (On s (.homeControllerOperation id none)).qops id = some o := ho
  have hperform : (On s (.homeControllerOperation id none)).homeOperation id o = z.replyOp id q.multi (.result 0 true []) :=
    (State.homeOperation_performs (s := On s (.homeControllerOperation id none)) h99 ha hpeer hv).trans
      (State.performOp_enq hpeer hop hact hlen hput)
  show execHomeControllerOperation (On s (.homeControllerOperation id none)) = _
  simp only [execHomeControllerOperation, ho', hreply, Option.isSome_none, Bool.false_eq_true, if_false, hperform]
  exact orWait_of_awake ha _ _

/-! ### Replies and grants -/

theorem State.resultTo_live {s : State} {w : Who} {c b : Nat} {u : Thread} (h : Lives s w c b u) (id : Nat) (desc xd : Word) (ok : Bool) :
    s.resultTo w id desc xd ok [] = s.answer1 w id (.result xd ok []) := by
  simp only [State.resultTo, h.place, State.putPayload, List.isEmpty_nil, if_true]

/-- Answering a thread that lives on a core changes that core. -/
theorem State.answer1_live {s : State} {w : Who} {c b : Nat} {u : Thread} (h : Lives s w c b u) (id : Nat) (r : Reply) :
    s.answer1 w id r = s.modCore c fun k => k.modBank b fun t => t.answer id r := h.modThread _

theorem homeControllerReply_answers {s : State} {w : Who} {c b id : Nat} {u : Thread} {o : QOp} {xd : Word} {ok : Bool}
    (h : Lives s w c b u) (ho : mget s.qops id = some o) (hwho : o.who = w) (hcopy : o.copy = none) (hkeeps : keepsData o.op = false)
    (hs : Single s id) (hreply : o.reply = some (.result xd ok [])) :
    Next (exec .homeControllerReply (On s (.homeControllerReply id none))) fun t =>
      mget (t.core c).banks b = some (u.answer id (.result xd ok [])) ∧ mget t.qops id = none := by
  subst hwho
  set v : State := { On s (.homeControllerReply id none) with qops := mdel s.qops id } with hv
  have hlives : Lives v o.who c b u := h.congr rfl
  have ho' : mget (On s (.homeControllerReply id none)).qops id = some o := ho
  have hop : (On s (.homeControllerReply id none)).opReply o (.result xd ok []) o.who id = v.answer1 o.who id (.result xd ok []) := by
    simp only [State.opReply, ho', Option.getD_some, hcopy, hkeeps, Bool.false_eq_true, if_false]
    exact State.resultTo_live hlives _ _ _ _
  have hanswer := State.answer1_live hlives id (.result xd ok [])
  refine ⟨{ v.answer1 o.who id (.result xd ok []) with pairs := mdel (v.answer1 o.who id (.result xd ok [])).pairs id }, ?_,
    hlives.bank_answer1 _ _, ?_⟩
  · show execHomeControllerReply (On s (.homeControllerReply id none)) = _
    simp only [execHomeControllerReply, ho', hreply]
    rw [State.forTwins_single (by rw [hop, hanswer]; exact hs), hop]
  · show mget (v.answer1 _ _ _).qops id = none
    rw [hanswer]
    exact mget_mdel_same _ _

theorem queueGrant_answers {s : State} {w : Who} {c b id : Nat} {u : Thread} {g : Grant} (h : Lives s w c b u) (hwho : g.who = w)
    (hdata : g.data = []) (hwaits : u.waitsFor = some id) (hs : Single s id) (hseized : (s.core c).seized = none) :
    Next (exec .queueGrant (On s (.queueGrant g))) fun t =>
      mget (t.core c).banks b = some (u.answer id (.result (BitVec.ofNat 64 g.status) (g.status == 0) [])) := by
  subst hwho
  have h' : Lives (On s (.queueGrant g)) g.who c b u := h.congr rfl
  have hlive := h'
  obtain ⟨hc, hloc, -⟩ := hlive
  have hstream : (On s (.queueGrant g)).streaming c = false := by
    rw [State.streaming_of_lt _ hc]
    show (s.core c).seized.isSome = false
    rw [hseized]
    rfl
  set v := (On s (.queueGrant g)).answer1 g.who id (.result (BitVec.ofNat 64 g.status) (g.status == 0) []) with hv
  have happly : (On s (.queueGrant g)).applyGrant g g.who id = v := by
    simp only [State.applyGrant, hloc, hdata]
    exact State.resultTo_live h' _ _ _ _
  have hpairs : mget v.pairs id = none := by
    rw [hv, State.answer1_live h']
    exact hs
  refine ⟨{ v with pairs := mdel v.pairs id }, ?_, h'.bank_answer1 _ _⟩
  show execQueueGrant (On s (.queueGrant g)) = _
  simp only [execQueueGrant, h'.place, h'.thread, Option.bind_some, hwaits, hstream, ctxOf?_of_lt hc, Bool.or_self, Bool.false_eq_true, if_false]
  rw [State.forTwins_single (by rw [happly]; exact hpairs), happly]

end Sys2Proof.Machine
end

section
/-! SUPPORT. Waiters that withdraw, records that return, credits that come, and the other module out of reach (R330, R337, R339, R340). -/

namespace Sys2Proof.Machine

open Sys2Proof.Claims

/-! ### Waiters -/

@[simp] theorem State.home_modHome_same (s : State) (h : Nat) (f : Home → Home) : (s.modHome h f).home h = f (s.home h) :=
  State.home_setHome_same _ _ _

/-- Giving up a waiter's record leaves the queues of every home's table. -/
theorem State.queues_freeRecordOf (s : State) (h ticket : Nat) : ((s.freeRecordOf h ticket).home h).queues = (s.home h).queues := by
  unfold State.freeRecordOf
  dsimp only
  split
  · rw [State.home_modHome_same]
  · show ((s.modHome h fun x => { x with spilled := mdel x.spilled ticket }).home h).queues = _
    rw [State.home_modHome_same]

theorem State.homes_modThread (s : State) (w : Who) (f : Thread → Thread) : (s.modThread w f).homes = s.homes := by
  unfold State.modThread
  split <;> rfl

theorem State.homes_rejoin (s : State) (w : Who) : (s.rejoin w).homes = s.homes := by
  unfold State.rejoin
  split
  · exact State.homes_modThread _ _ _
  · rfl

theorem Queue.ticket_dropTicket {q : Queue} {n : Nat} {x : Waiter} (h : x ∈ (q.dropTicket n).producers ++ (q.dropTicket n).consumers) :
    x.ticket ≠ n := by
  obtain h | h := List.mem_append.1 h
  · simpa using (List.mem_filter.1 h).2
  · simpa using (List.mem_filter.1 h).2

theorem waiterWithdrawal_withdraws {s : State} {w : Who} (h n : Nat)
    (hmine : ∃ q ∈ (s.home h).queues, ∃ x ∈ q.producers ++ q.consumers, x.ticket = n ∧ x.who = w) :
    Next (exec .waiterWithdrawal (On s (.waiterWithdrawal h n w))) fun t =>
      ∀ q ∈ (t.home h).queues, ∀ x ∈ q.producers ++ q.consumers, x.ticket ≠ n := by
  have hmine' : ((On s (.waiterWithdrawal h n w)).home h).queues.any (fun q => (q.producers ++ q.consumers).any fun x =>
      x.ticket == n && x.who == w) = true := by
    obtain ⟨q, hq, x, hx, hn, hw⟩ := hmine
    exact List.any_eq_true.2 ⟨q, hq, List.any_eq_true.2 ⟨x, hx, by simp [hn, hw]⟩⟩
  set v := (On s (.waiterWithdrawal h n w)).modHome h fun x => { x with queues := x.queues.map fun q => q.dropTicket n } with hv
  refine ⟨(v.freeRecordOf h n).rejoin w, ?_, fun q hq x hx => ?_⟩
  · show execWaiterWithdrawal (On s (.waiterWithdrawal h n w)) = _
    simp only [execWaiterWithdrawal, hmine', if_true]
    rfl
  · have hhome : ((v.freeRecordOf h n).rejoin w).home h = (v.freeRecordOf h n).home h := by
      unfold State.home
      rw [State.homes_rejoin]
    have hqueues : (((v.freeRecordOf h n).rejoin w).home h).queues = (s.home h).queues.map fun q => q.dropTicket n := by
      rw [hhome, State.queues_freeRecordOf, hv, State.home_modHome_same]
      rfl
    obtain ⟨q, -, rfl⟩ := List.mem_map.1 (hqueues ▸ hq)
    exact Queue.ticket_dropTicket hx

theorem waiterRecordReturn_returns {s : State} {h : Nat} (hroom : (s.home h).waiters - (s.home h).spilled.length < 256) :
    Next (exec .waiterRecordReturn (On s (.waiterRecordReturn h))) fun t => (t.home h).spilled = (s.home h).spilled.drop 1 := by
  have hroom' : ((On s (.waiterRecordReturn h)).home h).waiters - ((On s (.waiterRecordReturn h)).home h).spilled.length < 256 := hroom
  refine ⟨(On s (.waiterRecordReturn h)).modHome h fun x => { x with spilled := x.spilled.drop 1 }, ?_, ?_⟩
  · show execWaiterRecordReturn (On s (.waiterRecordReturn h)) = _
    simp only [execWaiterRecordReturn, hroom', if_true]
  · exact congrArg Home.spilled (State.home_modHome_same _ _ _)

/-! ### Credits -/

/-- The entry of a queue that has been written last. -/
theorem State.queue?_setQueue (s : State) (h : Nat) (q : Queue) :
    ∃ n, ((s.setQueue h q).home h).queue? q.qcb q.space q.tenant = some { q with used := n } := by
  refine ⟨s.nextId, ?_⟩
  show ((s.fresh.2.modHome h _).home h).queue? q.qcb q.space q.tenant = _
  rw [State.home_modHome_same]
  simp only [Home.queue?, List.find?_cons, beq_self_eq_true, Bool.and_self]
  rfl

theorem Home.queue?_named {x : Home} {qcb sp ten : Nat} {q : Queue} (h : x.queue? qcb sp ten = some q) :
    q.qcb = qcb ∧ q.space = sp ∧ q.tenant = ten := by
  have := List.find?_some h
  simpa [and_assoc] using this

theorem State.serveShadow_idle (s : State) (h n : Nat) {q : Queue} (hq : q.producers = []) : s.serveShadow h q n = s.setQueue h q := by
  cases n with
  | zero => rfl
  | succ n => simp only [State.serveShadow, hq]

/-- The shadow of a queue as the recall of its credits leaves it (R336). -/
def Queue.recalled (qcb sp ten : Nat) (q : Queue) : Queue :=
  if q.qcb == qcb && q.space == sp && q.tenant == ten && q.shadow then { q with free := 0 } else q

theorem Home.queue?_recalled {x : Home} {qcb sp ten : Nat} {q : Queue} (hq : x.queue? qcb sp ten = some q) (hs : q.shadow = true) :
    ({ x with queues := x.queues.map (Queue.recalled qcb sp ten) } : Home).queue? qcb sp ten = some { q with free := 0 } := by
  obtain ⟨hqcb, hsp, hten⟩ := Home.queue?_named hq
  have hsame : ∀ o : Queue, ((o.recalled qcb sp ten).qcb == qcb && (o.recalled qcb sp ten).space == sp &&
      (o.recalled qcb sp ten).tenant == ten) = (o.qcb == qcb && o.space == sp && o.tenant == ten) := by
    intro o
    unfold Queue.recalled
    split <;> rfl
  have hfind : (x.queues.map (Queue.recalled qcb sp ten)).find? (fun o => o.qcb == qcb && o.space == sp && o.tenant == ten) =
      (x.queue? qcb sp ten).map (Queue.recalled qcb sp ten) := by
    rw [List.find?_map]
    simp only [Function.comp_def, hsame]
    rfl
  refine hfind.trans ?_
  rw [hq]
  simp [Queue.recalled, hqcb, hsp, hten, hs]

theorem creditMessage_credits {s : State} {h qcb sp ten : Nat} (n : Nat) {q : Queue} (ha : Awake s)
    (hq : (s.home h).queue? qcb sp ten = some q) (hs : q.shadow = true) (hp : q.producers = []) (hpeer : isPeer sp = true) :
    Next (exec .creditMessage (On s (.creditMessage h qcb sp ten n))) fun t =>
      ((t.home h).queue? qcb sp ten).map (·.free) = some (if n = 0 then 0 else q.free + n) := by
  obtain ⟨rfl, rfl, rfl⟩ := Home.queue?_named hq
  show Next (execCreditMessage (On s (.creditMessage h q.qcb q.space q.tenant n))) _
  by_cases hn : n = 0
  · subst hn
    refine ⟨(On s (.creditMessage h q.qcb q.space q.tenant 0)).modHome h fun x =>
      { x with queues := x.queues.map (Queue.recalled q.qcb q.space q.tenant) }, ?_, ?_⟩
    · exact orWait_of_awake ha _ _
    · refine (congrArg (fun x : Home => (x.queue? q.qcb q.space q.tenant).map (·.free)) (State.home_modHome_same _ _ _)).trans ?_
      exact congrArg (Option.map (·.free)) (Home.queue?_recalled hq hs)
  · set v := On s (.creditMessage h q.qcb q.space q.tenant n) with hv
    have hshadow : v.shadow h q.qcb q.space q.tenant = some (q, v.setQueue h q) := by
      have hq' : (v.home h).queue? q.qcb q.space q.tenant = some q := hq
      simp only [State.shadow, hq']
    have hserve := State.serveShadow_idle (v.setQueue h q) h (q.producers.length + 1) (q := { q with free := q.free + n }) hp
    obtain ⟨m, hfree⟩ := (v.setQueue h q).queue?_setQueue h { q with free := q.free + n }
    refine ⟨(v.setQueue h q).setQueue h { q with free := q.free + n }, ?_, ?_⟩
    · have hevent : v.event = .creditMessage h q.qcb q.space q.tenant n := rfl
      simp only [execCreditMessage, hevent, hn, if_false, hpeer, Bool.not_true, Bool.false_eq_true, hshadow, hserve]
      exact orWait_of_awake ha _ _
    · rw [if_neg hn]
      exact congrArg (Option.map (·.free)) hfree

/-! ### The other module out of reach -/

theorem State.linkUp_foldl {α : Type} (f : State → α → State) (h : ∀ s a, (f s a).front.linkUp = s.front.linkUp) (l : List α) (s : State) :
    (l.foldl f s).front.linkUp = s.front.linkUp := by
  induction l generalizing s with
  | nil => rfl
  | cons a l ih => exact (ih _).trans (h s a)

theorem State.linkUp_leave (s : State) (m : Bool) (d : Nat) (e : Event) : (s.leave m d e).front.linkUp = s.front.linkUp := by
  unfold State.leave
  split <;> rfl

theorem State.linkUp_freeRecordOf (s : State) (h ticket : Nat) : (s.freeRecordOf h ticket).front.linkUp = s.front.linkUp := by
  unfold State.freeRecordOf
  dsimp only
  split <;> rfl

theorem State.linkUp_grantTo1 (s : State) (h : Nat) (q : Queue) (w : Waiter) (consumer : Bool) (st : Nat) (d : List Byte) :
    (s.grantTo1 h q w consumer st d).front.linkUp = s.front.linkUp :=
  (State.linkUp_leave _ _ _ _).trans (State.linkUp_freeRecordOf _ _ _)

theorem State.linkUp_wakeAll (s : State) (h : Nat) (q : Queue) (st : Nat) : (s.wakeAll h q st).front.linkUp = s.front.linkUp :=
  (State.linkUp_foldl _ (fun s w => s.linkUp_grantTo1 h q w true st []) _ _).trans
    (State.linkUp_foldl _ (fun s w => s.linkUp_grantTo1 h q w false st []) _ _)

theorem State.linkUp_cutHome (s : State) (h : Nat) : (s.cutHome h).front.linkUp = s.front.linkUp := by
  refine State.linkUp_foldl _ (fun s q => ?_) _ _
  split
  · exact s.linkUp_wakeAll h q 5
  · split <;> rfl

theorem State.linkUp_replyOp (s : State) (id : Nat) (m : Bool) (r : Reply) : (s.replyOp id m r).front.linkUp = s.front.linkUp := by
  unfold State.replyOp
  split
  · exact State.linkUp_leave _ _ _ _
  · rfl

theorem peerUnreachable_cuts (s : State) : Next (exec .peerUnreachable (On s .peerUnreachable)) fun t => t.front.linkUp = false := by
  refine ⟨_, rfl, ?_⟩
  refine (State.linkUp_foldl _ (fun s id => ?_) _ _).trans (State.linkUp_foldl _ (fun s h => s.linkUp_cutHome h) _ _)
  exact State.linkUp_replyOp _ _ _ _

end Sys2Proof.Machine
end

section
/-! PROOF. What arrives changes its target (O50). -/

namespace Sys2Proof.Proofs

open Sys2Proof.Machine Sys2Proof.Claims

/-- Settles O50, event by event: each lemma above says what one arrival does to the thread, mailbox, barrier or queue it is for. -/
theorem arrivalsReachTheirTarget : Obligations.ArrivalsReachTheirTarget := by
  intro s w c b id u hc
  refine ⟨fun e => retryResend_resends, ?mailbox, fun n hs hloc hu => sendAcknowledgement_answers n hc hs hloc hu, ?saved,
    fun time mb => alarmFire_fires, fun e h hp _ hhalt hseized => exchangeWindow_sends e h hp hhalt hseized, ?exchange, ?barrier,
    fun a y area hauto hcore hfound hat => probeHop_closes hc hauto hcore hfound hat, fun k => autoProbe_starts, ?link,
    fun o q v x y z i _ ho hreply h99 ha hv hpeer hop hact hlen z' =>
      homeControllerOperation_enqueues (i := i) ho hreply h99 ha hv hpeer hop hact hlen,
    fun o xd ok => homeControllerReply_answers, fun gr => queueGrant_answers, waiterWithdrawal_withdraws,
    fun h => waiterRecordReturn_returns, fun h qcb sp ten n q => creditMessage_credits n, peerUnreachable_cuts s⟩
  case mailbox =>
    intro m h31 hdst hlevel hmb h1 h14 hseized hdep hbehind hr
    have hdeliver := mailboxArrival_delivers hc h31 hdst hlevel h1 h14 hseized hdep hbehind
    exact ⟨mailboxArrival_room hdeliver hc h1 h14 hr, fun hfull _ hform => mailboxArrival_full hdeliver hc h1 h14 hr hfull hform⟩
  case saved =>
    intro x kind mb body hx hloc hmoving
    exact ⟨savedContextDelivery_appends kind mb body hx hloc hmoving, savedContextDelivery_drops kind mb body hx hloc hmoving⟩
  case exchange =>
    intro x hplace hseized
    exact ⟨exchangeArrival_received hc hplace hseized, exchangeArrival_strays hc hplace hseized⟩
  case barrier =>
    intro p copy g r hg hr
    refine ⟨fun h hp hcopy => ?_, sstepRelease_releases hg hr, superstepReplay_fails hg hr, superstepReplay_replays hg hr⟩
    subst hp
    exact barrierArrival_arrives hg hr h hcopy
  case link =>
    intro port prog v hops hseq hloop
    exact ⟨linkWordArrival_taken hseq hloop, linkWordArrival_strays port v hops⟩

end Sys2Proof.Proofs
end

section
/-! PROOF. The encoding (O56, O57): every well-formed instruction is read back from its words, and what the decoder accepts is
well-formed (R53, R60-R68). -/

namespace Sys2Proof.Proofs

open Sys2Proof.Claims

/-! ### What the decoder accepts -/

/-- Whatever the decoder answers, an instruction among it is well-formed. -/
def OnlyWf (r : Except DecodeError Instr) : Prop := ∀ i, r = .ok i → i.wf = true

theorem onlyWf_error (e : DecodeError) : OnlyWf (.error e) := by
  intro i h
  cases h

theorem onlyWf_accept (zeros : Bool) (i : Instr) : OnlyWf (accept zeros i) := by
  intro j h
  unfold accept at h
  split at h
  · next hi =>
    cases h
    exact (Bool.and_eq_true _ _ ▸ hi).2
  · cases h

/-- Each row of R66 ends in an accepted instruction or in one of the two fates of R68. -/
theorem onlyWf_decodeFields (op : Nat) (c : BitVec 20) (lit : BitVec 32) : OnlyWf (decodeFields op c lit) := by
  unfold decodeFields
  split
  case h_70 => exact onlyWf_error _
  all_goals
    simp only [decode00, decode01, decode02, decode03, decode04, decode05, decode06, decode07, decode08, decode09, decode0A, decode0B,
      decode0C, decode0D, decode0E, decode0F, decode10, decode11, decode12, decode13, decode14, decode15, decode16, decode17, decode18,
      decode19, decode1A, decode1B, decode1C, decode1D, decode1E, decode1F, decode20, decode21, decode22, decode23, decode24, decode25,
      decode26, decode27, decode40, decode41, decode42, decode43, decode44, decode45, decode46, decode47, decode48, decode49, decode4A,
      decode4B, decode50, decode51, decode52, decode53, decode54, decode55, decode56, decode57, decode58, decode59, decode60, decode61,
      decode62, decode63, decode64, decode65, decode66]
    repeat' split
    all_goals apply_rules [onlyWf_accept, onlyWf_error]

/-- The primary opcodes that R66 gives no row (R67). -/
theorem decodeFields_reserved {op : Nat} (c : BitVec 20) (lit : BitVec 32)
    (h : (0x28 ≤ op ∧ op ≤ 0x3F) ∨ (0x4C ≤ op ∧ op ≤ 0x4F) ∨ (0x5A ≤ op ∧ op ≤ 0x5F) ∨ 0x67 ≤ op) :
    decodeFields op c lit = .error .illegalOpcode := by
  unfold decodeFields
  split
  case h_70 => rfl
  all_goals exact absurd h (by decide)

/-! ### Words read back -/

/-- Every instruction is read back from its code and its literal word, row by row. -/
theorem codeRoundTrip (i : Instr) : Laws.CodeRoundTrip.Statement i := by
  open Laws.CodeRoundTrip in
  exact Instr.rec
    beq bne blt bge bltu bgeu bpt bpf j call jr jalr loop liw liwh ld8 ld8u ld16 ld16u ld32 ld32u ld64 st8 st16 st32 st64 lda32 lda64
    stl32 stl64 ldp stp ldf64 stf64 vld vldb vlds vldsPi vst vstm amoadd amoand amoor amoorFence amoxor amomin amomax amominu amomaxu
    amoswp cas32 cas64 amofadd amofmin amofmax cwb cinv cinvRc cinvD pref prefSc icinv enq enqt deq deqt qinit qstat qdrain qreset
    pinit pstat balloc bfree btapp btget btfork btrel send sendAck sendTrap sendv sendvAck sendvTrap recv recvt cpy cpy2d cpy2dSt cpyg
    cpys cpyh cpyq strm strmW strmx xsend xrecv xphase sstep gjoin gleave gbar garr gwait spawn migr migrLd tgrow tidx tidxNx probe
    xmpub xmrd xmrdt stake unstake lvinit lvinv lvstat wreg wunreg ssrex ssrim csrr csrw csrs csrc trap trapBrk time talarm add sub and
    or xor sll srl sra slt sltu min max minu maxu addi andi ori xori slli srli srai slti mul mulh mulhu div divu rem remu lui addpc clz
    ctz popc bswap peq pne plt pge pltu pgeu pand por pxor pnot sel movpw movwp addsh part vadd vsub vmul vmin vmax vand vor vxor vshl
    vshr vsra vfadd vfsub vfmul vfma vfmin vfmax vfabs vfneg vrcp vrsq vsqrt vexp2 vlog2 vdiv vcvt vcvts vqnt vrsum vrmax vrmin vshuf
    vbcast vext vins vcmp vsel vrec vema vmovx vmovv vsplat vloop mcfg mlda mldb mma mmas mrot mdq mdelta mzero mst mscale mredMax
    mredSum mchk nop synci exit yield tret halt reflexRelease shadowBankSwitch deadlineMiss budgetExceeded starvationGuard admission
    taskDispatch bankRelease clearing programCompletion migrationArrival migrationResend preemption seize contextStreamEnd restore
    retryResend stakeRequest stakeGrant standbyMaskWrite mailboxArrival sendAcknowledgement savedContextDelivery alarmFire sliceRequest
    pageWalkComplete confirmation accessReply translationFault faultMessageResend faultReplyResume faultReplyRetryLater faultReplyKill
    overflowMessage overflowRecall overflowRecallAnswer cacheOpComplete sliceGate sliceWake sliceWakeComplete shootdownDataRange
    shootdownDataSpace shootdownInstructionRange shootdownInstructionProgram shootdownEverything shootdownNode shootdownCompletion
    regionTableUpdate peerTranslationRequest peerTranslationReply leaseExpiry debugHalt debugResume debugStep debugQuiesce debugStatus
    debugDump copySectorReply copyCompletion landingHandlerInvocation cpyqRetry streamRefill exchangeWindow exchangeArrival
    barrierArrival sstepRelease superstepReplay probeHop autoProbe xmpubCommit xmrdCompletion homeControllerOperation
    homeControllerReply queueGrant waiterWithdrawal waiterRecordReturn creditMessage peerUnreachable slotFillComplete
    rotationDataArrival rotationCreditArrival pairHashArrival pairMatchTimeout counterSnapshot firmwareCheckpoint recovery recoveryEnd
    heartbeatSend heartbeatReceive heartbeatMiss heartbeatAckMiss xegarLinkUp mirrorUpdate hostQueueEnqueue hostQueueDequeue
    hostSlotControlRead hostSlotDataWrite hostSlotCommit hostSlotRelease hostBar2Access hostRegisterWrite commandDispatch
    packetSignalRelease load launch arm disarm signal mapq mapbar mapwin grant holdrel tenantCreate tenantDestroy attest cap update
    updateCommit updateRevert msix decodeTableLoad powerCapCheck thermAlert thermAlertClear perstN moduleReset boot ptmSynchronisation
    remoteAccess linkWordArrival heartbeatAcknowledgement mirrorAcknowledgement
    i

/-- The literal word counts for a wide code alone (R54). -/
theorem decodeCode_literal {w : BitVec 27} (h : isWideCode w = false) (lit lit' : BitVec 32) : decodeCode w lit = decodeCode w lit' := by
  have h7 : (w.extractLsb' 20 7).toNat ≠ 7 := fun e => by
    simp [isWideCode, BitVec.toNat_eq, e] at h
  unfold decodeCode decodeFields
  split <;> first | rfl | contradiction

/-- The fields of a word, with whatever word follows it. -/
theorem fields_of_word (s : BitVec 1) (g : BitVec 4) (code : BitVec 27) (lit : BitVec 32) :
    let v : BitVec 64 := lit ++ (s ++ g ++ code)
    v.extractLsb' 27 4 = g ∧ v.extractLsb' 0 27 = code ∧ v.extractLsb' 32 32 = lit := by
  simp (disch := decide) only [Laws.extract_low, Laws.extract_high, Laws.extract_all, and_self]

/-- A bundle whose lower word is `s`, `g` and `code`. -/
theorem decodeTableWord_of_append {n k : Nat} {s : BitVec 1} {g : BitVec 4} {code : BitVec 27} {lit : BitVec 32} {i : Instr}
    (hv : BitVec.ofNat 64 (k % 2 ^ n) = lit ++ (s ++ g ++ code)) (hg : g ≠ 8) (h : decodeCode code lit = .ok i) :
    decodeTableWord n k = some i := by
  obtain ⟨h1, h2, h3⟩ := fields_of_word s g code lit
  have hg' : (g == 8#4) = false := by simpa using hg
  simp only [decodeTableWord, hv, h1, h2, h3, hg', h, Bool.false_eq_true, if_false]

theorem ofNat_oneWord (w : BitVec 32) : BitVec.ofNat 64 (asNumber [w] % 2 ^ 32) = 0#32 ++ w := by
  apply BitVec.eq_of_toNat_eq
  have := w.isLt
  rw [BitVec.toNat_ofNat, BitVec.toNat_append]
  simp only [asNumber, BitVec.toNat_ofNat, Nat.zero_mod, Nat.zero_shiftLeft, Nat.zero_or]
  omega

theorem ofNat_twoWords (w lit : BitVec 32) : BitVec.ofNat 64 (asNumber [w, lit] % 2 ^ 64) = lit ++ w := by
  apply BitVec.eq_of_toNat_eq
  have := w.isLt
  have := lit.isLt
  rw [BitVec.toNat_ofNat, BitVec.toNat_append, ← Nat.shiftLeft_add_eq_or_of_lt w.isLt, Nat.shiftLeft_eq]
  simp only [asNumber]
  omega

/-- Decoding the words of a well-formed instruction gives it back (R53, R59). -/
theorem decodeTableWord_encode {i : Instr} (s : BitVec 1) {g : BitVec 4} (hi : i.wf = true) (hg : g ≠ 8) :
    decodeTableWord (32 * (encode i s g).length) (asNumber (encode i s g)) = some i := by
  have hcode := codeRoundTrip i hi
  unfold encode
  split
  · exact decodeTableWord_of_append (ofNat_twoWords _ _) hg hcode
  · next hw =>
    rw [decodeCode_literal (by simpa using hw) _ 0] at hcode
    exact decodeTableWord_of_append (ofNat_oneWord _) hg hcode

/-- Settles O57: the codes are read back row by row, and every row of the decoder accepts well-formed instructions alone. -/
theorem encodeDecodeRoundTrip : Obligations.EncodeDecodeRoundTrip :=
  ⟨fun _ s _ hi hg => decodeTableWord_encode s hi hg, fun _ _ => onlyWf_decodeFields _ _ _,
    fun _ _ h => decodeFields_reserved _ _ h⟩

/-- Settles O56: each word is read in its row of R66. -/
theorem writtenWordsDecode : Obligations.WrittenWordsDecode := by
  unfold Obligations.WrittenWordsDecode
  decide

end Sys2Proof.Proofs
end

section
/-! PROOF. One step (O55): the event that is due, what comes about by itself, or the bundle at the chosen thread's pc (R38, R53-R59). -/

namespace Sys2Proof.Proofs

open Sys2Proof.Machine Sys2Proof.Claims

theorem step_of_due {s t : State} {ev : Event} (h : s.due = some (ev, t)) : step s = afterStep s (exec ev.step { t with event := ev }) := by
  simp only [step, h, take]

theorem step_of_trigger {s : State} {ev : Event} (hd : s.due = none) (h : s.trigger = some ev) :
    step s = afterStep s (exec ev.step { s with event := ev }) := by
  simp only [step, hd, h, take]

/-- Without a late trap, the thread runs the bundle that it has at hand (R56). -/
theorem issueHere_of_bundle {e : State} {w : BitVec 64} (hlate : ({ e with bundle := bundleOf e.src.pc } : State).lateTrap = none)
    (hw : ({ e with bundle := bundleOf e.src.pc, th := { e.th with pend := e.th.pend.filter (·.word != 2) } } : State).bundleHere = some w) :
    issueHere exec e = issueBundle exec { e with bundle := bundleOf e.src.pc, th := { e.th with pend := e.th.pend.filter (·.word != 2) } } w := by
  simp only [issueHere, hlate, hw]

/-- The thread of the slot that issues is entered, and its bundle is run (R38). -/
theorem step_of_bundle {s : State} {c b : Nat} {w : BitVec 64} (hd : s.due = none) (ht : s.trigger = none)
    (hc : s.chooseIssue = some (c, b)) (hlate : ({ s.enter c b with bundle := (Entered s c b).bundle } : State).lateTrap = none)
    (hw : (Entered s c b).bundleHere = some w) : step s = Ended s c b (issueBundle exec (Entered s c b) w) := by
  have hbundle : issueHere exec (s.enter c b) = issueBundle exec (Entered s c b) w := issueHere_of_bundle hlate hw
  simp only [step, hd, ht, hc, issue, hbundle]
  rfl

section
variable {q : State} {f : Form} {v lit : BitVec 32} {i : Instr}

/-- A word that is not skipped runs the instruction that its bits decode to (R59). -/
theorem issueWord_of_decoded (hskip : skipped v = false) (hdec : decodeWord q.cid f v lit = .ok i) :
    issueWord exec q f v lit = runWord exec q f v i := by
  simp only [issueWord, hskip, hdec, Bool.false_eq_true, if_false]
  rfl

theorem runWord_of_guard (hg : ({ q with form := f, raw := v } : State).guardHolds v = true)
    (hr : ({ q with form := f, raw := v } : State).unready i = false) : runWord exec q f v i = exec i { q with form := f, raw := v } := by
  simp [runWord, hg, hr]

theorem runWord_of_unready (hg : ({ q with form := f, raw := v } : State).guardHolds v = true)
    (hr : ({ q with form := f, raw := v } : State).unready i = true) :
    runWord exec q f v i = .next { q with form := f, raw := v, stat := .held, th := { q.th with notBefore := q.cycle + 1 } } := by
  simp [runWord, hg, hr]
  rfl

theorem runWord_of_guardFails (hg : ({ q with form := f, raw := v } : State).guardHolds v = false) (hb : isBodyOp (opOf v) = false) :
    runWord exec q f v i = .next (stepsPast { q with form := f, raw := v }) := by
  simp [runWord, hg, State.passOver, hb, State.advance_eq_stepsPast]

end

section
variable {q : State} {w : BitVec 64}

theorem issueBundle_wide (hpc : q.src.pc.toNat % 8 = 0) (hop : opOf (w.extractLsb' 0 32) = 7) :
    issueBundle exec q w = issueWord exec q .wide (w.extractLsb' 0 32) (w.extractLsb' 32 32) := by
  simp [issueBundle, hpc, hop]

theorem issueBundle_ser0 (hpc : q.src.pc.toNat % 8 = 0) (hop : opOf (w.extractLsb' 0 32) ≠ 7)
    (hs : (w.extractLsb' 0 32).getLsbD 31 = true) : issueBundle exec q w = issueWord exec q .ser0 (w.extractLsb' 0 32) 0 := by
  simp only [issueBundle, hpc, hs, beq_false_of_ne hop]
  rfl

theorem issueBundle_ser1 (hpc : q.src.pc.toNat % 8 = 4) (hop : opOf (w.extractLsb' 0 32) ≠ 7)
    (hs : (w.extractLsb' 0 32).getLsbD 31 = true) : issueBundle exec q w = issueWord exec q .ser1 (w.extractLsb' 32 32) 0 := by
  have h4 : q.src.pc.toNat % 4 = 0 := by omega
  simp only [issueBundle, hpc, hs, h4, beq_false_of_ne hop]
  rfl

/-- Both words of a parallel bundle decode and do not clash (R57): they act as one unit. -/
theorem issueBundle_pair {i j : Instr} (hpc : q.src.pc.toNat % 8 = 0) (hop : opOf (w.extractLsb' 0 32) ≠ 7)
    (hs : (w.extractLsb' 0 32).getLsbD 31 = false) (h0 : skipped (w.extractLsb' 0 32) = false)
    (h1 : skipped (w.extractLsb' 32 32) = false) (hi : decodeWord q.cid .par0 (w.extractLsb' 0 32) 0 = .ok i)
    (hj : decodeWord q.cid .par1 (w.extractLsb' 32 32) 0 = .ok j) (hc : conflict i j = false) :
    issueBundle exec q w = runPair (fun t => runWord exec t .par0 (w.extractLsb' 0 32) i)
      (fun t => runWord exec t .par1 (w.extractLsb' 32 32) j) q := by
  have hbundle : issueBundle exec q w = issueParallel exec q (w.extractLsb' 0 32) (w.extractLsb' 32 32) := by
    simp only [issueBundle, hpc, hs, beq_false_of_ne hop]
    rfl
  rw [hbundle]
  simp only [issueParallel, h0, h1, hi, hj, Except.map, hc, Bool.false_eq_true, if_false]

end

/-- Settles O55: by the order of `step`, and by the form of the bundle at hand. -/
theorem aStepRunsTheDecodedInstruction : Obligations.AStepRunsTheDecodedInstruction := by
  refine ⟨fun s t ev h => step_of_due h, fun s ev hd h => step_of_trigger hd h, ?_⟩
  intro s c b w hd ht hc q w0 w1 runs hlate hw
  have hstep := step_of_bundle hd ht hc hlate hw
  have hruns : ∀ f v lit, issueBundle exec q w = issueWord exec q f v lit → runs f v lit := by
    intro f v lit hword i hskip hdec
    rw [hstep, hword, issueWord_of_decoded hskip hdec]
    exact ⟨fun hg hr => congrArg _ (runWord_of_guard hg hr), fun hg hr => congrArg _ (runWord_of_unready hg hr),
      fun hg hb => congrArg _ (runWord_of_guardFails hg hb)⟩
  exact ⟨fun hpc hop => hruns _ _ _ (issueBundle_wide hpc hop), fun hpc hop hs => hruns _ _ _ (issueBundle_ser0 hpc hop hs),
    fun hpc hop hs => hruns _ _ _ (issueBundle_ser1 hpc hop hs),
    fun i j hpc hop hs h0 h1 hi hj hcl => hstep.trans (congrArg _ (issueBundle_pair hpc hop hs h0 h1 hi hj hcl))⟩

end Sys2Proof.Proofs
end

section
/-! PROOF. Jumps, calls and loops (O8): the target check of R70, once per kind of target, then each transfer (R129, R133-R135). -/

namespace Sys2Proof.Machine

open Sys2Proof.Claims

/-! ### Targets (R70, R129) -/

theorem toNat_ofInt40 {t : Int} (h0 : 0 ≤ t) (h1 : t < 2 ^ 40) : (BitVec.ofInt 40 t).toNat = t.toNat := by
  rw [BitVec.toNat_ofInt]
  congr 1
  exact Int.emod_eq_of_lt h0 (by simpa using h1)

theorem checkTarget_bundleTarget {s : State} {t : Int} {a : IAddr} (h : BundleTarget t a) (k : State → IAddr → Res) :
    checkTarget s t k = k s a := by
  obtain ⟨h0, h1, h8, rfl⟩ := h
  have ha := toNat_ofInt40 h0 h1
  simp only [checkTarget, ha]
  rw [if_neg (by omega), if_neg (by omega), if_pos (by omega)]

theorem checkTarget_bad {s : State} {t : Int} (h : BadTarget t) (k : State → IAddr → Res) :
    checkTarget s t k = trapR targetMisaligned (BitVec.ofInt 64 t) := by
  unfold checkTarget
  by_cases hrange : t < 0 ∨ 2 ^ 40 ≤ t
  · simp only [if_pos hrange]
  · have ha := toNat_ofInt40 (t := t) (by omega) (by omega)
    unfold BadTarget at h
    simp only [if_neg hrange, ha]
    rw [if_pos (by omega)]

/-- A vector is the sum of its bits outside a mask and those inside it. -/
theorem andNot_add_and {n : Nat} (a m : BitVec n) : (a &&& ~~~m) + (a &&& m) = a := by
  have hdisjoint : (a &&& ~~~m) &&& (a &&& m) = 0#n := by grind
  rw [BitVec.add_eq_or_of_and_eq_zero _ _ hdisjoint]
  grind

/-- The bundle of an address that names its word 1. -/
theorem bundleOf_word1 {a : IAddr} (h : a.toNat % 8 = 4) : bundleOf a = a - 4 := by
  have hlow : a &&& 7#40 = 4#40 := BitVec.eq_of_toNat_eq (by simpa using (Nat.and_two_pow_sub_one_eq_mod a.toNat 3).trans h)
  have hsum := andNot_add_and a 7#40
  rw [hlow] at hsum
  exact eq_sub_of_add_eq hsum

/-- A target that names word 1 of a bundle at hand: reached where that bundle is serial and not wide. -/
theorem checkTarget_word1 {s : State} {t : Int} {b : BitVec 64} {e : IAddr} (h0 : 0 ≤ t) (h1 : t < 2 ^ 40) (h4 : t % 8 = 4)
    (he : e = BitVec.ofInt 40 t) (hb : s.bundleAt (e - 4) = some b) (hp : s.th.pend = []) (k : State → IAddr → Res) :
    checkTarget s t k =
      if b.getLsbD 31 = true ∧ b.extractLsb' 20 7 ≠ 7#7 then k s e else trapR targetMisaligned (BitVec.ofInt 64 t) := by
  subst he
  have ha := toNat_ofInt40 h0 h1
  have hpend : s.th.pend.filter (·.word != 4) = s.th.pend := by rw [hp]; rfl
  have hwide : isWideCode (b.extractLsb' 0 27) = (b.extractLsb' 20 7 == 7#7) := by
    rw [isWideCode, Laws.extract_extract _ _ _ _ _ (by decide)]
  rw [checkTarget, if_neg (by omega)]
  simp only [bundleOf_word1 (a := BitVec.ofInt 40 t) (by omega), hb, hpend, hwide, ha]
  rw [if_neg (by omega), if_neg (by omega)]
  simp

/-! ### Transfers -/

section
variable {s : State} {t : Int} {e : IAddr}

theorem transfer_bundle (h : BundleTarget t e) : Next (finish s (transfer s t fun s => s)) (Jumped s e) :=
  ⟨_, by rw [transfer, checkTarget_bundleTarget h, finish_jump], rfl⟩

/-- A transfer that writes x[d] besides. -/
theorem transfer_bundle_setX (h : BundleTarget t e) (d : BitVec 5) (w : Word) :
    Next (finish s (transfer s t fun s => s.setX d w)) (JumpedWith s e d w) := by
  refine ⟨_, by rw [transfer, checkTarget_bundleTarget h, finish_jump], Thread.getX_setX_same s.th d.toNat w,
    fun r hr => Thread.getX_setX_other s.th w hr, ?_⟩
  have hx := Thread.setX_frame s.th d.toNat w
  simp only [State.setX]
  rw [hx]

theorem transfer_bad (h : BadTarget t) (w : State → State) :
    Traps s 0x03 (BitVec.ofInt 64 t) (trapAddress s) (finish s (transfer s t w)) := by
  rw [transfer, checkTarget_bad h]
  exact traps_trapR s _ _

end

theorem State.link_eq (s : State) : s.link = (returnAddress s).setWidth 64 := by
  obtain ⟨f, h⟩ : ∃ f, s.form = f := ⟨_, rfl⟩
  rw [State.link, State.nextAddr_eq]
  unfold returnAddress
  cases f <;> simp only [h]

/-- A taken LOOP writes the count and costs no cycle (R126, R135). -/
theorem loop_taken {s : State} {a d : BitVec 5} {imm : BitVec 7} {e : IAddr} (hn : src s a - 1 ≠ 0)
    (h : BundleTarget (s.bundle.toNat + imm.toInt * 8) e) : Next (exec (.loop d a imm) s) (JumpedWith s e d (src s a - 1)) := by
  obtain ⟨t, ht, hd, ho, hframe⟩ := transfer_bundle_setX h d (src s a - 1)
  refine ⟨{ t with th := { t.th with notBefore := s.th.notBefore } }, ?_, hd, ho, ?_⟩
  · show execLoop d a imm s = _
    unfold execLoop
    have hstat : t.stat = .done := by rw [hframe]
    rw [if_neg (show ¬ s.x a - 1 = 0 from hn)]
    refine (congrArg (noDelay s) ht).trans ?_
    simp only [noDelay, hstat]
    rfl
  · rw [hframe]

theorem loop_bad {s : State} {a d : BitVec 5} {imm : BitVec 7} (hn : src s a - 1 ≠ 0) (h : BadTarget (s.bundle.toNat + imm.toInt * 8)) :
    Traps s 0x03 (BitVec.ofInt 64 (s.bundle.toNat + imm.toInt * 8)) (trapAddress s) (exec (.loop d a imm) s) := by
  intro hready
  obtain ⟨t, ht, htrap⟩ := transfer_bad h (fun s => s.setX d (src s a - 1)) hready
  refine ⟨t, ?_, htrap⟩
  show execLoop d a imm s = _
  unfold execLoop
  have hstat : t.stat = .trapped 0x03 (BitVec.ofInt 64 (s.bundle.toNat + imm.toInt * 8)) := by rw [htrap.frame]
  rw [if_neg (show ¬ s.x a - 1 = 0 from hn)]
  refine (congrArg (noDelay s) ht).trans ?_
  simp only [noDelay, hstat]
  rfl

theorem loop_ends {s : State} {a d : BitVec 5} (imm : BitVec 7) (hn : src s a - 1 = 0) :
    Next (exec (.loop d a imm) s) (XWritten s d 0) := by
  show Next (execLoop d a imm s) _
  unfold execLoop
  rw [show s.x a - 1 = 0 from hn]
  exact writeX_next s d 0

end Sys2Proof.Machine

namespace Sys2Proof.Proofs

open Sys2Proof.Machine Sys2Proof.Claims

/-- Settles O8: a transfer to each kind of target, and LOOP by whether its count runs out. -/
theorem jumpsCallsAndLoops : Obligations.JumpsCallsAndLoops := by
  constructor
  · intro s d a off imm hd t r l n link
    have hlink : s.link = link := State.link_eq s
    refine ⟨fun e h => ⟨transfer_bundle h, ?_⟩, fun h => ⟨transfer_bad h _, transfer_bad h _⟩,
      fun e h => ⟨transfer_bundle h, ?_⟩, fun h => ⟨transfer_bad h _, transfer_bad h _⟩,
      fun hn e h => loop_taken hn h, fun hn h => loop_bad hn h, fun hn => loop_ends imm hn⟩
    · rw [← hlink]
      exact transfer_bundle_setX h 1 s.link
    · rw [← hlink]
      exact transfer_bundle_setX h d s.link
  · intro s a imm b e r h0 h1 h4 he hb hp
    have hexec : exec (.jr a imm) s = finish s (transfer s r fun s => s) := rfl
    rw [hexec, transfer, checkTarget_word1 h0 h1 h4 he hb hp]
    refine ⟨fun h => ?_, fun h => ?_⟩
    · rw [if_pos h]
      exact ⟨_, rfl, rfl⟩
    · rw [if_neg (by rintro ⟨h31, hop⟩; rw [h31] at h; simp [hop] at h)]
      exact traps_trapR s _ _

end Sys2Proof.Proofs
end

section
/-! PROOF. Reads of the special registers, and accesses that write nothing or flush translations (O9, O11): by the access column of R71,
once for CSRR and once for the three writing instructions. -/

namespace Sys2Proof.Machine

open Sys2Proof.Claims

/-! ### Reads (R149) -/

/-- An access that is permitted and waits for nothing reads the register. -/
theorem csrr_reads {s : State} {csr : BitVec 12} {v : Word} (d : BitVec 5) (ha : csrAccess s.src.level csr.toNat ≠ .none)
    (hw : ¬((csr.toNat = 0x003 ∧ s.vconfBusy) ∨ (csr.toNat = 0x106 ∧ s.co.mx.any (s.cycle < ·.1)))) (hv : s.csr csr.toNat = v) :
    Next (exec (.csrr d csr) s) (XWritten s d v) := by
  subst hv
  show Next (execCsrr d csr s) _
  unfold execCsrr
  split
  · next h => exact absurd h ha
  · rw [if_neg hw]
    exact writeX_next s d _

/-- The access of the registers of trap bank 1 and of the roots (R71). -/
theorem csrAccess_ne_none {lv : Level} {n : Nat} (h : lv ≠ .task ∨ ¬(0x210 ≤ n ∧ n ≤ 0x215 ∨ n = 0x300 ∨ n = 0x301)) :
    csrAccess lv n ≠ .none := by
  unfold csrAccess
  repeat' split
  all_goals first | exact CsrAccess.noConfusion | simp_all

/-- A register that is readable at every level, and that no unit of the core holds back. -/
theorem csrr_reads_always {s : State} {v : Word} (d : BitVec 5) (csr : BitVec 12) (hv : s.csr csr.toNat = v)
    (hn : ¬(0x210 ≤ csr.toNat ∧ csr.toNat ≤ 0x215 ∨ csr.toNat = 0x300 ∨ csr.toNat = 0x301) := by simp)
    (hw : csr.toNat ≠ 0x003 ∧ csr.toNat ≠ 0x106 := by simp) : Next (exec (.csrr d csr) s) (XWritten s d v) :=
  csrr_reads d (csrAccess_ne_none (.inr hn)) (by omega) hv

/-- The same above task level, where every register is readable. -/
theorem csrr_reads_above {s : State} {v : Word} (d : BitVec 5) (hl : s.src.level ≠ .task) (csr : BitVec 12) (hv : s.csr csr.toNat = v)
    (hw : csr.toNat ≠ 0x003 ∧ csr.toNat ≠ 0x106 := by simp) : Next (exec (.csrr d csr) s) (XWritten s d v) :=
  csrr_reads d (csrAccess_ne_none (.inl hl)) (by omega) hv

/-- PW reads with p0 set (R72). -/
theorem pw_reads (pw : Byte) : ((pw ||| 1).setWidth 64 : Word) = BitVec.ofNat 64 (pw.toNat / 2 * 2 + 1) := by
  revert pw
  decide

/-! ### Accesses that write nothing (R71) -/

section
variable {s : State}

/-- The three writing instructions are one write with three new values (R149). -/
theorem csr_writes {s : State} {P : Answer → Prop} (d : BitVec 5) (csr : BitVec 12) (h : ∀ w, P (finish s (csrWrite s csr.toNat w))) :
    P (exec (.csrw d csr) s) ∧ P (exec (.csrs d csr) s) ∧ P (exec (.csrc d csr) s) := ⟨h _, h _, h _⟩

theorem csrWrite_readOnly {n : Nat} (ha : csrAccess s.src.level n = .ro) (w : Word → Word) :
    finish s (csrWrite s n w) = .next (stepsPast s) := by
  rw [csrWrite, ha, ← State.advance_eq_stepsPast]
  rfl

theorem csrWrite_forbidden {n : Nat} (ha : csrAccess s.src.level n = .none) (w : Word → Word) :
    Traps s 0x05 (s.raw.setWidth 64) (trapAddress s) (finish s (csrWrite s n w)) := by
  rw [csrWrite, ha]
  exact traps_trapR s _ _

theorem csrr_forbidden {csr : BitVec 12} (d : BitVec 5) (ha : csrAccess s.src.level csr.toNat = .none) :
    Traps s 0x05 (s.raw.setWidth 64) (trapAddress s) (exec (.csrr d csr) s) := by
  show Traps _ _ _ _ (execCsrr d csr s)
  rw [execCsrr, ha]
  exact traps_trapR s _ _

end

/-- The registers that no level writes. -/
theorem csrAccess_readOnly (lv : Level) : ∀ csr ∈ ([0x005, 0x007, 0x100, 0x102, 0x103, 0x106, 0x400, 0x401] : List (BitVec 12)),
    csrAccess lv csr.toNat = .ro := by
  cases lv <;> simp [csrAccess]

/-- Those that task level only reads, and those that it has no access to. -/
theorem csrAccess_task_readOnly : ∀ csr ∈ ([0x004, 0x006, 0x104, 0x105] : List (BitVec 12)), csrAccess .task csr.toNat = .ro := by
  simp [csrAccess]

theorem csrAccess_task_none : ∀ csr ∈ ([0x210, 0x211, 0x212, 0x213, 0x214, 0x215, 0x300, 0x301] : List (BitVec 12)),
    csrAccess .task csr.toNat = .none := by
  simp [csrAccess]

/-! ### Writes of the roots (R204) -/

/-- Above task level a write of a root goes in; nothing holds it back. -/
theorem csrw_root {s : State} {csr : BitVec 12} (d : BitVec 5) (hl : s.src.level ≠ .task) (hc : csr = 0x300 ∨ csr = 0x301) :
    exec (.csrw d csr) s = .next (stepsPast (s.setCsr csr.toNat (csrMerge csr.toNat (s.csr csr.toNat) (s.x d)))) := by
  have ha : csrAccess s.src.level csr.toNat = .rw := by
    cases hv : s.src.level with
    | task => exact absurd hv hl
    | _ => rcases hc with rfl | rfl <;> rfl
  show finish s (csrWrite s csr.toNat _) = _
  rw [csrWrite, ha, ← State.advance_eq_stepsPast]
  rcases hc with rfl | rfl <;> rfl

/-- What is left of the translations after a flush: nothing, on any core and at any home. -/
theorem State.flushTranslations_flushed (s : State) : s.flushTranslations.ibuf = [] ∧ s.flushTranslations.co.l0d = [] ∧
    s.flushTranslations.co.l0i = [] ∧ (∀ h ∈ s.flushTranslations.homes, h.2.tlb = []) ∧
    ∀ c ∈ s.flushTranslations.cores, c.2.l0d = [] ∧ c.2.l0i = [] := by
  refine ⟨rfl, rfl, rfl, fun h hh => ?_, fun c hc => ?_⟩
  · obtain ⟨x, -, rfl⟩ := List.mem_map.1 hh
    rfl
  · obtain ⟨x, -, rfl⟩ := List.mem_map.1 hc
    exact ⟨rfl, rfl⟩

end Sys2Proof.Machine

namespace Sys2Proof.Proofs

open Sys2Proof.Machine Sys2Proof.Claims

/-- Settles O9: every register named is readable at the level, and what it holds is its row of R71. -/
theorem csrReadsGiveTheRegister : Obligations.CsrReadsGiveTheRegister := by
  intro s d hd th reads
  have hzero {n : Nat} (x : BitVec n) : x.setWidth 64 = BitVec.ofNat 64 x.toNat := (BitVec.ofNat_toNat 64 x).symm
  refine ⟨csrr_reads_always d 0x000 (pw_reads _), csrr_reads_always d 0x001 (hzero _), csrr_reads_always d 0x002 (hzero _),
    csrr_reads_always d 0x004 rfl, fun hq hm => ?vconf, csrr_reads_always d 0x005 rfl, csrr_reads_always d 0x006 rfl,
    csrr_reads_always d 0x007 ?latency, csrr_reads_always d 0x100 rfl, csrr_reads_always d 0x101 rfl, csrr_reads_always d 0x102 rfl,
    csrr_reads_always d 0x103 rfl, csrr_reads_always d 0x104 rfl, csrr_reads_always d 0x105 rfl, fun hm => ?mconf,
    csrr_reads_always d 0x200 rfl, csrr_reads_always d 0x201 (hzero th.trap0.cause), csrr_reads_always d 0x202 rfl,
    csrr_reads_always d 0x203 (hzero th.trap0.tepc), csrr_reads_always d 0x204 (hzero th.trap0.tvec), csrr_reads_always d 0x205 rfl,
    csrr_reads_always d 0x400 rfl, csrr_reads_always d 0x401 rfl, fun hl => ⟨csrr_reads_above d hl 0x300 rfl,
      csrr_reads_above d hl 0x301 rfl, csrr_reads_above d hl 0x210 rfl, csrr_reads_above d hl 0x211 (hzero th.trap1.cause),
      csrr_reads_above d hl 0x212 rfl, csrr_reads_above d hl 0x213 (hzero th.trap1.tepc),
      csrr_reads_above d hl 0x214 (hzero th.trap1.tvec), csrr_reads_above d hl 0x215 rfl⟩⟩
  case vconf =>
    have hidle : s.vconfBusy = false := by simpa [State.vconfBusy, hq] using hm
    exact csrr_reads d (csrAccess_ne_none (.inr (by simp))) (by simp [hidle]) rfl
  case latency =>
    show boolWord (th.latency || s.co.staked.isSome) = _
    cases th.latency <;> cases s.co.staked <;> rfl
  case mconf =>
    have hidle : s.co.mx.any (s.cycle < ·.1) = false := by simpa using hm
    exact csrr_reads d (csrAccess_ne_none (.inr (by simp))) (by simp [hidle]) rfl

/-- Settles O11: by the access column of R71, and by the flush that follows a write of either root. -/
theorem csrAccessAndRootWrites : Obligations.CsrAccessAndRootWrites := by
  refine ⟨fun s d => ⟨fun csr hcsr => ?readOnly, fun hl csr hcsr => ?taskReads, fun hl csr hcsr => ?forbidden⟩, fun s d hl => ⟨?droot, ?iroot⟩⟩
  case readOnly =>
    exact csr_writes (P := (· = .next (stepsPast s))) d csr (csrWrite_readOnly (csrAccess_readOnly _ csr hcsr))
  case taskReads =>
    exact csr_writes (P := (· = .next (stepsPast s))) d csr (csrWrite_readOnly (hl ▸ csrAccess_task_readOnly csr hcsr))
  case forbidden =>
    have ha : csrAccess s.src.level csr.toNat = .none := hl ▸ csrAccess_task_none csr hcsr
    exact ⟨csrr_forbidden d ha, csr_writes (P := Traps s 0x05 (s.raw.setWidth 64) (trapAddress s)) d csr (csrWrite_forbidden ha)⟩
  case droot =>
    obtain ⟨hi, hd, hl0, hh, hc⟩ := State.flushTranslations_flushed
      { s with front := { s.front with droot := csrMerge 0x301 s.front.droot (s.x d) } }
    exact ⟨_, csrw_root d hl (.inr rfl), rfl, hi, hd, hl0, hh, hc, rfl, rfl, rfl⟩
  case iroot =>
    obtain ⟨hi, hd, hl0, hh, hc⟩ := State.flushTranslations_flushed
      { s with front := { s.front with iroot := csrMerge 0x300 s.front.iroot (s.x d) } }
    exact ⟨_, csrw_root d hl (.inl rfl), rfl, hi, hd, hl0, hh, hc, rfl, rfl, rfl⟩

end Sys2Proof.Proofs
end

section
/-! SUPPORT. Boot and its tables, updates, recovery and checkpoints, power, resets and time (R78, R155, R413, R421-R424, R427-R429). -/

namespace Sys2Proof.Machine

open Sys2Proof.Claims

/-! ### The agenda -/

/-- A posted event comes about when its delay is over. -/
theorem State.comes_post (s : State) (n : Nat) (e : Event) : Comes (s.post n e) (s.now + n) e := (s.mem_post n e _).2 (.inl rfl)

/-- So does one that was on its way before. -/
theorem comes_post_of_comes {s : State} {n m : Nat} {e e' : Event} (h : Comes s n e) : Comes (s.post m e') n e := (s.mem_post m e' _).2 (.inr h)

/-! ### Boot (R422, R423) -/

section
variable {s : State}

theorem boot_released (h : s.front.boot = 0) (hp : s.front.pins.released = true) : Next (exec .boot (On s .boot)) fun t =>
    t.front.boot = 1 ∧ t.front.booted = true ∧ Comes t (s.now + 200000) .boot := by
  have hstay : ¬ (s.front.boot = 0 && !s.front.pins.released) = true := by simp [hp]
  refine ⟨(On s .boot).bootStage, congrArg Host.Outcome.next (if_neg hstay), ?_⟩
  simp only [State.bootStage, h]
  exact ⟨rfl, rfl, State.comes_post _ _ _⟩

/-- Past its first stage BOOT no longer waits for the pins. -/
theorem boot_stages (h : s.front.boot ≠ 0) : exec .boot (On s .boot) = .next (On s .boot).bootStage := by
  have hstay : ¬ (s.front.boot = 0 && !s.front.pins.released) = true := by simp [h]
  exact congrArg Host.Outcome.next (if_neg hstay)

theorem boot_tested (h : s.front.boot = 1) : Next (exec .boot (On s .boot)) fun t => t.front.boot = 2 ∧ Comes t (s.now + 1000000) .boot := by
  refine ⟨_, boot_stages (by omega), ?_⟩
  simp only [State.bootStage, h]
  exact ⟨rfl, State.comes_post _ _ _⟩

theorem boot_chooses (h : s.front.boot = 2) : Next (exec .boot (On s .boot)) fun t =>
    (∀ k, s.bootChoice = .ok k → t.front.boot = 3 ∧ t.front.bootSlot = k ∧ mget t.front.images 0 = some (s.flashOf k) ∧
      t.front.measure = measureOf (s.flashOf k) ∧ Comes t (s.now + 37000000) .boot) ∧
    ∀ e, s.bootChoice = .error e → t.front.boot = e ∧ t.agenda = s.agenda := by
  refine ⟨_, boot_stages (by omega), fun k hk => ?_, fun e he => ?_⟩
  · have hk' : (On s .boot).bootChoice = .ok k := hk
    simp only [State.bootStage, h, hk']
    refine ⟨rfl, rfl, ?_, rfl, State.comes_post _ _ _⟩
    exact (mget_mset_other _ _ (by decide)).trans (mget_mset_same _ _ _)
  · have he' : (On s .boot).bootChoice = .error e := he
    simp only [State.bootStage, h, he']
    exact ⟨rfl, rfl⟩

theorem boot_verified (h : s.front.boot = 3) : Next (exec .boot (On s .boot)) fun t => t.front.boot = 4 ∧ Comes t (s.now + 2000000) .boot := by
  refine ⟨_, boot_stages (by omega), ?_⟩
  simp only [State.bootStage, h]
  exact ⟨rfl, State.comes_post _ _ _⟩

/-- What LOADING leaves (R423). -/
theorem applyBlob_loads (i : Nat) : let t := s.applyBlob i
    t.front.boot = 5 ∧ t.reflexStore = bootStore i ∧ t.front.windows = bootWindows i ∧
      (t.core 0).banks = [] ∧ (t.core 0).table = Config.imageTable i ∧ t.front.standby = Config.blobStandby i ∧
      Comes t (s.now + 32) .commandDispatch ∧ Comes t (s.now + 1000000) .firmwareCheckpoint :=
  ⟨rfl, rfl, rfl, rfl, rfl, rfl,
    comes_post_of_comes (comes_post_of_comes (comes_post_of_comes (State.comes_post _ _ _))), comes_post_of_comes (State.comes_post _ _ _)⟩

theorem boot_loads (h : s.front.boot = 4) :
    let i := (mget s.front.images 0).getD 0
    Next (exec .boot (On s .boot)) fun t =>
      if Config.signed (Config.imageBlob i) = true ∧ Config.signed (Config.tableImage i) = true ∧ Config.blobTable i = Config.imageTable i
      then t.front.boot = 5 ∧ t.reflexStore = bootStore i ∧ t.front.windows = bootWindows i ∧
        (t.core 0).banks = [] ∧ (t.core 0).table = Config.imageTable i ∧ t.front.standby = Config.blobStandby i ∧
        Comes t (s.now + 32) .commandDispatch ∧ Comes t (s.now + 1000000) .firmwareCheckpoint
      else t = On s .boot := by
  intro i
  refine ⟨_, boot_stages (by omega), ?_⟩
  have hstage : (On s .boot).bootStage =
      if Config.signed (Config.imageBlob i) && Config.signed (Config.tableImage i) && Config.blobTable i == Config.imageTable i
      then (On s .boot).applyBlob i else On s .boot := by
    simp only [State.bootStage, h]
    rfl
  dsimp only
  rw [hstage]
  simp only [Bool.and_eq_true, beq_iff_eq, and_assoc]
  split
  · exact applyBlob_loads i
  · rfl

/-! ### Decode tables (R424) -/

theorem decodeTableLoad_loads {c : Nat} (n i : Nat) (hc : isCompute c = true) (hcore : isCore c = true) (hfree : s.isFree c 0 = true) :
    Next (exec .decodeTableLoad (On s (.decodeTableLoad c n i))) fun t =>
      (t.core c).table = if Config.signed i = true then n else (s.core c).table := by
  have hfree' : (On s (.decodeTableLoad c n i)).isFree c 0 = true := hfree
  refine ⟨_, rfl, ?_⟩
  simp only [hc, hfree', hcore, if_true, Bool.true_and]
  split
  · exact congrArg Core.table (State.core_modCore_same _ _ _)
  · rfl

end

/-! ### Updates (R427) -/

/-- The image `n` staged for the canary, and its watch (R427). -/
def State.staged (s : State) (p : Packet) (n : Nat) : State :=
  (s.modFront fun f => { f with
    update := some { image := n, queues := updateQueues p, packet := p }, images := mset f.images 2 n }).post 10000000000 .updateCommit

theorem update_stages {s v : State} {p : Packet} {l : List Byte} (ha : Awake s) (hu : s.front.update = none)
    (hq : (updateQueues p).any (s.foreignWindow p) = false)
    (hr : (On s (.update p)).rdAny (field p 0x28 2) p.tenant (field p 0x20 8) (field p 0x30 8) = .got l v) :
    Next (exec .update (On s (.update p))) fun t =>
      if Config.signed (ofBytes l) = true ∧ v.front.counter ≤ Config.securityVersion (ofBytes l)
      then (t.front.update.map (·.image)) = some (ofBytes l) ∧ mget t.front.images 2 = some (ofBytes l) ∧
        Comes t (v.now + 10000000000) .updateCommit
      else t = v.completePkt p stInvalid 0 0 0 := by
  have hq' : (updateQueues p).any ((On s (.update p)).foreignWindow p) = false := hq
  have hexec : exec .update (On s (.update p)) = .next (
      if !Config.signed (ofBytes l) || Config.securityVersion (ofBytes l) < v.front.counter then v.completePkt p stInvalid 0 0 0
      else v.staged p (ofBytes l)) := by
    show execUpdate (On s (.update p)) = _
    simp only [execUpdate, orWait_of_awake ha, hu, hq', hr, Option.isSome_none, Bool.false_eq_true, if_false]
    rfl
  refine ⟨_, hexec, ?_⟩
  dsimp only
  by_cases hgood : Config.signed (ofBytes l) = true ∧ v.front.counter ≤ Config.securityVersion (ofBytes l)
  · have hfails : ¬ (!Config.signed (ofBytes l) || decide (Config.securityVersion (ofBytes l) < v.front.counter)) = true := by
      simpa [hgood.1] using hgood.2
    rw [if_pos hgood, if_neg hfails]
    exact ⟨rfl, mget_mset_same _ _ _, State.comes_post _ _ _⟩
  · have hfails : (!Config.signed (ofBytes l) || decide (Config.securityVersion (ofBytes l) < v.front.counter)) = true := by
      rw [not_and_or, not_le] at hgood
      simpa using hgood
    rw [if_neg hgood, if_pos hfails]

/-- The state after an update that the watch has passed (R427). -/
theorem updateCommit_commits {s : State} {u : Update} (ha : Awake s) (hu : s.front.update = some u) (hnone : firstFailing u.counts = none) :
    exec .updateCommit (On s .updateCommit) = .next (({ On s .updateCommit with front := { s.front with
      flash := mset s.front.flash (1 - s.front.bootSlot) u.image, counter := Config.securityVersion u.image
      images := mdel (mset s.front.images 1 u.image) 2, update := none } } : State).completePkt u.packet 0 0 0 0) := by
  show execUpdateCommit (On s .updateCommit) = _
  simp only [execUpdateCommit, orWait_of_awake ha, hu, hnone]
  rfl

theorem updateRevert_reverts {s : State} {u : Update} {k : Nat} (ha : Awake s) (hu : s.front.update = some u)
    (hk : firstFailing u.counts = some k) :
    ∃ v : State, exec .updateRevert (On s .updateRevert) = .next (v.completePkt u.packet 1 0 k 0) ∧
      v.front.update = none ∧ v.front.flash = s.front.flash ∧ ∀ e ∈ v.agenda, e.2 ≠ .updateCommit := by
  refine ⟨((On s .updateRevert).modFront fun f => { f with update := none, images := mdel f.images 2 }).unpost fun e => e == .updateCommit,
    ?_, rfl, rfl, fun e he => ?_⟩
  · show execUpdateRevert (On s .updateRevert) = _
    simp only [execUpdateRevert, State.revertUpdate, orWait_of_awake ha, hu, hk, Option.bind_some, Option.getD_some]
    rfl
  · simpa using (List.mem_filter.1 he).2

/-! ### Recovery and checkpoints (R421) -/

theorem recovery_restarts {s : State} (ha : Awake s) (hboot : s.front.boot = 5) (hdeq : s.front.dequeued = []) :
    Next (exec .recovery (On s .recovery)) fun t => t.front.hold = true ∧ t.front.boot = 6 ∧
      (∀ k ∈ [coreId 62 0, coreId 62 1], (t.core k).banks = [] ∧ (t.core k).seq = [] ∧ (t.core k).halted = false) ∧
      t.front.latQueue = [] ∧ t.front.bulkQueue = [] ∧ Comes t (s.now + 20000000) .recoveryEnd ∧ ∀ e ∈ t.agenda, isCommand e.2 = false := by
  set v := ((On s .recovery).modFront fun f => { f with
    hold := true, boot := 6, latQueue := [], bulkQueue := [], wanted := none, progs := f.progs.map fun g => (g.1, g.2.dropWaiting) }).unpost
    isCommand with hv
  set t := ((v.modCore (coreId 62 0) Core.restarted).modCore (coreId 62 1) Core.restarted).post 20000000 .recoveryEnd with ht
  have hexec : exec .recovery (On s .recovery) = .next t := by
    show execRecovery (On s .recovery) = _
    simp only [execRecovery, orWait_of_awake ha, hboot, ne_eq, not_true, if_false]
    rw [show (v.front.dequeued) = [] from hdeq]
    rfl
  have hsecond : t.core (coreId 62 1) = ((v.modCore (coreId 62 0) Core.restarted).core (coreId 62 1)).restarted :=
    State.core_modCore_same _ _ _
  have hfirst : t.core (coreId 62 0) = (v.core (coreId 62 0)).restarted :=
    (State.core_modCore_other _ _ (by decide)).trans (State.core_modCore_same _ _ _)
  refine ⟨t, hexec, rfl, rfl, ?_, rfl, rfl, State.comes_post _ _ _, fun e he => ?_⟩
  · intro k hk
    rcases List.mem_pair.1 hk with rfl | rfl
    · rw [hfirst]
      exact ⟨rfl, rfl, rfl⟩
    · rw [hsecond]
      exact ⟨rfl, rfl, rfl⟩
  · rcases (State.mem_post _ _ _ _).1 he with rfl | he
    · rfl
    · simpa using (List.mem_filter.1 he).2

theorem firmwareCheckpoint_writes {s : State} (hboot : s.front.boot = 5) :
    Next (exec .firmwareCheckpoint (On s .firmwareCheckpoint)) fun t => t.front.checkpoint = some s.now ∧
      Comes t (s.now + 1000000) .firmwareCheckpoint := by
  have hnow : (On s .firmwareCheckpoint).writeTables.now = s.now := by
    simp only [State.writeTables, State.modFront_now, State.wrReflex]
    split <;> rfl
  refine ⟨(On s .firmwareCheckpoint).writeTables.post 1000000 .firmwareCheckpoint, congrArg Host.Outcome.next (if_pos hboot), rfl, ?_⟩
  rw [← hnow]
  exact State.comes_post _ _ _

theorem recoveryEnd_ends {s : State} (hboot : s.front.boot = 6) :
    Next (exec .recoveryEnd (On s .recoveryEnd)) fun t => t.front.boot = 5 ∧ Comes t (s.now + 32) .commandDispatch := by
  refine ⟨_, congrArg Host.Outcome.next (if_neg ?_), ?_, State.comes_post _ _ _⟩
  · exact not_not_intro hboot
  · rfl

/-! ### Counters, power, resets and time (R155, R413, R428, R429) -/

theorem counterSnapshot_adds (s : State) : Next (exec .counterSnapshot (On s .counterSnapshot)) fun t =>
    t.snapshot = addCounts s.snapshot s.counters ∧ t.counters = [] ∧
      Comes t (s.now + ((s.meridianNow / 1000000 + 1) * 1000000 - s.meridianNow)) .counterSnapshot :=
  ⟨_, rfl, rfl, rfl, State.comes_post _ _ _⟩

theorem powerCapCheck_throttles (s : State) : Next (exec .powerCapCheck (On s .powerCapCheck)) fun t =>
    t.front.throttled = decide (s.front.cap < t.front.pwr.toNat) ∧ Comes t (s.now + 100000) .powerCapCheck :=
  ⟨_, rfl, rfl, State.comes_post _ _ _⟩

theorem thermAlert_caps (s : State) : Next (exec .thermAlert (On s .thermAlert)) fun t => t.front.pins.thermAlertN = false ∧
    (s.front.capBefore = none → t.front.cap = 900 ∧ t.front.capBefore = some s.front.cap) := by
  refine ⟨_, rfl, ?_⟩
  simp only [State.modFront_front]
  cases hcap : s.front.capBefore with
  | none => exact ⟨rfl, fun _ => ⟨rfl, rfl⟩⟩
  | some k => exact ⟨rfl, nofun⟩

theorem thermAlertClear_restores (s : State) : Next (exec .thermAlertClear (On s .thermAlertClear)) fun t =>
    t.front.pins.thermAlertN = true ∧ t.front.capBefore = none ∧ ∀ k, s.front.capBefore = some k → t.front.cap = k := by
  refine ⟨_, rfl, ?_⟩
  simp only [State.modFront_front]
  cases hcap : s.front.capBefore with
  | none => exact ⟨rfl, rfl, nofun⟩
  | some k => exact ⟨rfl, rfl, fun _ h => Option.some.inj h⟩

theorem perstN_resets (s : State) (low : Bool) : Next (exec .perstN (On s (.perstN low))) fun t => t.front.pins.perstN = !low ∧
    t.dram = s.dram ∧ t.cores = s.cores ∧ (low = true → t.front.raised = []) := by
  refine ⟨_, rfl, ?_, rfl, rfl, ?_⟩
  · cases low <;> rfl
  · rintro rfl
    rfl

theorem moduleReset_resets (s : State) (power : Bool) : Next (exec .moduleReset (On s (.moduleReset power true))) fun t =>
    t.cores = [] ∧ t.dram = [] ∧ t.homes = [] ∧ t.lxm = [] ∧ t.counters = [] ∧ t.front.progs = [] ∧ t.front.boot = 0 ∧
      t.front.hold = true ∧ t.front.epoch = s.front.epoch ∧ t.front.counter = s.front.counter ∧ t.front.flash = s.front.flash ∧
      t.cycle = 0 := by
  refine ⟨(On s (.moduleReset power true)).afterReset power, rfl, rfl, rfl, rfl, rfl, rfl, rfl, rfl, rfl, rfl, rfl, rfl, ?_⟩
  show (s.now - s.now) / _ = 0
  simp

theorem moduleReset_ends (s : State) :
    (Next (exec .moduleReset (On s (.moduleReset false false))) fun t => t.front.pins.modRstN = true ∧ t.cores = s.cores) ∧
      Next (exec .moduleReset (On s (.moduleReset true false))) fun t => t.front.pins.pwrGood = true ∧ t.cores = s.cores :=
  ⟨⟨_, rfl, rfl, rfl⟩, ⟨_, rfl, rfl, rfl⟩⟩

theorem ptmSynchronisation_slews (s : State) (n : Nat) : Next (exec .ptmSynchronisation (On s (.ptmSynchronisation n))) fun t =>
    t.slew = (n : Int) - s.meridianNow ∧ t.meridianNow = s.meridianNow := ⟨_, rfl, rfl, rfl⟩

end Sys2Proof.Machine
end

section
/-! SUPPORT. What the memory of the module leaves of its front end, and the pair of modules (R404-R409). -/

namespace Sys2Proof.Machine

open Sys2Proof.Claims

/-! ### Slices and the translations leave the front end alone -/

@[simp] theorem State.front_recall (s : State) (h : Nat) (l : SLine) : (s.recall h l).front = s.front := by
  unfold State.recall
  split <;> rfl

@[simp] theorem State.front_dropLine (s : State) (h : Nat) (l : SLine) : (s.dropLine h l).front = s.front := s.front_recall h l

@[simp] theorem State.front_setDramSector (s : State) (a key : Nat) (v : BitVec 256) : (s.setDramSector a key v).front = s.front := by
  unfold State.setDramSector
  split <;> rfl

@[simp] theorem State.front_pokeDram (s : State) (a key : Nat) (d : List Byte) (m : List Bool) : (s.pokeDram a key d m).front = s.front :=
  State.front_setDramSector _ _ _ _

@[simp] theorem State.front_orEntry (s : State) (a v : Nat) : (s.orEntry a v).front = s.front := State.front_pokeDram _ _ _ _ _

@[simp] theorem State.front_writeBack (s : State) (l : SLine) : (s.writeBack l).front = s.front := by
  unfold State.writeBack
  dsimp only
  split
  · split
    · rw [State.front_setDramSector]
      split
      · split
        · exact State.front_setDramSector _ _ _ _
        · rfl
      · rfl
    · split
      · split
        · exact State.front_setDramSector _ _ _ _
        · rfl
      · rfl
  · split
    · split
      · exact State.front_setDramSector _ _ _ _
      · rfl
    · rfl

@[simp] theorem State.front_putLine (s : State) (h : Nat) (l : SLine) : (s.putLine h l).front = s.front := by
  unfold State.putLine
  dsimp only
  split
  · rfl
  · split
    · rfl
    · split
      · exact (State.front_dropLine _ _ _).trans (State.front_writeBack _ _)
      · rfl

@[simp] theorem State.front_bumpRegion (s : State) (t : Tlb) (ea : Nat) : (s.bumpRegion t ea).front = s.front := by
  unfold State.bumpRegion
  dsimp only
  rw [apply_ite State.front, apply_ite State.front, State.front_foldl (fun s h => s.modHome h _) (fun _ _ => rfl), ite_self, ite_self]

@[simp] theorem State.front_wakeNow (s : State) (h : Nat) : (s.wakeNow h).front = s.front := by
  unfold State.wakeNow
  split <;> rfl

@[simp] theorem State.front_addTlb (s : State) (h : Nat) (t : Tlb) : (s.addTlb h t).front = s.front := State.front_orEntry _ _ _

theorem State.front_translate {s u : State} {h sp ea : Nat} {n : Need} {t : Tlb} (ht : s.translate h sp ea n = .ok (t, u)) :
    u.front = s.front := by
  revert ht
  unfold State.translate
  induction State.walk using of_forall with | all walk =>
  dsimp only
  split
  · split
    · rintro ⟨⟩
      exact s.front_wakeNow h
    · exact nofun
  · split
    · exact nofun
    · split
      · rintro ⟨⟩
        exact (State.front_addTlb _ _ _).trans (s.front_wakeNow h)
      · exact nofun

@[simp] theorem State.front_rdSlice (s : State) (h : Nat) (t : Tlb) (ea n : Nat) : (s.rdSlice h t ea n).2.2.front = s.front := by
  unfold State.rdSlice
  split
  · rfl
  · exact State.front_putLine _ _ _

@[simp] theorem State.front_wrSlice (s : State) (h : Nat) (t : Tlb) (ea : Nat) (d : List Byte) (m : List Bool) (w : Option Nat) :
    (s.wrSlice h t ea d m w).front = s.front := by
  unfold State.wrSlice
  dsimp only
  split
  · refine (State.front_orEntry _ _ _).trans ?_
    exact State.front_bumpRegion _ _ _
  · split
    · rw [State.front_pokeDram, State.front_orEntry]
      exact State.front_bumpRegion _ _ _
    · rw [State.front_putLine, State.front_recall, State.front_orEntry]
      exact State.front_bumpRegion _ _ _

theorem State.front_rdVirtual {s u : State} {sp ea fuel n : Nat} {l : List Byte} {b : Bool} (h : s.rdVirtual sp ea fuel n = .ok (l, b, u)) :
    u.front = s.front := by
  induction fuel generalizing s ea n l b with
  | zero => cases h; rfl
  | succ fuel ih =>
    unfold State.rdVirtual at h
    dsimp only at h
    split at h
    · cases h; rfl
    · split at h
      · cases h
      · next ht =>
        split at h
        · cases h
        · next hrest =>
          cases h
          exact (ih hrest).trans ((State.front_rdSlice _ _ _ _ _).trans (State.front_translate ht))

theorem State.front_wrVirtual {s u : State} {sp ea fuel : Nat} {l : List Byte} (h : s.wrVirtual sp ea fuel l = .ok u) :
    u.front = s.front := by
  induction fuel generalizing s ea l with
  | zero => cases h; rfl
  | succ fuel ih =>
    unfold State.wrVirtual at h
    dsimp only at h
    split at h
    · cases h; rfl
    · split at h
      · cases h
      · next ht => exact (ih h).trans ((State.front_wrSlice _ _ _ _ _ _ _).trans (State.front_translate ht))

theorem State.front_rdStore {s u : State} {sp ten ea n : Nat} {l : List Byte} (h : s.rdStore sp ten ea n = some (l, u)) :
    u.front = s.front := by
  unfold State.rdStore at h
  split at h
  · obtain ⟨off, -, he⟩ := Option.map_eq_some_iff.1 h
    cases he
    rfl
  · split at h
    · cases h
    · split at h
      · next hr =>
        cases h
        exact State.front_rdVirtual hr
      · cases h

theorem State.front_wrStore {s u : State} {sp ten ea : Nat} {l : List Byte} (h : s.wrStore sp ten ea l = some u) : u.front = s.front := by
  unfold State.wrStore at h
  split at h
  · obtain ⟨off, -, he⟩ := Option.map_eq_some_iff.1 h
    rw [← he]
    exact State.front_wrReflex _ _ _ _
  · split at h
    · cases h
    · split at h
      · next hw =>
        cases h
        exact State.front_wrVirtual hw
      · cases h

@[simp] theorem State.front_pokeLine (s : State) (sp ten ea : Nat) (l : List Byte) : (s.pokeLine sp ten ea l).front = s.front := by
  unfold State.pokeLine
  cases h : s.wrStore sp ten ea l with
  | none => rfl
  | some u => exact State.front_wrStore h

@[simp] theorem State.front_retire (s : State) (h : Nat) (q : Queue) : (s.retire h q).front = s.front := by
  unfold State.retire
  dsimp only
  split
  · rfl
  · exact State.front_pokeLine _ _ _ _ _

theorem State.front_roomQueue {s u : State} {h : Nat} (hr : s.roomQueue h = some u) : u.front = s.front := by
  unfold State.roomQueue at hr
  dsimp only at hr
  split at hr
  · cases hr; rfl
  · split at hr
    · cases hr
      exact State.front_retire _ _ _
    · cases hr

@[simp] theorem State.front_insertQueue (s : State) (h : Nat) (q : Queue) : (s.insertQueue h q).front = s.front := rfl

/-! ### What is said to the other module -/

/-- At the front end `t` differs from `s` at most in what has been said to the other module and in the mirror's last number. -/
def OnlySaid (s t : State) : Prop := ∃ l n, t.front = { s.front with peerOut := l, mirrorSeq := n }

namespace OnlySaid

variable {s t u : State}

theorem of_front (h : t.front = s.front) : OnlySaid s t := ⟨_, _, h⟩

theorem trans (h : OnlySaid s t) (h' : OnlySaid t u) : OnlySaid s u := by
  obtain ⟨l, n, ht⟩ := h
  obtain ⟨l', n', hu⟩ := h'
  exact ⟨l', n', by rw [hu, ht]⟩

theorem foldl {α : Type} {f : State → α → State} (h : ∀ s a, OnlySaid s (f s a)) (l : List α) (s : State) : OnlySaid s (l.foldl f s) := by
  induction l generalizing s with
  | nil => exact of_front rfl
  | cons a l ih => exact (h s a).trans (ih _)

theorem sayPeer (s : State) (m : PeerMsg) : OnlySaid s (s.sayPeer m) := ⟨_, _, rfl⟩

theorem mirrorOut (s : State) (m : Mirror) : OnlySaid s (s.mirrorOut m) := by
  unfold State.mirrorOut
  split
  · exact of_front rfl
  · exact ⟨_, _, rfl⟩

theorem mirrorWhole (s : State) (h : Nat) (q : Queue) : OnlySaid s (s.mirrorWhole h q) := by
  unfold State.mirrorWhole
  split
  · exact of_front rfl
  · split
    · next hr => exact (of_front (State.front_rdStore hr)).trans (mirrorOut _ _)
    · exact of_front rfl

theorem lendDue (s : State) (q : Queue) : OnlySaid s (s.lendDue q).2 := by
  unfold State.lendDue
  generalize (if s.front.linkUp then q.lending else 0) = n
  dsimp only
  split
  · exact of_front rfl
  · exact sayPeer _ _

theorem lendAll (s : State) : OnlySaid s s.lendAll := by
  refine foldl (fun s h => foldl (fun s q => ?_) _ _) _ _
  split
  · exact lendDue s q
  · exact of_front rfl

theorem mirrorAll (s : State) : OnlySaid s s.mirrorAll := by
  refine (foldl (fun s h => foldl (fun s q => mirrorWhole s h.1 q) _ _) s.homes s).trans
    ((foldl (fun s l => ?_) _ _).trans (foldl (fun s r => ?_) _ _))
  · split
    · split
      · exact mirrorOut _ _
      · exact of_front rfl
    · exact of_front rfl
  · split
    · exact mirrorOut _ _
    · exact of_front rfl


end OnlySaid

/-! ### Queues that become active here (R408) -/

/-- The state that a stopped operation on a queue leaves, where it leaves one. -/
def QStop.state? : QStop → Option State
  | .poisoned t => some t
  | .corrupt t => some t
  | .table => none

/-- The state that an activation leaves, whether it has stopped or not. -/
def activated : Except QStop (Queue × State) → Option State
  | .ok r => some r.2
  | .error e => e.state?

namespace OnlySaid

variable {s t u : State}

/-- An activation says at most what it lends and mirrors. -/
theorem activate {h qcb sp : Nat} (ha : activated (s.activate h qcb sp) = some t) : OnlySaid s t := by
  revert ha
  unfold State.activate
  dsimp only
  split
  · split
    · rintro ⟨⟩
      exact of_front rfl
    · split
      · rintro ⟨⟩
        exact of_front rfl
      · rintro ⟨⟩
        exact of_front rfl
  · split
    · rintro ⟨⟩
      exact of_front rfl
    · next hr =>
      have hread := State.front_rdStore hr
      split
      · rintro ⟨⟩
        exact of_front hread
      · split
        · exact nofun
        · next hroom =>
          have hfront := (State.front_roomQueue hroom).trans hread
          split
          · rintro ⟨⟩
            exact (of_front hfront).trans ((lendDue _ _).trans ((of_front (State.front_insertQueue _ _ _)).trans (mirrorWhole _ _ _)))
          · rintro ⟨⟩
            exact of_front ((State.front_insertQueue _ _ _).trans ((State.front_pokeLine _ _ _ _ _).trans hfront))

theorem activateMirrored (s : State) : OnlySaid (s.modFront fun f => { f with mirrored := [] }) s.activateMirrored := by
  unfold State.activateMirrored
  refine foldl (fun s q => ?_) _ _
  generalize hq : s.activate q.1 q.2.1 q.2.2 = r
  split
  · exact activate (congrArg activated hq)
  · exact activate (congrArg activated hq)
  · exact activate (congrArg activated hq)
  · exact of_front rfl

end OnlySaid

/-- What remains of the standing of a module in the pair. -/
def Front.standing (f : Front) : Bool × Bool × Nat × Nat := (f.active, f.spare, f.epoch, f.beatMisses)

theorem OnlySaid.standing {s t : State} (h : OnlySaid s t) : t.front.standing = s.front.standing := by
  obtain ⟨l, n, ht⟩ := h
  rw [ht]
  rfl

theorem State.standing_foldl {α : Type} {f : State → α → State} (h : ∀ s a, (f s a).front.standing = s.front.standing) (l : List α) (s : State) :
    (l.foldl f s).front.standing = s.front.standing := by
  induction l generalizing s with
  | nil => rfl
  | cons a l ih => exact (ih _).trans (h s a)

@[simp] theorem State.standing_gapCheck (s : State) (t0 e : Nat) (r : Reflex) : (s.gapCheck t0 e r).front.standing = s.front.standing := by
  unfold State.gapCheck
  split
  · rfl
  · split <;> rfl

@[simp] theorem State.standing_raiseMsi (s : State) (e : Nat) : (s.raiseMsi e).front.standing = s.front.standing := by
  unfold State.raiseMsi
  rw [State.modFront_front]
  split <;> rfl

theorem State.standing_gapChecks (s : State) (t0 : Nat) (l : Map Reflex) :
    (l.foldl (fun s r => s.gapCheck t0 r.1 r.2) s).front.standing = s.front.standing :=
  State.standing_foldl (fun s r => s.standing_gapCheck t0 r.1 r.2) l s

/-- The spare takes over with the next epoch (R408). -/
theorem State.standing_takeOver (s : State) : s.takeOver.front.standing = (true, false, s.front.epoch + 1, s.front.beatMisses) := by
  unfold State.takeOver
  dsimp only
  show (State.raiseMsi _ _).front.standing = _
  rw [State.standing_raiseMsi, State.standing_gapChecks, (OnlySaid.activateMirrored _).standing]
  rfl

theorem heartbeatMiss_takesOver {s : State} (ha : Awake s) (hspare : s.front.spare = true) :
    Next (exec .heartbeatMiss (On s .heartbeatMiss)) fun t => t.front.beatMisses = s.front.beatMisses + 1 ∧
      (s.front.beatMisses = 2 → t.front.epoch = s.front.epoch + 1 ∧ t.front.active = true ∧ t.front.spare = false) := by
  set v := (On s .heartbeatMiss).modFront fun f => { f with beatMisses := f.beatMisses + 1 } with hv
  have hexec : exec .heartbeatMiss (On s .heartbeatMiss) = .next (if s.front.beatMisses + 1 = 3 then v.takeOver else v) := by
    show execHeartbeatMiss (On s .heartbeatMiss) = _
    simp only [execHeartbeatMiss, orWait_of_awake ha, hspare, Bool.not_true, Bool.false_eq_true, if_false]
    rfl
  refine ⟨_, hexec, ?_⟩
  split
  · next h3 =>
    have hstanding := v.standing_takeOver
    simp only [Front.standing, Prod.mk.injEq] at hstanding
    obtain ⟨hactive, hspare', hepoch, hmisses⟩ := hstanding
    exact ⟨hmisses, fun _ => ⟨hepoch, hactive, hspare'⟩⟩
  · next h3 => exact ⟨rfl, fun h2 => absurd (congrArg (· + 1) h2) h3⟩

end Sys2Proof.Machine
end

section
/-! SUPPORT. The pair of modules (R404-R409) and the debugger (R235, R236). -/

namespace Sys2Proof.Machine

open Sys2Proof.Claims

/-! ### Events that are posted one by one -/

theorem State.now_foldl_post {α : Type} (n : Nat) (g : α → Event) (l : List α) (s : State) : (l.foldl (fun s a => s.post n (g a)) s).now = s.now := by
  induction l generalizing s with
  | nil => rfl
  | cons a l ih => exact ih _

theorem comes_foldl_post {α : Type} {n m : Nat} {g : α → Event} {e : Event} {l : List α} {s : State} (h : Comes s m e) :
    Comes (l.foldl (fun s a => s.post n (g a)) s) m e := by
  induction l generalizing s with
  | nil => exact h
  | cons a l ih => exact ih (comes_post_of_comes h)

theorem comes_foldl_post_mem {α : Type} {n : Nat} {g : α → Event} {l : List α} {a : α} {s : State} (h : a ∈ l) :
    Comes (l.foldl (fun s a => s.post n (g a)) s) (s.now + n) (g a) := by
  induction l generalizing s with
  | nil => cases h
  | cons b l ih =>
    rcases List.mem_cons.1 h with rfl | h
    · exact comes_foldl_post (s := s.post n (g _)) (State.comes_post _ _ _)
    · exact ih h

theorem State.front_foldl_post {α : Type} (n : Nat) (g : α → Event) (l : List α) (s : State) :
    (l.foldl (fun s a => s.post n (g a)) s).front = s.front :=
  State.front_foldl (fun s a => s.post n (g a)) (fun _ _ => rfl) l s

/-! ### Who is active (R404, R409) -/

theorem State.becomeActive_stands (s : State) : let f := s.becomeActive.front
    f.linkUp = s.front.linkUp ∧ f.peerLease = s.front.peerLease ∧ f.active = true ∧ f.spare = false := by
  obtain ⟨l, n, h⟩ := OnlySaid.mirrorAll ((s.modFront fun f => { f with
    active := true, spare := false, isolated := false, mirroring := true, mirrorSeq := 0, ackMisses := 0, ackDue := false }).unpost
    fun e => e == .heartbeatMiss)
  have hfront : s.becomeActive.front = _ := h
  dsimp only
  rw [hfront]
  exact ⟨rfl, rfl, rfl, rfl⟩

theorem State.becomeSpare_stands (s : State) : let f := s.becomeSpare.front
    f.linkUp = s.front.linkUp ∧ f.peerLease = s.front.peerLease ∧ f.active = false ∧ f.spare = true ∧ ∀ r ∈ f.reflex, r.2.shadow = true := by
  unfold State.becomeSpare
  dsimp only
  rw [State.front_foldl_post]
  refine ⟨rfl, rfl, rfl, rfl, fun r hr => ?_⟩
  obtain ⟨x, -, rfl⟩ := List.mem_map.1 hr
  rfl

theorem OnlySaid.stands {s t : State} (h : OnlySaid s t) : t.front.linkUp = s.front.linkUp ∧ t.front.peerLease = s.front.peerLease ∧
    t.front.active = s.front.active ∧ t.front.spare = s.front.spare ∧ t.front.reflex = s.front.reflex := by
  obtain ⟨l, n, ht⟩ := h
  rw [ht]
  exact ⟨rfl, rfl, rfl, rfl, rfl⟩

theorem xegarLinkUp_decides {s : State} (n role epoch : Nat) (ha : Awake s) :
    Next (exec .xegarLinkUp (On s (.xegarLinkUp true n role epoch))) fun t => t.front.linkUp = true ∧ t.front.peerLease = n ∧
      (epoch < s.front.epoch → t.front.active = true ∧ t.front.spare = false) ∧
      (s.front.epoch < epoch → t.front.active = false ∧ t.front.spare = true ∧ ∀ r ∈ t.front.reflex, r.2.shadow = true) := by
  set v := ((On s (.xegarLinkUp true n role epoch)).modFront fun f => { f with linkUp := true, peerLease := n }).sayPeer
    (.linkUp s.front.lease (if s.front.pins.peerRole then 1 else 0) s.front.epoch) with hv
  have hexec : exec .xegarLinkUp (On s (.xegarLinkUp true n role epoch)) = .next
      (if epoch < s.front.epoch || (epoch == s.front.epoch && s.front.pins.peerRole) then v.becomeActive else v.becomeSpare).lendAll :=
    orWait_of_awake ha _ _
  refine ⟨_, hexec, ?_⟩
  split
  · next hlower =>
    obtain ⟨hlink, hlease, hactive, hspare, -⟩ := (OnlySaid.lendAll v.becomeActive).stands
    obtain ⟨hlink', hlease', hactive', hspare'⟩ := v.becomeActive_stands
    refine ⟨hlink.trans hlink', hlease.trans hlease', fun _ => ⟨hactive.trans hactive', hspare.trans hspare'⟩, fun hhigher => ?_⟩
    have := Nat.lt_asymm hhigher
    simp [this, Nat.ne_of_gt hhigher] at hlower
  · next hnot =>
    obtain ⟨hlink, hlease, hactive, hspare, hreflex⟩ := (OnlySaid.lendAll v.becomeSpare).stands
    obtain ⟨hlink', hlease', hactive', hspare', hshadow⟩ := v.becomeSpare_stands
    refine ⟨hlink.trans hlink', hlease.trans hlease', fun hlower => ?_, fun _ => ⟨hactive.trans hactive', hspare.trans hspare', ?_⟩⟩
    · exact absurd (by simp [hlower]) hnot
    · rw [hreflex]
      exact hshadow

theorem xegarLinkUp_down {s : State} (n role epoch : Nat) (ha : Awake s) :
    Next (exec .xegarLinkUp (On s (.xegarLinkUp false n role epoch))) fun t => t.front.linkUp = false ∧ Comes t s.now .peerUnreachable :=
  ⟨_, orWait_of_awake ha _ _, rfl, State.comes_post _ _ _⟩

/-! ### Heartbeats (R407-R409) -/

theorem heartbeatSend_sends {s : State} (hactive : s.front.active = true) (hup : s.front.linkUp = true) :
    Next (exec .heartbeatSend (On s .heartbeatSend)) fun t =>
      t.front.peerOut = s.front.peerOut ++ [.heartbeat (s.front.beatSeq + 1) s.front.epoch s.meridianNow s.front.mirrorSeq] ∧
      t.front.beatSeq = s.front.beatSeq + 1 ∧ t.front.ackDue = s.front.mirroring ∧ Comes t (s.now + 10000) .heartbeatAckMiss ∧
      Comes t (s.now + ((s.meridianNow / 100000 + 1) * 100000 - s.meridianNow)) .heartbeatSend := by
  set v := (((On s .heartbeatSend).sayPeer (.heartbeat (s.front.beatSeq + 1) s.front.epoch s.meridianNow s.front.mirrorSeq)).modFront
    fun f => { f with beatSeq := s.front.beatSeq + 1, ackDue := f.mirroring }).post 10000 .heartbeatAckMiss with hv
  have hexec : exec .heartbeatSend (On s .heartbeatSend) = .next v.nextBeat := by
    show execHeartbeatSend (On s .heartbeatSend) = _
    simp only [execHeartbeatSend, hactive, hup, Bool.not_true, Bool.false_eq_true, if_false, if_true]
    rfl
  have hack : Comes (v.unpost fun e => e == .heartbeatSend) (s.now + 10000) .heartbeatAckMiss :=
    List.mem_filter.2 ⟨State.comes_post _ _ _, rfl⟩
  exact ⟨_, hexec, rfl, rfl, rfl, comes_post_of_comes hack, State.comes_post _ _ _⟩

theorem heartbeatReceive_acknowledges {s : State} {n last : Nat} (time : Nat) (hspare : s.front.spare = true)
    (hbeat : ∀ b, s.front.lastBeat = some b → b.1 < n) (hlast : last ≤ s.front.mirrorSeq) :
    Next (exec .heartbeatReceive (On s (.heartbeatReceive n s.front.epoch time last true))) fun t =>
      t.front.lastBeat = some (n, s.meridianNow) ∧ t.front.beatMisses = 0 ∧ t.front.peerOut = s.front.peerOut ++ [.heartbeatAck n] := by
  have hexec : exec .heartbeatReceive (On s (.heartbeatReceive n s.front.epoch time last true)) = .next
      ((((On s (.heartbeatReceive n s.front.epoch time last true)).modFront fun f =>
        { f with lastBeat := some (n, s.meridianNow), beatMisses := 0 }).expectBeats s.meridianNow).sayPeer (.heartbeatAck n)) := by
    show execHeartbeatReceive (On s (.heartbeatReceive n s.front.epoch time last true)) = _
    have hmirror : last ≤ (((On s (.heartbeatReceive n s.front.epoch time last true)).modFront fun f =>
        { f with lastBeat := some (n, s.meridianNow), beatMisses := 0 }).expectBeats s.meridianNow).front.mirrorSeq := hlast
    cases hb : s.front.lastBeat with
    | none =>
      simp only [execHeartbeatReceive, Nat.lt_irrefl, decide_false, Bool.false_and, Bool.false_eq_true, if_false, hspare, hb,
        Bool.not_true, Bool.or_self]
      exact congrArg Host.Outcome.next (if_pos hmirror)
    | some b =>
      have hlater := hbeat b hb
      simp only [execHeartbeatReceive, Nat.lt_irrefl, decide_false, Bool.false_and, Bool.false_eq_true, if_false, hspare, hb, hlater,
        decide_true, Bool.not_true, Bool.or_self]
      exact congrArg Host.Outcome.next (if_pos hmirror)
  exact ⟨_, hexec, rfl, rfl, rfl⟩

theorem heartbeatAcknowledgement_clears (s : State) :
    Next (exec .heartbeatAcknowledgement (On s (.heartbeatAcknowledgement s.front.beatSeq))) fun t =>
      t.front.ackDue = false ∧ t.front.ackMisses = 0 := by
  refine ⟨_, congrArg Host.Outcome.next (if_pos ?_), ?_, ?_⟩
  all_goals rfl

/-- What waits for the spare is released, and the rest goes on waiting (R405). -/
theorem State.front_releaseMirrored (s : State) (upTo : Option Nat) : ∃ l h r, (s.releaseMirrored upTo).front =
    { s.front with mirrorWait := l, hostHeld := h, hostRead := r } :=
  ⟨_, _, _, State.front_foldl_post _ _ _ _⟩

theorem State.front_raiseMsi (s : State) (e : Nat) : ∃ l, (s.raiseMsi e).front = { s.front with raised := l } := by
  unfold State.raiseMsi
  rw [State.modFront_front]
  split
  · exact ⟨_, rfl⟩
  · exact ⟨_, rfl⟩

theorem heartbeatAckMiss_counts {s : State} (hactive : s.front.active = true) (hdue : s.front.ackDue = true) :
    Next (exec .heartbeatAckMiss (On s .heartbeatAckMiss)) fun t => t.front.ackMisses = s.front.ackMisses + 1 ∧ t.front.ackDue = false ∧
      (s.front.ackMisses = 2 → t.front.isolated = true) := by
  set v := (On s .heartbeatAckMiss).modFront fun f => { f with ackDue := false, ackMisses := f.ackMisses + 1 } with hv
  set x := v.modFront fun f => { f with isolated := true, mirroring := false } with hx
  have hexec : exec .heartbeatAckMiss (On s .heartbeatAckMiss) = .next
      (if s.front.ackMisses + 1 = 3 then (x.releaseMirrored none).raiseMsi msiIsolated else v) := by
    show execHeartbeatAckMiss (On s .heartbeatAckMiss) = _
    simp only [execHeartbeatAckMiss, hactive, hdue, Bool.not_true, Bool.or_self, Bool.false_eq_true, if_false]
    rfl
  refine ⟨_, hexec, ?_⟩
  split
  · obtain ⟨r, hraise⟩ := (x.releaseMirrored none).front_raiseMsi msiIsolated
    obtain ⟨l, h, d, hrelease⟩ := x.front_releaseMirrored none
    rw [hraise, hrelease]
    exact ⟨rfl, rfl, fun _ => rfl⟩
  · next h3 => exact ⟨rfl, rfl, fun h2 => absurd (congrArg (· + 1) h2) h3⟩

theorem mirrorAcknowledgement_releases (s : State) (n : Nat) :
    Next (exec .mirrorAcknowledgement (On s (.mirrorAcknowledgement n))) fun t => (∀ e ∈ t.front.mirrorWait, n < e.1) ∧
      ∀ e ∈ s.front.mirrorWait, e.1 ≤ n → Comes t (s.now + 2) e.2 := by
  refine ⟨(On s (.mirrorAcknowledgement n)).releaseMirrored (some n), rfl, ?_, fun e he hle => ?_⟩
  · unfold State.releaseMirrored
    dsimp only
    rw [State.front_foldl_post]
    intro e he
    simpa using (List.mem_filter.1 he).2
  · unfold State.releaseMirrored
    dsimp only
    exact comes_foldl_post_mem (g := fun e : Nat × Event => e.2) (List.mem_filter.2 ⟨he, by simpa using hle⟩)

/-! ### A mirrored publication (R405) -/

theorem mirrorUpdate_publishes {s : State} {n epoch k v time : Nat} {d : List Byte} {l : LxmSlot} {b : Nat} (ha : Awake s)
    (hspare : s.front.spare = true) (hepoch : s.front.epoch ≤ epoch) (hl : mget s.lxm k = some l) (hb : l.forMirror = some b)
    (hlast : l.last ≤ v) :
    Next (exec .mirrorUpdate (On s (.mirrorUpdate n epoch (.publication k v time d)))) fun t => t.front.mirrorSeq = max s.front.mirrorSeq n ∧
      ∃ m, mget t.lxm k = some m ∧ m.latest = some b ∧ m.last = v ∧ (m.buffer b).version = v ∧ (m.buffer b).time = time ∧
        (m.buffer b).data = wrBlock [] 0 d ∧ (m.buffer b).epoch = epoch := by
  set x : Buffer := { version := v, time := time, complete := true, epoch := epoch, data := wrBlock [] 0 d } with hx
  set u := (On s (.mirrorUpdate n epoch (.publication k v time d))).modFront fun f => { f with mirrorSeq := max f.mirrorSeq n } with hu
  have hl' : mget u.lxm k = some l := hl
  have hexec : exec .mirrorUpdate (On s (.mirrorUpdate n epoch (.publication k v time d))) = .next
      (u.modSlot k fun l => { l with buffers := mset l.buffers b x, last := v, latest := some b }) := by
    show execMirrorUpdate (On s (.mirrorUpdate n epoch (.publication k v time d))) = _
    simp only [execMirrorUpdate, orWait_of_awake ha, hspare, Nat.not_lt.2 hepoch, Bool.not_true, decide_false, Bool.or_self,
      Bool.false_eq_true, if_false]
    rw [← hu]
    simp only [State.mirrorPublish, hl', hb, Nat.not_lt.2 hlast, decide_false, Bool.false_and, Bool.false_eq_true, if_false]
    rfl
  refine ⟨_, hexec, rfl, { l with buffers := mset l.buffers b x, last := v, latest := some b }, ?_, rfl, rfl, ?_⟩
  · show mget (mmod s.lxm k _) k = _
    rw [mget_mmod, if_pos rfl, hl]
    rfl
  · have hbuffer : ({ l with buffers := mset l.buffers b x, last := v, latest := some b } : LxmSlot).buffer b = x := by
      simp [LxmSlot.buffer, mget_mset_same]
    rw [hbuffer]
    exact ⟨rfl, rfl, rfl, rfl⟩

/-! ### The debugger (R235, R236) -/

/-- A change of one core, as any core is read after it. -/
theorem State.core_modCore (s : State) (d : Nat) (f : Core → Core) (c : Nat) : (s.modCore d f).core c = if c = d then f (s.core c) else s.core c := by
  split
  · next h =>
    rw [h]
    exact State.core_modCore_same s d f
  · next h => exact State.core_modCore_other s f h

/-- A core is among those that its own halt stops, each of them once. -/
theorem mem_haltedCores {c : Nat} (h : isCore c = true) : c ∈ haltedCores c := by
  unfold haltedCores
  split
  · next h62 =>
    have hno : coreNo c ≤ 1 := by simpa [isCore, h62] using h
    simp only [clusterOf, coreNo] at h62 hno
    simp only [coreId, List.mem_cons, List.not_mem_nil, or_false]
    omega
  · exact List.mem_singleton_self c

theorem nodup_haltedCores (c : Nat) : (haltedCores c).Nodup := by
  unfold haltedCores
  split
  · decide
  · exact List.nodup_singleton c

theorem State.core_foldl_modCore (f : Core → Core) {l : List Nat} (hl : l.Nodup) (s : State) (c : Nat) :
    (l.foldl (fun s c => s.modCore c f) s).core c = if c ∈ l then f (s.core c) else s.core c := by
  induction l generalizing s with
  | nil => simp
  | cons d l ih =>
    obtain ⟨hd, hl⟩ := List.nodup_cons.1 hl
    rw [List.foldl_cons, ih hl, State.core_modCore]
    by_cases hc : c = d
    · subst hc
      simp [hd]
    · simp [hc]

theorem debugHalt_halts {s : State} {c : Nat} (hc : isCore c = true) : Next (exec .debugHalt (On s (.debugHalt c))) fun t =>
    (t.core c).halted = true ∧ (t.core c).stepSlot = none ∧ (t.core c).banks = (s.core c).banks ∧ (t.core c).tcm = (s.core c).tcm := by
  refine ⟨_, rfl, ?_⟩
  dsimp only
  rw [State.core_foldl_modCore _ (nodup_haltedCores c), if_pos (mem_haltedCores hc)]
  exact ⟨rfl, rfl, rfl, rfl⟩

/-- What RESUME changes of a core that it resumes, and what it leaves. -/
def Core.debugView (k : Core) : Bool × Bool × Map Thread := (k.halted, k.quiesce, k.banks)

theorem State.debugView_setLate (s : State) (d c : Nat) : ((s.setLate d).core c).debugView = (s.core c).debugView := by
  unfold State.setLate
  generalize (s.core d).banks = l
  induction l generalizing s with
  | nil => rfl
  | cons b l ih =>
    refine (ih _).trans ?_
    dsimp only
    split
    · rw [State.core_modCore]
      split <;> rfl
    · rfl

theorem State.cores_resumeEngine (s : State) (c : Nat) : (s.resumeEngine c).cores = s.cores := by
  have hcopies (l : Map Copy) (s : State) : (l.foldl (fun s y =>
      if y.2.state = 0 && !y.2.busy then s.post 2 (.copySectorReply c y.1) else s) s).cores = s.cores := by
    induction l generalizing s with
    | nil => rfl
    | cons y l ih =>
      refine (ih _).trans ?_
      dsimp only
      split <;> rfl
  unfold State.resumeEngine
  dsimp only
  split
  · exact hcopies _ _
  · exact hcopies _ _

theorem State.debugView_endHalt (s : State) (d c : Nat) : ((s.endHalt d).core c).debugView =
    if c = d then (false, (s.core c).quiesce, (s.core c).banks) else (s.core c).debugView := by
  unfold State.endHalt
  dsimp only
  rw [State.core_congr (State.cores_resumeEngine _ _), apply_ite (fun t : State => (t.core c).debugView), State.debugView_setLate, ite_self,
    State.core_modCore]
  split <;> rfl

theorem State.debugView_foldl_endHalt {l : List Nat} (s : State) {c : Nat} (h : c ∈ l ∨ (s.core c).halted = false) :
    ((l.foldl State.endHalt s).core c).debugView = (false, (s.core c).quiesce, (s.core c).banks) := by
  induction l generalizing s with
  | nil =>
    have hhalted := h.resolve_left List.not_mem_nil
    exact congrArg (fun b => (b, (s.core c).quiesce, (s.core c).banks)) hhalted
  | cons d l ih =>
    have hview := s.debugView_endHalt d c
    split at hview
    · obtain ⟨hhalted, hquiesce, hbanks⟩ : _ ∧ _ ∧ _ := by simpa only [Core.debugView, Prod.mk.injEq] using hview
      rw [List.foldl_cons, ih _ (.inr hhalted), hquiesce, hbanks]
    · next hne =>
      obtain ⟨hhalted, hquiesce, hbanks⟩ : _ ∧ _ ∧ _ := by simpa only [Core.debugView, Prod.mk.injEq] using hview
      rw [List.foldl_cons, ih, hquiesce, hbanks]
      rcases h with h | h
      · exact .inl ((List.mem_cons.1 h).resolve_left hne)
      · exact .inr (hhalted.trans h)

theorem debugResume_resumes {s : State} {c : Nat} (hc : isCore c = true) : Next (exec .debugResume (On s (.debugResume c))) fun t =>
    (t.core c).halted = false ∧ (t.core c).quiesce = false ∧ (t.core c).banks = (s.core c).banks := by
  refine ⟨(On s (.debugResume c)).debugResume c, rfl, ?_⟩
  have hview := State.debugView_foldl_endHalt ((On s (.debugResume c)).modCore c fun k => { k with quiesce := false })
    (.inl (mem_haltedCores hc))
  rw [State.core_modCore_same] at hview
  simp only [Core.debugView, Prod.mk.injEq] at hview
  exact hview

theorem debugStep_steps {s : State} {c n : Nat} {u : Thread} (hhalted : (s.core c).halted = true)
    (hu : mget (s.core c).banks ((s.core c).bankOfSlot n) = some u) (hready : u.st = .ready) :
    Next (exec .debugStep (On s (.debugStep c n))) fun t => (t.core c).stepSlot = some n ∧ (t.core c).halted = true := by
  have hexec : exec .debugStep (On s (.debugStep c n)) = .next ((On s (.debugStep c n)).modCore c fun k => { k with stepSlot := some n }) := by
    have hhalted' : ((On s (.debugStep c n)).core c).halted = true := hhalted
    have hu' : mget ((On s (.debugStep c n)).core c).banks (((On s (.debugStep c n)).core c).bankOfSlot n) = some u := hu
    show execDebugStep (On s (.debugStep c n)) = _
    simp only [execDebugStep, hhalted', hu', hready, beq_self_eq_true, Bool.and_self, if_true]
  refine ⟨_, hexec, ?_⟩
  dsimp only
  rw [State.core_modCore_same]
  exact ⟨rfl, hhalted⟩

theorem debugQuiesce_asks (s : State) (c : Nat) : Next (exec .debugQuiesce (On s (.debugQuiesce c))) fun t =>
    (t.core c).quiesce = true ∧ (t.core c).halted = (s.core c).halted := by
  refine ⟨_, rfl, ?_⟩
  dsimp only
  rw [State.core_modCore_same]
  exact ⟨rfl, rfl⟩

/-- In `t`, the status word of core `c` of `s` is on its way to mailbox `mb` of core `r` (R235). -/
def StatusComes (s : State) (c r mb : Nat) (t : State) : Prop := ∃ m : Msg, m.dst = r ∧ m.mb = mb ∧
  m.body = BitVec.ofNat 256 (ofBytes (toBytes 32 ((s.core c).debugStatus s.now))) ∧
  Comes t ((if isCore c then max s.now (s.core c).egress else s.now) + 2 * (6 + 2 * hops (clusterOf c) (clusterOf r))) (.mailboxArrival m)

theorem debugReply_comes (s : State) (c mb : Nat) {r : Nat} (hr : isCore r = true) : StatusComes s c r mb (s.debugReply c r mb) := by
  refine ⟨⟨c, r, mb, _, .firmware, ⟨0, 0⟩, 0, 5⟩, rfl, rfl, rfl, ?_⟩
  unfold State.debugReply State.mailFrom
  simp only [hr, Bool.not_true, Bool.false_eq_true, if_false]
  split
  · exact comes_emit s c 1 _ _
  · exact State.comes_post s _ _

theorem State.pads_debugReply (s : State) (c r mb : Nat) : (s.debugReply c r mb).pads = s.pads := by
  unfold State.debugReply State.mailFrom
  dsimp only
  split
  · rfl
  · split <;> rfl

theorem debugStatus_replies (s : State) (c mb : Nat) {r : Nat} (hr : isCore r = true) :
    Next (exec .debugStatus (On s (.debugStatus c r mb))) (StatusComes s c r mb) :=
  ⟨_, rfl, debugReply_comes (On s (.debugStatus c r mb)) c mb hr⟩

/-- The scratchpad of a core's cluster as DUMP leaves it (R235). -/
def State.dumped (s : State) (c off : Nat) : State :=
  let img := contextHead (s.core c) 0 fun t => ((s.ticketOf t.who).map (·.2)).getD 0
  if isFront c || 0x200000 < off + img.length then s
  else s.setPad (clusterOf c) { s.pad (clusterOf c) with bytes := wrBlock (s.pad (clusterOf c)).bytes off img }

theorem debugDump_dumps {s : State} {c : Nat} (off r mb : Nat) (hhalted : (s.core c).halted = true) (hword : (s.core c).inWord = false)
    (hbusy : s.padBusy (clusterOf c) = false) :
    exec .debugDump (On s (.debugDump c off r mb)) = .next (((On s (.debugDump c off r mb)).dumped c off).debugReply c r mb) := by
  have hhalted' : ((On s (.debugDump c off r mb)).core c).halted = true := hhalted
  have hword' : ((On s (.debugDump c off r mb)).core c).inWord = false := hword
  have hbusy' : (On s (.debugDump c off r mb)).padBusy (clusterOf c) = false := hbusy
  show execDebugDump (On s (.debugDump c off r mb)) = _
  simp only [execDebugDump, hhalted', hword', hbusy', Bool.not_true, Bool.or_self, Bool.false_eq_true, if_false]
  rfl

theorem debugDump_replies {s : State} {c r : Nat} (off mb : Nat) (hr : isCore r = true) (hhalted : (s.core c).halted = true)
    (hword : (s.core c).inWord = false) (hbusy : s.padBusy (clusterOf c) = false) :
    Next (exec .debugDump (On s (.debugDump c off r mb))) (StatusComes s c r mb) := by
  refine ⟨_, debugDump_dumps off r mb hhalted hword hbusy, ?_⟩
  have hreply := debugReply_comes ((On s (.debugDump c off r mb)).dumped c off) c mb hr
  unfold State.dumped at hreply ⊢
  dsimp only at hreply ⊢
  split at hreply
  · next h =>
    rw [if_pos h]
    exact hreply
  · next h =>
    rw [if_neg h]
    exact hreply

theorem debugDump_writes {s : State} {c : Nat} (off r mb : Nat) (hhalted : (s.core c).halted = true)
    (hword : (s.core c).inWord = false) (hbusy : s.padBusy (clusterOf c) = false) (hfront : isFront c = false) :
    let img := contextHead (s.core c) 0 fun t => ((s.ticketOf t.who).map (·.2)).getD 0
    off + img.length ≤ 0x200000 → Next (exec .debugDump (On s (.debugDump c off r mb))) fun t =>
      (t.pad (clusterOf c)).bytes = wrBlock (s.pad (clusterOf c)).bytes off img := by
  intro img hfits
  refine ⟨_, debugDump_dumps off r mb hhalted hword hbusy, ?_⟩
  have hpads (u : State) : (u.debugReply c r mb).pad (clusterOf c) = u.pad (clusterOf c) :=
    congrArg (fun m : Map Sram => (mget m (clusterOf c)).getD {}) (u.pads_debugReply c r mb)
  have hwrites : ¬ (isFront c || decide (0x200000 < off + img.length)) = true := by simpa [hfront] using hfits
  dsimp only
  rw [hpads]
  refine (congrArg (fun u : State => (u.pad (clusterOf c)).bytes) (if_neg hwrites)).trans ?_
  exact congrArg Sram.bytes (State.pad_setPad_same _ _ _)

end Sys2Proof.Machine
end

section
/-! PROOF. Debug, boot, update, recovery, power, reset, time and heartbeat events take effect (O54). -/

namespace Sys2Proof.Proofs

open Sys2Proof.Machine Sys2Proof.Claims

/-- Settles O54, event by event: each lemma above says what one of the events does. -/
theorem firmwareEventsTakeEffect : Obligations.FirmwareEventsTakeEffect := by
  intro s p c n
  refine ⟨⟨boot_released, boot_tested, boot_chooses, boot_verified, boot_loads⟩, fun i hc hcore hfree => decodeTableLoad_loads n i hc hcore hfree,
    fun l v => update_stages, fun u ha hu => ⟨updateCommit_commits ha hu, fun k => updateRevert_reverts ha hu⟩,
    fun hboot => ⟨fun ha => recovery_restarts ha hboot, firmwareCheckpoint_writes hboot⟩, recoveryEnd_ends, counterSnapshot_adds s,
    powerCapCheck_throttles s, thermAlert_caps s, thermAlertClear_restores s, perstN_resets s, moduleReset_resets s,
    (moduleReset_ends s).1, (moduleReset_ends s).2, ptmSynchronisation_slews s n,
    fun role epoch ha => ⟨xegarLinkUp_decides n role epoch ha, xegarLinkUp_down n role epoch ha⟩, heartbeatSend_sends,
    fun time last => heartbeatReceive_acknowledges time, heartbeatMiss_takesOver, heartbeatAckMiss_counts,
    heartbeatAcknowledgement_clears s, mirrorAcknowledgement_releases s n, fun epoch k v time d l b => mirrorUpdate_publishes,
    debugHalt_halts, debugResume_resumes, fun u => debugStep_steps, debugQuiesce_asks s c, fun r mb off hr => ?_⟩
  refine ⟨debugStatus_replies s c mb hr, fun hhalted hword hbusy => ⟨debugDump_replies off mb hr hhalted hword hbusy, ?_⟩⟩
  rintro img rfl hfront hfits
  exact debugDump_writes off r mb hhalted hword hbusy hfront hfits

end Sys2Proof.Proofs
end

section
/-! SUPPORT. The canonical form of every memory (notes/assumptions/3.md) through the shared operations of the state: which changes leave the
memories alone, and what a map of cores, contexts or scratchpads holds after a change. -/

namespace Sys2Proof.Claims

open Sys2Proof.Machine

-- One proof at a time, here and in the parts below: where a hypothesis is supplied by its default tactic, a proof waits for all that stand
-- before it, and each proof that waits holds a thread with its stack.
set_option Elab.async false

/-- What holds of a function's body holds of the function: the kernel then compares the two as functions and evaluates neither. -/
theorem of_body {α : Sort*} {P : α → Prop} {f body : α} (h : f = body) (hbody : P body) : P f := h ▸ hbody

/-! ### What an answer carries -/

/-- Whatever an optional value is, `P` holds of it. -/
def InSome {α : Type} (P : α → Prop) (o : Option α) : Prop := ∀ a, o = some a → P a

/-- Whatever comes out without an error, `P` holds of it. -/
def InOk {ε α : Type} (P : α → Prop) (o : Except ε α) : Prop := ∀ a, o = .ok a → P a

/-- The state that a word comes to is canonical. -/
def CanonicalRes : Res → Prop
  | .ok t => Canonical t
  | .jump t _ => Canonical t
  | .trap _ _ _ => True
  | .wait t => Canonical t

/-- So is the next state of a step. -/
def CanonicalOut (o : Out) : Prop := ∀ t, o = .next t → Canonical t

/-- A core, and the scratchpad that its undo log lies in. -/
def CanonicalPair (k : Core × Sram) : Prop := CanonicalCore k.1 ∧ Memory.wf k.2.bytes = true

/-- Whatever comes out of memory that is reached, the state is canonical. -/
def CanonicalReached {α : Type} (r : Reached α) : Prop := ∀ x t, r = .got x t → Canonical t

/-- What an operation on a queue leaves where it stops. -/
structure CanonicalQStop (e : QStop) : Prop where
  poisoned : ∀ t, e = .poisoned t → Canonical t
  corrupt : ∀ t, e = .corrupt t → Canonical t

/-- What an operation on a queue leaves, whether it stops or not. -/
structure InQueue {α : Type} (P : α → Prop) (r : Except QStop α) : Prop where
  ok : ∀ a, r = .ok a → P a
  error : ∀ e, r = .error e → CanonicalQStop e

/-- So with a pool. -/
structure InPool {α : Type} (P : α → Prop) (r : Except PStop α) : Prop where
  ok : ∀ a, r = .ok a → P a
  corrupt : ∀ t, r = .error (.corrupt t) → Canonical t

/-- What the admission of a gang leaves. -/
def CanonicalAdmit (r : Admit) : Prop := ∀ t, r = .placed t → Canonical t

/-- What serving the head of a vector queue leaves. -/
structure CanonicalServed (r : Served) : Prop where
  started : ∀ t e, r = .started t e → Canonical t
  done : ∀ t, r = .done t → Canonical t

theorem CanonicalPair.core {k : Core × Sram} (hk : CanonicalPair k) : CanonicalCore k.1 := hk.1

theorem CanonicalPair.log {k : Core × Sram} (hk : CanonicalPair k) : Memory.wf k.2.bytes = true := hk.2

section
variable {ε α β : Type} {P : α → Prop}

theorem InSome.none : InSome P none := fun _ h => nomatch h

theorem InSome.some {a : α} (h : P a) : InSome P (some a) := fun _ he => Option.some.inj he ▸ h

theorem InSome.getD {o : Option α} {d : α} (h : InSome P o) (hd : P d) : P (o.getD d) := by
  cases o with
  | none => exact hd
  | some a => exact h a rfl

theorem InSome.map {Q : β → Prop} {o : Option α} {f : α → β} (h : InSome P o) (hf : ∀ {a}, P a → Q (f a)) : InSome Q (o.map f) := by
  cases o with
  | none => exact .none
  | some a => exact .some (hf (h a rfl))

theorem InSome.mapAll {Q : β → Prop} {o : Option α} {f : α → β} (hf : ∀ {a}, Q (f a)) : InSome Q (o.map f) := by
  cases o with
  | none => exact .none
  | some a => exact .some hf

theorem InSome.bind {Q : β → Prop} {o : Option α} {f : α → Option β} (h : InSome P o) (hf : ∀ {a}, P a → InSome Q (f a)) :
    InSome Q (o.bind f) := by
  cases o with
  | none => exact .none
  | some a => exact hf (h a rfl)

theorem InSome.findSome {l : List α} {f : α → Option β} {P : β → Prop} (hf : ∀ {a}, InSome P (f a)) : InSome P (l.findSome? f) := by
  intro b hb
  obtain ⟨a, -, ha⟩ := List.exists_of_findSome?_eq_some hb
  exact hf b ha

theorem InOk.ok {a : α} (h : P a) : InOk P (.ok a : Except ε α) := fun _ he => Except.ok.inj he ▸ h

theorem InSome.ite {c : Prop} [Decidable c] {a b : Option α} (ha : InSome P a) (hb : InSome P b) : InSome P (if c then a else b) := by
  split
  · exact ha
  · exact hb

theorem InOk.ite {c : Prop} [Decidable c] {a b : Except ε α} (ha : InOk P a) (hb : InOk P b) : InOk P (if c then a else b) := by
  split
  · exact ha
  · exact hb

theorem InOk.error {e : ε} : InOk P (.error e) := fun _ h => nomatch h

theorem InQueue.ok' {a : α} (h : P a) : InQueue P (.ok a) := ⟨fun _ he => Except.ok.inj he ▸ h, fun _ h => nomatch h⟩

theorem InQueue.table : InQueue P (.error .table) :=
  ⟨fun _ h => (nomatch h), fun _ h => Except.error.inj h ▸ ⟨fun _ h => (nomatch h), fun _ h => nomatch h⟩⟩

theorem InQueue.error' {e : QStop} (h : CanonicalQStop e) : InQueue P (.error e) := ⟨fun _ h => (nomatch h), fun _ he => Except.error.inj he ▸ h⟩

theorem InQueue.corrupt {t : State} (h : Canonical t) : InQueue P (.error (.corrupt t)) :=
  .error' ⟨fun _ h => (nomatch h), fun _ he => QStop.corrupt.inj he ▸ h⟩

theorem InQueue.poisoned {t : State} (h : Canonical t) : InQueue P (.error (.poisoned t)) :=
  .error' ⟨fun _ he => QStop.poisoned.inj he ▸ h, fun _ h => (nomatch h)⟩

theorem InQueue.ite {c : Prop} [Decidable c] {a b : Except QStop α} (ha : InQueue P a) (hb : InQueue P b) : InQueue P (if c then a else b) := by
  split
  · exact ha
  · exact hb

theorem InPool.ok' {a : α} (h : P a) : InPool P (.ok a) := ⟨fun _ he => Except.ok.inj he ▸ h, fun _ h => nomatch h⟩

theorem InPool.stopped {t : State} (h : Canonical t) : InPool P (.error (.corrupt t)) :=
  ⟨fun _ h => (nomatch h), fun _ he => PStop.corrupt.inj (Except.error.inj he) ▸ h⟩

theorem InPool.ite {c : Prop} [Decidable c] {a b : Except PStop α} (ha : InPool P a) (hb : InPool P b) : InPool P (if c then a else b) := by
  split
  · exact ha
  · exact hb

/-- What holds of all that a map lists holds of the entry of a key, and after each of the map's changes. -/
theorem inSome_mget {m : Map α} {k : Nat} (h : ∀ e ∈ m, P e.2) : InSome P (mget m k) := by
  intro a ha
  obtain ⟨e, he, rfl⟩ := Option.map_eq_some_iff.1 ha
  exact h e (List.mem_of_find?_eq_some he)

theorem forall_mset {m : Map α} {k : Nat} {v : α} (h : ∀ e ∈ m, P e.2) (hv : P v) : ∀ e ∈ mset m k v, P e.2 := by
  intro e he
  rcases mem_mset he with rfl | ⟨hm, -⟩
  · exact hv
  · exact h e hm

theorem forall_mmod {m : Map α} {k : Nat} {f : α → α} (h : ∀ e ∈ m, P e.2) (hf : ∀ v, P v → P (f v)) : ∀ e ∈ mmod m k f, P e.2 :=
  forall_mem_mmod k h hf

theorem forall_filter {m : Map α} {p : Nat × α → Bool} (h : ∀ e ∈ m, P e.2) : ∀ e ∈ m.filter p, P e.2 :=
  fun e he => h e (List.mem_of_mem_filter he)

theorem forall_mdel {m : Map α} {k : Nat} (h : ∀ e ∈ m, P e.2) : ∀ e ∈ mdel m k, P e.2 := forall_filter h

theorem forall_map {m : Map α} {f : Nat × α → Nat × α} (h : ∀ e ∈ m, P e.2) (hf : ∀ e, P e.2 → P (f e).2) : ∀ e ∈ m.map f, P e.2 := by
  intro e he
  obtain ⟨x, hx, rfl⟩ := List.mem_map.1 he
  exact hf x (h x hx)

end

/-! ### Memories -/

theorem wf_ite {c : Prop} [Decidable c] {a b : Mem} (ha : Memory.wf a = true) (hb : Memory.wf b = true) :
    Memory.wf (if c then a else b) = true := by
  split
  · exact ha
  · exact hb

theorem wf_foldl {α : Type} {l : List α} {f : Mem → α → Mem} {m : Mem} (h : Memory.wf m = true)
    (hf : ∀ {m a}, Memory.wf m = true → Memory.wf (f m a) = true) : Memory.wf (l.foldl f m) = true := by
  induction l generalizing m with
  | nil => exact h
  | cons a l ih => exact ih (hf h)

theorem CanonicalReached.got {α : Type} {x : α} {t : State} (h : Canonical t) : CanonicalReached (.got x t) :=
  fun _ _ he => (Reached.got.inj he).2 ▸ h

theorem CanonicalReached.refused {α : Type} : CanonicalReached (.refused : Reached α) := fun _ _ h => nomatch h

theorem CanonicalReached.unreadable {α : Type} : CanonicalReached (.unreadable : Reached α) := fun _ _ h => nomatch h

theorem CanonicalReached.ite {α : Type} {c : Prop} [Decidable c] {a b : Reached α} (ha : CanonicalReached a) (hb : CanonicalReached b) :
    CanonicalReached (if c then a else b) := by
  split
  · exact ha
  · exact hb

theorem CanonicalAdmit.placed {t : State} (h : Canonical t) : CanonicalAdmit (.placed t) := fun _ he => Admit.placed.inj he ▸ h

theorem CanonicalAdmit.waits : CanonicalAdmit .waits := fun _ h => nomatch h

theorem CanonicalAdmit.held : CanonicalAdmit .held := fun _ h => nomatch h

theorem CanonicalAdmit.ite {c : Prop} [Decidable c] {a b : Admit} (ha : CanonicalAdmit a) (hb : CanonicalAdmit b) :
    CanonicalAdmit (if c then a else b) := by
  split
  · exact ha
  · exact hb

theorem CanonicalServed.no : CanonicalServed .no := ⟨fun _ _ h => (nomatch h), fun _ h => nomatch h⟩

theorem CanonicalServed.ofStarted {t : State} {e : SeqEntry} (h : Canonical t) : CanonicalServed (.started t e) :=
  ⟨fun _ _ he => (Served.started.inj he).1 ▸ h, fun _ h => nomatch h⟩

theorem CanonicalServed.ofDone {t : State} (h : Canonical t) : CanonicalServed (.done t) :=
  ⟨fun _ _ h => (nomatch h), fun _ he => Served.done.inj he ▸ h⟩

theorem CanonicalServed.ite {c : Prop} [Decidable c] {a b : Served} (ha : CanonicalServed a) (hb : CanonicalServed b) :
    CanonicalServed (if c then a else b) := by
  split
  · exact ha
  · exact hb

theorem CanonicalRes.ite {c : Prop} [Decidable c] {a b : Res} (ha : CanonicalRes a) (hb : CanonicalRes b) : CanonicalRes (if c then a else b) := by
  split
  · exact ha
  · exact hb

theorem CanonicalOut.ite {c : Prop} [Decidable c] {a b : Out} (ha : CanonicalOut a) (hb : CanonicalOut b) : CanonicalOut (if c then a else b) := by
  split
  · exact ha
  · exact hb

theorem CanonicalRes.ok {s : State} (h : Canonical s) : CanonicalRes (.ok s) := h
theorem CanonicalRes.jump {s : State} {a : IAddr} (h : Canonical s) : CanonicalRes (.jump s a) := h
theorem CanonicalRes.wait {s : State} (h : Canonical s) : CanonicalRes (.wait s) := h
theorem CanonicalRes.trap {c : Nat} {v : Word} {e : Option IAddr} : CanonicalRes (.trap c v e) := trivial
theorem CanonicalRes.trapR {c : Nat} {v : Word} : CanonicalRes (trapR c v) := trivial
theorem CanonicalRes.trapOpen {s : State} {c : Nat} : CanonicalRes (s.trapOpen c) := trivial

theorem CanonicalOut.next {s : State} (h : Canonical s) : CanonicalOut (.next s) := fun _ ht => Host.Outcome.next.inj ht ▸ h

theorem CanonicalCore.tcm {k : Core} (h : CanonicalCore k) : Memory.wf k.tcm.bytes = true := h.1

theorem CanonicalCore.tiles {k : Core} (h : CanonicalCore k) : Memory.wf k.tiles = true := h.2

theorem CanonicalCore.ite {c : Prop} [Decidable c] {a b : Core} (ha : CanonicalCore a) (hb : CanonicalCore b) :
    CanonicalCore (if c then a else b) := by
  split
  · exact ha
  · exact hb

/-- A core keeps the form when its TCM and its tiles are left alone. -/
theorem CanonicalCore.same {k l : Core} (h : CanonicalCore k) (he : (l.tcm.bytes, l.tiles) = (k.tcm.bytes, k.tiles) := by rfl) :
    CanonicalCore l := by
  obtain ⟨htcm, htiles⟩ := Prod.mk.inj he
  exact ⟨htcm ▸ h.tcm, htiles ▸ h.tiles⟩

theorem CanonicalCore.tcmBytes {k : Core} {m : Mem} (hk : CanonicalCore k) (hm : Memory.wf m = true) :
    CanonicalCore { k with tcm := { k.tcm with bytes := m } } := ⟨hm, hk.tiles⟩

/-- A core that holds nothing. -/
theorem CanonicalCore.empty : CanonicalCore {} := ⟨rfl, rfl⟩

/-! ### Changes that leave the memories alone -/

/-- All that the canonical form speaks of: every memory of the module, with the cores and contexts that hold some. -/
def memories (s : State) : Mem × Mem × Map Sram × Mem × Mem × Map Core × Map Context :=
  (s.dram, s.reflexStore.bytes, s.pads, s.co.tcm.bytes, s.co.tiles, s.cores, s.contexts)

namespace Canonical

variable {s t : State}

theorem sameMem (h : Canonical s) (he : memories t = memories s := by rfl) : Canonical t := by
  simp only [memories, Prod.mk.injEq] at he
  obtain ⟨hdram, hstore, hpads, htcm, htiles, hcores, hcontexts⟩ := he
  exact ⟨hdram ▸ h.dram, hstore ▸ h.store, hpads ▸ h.pads, ⟨htcm ▸ h.issuing.tcm, htiles ▸ h.issuing.tiles⟩, hcores ▸ h.cores,
    hcontexts ▸ h.contexts⟩

/-- The form is kept where it is kept memory by memory; a memory that is not named is left alone. -/
theorem replace (h : Canonical s) (dram : Memory.wf s.dram = true → Memory.wf t.dram = true := by exact fun h => h)
    (store : Memory.wf s.reflexStore.bytes = true → Memory.wf t.reflexStore.bytes = true := by exact fun h => h)
    (pads : (∀ p ∈ s.pads, Memory.wf p.2.bytes = true) → ∀ p ∈ t.pads, Memory.wf p.2.bytes = true := by exact fun h => h)
    (issuing : CanonicalCore s.co → CanonicalCore t.co := by exact fun h => h)
    (cores : (∀ c ∈ s.cores, CanonicalCore c.2) → ∀ c ∈ t.cores, CanonicalCore c.2 := by exact fun h => h)
    (contexts : (∀ x ∈ s.contexts, CanonicalCore x.2.core) → ∀ x ∈ t.contexts, CanonicalCore x.2.core := by exact fun h => h) : Canonical t :=
  ⟨dram h.dram, store h.store, pads h.pads, issuing h.issuing, cores h.cores, contexts h.contexts⟩

/-! ### Changes of the maps -/

theorem homes {m : Map Home} (h : Canonical s) : Canonical { s with homes := m } := h.sameMem

theorem setContext {i : Nat} {x : Context} (h : Canonical s) (hx : CanonicalCore x.core) : Canonical { s with contexts := mset s.contexts i x } :=
  h.replace (contexts := fun h => forall_mset (P := fun x : Context => CanonicalCore x.core) h hx)

theorem delContext {i : Nat} (h : Canonical s) : Canonical { s with contexts := mdel s.contexts i } :=
  h.replace (contexts := fun h => forall_mdel (P := fun x : Context => CanonicalCore x.core) h)

theorem mapCoresOnly {f : Nat × Core → Nat × Core} (h : Canonical s) (hf : ∀ e, CanonicalCore e.2 → CanonicalCore (f e).2) :
    Canonical { s with cores := s.cores.map f } :=
  h.replace (cores := fun h => forall_map h hf)

/-! ### Reading a core, a context or a scratchpad -/

theorem core {c : Nat} (h : Canonical s) : CanonicalCore (s.core c) := (inSome_mget h.cores).getD .empty

theorem pad {cl : Nat} (h : Canonical s) : Memory.wf (s.pad cl).bytes = true :=
  InSome.getD (P := fun m : Sram => Memory.wf m.bytes = true) (inSome_mget h.pads) rfl

theorem context {i : Nat} (h : Canonical s) : InSome (fun x : Context => CanonicalCore x.core) (mget s.contexts i) := inSome_mget h.contexts

theorem ite {c : Prop} [Decidable c] {a b : State} (ha : Canonical a) (hb : Canonical b) : Canonical (if c then a else b) := by
  split
  · exact ha
  · exact hb

/-- The state of a pair that is made. -/
theorem snd {α : Type} {a : α} (h : Canonical t) : Canonical (a, t).2 := h

theorem fst {α : Type} {a : α} (h : Canonical t) : Canonical (t, a).1 := h

theorem third {α β : Type} {a : α} {b : β} (h : Canonical t) : Canonical (a, b, t).2.2 := h

/-- The state of a pair that is taken apart. -/
theorem ofFst {α : Type} {p : State × α} {a : α} (h : Canonical p.1) (he : p = (t, a)) : Canonical t := by
  rw [he] at h
  exact h

theorem elim {α : Type} {o : Option α} {f : α → State} (h : Canonical s) (hf : ∀ {a}, Canonical (f a)) : Canonical (o.elim s f) := by
  cases o with
  | none => exact h
  | some a => exact hf

theorem foldlFst {α β : Type} {l : List α} {f : State × β → α → State × β} {r : State × β} (h : Canonical r.1)
    (hf : ∀ {r a}, Canonical r.1 → Canonical (f r a).1) : Canonical (l.foldl f r).1 := by
  induction l generalizing r with
  | nil => exact h
  | cons a l ih => exact ih (hf h)

theorem foldl {α : Type} {l : List α} {f : State → α → State} (h : Canonical s) (hf : ∀ {s a}, Canonical s → Canonical (f s a)) :
    Canonical (l.foldl f s) := by
  induction l generalizing s with
  | nil => exact h
  | cons a l ih => exact ih (hf h)

end Canonical

end Sys2Proof.Claims
end

section
/-! SUPPORT. The canonical form of every memory through registers, cores and threads, error counters, how a word ends, and requests that wait for a
reply. -/

namespace Sys2Proof.Claims

open Sys2Proof.Machine

set_option Elab.async false

variable {s : State}

/-! ### Registers (R65, R72) -/

theorem Canonical.setX {r : BitVec 5} {w : Word} (hs : Canonical s) : Canonical (s.setX r w) :=
  hs.sameMem

theorem Canonical.setP {p : Nat} {b : Bool} (hs : Canonical s) : Canonical (s.setP p b) :=
  hs.sameMem

/-! ### Cores, places and hops (R10, R13, R14, R76) -/

theorem Canonical.setCore {c : Nat} {k : Core} (hs : Canonical s) (hk : CanonicalCore k) : Canonical (s.setCore c k) :=
  hs.replace (cores := fun h => forall_mset h hk)

theorem Canonical.modCore {c : Nat} {f : Core → Core} (hs : Canonical s) (hf : ∀ {k : Core}, CanonicalCore k → CanonicalCore (f k)) :
    Canonical (s.modCore c f) :=
  hs.setCore (hf hs.core)

theorem Canonical.store' (hs : Canonical s) : Canonical s.store :=
  hs.setCore hs.issuing.same

theorem Canonical.reload (hs : Canonical s) : Canonical s.reload :=
  hs.replace (issuing := fun _ => hs.core)

theorem Canonical.onModule {f : State → State} (hs : Canonical s) (hf : ∀ {t : State}, Canonical t → Canonical (f t)) : Canonical (s.onModule f) :=
  (hf hs.store').reload

theorem Canonical.enter {c b : Nat} (hs : Canonical s) : Canonical (s.enter c b) :=
  hs.replace (issuing := fun _ => hs.core)

theorem Canonical.setPad {cl : Nat} {m : Sram} (hs : Canonical s) (hm : Memory.wf m.bytes = true) : Canonical (s.setPad cl m) :=
  hs.replace (pads := fun h => forall_mset (P := fun m : Sram => Memory.wf m.bytes = true) h hm)

theorem Canonical.setHome {h : Nat} {x : Home} (hs : Canonical s) : Canonical (s.setHome h x) :=
  hs.sameMem

theorem Canonical.modHome {h : Nat} {f : Home → Home} (hs : Canonical s) : Canonical (s.modHome h f) :=
  hs.setHome

theorem Canonical.modFront {f : Front → Front} (hs : Canonical s) : Canonical (s.modFront f) :=
  hs.sameMem

theorem Canonical.modProg {p : Nat} {f : Prog → Prog} (hs : Canonical s) : Canonical (s.modProg p f) :=
  hs.modFront

theorem Canonical.modRun {p : Nat} {f : Run → Run} (hs : Canonical s) : Canonical (s.modRun p f) :=
  hs.modProg

/-! ### Time and events -/

theorem Canonical.post {delay : Nat} {e : Event} (hs : Canonical s) : Canonical (s.post delay e) :=
  hs.sameMem

theorem Canonical.postAt {t : Nat} {e : Event} (hs : Canonical s) : Canonical (s.postAt t e) :=
  hs.post

theorem Canonical.unpost {f : Event → Bool} (hs : Canonical s) : Canonical (s.unpost f) :=
  hs.sameMem

theorem Canonical.fresh (hs : Canonical s) : Canonical s.fresh.2 :=
  hs.sameMem

theorem Canonical.drawn (hs : Canonical s) : Canonical s.drawn.2 :=
  hs.sameMem

theorem Canonical.dramTime (hs : Canonical s) : Canonical s.dramTime.2 :=
  hs.sameMem

theorem CanonicalCore.enterEgress {k : Core} {now f : Nat} (hk : CanonicalCore k) : CanonicalCore (k.enterEgress now f).2 :=
  hk.same

theorem Canonical.emit {c f delay : Nat} {e : Event} (hs : Canonical s) : Canonical (s.emit c f delay e) :=
  (hs.setCore hs.core.enterEgress).post

theorem Canonical.emitOwn {f delay : Nat} {e : Event} (hs : Canonical s) : Canonical (s.emitOwn f delay e) :=
  hs.sameMem.post

/-! ### Error counters (R403, R413) -/

theorem Canonical.count {unit ctr : Nat} (hs : Canonical s) : Canonical (s.count unit ctr) :=
  hs.sameMem

theorem Canonical.countHost (hs : Canonical s) : Canonical s.countHost :=
  hs.sameMem

/-! ### Threads wherever they are (R43, R74) -/

theorem CanonicalCore.modBank {k : Core} {b : Nat} {f : Thread → Thread} (hk : CanonicalCore k) : CanonicalCore (k.modBank b f) :=
  hk.same

theorem Canonical.modThread {w : Who} {f : Thread → Thread} (hs : Canonical s) : Canonical (s.modThread w f) := by
  unfold State.modThread
  split
  · exact hs.modCore fun hk => hk.modBank
  · exact hs.replace (contexts := fun h => forall_mmod (P := fun x : Context => CanonicalCore x.core) h fun x hx => hx.modBank)
  · exact hs.sameMem
  · exact hs

theorem Canonical.modCoreOf {w : Who} {f : Core → Core} (hs : Canonical s)
    (hf : ∀ {k}, CanonicalCore k → CanonicalCore (f k)) : Canonical (s.modCoreOf w f) := by
  unfold State.modCoreOf
  split
  · exact hs.modCore hf
  · exact hs.replace (contexts := fun h => forall_mmod (P := fun x : Context => CanonicalCore x.core) h fun x hx => hf hx)
  · exact hs

theorem Canonical.answer1 {w : Who} {id : Nat} {r : Reply} (hs : Canonical s) : Canonical (s.answer1 w id r) :=
  hs.modThread

theorem Canonical.answer {w : Who} {id : Nat} {r : Reply} (hs : Canonical s) : Canonical (s.answer w id r) := by
  unfold State.answer
  dsimp only
  split
  · split
    · split
      · exact hs.answer1.sameMem.answer1
      · exact hs.answer1.sameMem
    · exact hs.answer1
  · exact hs.answer1

/-! ### How a word ends -/

theorem Canonical.advance (hs : Canonical s) : Canonical s.advance :=
  .ite hs.sameMem hs.sameMem

theorem Canonical.endProgram {prog cause : Nat} {tval : Word} (hs : Canonical s) : Canonical (s.endProgram prog cause tval) :=
  hs.modProg.post

theorem Canonical.resendOf {c : Nat} {k : Core} (hs : Canonical s) : Canonical (s.resendOf c k) := by
  unfold State.resendOf
  refine .foldl (hs.foldl (fun ht => .ite ht.post ht)) (fun ht => ?_)
  split
  · exact ht.post
  · exact ht

theorem Canonical.resendFaults {cl : Nat} (hs : Canonical s) : Canonical (s.resendFaults cl) :=
  (hs.foldl (fun ht => .ite ht.resendOf ht)).foldl (fun ht => .ite ht.resendOf ht)

theorem CanonicalCore.afterCrash {k : Core} {record : List Byte} : CanonicalCore (k.afterCrash record) :=
  ⟨Memory.wf_wrBytes _ _ _ rfl, rfl⟩

theorem Canonical.thirdLevel {cause : Nat} {tval : Word} {word : IAddr} (hs : Canonical s) :
    Canonical (s.thirdLevel cause tval word) := by
  have hcrashed : CanonicalCore (s.co.afterCrash (crashRecord s cause tval word)) := .afterCrash
  unfold State.thirdLevel
  refine .ite (.post (.modCore (.post (hs.replace (issuing := fun _ => hcrashed.same))) fun _ => ⟨rfl, rfl⟩)) (.ite (.resendFaults ?_) ?_)
  · exact .post (.post (hs.replace (issuing := fun _ => hcrashed.same)))
  · exact .post (.post (hs.replace (issuing := fun _ => hcrashed.same)))

theorem Canonical.nestedLimit {cause : Nat} {tval : Word} {word : IAddr} (hs : Canonical s) : Canonical (s.nestedLimit cause tval word) :=
  .ite hs.endProgram hs.thirdLevel

theorem Canonical.takeTrap {cause : Nat} {tval : Word} {epc word : IAddr} (hs : Canonical s) : Canonical (s.takeTrap cause tval epc word) := by
  unfold State.takeTrap
  dsimp only
  split
  · exact hs.sameMem.nestedLimit
  · exact .ite hs.sameMem.nestedLimit hs.sameMem

theorem Canonical.finish {x : Res} (hs : Canonical s) (hx : CanonicalRes x) : CanonicalOut (Machine.finish s x) := by
  unfold Machine.finish
  split
  · exact .next hx.advance
  · exact .next hx.sameMem
  · exact .next hs.sameMem.takeTrap
  · exact .next hx.sameMem

theorem Canonical.leaveTrap {b : Nat} (hs : Canonical s) : Canonical (s.leaveTrap b) :=
  hs.sameMem

/-! ### Compared requests of a pair (R395) -/

theorem Canonical.markReplay {prog : Nat} (hs : Canonical s) : Canonical (s.markReplay prog) :=
  hs.modRun

theorem Canonical.sendFor {core : Nat} {t : Thread} {number id delay : Nat} {e : Event} {what : List Byte} (hs : Canonical s) :
    Canonical (s.sendFor core t number id delay e what) := by
  unfold State.sendFor
  split
  · exact hs.post
  · exact hs.sameMem.post.post

theorem Canonical.sendReq {id delay : Nat} {e : Event} {what : List Byte} (hs : Canonical s) : Canonical (s.sendReq id delay e what) :=
  hs.sameMem.sendFor

/-! ### Words that wait for a reply -/

theorem Canonical.ask {send : Nat → State → State} {k : Reply → State → Res} (hs : Canonical s)
    (hsend : ∀ {n : Nat} {t : State}, Canonical t → Canonical (send n t)) (hk : ∀ {r : Reply} {t : State}, Canonical t → CanonicalRes (k r t)) :
      CanonicalRes (Machine.ask s send k) := by
  unfold Machine.ask
  split
  · exact .wait (hsend hs.sameMem)
  · exact .wait hs
  · split
    · exact .trapR
    · exact hk hs.sameMem

theorem Canonical.block {w : Wait} (hs : Canonical s) : Canonical (s.block w) :=
  .ite hs.sameMem.post hs.sameMem

theorem Canonical.dropPending (hs : Canonical s) : Canonical s.dropPending :=
  hs.sameMem

theorem Canonical.blockWord' {w : Wait} (hs : Canonical s) : Canonical (s.blockWord w) :=
  hs.sameMem.block

end Sys2Proof.Claims
end

section
/-! SUPPORT. The canonical form of every memory through windows and places, DRAM and its keys, page tables, the lines of a slice, forwarding entries
and messages. -/

namespace Sys2Proof.Claims

open Sys2Proof.Machine

set_option Elab.async false

variable {s : State}

/-! ### Scratch memories with poison (R393) -/

theorem wf_write {m : Sram} {a : Nat} {data : List Byte} {mask : List Bool} (hm : Memory.wf m.bytes = true) :
    Memory.wf (m.write a data mask).bytes = true :=
  Memory.wf_wrMasked _ _ _ _ hm

theorem CanonicalPair.logGranule {cid : Nat} {old : List Byte} {g : Nat} {k : Core × Sram} (hk : CanonicalPair k) :
    CanonicalPair (Machine.logGranule cid old g k) := by
  unfold Machine.logGranule
  split
  · exact hk
  · split
    · exact hk
    · split
      · exact ⟨hk.core.same, Memory.wf_wrN _ _ _ _ hk.log⟩
      · exact ⟨hk.core.same, Memory.wf_wrN _ _ _ _ (Memory.wf_wrN _ _ _ _ (Memory.wf_wrBytes _ _ _ hk.log))⟩

theorem CanonicalPair.foldl {α : Type} {l : List α} {f : Core × Sram → α → Core × Sram} {k : Core × Sram} (hk : CanonicalPair k)
    (hf : ∀ {k a}, CanonicalPair k → CanonicalPair (f k a)) : CanonicalPair (l.foldl f k) := by
  induction l generalizing k with
  | nil => exact hk
  | cons a l ih => exact ih (hf hk)

theorem CanonicalPair.tcmStore {cid a : Nat} {k : Core × Sram} {data : List Byte} {mask : List Bool} (hk : CanonicalPair k) :
    CanonicalPair (Machine.tcmStore cid k a data mask) := by
  have hlogged := hk.foldl (l := granules a data.length) (f := fun k g => Machine.logGranule cid (rdBytes k.1.tcm.bytes (256 * g) 256) g k)
    fun hk => hk.logGranule
  exact ⟨⟨Memory.wf_wrMasked _ _ _ _ hlogged.core.tcm, hlogged.core.tiles⟩, hlogged.log⟩

theorem wf_spoilUnit {m : Sram} {a : Nat} (hm : Memory.wf m.bytes = true) : Memory.wf (m.spoilUnit a).bytes = true :=
  hm

theorem CanonicalPair.tileStore {cid t a : Nat} {k : Core × Sram} {data : List Byte} (hk : CanonicalPair k) :
    CanonicalPair (Machine.tileStore cid k t a data) :=
  have hlogged := hk.logGranule (cid := cid) (old := rdBytes k.1.tiles (256 * t) 256) (g := 192 + t)
  ⟨⟨hlogged.core.tcm, Memory.wf_wrBytes _ _ _ hlogged.core.tiles⟩, hlogged.log⟩

theorem Canonical.wrOwnMasked {a : Nat} {data : List Byte} {mask : List Bool} (hs : Canonical s) :
    Canonical (s.wrOwnMasked a data mask) := by
  have hstored := CanonicalPair.tcmStore (cid := s.cid) (a := a) (data := data) (mask := mask) (k := (s.co, s.pad (clusterOf s.cid)))
    ⟨hs.issuing, hs.pad⟩
  exact .ite (.setPad (hs.replace (issuing := fun _ => hstored.core)) hstored.log) (hs.replace (issuing := fun _ => hstored.core))

theorem Canonical.wrOwn {a : Nat} {data : List Byte} (hs : Canonical s) : Canonical (s.wrOwn a data) :=
  hs.wrOwnMasked

theorem Canonical.wrTcm {c a : Nat} {data : List Byte} {mask : List Bool} (hs : Canonical s) : Canonical (s.wrTcm c a data mask) := by
  have hstored := CanonicalPair.tcmStore (cid := c) (a := a) (data := data) (mask := mask) (k := (s.core c, s.pad (clusterOf c))) ⟨hs.core, hs.pad⟩
  exact .ite (.setPad (hs.setCore hstored.core) hstored.log) (hs.setCore hstored.core)

/-! ### DRAM (R3, R426) -/

theorem Canonical.setDramSector {a key : Nat} {d : Payload} (hs : Canonical s) : Canonical (s.setDramSector a key d) :=
  .ite hs (hs.replace (dram := fun _ => Memory.wf_wrN _ _ _ _ hs.dram))

theorem Canonical.pokeDram {a key : Nat} {data : List Byte} {mask : List Bool} (hs : Canonical s) : Canonical (s.pokeDram a key data mask) :=
  hs.setDramSector.sameMem

theorem Canonical.orEntry {a v : Nat} (hs : Canonical s) : Canonical (s.orEntry a v) :=
  hs.pokeDram

/-! ### Lines of a slice (R165, R170) -/

theorem Canonical.dropL0 {sp line : Nat} {f : Nat → Bool} (hs : Canonical s) : Canonical (s.dropL0 sp line f) := by
  refine hs.replace (cores := fun h => forall_map h fun c hc => ?_)
  split
  · exact hc.same
  · exact hc

/-! ### Sets, ways and replacement (R3, R165) -/

theorem Canonical.writeBack {l : SLine} (hs : Canonical s) : Canonical (s.writeBack l) := by
  unfold State.writeBack
  dsimp only
  split
  · refine .ite (.sameMem (.setDramSector ?_)) ?_
    · split
      · exact .ite hs.setDramSector.sameMem hs
      · exact hs
    · split
      · exact .ite hs.setDramSector.sameMem hs
      · exact hs
  · split
    · exact .ite hs.setDramSector.sameMem hs
    · exact hs

theorem Canonical.recall {h : Nat} {l : SLine} (hs : Canonical s) : Canonical (s.recall h l) :=
  .ite hs (hs.dropL0.modCore (fun ht => ht.same))

theorem Canonical.dropLine {h : Nat} {l : SLine} (hs : Canonical s) : Canonical (s.dropLine h l) := by
  unfold State.dropLine
  exact hs.recall.dropL0.modHome

theorem Canonical.putLine {h : Nat} {l : SLine} (hs : Canonical s) : Canonical (s.putLine h l) := by
  unfold State.putLine
  dsimp only
  split
  · exact hs.modHome
  · refine .ite hs (.modHome ?_)
    split
    · exact hs.writeBack.dropLine
    · exact hs

theorem Canonical.rdSlice {h : Nat} {t : Tlb} {ea n : Nat} (hs : Canonical s) : Canonical (s.rdSlice h t ea n).2.2 := by
  unfold State.rdSlice
  split
  · exact hs
  · exact hs.putLine

theorem Canonical.bumpRegion {t : Tlb} {ea : Nat} (hs : Canonical s) : Canonical (s.bumpRegion t ea) :=
  .ite hs (.ite hs (hs.foldl (fun ht => ht.modHome)))

theorem Canonical.bumpReflexRegions {off n : Nat} (hs : Canonical s) : Canonical (s.bumpReflexRegions off n) :=
  hs.modHome

theorem Canonical.wrSlice {h : Nat} {t : Tlb} {ea : Nat} {data : List Byte} {mask : List Bool} {writer : Option Nat} (hs : Canonical s) :
    Canonical (s.wrSlice h t ea data mask writer) :=
  .ite hs.dropL0.bumpRegion.orEntry.modHome (.ite hs.dropL0.bumpRegion.orEntry.pokeDram hs.dropL0.bumpRegion.orEntry.recall.putLine)

theorem Canonical.cleanLine {h : Nat} {l : SLine} (hs : Canonical s) : Canonical (s.cleanLine h l) :=
  hs.writeBack.putLine

/-! ### Power of a slice (R166) -/

theorem Canonical.wakeNow {h : Nat} (hs : Canonical s) : Canonical (s.wakeNow h) :=
  .ite hs hs.modHome

theorem Canonical.awaitWake {h : Nat} {e : Event} (hs : Canonical s) : Canonical (s.awaitWake h e) :=
  .ite hs.modHome.post hs.modHome

/-! ### Translation at a home (R213, R214) -/

theorem Canonical.addTlb {h : Nat} {t : Tlb} (hs : Canonical s) : Canonical (s.addTlb h t) :=
  hs.modHome.orEntry

theorem Canonical.translate {h sp ea : Nat} {n : Need} (hs : Canonical s) : InOk (fun r => Canonical r.2) (s.translate h sp ea n) := by
  unfold State.translate
  induction State.walk using of_forall with | all walk =>
  dsimp only
  split
  · exact .ite (.ok (.snd hs.wakeNow)) .error
  · split
    · exact .error
    · exact .ite (.ok (.snd hs.wakeNow.addTlb)) .error

theorem Canonical.orWait {o : Out} (hs : Canonical s) (ho : CanonicalOut o) : CanonicalOut (s.orWait o) := by
  unfold State.orWait
  split
  · split
    · exact .next hs.awaitWake
    · exact ho
  · exact ho

theorem Canonical.rdVirtual {sp ea x x' : Nat} (hs : Canonical s) : InOk (fun r => Canonical r.2.2) (s.rdVirtual sp ea x x') := by
  induction x generalizing s sp ea x' with
  | zero => exact .ok hs
  | succ n ih =>
    unfold State.rdVirtual
    dsimp only
    refine .ite (.ok hs) ?_
    split
    · exact .error
    · next he1 =>
        split
        · exact .error
        · next he =>
            exact .ok (.third ((ih (hs.translate _ he1).rdSlice) _ he))

theorem Canonical.wrVirtual {sp ea x : Nat} {x' : List Byte} (hs : Canonical s) : InOk Canonical (s.wrVirtual sp ea x x') := by
  induction x generalizing s sp ea x' with
  | zero => exact .ok hs
  | succ n ih =>
    unfold State.wrVirtual
    dsimp only
    refine .ite (.ok hs) ?_
    split
    · exact .error
    · next he =>
        exact ih (hs.translate _ he).wrSlice

/-! ### Places: a core by its number, a context away from any core by 2^20 and its number -/

theorem Canonical.coreAt {place : Nat} (hs : Canonical s) : CanonicalCore (s.coreAt place) := by
  unfold State.coreAt
  split
  · exact InSome.getD (hs.context.map (fun ht => ht)) ⟨rfl, rfl⟩
  · exact hs.core

theorem Canonical.modCoreAt {place : Nat} {f : Core → Core} (hs : Canonical s)
    (hf : ∀ {k}, CanonicalCore k → CanonicalCore (f k)) : Canonical (s.modCoreAt place f) := by
  unfold State.modCoreAt
  split
  · exact hs.replace (contexts := fun h => forall_mmod (P := fun x : Context => CanonicalCore x.core) h fun x hx => hf hx)
  · exact hs.modCore hf

theorem Canonical.keep {e : Event} (hs : Canonical s) : Canonical (s.keep e) :=
  hs.sameMem.post

/-! ### Threads that have ended -/

theorem Canonical.modAny {w : Who} {f : Thread → Thread} (hs : Canonical s) : Canonical (s.modAny w f) := by
  unfold State.modAny
  split
  · exact hs.modCoreAt (fun ht => ht.modBank)
  · exact hs.modThread

theorem Canonical.releaseIfDrained {w : Who} (hs : Canonical s) : Canonical (s.releaseIfDrained w) := by
  unfold State.releaseIfDrained
  split
  · split
    · exact .ite hs.post hs
    · exact hs
  · exact .ite hs hs.post

theorem Canonical.acked1 {w : Who} {id : Nat} (hs : Canonical s) : Canonical (s.acked1 w id) :=
  hs.modAny.releaseIfDrained

theorem Canonical.acked {w : Who} {id : Nat} (hs : Canonical s) : Canonical (s.acked w id) := by
  unfold State.acked
  dsimp only
  split
  · split
    · exact hs.acked1.sameMem.acked1
    · exact hs.acked1.sameMem
  · exact hs.acked1.sameMem

/-! ### Messages -/

theorem Canonical.mailFrom {src dst mb : Nat} {body : List Byte} {level : Level} {prog form : Nat} (hs : Canonical s) :
    Canonical (s.mailFrom src dst mb body level prog form) :=
  .ite hs.emit hs.post

theorem Canonical.mailFault {c : Nat} {f : FaultRec} {fid : Nat} (hs : Canonical s) : Canonical (s.mailFault c f fid) :=
  hs.mailFrom

/-! ### Acknowledgements that return to both twins (R395) -/

theorem Canonical.forTwins {w : Who} {id : Nat} {f : State → Who → Nat → State} (hs : Canonical s)
    (hf : ∀ {t : State} {x : Who} {n : Nat}, Canonical t → Canonical (f t x n)) : Canonical (s.forTwins w id f) := by
  unfold State.forTwins
  dsimp only
  split
  · split
    · exact hf (hf hs).sameMem
    · exact (hf hs).sameMem
  · exact (hf hs).sameMem

end Sys2Proof.Claims
end

section
/-! SUPPORT. The canonical form of every memory through the accesses of a word, vector words, and the vector sequencer. -/

namespace Sys2Proof.Claims

open Sys2Proof.Machine

set_option Elab.async false

variable {s : State}

/-! ### What an access does to the bytes it finds -/

theorem Canonical.usePoison {core prog : Nat} {k : Kind} (hs : Canonical s) : Canonical (s.usePoison core prog k) :=
  .ite hs.count.markReplay hs.count

/-! ### Requests -/

theorem Canonical.sendAcc {id : Nat} {a : Acc} {r : Route} (hs : Canonical s) : Canonical (s.sendAcc id a r) := by
  unfold State.sendAcc
  refine .ite hs.sameMem.emitOwn ?_
  split
  · exact hs.sameMem.sendReq
  · exact hs.sameMem.sendReq
  · exact hs.sameMem.sendReq
  · exact hs.sameMem.sendReq
  · exact hs.sameMem.sendReq
  · exact hs.sameMem.emitOwn

theorem Canonical.request {sp : Nat} {op : MemOp} {n : Nat} {todo : List Nat} {r : Route} {k : Nat → State → Res} (hs : Canonical s)
    (hk : ∀ {n : Nat} {t : State}, Canonical t → CanonicalRes (k n t)) : CanonicalRes (s.request sp op n todo r k) := by
  unfold State.request
  refine .ite (.wait hs) (Canonical.ask hs (fun ht => ht.sendAcc) (fun ht => ?_))
  split
  · exact hk ht
  · exact hk ht

theorem Canonical.fire {sp : Nat} {op : MemOp} {n ea : Nat} {r : Route} (hs : Canonical s) : CanonicalRes (s.fire sp op n ea r) :=
  .ite (.wait hs) (.ok hs.fresh.sendAcc.sameMem)

/-! ### The L0 data cache (R163) -/

theorem Canonical.l0Read {l : L0Line} {ea n : Nat} (hs : Canonical s) : Canonical (s.l0Read l ea n).2 := by
  unfold State.l0Read
  split
  · exact hs.usePoison
  · exact hs

theorem Canonical.l0Store {c sp ea : Nat} {data : List Byte} {mask : List Bool} (hs : Canonical s) : Canonical (s.l0Store c sp ea data mask) := by
  unfold State.l0Store
  exact hs.modCore (fun ht => ht.same)

/-! ### Loads, stores and atomics of a word -/

theorem Canonical.atOwn {r : Route} {n : Nat} {op : MemOp} (hs : Canonical s) : Canonical (s.atOwn r n op).2 := by
  unfold State.atOwn
  split
  · extract_lets bad w u
    have hu : Canonical u := .ite hs.usePoison hs
    split
    · exact .snd hu.wrOwnMasked
    · exact .snd hu
  · extract_lets p bad w u
    have hu : Canonical u := .ite hs.usePoison hs
    split
    · exact .snd (hu.setPad (wf_write hs.pad))
    · exact .snd hu
  · exact .snd hs

theorem Canonical.logged {r : Res} (hs : Canonical s) (hr : CanonicalRes r) : CanonicalRes (s.logged r) := by
  unfold State.logged
  split
  · exact .ite (.wait hs) hr
  · exact hr

theorem Canonical.access {sp ea n : Nat} {op : MemOp} {rel : Bool} {again : Res} {k : Route → Res} (hs : Canonical s) (hagain : CanonicalRes again)
    (hk : ∀ {x : Route}, CanonicalRes (k x)) : CanonicalRes (s.access sp ea n op rel again k) := by
  unfold State.access
  refine .ite hagain ?_
  split
  · exact .trapR
  · exact .ite (.wait hs) hk

theorem Canonical.loadRes {sp ea n : Nat} {k : Nat → State → Res} (hs : Canonical s)
    (hk : ∀ {n : Nat} {t : State}, Canonical t → CanonicalRes (k n t)) : CanonicalRes (s.loadRes sp ea n k) := by
  unfold State.loadRes
  refine Canonical.access hs (hs.request hk) (fun {_} => ?_)
  split
  · exact hs.request hk
  · split
    · exact .ite (.wait hs) (hk hs.l0Read)
    · exact hs.request hk
  · exact hk hs.atOwn

theorem Canonical.storeRes {sp ea : Nat} {data : List Byte} {mask : List Bool} {rel : optParam Bool false} (hs : Canonical s) :
    CanonicalRes (s.storeRes sp ea data mask rel) := by
  unfold State.storeRes
  refine Canonical.access hs (Canonical.request hs (fun ht => .ok ht)) (fun {_} => ?_)
  split
  · exact hs.fire
  · split
    · exact .ite hs.fire (Canonical.request hs (fun ht => .ok ht))
    · exact Canonical.request hs (fun ht => .ok ht)
  · exact .ok hs.atOwn

theorem Canonical.atomicRes {sp ea n : Nat} {op : MemOp} {rel : Bool} {k : Nat → State → Res} (hs : Canonical s)
    (hk : ∀ {n : Nat} {t : State}, Canonical t → CanonicalRes (k n t)) : CanonicalRes (s.atomicRes sp ea n op rel k) := by
  unfold State.atomicRes
  refine Canonical.access hs (hs.request hk) (fun {_} => ?_)
  split
  · exact hs.request hk
  · exact hs.request hk
  · exact hk hs.atOwn

theorem Canonical.release {k : State → Res} (hs : Canonical s) (hk : ∀ {t : State}, Canonical t → CanonicalRes (k t)) :
    CanonicalRes (s.release k) :=
  .ite (.wait hs) (hk hs)

/-! ### Links (R13, R248-R250) -/

theorem Canonical.pushLink {c p prog : Nat} {v : Vec} (hs : Canonical s) : Canonical (s.pushLink c p prog v) :=
  hs.post

theorem CanonicalCore.dropLink {k : Core} {n : Nat} (hk : CanonicalCore k) : CanonicalCore (k.dropLink n) :=
  hk.same

/-! ### Serving one queued word -/

theorem Canonical.popV {c b : Nat} {old : Option (Nat × Vec)} {n : Nat} (hs : Canonical s) : Canonical (s.popV c b old n).2 := by
  unfold State.popV
  dsimp only
  split
  · split
    · exact .ite (hs.setCore hs.core.same).pushLink (hs.setCore hs.core.same)
    · exact hs
  · split
    · split
      · exact hs
      · split
        · exact (hs.setCore hs.core.modBank).post
        · exact hs
    · split
      · exact hs
      · exact hs

theorem Canonical.popAll {c b : Nat} {old : Option (Nat × Vec)} {x : List Nat} (hs : Canonical s) : Canonical (s.popAll c b old x).2 := by
  induction x generalizing s c b old with
  | nil => exact hs
  | cons a l ih =>
    unfold State.popAll
    dsimp only
    exact ih hs.popV

theorem Canonical.putV {c b n : Nat} {v : Vec} (hs : Canonical s) : Canonical (s.putV c b n v) := by
  unfold State.putV
  refine .ite hs.pushLink ?_
  split
  · exact .ite hs (hs.setCore hs.core.modBank).post
  · exact hs.setCore hs.core.modBank

theorem Canonical.raise {c b : Nat} {f : Flags} (hs : Canonical s) : Canonical (s.raise c b f) :=
  hs.modCore (fun ht => ht.modBank)

theorem Canonical.runRec {c b : Nat} {ema : Bool} {vc ctl : Word} {coef d : Vec} (hs : Canonical s) :
    Canonical (s.runRec c b ema vc ctl coef d).2.2 :=
  hs.wrTcm.wrTcm.wrTcm.raise

/-! ### Memory accesses of queued words (R191) -/

theorem Canonical.rdOwnPlaces {c b n : Nat} {x : List Nat} (hs : Canonical s) : Canonical (s.rdOwnPlaces c b n x).2 := by
  induction x generalizing s c b n with
  | nil => exact hs
  | cons a l ih =>
    unfold State.rdOwnPlaces
    dsimp only
    refine ih ?_
    split
    · split
      · split
        · exact hs.usePoison
        · exact hs
      · split
        · exact hs.usePoison
        · exact hs
      · split
        · exact hs.usePoison
        · exact hs
    · exact hs

theorem Canonical.sendSeq {c b : Nat} {e : SeqEntry} {op : MemOp} {store : Bool} (hs : Canonical s) : Canonical (s.sendSeq c b e op store).1 :=
  .ite ((hs.sameMem.modCore (fun ht => ht.modBank)).setCore (hs.sameMem.modCore (fun ht => ht.modBank)).core.enterEgress).sendFor hs.sameMem.emit

theorem Canonical.serveLoad {c : Nat} {e : SeqEntry} (hs : Canonical s) : Canonical (s.serveLoad c e).1 := by
  unfold State.serveLoad
  dsimp only
  split
  · exact hs.rdOwnPlaces
  · split
    · exact hs
    · exact hs

theorem Canonical.serveStore {c : Nat} {e : SeqEntry} {data : List Byte} {mask : List Bool} (hs : Canonical s) :
    Canonical (s.serveStore c e data mask) := by
  unfold State.serveStore
  split
  · exact hs.wrTcm
  · exact .ite (hs.setPad (wf_write hs.pad)) hs.sendSeq
  · exact hs.sendSeq

/-! ### Order and draining (R244, R247) -/

theorem Canonical.serve {c : Nat} {e : SeqEntry} (hs : Canonical s) : CanonicalServed (s.serve c e) := by
  unfold State.serve
  dsimp only
  split
  · exact .ofDone hs
  · refine .ite .no (.ite .no (.ite (.ofStarted hs.sendSeq) (.ite ?_ ?_)))
    · split
      · exact .no
      · refine .ofDone ?_
        split
        · next he _ _ _ =>
            exact (hs.serveLoad.ofFst he).putV
        · next he _ _ =>
            exact hs.serveLoad.ofFst he
    · split
      · exact .ofDone hs.popAll.serveStore
      · exact .ofDone hs.popAll.serveStore
      · exact .ofDone hs.popAll.runRec.putV
      · exact .ofDone hs.popAll.runRec.putV
      · exact .ofDone (hs.popAll.modCore (fun ht => ht.modBank))
      · refine .ofDone (.raise ?_)
        split
        · exact hs.popAll.putV
        · exact hs.popAll

theorem CanonicalCore.endLoop {k : Core} {b : Nat} (hk : CanonicalCore k) : CanonicalCore (k.endLoop b) :=
  hk.same

theorem Canonical.serveLoop {c : Nat} (hs : Canonical s) : InSome Canonical (s.serveLoop c) := by
  unfold State.serveLoop
  dsimp only
  split
  · exact .none
  · split
    · exact .ite (.some (hs.setCore hs.core.endLoop)) (.some (hs.setCore hs.core.same))
    · split
      · exact .none
      · next he =>
          exact .some ((hs.serve.started _ _ he).modCore (fun ht => ht.same))
      · next he =>
          exact .some ((hs.serve.done _ he).modCore (fun ht => ht.same))

theorem Canonical.serveHeads {c : Nat} {l : List (Nat × SeqEntry)} (hs : Canonical s) : InSome Canonical (s.serveHeads c l) := by
  unfold State.serveHeads
  refine .findSome (fun {_} => ?_)
  split
  · exact .none
  · next he =>
      exact .some ((hs.serve.started _ _ he).modCore (fun ht => ht.same))
  · next he =>
      exact .some ((hs.serve.done _ he).modCore (fun ht => ht.same))

theorem Canonical.seqStep {c : Nat} (hs : Canonical s) : InSome Canonical (s.seqStep c) := by
  unfold State.seqStep
  dsimp only
  split
  · next he =>
      exact .some (hs.serveHeads _ he)
  · split
    · next he =>
        exact .some (hs.serveLoop _ he)
    · exact hs.serveHeads

theorem Canonical.drainLoop {fuel : Nat} {l : List Nat} (hs : Canonical s) : Canonical (s.drainLoop fuel l) := by
  fun_induction State.drainLoop s fuel l with
  | case1 => exact hs
  | case2 => exact hs
  | case3 s fuel c l he ih => exact ih hs
  | case4 s fuel c l t he near ih => exact ih (hs.seqStep _ he)

theorem Canonical.linkBlocked {c : Nat} (hs : Canonical s) : Canonical (s.linkBlocked c) :=
  (hs.setCore hs.core.same).foldl (fun ht => ht.post)

theorem CanonicalCore.bodyWord {k : Core} {b : Nat} {e : Option SeqEntry} (hk : CanonicalCore k) : CanonicalCore (k.bodyWord b e) := by
  unfold Core.bodyWord
  split
  · exact .ite (.ite (.ite hk.same hk.same) hk.same) hk
  · exact hk

theorem Canonical.drain {c : Nat} (hs : Canonical s) : Canonical (s.drain c) :=
  .ite hs (.ite (hs.drainLoop.linkBlocked.foldl (fun ht => ht.linkBlocked)) hs.drainLoop.linkBlocked)

theorem Canonical.execLinkWordArrival (hs : Canonical s) : CanonicalOut (Machine.execLinkWordArrival s) := by
  unfold Machine.execLinkWordArrival
  split
  · exact .next (.ite (hs.modCore (fun ht => ht.same)).drain (hs.modCore (fun ht => ht.dropLink)).count)
  · exact .next hs

end Sys2Proof.Claims
end

section
/-! SUPPORT. The canonical form of every memory through fetch, issue of a bundle or word, and the passing of time, for a run of instructions that
keeps it. -/

namespace Sys2Proof.Claims

open Sys2Proof.Machine

set_option Elab.async false

variable {s : State}

/-! ### Fetch (R164, R390, R421) -/

theorem Canonical.fetchLine {word : Nat} {a : IAddr} (hs : Canonical s) : Canonical (s.fetchLine word a) :=
  (Canonical.ite hs.usePoison hs).sameMem.sameMem

theorem Canonical.checkTarget {t : Int} {k : State → IAddr → Res} (hs : Canonical s)
    (hk : ∀ {t : State} {a : IAddr}, Canonical t → CanonicalRes (k t a)) : CanonicalRes (Machine.checkTarget s t k) := by
  unfold Machine.checkTarget
  refine .ite .trapR (.ite .trapR (.ite (hk hs) ?_))
  split
  · exact .ite (hk hs.sameMem) .trapR
  · split
    · exact .trapR
    · exact .wait hs
    · exact .wait hs.sameMem.fetchLine

/-! ### Issue of one bundle or word -/

theorem Canonical.passOver {w : BitVec 32} (hs : Canonical s) : CanonicalRes (s.passOver w) :=
  .ok (.ite (hs.replace (issuing := fun _ => hs.issuing.bodyWord)) hs)

theorem Canonical.runWord {run : Instr → State → Out} {s : State} {f : Form} {w : BitVec 32} {i : Instr}
    (hrun : ∀ {i : Instr} {t : State}, Canonical t → CanonicalOut (run i t)) (hs : Canonical s) : CanonicalOut (Machine.runWord run s f w i) :=
  .ite (hs.sameMem.finish hs.sameMem.passOver) (.ite (Canonical.finish hs.sameMem (.wait hs.sameMem)) (hrun hs.sameMem))

theorem Canonical.issueWord {run : Instr → State → Out} {s : State} {f : Form} {w lit : BitVec 32}
    (hrun : ∀ {i : Instr} {t : State}, Canonical t → CanonicalOut (run i t)) (hs : Canonical s) : CanonicalOut
      (Machine.issueWord run s f w lit) := by
  unfold Machine.issueWord
  refine .ite (hs.sameMem.finish hs.sameMem.passOver) ?_
  split
  · exact Canonical.finish hs.sameMem .trapR
  · exact Canonical.runWord hrun hs.sameMem

theorem Canonical.runPair {r0 r1 : State → Out} {s : State} (hr0 : ∀ {t : State}, Canonical t → CanonicalOut (r0 t))
    (hr1 : ∀ {t : State}, Canonical t → CanonicalOut (r1 t)) (hs : Canonical s) : CanonicalOut (Machine.runPair r0 r1 s) := by
  unfold Machine.runPair
  dsimp only
  split
  · exact hr0 hs
  · split
    · exact .ite (hr1 hs) (hr0 hs)
    · exact hr1 hs
  · exact hr1 hs
  · exact hr1 hs
  · exact hr0 hs
  · split
    · split
      · split
        · next he _ _ he2 _ _ =>
            exact .next ((hr1 ((hr0 hs) _ he)) _ he2)
        · exact Canonical.finish hs.sameMem (.wait hs)
        · exact Canonical.finish hs.sameMem .trapR
      · next he _ _ =>
          exact hr1 ((hr0 hs) _ he)
    · exact hr0 hs

theorem Canonical.issueParallel {run : Instr → State → Out} {s : State} {w0 w1 : BitVec 32}
    (hrun : ∀ {i : Instr} {t : State}, Canonical t → CanonicalOut (run i t)) (hs : Canonical s) : CanonicalOut
      (Machine.issueParallel run s w0 w1) := by
  unfold Machine.issueParallel
  dsimp only
  split
  · exact Canonical.finish hs.sameMem .trapR
  · exact Canonical.finish hs.sameMem .trapR
  · refine .ite (Canonical.finish hs.sameMem .trapR) (Canonical.runPair (fun ht => ?_) (fun ht => ?_) hs)
    · split
      · exact Canonical.runWord hrun ht
      · exact ht.sameMem.finish ht.sameMem.passOver
    · split
      · exact Canonical.runWord hrun ht
      · exact ht.sameMem.finish ht.sameMem.passOver

theorem Canonical.issueBundle {run : Instr → State → Out} {s : State} {b : BitVec 64}
    (hrun : ∀ {i : Instr} {t : State}, Canonical t → CanonicalOut (run i t)) (hs : Canonical s) : CanonicalOut (Machine.issueBundle run s b) :=
  .ite (.ite (Canonical.finish hs.sameMem .trapR) (Canonical.issueWord hrun hs))
    (.ite (Canonical.issueWord hrun hs) (.ite (Canonical.issueWord hrun hs) (Canonical.issueParallel hrun hs)))

theorem Canonical.issueHere {run : Instr → State → Out} (hs : Canonical s)
    (hrun : ∀ {i : Instr} {t : State}, Canonical t → CanonicalOut (run i t)) : CanonicalOut (Machine.issueHere run s) := by
  unfold Machine.issueHere
  extract_lets u _ v
  have hu : Canonical u := hs.sameMem
  have hv : Canonical v := hs.sameMem
  split
  · exact .next hu.takeTrap
  · split
    · exact Canonical.issueBundle (run := run) hrun hv
    · exact .next (hv.fetchLine (word := 2) (a := v.bundle)).sameMem

theorem Canonical.takeCycle (hs : Canonical s) : Canonical s.takeCycle :=
  hs.sameMem

theorem Canonical.booked {src : State} (hs : Canonical s) : Canonical (s.booked src) :=
  .ite (Canonical.ite hs.takeCycle hs).sameMem (Canonical.ite hs.takeCycle hs).sameMem

theorem Canonical.issue {run : Instr → State → Out} {s : State} {c b : Nat}
    (hrun : ∀ {i : Instr} {t : State}, Canonical t → CanonicalOut (run i t)) (hs : Canonical s) : CanonicalOut (Machine.issue run s c b) := by
  unfold Machine.issue
  dsimp only
  split
  · next he =>
      exact .next ((hs.enter.issueHere hrun) _ he).booked.store'.drain
  · exact hs.enter.issueHere hrun

/-! ### Words that complete in a context away from its core (R47, R270, R276) -/

theorem Canonical.issueAway {run : Instr → State → Out} {i b : Nat} (hs : Canonical s)
    (hrun : ∀ {i : Instr} {t : State}, Canonical t → CanonicalOut (run i t)) : CanonicalOut (s.issueAway run i b) := by
  unfold State.issueAway
  split
  · exact .next hs
  · next x hx =>
    extract_lets back e
    have hback {u : State} (hu : Canonical u) : Canonical (back u) :=
      hu.replace (contexts := fun h => forall_mmod (P := fun x : Context => CanonicalCore x.core) h fun _ _ => hu.core)
        (cores := fun h => forall_mset h hs.core)
    have he : Canonical e := (hs.setCore (hs.context _ hx)).enter
    have hstep := he.issueHere (run := run) hrun
    split
    · next t ht =>
      refine .ite (.next (hback ((hstep _ ht).booked (src := e)).store')) (.next ?_)
      exact hs.replace (contexts := fun h => forall_mmod (P := fun x : Context => CanonicalCore x.core) h fun _ hy => hy.modBank)
    · exact hstep

/-! ### What comes about by itself, and time -/

theorem Canonical.arbitrate {e : Event} (hs : Canonical s) : Canonical (s.arbitrate e) := by
  unfold State.arbitrate
  split
  · exact hs.modCore (fun ht => ht.same)
  · exact hs

theorem Canonical.due (hs : Canonical s) : InSome (fun r => Canonical r.2) s.due :=
  .mapAll hs.sameMem.arbitrate

theorem Canonical.slewBy {a : Int} (hs : Canonical s) : Canonical (s.slewBy a) :=
  .ite hs hs.sameMem

theorem Canonical.spoilAt {u : Upset} (hs : Canonical s) : Canonical (s.spoilAt u) := by
  unfold State.spoilAt
  split
  · exact .setCore hs ⟨wf_spoilUnit hs.core.tcm, hs.core.tiles⟩
  · exact hs.setPad (wf_spoilUnit hs.pad)
  · exact hs.sameMem
  · exact hs.modHome
  · exact hs.sameMem
  · exact hs.sameMem
  · exact hs.modCore (fun ht => ht.same)
  · exact hs.modCore (fun ht => ht.same)
  · exact hs

theorem Canonical.strike {u : Upset} (hs : Canonical s) : Canonical (s.strike u) :=
  .ite (.ite hs hs.count) (Canonical.ite hs hs.count).spoilAt

theorem Canonical.upsetsFall (hs : Canonical s) : Canonical s.upsetsFall :=
  hs.sameMem.foldl (fun ht => ht.strike)

theorem Canonical.pass (hs : Canonical s) : Canonical s.pass := by
  unfold State.pass
  extract_lets busy cycleEnd heads next t d u v
  have hu : Canonical u := hs.replace (cores := fun h => forall_map h fun k hk => hk.same)
  exact hu.upsetsFall.slewBy

end Sys2Proof.Claims
end

section
/-! SUPPORT. The canonical form of every memory through scalar and control instructions, loads, stores, atomics, cache operations, and the accesses
at their places. -/

namespace Sys2Proof.Claims

open Sys2Proof.Machine

set_option Elab.async false

variable {s : State}

/-! ### Placing a word -/

theorem Canonical.transfer {t : Int} {w : State → State} (hs : Canonical s) (hw : ∀ {t : State}, Canonical t → Canonical (w t)) :
    CanonicalRes (Machine.transfer s t w) :=
  Canonical.checkTarget hs (fun ht => .jump (hw ht))

theorem Canonical.writeX {d : BitVec 5} {w : Word} (hs : Canonical s) : CanonicalOut (Machine.writeX s d w) :=
  Canonical.finish hs (.ok hs.setX)

theorem Canonical.writeLater {d : BitVec 5} {w : Word} {l : Nat} (hs : Canonical s) : CanonicalOut (Machine.writeLater s d w l) :=
  Canonical.finish hs (.ok hs.sameMem)

theorem Canonical.divide {d : BitVec 5} {w : Word} (hs : Canonical s) : CanonicalOut (Machine.divide s d w) :=
  .ite (Canonical.finish hs (.wait hs)) (Canonical.finish hs (.ok hs.sameMem))

theorem Canonical.writeP {d : BitVec 5} {b : Bool} (hs : Canonical s) : CanonicalOut (Machine.writeP s d b) :=
  Canonical.finish hs (.ok hs.setP)

theorem Canonical.branch {c : Bool} {off : BitVec 9} (hs : Canonical s) : CanonicalOut (Machine.branch s c off) :=
  Canonical.finish hs (.ite (hs.transfer (fun ht => ht)) (.ok hs))

theorem Canonical.execNop (hs : Canonical s) : CanonicalOut (Machine.execNop s) :=
  Canonical.finish hs (.ok hs)

theorem Canonical.execBeq {a b : BitVec 4} {off : BitVec 9} (hs : Canonical s) : CanonicalOut (Machine.execBeq a b off s) :=
  hs.branch

theorem Canonical.execBne {a b : BitVec 4} {off : BitVec 9} (hs : Canonical s) : CanonicalOut (Machine.execBne a b off s) :=
  hs.branch

theorem Canonical.execBlt {a b : BitVec 4} {off : BitVec 9} (hs : Canonical s) : CanonicalOut (Machine.execBlt a b off s) :=
  hs.branch

theorem Canonical.execBge {a b : BitVec 4} {off : BitVec 9} (hs : Canonical s) : CanonicalOut (Machine.execBge a b off s) :=
  hs.branch

theorem Canonical.execBltu {a b : BitVec 4} {off : BitVec 9} (hs : Canonical s) : CanonicalOut (Machine.execBltu a b off s) :=
  hs.branch

theorem Canonical.execBgeu {a b : BitVec 4} {off : BitVec 9} (hs : Canonical s) : CanonicalOut (Machine.execBgeu a b off s) :=
  hs.branch

theorem Canonical.execBpt {a : BitVec 4} {off : BitVec 9} (hs : Canonical s) : CanonicalOut (Machine.execBpt a off s) :=
  hs.branch

theorem Canonical.execBpf {a : BitVec 4} {off : BitVec 9} (hs : Canonical s) : CanonicalOut (Machine.execBpf a off s) :=
  hs.branch

theorem Canonical.execJ {off : BitVec 20} (hs : Canonical s) : CanonicalOut (Machine.execJ off s) :=
  hs.finish (hs.transfer (fun ht => ht))

theorem Canonical.execCall {off : BitVec 20} (hs : Canonical s) : CanonicalOut (Machine.execCall off s) :=
  hs.finish (hs.transfer (fun ht => ht.setX))

theorem Canonical.execJr {a : BitVec 5} {imm : BitVec 7} (hs : Canonical s) : CanonicalOut (Machine.execJr a imm s) :=
  hs.finish (hs.transfer (fun ht => ht))

theorem Canonical.execJalr {d a : BitVec 5} {imm : BitVec 7} (hs : Canonical s) : CanonicalOut (Machine.execJalr d a imm s) :=
  hs.finish (hs.transfer (fun ht => ht.setX))

theorem CanonicalOut.noDelay {x : Out} (hx : CanonicalOut x) : CanonicalOut (Machine.noDelay s x) := by
  unfold Machine.noDelay
  split
  · exact .next (.ite (hx _ rfl).sameMem (hx _ rfl))
  · exact hx

theorem Canonical.execLoop {d a : BitVec 5} {imm : BitVec 7} (hs : Canonical s) : CanonicalOut (Machine.execLoop d a imm s) :=
  .ite hs.writeX (hs.finish (hs.transfer (fun ht => ht.setX))).noDelay

theorem Canonical.execLiw {d : BitVec 5} {literal : BitVec 32} (hs : Canonical s) : CanonicalOut (Machine.execLiw d literal s) :=
  hs.writeX

theorem Canonical.execLiwh {d : BitVec 5} {literal : BitVec 32} (hs : Canonical s) : CanonicalOut (Machine.execLiwh d literal s) :=
  hs.writeX

theorem Canonical.execLui {d : BitVec 5} {imm : BitVec 15} (hs : Canonical s) : CanonicalOut (Machine.execLui d imm s) :=
  hs.writeX

theorem Canonical.execAddpc {d : BitVec 5} {imm : BitVec 15} (hs : Canonical s) : CanonicalOut (Machine.execAddpc d imm s) :=
  hs.writeX

theorem Canonical.execAdd {d a b : BitVec 5} (hs : Canonical s) : CanonicalOut (Machine.execAdd d a b s) :=
  hs.writeX

theorem Canonical.execSub {d a b : BitVec 5} (hs : Canonical s) : CanonicalOut (Machine.execSub d a b s) :=
  hs.writeX

theorem Canonical.execAnd {d a b : BitVec 5} (hs : Canonical s) : CanonicalOut (Machine.execAnd d a b s) :=
  hs.writeX

theorem Canonical.execOr {d a b : BitVec 5} (hs : Canonical s) : CanonicalOut (Machine.execOr d a b s) :=
  hs.writeX

theorem Canonical.execXor {d a b : BitVec 5} (hs : Canonical s) : CanonicalOut (Machine.execXor d a b s) :=
  hs.writeX

theorem Canonical.execSll {d a b : BitVec 5} (hs : Canonical s) : CanonicalOut (Machine.execSll d a b s) :=
  hs.writeX

theorem Canonical.execSrl {d a b : BitVec 5} (hs : Canonical s) : CanonicalOut (Machine.execSrl d a b s) :=
  hs.writeX

theorem Canonical.execSra {d a b : BitVec 5} (hs : Canonical s) : CanonicalOut (Machine.execSra d a b s) :=
  hs.writeX

theorem Canonical.execSlt {d a b : BitVec 5} (hs : Canonical s) : CanonicalOut (Machine.execSlt d a b s) :=
  hs.writeX

theorem Canonical.execSltu {d a b : BitVec 5} (hs : Canonical s) : CanonicalOut (Machine.execSltu d a b s) :=
  hs.writeX

theorem Canonical.execMin {d a b : BitVec 5} (hs : Canonical s) : CanonicalOut (Machine.execMin d a b s) :=
  hs.writeX

theorem Canonical.execMax {d a b : BitVec 5} (hs : Canonical s) : CanonicalOut (Machine.execMax d a b s) :=
  hs.writeX

theorem Canonical.execMinu {d a b : BitVec 5} (hs : Canonical s) : CanonicalOut (Machine.execMinu d a b s) :=
  hs.writeX

theorem Canonical.execMaxu {d a b : BitVec 5} (hs : Canonical s) : CanonicalOut (Machine.execMaxu d a b s) :=
  hs.writeX

theorem Canonical.execAddi {d a : BitVec 5} {imm : BitVec 7} (hs : Canonical s) : CanonicalOut (Machine.execAddi d a imm s) :=
  hs.writeX

theorem Canonical.execAndi {d a : BitVec 5} {imm : BitVec 7} (hs : Canonical s) : CanonicalOut (Machine.execAndi d a imm s) :=
  hs.writeX

theorem Canonical.execOri {d a : BitVec 5} {imm : BitVec 7} (hs : Canonical s) : CanonicalOut (Machine.execOri d a imm s) :=
  hs.writeX

theorem Canonical.execXori {d a : BitVec 5} {imm : BitVec 7} (hs : Canonical s) : CanonicalOut (Machine.execXori d a imm s) :=
  hs.writeX

theorem Canonical.execSlli {d a : BitVec 5} {imm : BitVec 6} (hs : Canonical s) : CanonicalOut (Machine.execSlli d a imm s) :=
  hs.writeX

theorem Canonical.execSrli {d a : BitVec 5} {imm : BitVec 6} (hs : Canonical s) : CanonicalOut (Machine.execSrli d a imm s) :=
  hs.writeX

theorem Canonical.execSrai {d a : BitVec 5} {imm : BitVec 6} (hs : Canonical s) : CanonicalOut (Machine.execSrai d a imm s) :=
  hs.writeX

theorem Canonical.execSlti {d a : BitVec 5} {imm : BitVec 7} (hs : Canonical s) : CanonicalOut (Machine.execSlti d a imm s) :=
  hs.writeX

theorem Canonical.execMul {d a b : BitVec 5} (hs : Canonical s) : CanonicalOut (Machine.execMul d a b s) :=
  hs.writeLater

theorem Canonical.execMulh {d a b : BitVec 5} (hs : Canonical s) : CanonicalOut (Machine.execMulh d a b s) :=
  hs.writeLater

theorem Canonical.execMulhu {d a b : BitVec 5} (hs : Canonical s) : CanonicalOut (Machine.execMulhu d a b s) :=
  hs.writeLater

theorem Canonical.execDiv {d a b : BitVec 5} (hs : Canonical s) : CanonicalOut (Machine.execDiv d a b s) :=
  hs.divide

theorem Canonical.execDivu {d a b : BitVec 5} (hs : Canonical s) : CanonicalOut (Machine.execDivu d a b s) :=
  hs.divide

theorem Canonical.execRem {d a b : BitVec 5} (hs : Canonical s) : CanonicalOut (Machine.execRem d a b s) :=
  hs.divide

theorem Canonical.execRemu {d a b : BitVec 5} (hs : Canonical s) : CanonicalOut (Machine.execRemu d a b s) :=
  hs.divide

theorem Canonical.execClz {d a : BitVec 5} (hs : Canonical s) : CanonicalOut (Machine.execClz d a s) :=
  hs.writeX

theorem Canonical.execCtz {d a : BitVec 5} (hs : Canonical s) : CanonicalOut (Machine.execCtz d a s) :=
  hs.writeX

theorem Canonical.execPopc {d a : BitVec 5} (hs : Canonical s) : CanonicalOut (Machine.execPopc d a s) :=
  hs.writeX

theorem Canonical.execBswap {d a : BitVec 5} (hs : Canonical s) : CanonicalOut (Machine.execBswap d a s) :=
  hs.writeX

theorem Canonical.execAddsh {d a b : BitVec 5} (hs : Canonical s) : CanonicalOut (Machine.execAddsh d a b s) :=
  hs.writeX

theorem Canonical.execPart {d a b : BitVec 5} (hs : Canonical s) : CanonicalOut (Machine.execPart d a b s) :=
  hs.writeX

theorem Canonical.execSel {d a b : BitVec 5} (hs : Canonical s) : CanonicalOut (Machine.execSel d a b s) :=
  hs.writeX

theorem Canonical.execPeq {d a b : BitVec 5} (hs : Canonical s) : CanonicalOut (Machine.execPeq d a b s) :=
  hs.writeP

theorem Canonical.execPne {d a b : BitVec 5} (hs : Canonical s) : CanonicalOut (Machine.execPne d a b s) :=
  hs.writeP

theorem Canonical.execPlt {d a b : BitVec 5} (hs : Canonical s) : CanonicalOut (Machine.execPlt d a b s) :=
  hs.writeP

theorem Canonical.execPge {d a b : BitVec 5} (hs : Canonical s) : CanonicalOut (Machine.execPge d a b s) :=
  hs.writeP

theorem Canonical.execPltu {d a b : BitVec 5} (hs : Canonical s) : CanonicalOut (Machine.execPltu d a b s) :=
  hs.writeP

theorem Canonical.execPgeu {d a b : BitVec 5} (hs : Canonical s) : CanonicalOut (Machine.execPgeu d a b s) :=
  hs.writeP

theorem Canonical.execPand {d a b : BitVec 5} (hs : Canonical s) : CanonicalOut (Machine.execPand d a b s) :=
  hs.writeP

theorem Canonical.execPor {d a b : BitVec 5} (hs : Canonical s) : CanonicalOut (Machine.execPor d a b s) :=
  hs.writeP

theorem Canonical.execPxor {d a b : BitVec 5} (hs : Canonical s) : CanonicalOut (Machine.execPxor d a b s) :=
  hs.writeP

theorem Canonical.execPnot {d a : BitVec 5} (hs : Canonical s) : CanonicalOut (Machine.execPnot d a s) :=
  hs.writeP

theorem Canonical.execMovpw {d : BitVec 5} (hs : Canonical s) : CanonicalOut (Machine.execMovpw d s) :=
  hs.writeX

theorem Canonical.execMovwp {a : BitVec 5} (hs : Canonical s) : CanonicalOut (Machine.execMovwp a s) :=
  Canonical.finish hs (.ok hs.sameMem)

/-! ### Loads and stores -/

theorem Canonical.loadX {sp ea n : Nat} {d : BitVec 5} {f : Nat → Word} (hs : Canonical s) : CanonicalRes (Machine.loadX s sp ea n d f) :=
  Canonical.loadRes hs (fun ht => .ok ht.setX)

theorem Canonical.execLd8 {d a : BitVec 5} {off : BitVec 7} (hs : Canonical s) : CanonicalOut (Machine.execLd8 d a off s) :=
  hs.finish hs.loadX

theorem Canonical.execLd8u {d a : BitVec 5} {off : BitVec 7} (hs : Canonical s) : CanonicalOut (Machine.execLd8u d a off s) :=
  hs.finish hs.loadX

theorem Canonical.execLd16 {d a : BitVec 5} {off : BitVec 7} (hs : Canonical s) : CanonicalOut (Machine.execLd16 d a off s) :=
  hs.finish hs.loadX

theorem Canonical.execLd16u {d a : BitVec 5} {off : BitVec 7} (hs : Canonical s) : CanonicalOut (Machine.execLd16u d a off s) :=
  hs.finish hs.loadX

theorem Canonical.execLd32 {d a : BitVec 5} {off : BitVec 7} (hs : Canonical s) : CanonicalOut (Machine.execLd32 d a off s) :=
  hs.finish hs.loadX

theorem Canonical.execLd32u {d a : BitVec 5} {off : BitVec 7} (hs : Canonical s) : CanonicalOut (Machine.execLd32u d a off s) :=
  hs.finish hs.loadX

theorem Canonical.execLd64 {d a : BitVec 5} {off : BitVec 7} (hs : Canonical s) : CanonicalOut (Machine.execLd64 d a off s) :=
  hs.finish hs.loadX

theorem Canonical.execSt8 {d a : BitVec 5} {off : BitVec 7} (hs : Canonical s) : CanonicalOut (Machine.execSt8 d a off s) :=
  hs.finish hs.storeRes

theorem Canonical.execSt16 {d a : BitVec 5} {off : BitVec 7} (hs : Canonical s) : CanonicalOut (Machine.execSt16 d a off s) :=
  hs.finish hs.storeRes

theorem Canonical.execSt32 {d a : BitVec 5} {off : BitVec 7} (hs : Canonical s) : CanonicalOut (Machine.execSt32 d a off s) :=
  hs.finish hs.storeRes

theorem Canonical.execSt64 {d a : BitVec 5} {off : BitVec 7} (hs : Canonical s) : CanonicalOut (Machine.execSt64 d a off s) :=
  hs.finish hs.storeRes

theorem Canonical.execLda32 {d a : BitVec 5} {_scope : BitVec 3} (hs : Canonical s) : CanonicalOut (Machine.execLda32 d a _scope s) :=
  hs.finish hs.loadX

theorem Canonical.execLda64 {d a : BitVec 5} {_scope : BitVec 3} (hs : Canonical s) : CanonicalOut (Machine.execLda64 d a _scope s) :=
  hs.finish hs.loadX

theorem Canonical.execStl32 {d a : BitVec 5} {_scope : BitVec 3} (hs : Canonical s) : CanonicalOut (Machine.execStl32 d a _scope s) :=
  hs.finish hs.storeRes

theorem Canonical.execStl64 {d a : BitVec 5} {_scope : BitVec 3} (hs : Canonical s) : CanonicalOut (Machine.execStl64 d a _scope s) :=
  hs.finish hs.storeRes

theorem Canonical.execLdp {d a : BitVec 5} {off : BitVec 7} (hs : Canonical s) : CanonicalOut (Machine.execLdp d a off s) :=
  Canonical.finish hs (Canonical.loadRes hs (fun ht => .ok ht.setX.setX))

theorem Canonical.execStp {d a : BitVec 5} {off : BitVec 7} (hs : Canonical s) : CanonicalOut (Machine.execStp d a off s) :=
  hs.finish hs.storeRes

theorem Canonical.execLdf64 {d a : BitVec 5} {off : BitVec 7} (hs : Canonical s) : CanonicalOut (Machine.execLdf64 d a off s) :=
  hs.finish hs.loadX

theorem Canonical.execStf64 {d a : BitVec 5} {off : BitVec 7} (hs : Canonical s) : CanonicalOut (Machine.execStf64 d a off s) :=
  hs.finish hs.storeRes

/-! ### Atomics -/

theorem Canonical.atomic {ord : BitVec 2} {sp ea n : Nat} {op : MemOp} {v : BitVec 5} (hs : Canonical s) :
    CanonicalRes (Machine.atomic s ord sp ea n op v) :=
  Canonical.atomicRes hs (fun ht => .ok ht.setX)

theorem Canonical.amo {fn : Nat} {v a : BitVec 5} {w : BitVec 1} {ord : BitVec 2} (hs : Canonical s) : CanonicalOut (Machine.amo fn v a w ord s) :=
  hs.finish hs.atomic

theorem Canonical.execAmoadd {v a : BitVec 5} {w : BitVec 1} {ord : BitVec 2} {_scope : BitVec 3} (hs : Canonical s) :
    CanonicalOut (Machine.execAmoadd v a w ord _scope s) :=
  hs.amo

theorem Canonical.execAmoand {v a : BitVec 5} {w : BitVec 1} {ord : BitVec 2} {_scope : BitVec 3} (hs : Canonical s) :
    CanonicalOut (Machine.execAmoand v a w ord _scope s) :=
  hs.amo

theorem Canonical.execAmoor {v a : BitVec 5} {w : BitVec 1} {ord : BitVec 2} {_scope : BitVec 3} (hs : Canonical s) :
    CanonicalOut (Machine.execAmoor v a w ord _scope s) :=
  hs.amo

theorem Canonical.execAmoorFence {_a : BitVec 5} {_w : BitVec 1} {ord : BitVec 2} {_scope : BitVec 3} (hs : Canonical s) :
    CanonicalOut (Machine.execAmoorFence _a _w ord _scope s) :=
  Canonical.finish hs (.ite (.ok hs) (Canonical.release hs (fun ht => .ok ht)))

theorem Canonical.execAmoxor {v a : BitVec 5} {w : BitVec 1} {ord : BitVec 2} {_scope : BitVec 3} (hs : Canonical s) :
    CanonicalOut (Machine.execAmoxor v a w ord _scope s) :=
  hs.amo

theorem Canonical.execAmomin {v a : BitVec 5} {w : BitVec 1} {ord : BitVec 2} {_scope : BitVec 3} (hs : Canonical s) :
    CanonicalOut (Machine.execAmomin v a w ord _scope s) :=
  hs.amo

theorem Canonical.execAmomax {v a : BitVec 5} {w : BitVec 1} {ord : BitVec 2} {_scope : BitVec 3} (hs : Canonical s) :
    CanonicalOut (Machine.execAmomax v a w ord _scope s) :=
  hs.amo

theorem Canonical.execAmominu {v a : BitVec 5} {w : BitVec 1} {ord : BitVec 2} {_scope : BitVec 3} (hs : Canonical s) :
    CanonicalOut (Machine.execAmominu v a w ord _scope s) :=
  hs.amo

theorem Canonical.execAmomaxu {v a : BitVec 5} {w : BitVec 1} {ord : BitVec 2} {_scope : BitVec 3} (hs : Canonical s) :
    CanonicalOut (Machine.execAmomaxu v a w ord _scope s) :=
  hs.amo

theorem Canonical.execAmoswp {v a : BitVec 5} {w : BitVec 1} {ord : BitVec 2} {_scope : BitVec 3} (hs : Canonical s) :
    CanonicalOut (Machine.execAmoswp v a w ord _scope s) :=
  hs.amo

theorem Canonical.cas {wide : Bool} {v a : BitVec 5} {ord : BitVec 2} (hs : Canonical s) : CanonicalOut (Machine.cas wide v a ord s) :=
  hs.finish hs.atomic

theorem Canonical.execCas32 {v a : BitVec 5} {ord : BitVec 2} {_scope : BitVec 3} (hs : Canonical s) :
    CanonicalOut (Machine.execCas32 v a ord _scope s) :=
  hs.cas

theorem Canonical.execCas64 {v a : BitVec 5} {ord : BitVec 2} {_scope : BitVec 3} (hs : Canonical s) :
    CanonicalOut (Machine.execCas64 v a ord _scope s) :=
  hs.cas

theorem Canonical.amof {fn : Nat} {v a : BitVec 5} {w : BitVec 1} {ord : BitVec 2} (hs : Canonical s) :
    CanonicalOut (Machine.amof fn v a w ord s) :=
  hs.finish hs.atomic

theorem Canonical.execAmofadd {v a : BitVec 5} {w : BitVec 1} {ord : BitVec 2} {_scope : BitVec 3} (hs : Canonical s) :
    CanonicalOut (Machine.execAmofadd v a w ord _scope s) :=
  hs.amof

theorem Canonical.execAmofmin {v a : BitVec 5} {w : BitVec 1} {ord : BitVec 2} {_scope : BitVec 3} (hs : Canonical s) :
    CanonicalOut (Machine.execAmofmin v a w ord _scope s) :=
  hs.amof

theorem Canonical.execAmofmax {v a : BitVec 5} {w : BitVec 1} {ord : BitVec 2} {_scope : BitVec 3} (hs : Canonical s) :
    CanonicalOut (Machine.execAmofmax v a w ord _scope s) :=
  hs.amof

/-! ### Cache operations -/

theorem Canonical.sendLine {w : For} {sp ea : Nat} (hs : Canonical s) : Canonical (s.sendLine w sp ea).2 :=
  hs.sameMem.emitOwn

theorem Canonical.issueCacheOp {kind sp ea : Nat} (hs : Canonical s) : CanonicalRes (s.issueCacheOp kind sp ea) :=
  .ite (.wait hs) (.ok hs.sameMem)

theorem Canonical.cacheOp {kind : Nat} {a : BitVec 5} (hs : Canonical s) : CanonicalOut (Machine.cacheOp kind a s) :=
  Canonical.finish hs (.ite (.ok hs) (.ite .trapR (.ite (.ok hs) (.ite (.wait hs) hs.issueCacheOp))))

theorem Canonical.execCwb {a : BitVec 5} (hs : Canonical s) : CanonicalOut (Machine.execCwb a s) :=
  hs.cacheOp

theorem Canonical.execCinv {a : BitVec 5} (hs : Canonical s) : CanonicalOut (Machine.execCinv a s) :=
  hs.cacheOp

theorem Canonical.execCinvRc {a : BitVec 5} (hs : Canonical s) : CanonicalOut (Machine.execCinvRc a s) :=
  Canonical.finish hs (.ok hs.sameMem)

theorem Canonical.discardLine {sp ea : Nat} (hs : Canonical s) : Canonical (s.discardLine sp ea) := by
  unfold State.discardLine
  dsimp only
  split
  · exact hs
  · exact hs.drawn.drawn.cleanLine.dropLine

theorem Canonical.execCinvD {a : BitVec 5} (hs : Canonical s) : CanonicalOut (Machine.execCinvD a s) :=
  Canonical.finish hs (.ite (.ok hs) (.ite .trapR (Canonical.access hs
    (Canonical.request hs (fun ht => .ok (ht.onModule (fun hu => hu.discardLine))))
      (Canonical.request hs (fun ht => .ok (ht.onModule (fun hu => hu.discardLine)))))))

theorem Canonical.prefetch {l0 : Bool} {a : BitVec 5} (hs : Canonical s) : CanonicalOut (Machine.prefetch l0 a s) :=
  Canonical.finish hs (.ite (.ok hs) (.ite .trapR (.ite (.ok hs) (.ite (.wait hs) (.ok hs.sendLine)))))

theorem Canonical.execPref {a : BitVec 5} (hs : Canonical s) : CanonicalOut (Machine.execPref a s) :=
  hs.prefetch

theorem Canonical.execPrefSc {a : BitVec 5} (hs : Canonical s) : CanonicalOut (Machine.execPrefSc a s) :=
  hs.prefetch

theorem Canonical.execIcinv {a : BitVec 5} (hs : Canonical s) : CanonicalOut (Machine.execIcinv a s) :=
  Canonical.finish hs (.ite .trapR (.ite (.ok hs) hs.issueCacheOp))

theorem Canonical.execSynci (hs : Canonical s) : CanonicalOut (Machine.execSynci s) :=
  Canonical.finish hs (.ite (.ok hs) (.wait hs))

/-! ### Answers on their way back -/

theorem Canonical.accGot {id : Nat} {a : Acc} {ea : Nat} {got : List Byte} {extra : Nat} (hs : Canonical s) :
    Canonical (s.accGot id a ea got extra) := by
  unfold State.accGot
  dsimp only
  split
  · exact hs.sameMem.post
  · exact .ite (.ite hs.sameMem hs.sameMem.post) (Canonical.ite hs.sameMem hs.sameMem.post).post

theorem Canonical.poisonFor {a : Acc} (hs : Canonical s) : Canonical (s.poisonFor a) :=
  hs.usePoison

/-! ### L0 fills (R163, R170, R171) -/

theorem Canonical.lineData {h : Nat} {t : Tlb} {ea : Nat} (hs : Canonical s) : Canonical (s.lineData h t ea).2.2 :=
  hs.rdSlice.rdSlice

theorem Canonical.share {h : Nat} {l : SLine} {c : Nat} (hs : Canonical s) : Canonical (s.share h l c) :=
  .ite hs (.ite hs.putLine hs.putLine.post)

theorem Canonical.fillL0 {h : Nat} {t : Tlb} {a : Acc} {ea : Nat} (hs : Canonical s) : Canonical (s.fillL0 h t a ea) := by
  unfold State.fillL0
  dsimp only
  refine .ite hs ?_
  split
  · exact hs.lineData
  · exact .ite hs.lineData (hs.lineData.modCore (fun ht => ht.same)).share

/-! ### Performing an access at its home slice -/

theorem Canonical.rdAt {h : Nat} {t : Tlb} {ea n : Nat} (hs : Canonical s) : Canonical (s.rdAt h t ea n).2.2 := by
  unfold State.rdAt
  split
  · exact hs.rdSlice
  · exact hs.rdSlice.rdSlice

theorem Canonical.wrAt {h : Nat} {t : Tlb} {ea : Nat} {d : List Byte} {m : List Bool} {w : Option Nat} (hs : Canonical s) :
    Canonical (s.wrAt h t ea d m w) :=
  .ite hs.wrSlice hs.wrSlice.wrSlice

theorem Canonical.performSlice {id : Nat} {a : Acc} {h : Nat} {t : Tlb} {ea extra : Nat} (hs : Canonical s) :
    Canonical (s.performSlice id a h t ea extra) := by
  unfold State.performSlice
  split
  · exact hs.accGot
  · exact hs.accGot
  · refine .accGot ?_
    split
    · exact .ite (Canonical.ite hs.rdAt.poisonFor hs.rdAt).wrAt.l0Store (Canonical.ite hs.rdAt.poisonFor hs.rdAt).wrAt
    · split
      · exact .ite (Canonical.ite hs.rdAt.poisonFor hs.rdAt).fillL0 (.ite hs.rdAt.poisonFor hs.rdAt)
      · exact .ite hs.rdAt.poisonFor hs.rdAt

theorem Canonical.performPrefetch {id : Nat} {a : Acc} {h : Nat} {t : Tlb} {ea : Nat} (hs : Canonical s) :
    Canonical (s.performPrefetch id a h t ea) := by
  unfold State.performPrefetch
  split
  · exact (Canonical.ite hs.sameMem hs.sameMem.lineData).fillL0
  · exact .ite hs.sameMem hs.sameMem.lineData

theorem CanonicalCore.fillL0I {k : Core} {n : L0ILine} (hk : CanonicalCore k) : CanonicalCore (k.fillL0I n) :=
  hk.same

theorem Canonical.performFetch {id : Nat} {a : Acc} {h : Nat} {t : Tlb} {ea extra : Nat} (hs : Canonical s) :
    Canonical (s.performFetch id a h t ea extra) :=
  .ite (Canonical.ite hs.putLine hs.putLine.poisonFor).endProgram (Canonical.ite (.ite hs.putLine hs.putLine.poisonFor)
    ((Canonical.ite hs.putLine hs.putLine.poisonFor).modCore (fun ht => ht.fillL0I))).accGot

/-! ### Cache operations at the home (R196-R199) -/

theorem Canonical.performCacheOp {id : Nat} {a : Acc} {kind ea : Nat} (hs : Canonical s) :
    Canonical (s.performCacheOp id a kind ea) := by
  refine .post (.ite (.ite hs (hs.modHome.mapCoresOnly fun c hc => hc.same)) (.ite hs ?_))
  split
  · exact .ite hs.cleanLine.dropLine hs.cleanLine
  · exact hs

/-! ### Failed translations (R221) -/

theorem Canonical.failAcc {id : Nat} {a : Acc} {ea reason : Nat} (hs : Canonical s) : Canonical (s.failAcc id a ea reason) := by
  unfold State.failAcc
  split
  · exact hs.sameMem
  · exact hs.post

/-! ### Peer and host windows (R205, R219) -/

theorem Canonical.foreign {f : Nat → Byte} {x : Nat} (hs : Canonical s) : Canonical (s.foreign f x).2 := by
  induction x generalizing s f with
  | zero => exact hs
  | succ n ih =>
    unfold State.foreign
    dsimp only
    exact ih hs.drawn

theorem Canonical.portTime (hs : Canonical s) : Canonical s.portTime.2 :=
  hs.sameMem

theorem Canonical.performAway {id : Nat} {a : Acc} {ea : Nat} {f : Nat → Byte} (hs : Canonical s) : Canonical (s.performAway id a ea f) := by
  unfold State.performAway
  split
  · exact hs.portTime.accGot
  · exact hs.portTime.accGot
  · exact hs.portTime.accGot
  · exact hs.portTime.foreign.accGot

theorem Canonical.peerAccess {id : Nat} {a : Acc} {h ea : Nat} (hs : Canonical s) : Canonical (s.peerAccess id a h ea) := by
  unfold State.peerAccess
  dsimp only
  split
  · exact hs.failAcc
  · refine .ite hs.failAcc ?_
    split
    · exact .ite hs.failAcc hs.modFront.performAway
    · exact hs.drawn.portTime.modFront.post

theorem Canonical.hostAccess {id : Nat} {a : Acc} {ea : Nat} (hs : Canonical s) : Canonical (s.hostAccess id a ea) := by
  unfold State.hostAccess
  dsimp only
  split
  · exact hs.failAcc
  · exact .ite hs.drawn.failAcc (.ite hs.drawn.performAway (.ite hs.drawn.modFront.countHost.portTime.accGot hs.drawn.modFront.performAway))

/-! ### A request at its home slice (R213) -/

theorem Canonical.translated {id : Nat} {a : Acc} {h : Nat} {t : Tlb} {ea extra : Nat} (hs : Canonical s) :
    Canonical (s.translated id a h t ea extra) := by
  unfold State.translated
  refine .ite hs.failAcc ?_
  split
  · exact hs.performPrefetch
  · exact .ite hs.post hs.performSlice

theorem Canonical.fetchRequest {id : Nat} {a : Acc} {h ea : Nat} (hs : Canonical s) : Canonical (s.fetchRequest id a h ea) := by
  unfold State.fetchRequest
  refine .ite hs.answer ?_
  split
  · exact hs.performFetch
  · exact hs.dramTime.post

theorem Canonical.serveSlice {id : Nat} {a : Acc} {h ea : Nat} (hs : Canonical s) : Canonical (s.serveSlice id a h ea) := by
  unfold State.serveSlice
  split
  · exact hs.performCacheOp
  · exact hs.fetchRequest
  · refine .ite hs.hostAccess (.ite hs.peerAccess ?_)
    split
    · exact hs.translated
    · exact hs.dramTime.post

theorem Canonical.sliceRequest {id : Nat} (hs : Canonical s) : Canonical (s.sliceRequest id) := by
  unfold State.sliceRequest
  split
  · exact hs
  · exact .ite hs.serveSlice hs.awaitWake

theorem Canonical.execSliceRequest (hs : Canonical s) : CanonicalOut (Machine.execSliceRequest s) := by
  unfold Machine.execSliceRequest
  split
  · exact .next hs.sliceRequest
  · exact .next hs

theorem Canonical.addIbuf {cl : Nat} {t : Tlb} (hs : Canonical s) : Canonical (s.addIbuf cl t) :=
  hs.sameMem

theorem Canonical.walkDone {id : Nat} (hs : Canonical s) : Canonical (s.walkDone id) := by
  unfold State.walkDone
  split
  · exact hs
  · refine .ite ?_ ?_
    · split
      · exact hs.failAcc
      · exact hs.dramTime.orEntry.addIbuf.performFetch
    · split
      · exact hs.failAcc
      · exact .ite hs.dramTime.addTlb.translated hs.failAcc

theorem Canonical.execPageWalkComplete (hs : Canonical s) : CanonicalOut (Machine.execPageWalkComplete s) := by
  unfold Machine.execPageWalkComplete
  split
  · exact .next hs.walkDone
  · exact .next hs

/-! ### Remote memories (R160, R192) -/

theorem Canonical.wrTcmAt {place off : Nat} {d : List Byte} {m : List Bool} (hs : Canonical s) : Canonical (s.wrTcmAt place off d m) := by
  unfold State.wrTcmAt
  split
  · exact hs.wrTcm
  · next i _ =>
    split
    · next x hx =>
      have hstored := CanonicalPair.tcmStore (cid := x.origin) (a := off) (data := d) (mask := m) (k := (x.core, s.pad x.cluster))
        ⟨hs.context _ hx, hs.pad⟩
      have hset : Canonical { s with contexts := mset s.contexts i { x with core := (tcmStore x.origin (x.core, s.pad x.cluster) off d m).1 } } :=
        hs.replace (contexts := fun h => forall_mset (P := fun x : Context => CanonicalCore x.core) h hstored.core)
      have hlogged := Canonical.ite (c := x.core.undo.isSome = true) (hset.setPad (cl := x.cluster) hstored.log) hset
      dsimp only
      split
      · exact hlogged.setPad (Memory.wf_wrMasked _ _ _ _ hlogged.pad)
      · exact hlogged
    · exact hs

theorem Canonical.performAt {id : Nat} {a : Acc} {ea : Nat} {old : List Byte × Bool} {put : State → List Byte → List Bool → State}
    (hs : Canonical s) (hput : ∀ {t : State} {x : List Byte} {x' : List Bool}, Canonical t → Canonical (put t x x')) : Canonical
      (s.performAt id a ea old put) := by
  unfold State.performAt
  refine .accGot ?_
  split
  · exact hput (.ite hs.poisonFor hs)
  · exact .ite hs.poisonFor hs

theorem Canonical.refuseAcc {id : Nat} {a : Acc} {ea c : Nat} (hs : Canonical s) : Canonical (s.refuseAcc id a ea c) :=
  hs.count.accGot

theorem Canonical.wrReflex {off : Nat} {d : List Byte} {m : List Bool} (hs : Canonical s) : Canonical (s.wrReflex off d m) :=
  .ite hs.bumpReflexRegions.modHome (hs.replace (store := fun _ => wf_write hs.bumpReflexRegions.store))

theorem Canonical.remoteAccess {id : Nat} (hs : Canonical s) : Canonical (s.remoteAccess id) := by
  unfold State.remoteAccess
  dsimp only
  split
  · exact hs
  · split
    · exact hs.performAt (fun ht => ht.wrReflex)
    · exact .ite hs.keep (.ite hs.post (.ite (hs.performAt (fun ht => ht.wrTcmAt)) hs.refuseAcc))
    · exact .ite hs.post (hs.performAt (fun ht => ht.setPad (wf_write ht.pad)))
    · exact .ite hs.keep (.ite hs.post (.ite (hs.performAt (fun ht => ht.wrTcmAt)) hs.refuseAcc))
    · exact .ite hs.post (hs.performAt (fun ht => ht.setPad (wf_write ht.pad)))
    · exact hs

theorem Canonical.execRemoteAccess (hs : Canonical s) : CanonicalOut (Machine.execRemoteAccess s) := by
  unfold Machine.execRemoteAccess
  split
  · exact .next hs.remoteAccess
  · exact .next hs

/-! ### Confirmation and reply (R168, R169) -/

theorem Canonical.confirmed {id : Nat} (hs : Canonical s) : Canonical (s.confirmed id) := by
  unfold State.confirmed
  split
  · exact hs
  · exact .ite hs.sameMem.answer (.ite hs.modThread.answer hs)

theorem Canonical.execConfirmation (hs : Canonical s) : CanonicalOut (Machine.execConfirmation s) := by
  unfold Machine.execConfirmation
  split
  · exact .next hs.confirmed
  · exact .next hs

theorem Canonical.seqGot {w : Who} {id v : Nat} (hs : Canonical s) : Canonical (s.seqGot w id v) :=
  hs.modCoreOf (fun ht => ht.same)

theorem Canonical.drainOf {w : Who} (hs : Canonical s) : Canonical (s.drainOf w) := by
  unfold State.drainOf
  split
  · exact hs.drain
  · exact hs

theorem Canonical.ackedAndDrained {w : Who} {id : Nat} (hs : Canonical s) : Canonical (s.ackedAndDrained w id) := by
  unfold State.ackedAndDrained
  dsimp only
  split
  · exact hs.acked.drainOf.drainOf
  · exact hs.acked.drainOf

theorem Canonical.replied {id : Nat} (hs : Canonical s) : Canonical (s.replied id) := by
  unfold State.replied
  split
  · exact hs
  · split
    · exact .ite hs.sameMem.ackedAndDrained hs.sameMem.answer.releaseIfDrained
    · exact hs.sameMem.ackedAndDrained
    · exact hs.sameMem.seqGot.drainOf
    · exact hs.sameMem.answer
    · exact hs.post
    · exact hs.sameMem
    · exact hs.sameMem

theorem Canonical.execAccessReply (hs : Canonical s) : CanonicalOut (Machine.execAccessReply s) := by
  unfold Machine.execAccessReply
  split
  · exact .next hs.replied
  · exact .next hs

theorem Canonical.cacheOpDone {id : Nat} (hs : Canonical s) : Canonical (s.cacheOpDone id) := by
  unfold State.cacheOpDone
  split
  · exact hs
  · exact hs.sameMem.modAny

theorem Canonical.execCacheOpComplete (hs : Canonical s) : CanonicalOut (Machine.execCacheOpComplete s) := by
  unfold Machine.execCacheOpComplete
  split
  · exact .next hs.cacheOpDone
  · exact .next hs

end Sys2Proof.Claims
end

section
/-! SUPPORT. The canonical form of every memory through page faults and their replies, the overflow handler, the power of a slice, region updates,
CSRs and traps. -/

namespace Sys2Proof.Claims

open Sys2Proof.Machine

set_option Elab.async false

variable {s : State}

/-! ### Fault messages (R221) -/

theorem Canonical.failFill {a : Acc} (hs : Canonical s) : Canonical (s.failFill a) := by
  unfold State.failFill
  split
  · exact hs.modCore (fun ht => ht.same)
  · exact hs

theorem Canonical.dropAcc {id : Nat} {a : Acc} (hs : Canonical s) : Canonical (s.dropAcc id a) :=
  hs.sameMem.failFill.acked1

theorem Canonical.newFaultId {c : Nat} (hs : Canonical s) : Canonical (s.newFaultId c).2 := by
  unfold State.newFaultId
  dsimp only
  exact hs.modCore (fun ht => ht.same)

theorem Canonical.threadFault {f : FaultRec} {id : Nat} (hs : Canonical s) : Canonical (s.threadFault f id) := by
  unfold State.threadFault
  refine .ite hs ?_
  split
  · split
    · exact hs.dropAcc
    · exact hs.sameMem
  · exact .ite hs.post hs.newFaultId.modThread.mailFault

theorem Canonical.copyFault {f : FaultRec} {id : Nat} (hs : Canonical s) : Canonical (s.copyFault f id) := by
  unfold State.copyFault
  split
  · exact hs
  · exact (hs.newFaultId.modCoreAt (fun ht => ht.same)).mailFault

theorem Canonical.execTranslationFault (hs : Canonical s) : CanonicalOut (Machine.execTranslationFault s) := by
  unfold Machine.execTranslationFault
  split
  · refine .next ?_
    split
    · exact hs.threadFault
    · exact hs.copyFault
  · exact .next hs

theorem Canonical.execFaultMessageResend (hs : Canonical s) : CanonicalOut (Machine.execFaultMessageResend s) := by
  unfold Machine.execFaultMessageResend
  dsimp only
  split
  · refine .next ?_
    split
    · split
      · exact (hs.modCore (fun ht => ht.same)).mailFault
      · exact hs.modCore (fun ht => ht.same)
    · exact hs.modCore (fun ht => ht.same)
  · exact .next hs

/-! ### Fault replies (R222, R223) -/

theorem CanonicalCore.takeReply {k : Core} {fid : Nat} (hk : CanonicalCore k) : CanonicalCore (k.takeReply fid) :=
  hk.same

theorem Canonical.append {i kind mb : Nat} {body : Payload} (hs : Canonical s) : Canonical (s.append i kind mb body) := by
  unfold State.append
  split
  · exact hs
  · next x he =>
    have hx := hs.context _ he
    have hset := hs.setContext (i := i) (x := { x with arrivals := x.arrivals ++ [(kind, mb, body)] }) hx
    extract_lets u
    split
    · exact hset.setPad (Memory.wf_wrBytes _ _ _ hset.pad)
    · exact hset

theorem Canonical.onReply {c fid code : Nat} {act : State → Nat → FaultRec → Option Nat → State} (hs : Canonical s)
    (hact : ∀ {t : State} {n : Nat} {x : FaultRec} {x' : Option Nat}, Canonical t → Canonical (act t n x x')) : Canonical
      (s.onReply c fid code act) := by
  unfold State.onReply
  split
  · exact (hs.foldl (fun ht => ht.modCoreAt (fun hu => hu.takeReply))).count
  · split
    · exact hs
    · refine .ite (.ite hs ?_) (hact (hs.modCoreAt (fun ht => ht.takeReply)))
      split
      · exact .ite hs.keep hs.append
      · exact hs.keep

theorem Canonical.retryAcc {id : Nat} (hs : Canonical s) : Canonical (s.retryAcc id) := by
  unfold State.retryAcc
  split
  · split
    · exact hs.sameMem.post
    · exact hs
  · exact hs.sameMem.post

theorem Canonical.clearCopyFault {p copy state : Nat} (hs : Canonical s) : Canonical (s.clearCopyFault p copy state) :=
  hs.modCoreAt (fun ht => ht.same)

theorem Canonical.resumeFault {p : Nat} {f : FaultRec} {copy : Option Nat} (hs : Canonical s) : Canonical (s.resumeFault p f copy) := by
  unfold State.resumeFault
  split
  · exact hs.clearCopyFault.post
  · exact hs.modThread.retryAcc
  · exact hs

theorem Canonical.execFaultReplyResume (hs : Canonical s) : CanonicalOut (Machine.execFaultReplyResume s) := by
  unfold Machine.execFaultReplyResume
  split
  · exact .next (hs.onReply (fun ht => ht.resumeFault))
  · exact .next hs

theorem Canonical.execFaultReplyRetryLater (hs : Canonical s) : CanonicalOut (Machine.execFaultReplyRetryLater s) := by
  unfold Machine.execFaultReplyRetryLater
  split
  · exact .next (hs.onReply (fun ht => ht))
  · exact .next hs

theorem Canonical.killAcc {f : FaultRec} {id : Nat} (hs : Canonical s) : Canonical (s.killAcc f id) := by
  unfold State.killAcc
  dsimp only
  split
  · exact .ite hs.modThread.sameMem.answer hs.modThread
  · split
    · exact .ite hs.modThread.modThread hs.modThread.sameMem.answer
    · exact hs.modThread.sameMem.answer
    · exact (hs.modThread.modCoreOf (fun ht => ht.same)).modThread
    · exact hs.modThread.failFill.modThread
    · exact hs.modThread.modThread

theorem Canonical.killCopy {p copy : Nat} (hs : Canonical s) : Canonical (s.killCopy p copy) := by
  unfold State.killCopy
  dsimp only
  split
  · exact hs.clearCopyFault.modCoreAt (fun ht => ht.same)
  · exact (hs.clearCopyFault.modCoreAt (fun ht => ht.same)).post

theorem Canonical.execFaultReplyKill (hs : Canonical s) : CanonicalOut (Machine.execFaultReplyKill s) := by
  unfold Machine.execFaultReplyKill
  split
  · refine .next (.onReply hs (fun ht => ?_))
    split
    · exact ht.killCopy
    · exact ht.killAcc
    · exact ht
  · exact .next hs

/-! ### The overflow handler (R171) -/

theorem Canonical.dropInClusters {sp line : Nat} {l : List Nat} (hs : Canonical s) : Canonical (s.dropInClusters sp line l) :=
  hs.dropL0

theorem Canonical.clearOverflowBit {h : Nat} {key : Nat × Nat × Nat} {cls : List Nat} (hs : Canonical s) :
    Canonical (s.clearOverflowBit h key cls) :=
  hs.modHome

theorem Canonical.overflowNote {h : Nat} {key : Nat × Nat × Nat} {cl : Nat} (hs : Canonical s) : Canonical (s.overflowNote h key cl) := by
  unfold State.overflowNote
  refine .ite (hs.modCore (fun ht => ht.same)) (.modCore ?_ (fun ht => ht.same))
  split
  · exact .ite (hs.modCore (fun ht => ht.same)).dropInClusters.clearOverflowBit hs
  · exact hs

theorem Canonical.execOverflowMessage (hs : Canonical s) : CanonicalOut (Machine.execOverflowMessage s) := by
  unfold Machine.execOverflowMessage
  split
  · exact .next hs.overflowNote
  · exact .next hs

theorem Canonical.execOverflowRecall (hs : Canonical s) : CanonicalOut (Machine.execOverflowRecall s) := by
  unfold Machine.execOverflowRecall
  split
  · refine .next ?_
    split
    · exact hs
    · exact (hs.dropInClusters.modCore (fun ht => ht.same)).post
  · exact .next hs

theorem Canonical.execOverflowRecallAnswer (hs : Canonical s) : CanonicalOut (Machine.execOverflowRecallAnswer s) := by
  unfold Machine.execOverflowRecallAnswer
  split
  · refine .next ?_
    split
    · exact hs
    · exact hs.clearOverflowBit.sliceRequest
  · exact .next hs

/-! ### Power of a slice (R166) -/

theorem Canonical.execSliceGate (hs : Canonical s) : CanonicalOut (Machine.execSliceGate s) := by
  unfold Machine.execSliceGate
  split
  · exact .next (.ite hs (hs.foldl (fun ht => ht.cleanLine.dropLine)).modHome)
  · exact .next hs

theorem Canonical.execSliceWake (hs : Canonical s) : CanonicalOut (Machine.execSliceWake s) := by
  unfold Machine.execSliceWake
  split
  · exact .next (.ite hs hs.modHome.post)
  · exact .next hs

theorem Canonical.execSliceWakeComplete (hs : Canonical s) : CanonicalOut (Machine.execSliceWakeComplete s) := by
  unfold Machine.execSliceWakeComplete
  split
  · exact .next (hs.wakeNow.modHome.foldl (fun ht => ht.post))
  · exact .next hs

/-! ### The tree of R217 -/

theorem Canonical.rootStart (hs : Canonical s) : Canonical s.rootStart := by
  unfold State.rootStart
  split
  · exact hs
  · exact hs.modFront.foldl (fun ht => ht.post)
  · exact hs.modFront.foldl (fun ht => ht.post)

theorem Canonical.rootPush {r : RootOp} (hs : Canonical s) : Canonical (s.rootPush r) :=
  .ite hs.modFront.rootStart hs.modFront

theorem Canonical.rootAck {c : Nat} (hs : Canonical s) : Canonical (s.rootAck c).2 := by
  unfold State.rootAck
  dsimp only
  exact hs.modFront

theorem Canonical.rootNext (hs : Canonical s) : Canonical s.rootNext :=
  hs.modFront.rootStart

theorem Canonical.execShootdownDataRange (hs : Canonical s) : CanonicalOut (Machine.execShootdownDataRange s) := by
  unfold Machine.execShootdownDataRange
  split
  · exact .next hs.rootPush
  · exact .next hs

theorem Canonical.execShootdownDataSpace (hs : Canonical s) : CanonicalOut (Machine.execShootdownDataSpace s) := by
  unfold Machine.execShootdownDataSpace
  split
  · exact .next hs.rootPush
  · exact .next hs

theorem Canonical.execShootdownInstructionRange (hs : Canonical s) : CanonicalOut (Machine.execShootdownInstructionRange s) := by
  unfold Machine.execShootdownInstructionRange
  split
  · exact .next hs.rootPush
  · exact .next hs

theorem Canonical.execShootdownInstructionProgram (hs : Canonical s) : CanonicalOut (Machine.execShootdownInstructionProgram s) := by
  unfold Machine.execShootdownInstructionProgram
  split
  · exact .next hs.rootPush
  · exact .next hs

theorem Canonical.execShootdownEverything (hs : Canonical s) : CanonicalOut (Machine.execShootdownEverything s) := by
  unfold Machine.execShootdownEverything
  split
  · exact .next hs.rootPush
  · exact .next hs

theorem Canonical.shootNode {r : Shoot} {c : Nat} (hs : Canonical s) : Canonical (s.shootNode r c) := by
  have hlines : Canonical (if r.keep then s.modHome c fun x => { x with tlb := x.tlb.filter fun t => !(shootNamesData r t.space t.page t.size) }
    else
      (((s.modHome c fun x => { x with tlb := x.tlb.filter fun t => !(shootNamesData r t.space t.page t.size) }).home c).lines.filter fun l =>
        !l.instr && shootNamesData r l.space (64 * l.line) 64).foldl (fun s l => (s.cleanLine c l).dropLine c l)
        (s.modHome c fun x => { x with tlb := x.tlb.filter fun t => !(shootNamesData r t.space t.page t.size) })) :=
    .ite hs.modHome (.foldl hs.modHome fun h => h.cleanLine.dropLine)
  have hnode := Canonical.ite (c := (32 ≤ c || (s.home c).power = .gated) = true) hs
    (.ite (c := r.kind < 2) hlines (hlines.modHome (h := c) (f := fun x => { x with lines := x.lines.filter fun l => !l.instr })))
  refine .ite hnode (.replace hnode (cores := fun h => forall_map h fun k hk => ?_))
  split
  · exact hk.same
  · exact hk

theorem Canonical.execShootdownNode (hs : Canonical s) : CanonicalOut (Machine.execShootdownNode s) := by
  unfold Machine.execShootdownNode
  split
  · refine .next ?_
    split
    · exact .ite (Canonical.ite hs.shootNode.modFront hs.shootNode).rootAck.post (Canonical.ite hs.shootNode.modFront hs.shootNode).rootAck
    · exact hs
  · exact .next hs

theorem Canonical.execShootdownCompletion (hs : Canonical s) : CanonicalOut (Machine.execShootdownCompletion s) := by
  unfold Machine.execShootdownCompletion
  split
  · refine .next ?_
    split
    · exact hs.mailFrom.rootNext
    · exact hs
  · exact .next hs

/-! ### Region updates (R373) -/

theorem Canonical.regionNode {c : Nat} {q : RegionReq} (hs : Canonical s) : Canonical (s.regionNode c q) :=
  .ite hs.modHome (.ite hs hs.modHome)

theorem Canonical.answerRegion {id : Nat} {q : RegionReq} {v : Word} (hs : Canonical s) : Canonical (s.answerRegion id q v) :=
  hs.sameMem

theorem Canonical.execRegionTableUpdate (hs : Canonical s) : CanonicalOut (Machine.execRegionTableUpdate s) := by
  unfold Machine.execRegionTableUpdate
  split
  · refine .next ?_
    split
    · exact hs
    · exact .ite hs.rootPush (.ite (.ite hs.answerRegion hs.modHome.answerRegion)
        (.ite hs.modFront.unpost.answerRegion.rootNext (.ite hs.regionNode.rootAck.answerRegion.rootNext hs.regionNode.rootAck)))
  · exact .next hs

/-! ### Peer translations (R219) -/

theorem Canonical.sayPeer {m : PeerMsg} (hs : Canonical s) : Canonical (s.sayPeer m) :=
  hs.modFront

theorem Canonical.lendPeer {id sp off : Nat} (hs : Canonical s) : Canonical (s.lendPeer id sp off) := by
  unfold State.lendPeer
  refine .ite hs.sayPeer ?_
  split
  · exact hs.sayPeer
  · exact hs.orEntry.modFront.sayPeer

theorem Canonical.wrFrame {t : Tlb} {ea : Nat} {d : List Byte} {m : List Bool} (hs : Canonical s) : Canonical (s.wrFrame t ea d m) :=
  .ite hs.pokeDram hs.pokeDram.pokeDram

theorem Canonical.servePeer {id sp off n : Nat} {op : MemOp} (hs : Canonical s) : Canonical (s.servePeer id sp off n op) := by
  unfold State.servePeer
  split
  · exact hs.sayPeer
  · refine .ite hs.sayPeer (.sayPeer ?_)
    split
    · refine .ite (.wrAt ?_) (.wrFrame ?_)
      · split
        · exact hs.rdAt
        · exact hs
      · split
        · exact hs.rdAt
        · exact hs
    · split
      · exact hs.rdAt
      · exact hs

theorem Canonical.execPeerTranslationRequest (hs : Canonical s) : CanonicalOut (Machine.execPeerTranslationRequest s) := by
  unfold Machine.execPeerTranslationRequest
  split
  · refine .next (.ite hs.awaitWake ?_)
    split
    · exact hs.lendPeer
    · exact hs.servePeer
  · exact .next hs

theorem Canonical.takeLease {sp ea : Nat} {rd wr : Bool} {size : Nat} (hs : Canonical s) : Canonical (s.takeLease sp ea rd wr size) :=
  hs.modHome.postAt

theorem Canonical.execPeerTranslationReply (hs : Canonical s) : CanonicalOut (Machine.execPeerTranslationReply s) := by
  unfold Machine.execPeerTranslationReply
  split
  · refine .next ?_
    split
    · exact hs
    · split
      · exact hs.failAcc
      · exact hs.takeLease.sliceRequest
  · exact .next hs

theorem Canonical.execLeaseExpiry (hs : Canonical s) : CanonicalOut (Machine.execLeaseExpiry s) := by
  unfold Machine.execLeaseExpiry
  split
  · exact .next hs.modHome
  · exact .next hs

/-! ### Values of the CSRs -/

theorem Canonical.flushTranslations (hs : Canonical s) : Canonical s.flushTranslations :=
  hs.replace (issuing := fun h => h.same) (cores := fun h => forall_map h fun k hk => hk.same)

theorem Canonical.setCsr {n : Nat} {w : Word} (hs : Canonical s) : Canonical (s.setCsr n w) := by
  unfold State.setCsr
  split
  · exact hs.sameMem
  · exact hs.sameMem
  · exact hs.sameMem
  · exact hs.sameMem
  · exact hs.sameMem
  · exact hs.sameMem
  · exact hs.sameMem
  · exact hs.sameMem
  · exact hs.sameMem
  · exact hs.sameMem.flushTranslations
  · exact hs.sameMem.flushTranslations
  · exact .ite hs.sameMem (.ite hs.sameMem hs)

/-! ### Checks and waits -/

theorem Canonical.csrWrite {n : Nat} {w : Word → Word} (hs : Canonical s) : CanonicalRes (Machine.csrWrite s n w) := by
  unfold Machine.csrWrite
  dsimp only
  split
  · exact .trapR
  · exact .ok hs
  · refine .ite (.wait hs) ?_
    split
    · exact .trapR
    · exact .ok hs.setCsr

theorem Canonical.execCsrr {d : BitVec 5} {csr : BitVec 12} (hs : Canonical s) : CanonicalOut (Machine.execCsrr d csr s) := by
  unfold Machine.execCsrr
  refine Canonical.finish hs ?_
  split
  · exact .trapR
  · exact .ite (.wait hs) (.ok hs.setX)

theorem Canonical.execCsrw {d : BitVec 5} {csr : BitVec 12} (hs : Canonical s) : CanonicalOut (Machine.execCsrw d csr s) :=
  hs.finish hs.csrWrite

theorem Canonical.execCsrs {d : BitVec 5} {csr : BitVec 12} (hs : Canonical s) : CanonicalOut (Machine.execCsrs d csr s) :=
  hs.finish hs.csrWrite

theorem Canonical.execCsrc {d : BitVec 5} {csr : BitVec 12} (hs : Canonical s) : CanonicalOut (Machine.execCsrc d csr s) :=
  hs.finish hs.csrWrite

/-! ### Traps, return, halt -/

theorem Canonical.execTrap {a : BitVec 5} (hs : Canonical s) : CanonicalOut (Machine.execTrap a s) :=
  Canonical.finish hs .trap

theorem Canonical.execTrapBrk {a : BitVec 5} (hs : Canonical s) : CanonicalOut (Machine.execTrapBrk a s) :=
  Canonical.finish hs .trap

theorem Canonical.execTret (hs : Canonical s) : CanonicalOut (Machine.execTret s) := by
  unfold Machine.execTret
  refine Canonical.finish hs ?_
  split
  · exact .trapR
  · exact hs.transfer (fun ht => ht.leaveTrap)

theorem Canonical.execHalt (hs : Canonical s) : CanonicalOut (Machine.execHalt s) :=
  Canonical.finish hs (.ite .trapR (.ok (.ite (hs.sameMem.modCore (fun ht => ht.same)) hs.sameMem)))

/-! ### Time and alarms -/

theorem Canonical.execTime {d : BitVec 5} (hs : Canonical s) : CanonicalOut (Machine.execTime d s) :=
  hs.writeLater

theorem Canonical.execTalarm {d a b : BitVec 5} (hs : Canonical s) : CanonicalOut (Machine.execTalarm d a b s) :=
  .ite (Canonical.finish hs (.ok hs.sameMem.unpost.setX)) (.ite hs.writeX (Canonical.finish hs (.ok hs.sameMem.unpost.postAt.setX)))

end Sys2Proof.Claims
end

section
/-! SUPPORT. The canonical form of every memory through the issue of vector words, stream state records, and the matrix engine. -/

namespace Sys2Proof.Claims

open Sys2Proof.Machine

set_option Elab.async false

variable {s : State}

/-! ### Checks at issue (R242) -/

theorem Canonical.enqueue {i : Instr} {ops : List Word} (hs : Canonical s) : Canonical (s.enqueue i ops) :=
  .ite (.ite (hs.fresh.replace (issuing := fun _ => hs.fresh.issuing.bodyWord)) hs.sameMem)
    (.onModule (.ite (hs.fresh.replace (issuing := fun _ => hs.fresh.issuing.bodyWord)) hs.sameMem) (fun ht => ht.drain))

theorem Canonical.vecChecked {i : Instr} {k : State → Res} (hs : Canonical s) (hk : ∀ {t : State}, Canonical t → CanonicalRes (k t)) :
    CanonicalRes (s.vecChecked i k) := by
  unfold State.vecChecked
  refine .ite .trapR (.ite (hk hs) ?_)
  split
  · exact .trapR
  · split
    · exact .trapOpen
    · exact .trapR
    · exact hk hs

theorem Canonical.vec {i : Instr} {ops : List Word} (hs : Canonical s) : CanonicalOut (Machine.vec i ops s) :=
  Canonical.finish hs (Canonical.vecChecked hs (fun ht => .ite (.ok ht.enqueue) (.wait ht)))

/-! ### VINT, VFP, VSPEC, conversions, reductions, permutations, moves -/

theorem Canonical.execVadd {d a b : BitVec 5} (hs : Canonical s) : CanonicalOut (Machine.execVadd d a b s) :=
  hs.vec

theorem Canonical.execVsub {d a b : BitVec 5} (hs : Canonical s) : CanonicalOut (Machine.execVsub d a b s) :=
  hs.vec

theorem Canonical.execVmul {d a b : BitVec 5} (hs : Canonical s) : CanonicalOut (Machine.execVmul d a b s) :=
  hs.vec

theorem Canonical.execVmin {d a b : BitVec 5} (hs : Canonical s) : CanonicalOut (Machine.execVmin d a b s) :=
  hs.vec

theorem Canonical.execVmax {d a b : BitVec 5} (hs : Canonical s) : CanonicalOut (Machine.execVmax d a b s) :=
  hs.vec

theorem Canonical.execVand {d a b : BitVec 5} (hs : Canonical s) : CanonicalOut (Machine.execVand d a b s) :=
  hs.vec

theorem Canonical.execVor {d a b : BitVec 5} (hs : Canonical s) : CanonicalOut (Machine.execVor d a b s) :=
  hs.vec

theorem Canonical.execVxor {d a b : BitVec 5} (hs : Canonical s) : CanonicalOut (Machine.execVxor d a b s) :=
  hs.vec

theorem Canonical.execVshl {d a b : BitVec 5} (hs : Canonical s) : CanonicalOut (Machine.execVshl d a b s) :=
  hs.vec

theorem Canonical.execVshr {d a b : BitVec 5} (hs : Canonical s) : CanonicalOut (Machine.execVshr d a b s) :=
  hs.vec

theorem Canonical.execVsra {d a b : BitVec 5} (hs : Canonical s) : CanonicalOut (Machine.execVsra d a b s) :=
  hs.vec

theorem Canonical.execVfadd {d a b : BitVec 5} (hs : Canonical s) : CanonicalOut (Machine.execVfadd d a b s) :=
  hs.vec

theorem Canonical.execVfsub {d a b : BitVec 5} (hs : Canonical s) : CanonicalOut (Machine.execVfsub d a b s) :=
  hs.vec

theorem Canonical.execVfmul {d a b : BitVec 5} (hs : Canonical s) : CanonicalOut (Machine.execVfmul d a b s) :=
  hs.vec

theorem Canonical.execVfma {d a b : BitVec 5} (hs : Canonical s) : CanonicalOut (Machine.execVfma d a b s) :=
  hs.vec

theorem Canonical.execVfmin {d a b : BitVec 5} (hs : Canonical s) : CanonicalOut (Machine.execVfmin d a b s) :=
  hs.vec

theorem Canonical.execVfmax {d a b : BitVec 5} (hs : Canonical s) : CanonicalOut (Machine.execVfmax d a b s) :=
  hs.vec

theorem Canonical.execVfabs {d a : BitVec 5} (hs : Canonical s) : CanonicalOut (Machine.execVfabs d a s) :=
  hs.vec

theorem Canonical.execVfneg {d a : BitVec 5} (hs : Canonical s) : CanonicalOut (Machine.execVfneg d a s) :=
  hs.vec

theorem Canonical.execVrcp {d a : BitVec 5} (hs : Canonical s) : CanonicalOut (Machine.execVrcp d a s) :=
  hs.vec

theorem Canonical.execVrsq {d a : BitVec 5} (hs : Canonical s) : CanonicalOut (Machine.execVrsq d a s) :=
  hs.vec

theorem Canonical.execVsqrt {d a : BitVec 5} (hs : Canonical s) : CanonicalOut (Machine.execVsqrt d a s) :=
  hs.vec

theorem Canonical.execVexp2 {d a : BitVec 5} (hs : Canonical s) : CanonicalOut (Machine.execVexp2 d a s) :=
  hs.vec

theorem Canonical.execVlog2 {d a : BitVec 5} (hs : Canonical s) : CanonicalOut (Machine.execVlog2 d a s) :=
  hs.vec

theorem Canonical.execVdiv {d a b : BitVec 5} (hs : Canonical s) : CanonicalOut (Machine.execVdiv d a b s) :=
  hs.vec

theorem Canonical.execVcvt {d a b : BitVec 5} (hs : Canonical s) : CanonicalOut (Machine.execVcvt d a b s) :=
  hs.vec

theorem Canonical.execVcvts {d a b : BitVec 5} (hs : Canonical s) : CanonicalOut (Machine.execVcvts d a b s) :=
  hs.vec

theorem Canonical.execVqnt {d a b : BitVec 5} (hs : Canonical s) : CanonicalOut (Machine.execVqnt d a b s) :=
  hs.vec

theorem Canonical.execVrsum {d a b : BitVec 5} (hs : Canonical s) : CanonicalOut (Machine.execVrsum d a b s) :=
  hs.vec

theorem Canonical.execVrmax {d a b : BitVec 5} (hs : Canonical s) : CanonicalOut (Machine.execVrmax d a b s) :=
  hs.vec

theorem Canonical.execVrmin {d a b : BitVec 5} (hs : Canonical s) : CanonicalOut (Machine.execVrmin d a b s) :=
  hs.vec

theorem Canonical.execVshuf {d a b : BitVec 5} (hs : Canonical s) : CanonicalOut (Machine.execVshuf d a b s) :=
  hs.vec

theorem Canonical.execVbcast {d a b : BitVec 5} (hs : Canonical s) : CanonicalOut (Machine.execVbcast d a b s) :=
  hs.vec

theorem Canonical.execVext {d a b : BitVec 5} (hs : Canonical s) : CanonicalOut (Machine.execVext d a b s) :=
  .ite (Canonical.finish hs .trapR) hs.vec

theorem Canonical.execVins {d a b : BitVec 5} (hs : Canonical s) : CanonicalOut (Machine.execVins d a b s) :=
  hs.vec

theorem Canonical.execVcmp {d a b : BitVec 5} (hs : Canonical s) : CanonicalOut (Machine.execVcmp d a b s) :=
  hs.vec

theorem Canonical.execVsel {d a b : BitVec 5} (hs : Canonical s) : CanonicalOut (Machine.execVsel d a b s) :=
  hs.vec

theorem Canonical.execVmovx {d a b : BitVec 5} (hs : Canonical s) : CanonicalOut (Machine.execVmovx d a b s) :=
  hs.vec

theorem Canonical.execVmovv {d a : BitVec 5} (hs : Canonical s) : CanonicalOut (Machine.execVmovv d a s) :=
  hs.vec

theorem Canonical.execVsplat {d a : BitVec 5} (hs : Canonical s) : CanonicalOut (Machine.execVsplat d a s) :=
  hs.vec

/-! ### Recurrences (R264) -/

theorem Canonical.recWord {i : Instr} {b : BitVec 5} (hs : Canonical s) : CanonicalOut (Machine.recWord i b s) :=
  Canonical.finish hs (Canonical.vecChecked hs (fun ht => .ite .trapR (.ite (.wait ht) (.ite .trapR (.ite (.ok ht.enqueue) (.wait ht))))))

theorem Canonical.execVrec {d a b : BitVec 5} (hs : Canonical s) : CanonicalOut (Machine.execVrec d a b s) :=
  hs.recWord

theorem Canonical.execVema {d b : BitVec 5} (hs : Canonical s) : CanonicalOut (Machine.execVema d b s) :=
  hs.recWord

/-! ### VLOOP (R247) -/

theorem Canonical.execVloop {d a : BitVec 5} (hs : Canonical s) : CanonicalOut (Machine.execVloop d a s) :=
  Canonical.finish hs (.ite .trapR (.ite .trapR (.ite (.wait hs) (.ok hs.sameMem))))

/-! ### Vector loads and stores (R191) -/

theorem Canonical.vecMem {i : Instr} {store : Bool} {eas : List Nat} {n : Nat} {ops : List Word} {upd : State → State} {s : State}
    (hupd : ∀ {t : State}, Canonical t → Canonical (upd t)) (hs : Canonical s) : CanonicalOut (Machine.vecMem i store eas n ops upd s) := by
  unfold Machine.vecMem
  refine Canonical.finish hs (.ite (.ite (Canonical.request hs (fun ht => .ok (hupd ht).enqueue)) (.wait hs))
    (.ite .trapOpen (Canonical.vecChecked hs (fun ht => ?_))))
  split
  · exact .trapR
  · refine .ite (.wait ht) ?_
    split
    · exact .ok (hupd ht).enqueue
    · exact Canonical.request ht (fun hu => .ok (hupd hu).enqueue)

theorem Canonical.execVld {d a : BitVec 5} {off : BitVec 7} (hs : Canonical s) : CanonicalOut (Machine.execVld d a off s) :=
  Canonical.vecMem (fun ht => ht) hs

theorem Canonical.execVldb {d a : BitVec 5} {off : BitVec 7} (hs : Canonical s) : CanonicalOut (Machine.execVldb d a off s) :=
  Canonical.vecMem (fun ht => ht) hs

theorem Canonical.execVlds {d a b : BitVec 5} (hs : Canonical s) : CanonicalOut (Machine.execVlds d a b s) :=
  Canonical.vecMem (fun ht => ht) hs

theorem Canonical.execVldsPi {d a b : BitVec 5} (hs : Canonical s) : CanonicalOut (Machine.execVldsPi d a b s) :=
  Canonical.vecMem (fun ht => ht.setX) hs

theorem Canonical.execVst {d a : BitVec 5} {off : BitVec 7} (hs : Canonical s) : CanonicalOut (Machine.execVst d a off s) :=
  Canonical.vecMem (fun ht => ht) hs

theorem Canonical.execVstm {d a b : BitVec 5} (hs : Canonical s) : CanonicalOut (Machine.execVstm d a b s) :=
  Canonical.vecMem (fun ht => ht) hs

/-! ### Stream state records away from the core (R265, R266) -/

theorem Canonical.recMove {a b : BitVec 5} {s : State} {k : Nat → Nat → Route → Res} (hs : Canonical s)
    (hk : ∀ {m n : Nat} {r : Route}, CanonicalRes (k m n r)) : CanonicalRes (Machine.recMove a b s k) := by
  unfold Machine.recMove
  refine .ite hk (.ite .trapR (.ite .trapR ?_))
  split
  · exact .trapR
  · exact .ite (.wait hs) hk

theorem Canonical.execSsrim {d a b : BitVec 5} (hs : Canonical s) : CanonicalOut (Machine.execSsrim d a b s) := by
  unfold Machine.execSsrim
  refine Canonical.finish hs (Canonical.recMove hs (.ite (.ok hs.setX) ?_))
  split
  · exact .ite (.ok hs.atOwn.setX) (.ite (.ok hs.atOwn.setX) (Canonical.logged hs.atOwn (.ok hs.atOwn.wrOwn.setX)))
  · exact .ite (.ok hs.atOwn.setX) (.ite (.ok hs.atOwn.setX) (Canonical.logged hs.atOwn (.ok hs.atOwn.wrOwn.setX)))
  · exact Canonical.request hs (fun ht => .ite (.ok ht.setX) (.ite (.ok ht.setX) (Canonical.logged ht (.ok ht.wrOwn.setX))))

theorem Canonical.execSsrex {d a b : BitVec 5} (hs : Canonical s) : CanonicalOut (Machine.execSsrex d a b s) := by
  unfold Machine.execSsrex
  refine Canonical.finish hs (Canonical.recMove hs (Canonical.release hs (fun ht => .ite (.ok ht.setX) ?_)))
  split
  · exact Canonical.logged ht.atOwn (.ok ht.atOwn.wrOwn.setX)
  · exact Canonical.logged ht.atOwn (.ok ht.atOwn.wrOwn.setX)
  · exact Canonical.request ht (fun hu => Canonical.logged hu (.ok hu.wrOwn.setX))

/-! ### MCONF (R355) -/

theorem Canonical.setMconf {lo n x : Nat} (hs : Canonical s) : Canonical (s.setMconf lo n x) :=
  hs.sameMem

/-! ### The coprocessor queue (R15, R353, R354) -/

theorem Canonical.engine {n : Nat} {k : State → Res} (hs : Canonical s) (hk : ∀ {t : State}, Canonical t → CanonicalRes (k t)) :
    CanonicalRes (s.engine n k) :=
  .ite (.wait hs) (hs.logged (hk hs.sameMem))

/-! ### Tiles -/

theorem Canonical.setTile {t img : Nat} (hs : Canonical s) : Canonical (s.setTile t img) := by
  have hstored := CanonicalPair.tileStore (cid := s.cid) (t := t) (a := 0) (data := toBytes 256 img) (k := (s.co, s.pad (clusterOf s.cid)))
    ⟨hs.issuing, hs.pad⟩
  exact .ite (.setPad (hs.replace (issuing := fun _ => hstored.core)) hstored.log) (hs.replace (issuing := fun _ => hstored.core))

theorem Canonical.mapTile {t : Nat} {f : Nat → Nat → Nat → Flagged} (hs : Canonical s) : Canonical (s.mapTile t f).1 :=
  hs.setTile

theorem Canonical.flagTile {r : State × Flags} (hr : Canonical r.1) : Canonical (State.flagTile r) :=
  hr.sameMem

theorem Canonical.mirrorCheck (hs : Canonical s) : Canonical s.mirrorCheck :=
  .ite hs (.ite hs.drawn (.ite hs.sameMem.markReplay hs.sameMem))

theorem Canonical.stepWith {t : Nat} {img : Mem} {aval : Nat → Nat → Machine.Num} (hs : Canonical s) : Canonical (s.stepWith t img aval) :=
  hs.mapTile.flagTile.mirrorCheck

theorem Canonical.stepSlot {t w : Nat} (hs : Canonical s) : Canonical (s.stepSlot t w) :=
  .ite hs.stepWith hs.setMconf

/-! ### MCFG, MLDA, MLDB -/

theorem Canonical.sendCredit {isA : Bool} (hs : Canonical s) : Canonical (s.sendCredit isA) :=
  hs.post

theorem Canonical.wakeLinks {c : Nat} (hs : Canonical s) : Canonical (s.wakeLinks c) :=
  .ite hs (hs.setCore hs.core.same)

theorem Canonical.execMcfg {a : BitVec 4} (hs : Canonical s) : CanonicalOut (Machine.execMcfg a s) :=
  Canonical.finish hs (.ite .trapR (Canonical.engine hs (fun ht => .ok
    ((Canonical.ite (Canonical.ite ht.sendCredit ht).sendCredit (.ite ht.sendCredit ht)).sameMem.onModule (fun hu => hu.wakeLinks)))))

theorem Canonical.execMlda {a : BitVec 4} (hs : Canonical s) : CanonicalOut (Machine.execMlda a s) := by
  unfold Machine.execMlda
  refine Canonical.finish hs (.ite .trapR ?_)
  split
  · exact .trapR
  · exact .ite .trapR (.ite (.wait hs) (Canonical.engine hs (fun ht => .ok ht.sameMem.setMconf)))

theorem Canonical.execMldb {a : BitVec 4} {w : BitVec 6} (hs : Canonical s) : CanonicalOut (Machine.execMldb a w s) := by
  unfold Machine.execMldb
  refine Canonical.finish hs (.ite .trapR ?_)
  split
  · exact .trapR
  · exact .ite .trapR (.ite (.wait hs) (.ite (.wait hs) (.ite (Canonical.engine hs (fun ht => .ok (.ite ht.sameMem.post ht.sameMem.emitOwn)))
      (Canonical.request hs (fun ht => Canonical.engine ht (fun hu => .ok (.ite hu.sameMem.post hu.sameMem.emitOwn)))))))

theorem Canonical.execSlotFillComplete (hs : Canonical s) : CanonicalOut (Machine.execSlotFillComplete s) := by
  unfold Machine.execSlotFillComplete
  split
  · refine .next ?_
    split
    · exact hs
    · exact hs.sameMem.modCore (fun ht => ht.same)
  · exact .next hs

/-! ### MMA, MMAS -/

theorem Canonical.mma {sparse : Bool} {t w : BitVec 6} (hs : Canonical s) : CanonicalOut (Machine.mma sparse t w s) :=
  Canonical.finish hs (.ite .trapR (.ite (.wait hs) (Canonical.engine hs (fun ht => .ok ht.stepSlot))))

theorem Canonical.execMma {t w : BitVec 6} (hs : Canonical s) : CanonicalOut (Machine.execMma t w s) :=
  hs.mma

theorem Canonical.execMmas {t w : BitVec 6} (hs : Canonical s) : CanonicalOut (Machine.execMmas t w s) :=
  hs.mma

/-! ### MROT (R364, R365) -/

theorem Canonical.takeLanding {w : Nat} (hs : Canonical s) : Canonical (s.takeLanding w) :=
  (Canonical.ite (hs.foldl (fun ht => ht.wrOwn)) hs).sameMem.setMconf.setMconf.sendCredit.sendCredit

theorem Canonical.rotate {t w : Nat} (hs : Canonical s) : Canonical (s.rotate t w) :=
  (Canonical.ite hs.takeLanding hs).stepSlot.post.post.setMconf.setMconf.setMconf

theorem Canonical.execMrot {t w : BitVec 6} (hs : Canonical s) : CanonicalOut (Machine.execMrot t w s) := by
  unfold Machine.execMrot
  refine Canonical.finish hs (.ite (.ite .trapR ?_) ?_)
  · split
    · exact .wait (.ite hs.block hs.blockWord')
    · exact .ite (.wait hs) (Canonical.engine hs (fun ht => .ok ht.dropPending.rotate))
  · split
    · exact .trapR
    · split
      · exact .trapR
      · refine .ite .trapR ?_
        split
        · exact .wait (.ite hs.block hs.blockWord')
        · exact .ite (.wait hs) (Canonical.engine hs (fun ht => .ok ht.dropPending.rotate))

theorem Canonical.execRotationDataArrival (hs : Canonical s) : CanonicalOut (Machine.execRotationDataArrival s) := by
  unfold Machine.execRotationDataArrival
  split
  · exact .next (.ite hs (hs.setCore hs.core.same).wakeLinks)
  · exact .next hs

theorem Canonical.execRotationCreditArrival (hs : Canonical s) : CanonicalOut (Machine.execRotationCreditArrival s) := by
  unfold Machine.execRotationCreditArrival
  split
  · exact .next (.ite hs (hs.setCore hs.core.same).wakeLinks)
  · exact .next hs

theorem Canonical.breakRotation {c : Nat} {progs : List Nat} (hs : Canonical s) : Canonical (s.breakRotation c progs) :=
  .ite hs ((hs.modCore (fun ht => ht.same)).wakeLinks.foldl (fun ht => .ite (ht.modCore (fun hu => hu.same)).wakeLinks ht))

/-! ### MZERO, MST, MSCALE, MRED, MCHK -/

theorem Canonical.execMzero {t : BitVec 6} (hs : Canonical s) : CanonicalOut (Machine.execMzero t s) :=
  Canonical.finish hs (Canonical.engine hs (fun ht => .ok ht.setTile))

theorem Canonical.execMst {t : BitVec 6} {a w : BitVec 4} (hs : Canonical s) : CanonicalOut (Machine.execMst t a w s) := by
  refine hs.finish (.ite .trapR ?_)
  split
  · exact .trapR
  · exact .ite .trapR (.ite (.wait hs) (hs.engine fun ht => .ok (.flagTile (.foldlFst ht fun hr => hr.wrOwn))))

theorem Canonical.execMscale {t : BitVec 6} {w : BitVec 5} (hs : Canonical s) : CanonicalOut (Machine.execMscale t w s) :=
  Canonical.finish hs (.ite .trapR (.ite .trapOpen (.ite .trapOpen (.ite (.wait hs) (Canonical.engine hs (fun ht => .ok ht.mapTile.flagTile))))))

theorem Canonical.mred {sum : Bool} {t : BitVec 6} {w : BitVec 5} (hs : Canonical s) : CanonicalOut (Machine.mred sum t w s) :=
  Canonical.finish hs (.ite .trapR (.ite .trapOpen (.ite (.wait hs) (Canonical.engine hs (fun ht => .ok ht.sameMem.flagTile)))))

theorem Canonical.execMredMax {t : BitVec 6} {w : BitVec 5} (hs : Canonical s) : CanonicalOut (Machine.execMredMax t w s) :=
  hs.mred

theorem Canonical.execMredSum {t : BitVec 6} {w : BitVec 5} (hs : Canonical s) : CanonicalOut (Machine.execMredSum t w s) :=
  hs.mred

theorem Canonical.execMchk {a : BitVec 4} (hs : Canonical s) : CanonicalOut (Machine.execMchk a s) := by
  unfold Machine.execMchk
  refine Canonical.finish hs ?_
  split
  · exact .trapR
  · exact .ite (.wait hs) (Canonical.engine hs (fun ht => .ok ht.sameMem.wrOwn))

end Sys2Proof.Claims
end

section
/-! SUPPORT. The canonical form of every memory through messages, mailboxes, and the copy engine with its instructions. -/

namespace Sys2Proof.Claims

open Sys2Proof.Machine

set_option Elab.async false

variable {s : State}

/-! ### Mailboxes (R271, R273) -/

theorem CanonicalCore.putMail {k : Core} {mb : Nat} {body : Payload} (hk : CanonicalCore k) : InSome CanonicalCore (k.putMail mb body) := by
  unfold Core.putMail
  split
  · exact .some hk.modBank
  · exact .ite .none (.some hk.same)

theorem Canonical.putMail {place mb : Nat} {body : Payload} (hs : Canonical s) : InSome Canonical (s.putMail place mb body) :=
  hs.coreAt.putMail.map (fun ht => hs.modCoreAt (fun _ => ht))

theorem Canonical.mailOrDrop {place mb : Nat} {body : Payload} (hs : Canonical s) : Canonical (s.mailOrDrop place mb body) :=
  hs.putMail.getD hs.count

theorem Canonical.pullGrants {c : Nat} (hs : Canonical s) : Canonical (s.pullGrants c) :=
  (hs.modCore (fun ht => ht.same)).foldl (fun ht => .ite ht (ht.foldl
    (fun hu => .ite hu ((hu.modCore (fun hv => hv.same)).modCore (fun hv => hv.same)))))

theorem Canonical.refillBox0 {c : Nat} (hs : Canonical s) : Canonical (s.refillBox0 c) := by
  unfold State.refillBox0
  refine .foldl ?_ (fun ht => ht.foldl (fun hu => .ite hu.post hu))
  split
  · split
    · next he =>
        exact (hs.pullGrants.modCore (fun ht => ht.same)).setCore ((hs.pullGrants.modCore (fun ht => ht.same)).core.putMail _ he).same
    · exact hs.pullGrants.modCore (fun ht => ht.same)
  · split
    · split
      · next he =>
          exact (hs.pullGrants.modCore (fun ht => ht.same)).setCore ((hs.pullGrants.modCore (fun ht => ht.same)).core.putMail _ he).same
      · exact hs.pullGrants.modCore (fun ht => ht.same)
    · exact hs.pullGrants.modCore (fun ht => ht.same)

/-! ### Arrivals of messages -/

theorem Canonical.sliceCommand {cl : Nat} {m : Msg} (hs : Canonical s) : Canonical (s.sliceCommand cl m) :=
  .ite hs.count hs.post

theorem Canonical.debugCommand {c : Nat} {b : Payload} (hs : Canonical s) : Canonical (s.debugCommand c b) := by
  unfold State.debugCommand
  split
  · exact hs.post
  · exact hs.post
  · exact hs.post
  · exact hs.post
  · exact hs.post
  · exact hs.post
  · exact hs

theorem Canonical.faultReplyMail {c : Nat} {b : Payload} (hs : Canonical s) : Canonical (s.faultReplyMail c b) := by
  unfold State.faultReplyMail
  split
  · exact hs.post
  · exact hs.post
  · exact hs.post

theorem Canonical.ackMsg {m : Msg} {status : Nat} (hs : Canonical s) : Canonical (s.ackMsg m status) :=
  .ite hs hs.post

theorem Canonical.refuseMsg {m : Msg} (hs : Canonical s) : Canonical (s.refuseMsg m) :=
  hs.count.ackMsg

theorem Canonical.deliver {m : Msg} {place : Nat} (hs : Canonical s) : Canonical (s.deliver m place) := by
  unfold State.deliver
  split
  · exact .ite hs.append.ackMsg (.ite hs.keep hs.count.ackMsg)
  · refine .ite hs.debugCommand.ackMsg ?_
    split
    · next he =>
        exact (Canonical.ite (hs.putMail _ he).faultReplyMail (hs.putMail _ he)).ackMsg
    · exact .ite hs.keep (.ite (hs.modCore (fun ht => ht.same)).post hs.count.ackMsg)

theorem Canonical.arrive {m : Msg} (hs : Canonical s) : Canonical (s.arrive m) :=
  .ite hs.sliceCommand.ackMsg (.ite hs.refuseMsg hs.deliver)

theorem Canonical.execMailboxArrival (hs : Canonical s) : CanonicalOut (Machine.execMailboxArrival s) := by
  unfold Machine.execMailboxArrival
  split
  · exact .next (.ite hs.keep hs.arrive)
  · exact .next hs

theorem Canonical.resend {id : Nat} (hs : Canonical s) : Canonical (s.resend id) := by
  unfold State.resend
  split
  · exact hs
  · exact .ite hs.post hs.sameMem.arrive
  · exact hs.sameMem.post

theorem Canonical.execRetryResend (hs : Canonical s) : CanonicalOut (Machine.execRetryResend s) := by
  unfold Machine.execRetryResend
  split
  · exact .next hs.resend
  · exact .next hs

theorem Canonical.execSendAcknowledgement (hs : Canonical s) : CanonicalOut (Machine.execSendAcknowledgement s) := by
  unfold Machine.execSendAcknowledgement
  split
  · exact .next (hs.forTwins (fun ht => ht.modAny.releaseIfDrained))
  · exact .next hs

theorem Canonical.deliverLive {c : Nat} {w : Who} {kind mb : Nat} {body : Payload} (hs : Canonical s) :
    Canonical (s.deliverLive c w kind mb body) := by
  unfold State.deliverLive
  split
  · split
    · exact hs.faultReplyMail
    · exact hs
  · exact hs.modThread
  · exact hs.mailOrDrop

theorem Canonical.execSavedContextDelivery (hs : Canonical s) : CanonicalOut (Machine.execSavedContextDelivery s) := by
  unfold Machine.execSavedContextDelivery
  split
  · refine .next ?_
    split
    · exact .ite hs.keep (.ite hs.append (.ite hs.keep hs.count))
    · exact hs.deliverLive
    · exact hs.keep
    · exact hs
  · exact .next hs

/-! ### Alarms (R156, R157) -/

theorem Canonical.fireAlarm {w : Who} {time mb bank : Nat} (hs : Canonical s) : Canonical (s.fireAlarm w time mb bank) := by
  unfold State.fireAlarm
  dsimp only
  split
  · exact hs.modThread.mailOrDrop
  · split
    · exact hs.modThread.post
    · exact .ite hs.keep hs.modThread.post
  · split
    · split
      · exact hs.modThread.post
      · exact .ite hs.keep hs.modThread.post
    · exact hs.modThread.mailOrDrop
  · exact hs

theorem Canonical.execAlarmFire (hs : Canonical s) : CanonicalOut (Machine.execAlarmFire s) := by
  unfold Machine.execAlarmFire
  split
  · refine .next ?_
    split
    · exact .ite hs.postAt hs.fireAlarm
    · exact hs
  · exact .next hs

/-! ### SEND and SENDV (R275, R276) -/

theorem Canonical.sendMsg {id t mb : Nat} {body : Payload} (hs : Canonical s) : Canonical (s.sendMsg id t mb body) :=
  (Canonical.ite hs.sameMem.count hs.sameMem).sendReq

theorem Canonical.sendForm {form : Nat} {d : BitVec 5} {x : Word} {t mb : Nat} {body : Payload} (hs : Canonical s) :
    CanonicalRes (s.sendForm form d x t mb body) := by
  unfold State.sendForm
  refine Canonical.release hs (fun ht => .ite (.wait ht) (.ite (.ok ht.fresh.sendMsg.setX)
    (Canonical.ask ht (fun hu => hu.sendMsg) (fun hu => ?_))))
  split
  · exact .ite .trapR (.ok hu.setX)
  · exact .ok hu.setX

theorem Canonical.sendWord {form : Nat} {d a b : BitVec 5} (hs : Canonical s) : CanonicalOut (Machine.sendWord form d a b s) := by
  unfold Machine.sendWord
  refine Canonical.finish hs ?_
  split
  · exact .trapR
  · split
    · exact .trapR
    · exact .ite (.wait hs) hs.sendForm

theorem Canonical.sendvWord {form : Nat} {d a b : BitVec 5} (hs : Canonical s) : CanonicalOut (Machine.sendvWord form d a b s) := by
  unfold Machine.sendvWord
  refine Canonical.finish hs ?_
  split
  · exact .trapR
  · exact .ite .trapOpen (.ite (.wait hs) hs.sendForm)

theorem Canonical.execSend {d a b : BitVec 5} (hs : Canonical s) : CanonicalOut (Machine.execSend d a b s) :=
  hs.sendWord

theorem Canonical.execSendAck {d a b : BitVec 5} (hs : Canonical s) : CanonicalOut (Machine.execSendAck d a b s) :=
  hs.sendWord

theorem Canonical.execSendTrap {d a b : BitVec 5} (hs : Canonical s) : CanonicalOut (Machine.execSendTrap d a b s) :=
  hs.sendWord

theorem Canonical.execSendv {d a b : BitVec 5} (hs : Canonical s) : CanonicalOut (Machine.execSendv d a b s) :=
  hs.sendvWord

theorem Canonical.execSendvAck {d a b : BitVec 5} (hs : Canonical s) : CanonicalOut (Machine.execSendvAck d a b s) :=
  hs.sendvWord

theorem Canonical.execSendvTrap {d a b : BitVec 5} (hs : Canonical s) : CanonicalOut (Machine.execSendvTrap d a b s) :=
  hs.sendvWord

/-! ### RECV and RECVT (R277) -/

theorem Canonical.received {d : BitVec 5} {off mb : Nat} {body : Payload} (hs : Canonical s) : Canonical (s.received d off mb body) :=
  .ite (hs.wrOwn.setX.onModule (fun ht => ht.refillBox0)) hs.wrOwn.setX

theorem Canonical.recvWord {wait : Bool} {d a b : BitVec 5} (hs : Canonical s) : CanonicalOut (Machine.recvWord wait d a b s) := by
  unfold Machine.recvWord
  refine Canonical.finish hs (.ite .trapR ?_)
  split
  · exact .trapR
  · split
    · exact Canonical.logged hs (.ok hs.sameMem.received)
    · exact .wait hs.sameMem
    · exact .wait hs
    · refine .ite (.wait hs) ?_
      split
      · exact Canonical.logged hs (.ok hs.sameMem.received)
      · exact .ite (.ok hs.setX) (.wait hs.sameMem.block)

theorem Canonical.execRecv {d a b : BitVec 5} (hs : Canonical s) : CanonicalOut (Machine.execRecv d a b s) :=
  hs.recvWord

theorem Canonical.execRecvt {d a b : BitVec 5} (hs : Canonical s) : CanonicalOut (Machine.execRecvt d a b s) :=
  hs.recvWord

/-! ### Memory as the engine sees it -/

theorem Canonical.modSlot {n : Nat} {f : LxmSlot → LxmSlot} (hs : Canonical s) : Canonical (s.modSlot n f) :=
  hs.sameMem

theorem Canonical.modBuffer {n b : Nat} {f : Buffer → Buffer} (hs : Canonical s) : Canonical (s.modBuffer n b f) :=
  hs.modSlot

theorem Canonical.engHome {y : Copy} {sp ea n : Nat} {w : Option (List Byte)} (hs : Canonical s) :
    InOk (fun r => Canonical r.2.2) (s.engHome y sp ea n w) := by
  unfold State.engHome
  refine .ite .error ?_
  split
  · exact .error
  · split
    · next he =>
        exact .ok (hs.translate _ he).wrSlice
    · next he =>
        exact .ok (hs.translate _ he).rdSlice

theorem Canonical.engPeer {y : Copy} {sp ea n : Nat} {w : Option (List Byte)} (hs : Canonical s) :
    InOk (fun r => Canonical r.2.2) (s.engPeer y sp ea n w) := by
  unfold State.engPeer
  dsimp only
  refine .ite .error (.ite .error ?_)
  split
  · exact .ite (.ok hs.fresh.sayPeer.foreign) .error
  · split
    · exact .error
    · exact .ite .error (.ok hs.drawn.takeLease.fresh.sayPeer.foreign)

theorem Canonical.engHost {y : Copy} {sp ea n : Nat} {w : Option (List Byte)} (hs : Canonical s) :
    InOk (fun r => Canonical r.2.2) (s.engHost y sp ea n w) :=
  .ite .error (.ite (.ok (.third hs.drawn.modFront)) (.ite (.ok (.third hs.drawn.modFront.countHost)) (.ok (.third hs.drawn.modFront.foreign))))

theorem Canonical.engAway {y : Copy} {sp ea n : Nat} {w : Option (List Byte)} (hs : Canonical s) :
    InOk (fun r => Canonical r.2.2) (s.engAway y sp ea n w) := by
  unfold State.engAway
  split
  · exact .error
  · exact .ite hs.engPeer hs.engHost

theorem Canonical.engChip {c : Nat} {y : Copy} {ea n : Nat} {w : Option (List Byte)} (hs : Canonical s) :
    InOk (fun r => Canonical r.2.2) (s.engChip c y ea n w) := by
  unfold State.engChip
  dsimp only
  split
  · refine .ite .error ?_
    split
    · split
      · exact .ite .error (.ok hs.wrTcmAt)
      · exact .ok hs
    · refine .ite .error (.ok ?_)
      split
      · exact hs.setPad (wf_write hs.pad)
      · exact hs
    · refine .ite .error (.ok ?_)
      split
      · exact hs.setPad (wf_write hs.pad)
      · exact hs
    · refine .ok ?_
      split
      · exact hs.wrReflex
      · exact hs
    · refine .ite .error (.ite ?_ (.ok hs.count))
      split
      · exact .ite .error (.ok hs.wrTcmAt)
      · exact .ok hs
  · exact .error

theorem Canonical.engPiece {c : Nat} {y : Copy} {sp ea n : Nat} {w : Option (List Byte)} (hs : Canonical s) :
    InOk (fun r => Canonical r.2.2) (s.engPiece c y sp ea n w) := by
  unfold State.engPiece
  refine .ite ?_ (.ite (.ite .error hs.engChip) (.ite .error (.ite hs.engHome hs.engAway)))
  split
  · exact .ok (.third hs.modBuffer)
  · exact .ok hs

theorem Canonical.engRead {c : Nat} {y : Copy} {sp x x' x'' : Nat} (hs : Canonical s) :
    InOk (fun r => Canonical r.2.2) (s.engRead c y sp x x' x'') := by
  induction x generalizing s c y sp x' x'' with
  | zero => exact .ok hs
  | succ n ih =>
    unfold State.engRead
    dsimp only
    refine .ite (.ok hs) ?_
    split
    · exact .error
    · next he1 =>
        split
        · exact .error
        · next he =>
            exact .ok (.third ((ih (hs.engPiece _ he1)) _ he))

theorem Canonical.engWrite {c : Nat} {y : Copy} {sp x x' : Nat} {x'' : List Byte} (hs : Canonical s) :
    InOk Canonical (s.engWrite c y sp x x' x'') := by
  induction x generalizing s c y sp x' x'' with
  | zero => exact .ok hs
  | succ n ih =>
    unfold State.engWrite
    dsimp only
    refine .ite (.ok hs) ?_
    split
    · exact .error
    · next he =>
        exact ih (hs.engPiece _ he)

/-! ### What one sector of a copy reads and writes -/

theorem Canonical.engGather {c : Nat} {y : Copy} {l : List Piece} (hs : Canonical s) :
    InOk (fun r => Canonical r.2.2) (s.engGather c y l) := by
  induction l generalizing s with
  | nil => exact .ok hs
  | cons p l ih =>
    unfold State.engGather
    extract_lets first
    have hfirst : InOk (fun r => Canonical r.2.2) first := by
      unfold first
      split
      · exact hs.engRead
      · exact .ok hs
    clear_value first
    cases first with
    | error e => exact .error
    | ok r =>
      have hr := hfirst _ rfl
      dsimp only
      split
      · exact .error
      · next he => exact .ok (.third (ih hr _ he))

theorem Canonical.engScatter {c : Nat} {y : Copy} {x : List (Nat × Nat × List Byte)} (hs : Canonical s) : InOk Canonical (s.engScatter c y x) := by
  induction x generalizing s c y with
  | nil => exact .ok hs
  | cons a l ih =>
    unfold State.engScatter
    split
    · exact .error
    · next he =>
        exact ih (hs.engWrite _ he)

/-! ### Progress of a copy -/

theorem Canonical.setCopy {c id : Nat} {y : Copy} (hs : Canonical s) : Canonical (s.setCopy c id y) :=
  hs.modCore (fun ht => ht.same)

theorem Canonical.finishCopy {c id : Nat} {y : Copy} (hs : Canonical s) : Canonical (s.finishCopy c id y) :=
  hs.setCopy.post

theorem Canonical.nextSector {c id : Nat} (hs : Canonical s) : Canonical (s.nextSector c id) := by
  unfold State.nextSector
  split
  · exact .ite hs.post hs.emit
  · exact hs

theorem Canonical.copyStopped {c id : Nat} {y : Copy} {x : EngStop} (hs : Canonical s) : Canonical (s.copyStopped c id y x) := by
  unfold State.copyStopped
  split
  · exact hs.setCopy.post
  · exact hs.setCopy.awaitWake
  · exact hs.count.finishCopy
  · exact hs.setCopy.post

theorem Canonical.copyPoison {c : Nat} {y : Copy} {k : Nat} (hs : Canonical s) : Canonical (s.copyPoison c y k).1 := by
  unfold State.copyPoison
  dsimp only
  split
  · split
    · split
      · next he _ _ he2 =>
          exact (hs.usePoison.engRead _ he).engWrite _ he2
      · next he _ _ _ =>
          exact hs.usePoison.engRead _ he
    · exact hs.usePoison
  · exact hs.usePoison

theorem Canonical.compareCopy {c id : Nat} {y : Copy} {n : Nat} {go : Event} {what : List Byte} (hs : Canonical s) :
    Canonical (s.compareCopy c id y n go what) :=
  hs.fresh.setCopy.sendFor

theorem Canonical.tellTwin {y : Copy} {f : Copy → Copy} {go : Nat → Nat → Event} (hs : Canonical s) : Canonical (s.tellTwin y f go) := by
  unfold State.tellTwin
  dsimp only
  split
  · exact hs
  · split
    · exact hs.sameMem.setCopy.post
    · exact hs.sameMem

theorem Canonical.sectorDone {c id : Nat} {y : Copy} {k : Nat} {w : List (Nat × Nat × List Byte)} (hs : Canonical s) :
    Canonical (s.sectorDone c id y k w) :=
  .ite hs.tellTwin.finishCopy hs.tellTwin.setCopy.nextSector

theorem Canonical.copySector {c id : Nat} {y : Copy} (hs : Canonical s) : Canonical (s.copySector c id y) := by
  unfold State.copySector
  extract_lets k
  refine .ite hs.tellTwin.finishCopy ?_
  split
  · exact hs.copyStopped
  · next d bad t he =>
    extract_lets p u
    have ht : Canonical t := hs.engGather _ he
    have hu : Canonical u := by
      unfold u p
      split
      · exact ht.copyPoison
      · exact ht
    refine .ite hu.setCopy.nextSector (.ite (.ite hu.setCopy hu.compareCopy) ?_)
    split
    · exact hu.copyStopped
    · next hw => exact (hu.engScatter _ hw).sectorDone

/-! ### Landing handlers (R287) -/

theorem Canonical.landSector {c id : Nat} {y : Copy} {dst : Nat} (hs : Canonical s) : Canonical (s.landSector c id y dst) := by
  unfold State.landSector
  refine .ite (.ite hs hs.finishCopy) (.ite hs.setCopy.post ?_)
  split
  · exact hs.copyStopped
  · refine .post (.nextSector (.modCore (.setCopy ?_) (fun ht => ht.same)))
    split
    · next he _ =>
        exact (hs.engGather _ he).copyPoison
    · next he _ =>
        exact hs.engGather _ he

theorem Canonical.newSerial {p : Nat} (hs : Canonical s) : Canonical (s.newSerial p).2 :=
  hs.sameMem.modProg

theorem Canonical.startLanding {c : Nat} (hs : Canonical s) : Canonical (s.startLanding c) := by
  unfold State.startLanding
  dsimp only
  split
  · exact hs
  · refine .ite hs ?_
    split
    · split
      · exact hs.newSerial.modCore (fun ht => ht.same)
      · exact hs.modCore (fun ht => ht.same)
    · exact hs.modCore (fun ht => ht.same)

theorem Canonical.execLandingHandlerInvocation (hs : Canonical s) : CanonicalOut (Machine.execLandingHandlerInvocation s) := by
  unfold Machine.execLandingHandlerInvocation
  split
  · exact .next hs.startLanding
  · exact .next hs

theorem Canonical.landingNext {c : Nat} (hs : Canonical s) : Canonical (s.landingNext c) :=
  (hs.modCore (fun ht => ht.same)).post

theorem Canonical.landingEnded {c id : Nat} (hs : Canonical s) : Canonical (s.landingEnded c id) := by
  unfold State.landingEnded
  refine .landingNext ?_
  split
  · exact .ite hs (.ite hs.post (.ite hs.finishCopy hs))
  · exact hs

/-! ### Streams (R289-R293) -/

theorem Canonical.streamStep {c id : Nat} {y : Copy} {reg : Nat} (hs : Canonical s) : Canonical (s.streamStep c id y reg) := by
  unfold State.streamStep
  dsimp only
  split
  · exact hs
  · split
    · exact hs
    · refine .ite hs (.ite ?_ (.ite hs ?_))
      · split
        · exact hs
        · refine .ite (.ite hs hs.compareCopy) ?_
          split
          · split
            · exact (hs.modCore (fun ht => ht.modBank)).copyStopped
            · exact hs.copyStopped
          · next he =>
              exact ((hs.engScatter _ he).tellTwin.modCore (fun ht => ht.modBank)).setCopy.nextSector
      · split
        · split
          · exact hs.count.modCore (fun ht => ht.modBank)
          · exact hs.copyStopped
        · next he =>
            exact ((Canonical.ite (hs.engRead _ he).usePoison (hs.engRead _ he)).modCore (fun ht => ht.modBank)).nextSector.drain

theorem Canonical.tailStep {c id : Nat} {y : Copy} {l : List (Nat × Vec)} (hs : Canonical s) : Canonical (s.tailStep c id y l) := by
  unfold State.tailStep
  split
  · exact hs.finishCopy
  · refine .ite (.ite hs hs.compareCopy) ?_
    split
    · exact hs.copyStopped
    · next he =>
        exact (hs.engScatter _ he).tellTwin.setCopy.nextSector

/-! ### LXM (R311-R313) -/

theorem Canonical.beginPublish {c id : Nat} {y : Copy} {slot src : Nat} (hs : Canonical s) : Canonical (s.beginPublish c id y slot src) := by
  unfold State.beginPublish
  split
  · exact hs.tellTwin.finishCopy
  · exact hs.tellTwin.modSlot.modBuffer.setCopy.nextSector

theorem Canonical.publishStep {c id : Nat} {y : Copy} {slot src : Nat} {b : Option Nat} (hs : Canonical s) :
    Canonical (s.publishStep c id y slot src b) := by
  unfold State.publishStep
  extract_lets pair k
  split
  · exact .ite hs.finishCopy (.ite (.ite hs hs.compareCopy) hs.beginPublish)
  · refine .ite (.ite (.ite hs hs.compareCopy) hs.post) ?_
    split
    · exact hs.copyStopped
    · next d bad t he =>
      extract_lets p d' w
      have ht : Canonical t := hs.engGather _ he
      have hp : Canonical p.1 := by
        unfold p
        split
        · exact ht.copyPoison
        · exact ht
      split
      · exact hp.copyStopped
      · next hw => exact (hp.engScatter _ hw).setCopy.nextSector

theorem Canonical.mirrorOut {m : Mirror} (hs : Canonical s) : Canonical (s.mirrorOut m) :=
  .ite hs hs.modFront

theorem Canonical.commitSlot {slot b time : Nat} (hs : Canonical s) : Canonical (s.commitSlot slot b time) := by
  unfold State.commitSlot
  dsimp only
  split
  · exact .ite hs.modBuffer.modSlot.mirrorOut hs.modBuffer.modSlot
  · exact hs.modBuffer.modSlot

theorem Canonical.execXmpubCommit (hs : Canonical s) : CanonicalOut (Machine.execXmpubCommit s) := by
  unfold Machine.execXmpubCommit
  split
  · refine .next ?_
    split
    · split
      · exact .ite hs hs.commitSlot.tellTwin.finishCopy
      · exact hs
    · exact hs
  · exact .next hs

theorem Canonical.fetchStep {c id : Nat} {y : Copy} {slot dst : Nat} {time b : Option Nat} (hs : Canonical s) :
    Canonical (s.fetchStep c id y slot dst time b) := by
  unfold State.fetchStep
  split
  · split
    · exact hs.finishCopy
    · split
      · exact hs.finishCopy
      · exact .ite hs.finishCopy hs.modBuffer.setCopy.nextSector
  · exact .ite hs.post hs.copySector

theorem Canonical.endFetch {y : Copy} (hs : Canonical s) : Canonical (s.endFetch y) := by
  unfold State.endFetch
  split
  · exact hs.modBuffer
  · exact hs

theorem Canonical.execXmrdCompletion (hs : Canonical s) : CanonicalOut (Machine.execXmrdCompletion s) := by
  unfold Machine.execXmrdCompletion
  split
  · refine .next ?_
    split
    · split
      · exact hs.endFetch.finishCopy
      · exact hs
    · exact hs
  · exact .next hs

/-! ### CPYQ (R288) -/

theorem Canonical.elementStep {c id : Nat} {y : Copy} {src qcb elem : Nat} (hs : Canonical s) : Canonical (s.elementStep c id y src qcb elem) := by
  unfold State.elementStep
  refine .ite hs.finishCopy ?_
  split
  · exact hs.copyStopped
  · next he =>
      exact .ite (hs.engRead _ he).usePoison.setCopy.nextSector ((hs.engRead _ he).sameMem.setCopy.setCore
        (hs.engRead _ he).sameMem.setCopy.core.enterEgress).sendFor

theorem Canonical.launchProbe {c id : Nat} {y : Copy} (hs : Canonical s) : Canonical (s.launchProbe c id y) :=
  hs.setCopy.emit

/-! ### The engine's step -/

theorem Canonical.copyStep {c id : Nat} (hs : Canonical s) : Canonical (s.copyStep c id) := by
  unfold State.copyStep
  refine .ite hs ?_
  split
  · exact hs
  · refine .ite hs ?_
    split
    · exact hs.landSector
    · exact hs.streamStep
    · exact hs.tailStep
    · exact hs.publishStep
    · exact hs.fetchStep
    · exact .ite hs hs.elementStep
    · exact hs.launchProbe
    · exact hs.finishCopy
    · exact hs.copySector

theorem Canonical.execCopySectorReply (hs : Canonical s) : CanonicalOut (Machine.execCopySectorReply s) := by
  unfold Machine.execCopySectorReply
  split
  · exact .next hs.copyStep
  · exact .next hs

theorem Canonical.execStreamRefill (hs : Canonical s) : CanonicalOut (Machine.execStreamRefill s) := by
  unfold Machine.execStreamRefill
  split
  · refine .next ?_
    split
    · split
      · exact hs.copyStep
      · exact hs
    · exact hs
  · exact .next hs

theorem Canonical.execCpyqRetry (hs : Canonical s) : CanonicalOut (Machine.execCpyqRetry s) := by
  unfold Machine.execCpyqRetry
  refine Canonical.orWait hs ?_
  split
  · refine .next ?_
    split
    · exact hs.setCopy.copyStep
    · exact hs
  · exact .next hs

/-! ### Completions (R274, R181) -/

theorem Canonical.freeCopy {c id : Nat} {w : Who} (hs : Canonical s) : Canonical (s.freeCopy c id w) :=
  (hs.modCore (fun ht => ht.same)).releaseIfDrained

theorem Canonical.giveUp {y : Copy} (hs : Canonical s) : Canonical (s.giveUp y) := by
  unfold State.giveUp
  split
  · exact hs.modSlot
  · exact hs.endFetch

theorem Canonical.landingFreed {c : Nat} {y : Copy} (hs : Canonical s) : Canonical (s.landingFreed c y) := by
  unfold State.landingFreed
  split
  · exact hs.landingNext
  · exact hs

theorem Canonical.complete {c id : Nat} {y : Copy} (hs : Canonical s) : Canonical (s.complete c id y) := by
  unfold State.complete
  dsimp only
  split
  · exact hs.giveUp.setCopy.landingFreed.freeCopy
  · split
    · next he =>
        exact (hs.giveUp.setCopy.landingFreed.putMail _ he).freeCopy
    · exact hs.giveUp.setCopy.landingFreed
  · exact .ite hs.giveUp.setCopy.landingFreed.post hs.giveUp.setCopy.landingFreed.append.freeCopy
  · exact hs.giveUp.setCopy.landingFreed.post

theorem Canonical.execCopyCompletion (hs : Canonical s) : CanonicalOut (Machine.execCopyCompletion s) := by
  unfold Machine.execCopyCompletion
  split
  · refine .next (.ite hs ?_)
    split
    · exact .ite hs hs.complete
    · exact hs
  · exact .next hs

/-! ### Issue (R278, R279) -/

theorem Canonical.startCopy {y : Copy} {k : Nat → State → Res} (hs : Canonical s)
    (hk : ∀ {n : Nat} {t : State}, Canonical t → CanonicalRes (k n t)) : CanonicalRes (s.startCopy y k) := by
  unfold State.startCopy
  split
  · exact .wait hs
  · exact hk (.ite hs.sameMem.post hs.sameMem.emitOwn)

theorem Canonical.issueCopy {d : BitVec 5} {y : Copy} (hs : Canonical s) : CanonicalRes (s.issueCopy d y) :=
  Canonical.release hs (fun ht => Canonical.startCopy ht (fun hu => .ok hu.setX))

theorem CanonicalRes.copyChecks {src dst n : Nat} {len : Word} {k : Res} (hk : CanonicalRes k) : CanonicalRes (s.copyChecks src dst n len k) := by
  unfold State.copyChecks
  split
  · exact .trapR
  · refine .ite .trapR ?_
    split
    · exact .trapR
    · split
      · exact .trapR
      · exact hk

theorem Canonical.execCpy {d a b : BitVec 5} (hs : Canonical s) : CanonicalOut (Machine.execCpy d a b s) :=
  hs.finish hs.issueCopy.copyChecks

/-! ### CPY2D (R283-R285) -/

theorem CanonicalCore.record? {k : Core} {sp tenant ea : Nat} (hk : CanonicalCore k) :
    InSome (fun r => CanonicalCore r.2) (k.record? sp tenant ea) := by
  unfold Core.record?
  split
  · exact .some hk.same
  · exact .none

theorem Canonical.tensorCopy {d : BitVec 5} {x : Word} {store : Bool} {r : Line} (hs : Canonical s) : CanonicalRes (s.tensorCopy d x store r) := by
  unfold State.tensorCopy
  dsimp only
  refine .ite .trapR ?_
  split
  · exact .trapR
  · split
    · exact .trapR
    · split
      · exact .trapR
      · exact .trapR
      · exact Canonical.startCopy hs (fun ht => .ok ht.setX)

theorem Canonical.cpy2d {store : Bool} {d a : BitVec 5} (hs : Canonical s) : CanonicalOut (Machine.cpy2d store d a s) := by
  unfold Machine.cpy2d
  refine Canonical.finish hs (.ite .trapR ?_)
  split
  · exact .trapR
  · refine Canonical.release hs (fun ht => ?_)
    split
    · next he =>
        exact Canonical.tensorCopy (ht.replace (issuing := fun _ => ht.issuing.record? _ he))
    · exact ht.loadRes (fun hu => hu.sameMem.tensorCopy)

theorem Canonical.execCpy2d {d a : BitVec 5} (hs : Canonical s) : CanonicalOut (Machine.execCpy2d d a s) :=
  hs.cpy2d

theorem Canonical.execCpy2dSt {d a : BitVec 5} (hs : Canonical s) : CanonicalOut (Machine.execCpy2dSt d a s) :=
  hs.cpy2d

/-! ### CPYH (R287) -/

theorem Canonical.execCpyh {d a b : BitVec 5} (hs : Canonical s) : CanonicalOut (Machine.execCpyh d a b s) := by
  unfold Machine.execCpyh
  dsimp only
  refine Canonical.finish hs ?_
  split
  · exact .trapR
  · refine .ite (.wait hs) ?_
    split
    · exact .trapR
    · refine .ite .trapR ?_
      split
      · exact .trapR
      · split
        · exact .trapR
        · exact Canonical.checkTarget hs (fun ht => .ite ht.issueCopy
            (.ite ht.issueCopy (Canonical.release ht (fun hu => Canonical.startCopy hu (fun hv => .ok hv.sameMem.setX)))))

/-! ### Streams (R289-R293) -/

theorem Canonical.strm {write : Bool} {d a : BitVec 5} (hs : Canonical s) : CanonicalOut (Machine.strm write d a s) := by
  unfold Machine.strm
  refine Canonical.finish hs ?_
  split
  · exact .trapR
  · refine .ite (.wait hs) (.ite .trapR (.ite .trapOpen ?_))
    split
    · exact .trapR
    · exact .ite (.wait hs) (Canonical.startCopy hs (fun ht => .ok ht.sameMem))

theorem Canonical.execStrm {d a : BitVec 5} (hs : Canonical s) : CanonicalOut (Machine.execStrm d a s) :=
  hs.strm

theorem Canonical.execStrmW {d a : BitVec 5} (hs : Canonical s) : CanonicalOut (Machine.execStrmW d a s) :=
  hs.strm

theorem Canonical.endStream {v : Nat} (hs : Canonical s) : Canonical (s.endStream v) := by
  unfold State.endStream
  split
  · exact hs
  · exact .ite hs.sameMem hs.sameMem.post

theorem Canonical.execStrmx {d : BitVec 5} (hs : Canonical s) : CanonicalOut (Machine.execStrmx d s) :=
  Canonical.finish hs (.ite (.ok hs) (.ite (.wait hs) (.ok hs.endStream)))

/-! ### XMPUB, XMRD, XMRDT (R312, R313) -/

theorem Canonical.lxmOp {d a b : BitVec 5} {entry : Nat} {rel : Bool} {work : Nat → Nat → CopyWork} (hs : Canonical s) :
    CanonicalRes (s.lxmOp d a b entry rel work) := by
  unfold State.lxmOp
  dsimp only
  refine .ite .trapR (.ite .trapR ?_)
  split
  · exact .ite hs.issueCopy (Canonical.startCopy hs (fun ht => .ok ht.setX))
  · split
    · exact .trapR
    · exact .ite hs.issueCopy (Canonical.startCopy hs (fun ht => .ok ht.setX))

theorem Canonical.execXmpub {d a b : BitVec 5} (hs : Canonical s) : CanonicalOut (Machine.execXmpub d a b s) :=
  hs.finish hs.lxmOp

theorem Canonical.execXmrd {d a b : BitVec 5} (hs : Canonical s) : CanonicalOut (Machine.execXmrd d a b s) :=
  hs.finish hs.lxmOp

theorem Canonical.execXmrdt {d a b : BitVec 5} (hs : Canonical s) : CanonicalOut (Machine.execXmrdt d a b s) :=
  hs.finish hs.lxmOp

/-! ### PROBE (R308-R310) -/

theorem Canonical.execProbe {d a b : BitVec 5} (hs : Canonical s) : CanonicalOut (Machine.execProbe d a b s) := by
  unfold Machine.execProbe
  refine Canonical.finish hs ?_
  split
  · exact .trapR
  · exact Canonical.startCopy hs (fun ht => .ok ht.setX)

theorem Canonical.finishAt {place id : Nat} {f : Copy → Copy} (hs : Canonical s) : Canonical (s.finishAt place id f) :=
  .ite (hs.modCoreAt (fun ht => ht.same)) (hs.modCoreAt (fun ht => ht.same)).post

theorem Canonical.endProbe {p : Probe} {b : Nat} (hs : Canonical s) : Canonical (s.endProbe p b) := by
  unfold State.endProbe
  refine .ite (.ite hs.drawn.mailFrom hs) ?_
  split
  · exact hs.finishAt
  · exact hs

theorem Canonical.recordProbe {p : Probe} {tid : Word} (hs : Canonical s) : Canonical (s.recordProbe p tid) := by
  unfold State.recordProbe
  refine .ite hs ?_
  split
  · exact hs.wrTcmAt
  · exact hs

theorem Canonical.probeHop {p : Probe} (hs : Canonical s) : Canonical (s.probeHop p) := by
  unfold State.probeHop
  dsimp only
  refine .ite hs.endProbe (.ite hs.endProbe ?_)
  split
  · exact hs.recordProbe.endProbe
  · exact .ite hs.recordProbe.endProbe hs.recordProbe.post

theorem Canonical.execProbeHop (hs : Canonical s) : CanonicalOut (Machine.execProbeHop s) := by
  unfold Machine.execProbeHop
  split
  · exact .next hs.probeHop
  · exact .next hs

theorem Canonical.execAutoProbe (hs : Canonical s) : CanonicalOut (Machine.execAutoProbe s) := by
  unfold Machine.execAutoProbe
  split
  · refine .next ?_
    split
    · exact .ite hs.post hs
    · exact hs
  · exact .next hs

end Sys2Proof.Claims
end

section
/-! SUPPORT. The canonical form of every memory through placing and ending threads, groups and barriers, the exchange, and the bytes of a
context. -/

namespace Sys2Proof.Claims

open Sys2Proof.Machine

set_option Elab.async false

variable {s : State}

/-! ### Banks -/

theorem Canonical.putThread {c b : Nat} {t : Thread} (hs : Canonical s) : Canonical (s.putThread c b t) :=
  hs.modCore (fun ht => ht.same)

theorem CanonicalCore.addReach {k : Core} {p : Nat} {cores pads : List Nat} (hk : CanonicalCore k) : CanonicalCore (k.addReach p cores pads) :=
  hk.same

theorem Canonical.mapCores {f : Core → Core} (hs : Canonical s) (hf : ∀ {k}, CanonicalCore k → CanonicalCore (f k)) :
    Canonical (s.mapCores f) :=
  hs.replace (cores := fun h => forall_map h fun k hk => hf hk)
    (contexts := fun h => forall_map (P := fun x : Context => CanonicalCore x.core) h fun x hx => hf hx)

theorem Canonical.dropReach {p c : Nat} (hs : Canonical s) : Canonical (s.dropReach p c) :=
  hs.mapCores (fun ht => ht.same)

theorem Canonical.copyText {p : Nat} {g : Prog} (hs : Canonical s) : Canonical (s.copyText p g) :=
  hs.foldl (fun ht => ht.wrReflex)

theorem CanonicalCore.lockLines {k : Core} {p : Nat} {l : List L0ILine} (hk : CanonicalCore k) : CanonicalCore (k.lockLines p l) :=
  hk.same

theorem Canonical.lockText {c p : Nat} {g : Prog} (hs : Canonical s) : Canonical (s.lockText c p g) :=
  hs.modCore (fun ht => ht.lockLines)

/-! ### Groups (R23, R24, R301, R302) -/

theorem Canonical.setGroup {c dom : Nat} {g : Option Machine.Group} (hs : Canonical s) : Canonical (s.setGroup c dom g) := by
  unfold State.setGroup
  exact hs.modFront

theorem Canonical.settleGroup {c dom : Nat} {g : Machine.Group} (hs : Canonical s) : Canonical (s.settleGroup c dom g) :=
  .ite hs.setGroup (.ite (hs.setGroup.foldl (fun ht => ht.modThread)) hs.setGroup)

theorem Canonical.leaveGroup {c : Nat} {w : Who} {dom : Nat} (hs : Canonical s) : Canonical (s.leaveGroup c w dom) := by
  unfold State.leaveGroup
  split
  · exact hs
  · exact hs.settleGroup

/-! ### The gang barrier (R297) -/

theorem Canonical.checkBarrier {p copy : Nat} (hs : Canonical s) : Canonical (s.checkBarrier p copy) := by
  unfold State.checkBarrier
  split
  · exact hs
  · exact .ite hs (.ite hs.modRun.post hs.modRun.post)

/-! ### Ending a thread (R304) -/

theorem Canonical.dropCompletions {w : Who} (hs : Canonical s) : Canonical (s.dropCompletions w) := by
  unfold State.dropCompletions
  dsimp only
  refine .replace (.foldl (.foldl hs fun h => .foldl h fun h => h.post) fun h => .foldl h fun h => h.giveUp) (contexts := fun h => ?_)
  exact forall_map (P := fun x : Context => CanonicalCore x.core) h fun x hx => hx.same

theorem Canonical.cancelAlarm {w : Who} (hs : Canonical s) : Canonical (s.cancelAlarm w) :=
  hs.unpost

theorem Canonical.endStreams {place : Nat} {t : Thread} (hs : Canonical s) : Canonical (s.endStreams place t) :=
  hs.foldl (fun ht => .ite (ht.modCoreAt (fun hu => hu.same)) (ht.modCoreAt (fun hu => hu.same)).post)

theorem Canonical.stopThread {place b : Nat} (hs : Canonical s) : Canonical (s.stopThread place b) := by
  unfold State.stopThread
  dsimp only
  split
  · exact hs
  · refine .ite hs (.releaseIfDrained (.dropCompletions (.ite (.checkBarrier (.modCoreAt (.cancelAlarm (.endStreams ?_)) (fun ht => ht.same)))
      (.modCoreAt (.cancelAlarm (.endStreams ?_)) (fun ht => ht.same)))))
    · split
      · exact hs.leaveGroup
      · exact hs
    · split
      · exact hs.leaveGroup
      · exact hs

theorem Canonical.stopQueued {id : Nat} {m : Moving} (hs : Canonical s) : Canonical (s.stopQueued id m) := by
  unfold State.stopQueued
  refine .post (.dropCompletions (.cancelAlarm (.modCoreAt ?_ (fun ht => ht.same))))
  split
  · exact hs.leaveGroup.sameMem
  · exact hs.sameMem

theorem Canonical.startClearing {c : Nat} (hs : Canonical s) : Canonical (s.startClearing c) :=
  .ite hs (hs.modCore (fun ht => ht.same)).post

theorem Canonical.unstakeCore {p c : Nat} (hs : Canonical s) : Canonical (s.unstakeCore p c) :=
  (((hs.foldl (fun ht => ht.stopThread)).foldl (fun ht => ht.stopQueued)).modProg.modCore (fun ht => ht.same)).dropReach.startClearing

theorem Canonical.returnStakes {t : Thread} (hs : Canonical s) : Canonical (s.returnStakes t) :=
  hs.foldl (fun ht => ht.unstakeCore)

theorem Canonical.endThread {place b : Nat} (hs : Canonical s) : Canonical (s.endThread place b) := by
  unfold State.endThread
  split
  · exact hs
  · exact hs.stopThread.returnStakes

theorem Canonical.endQueued {id : Nat} {m : Moving} (hs : Canonical s) : Canonical (s.endQueued id m) :=
  hs.stopQueued.returnStakes

/-! ### HOLD_N (R389) -/

theorem Canonical.holdCheck (hs : Canonical s) : Canonical s.holdCheck :=
  .ite hs.modFront hs

/-! ### Activations (R29, R385-R387) -/

theorem Canonical.modReflex {e : Nat} {f : Reflex → Reflex} (hs : Canonical s) : Canonical (s.modReflex e f) :=
  hs.modFront

theorem Canonical.loadActivation {e k c : Nat} {r : Reflex} (hs : Canonical s) : Canonical (s.loadActivation e k c r) := by
  unfold State.loadActivation
  dsimp only
  split
  · exact hs
  · exact .ite hs.newSerial.putThread hs.newSerial.putThread.post

theorem Canonical.startActivation {e k : Nat} (hs : Canonical s) : Canonical (s.startActivation e k) := by
  unfold State.startActivation
  split
  · exact hs
  · exact .ite hs.modReflex (hs.foldl (fun ht => ht.loadActivation)).modReflex

theorem Canonical.retryReleases {c : Nat} (hs : Canonical s) : Canonical (s.retryReleases c) := by
  unfold State.retryReleases
  refine .foldl hs (fun ht => ?_)
  split
  · exact .ite ht.startActivation ht
  · exact ht

theorem Canonical.unlockText {c p : Nat} (hs : Canonical s) : Canonical (s.unlockText c p) :=
  .ite hs (hs.modCore (fun ht => ht.same))

theorem Canonical.unbindIfDone {e : Nat} (hs : Canonical s) : Canonical (s.unbindIfDone e) := by
  unfold State.unbindIfDone
  split
  · exact .ite hs (hs.modFront.foldl (fun ht => ht.unlockText))
  · exact hs

theorem Canonical.missOnce {e : Nat} (hs : Canonical s) : Canonical (s.missOnce e) := by
  unfold State.missOnce
  split
  · exact hs.modReflex.count.holdCheck
  · exact hs

theorem Canonical.closeActivation {e : Nat} (hs : Canonical s) : Canonical (s.closeActivation e) :=
  hs.modReflex.unbindIfDone

/-! ### A mismatch of a pair (R396, R397) -/

theorem Canonical.dropCopy {place cid : Nat} {y : Copy} (hs : Canonical s) : Canonical (s.dropCopy place cid y) := by
  unfold State.dropCopy
  dsimp only
  split
  · exact (hs.giveUp.modCoreAt (fun ht => ht.same)).post
  · exact (hs.modCoreAt (fun ht => ht.same)).post
  · exact (hs.modThread.modCoreAt (fun ht => ht.same)).post
  · exact (hs.modCoreAt (fun ht => ht.same)).post

theorem Canonical.dropRequest {id : Nat} {q : PairReq} (hs : Canonical s) : Canonical (s.dropRequest id q) :=
  (hs.sameMem.modAny.foldl (fun ht => ht.dropCopy)).releaseIfDrained

theorem Canonical.dropPair {pair : Nat} (hs : Canonical s) : Canonical (s.dropPair pair) :=
  hs.foldl (fun ht => ht.dropRequest)

theorem Canonical.endActivation {e : Nat} (hs : Canonical s) : Canonical (s.endActivation e) :=
  hs.foldl (fun ht => ht.endThread)

theorem Canonical.pairMismatch {pair : Nat} (hs : Canonical s) : Canonical (s.pairMismatch pair) := by
  unfold State.pairMismatch
  refine .ite hs.count.dropPair.markReplay ?_
  split
  · exact hs.dropPair
  · split
    · exact hs.count.dropPair
    · exact .ite hs.count.dropPair.endActivation.modReflex.retryReleases
        (Canonical.ite hs.count.dropPair.endActivation hs.count.dropPair.endActivation.missOnce).closeActivation

theorem Canonical.endedOnTime {e k : Nat} (hs : Canonical s) : Canonical (s.endedOnTime e k) := by
  unfold State.endedOnTime
  split
  · exact hs
  · exact (Canonical.ite hs.modFront hs).modReflex

theorem Canonical.activationEnd {e : Nat} (hs : Canonical s) : Canonical (s.activationEnd e) := by
  unfold State.activationEnd
  split
  · exact hs
  · exact .ite hs (.ite hs.pairMismatch (.ite hs (Canonical.ite hs hs.endedOnTime).closeActivation))

theorem Canonical.activationExit {e c : Nat} (hs : Canonical s) : Canonical (s.activationExit e c) :=
  hs.modReflex.activationEnd

/-! ### GJOIN, GLEAVE (R301) -/

theorem Canonical.execGjoin {d a : BitVec 5} (hs : Canonical s) : CanonicalOut (Machine.execGjoin d a s) :=
  Canonical.finish hs (.ite (.ok hs.setX) (.ite (.ok hs.setX) (.ok hs.sameMem)))

theorem Canonical.execGleave {d : BitVec 5} (hs : Canonical s) : CanonicalOut (Machine.execGleave d s) := by
  unfold Machine.execGleave
  refine Canonical.finish hs ?_
  split
  · exact .ok hs.setX
  · exact .ok (hs.onModule (fun ht => ht.leaveGroup)).sameMem.setX

/-! ### GBAR, GARR, GWAIT (R302) -/

theorem Canonical.arriveGroup {dom : Nat} {g : Machine.Group} (hs : Canonical s) : Canonical (s.arriveGroup dom g) :=
  hs.onModule (fun ht => ht.settleGroup)

theorem Canonical.execGbar {d : BitVec 5} (hs : Canonical s) : CanonicalOut (Machine.execGbar d s) := by
  unfold Machine.execGbar
  refine Canonical.finish hs ?_
  split
  · exact .ok hs.dropPending.setX
  · exact .ok hs.dropPending
  · split
    · exact .ite (.wait hs.block) (.ok hs.dropPending.setX)
    · exact .wait hs
  · split
    · exact .trapR
    · exact Canonical.release hs (fun ht => .ite (.wait ht) (.ite (.ok ht.arriveGroup.setX) (.wait ht.arriveGroup.blockWord')))

theorem Canonical.execGarr {d : BitVec 5} (hs : Canonical s) : CanonicalOut (Machine.execGarr d s) := by
  unfold Machine.execGarr
  refine Canonical.finish hs ?_
  split
  · exact .trapR
  · exact Canonical.release hs (fun ht => .ite (.wait ht) (.ok ht.arriveGroup.setX))

theorem Canonical.execGwait {a : BitVec 5} (hs : Canonical s) : CanonicalOut (Machine.execGwait a s) := by
  unfold Machine.execGwait
  refine Canonical.finish hs ?_
  split
  · exact .ok hs.dropPending
  · split
    · exact .ite (.ok hs.dropPending) (.wait hs.block)
    · exact .wait hs
  · split
    · exact .trapR
    · exact .ite (.ok hs) (.wait hs.blockWord')

/-! ### SSTEP, XPHASE (R295, R297, R298) -/

theorem Canonical.writeSnapshot {c : Nat} {k : Core} {t : Thread} (hs : Canonical s) : Canonical (s.writeSnapshot c k t) :=
  .ite hs (hs.setPad (Memory.wf_wrN _ _ _ _ (Memory.wf_wrBytes _ _ _ hs.pad)))

theorem Canonical.takeSnapshot (hs : Canonical s) : Canonical s.takeSnapshot :=
  hs.sameMem.writeSnapshot

theorem Canonical.sstepAway {i b n : Nat} {t : Thread} (hs : Canonical s) : Canonical (s.sstepAway i b n t) := by
  unfold State.sstepAway
  split
  · exact (hs.modCoreAt (fun ht => ht.modBank)).writeSnapshot
  · exact hs.modCoreAt (fun ht => ht.modBank)

theorem Canonical.execSstep {d : BitVec 5} (hs : Canonical s) : CanonicalOut (Machine.execSstep d s) := by
  unfold Machine.execSstep
  refine Canonical.finish hs (.ite .trapR ?_)
  split
  · exact .ok hs.dropPending.setX.takeSnapshot
  · exact .ok hs.dropPending
  · exact .wait hs.block
  · exact Canonical.release hs (fun ht => .ite (.wait ht) (.wait ht.blockWord'.emitOwn))

theorem Canonical.execBarrierArrival (hs : Canonical s) : CanonicalOut (Machine.execBarrierArrival s) := by
  unfold Machine.execBarrierArrival
  split
  · refine .next ?_
    split
    · exact hs.modRun.checkBarrier
    · exact hs
  · exact .next hs

theorem Canonical.clearLog {place : Nat} {f : State → State} (hs : Canonical s) (hf : ∀ {t : State}, Canonical t → Canonical (f t)) :
    Canonical (s.clearLog place f) :=
  .ite (hf hs) (((hf ((Canonical.ite hs.count hs).modCoreAt (fun ht => ht.same))).setPad
    (Memory.wf_wrN _ _ _ _ (hf ((Canonical.ite hs.count hs).modCoreAt (fun ht => ht.same))).pad)).modCoreAt (fun ht => ht.same))

theorem Canonical.releaseRank {w : Who} (hs : Canonical s) : Canonical (s.releaseRank w) := by
  unfold State.releaseRank
  split
  · exact hs
  · refine .ite (hs.clearLog (fun ht => ht.wrTcmAt.wrTcmAt)) ?_
    split
    · exact (hs.clearLog (fun ht => ht.wrTcmAt.wrTcmAt)).sstepAway
    · exact (hs.clearLog (fun ht => ht.wrTcmAt.wrTcmAt)).modCoreAt (fun ht => ht.modBank)

theorem Canonical.execSstepRelease (hs : Canonical s) : CanonicalOut (Machine.execSstepRelease s) := by
  unfold Machine.execSstepRelease
  split
  · exact .next (.ite hs.post (hs.modRun.foldl (fun ht => ht.releaseRank)))
  · exact .next hs

theorem CanonicalCore.restoreLog {pad : Mem} {base : Nat} {k : Core} {n : Nat} (hk : CanonicalCore k) :
    CanonicalCore (Machine.restoreLog pad base k n) := by
  induction n generalizing k with
  | zero => exact hk
  | succ e ih =>
    unfold Machine.restoreLog
    refine ih (.ite (.tcmBytes hk ?_) ⟨hk.tcm, ?_⟩)
    · exact Memory.wf_wrBytes _ _ _ hk.tcm
    · dsimp only
      exact Memory.wf_wrBytes _ _ _ hk.tiles

theorem wf_clearPlan {m : Mem} {h cycle : Nat} (hm : Memory.wf m = true) : Memory.wf (Machine.clearPlan m h cycle) = true :=
  wf_foldl (Memory.wf_wrN _ _ _ _ (Memory.wf_wrN _ _ _ _ hm)) (fun ht => wf_ite (Memory.wf_wrN _ _ _ _ ht) ht)

theorem Canonical.replayRank {w : Who} (hs : Canonical s) : Canonical (s.replayRank w) := by
  unfold State.replayRank
  split
  · exact hs
  · exact .count (.modCoreAt (.clearLog hs (fun ht => .modCoreAt ht
      (fun hu => ⟨wf_clearPlan (CanonicalCore.restoreLog hu).tcm, (CanonicalCore.restoreLog hu).tiles⟩))) (fun ht => ht.modBank))

theorem Canonical.execSuperstepReplay (hs : Canonical s) : CanonicalOut (Machine.execSuperstepReplay s) := by
  unfold Machine.execSuperstepReplay
  split
  · refine .next ?_
    split
    · exact hs
    · exact .ite (hs.foldl (fun ht => ht.count)).endProgram (.ite hs.post (.ite hs.post (hs.modRun.foldl (fun ht => ht.replayRank))))
  · exact .next hs

theorem Canonical.execXphase {d a : BitVec 5} (hs : Canonical s) : CanonicalOut (Machine.execXphase d a s) :=
  Canonical.finish hs (.ite .trapR (Canonical.logged hs (.ok hs.wrOwn.setX)))

/-! ### SPAWN (R303) -/

theorem Canonical.spawnNow {c : Nat} {t : Thread} {target : Nat} {entry : IAddr} {arg : Word} (hs : Canonical s) :
    Canonical (s.spawnNow c t target entry arg).2 := by
  unfold State.spawnNow
  split
  · exact hs
  · split
    · exact (Canonical.ite hs.newSerial.lockText hs.newSerial).putThread
    · exact hs

theorem Canonical.pairedOp {kind : Nat} {op : Instr} {a b : Word} {data : List Byte} {k : Word → State → Res} (hs : Canonical s)
    (hk : ∀ {v : Word} {t : State}, Canonical t → CanonicalRes (k v t)) : CanonicalRes (s.pairedOp kind op a b data k) := by
  unfold State.pairedOp
  refine .ite (.wait hs) (Canonical.ask hs (fun ht => ht.sameMem.sendReq) (fun ht => ?_))
  split
  · exact hk ht
  · exact hk ht

theorem Canonical.execSpawn {d a b : BitVec 5} (hs : Canonical s) : CanonicalOut (Machine.execSpawn d a b s) :=
  Canonical.finish hs (Canonical.checkTarget hs (fun ht => Canonical.release ht
    (fun hu => .ite (Canonical.pairedOp hu (fun hv => .ok hv.setX)) (.ok hu.store'.spawnNow.reload.setX))))

/-! ### EXIT, YIELD (R304, R306) -/

theorem Canonical.execExit (hs : Canonical s) : CanonicalOut (Machine.execExit s) := by
  unfold Machine.execExit
  refine Canonical.finish hs (.ite (.wait hs) (.ok (.onModule hs (fun ht => ?_))))
  split
  · exact ht.endThread.activationExit
  · exact ht.endThread

theorem Canonical.execYield (hs : Canonical s) : CanonicalOut (Machine.execYield s) :=
  Canonical.finish hs (.ok hs.sameMem)

/-! ### Task sets (R27, R28, R307) -/

theorem Canonical.execTgrow {d a : BitVec 5} (hs : Canonical s) : CanonicalOut (Machine.execTgrow d a s) := by
  unfold Machine.execTgrow
  refine Canonical.finish hs ?_
  split
  · exact .ok hs.setX
  · exact .ite (.ok hs.setX) (.ok hs.modRun.post.setX)

theorem Canonical.execTidx {d : BitVec 5} (hs : Canonical s) : CanonicalOut (Machine.execTidx d s) :=
  hs.writeX

theorem Canonical.execTidxNx {d : BitVec 5} (hs : Canonical s) : CanonicalOut (Machine.execTidxNx d s) :=
  hs.writeX

theorem Canonical.dispatchOne {p c : Nat} (hs : Canonical s) : Canonical (s.dispatchOne p c) := by
  unfold State.dispatchOne
  split
  · exact hs
  · split
    · exact hs
    · refine .ite hs ?_
      split
      · exact hs
      · exact .ite hs.newSerial.putThread.modRun.setGroup hs.newSerial.putThread.modRun

theorem Canonical.dispatch {p : Nat} (hs : Canonical s) : Canonical (s.dispatch p) :=
  hs.foldl (fun ht => ht.foldl (fun hu => hu.dispatchOne))

theorem Canonical.execTaskDispatch (hs : Canonical s) : CanonicalOut (Machine.execTaskDispatch s) := by
  unfold Machine.execTaskDispatch
  split
  · exact .next hs.dispatch.post
  · exact .next hs

/-! ### The end of a bank and of a core's work (R304, R37) -/

theorem Canonical.afterRelease {c b : Nat} {t : Thread} (hs : Canonical s) : Canonical (s.afterRelease c b t) := by
  unfold State.afterRelease
  refine .post (.post (.retryReleases (.startClearing (.ite (.post (.ite (.post ?_) ?_)) (.ite (.post ?_) ?_)))))
  · split
    · refine .post ?_
      split
      · exact hs.landingEnded
      · exact hs
    · split
      · exact hs.landingEnded
      · exact hs
  · split
    · refine .post ?_
      split
      · exact hs.landingEnded
      · exact hs
    · split
      · exact hs.landingEnded
      · exact hs
  · split
    · refine .post ?_
      split
      · exact hs.landingEnded
      · exact hs
    · split
      · exact hs.landingEnded
      · exact hs
  · split
    · refine .post ?_
      split
      · exact hs.landingEnded
      · exact hs
    · split
      · exact hs.landingEnded
      · exact hs

theorem Canonical.execBankRelease (hs : Canonical s) : CanonicalOut (Machine.execBankRelease s) := by
  unfold Machine.execBankRelease
  split
  · refine .next ?_
    split
    · exact .ite hs (.ite (hs.modCoreAt (fun ht => ht.same)).post (hs.modCoreAt (fun ht => ht.same)).afterRelease)
    · exact hs
  · exact .next hs

theorem CanonicalCore.cleared {k : Core} : CanonicalCore k.cleared :=
  ⟨rfl, rfl⟩

theorem Canonical.execClearing (hs : Canonical s) : CanonicalOut (Machine.execClearing s) := by
  unfold Machine.execClearing
  split
  · exact .next (hs.modCore (fun ht => CanonicalCore.cleared)).retryReleases.post
  · exact .next hs

theorem Canonical.sendExchange {c : Nat} {t : Thread} {e : Nat} {late : Bool} (hs : Canonical s) : Canonical (s.sendExchange c t e late) :=
  hs.emit

theorem Canonical.execXsend {a : BitVec 5} (hs : Canonical s) : CanonicalOut (Machine.execXsend a s) := by
  unfold Machine.execXsend
  refine Canonical.finish hs ?_
  split
  · exact .trapR
  · exact Canonical.release hs (fun ht => .ite (Canonical.ask ht (fun hu => hu.post) (fun hu => .ok hu.takeCycle))
      (.ite .trapR (.ok (ht.onModule (fun hu => hu.sendExchange)))))

theorem Canonical.execXrecv {a : BitVec 5} (hs : Canonical s) : CanonicalOut (Machine.execXrecv a s) := by
  unfold Machine.execXrecv
  refine Canonical.finish hs ?_
  split
  · exact .trapR
  · exact .ite (Canonical.logged hs (.ok hs.dropPending.wrOwn)) (.ite (.wait hs.block) (.wait hs.blockWord'))

theorem Canonical.execExchangeWindow (hs : Canonical s) : CanonicalOut (Machine.execExchangeWindow s) := by
  unfold Machine.execExchangeWindow
  dsimp only
  split
  · refine .next ?_
    split
    · split
      · exact .ite hs (.ite hs.modThread hs.sendExchange.answer1)
      · exact hs
    · exact hs.modThread
  · exact .next hs

theorem Canonical.landExchange {x : XMsg} {place : Nat} (hs : Canonical s) : Canonical (s.landExchange x place) := by
  unfold State.landExchange
  dsimp only
  split
  · exact hs.count
  · refine .ite hs.count ?_
    split
    · exact hs.wrTcmAt.modCoreAt (fun ht => ht.modBank)
    · exact hs.wrTcmAt.wrTcmAt.modCoreAt (fun ht => ht.modBank)

theorem Canonical.execExchangeArrival (hs : Canonical s) : CanonicalOut (Machine.execExchangeArrival s) := by
  unfold Machine.execExchangeArrival
  split
  · exact .next (.ite hs.keep hs.landExchange)
  · exact .next hs

end Sys2Proof.Claims
end

section
/-! SUPPORT. The canonical form of every memory through migration, seizing and settling a core, restore, and staking. -/

namespace Sys2Proof.Claims

open Sys2Proof.Machine

set_option Elab.async false

variable {s : State}

/-! ### Forwarding entries (R43, R234) -/

theorem CanonicalCore.putEntry {k : Core} {f : Forward} (hk : CanonicalCore k) : CanonicalCore (k.putEntry f).1 := by
  unfold Core.putEntry
  split
  · exact hk.same
  · exact hk

theorem Canonical.leaveEntry {c : Nat} {f : Forward} (hs : Canonical s) : Canonical (s.leaveEntry c f).1 :=
  hs.setCore hs.core.putEntry

theorem Canonical.rewrite {back : List (Nat × Nat)} {dest : Nat} (hs : Canonical s) : Canonical (s.rewrite back dest) :=
  hs.foldl (fun ht => ht.modCore (fun hu => hu.same))

/-! ### MIGR (R41, R42, R305) -/

theorem Canonical.setOut {dest : Nat} {hint : Bool} (hs : Canonical s) : Canonical (s.setOut dest hint) :=
  .emitOwn (hs.fresh.replace (issuing := fun _ => hs.fresh.issuing.putEntry))

theorem Canonical.execMigr {a : BitVec 5} (hs : Canonical s) : CanonicalOut (Machine.execMigr a s) := by
  unfold Machine.execMigr
  refine Canonical.finish hs ?_
  split
  · exact .trapR
  · exact .ite (.ok hs) (.ite (.wait hs) (.ite .trapOpen (.ite .trapR (.ite (.wait hs) (.ok hs.setOut)))))

theorem Canonical.execMigrLd {d a : BitVec 5} (hs : Canonical s) : CanonicalOut (Machine.execMigrLd d a s) := by
  unfold Machine.execMigrLd
  refine Canonical.finish hs ?_
  split
  · exact Canonical.loadRes hs (fun ht => .ok ht.sameMem.setX)
  · exact .ite (Canonical.loadRes hs (fun ht => .ok ht.sameMem.setX))
      (.ite (.wait hs) (.ite (Canonical.loadRes hs (fun ht => .ok ht.sameMem.setX)) (.ite (.wait hs) (.wait hs.setOut))))

/-! ### Arrival (R41, R42) -/

theorem Canonical.depart {m : Moving} {place b dest : Nat} {t : Thread} (hs : Canonical s) :
    Canonical (s.depart m place b dest t).1 := by
  unfold State.depart
  extract_lets c back u v w
  have hu : Canonical u := hs.rewrite
  have hv : Canonical v := hu.modCoreAt fun hk => hk.same
  clear_value v w
  split
  · exact .fst hv.post
  · exact .fst hv.afterRelease

theorem Canonical.joins {id c : Nat} {t : Thread} (hs : Canonical s) : InSome Canonical (s.joins id c t) :=
  .mapAll hs.sameMem.putThread.refillBox0

theorem Canonical.moveRetry {id : Nat} (hs : Canonical s) : Canonical (s.moveRetry id) :=
  hs.post

theorem Canonical.moveArrives {id : Nat} {m : Moving} (hs : Canonical s) : Canonical (s.moveArrives id m) := by
  unfold State.moveArrives
  dsimp only
  split
  · exact hs.sameMem
  · split
    · exact hs
    · refine .ite hs.sameMem (.ite hs.moveRetry (.ite (hs.sameMem.modThread.modCore (fun ht => ht.same)) ?_))
      split
      · exact hs.depart.joins.getD hs.depart
      · exact .ite hs.moveRetry (hs.depart.sameMem.modCore (fun ht => ht.same))

theorem Canonical.fromRunQueue {id : Nat} {m : Moving} (hs : Canonical s) : Canonical (s.fromRunQueue id m) := by
  unfold State.fromRunQueue
  split
  · next he =>
      exact (hs.joins _ he).modCore (fun ht => ht.same)
  · exact hs

theorem Canonical.execMigrationArrival (hs : Canonical s) : CanonicalOut (Machine.execMigrationArrival s) := by
  unfold Machine.execMigrationArrival
  split
  · refine .next ?_
    split
    · exact .ite hs.fromRunQueue hs.moveArrives
    · exact hs
  · exact .next hs

theorem Canonical.execMigrationResend (hs : Canonical s) : CanonicalOut (Machine.execMigrationResend s) := by
  unfold Machine.execMigrationResend
  split
  · refine .next ?_
    split
    · exact hs.emit
    · exact hs
  · exact .next hs

/-! ### Stream places and eviction records (R48, R233) -/

theorem Canonical.takePlace {cl : Nat} (hs : Canonical s) : Canonical (s.takePlace cl) :=
  hs.modFront

theorem Canonical.givePlace {cl : Nat} (hs : Canonical s) : Canonical (s.givePlace cl) :=
  hs.modFront.foldl (fun ht => ht.drain)

theorem Canonical.execPreemption (hs : Canonical s) : CanonicalOut (Machine.execPreemption s) := by
  unfold Machine.execPreemption
  split
  · refine .next (.ite hs.post ?_)
    split
    · exact .ite hs.post hs.post
    · refine .ite hs.post ?_
      split
      · exact hs.takePlace.post
      · exact hs.post
  · exact .next hs

/-! ### Settling (R47) -/

theorem Canonical.flushStreams {c : Nat} (hs : Canonical s) : Canonical (s.flushStreams c) :=
  hs.foldl (fun ht => ht.foldl (fun hu => .ite (hu.foldl (fun hv => hv.copyStep)) hu))

theorem Canonical.withdrawParked {c : Nat} (hs : Canonical s) : Canonical (s.withdrawParked c) := by
  unfold State.withdrawParked
  refine .foldl hs (fun ht => .ite ?_ ht)
  split
  · exact ht.modThread.post
  · exact ht

theorem Canonical.settle {c : Nat} (hs : Canonical s) : Canonical (s.settle c) :=
  (hs.flushStreams.withdrawParked.unpost.breakRotation.modCore (fun ht => ht.dropLink)).foldl (fun ht => ht.count)

theorem CanonicalCore.context {k : Core} (hk : CanonicalCore k) : CanonicalCore k.context :=
  hk.same

theorem CanonicalCore.left {k : Core} {how : Option Vacate} : CanonicalCore (k.left how) :=
  ⟨rfl, rfl⟩

/-! ### Staked cores become ready (R49, R316) -/

theorem Canonical.stakeReady {id c : Nat} {granted : Bool} (hs : Canonical s) : Canonical (s.stakeReady id c granted) := by
  unfold State.stakeReady
  split
  · exact hs
  · exact .ite (Canonical.ite (hs.modCore (fun ht => ht.same)) hs).modFront.post (Canonical.ite (hs.modCore (fun ht => ht.same)) hs).modFront

theorem Canonical.seize {c : Nat} {how : Vacate} (hs : Canonical s) : Canonical (s.seize c how) := by
  unfold State.seize
  extract_lets k cl s' k' i s'' any place e s''' x
  split
  · split
    · exact hs.post
    · exact hs.givePlace.post
    · exact hs.givePlace.stakeReady
  · refine .post (.modCore (.setContext ?_ ?_) fun _ => .left)
    · exact (hs.settle.fresh.leaveEntry).rewrite
    · exact hs.settle.core.context.same

theorem Canonical.execSeize (hs : Canonical s) : CanonicalOut (Machine.execSeize s) := by
  unfold Machine.execSeize
  refine Canonical.orWait hs ?_
  split
  · exact .next hs.seize
  · exact .next hs

/-! ### Restore (R45) -/

theorem Canonical.replyTo {d : Nat} {b : Payload} (hs : Canonical s) : Canonical (s.replyTo d b) :=
  hs.faultReplyMail

theorem Canonical.deliverArrival {d : Nat} {a : Nat × Nat × Payload} (hs : Canonical s) : Canonical (s.deliverArrival d a) := by
  unfold State.deliverArrival
  split
  · exact hs.replyTo
  · exact hs
  · exact hs.mailOrDrop
  · exact .ite (hs.putMail.getD (hs.modCore (fun ht => ht.same))) (.ite hs.replyTo (.ite hs.debugCommand hs.mailOrDrop))

theorem Canonical.resumeCopy {d id : Nat} {y : Copy} (hs : Canonical s) : Canonical (s.resumeCopy d id y) := by
  unfold State.resumeCopy
  refine .ite hs.post (.ite hs ?_)
  split
  · exact .ite hs hs.post
  · exact .ite hs (hs.modCore (fun ht => ht.same)).post
  · exact .ite hs.post hs.post
  · exact hs.post

theorem Canonical.setLate {d : Nat} (hs : Canonical s) : Canonical (s.setLate d) :=
  hs.foldl fun hs => .ite (hs.modCore fun hk => .tcmBytes hk (Memory.wf_wr8 _ _ _ hk.tcm)) hs

theorem Canonical.addReachOf {p c : Nat} (hs : Canonical s) : Canonical (s.addReachOf p c) :=
  .mapCores hs (fun ht => .ite ht.addReach ht)

theorem Canonical.land {id : Nat} {x : Context} {d : Nat} (hs : Canonical s) (hx : CanonicalCore x.core) :
    Canonical (s.land id x d) := by
  unfold State.land
  extract_lets k0 held _ k s1 s2 s3 s4 s5 s6 s7
  have h1 : Canonical s1 := hs.delContext.setCore hx.same
  have h2 : Canonical s2 := h1.rewrite.addReachOf.modRun
  have h3 : Canonical s3 := h2.setLate.foldl fun h => h.replyTo
  have h4 : Canonical s4 := h3.foldl fun h => h.deliverArrival
  have h5 : Canonical s5 := h4.foldl fun h => h.resumeCopy
  have h6 : Canonical s6 := h5.foldl fun h => .post h.sameMem
  have h7 : Canonical s7 := .ite h6 h6.post
  exact h7.drain.refillBox0.startClearing

theorem Canonical.vacated {c : Nat} (hs : Canonical s) : Canonical (s.vacated c) :=
  hs.modCore (fun _ => .left)

theorem Canonical.writeRecord {x : Context} {r : Nat} (hs : Canonical s) : Canonical (s.writeRecord x r) :=
  hs.setPad (Memory.wf_wrBlock _ _ _ hs.pad)

theorem Canonical.syncRecords {t s : State} (ht : Canonical t) : Canonical (t.syncRecords s) := by
  unfold State.syncRecords
  refine .foldl ht (fun hu => ?_)
  split
  · exact .ite hu (hu.setPad (Memory.wf_wrBlock _ _ _ hu.pad))
  · exact hu

theorem Canonical.streamEnd {id : Nat} {x : Context} (hs : Canonical s) (hx : CanonicalCore x.core) :
    Canonical (s.streamEnd id x) := by
  unfold State.streamEnd
  split
  · exact (hs.vacated.land hx).post
  · exact (hs.givePlace.land hx).post
  · next r _ _ =>
    extract_lets s1 s2
    have h1 : Canonical s1 := hs.vacated.givePlace.writeRecord
    have h2 : Canonical s2 := h1.setContext hx
    split
    · exact h2.stakeReady
    · exact h2.post
  · exact hs

theorem Canonical.execContextStreamEnd (hs : Canonical s) : CanonicalOut (Machine.execContextStreamEnd s) := by
  unfold Machine.execContextStreamEnd
  split
  · refine .next ?_
    split
    · next he =>
        exact .ite (hs.streamEnd (hs.context _ he)).post hs
    · exact hs
  · exact .next hs

theorem Canonical.execRestore (hs : Canonical s) : CanonicalOut (Machine.execRestore s) := by
  unfold Machine.execRestore
  split
  · refine .next ?_
    split
    · exact hs
    · next he =>
      have hx := hs.context _ he
      exact .ite hs (.ite hs.post (.post (hs.takePlace.setContext hx)))
  · exact .next hs

theorem Canonical.tryRestores (hs : Canonical s) : Canonical s.tryRestores := by
  unfold State.tryRestores
  refine .foldl hs (fun ht => .ite ht ?_)
  split
  · exact ht.post
  · exact ht

/-! ### STAKE and UNSTAKE (R315, R317) -/

theorem Canonical.execStake {d a b : BitVec 5} (hs : Canonical s) : CanonicalOut (Machine.execStake d a b s) := by
  unfold Machine.execStake
  refine Canonical.finish hs (.ite .trapR (.ite .trapR (.ite .trapR ?_)))
  split
  · exact .ok hs.setX
  · exact .ite (.wait hs) (.ok hs.sameMem.sendReq.setX)

theorem Canonical.unstake {w : Who} {k : Nat} (hs : Canonical s) : Canonical (s.unstake w k).2 :=
  hs.modThread.foldl (fun ht => ht.unstakeCore)

theorem Canonical.execUnstake {d a : BitVec 5} (hs : Canonical s) : CanonicalOut (Machine.execUnstake d a s) :=
  Canonical.finish hs (Canonical.release hs (fun ht => .ite (Canonical.pairedOp ht (fun hu => .ok hu.sameMem.setX))
    (.ok ht.store'.unstake.reload.setX)))

/-! ### The stake arbiter (R48, R49) -/

theorem Canonical.claimEviction {r : StakeReq} {n : Nat} {a : State × List Nat} {c : Nat} (ha : Canonical a.1) :
    Canonical (State.claimEviction r n a c).1 := by
  unfold State.claimEviction
  dsimp only
  split
  · exact ha
  · split
    · exact ha
    · split
      · exact ha
      · exact ha.takePlace.post

theorem Canonical.serveStake {r : StakeReq} (hs : Canonical s) : Canonical (s.serveStake r) := by
  unfold State.serveStake
  extract_lets n free u kind order e v
  have hu : Canonical u := hs.foldl fun h => h.modCore fun hk => hk.same
  have hv : Canonical v := .modFront (.foldlFst hu fun h => h.claimEviction)
  exact .ite hv.post hv

theorem Canonical.execStakeRequest (hs : Canonical s) : CanonicalOut (Machine.execStakeRequest s) := by
  unfold Machine.execStakeRequest
  split
  · exact .next hs.serveStake
  · exact .next hs

theorem Canonical.bindStaked {p from_ : Nat} {l : List Nat} (hs : Canonical s) : Canonical (s.bindStaked p from_ l) :=
  (hs.foldl (fun ht => ht.modCore (fun hu => hu.same))).foldl (fun ht => ht.addReachOf)

theorem Canonical.grantTo {w : Who} {r : StakeReq} {l : List Nat} (hs : Canonical s) : Canonical (s.grantTo w r l) := by
  unfold State.grantTo
  dsimp only
  split
  · exact hs.modThread
  · exact hs.modThread.putMail.getD (hs.modThread.modCore (fun ht => ht.same))

theorem Canonical.execStakeGrant (hs : Canonical s) : CanonicalOut (Machine.execStakeGrant s) := by
  unfold Machine.execStakeGrant
  dsimp only
  split
  · refine .next ?_
    split
    · exact hs
    · refine .ite hs.keep ?_
      split
      · exact hs.modFront.foldl (fun ht => ht.unstakeCore)
      · exact hs.modFront.bindStaked.forTwins (fun ht => ht.grantTo)
  · exact .next hs

/-! ### The standby mask (R33, R392) -/

theorem Canonical.execStandbyMaskWrite (hs : Canonical s) : CanonicalOut (Machine.execStandbyMaskWrite s) := by
  unfold Machine.execStandbyMaskWrite
  split
  · exact .next (.ite hs hs.modFront.post)
  · exact .next hs

end Sys2Proof.Claims
end

section
/-! SUPPORT. The canonical form of every memory through architected queues and the Divider. -/

namespace Sys2Proof.Claims

open Sys2Proof.Machine

set_option Elab.async false

variable {s : State}

/-! ### Memory as a home controller reads and writes it (R325) -/

theorem Canonical.rdStore {sp tenant ea n : Nat} (hs : Canonical s) : InSome (fun r => Canonical r.2) (s.rdStore sp tenant ea n) := by
  unfold State.rdStore
  refine .ite (.mapAll hs) (.ite .none ?_)
  split
  · next he =>
      exact .some (hs.rdVirtual _ he)
  · exact .none

theorem Canonical.wrStore {sp tenant ea : Nat} {l : List Byte} (hs : Canonical s) : InSome Canonical (s.wrStore sp tenant ea l) := by
  unfold State.wrStore
  refine .ite (.mapAll hs.wrReflex) (.ite .none ?_)
  split
  · next he =>
      exact .some (hs.wrVirtual _ he)
  · exact .none

theorem Canonical.pokeLine {sp tenant ea : Nat} {l : List Byte} (hs : Canonical s) : Canonical (s.pokeLine sp tenant ea l) :=
  hs.wrStore.getD hs

/-! ### Queue tables (R320) -/

theorem Canonical.setQueue {h : Nat} {q : Queue} (hs : Canonical s) : Canonical (s.setQueue h q) := by
  unfold State.setQueue
  exact hs.fresh.modHome

theorem Canonical.retire {h : Nat} {q : Queue} (hs : Canonical s) : Canonical (s.retire h q) :=
  .ite hs.modHome hs.modHome.pokeLine

theorem Canonical.roomQueue {h : Nat} (hs : Canonical s) : InSome Canonical (s.roomQueue h) := by
  unfold State.roomQueue
  refine .ite (.some hs) ?_
  split
  · exact .some hs.retire
  · exact .none

theorem Canonical.insertQueue {h : Nat} {q : Queue} (hs : Canonical s) : Canonical (s.insertQueue h q) :=
  hs.dropL0.setQueue

theorem Canonical.mirrorWhole {h : Nat} {q : Queue} (hs : Canonical s) : Canonical (s.mirrorWhole h q) := by
  unfold State.mirrorWhole
  refine .ite hs ?_
  split
  · next he =>
      exact (hs.rdStore _ he).mirrorOut
  · exact hs

theorem Canonical.lendDue {q : Queue} (hs : Canonical s) : Canonical (s.lendDue q).2 := by
  unfold State.lendDue
  dsimp only
  split
  · split
    · exact hs
    · exact hs.sayPeer
  · split
    · exact hs
    · exact hs.sayPeer

theorem Canonical.activate {h qcb sp : Nat} (hs : Canonical s) : InQueue (fun r => Canonical r.2) (s.activate h qcb sp) := by
  unfold State.activate
  dsimp only
  split
  · exact .ite (.poisoned hs.setQueue) (.ite (.ok' (.snd hs.setQueue)) (.corrupt hs.setQueue))
  · split
    · exact .corrupt hs
    · next he1 =>
        refine .ite (.poisoned (hs.rdStore _ he1)) ?_
        split
        · exact .table
        · next he =>
            exact .ite (.ok' (.snd ((hs.rdStore _ he1).roomQueue _ he).lendDue.insertQueue.mirrorWhole))
              (.corrupt ((hs.rdStore _ he1).roomQueue _ he).pokeLine.insertQueue)

/-! ### Replies and grants (R330, R405) -/

theorem Canonical.leave {mirrored : Bool} {delay : Nat} {e : Event} (hs : Canonical s) : Canonical (s.leave mirrored delay e) :=
  .ite hs.modFront hs.post

theorem Canonical.replyOp {id : Nat} {mirrored : Bool} {r : Reply} (hs : Canonical s) : Canonical (s.replyOp id mirrored r) := by
  unfold State.replyOp
  split
  · exact hs.sameMem.leave
  · exact hs

theorem Canonical.writeWaiter {h n : Nat} {w : Waiter} (hs : Canonical s) : Canonical (s.writeWaiter h n w) :=
  .ite (hs.replace (store := fun _ => wf_write hs.store)) (hs.foldl (fun ht => ht.pokeDram))

theorem Canonical.freeRecordOf {h ticket : Nat} (hs : Canonical s) : Canonical (s.freeRecordOf h ticket) :=
  .ite hs.modHome hs.modHome.post

theorem Canonical.grantTo1 {h : Nat} {q : Queue} {w : Waiter} {consumer : Bool} {status : Nat} {data : List Byte} (hs : Canonical s) :
    Canonical (s.grantTo1 h q w consumer status data) :=
  hs.freeRecordOf.leave

theorem Canonical.wakeAll {h : Nat} {q : Queue} {status : Nat} (hs : Canonical s) : Canonical (s.wakeAll h q status) :=
  (hs.foldl (fun ht => ht.grantTo1)).foldl (fun ht => ht.grantTo1)

theorem Canonical.park {h id : Nat} {o : QOp} {q : Queue} {producer : Bool} (hs : Canonical s) : InSome Canonical (s.park h id o q producer) := by
  unfold State.park
  refine .ite .none (.some ?_)
  split
  · refine .post (.modThread (.foldl ?_ (fun ht => ht.modThread)))
    split
    · exact hs.sameMem
    · split
      · exact hs.modHome.setQueue.modHome.writeWaiter.sameMem
      · exact hs.sameMem
  · refine .foldl ?_ (fun ht => ht.modThread)
    split
    · exact hs.sameMem
    · split
      · exact hs.modHome.setQueue.modHome.writeWaiter.sameMem
      · exact hs.sameMem

/-! ### Elements (R328, R329, R339) -/

theorem Canonical.putQueue {h : Nat} {q : Queue} (hs : Canonical s) : Canonical (s.putQueue h q) :=
  hs.lendDue.setQueue

theorem Canonical.mirrorQueue {q : Queue} {m : Mirror} (hs : Canonical s) : Canonical (s.mirrorQueue q m) :=
  .ite hs.mirrorOut hs

theorem Canonical.appendElem {h : Nat} {q : Queue} {pay : List Byte} {lent : Bool} (hs : Canonical s) :
    InSome Canonical (s.appendElem h q pay lent) :=
  hs.wrStore.map (fun ht => ht.mirrorQueue.putQueue)

theorem Canonical.putElem {h : Nat} {q : Queue} {pay : List Byte} {lent : Bool} (hs : Canonical s) :
    InQueue (InSome Canonical) (s.putElem h q pay lent) := by
  unfold State.putElem
  split
  · exact .ok' (.some hs.mirrorQueue.putQueue.grantTo1)
  · refine .ite ?_ (.ok' .none)
    split
    · next he =>
        exact .ok' (.some (hs.appendElem _ he))
    · exact .corrupt hs.setQueue

theorem Canonical.takeElem {h : Nat} {q : Queue} (hs : Canonical s) : InQueue (InSome fun r => Canonical r.2) (s.takeElem h q) := by
  unfold State.takeElem
  dsimp only
  refine .ite (.ok' .none) ?_
  split
  · exact .corrupt hs.setQueue
  · split
    · next he _ _ =>
        exact .ok' (.some (hs.rdStore _ he).mirrorQueue.putQueue)
    · split
      · next he _ _ _ _ _ _ he2 =>
          exact .ok' (.some ((hs.rdStore _ he).mirrorQueue.appendElem _ he2).grantTo1)
      · exact .corrupt hs.setQueue

/-! ### Operations at the home -/

theorem Canonical.stopOp {id : Nat} {o : QOp} {x : QStop} (hs : Canonical s) (hx : CanonicalQStop x) : Canonical (s.stopOp id o x) := by
  unfold State.stopOp
  split
  · exact (hx.poisoned _ rfl).replyOp
  · exact (hx.corrupt _ rfl).replyOp
  · exact hs.replyOp

theorem Canonical.blockOp {h id : Nat} {o : QOp} {q : Queue} {producer try_ : Bool} (hs : Canonical s) :
    Canonical (s.blockOp h id o q producer try_) :=
  .ite hs.replyOp (.ite hs.replyOp (hs.park.getD hs.replyOp))

theorem Canonical.enqOp {h id : Nat} {o : QOp} {try_ : Bool} (hs : Canonical s) : Canonical (s.enqOp h id o try_) := by
  unfold State.enqOp
  split
  · next he =>
      exact hs.stopOp (hs.activate.error _ he)
  · next he1 =>
      refine .ite (hs.activate.ok _ he1).replyOp ?_
      split
      · next he =>
          exact (hs.activate.ok _ he1).stopOp ((hs.activate.ok _ he1).putElem.error _ he)
      · next he =>
          exact (((hs.activate.ok _ he1).putElem.ok _ he) _ rfl).replyOp
      · exact (hs.activate.ok _ he1).blockOp

theorem Canonical.deqOp {h id : Nat} {o : QOp} {try_ : Bool} (hs : Canonical s) : Canonical (s.deqOp h id o try_) := by
  unfold State.deqOp
  split
  · next he =>
      exact hs.stopOp (hs.activate.error _ he)
  · next he1 =>
      refine .ite (hs.activate.ok _ he1).replyOp ?_
      split
      · next he =>
          exact (hs.activate.ok _ he1).stopOp ((hs.activate.ok _ he1).takeElem.error _ he)
      · next he =>
          exact (((hs.activate.ok _ he1).takeElem.ok _ he) _ rfl).replyOp
      · exact (hs.activate.ok _ he1).blockOp

theorem Canonical.qinitOp {h id : Nat} {o : QOp} (hs : Canonical s) : Canonical (s.qinitOp h id o) := by
  unfold State.qinitOp
  extract_lets ten q old u
  have hu : Canonical u := by
    cases ho : old with
    | none => simp only [u, ho]; exact hs
    | some p => simp only [u, ho]; exact hs.wakeAll.modHome
  clear_value u
  refine .ite hs.replyOp (.ite hs.replyOp ?_)
  split
  · exact hu.replyOp
  · next he => exact (hu.roomQueue _ he).pokeLine.insertQueue.putQueue.mirrorWhole.replyOp

theorem Canonical.qstatOp {h id : Nat} {o : QOp} (hs : Canonical s) : Canonical (s.qstatOp h id o) := by
  unfold State.qstatOp
  dsimp only
  split
  · exact hs.setQueue.replyOp
  · refine .ite hs.foreign.replyOp ?_
    split
    · exact hs.replyOp
    · next he =>
        exact (hs.rdStore _ he).replyOp

theorem Canonical.qdrainOp {h id : Nat} {o : QOp} (hs : Canonical s) : Canonical (s.qdrainOp h id o) := by
  unfold State.qdrainOp
  split
  · next he =>
      exact hs.stopOp (hs.activate.error _ he)
  · next he =>
      exact (hs.activate.ok _ he).setQueue.wakeAll.replyOp

theorem Canonical.qresetOp {h id : Nat} {o : QOp} (hs : Canonical s) : Canonical (s.qresetOp h id o) := by
  unfold State.qresetOp
  dsimp only
  split
  · exact .ite hs.replyOp (Canonical.ite hs.wakeAll.retire.sayPeer hs.wakeAll.retire).replyOp
  · split
    · exact hs.replyOp
    · next he =>
        exact .ite (hs.rdStore _ he).replyOp (Canonical.ite (hs.rdStore _ he).wakeAll.retire.sayPeer (hs.rdStore _ he).wakeAll.retire).replyOp

/-! ### Shadows (R339, R340) -/

theorem Canonical.shadow {h qcb sp ten : Nat} (hs : Canonical s) : InSome (fun r => Canonical r.2) (s.shadow h qcb sp ten) := by
  unfold State.shadow
  split
  · exact .some hs.setQueue
  · exact hs.foreign.roomQueue.map (fun ht => ht.setQueue)

theorem Canonical.sendPeer {h id : Nat} {q : Queue} {data : List Byte} (hs : Canonical s) : Canonical (s.sendPeer h id q data) :=
  hs.setQueue.sayPeer

theorem Canonical.shadowOp {h id : Nat} {o : QOp} {try_ : Bool} (hs : Canonical s) : Canonical (s.shadowOp h id o try_) := by
  unfold State.shadowOp
  refine .ite hs.replyOp ?_
  split
  · exact hs.replyOp
  · next he =>
      exact .ite (hs.shadow _ he).replyOp (.ite (hs.shadow _ he).sendPeer
        (.ite (hs.shadow _ he).replyOp ((hs.shadow _ he).park.getD (hs.shadow _ he).replyOp)))

theorem Canonical.serveShadow {h : Nat} {q : Queue} {x : Nat} (hs : Canonical s) : Canonical (s.serveShadow h q x) := by
  induction x generalizing s h q with
  | zero => exact hs.setQueue
  | succ n ih =>
    unfold State.serveShadow
    dsimp only
    split
    · exact hs.setQueue
    · refine .ite hs.setQueue ?_
      split
      · exact ih hs.sameMem.freeRecordOf.sendPeer
      · exact ih hs.freeRecordOf

theorem Canonical.execCreditMessage (hs : Canonical s) : CanonicalOut (Machine.execCreditMessage s) := by
  unfold Machine.execCreditMessage
  refine Canonical.orWait hs ?_
  split
  · refine .next (.ite hs.modHome (.ite hs ?_))
    split
    · next he =>
        exact (hs.shadow _ he).serveShadow
    · exact hs.keep
  · exact .next hs

theorem Canonical.peerEnqueue {e : PeerEnq} (hs : Canonical s) : Canonical (s.peerEnqueue e) := by
  unfold State.peerEnqueue
  dsimp only
  split
  · split
    · next he =>
        exact ((hs.activate.error _ he).poisoned _ rfl).sayPeer
    · next he =>
        exact ((hs.activate.error _ he).corrupt _ rfl).sayPeer
    · exact hs.sayPeer
  · next he1 =>
      refine .ite (hs.activate.ok _ he1).sayPeer (.ite (hs.activate.ok _ he1).sayPeer ?_)
      split
      · next he =>
          exact (((hs.activate.ok _ he1).putElem.ok _ he) _ rfl).sayPeer
      · exact (hs.activate.ok _ he1).sayPeer
      · split
        · next he =>
            exact (((hs.activate.ok _ he1).putElem.error _ he).poisoned _ rfl).sayPeer
        · next he =>
            exact (((hs.activate.ok _ he1).putElem.error _ he).corrupt _ rfl).sayPeer
        · exact hs.sayPeer

theorem Canonical.crossed {id : Nat} {o : QOp} {st : Nat} (hs : Canonical s) : Canonical (s.crossed id o st) :=
  .ite hs.modHome hs.sameMem

theorem Canonical.cutHome {h : Nat} (hs : Canonical s) : Canonical (s.cutHome h) :=
  hs.foldl (fun ht => .ite ht.wakeAll.setQueue (.ite ht.setQueue ht))

theorem Canonical.execPeerUnreachable (hs : Canonical s) : CanonicalOut (Machine.execPeerUnreachable s) := by
  unfold Machine.execPeerUnreachable
  split
  · exact .next ((hs.modFront.foldl (fun ht => ht.cutHome)).foldl (fun ht => ht.drawn.replyOp))
  · exact .next hs

theorem Canonical.lendAll (hs : Canonical s) : Canonical s.lendAll :=
  hs.foldl (fun ht => ht.foldl (fun hu => .ite hu.putQueue hu))

/-! ### Grants, withdrawals, records (R330, R337) -/

theorem Canonical.putPayload {place : Nat} {desc : Word} {data : List Byte} (hs : Canonical s) : Canonical (s.putPayload place desc data) :=
  .ite hs hs.wrTcmAt

theorem Canonical.resultTo {w : Who} {id : Nat} {desc xd : Word} {ok : Bool} {data : List Byte} (hs : Canonical s) :
    Canonical (s.resultTo w id desc xd ok data) := by
  unfold State.resultTo
  split
  · exact hs.putPayload.answer1
  · exact hs.answer1

theorem Canonical.applyGrant {g : Grant} {w : Who} {id : Nat} (hs : Canonical s) : Canonical (s.applyGrant g w id) := by
  unfold State.applyGrant
  split
  · exact hs.putPayload.modThread.append
  · exact hs.resultTo

theorem Canonical.execQueueGrant (hs : Canonical s) : CanonicalOut (Machine.execQueueGrant s) := by
  unfold Machine.execQueueGrant
  split
  · refine .next ?_
    split
    · exact .ite hs.keep (hs.forTwins (fun ht => ht.applyGrant))
    · exact hs
  · exact .next hs

theorem Canonical.rejoin {w : Who} (hs : Canonical s) : Canonical (s.rejoin w) := by
  unfold State.rejoin
  split
  · exact hs.modThread
  · exact hs

theorem Canonical.execWaiterWithdrawal (hs : Canonical s) : CanonicalOut (Machine.execWaiterWithdrawal s) := by
  unfold Machine.execWaiterWithdrawal
  split
  · exact .next (.ite hs.modHome.freeRecordOf.rejoin hs)
  · exact .next hs

theorem Canonical.execWaiterRecordReturn (hs : Canonical s) : CanonicalOut (Machine.execWaiterRecordReturn s) := by
  unfold Machine.execWaiterRecordReturn
  split
  · exact .next (.ite hs.modHome hs)
  · exact .next hs

theorem Canonical.dropWaiters {p : Nat} (hs : Canonical s) : Canonical (s.dropWaiters p) :=
  hs.foldl (fun ht => ht.foldl (fun hu => hu.modHome.freeRecordOf.count))

/-! ### Words (R319, R326-R336, R431) -/

theorem Canonical.homeOp {op : Instr} {r : Nat × Nat} {a b : Word} {data : List Byte} {k : Word → Bool → List Byte → State → Res}
    (hs : Canonical s) (hk : ∀ {v : Word} {x : Bool} {x' : List Byte} {t : State}, Canonical t → CanonicalRes (k v x x' t)) : CanonicalRes
      (s.homeOp op r a b data k) := by
  unfold State.homeOp
  refine .ite (.wait hs) (Canonical.ask hs (fun ht => .ite ht.sameMem.sendReq ht.sameMem.emitOwn) (fun ht => ?_))
  split
  · exact hk ht
  · exact hk ht

theorem Canonical.afterConfirm {r : Nat × Nat} {x : Word} {k : State → Res} (hs : Canonical s)
    (hk : ∀ {t : State}, Canonical t → CanonicalRes (k t)) : CanonicalRes (s.afterConfirm r x k) :=
  .ite (hk hs) (hs.request hk)

theorem Canonical.enqWord {op : Instr} {d a b : BitVec 5} {p : Option Nat} (hs : Canonical s) : CanonicalOut (Machine.enqWord op d a b p s) := by
  unfold Machine.enqWord
  refine Canonical.finish hs ?_
  split
  · exact .trapR
  · refine .ite .trapR (Canonical.release hs (fun ht => Canonical.homeOp ht (fun hu => .ok ?_)))
    split
    · exact hu.setX.setP
    · exact hu.setX

theorem Canonical.deqWord {op : Instr} {d a b : BitVec 5} {p : Option Nat} (hs : Canonical s) : CanonicalOut (Machine.deqWord op d a b p s) := by
  unfold Machine.deqWord
  refine Canonical.finish hs ?_
  split
  · exact .trapR
  · refine .ite .trapR (.ite (.wait hs) (Canonical.homeOp hs (fun ht => .ok ?_)))
    split
    · exact ht.setX.setP
    · exact ht.setX

theorem Canonical.execEnq {d a b : BitVec 5} (hs : Canonical s) : CanonicalOut (Machine.execEnq d a b s) :=
  hs.enqWord

theorem Canonical.execEnqt {d a b : BitVec 5} {mod : BitVec 2} (hs : Canonical s) : CanonicalOut (Machine.execEnqt d a b mod s) :=
  hs.enqWord

theorem Canonical.execDeq {d a b : BitVec 5} (hs : Canonical s) : CanonicalOut (Machine.execDeq d a b s) :=
  hs.deqWord

theorem Canonical.execDeqt {d a b : BitVec 5} {mod : BitVec 2} (hs : Canonical s) : CanonicalOut (Machine.execDeqt d a b mod s) :=
  hs.deqWord

theorem Canonical.execQinit {d a b : BitVec 5} (hs : Canonical s) : CanonicalOut (Machine.execQinit d a b s) := by
  unfold Machine.execQinit
  refine Canonical.finish hs ?_
  split
  · exact .trapR
  · exact Canonical.afterConfirm hs (fun ht => .trapR)
  · exact .ite (.wait hs) (.ite .trapR (Canonical.homeOp hs (fun ht => .ok ht.setX)))

theorem Canonical.execQstat {d a b : BitVec 5} (hs : Canonical s) : CanonicalOut (Machine.execQstat d a b s) := by
  unfold Machine.execQstat
  refine Canonical.finish hs ?_
  split
  · exact .trapR
  · exact Canonical.afterConfirm hs (fun ht => .trapR)
  · exact .ite (.wait hs) (Canonical.homeOp hs (fun ht => .ok ht.setX))

theorem Canonical.execQdrain {d a : BitVec 5} (hs : Canonical s) : CanonicalOut (Machine.execQdrain d a s) := by
  unfold Machine.execQdrain
  refine Canonical.finish hs ?_
  split
  · exact .trapR
  · exact Canonical.homeOp hs (fun ht => .ok ht.setX)

theorem Canonical.execQreset {d a : BitVec 5} (hs : Canonical s) : CanonicalOut (Machine.execQreset d a s) := by
  unfold Machine.execQreset
  refine Canonical.finish hs ?_
  split
  · exact .trapR
  · exact Canonical.homeOp hs (fun ht => .ok ht.setX)

/-! ### Pools (R341-R346) -/

theorem Canonical.setPool {h : Nat} {p : Pool} (hs : Canonical s) : Canonical (s.setPool h p) := by
  unfold State.setPool
  exact hs.fresh.modHome

theorem Canonical.roomPool {h : Nat} (hs : Canonical s) : Canonical (s.roomPool h) := by
  unfold State.roomPool
  refine .ite hs ?_
  split
  · exact hs.modHome.pokeLine
  · exact hs

theorem Canonical.activatePool {h addr sp : Nat} (hs : Canonical s) : InPool (fun r => Canonical r.2) (s.activatePool h addr sp) := by
  unfold State.activatePool
  dsimp only
  split
  · exact .ite (.stopped hs.setPool) (.ok' hs.setPool)
  · split
    · exact .stopped hs
    · next he =>
        exact .ite (.ok' (hs.rdStore _ he).roomPool.dropL0.setPool) (.stopped (hs.rdStore _ he).roomPool.dropL0.setPool)

theorem Canonical.rdMeta {p : Pool} {i : Nat} (hs : Canonical s) : InSome (fun r => Canonical r.2) (s.rdMeta p i) :=
  hs.rdStore.map (fun ht => ht)

theorem Canonical.wrMeta {p : Pool} {i v : Nat} (hs : Canonical s) : InSome Canonical (s.wrMeta p i v) :=
  hs.wrStore

theorem Canonical.allocBlock {p : Pool} (hs : Canonical s) : InSome (fun r => Canonical r.2) (s.allocBlock p) := by
  unfold State.allocBlock
  refine .ite (.some hs) ?_
  split
  · exact .none
  · next he =>
      exact .ite .none ((hs.rdMeta _ he).wrMeta.map (fun ht => ht))

theorem Canonical.dropRef {p : Pool} {i : Nat} (hs : Canonical s) : InSome (fun r => Canonical r.2.2) (s.dropRef p i) := by
  unfold State.dropRef
  split
  · exact .none
  · next he =>
      exact .ite .none (.ite (.some (hs.rdMeta _ he)) (.ite ((hs.rdMeta _ he).wrMeta.map (fun ht => ht))
        ((hs.rdMeta _ he).wrMeta.map (fun ht => ht))))

theorem Canonical.stopPool {α : Type} {P : α → Prop} {s : State} {id : Nat} {o : QOp} {r : Except PStop α} {e : PStop} (hs : Canonical s)
    (hr : InPool P r) (he : r = .error e) : Canonical (s.stopPool id o e) := by
  cases e with
  | corrupt t => exact (hr.corrupt _ he).replyOp
  | table => exact hs.replyOp

theorem Canonical.spoil {h id : Nat} {o : QOp} {p : Pool} (hs : Canonical s) : Canonical (s.spoil h id o p) :=
  hs.setPool.replyOp

theorem Canonical.answerOp {id : Nat} {v : Word} (hs : Canonical s) : Canonical (s.answerOp id v) :=
  hs.replyOp

theorem Canonical.pinitOp {h id : Nat} {o : QOp} (hs : Canonical s) : Canonical (s.pinitOp h id o) := by
  unfold State.pinitOp
  dsimp only
  refine .ite hs.replyOp (.ite hs.replyOp ?_)
  split
  · exact hs.replyOp
  · next he =>
      exact (hs.wrStore _ he).modHome.roomPool.pokeLine.dropL0.setPool.answerOp

theorem Canonical.pstatOp {h id : Nat} {o : QOp} (hs : Canonical s) : Canonical (s.pstatOp h id o) := by
  unfold State.pstatOp
  dsimp only
  split
  · exact hs.setPool.replyOp
  · refine .ite hs.foreign.replyOp ?_
    split
    · exact hs.replyOp
    · next he =>
        exact (hs.rdStore _ he).replyOp

theorem Canonical.ballocOp {h id : Nat} {o : QOp} (hs : Canonical s) : Canonical (s.ballocOp h id o) := by
  unfold State.ballocOp
  split
  · next he => exact hs.stopPool hs.activatePool he
  · next he =>
    have ht := hs.activatePool.ok _ he
    split
    · exact ht.spoil
    · next he' => exact (ht.allocBlock _ he').answerOp
    · next he' => exact (ht.allocBlock _ he').setPool.answerOp

theorem Canonical.bfreeOp {h id : Nat} {o : QOp} (hs : Canonical s) : Canonical (s.bfreeOp h id o) := by
  unfold State.bfreeOp
  split
  · next he => exact hs.stopPool hs.activatePool he
  · next he =>
    have ht := hs.activatePool.ok _ he
    refine .ite ht.replyOp ?_
    split
    · exact ht.spoil
    · next he' => exact (ht.dropRef _ he').count.answerOp
    · next he' => exact (ht.dropRef _ he').setPool.answerOp

/-! ### Block tables (R347-R351) -/

theorem Canonical.readTable {sp tenant addr : Nat} (hs : Canonical s) : InSome (fun r => Canonical r.2) (s.readTable sp tenant addr) := by
  unfold State.readTable
  split
  · exact .none
  · next he =>
      exact .ite .none ((hs.rdStore _ he).rdStore.map (fun ht => ht))

theorem Canonical.wrLength {sp tenant : Nat} {t : BTable} {n : Nat} (hs : Canonical s) : InSome Canonical (s.wrLength sp tenant t n) :=
  hs.wrStore

theorem Canonical.wrEntry {sp tenant : Nat} {t : BTable} {j v : Nat} (hs : Canonical s) : InSome Canonical (s.wrEntry sp tenant t j v) :=
  hs.wrStore

theorem Canonical.btapp {h id sp ten : Nat} {o : QOp} {p : Pool} {t : BTable} (hs : Canonical s) :
    InSome Canonical (s.btapp h id sp ten o p t) := by
  unfold State.btapp
  refine .ite (.some hs.replyOp) ?_
  split
  · exact .none
  · next he =>
      exact .some (hs.allocBlock _ he).answerOp
  · next he =>
      exact ((hs.allocBlock _ he).wrEntry.bind (fun ht => ht.wrLength)).map (fun ht => ht.setPool.answerOp)

theorem Canonical.dropAll {h : Nat} {x : Pool} {x' : List Nat} (hs : Canonical s) : InSome (fun r => Canonical r.2.2) (s.dropAll h x x') := by
  induction x' generalizing s h x with
  | nil => exact .some hs
  | cons a l ih =>
    unfold State.dropAll
    split
    · exact .none
    · next he =>
        exact ih (hs.dropRef _ he).count
    · next he =>
        exact (ih (hs.dropRef _ he)).map (fun ht => ht)

theorem Canonical.btrel {h id sp ten : Nat} {p : Pool} {t : BTable} (hs : Canonical s) : InSome Canonical (s.btrel h id sp ten p t) := by
  unfold State.btrel
  split
  · exact .none
  · next he =>
      exact (hs.dropAll _ he).wrLength.map (fun ht => ht.setPool.answerOp)

theorem Canonical.refCounts {p : Pool} {x : List Nat} (hs : Canonical s) : InSome (fun r => Canonical r.2) (s.refCounts p x) := by
  induction x generalizing s p with
  | nil => exact .some hs
  | cons a l ih =>
    unfold State.refCounts
    split
    · exact .none
    · next he =>
        exact .ite .none ((ih (hs.rdMeta _ he)).map (fun ht => ht))

theorem Canonical.forkEntry {p : Pool} {e : Nat} (hs : Canonical s) : InSome (fun r => Canonical r.2.2) (s.forkEntry p e) := by
  unfold State.forkEntry
  dsimp only
  split
  · exact .none
  · next he1 =>
      refine .ite ((hs.rdMeta _ he1).wrMeta.map (fun ht => ht)) ?_
      split
      · next he =>
          exact (((hs.rdMeta _ he1).allocBlock _ he).rdStore.bind (fun ht => ht.wrStore)).map (fun ht => ht)
      · exact .none

theorem Canonical.forkLoop {sp ten : Nat} {dst : BTable} {x : Pool} {x' : Nat} {x'' : List Nat} (hs : Canonical s) :
    InSome (fun r => Canonical r.2) (s.forkLoop sp ten dst x x' x'') := by
  induction x'' generalizing s sp ten dst x x' with
  | nil => exact .some hs
  | cons a l ih =>
    unfold State.forkLoop
    split
    · exact .none
    · next he1 =>
        split
        · exact .none
        · next he =>
            exact ih ((hs.forkEntry _ he1).wrEntry _ he)

theorem Canonical.btfork {h id sp ten : Nat} {o : QOp} {p : Pool} {t : BTable} (hs : Canonical s) :
    InSome Canonical (s.btfork h id sp ten o p t) := by
  unfold State.btfork
  refine .ite (.some hs.replyOp) ?_
  split
  · exact .some hs.replyOp
  · next he2 =>
      refine .ite (.some hs.replyOp) ?_
      split
      · exact .none
      · next he1 =>
          refine .ite (.some ((hs.readTable _ he2).refCounts _ he1).answerOp) ?_
          split
          · exact .none
          · next he =>
              exact (((hs.readTable _ he2).refCounts _ he1).forkLoop _ he).wrLength.map (fun ht => ht.setPool.answerOp)

theorem Canonical.rangeOp {id : Nat} {o : QOp} {p : Pool} {t : BTable} (hs : Canonical s) : InSome Canonical (s.rangeOp id o p t) :=
  .ite (.some hs.replyOp) (.some hs.replyOp)

theorem Canonical.tableOp {id : Nat} {o : QOp} (hs : Canonical s) : Canonical (s.tableOp id o) := by
  unfold State.tableOp
  extract_lets sp ten bad
  split
  · exact hs.replyOp
  · next he =>
    have ht := hs.readTable _ he
    refine .ite ht.awaitWake ?_
    split
    · next he' => exact ht.stopPool ht.activatePool he'
    · next he' =>
      have hu := ht.activatePool.ok _ he'
      refine .ite hs.replyOp (InSome.getD ?_ hu.spoil)
      split
      · exact hu.btapp
      · exact .ite (.some hu.replyOp) (.some hu.answerOp)
      · exact hu.btfork
      · exact hu.btrel
      · exact hu.rangeOp

/-! ### The home controllers' operations and replies (R331) -/

theorem Canonical.performOp {h id : Nat} {o : QOp} (hs : Canonical s) : Canonical (s.performOp h id o) := by
  unfold State.performOp
  split
  · exact .ite hs.shadowOp hs.enqOp
  · exact .ite hs.shadowOp hs.enqOp
  · exact hs.deqOp
  · exact hs.deqOp
  · exact hs.qinitOp
  · exact hs.qstatOp
  · exact hs.qdrainOp
  · exact hs.qresetOp
  · exact hs.pinitOp
  · exact hs.pstatOp
  · exact hs.ballocOp
  · exact hs.bfreeOp
  · exact hs.tableOp

theorem Canonical.corePairOp {id : Nat} {o : QOp} (hs : Canonical s) : Canonical (s.corePairOp id o) := by
  unfold State.corePairOp
  refine .post ?_
  split
  · exact hs.spawnNow.sameMem
  · exact hs.unstake.sameMem
  · exact hs.sameMem

theorem Canonical.faultOp {id : Nat} {o : QOp} {reason : Nat} (hs : Canonical s) : Canonical (s.faultOp id o reason) :=
  (Canonical.ite hs.sameMem hs).post

theorem Canonical.confirmPeer {h sp ea : Nat} (hs : Canonical s) : InOk Canonical (s.confirmPeer h sp ea) := by
  refine of_body (f := @State.confirmPeer) (P := fun f => InOk Canonical (f s h sp ea)) (by delta State.confirmPeer; rfl) ?_
  beta_reduce
  cases windowCheck (s.spaceEntry sp) .atomic ea with
  | some r => exact .error
  | none =>
    dsimp only
    split
    · exact .ite (.ok hs) .error
    · refine .ite .error ?_
      split
      · exact .error
      · exact .ite (.ok hs.drawn.takeLease) .error

theorem Canonical.homeOperation {id : Nat} {o : QOp} (hs : Canonical s) : Canonical (s.homeOperation id o) := by
  unfold State.homeOperation
  refine .ite hs.corePairOp (.ite hs.awaitWake (.ite hs.performOp (.ite ?_ (.ite ?_ ?_))))
  · split
    · exact hs.faultOp
    · exact hs.performOp
  · split
    · exact hs.faultOp
    · next he =>
        exact (hs.confirmPeer _ he).performOp
  · split
    · exact hs.faultOp
    · next he =>
        exact (hs.translate _ he).performOp

theorem Canonical.execHomeControllerOperation (hs : Canonical s) : CanonicalOut (Machine.execHomeControllerOperation s) := by
  unfold Machine.execHomeControllerOperation
  refine Canonical.orWait hs ?_
  split
  · refine .next ?_
    split
    · exact hs.peerEnqueue
    · split
      · exact .ite hs hs.homeOperation
      · exact hs
  · exact .next hs

theorem Canonical.elementReply {o : QOp} {cid : Nat} {r : Reply} (hs : Canonical s) : Canonical (s.elementReply o cid r) := by
  unfold State.elementReply
  dsimp only
  split
  · exact hs
  · split
    · exact .ite (.ite (hs.modCoreAt (fun ht => ht.same)) (hs.modCoreAt (fun ht => ht.same)).nextSector)
        (.ite hs.finishAt (.ite (hs.modCoreAt (fun ht => ht.same)) hs.post))
    · exact hs.finishAt

theorem Canonical.opReply {o : QOp} {r : Reply} {w : Who} {id : Nat} (hs : Canonical s) : Canonical (s.opReply o r w id) := by
  unfold State.opReply
  dsimp only
  split
  · exact hs.sameMem.elementReply
  · split
    · exact .ite hs.sameMem.answer1 hs.sameMem.resultTo
    · exact hs.sameMem.answer1

theorem Canonical.execHomeControllerReply (hs : Canonical s) : CanonicalOut (Machine.execHomeControllerReply s) := by
  unfold Machine.execHomeControllerReply
  dsimp only
  split
  · refine .next ?_
    split
    · split
      · refine .forTwins ?_ (fun ht => ht.opReply)
        split
        · exact hs.crossed
        · exact hs
      · split
        · exact hs.crossed
        · exact hs
    · split
      · exact hs.crossed
      · exact hs
  · exact .next hs

/-! ### Words -/

theorem Canonical.poolWord {op : Instr} {x y : Word} {al : Nat} {data : List Byte} {k : Word → State → Res} (hs : Canonical s)
    (hk : ∀ {v : Word} {t : State}, Canonical t → CanonicalRes (k v t)) : CanonicalRes (s.poolWord op x y al data k) := by
  unfold State.poolWord
  split
  · exact .trapR
  · exact hs.release (fun ht => ht.homeOp hk)

theorem Canonical.execPinit {d a b : BitVec 5} (hs : Canonical s) : CanonicalOut (Machine.execPinit d a b s) := by
  unfold Machine.execPinit
  refine Canonical.finish hs ?_
  split
  · exact .trapR
  · exact Canonical.afterConfirm hs (fun ht => .trapR)
  · exact .ite (.wait hs) (.ite .trapR (Canonical.poolWord hs (fun ht => .ok ht.setX)))

theorem Canonical.execPstat {d a b : BitVec 5} (hs : Canonical s) : CanonicalOut (Machine.execPstat d a b s) := by
  unfold Machine.execPstat
  refine Canonical.finish hs ?_
  split
  · exact .trapR
  · exact Canonical.afterConfirm hs (fun ht => .trapR)
  · exact .ite (.wait hs) (Canonical.homeOp hs (fun ht => .ok ht.setX))

theorem Canonical.execBalloc {d a : BitVec 5} (hs : Canonical s) : CanonicalOut (Machine.execBalloc d a s) :=
  Canonical.finish hs (Canonical.poolWord hs (fun ht => .ok ht.setX))

theorem Canonical.execBfree {d a b : BitVec 5} (hs : Canonical s) : CanonicalOut (Machine.execBfree d a b s) :=
  Canonical.finish hs (Canonical.poolWord hs (fun ht => .ok ht.setX))

theorem Canonical.execBtapp {d a : BitVec 5} (hs : Canonical s) : CanonicalOut (Machine.execBtapp d a s) :=
  Canonical.finish hs (Canonical.poolWord hs (fun ht => .ok ht.setX))

theorem Canonical.execBtget {d a b : BitVec 5} (hs : Canonical s) : CanonicalOut (Machine.execBtget d a b s) :=
  Canonical.finish hs (Canonical.poolWord hs (fun ht => .ok ht.setX))

theorem Canonical.execBtfork {d a b : BitVec 5} (hs : Canonical s) : CanonicalOut (Machine.execBtfork d a b s) :=
  Canonical.finish hs (Canonical.poolWord hs (fun ht => .ok ht.setX))

theorem Canonical.execBtrel {d a : BitVec 5} (hs : Canonical s) : CanonicalOut (Machine.execBtrel d a s) :=
  Canonical.finish hs (Canonical.poolWord hs (fun ht => .ok ht.setX))

/-! ### Block-table copies and CPYQ (R286, R288) -/

theorem Canonical.blockWord {gather : Bool} {op : Instr} {d a b : BitVec 5} (hs : Canonical s) :
    CanonicalOut (Machine.blockWord gather op d a b s) := by
  unfold Machine.blockWord
  dsimp only
  refine Canonical.finish hs (.ite .trapR ?_)
  split
  · exact .trapR
  · refine .ite .trapR (Canonical.release hs (fun ht => Canonical.homeOp ht (fun hu => ?_)))
    split
    · exact .trapR
    · exact Canonical.startCopy hu (fun hv => .ok hv.setX)

theorem Canonical.execCpyg {d a b : BitVec 5} (hs : Canonical s) : CanonicalOut (Machine.execCpyg d a b s) :=
  hs.blockWord

theorem Canonical.execCpys {d a b : BitVec 5} (hs : Canonical s) : CanonicalOut (Machine.execCpys d a b s) :=
  hs.blockWord

theorem Canonical.execCpyq {d a b : BitVec 5} (hs : Canonical s) : CanonicalOut (Machine.execCpyq d a b s) := by
  unfold Machine.execCpyq
  refine Canonical.finish hs (.ite .trapR ?_)
  split
  · exact .trapR
  · refine .ite .trapR (Canonical.release hs (fun ht => Canonical.loadRes ht (fun hu => .ite .trapR (.ite .trapR ?_))))
    split
    · exact .trapR
    · exact Canonical.startCopy hu (fun hv => .ok hv.setX)

end Sys2Proof.Claims
end

section
/-! SUPPORT. The canonical form of every memory through reflex releases, paired requests, debug commands, completions, and admission. -/

namespace Sys2Proof.Claims

open Sys2Proof.Machine

set_option Elab.async false

variable {s : State}

/-! ### Releases (R385, R387) -/

theorem Canonical.postRelease {e k : Nat} (hs : Canonical s) : Canonical (s.postRelease e k) := by
  unfold State.postRelease
  split
  · exact hs.postAt
  · exact hs

theorem Canonical.releaseEntry {e k : Nat} {r : Reflex} (hs : Canonical s) : Canonical (s.releaseEntry e k r) :=
  .ite hs.modReflex.postRelease.modReflex.count hs.modReflex.postRelease.modReflex.postAt.startActivation

theorem Canonical.execReflexRelease (hs : Canonical s) : CanonicalOut (Machine.execReflexRelease s) := by
  unfold Machine.execReflexRelease
  split
  · refine .next ?_
    split
    · exact .ite hs (.ite hs.postRelease hs.releaseEntry)
    · exact hs
  · exact .next hs

theorem Canonical.execShadowBankSwitch (hs : Canonical s) : CanonicalOut (Machine.execShadowBankSwitch s) := by
  unfold Machine.execShadowBankSwitch
  split
  · exact .next (.ite hs (hs.modCore (fun ht => ht.same)))
  · exact .next hs

theorem Canonical.execDeadlineMiss (hs : Canonical s) : CanonicalOut (Machine.execDeadlineMiss s) := by
  unfold Machine.execDeadlineMiss
  split
  · refine .next ?_
    split
    · exact .ite hs.postAt (.ite hs.missOnce hs)
    · exact hs
  · exact .next hs

theorem Canonical.execBudgetExceeded (hs : Canonical s) : CanonicalOut (Machine.execBudgetExceeded s) := by
  unfold Machine.execBudgetExceeded
  split
  · next c b _ =>
    refine .next ?_
    split
    · split
      · exact .ite hs (hs.enter (c := c) (b := b)).sameMem.takeTrap.store'
      · exact hs
    · exact hs
  · exact .next hs

theorem Canonical.execStarvationGuard (hs : Canonical s) : CanonicalOut (Machine.execStarvationGuard s) := by
  unfold Machine.execStarvationGuard
  split
  · exact .next (.modCore hs (fun ht => .ite ht ht.same))
  · exact .next hs

/-! ### Paired requests (R395) -/

theorem Canonical.matchPair {i j : Nat} {q : PairReq} (hs : Canonical s) : Canonical (s.matchPair i j q) :=
  .ite hs.sameMem.post.activationEnd hs.sameMem.post

theorem Canonical.execPairHashArrival (hs : Canonical s) : CanonicalOut (Machine.execPairHashArrival s) := by
  unfold Machine.execPairHashArrival
  dsimp only
  split
  · refine .next ?_
    split
    · exact hs
    · split
      · exact hs.sameMem
      · exact .ite hs.sameMem.pairMismatch (.ite hs.sameMem.matchPair hs.sameMem.matchPair)
  · exact .next hs

theorem Canonical.execPairMatchTimeout (hs : Canonical s) : CanonicalOut (Machine.execPairMatchTimeout s) := by
  unfold Machine.execPairMatchTimeout
  split
  · refine .next ?_
    split
    · exact .ite hs.pairMismatch hs
    · exact hs
  · exact .next hs

theorem Canonical.execDebugHalt (hs : Canonical s) : CanonicalOut (Machine.execDebugHalt s) := by
  unfold Machine.execDebugHalt
  split
  · exact .next (hs.foldl (fun ht => ht.modCore (fun hu => hu.same)))
  · exact .next hs

theorem Canonical.resumeEngine {c : Nat} (hs : Canonical s) : Canonical (s.resumeEngine c) :=
  .ite (hs.foldl (fun ht => .ite ht.post ht)) (hs.foldl (fun ht => .ite ht.post ht)).post

theorem Canonical.endHalt {c : Nat} (hs : Canonical s) : Canonical (s.endHalt c) :=
  (Canonical.ite (hs.modCore (fun ht => ht.same)).setLate (hs.modCore (fun ht => ht.same))).resumeEngine

theorem Canonical.debugResume {c : Nat} (hs : Canonical s) : Canonical (s.debugResume c) :=
  (hs.modCore (fun ht => ht.same)).foldl (fun ht => ht.endHalt)

theorem Canonical.execDebugResume (hs : Canonical s) : CanonicalOut (Machine.execDebugResume s) := by
  unfold Machine.execDebugResume
  split
  · exact .next hs.debugResume
  · exact .next hs

theorem Canonical.execDebugStep (hs : Canonical s) : CanonicalOut (Machine.execDebugStep s) := by
  unfold Machine.execDebugStep
  split
  · exact .next (.ite (hs.modCore (fun ht => ht.same)) hs)
  · exact .next hs

theorem Canonical.execDebugQuiesce (hs : Canonical s) : CanonicalOut (Machine.execDebugQuiesce s) := by
  unfold Machine.execDebugQuiesce
  split
  · exact .next (hs.modCore (fun ht => ht.same))
  · exact .next hs

theorem Canonical.debugReply {c dst mb : Nat} (hs : Canonical s) : Canonical (s.debugReply c dst mb) :=
  .ite hs hs.mailFrom

theorem Canonical.execDebugStatus (hs : Canonical s) : CanonicalOut (Machine.execDebugStatus s) := by
  unfold Machine.execDebugStatus
  split
  · exact .next hs.debugReply
  · exact .next hs

theorem Canonical.execDebugDump (hs : Canonical s) : CanonicalOut (Machine.execDebugDump s) := by
  unfold Machine.execDebugDump
  split
  · exact .next (.ite hs (.ite hs.post (Canonical.ite hs (hs.setPad (Memory.wf_wrBlock _ _ _ hs.pad))).debugReply))
  · exact .next hs

/-! ### Completions (R414, R420) -/

theorem Canonical.modWindow {k : Nat} {f : Window → Window} (hs : Canonical s) : Canonical (s.modWindow k f) :=
  hs.modFront

theorem Canonical.dropElem {k : Nat} (hs : Canonical s) : Canonical (s.dropElem k) :=
  hs.modWindow

theorem Canonical.toWindow {k : Nat} {data : List Byte} (hs : Canonical s) : Canonical (s.toWindow k data) := by
  unfold State.toWindow
  dsimp only
  split
  · exact hs.countHost
  · split
    · next he1 =>
        refine .ite (hs.activate.ok _ he1).countHost ?_
        split
        · next he =>
            exact ((hs.activate.ok _ he1).putElem.ok _ he) _ rfl
        · exact (hs.activate.ok _ he1).dropElem
        · next he =>
            exact (((hs.activate.ok _ he1).putElem.error _ he).corrupt _ rfl).dropElem
        · next he =>
            exact (((hs.activate.ok _ he1).putElem.error _ he).poisoned _ rfl).dropElem
        · exact (hs.activate.ok _ he1).dropElem
    · next he =>
        exact ((hs.activate.error _ he).corrupt _ rfl).dropElem
    · next he =>
        exact ((hs.activate.error _ he).poisoned _ rfl).dropElem
    · exact hs.dropElem

theorem Canonical.tryRebind {k : Nat} (hs : Canonical s) : Canonical (s.tryRebind k) := by
  unfold State.tryRebind
  split
  · exact hs
  · split
    · exact hs
    · exact .ite hs hs.modFront.modWindow

theorem Canonical.completePkt {p : Packet} {status a b c : Nat} (hs : Canonical s) : Canonical (s.completePkt p status a b c) :=
  .ite hs hs.modFront.toWindow.tryRebind

/-! ### Starting a gang (R26, R31, R160, R294) -/

theorem CanonicalCore.loadText {k : Core} {p : Nat} {g : Prog} (hk : CanonicalCore k) : CanonicalCore (k.loadText p g) :=
  hk.same

theorem wf_planInto {m : Mem} {p : Plan} {cycle : Nat} (hm : Memory.wf m = true) : Memory.wf (Machine.planInto m p cycle) = true :=
  Memory.wf_wrN _ _ _ _ (Memory.wf_wrN _ _ _ _ (Memory.wf_wrN _ _ _ _ (Memory.wf_wrBytes _ _ _ hm)))

theorem Canonical.startRank {p : Nat} {g : Prog} {r : Run} {rank c : Nat} {mine pads : List Nat} (hs : Canonical s) :
    Canonical (s.startRank p g r rank c mine pads) := by
  unfold State.startRank
  extract_lets n u t plan base t' cycle v m
  have hu : Canonical u := hs.newSerial
  have hv : Canonical v := hu.modCore fun {k} hk => by
    have hready : CanonicalCore ((k.loadText p g).addReach p mine pads) := hk.loadText.addReach
    refine ⟨?_, hready.tiles⟩
    cases plan with
    | none => exact hready.tcm
    | some q => exact wf_planInto hready.tcm
  have hm : Memory.wf m.bytes = true := hv.pad
  clear_value v m
  split
  · refine hv.setPad ?_
    dsimp only
    exact Memory.wf_wrBytes _ _ _ hm
  · exact hv

theorem Canonical.startGangCopy {p : Nat} {g : Prog} {r : Run} {clusters : List Nat} (hs : Canonical s) :
    Canonical (s.startGangCopy p g r clusters) :=
  hs.foldl (fun ht => ht.startRank)

theorem Canonical.completeRun {p : Nat} {r : Run} {status b c : Nat} (hs : Canonical s) : Canonical (s.completeRun p r status b c) := by
  unfold State.completeRun
  split
  · exact hs.completePkt
  · exact hs

theorem Canonical.admitGang {p : Nat} {g : Prog} {r : Run} (hs : Canonical s) : CanonicalAdmit (s.admitGang p g r) := by
  unfold State.admitGang
  split
  · exact .waits
  · split
    · exact .placed hs.completeRun.modProg
    · exact .ite .held (.placed hs.modFront.modProg.startGangCopy.startGangCopy)

theorem Canonical.receiveCores {p : Nat} {mine : List Nat} (hs : Canonical s) : Canonical (s.receiveCores p mine) :=
  (hs.modRun.foldl (fun ht => ht.modCore (fun hu => hu.addReach))).dispatch

theorem Canonical.admitTasks {p : Nat} {r : Run} (hs : Canonical s) : CanonicalAdmit (s.admitTasks p r) :=
  .ite .waits (.placed hs.receiveCores)

theorem Canonical.settleTasks {p : Nat} {r : Run} (hs : Canonical s) : Canonical (s.settleTasks p r) :=
  .ite hs (.ite hs hs.receiveCores)

/-! ### Pre-emption for latency-class work (R44) -/

theorem Canonical.preempt1 {avoid : List Nat} {c : Nat} (hs : Canonical s) : InSome Canonical (s.preempt1 avoid c) := by
  unfold State.preempt1
  refine .ite .none ?_
  split
  · exact .some hs.post
  · exact .ite (.some hs.post) .none

theorem Canonical.preemptGang {p : Nat} {g : Prog} {r : Run} (hs : Canonical s) : Canonical (s.preemptGang p g r) := by
  unfold State.preemptGang
  split
  · exact hs
  · exact hs.modFront.foldl (fun ht => ht.preempt1.getD ht)

theorem Canonical.preemptTasks {p : Nat} {r : Run} (hs : Canonical s) : Canonical (s.preemptTasks p r) := by
  refine .ite hs (.modFront (.foldlFst hs fun hx => ?_))
  split
  · exact hx
  · split
    · next he => exact hx.preempt1 _ he
    · exact hx

/-! ### Admission (R35) -/

theorem Canonical.unwant {p : Nat} (hs : Canonical s) : Canonical (s.unwant p) :=
  hs.modFront

theorem Canonical.serveHead {p : Nat} (hs : Canonical s) : Canonical (s.serveHead p).1 := by
  unfold State.serveHead
  split
  · exact hs
  · split
    · exact hs
    · split
      · exact hs
      · split
        · next he => exact (CanonicalAdmit.ite hs.admitGang hs.admitTasks _ he).unwant
        · exact .ite (.ite hs.preemptGang hs.preemptTasks) hs
        · exact hs.unwant

theorem Canonical.serveQueue {x : List Nat} (hs : Canonical s) : Canonical (s.serveQueue x).1 := by
  induction x generalizing s with
  | nil => exact hs
  | cons a l ih =>
    unfold State.serveQueue
    dsimp only
    split
    · exact ih hs.serveHead
    · exact hs.serveHead

/-! ### The standby mask takes effect (R33, R44, R392) -/

theorem Canonical.clearForStandby {cl : Nat} (hs : Canonical s) : Canonical (s.clearForStandby cl) :=
  .ite hs (hs.foldl (fun ht => .ite ht (ht.preempt1.getD ht)))

theorem Canonical.settleStandby (hs : Canonical s) : Canonical s.settleStandby :=
  .ite hs (hs.modFront.foldl (fun ht => ht.clearForStandby))

theorem Canonical.execAdmission (hs : Canonical s) : CanonicalOut (Machine.execAdmission s) := by
  unfold Machine.execAdmission
  refine Canonical.orWait hs (.next (.ite hs.settleStandby (.foldl (.foldl hs.settleStandby.serveQueue.modFront.tryRestores.serveQueue.modFront
    (fun ht => ?_)) (fun ht => ?_))))
  · split
    · exact ht.settleTasks
    · exact ht
  · split
    · exact .ite ht.post ht
    · exact ht

/-! ### Program completion (R318, R388, R420) -/

theorem Canonical.endAll {p : Nat} (hs : Canonical s) : Canonical (s.endAll p) :=
  (((hs.foldl (fun ht => ht.foldl (fun hu => hu.endThread))).foldl (fun ht => ht.foldl (fun hu => hu.endThread))).foldl
    (fun ht => ht.endQueued)).sameMem.dropWaiters

theorem Canonical.dropContexts {p : Nat} (hs : Canonical s) : Canonical (s.dropContexts p) :=
  hs.replace (contexts := fun h => forall_filter (P := fun x : Context => CanonicalCore x.core) h)

theorem Canonical.forget {p : Nat} (hs : Canonical s) : Canonical (s.forget p) :=
  hs.replace (cores := fun h => forall_map h fun k hk => hk.same)

theorem Canonical.disarmAll {p : Nat} {error : Bool} (hs : Canonical s) : Canonical (s.disarmAll p error) :=
  (Canonical.ite hs.modFront hs).foldl (fun ht => ht.modReflex.mirrorOut.endActivation.closeActivation)

theorem Canonical.finishRun {p : Nat} {r : Run} (hs : Canonical s) : Canonical (s.finishRun p r) :=
  hs.disarmAll.forget.modProg.modFront.completeRun.post

theorem Canonical.execProgramCompletion (hs : Canonical s) : CanonicalOut (Machine.execProgramCompletion s) := by
  unfold Machine.execProgramCompletion
  refine Canonical.orWait hs ?_
  split
  · refine .next ?_
    split
    · exact hs
    · split
      · split
        · exact .ite hs.disarmAll.endAll.dropContexts.forget.modProg hs.disarmAll.endAll.dropContexts
        · exact hs
      · exact .ite (Canonical.ite hs.disarmAll.endAll hs).dropContexts.finishRun (Canonical.ite hs.disarmAll.endAll hs).dropContexts
  · exact .next hs

end Sys2Proof.Claims
end

section
/-! SUPPORT. The canonical form of every memory through the front end's memory, the loader, the host, and the commands. -/

namespace Sys2Proof.Claims

open Sys2Proof.Machine

set_option Elab.async false

variable {s : State}

/-! ### Memory for the front end -/

theorem Canonical.sayAway {sp off n : Nat} {op : MemOp} (hs : Canonical s) : InSome Canonical (s.sayAway sp off n op) :=
  .ite (.ite .none (.some hs.drawn.modFront)) (.ite .none (.some hs.fresh.sayPeer))

theorem Canonical.rdAny {sp tenant off n : Nat} (hs : Canonical s) : CanonicalReached (s.rdAny sp tenant off n) := by
  unfold State.rdAny
  refine .ite .unreadable (.ite .refused (.ite (.ite .unreadable ?_) (.ite .unreadable ?_)))
  · split
    · next he =>
        exact .got (hs.rdVirtual _ he)
    · exact .unreadable
  · split
    · exact .unreadable
    · next he =>
        exact .got (hs.sayAway _ he).foreign

theorem Canonical.wrAny {sp tenant off : Nat} {l : List Byte} (hs : Canonical s) : CanonicalReached (s.wrAny sp tenant off l) := by
  unfold State.wrAny
  refine .ite .unreadable (.ite .refused (.ite (.ite .unreadable ?_) (.ite .unreadable ?_)))
  · split
    · next he =>
        exact .got (hs.wrVirtual _ he)
    · exact .unreadable
  · split
    · exact .unreadable
    · next he =>
        exact .got (hs.sayAway _ he)

theorem Canonical.pokeRange {a key x : Nat} {x' : List Byte} (hs : Canonical s) : Canonical (s.pokeRange a key x x') := by
  induction x generalizing s a key x' with
  | zero => exact hs
  | succ n ih =>
    unfold State.pokeRange
    dsimp only
    exact .ite hs (ih hs.pokeDram)

/-! ### Tables and pages (R205, R207, R212, R88) -/

theorem Canonical.clearDram {a len : Nat} (hs : Canonical s) : Canonical (s.clearDram a len) :=
  hs.replace (dram := fun _ => Memory.wf_zeroRange _ _ _ hs.dram)

theorem Canonical.newFrames {n al : Nat} (hs : Canonical s) : Canonical (s.newFrames n al).2 :=
  hs.modFront.clearDram

theorem Canonical.setEntry {a v : Nat} (hs : Canonical s) : Canonical (s.setEntry a v) :=
  hs.pokeDram

theorem Canonical.tableBelow {a b : Nat} (hs : Canonical s) : Canonical (s.tableBelow a b).2 := by
  unfold State.tableBelow
  dsimp only
  split
  · exact hs
  · exact (Canonical.ite hs.newFrames.pokeRange hs.newFrames).setEntry

theorem Canonical.mapPage {sp off key : Nat} {wr : Bool} (hs : Canonical s) : Canonical (s.mapPage sp off key wr) := by
  unfold State.mapPage
  induction State.entry8 using of_forall with | all entry =>
  induction State.spaceEntry using of_forall with | all space =>
  dsimp only
  split
  · exact hs.tableBelow.tableBelow.tableBelow.setEntry.homes
  · exact hs.tableBelow.tableBelow.tableBelow.newFrames.setEntry.homes

theorem Canonical.mapText {p off key : Nat} (hs : Canonical s) : Canonical (s.mapText p off key) :=
  .ite hs.tableBelow hs.tableBelow.newFrames.setEntry

theorem Canonical.pokeSpace {sp off x : Nat} {x' : List Byte} (hs : Canonical s) : Canonical (s.pokeSpace sp off x x') := by
  induction x generalizing s sp off x' with
  | zero => exact hs
  | succ n ih =>
    unfold State.pokeSpace
    dsimp only
    refine .ite hs (ih ?_)
    split
    · exact hs.wrSlice
    · exact hs

theorem Canonical.makeSpace {sp tenant : Nat} (hs : Canonical s) : Canonical (s.makeSpace sp tenant) :=
  hs.newFrames.setEntry

theorem Canonical.makeRoot {p tenant : Nat} (hs : Canonical s) : Canonical (s.makeRoot p tenant) :=
  hs.newFrames.setEntry

/-! ### LXM slots (R90, R311) -/

theorem Canonical.declareSlots {p : Nat} {x : List (Nat × Nat)} (hs : Canonical s) : InSome (fun r => Canonical r.2) (s.declareSlots p x) := by
  induction x generalizing s p with
  | nil => exact .some hs
  | cons a l ih =>
    unfold State.declareSlots
    dsimp only
    split
    · exact .none
    · exact .ite .none ((ih hs.sameMem).map (fun ht => ht))

/-! ### LOAD (R79, R87, R88, R418) -/

theorem Canonical.loadSection {p sp tenant : Nat} {o : Obj} {x : Section} (hs : Canonical s) : Canonical (s.loadSection p sp tenant o x) := by
  unfold State.loadSection
  split
  · refine .foldl (hs.foldl (fun ht => ht.mapText)) (fun ht => ?_)
    split
    · exact ht.pokeRange
    · exact ht
  · exact (hs.foldl (fun ht => ht.mapPage)).pokeSpace
  · exact (hs.foldl (fun ht => ht.mapPage)).pokeSpace
  · exact hs
  · exact (hs.foldl (fun ht => ht.mapPage)).pokeSpace

theorem Canonical.dataSpace {sp tenant : Nat} (hs : Canonical s) : InSome (fun r => Canonical r.2.2) (s.dataSpace sp tenant) :=
  .ite (.some hs) (.mapAll hs.makeSpace)

theorem Canonical.loadObject {o : Obj} {sp tenant : Nat} (hs : Canonical s) : InOk (fun r => Canonical r.2) (s.loadObject o sp tenant) := by
  unfold State.loadObject
  refine .ite .error (.ite .error (.ite .error (.ite .error ?_)))
  split
  · next he1 =>
      split
      · exact .error
      · next he =>
          exact .ite .error (.ok (.snd (((hs.dataSpace _ he1).declareSlots _ he).makeRoot.foldl (fun ht => ht.loadSection)).modFront))
  · exact .error

theorem Canonical.execLoad (hs : Canonical s) : CanonicalOut (Machine.execLoad s) := by
  unfold Machine.execLoad
  dsimp only
  refine Canonical.orWait hs ?_
  split
  · refine .next ?_
    split
    · exact hs.completePkt
    · exact hs.completePkt
    · next he1 =>
        refine .ite (hs.rdAny _ _ he1).completePkt ?_
        split
        · exact (hs.rdAny _ _ he1).completePkt
        · next he =>
            exact ((hs.rdAny _ _ he1).loadObject _ he).completePkt
  · exact .next hs

/-! ### LAUNCH (R418, R419) -/

theorem Canonical.execLaunch (hs : Canonical s) : CanonicalOut (Machine.execLaunch s) := by
  unfold Machine.execLaunch
  dsimp only
  refine Canonical.orWait hs ?_
  split
  · refine .next ?_
    split
    · exact hs.completePkt
    · exact .ite hs.completePkt (.ite hs.completePkt (.ite hs.completePkt
        (.ite hs.completePkt (.ite hs.completePkt hs.modProg.modFront.modFront.post))))
  · exact .next hs

/-! ### Registers that the host reads (R412, R413) -/

theorem Canonical.execHostRegisterWrite (hs : Canonical s) : CanonicalOut (Machine.execHostRegisterWrite s) := by
  unfold Machine.execHostRegisterWrite
  refine .next ?_
  split
  · exact .ite hs.countHost hs
  · exact hs

/-! ### Queue windows (R414) -/

theorem Canonical.execHostQueueEnqueue (hs : Canonical s) : CanonicalOut (Machine.execHostQueueEnqueue s) := by
  unfold Machine.execHostQueueEnqueue
  refine Canonical.orWait hs (.next ?_)
  split
  · exact .ite hs (.ite hs.toWindow hs.countHost)
  · exact hs

theorem Canonical.toHost {multi : Bool} {l : List Byte} (hs : Canonical s) : Canonical (s.toHost multi l) :=
  .ite hs.modFront hs.modFront

theorem Canonical.fromWindow {k size : Nat} (hs : Canonical s) : Canonical (s.fromWindow k size) := by
  unfold State.fromWindow
  dsimp only
  split
  · exact hs.countHost.modFront
  · split
    · next he1 =>
        refine .ite (hs.activate.ok _ he1).countHost.modFront ?_
        split
        · next he =>
            exact (((hs.activate.ok _ he1).takeElem.ok _ he) _ rfl).toHost
        · exact (hs.activate.ok _ he1).modFront
        · next he =>
            exact (((hs.activate.ok _ he1).takeElem.error _ he).corrupt _ rfl).modFront
        · next he =>
            exact (((hs.activate.ok _ he1).takeElem.error _ he).poisoned _ rfl).modFront
        · exact (hs.activate.ok _ he1).modFront
    · next he =>
        exact ((hs.activate.error _ he).corrupt _ rfl).modFront
    · next he =>
        exact ((hs.activate.error _ he).poisoned _ rfl).modFront
    · exact hs.modFront

theorem Canonical.readWindow {k off size : Nat} (hs : Canonical s) : Canonical (s.readWindow k off size) :=
  .ite hs.fromWindow (.ite hs.modFront hs.countHost.modFront)

theorem Canonical.execHostQueueDequeue (hs : Canonical s) : CanonicalOut (Machine.execHostQueueDequeue s) := by
  unfold Machine.execHostQueueDequeue
  refine Canonical.orWait hs (.next ?_)
  split
  · exact .ite hs.readWindow hs
  · exact hs

/-! ### LXM slots from the host (R415) -/

theorem Canonical.unlatch {n : Nat} (hs : Canonical s) : Canonical (s.unlatch n) := by
  unfold State.unlatch
  split
  · exact hs.modBuffer.modSlot
  · exact hs

theorem Canonical.latchSlot {n : Nat} (hs : Canonical s) : Canonical (s.latchSlot n) := by
  unfold State.latchSlot
  dsimp only
  split
  · exact hs.unlatch
  · split
    · exact hs.unlatch.modSlot
    · exact .ite hs.unlatch.modSlot hs.unlatch.modBuffer.modSlot.modSlot

theorem Canonical.execHostSlotControlRead (hs : Canonical s) : CanonicalOut (Machine.execHostSlotControlRead s) := by
  unfold Machine.execHostSlotControlRead
  refine .next ?_
  split
  · exact .ite hs hs.latchSlot.modFront
  · exact hs

theorem Canonical.writeSlot {n off : Nat} {data : List Byte} (hs : Canonical s) : Canonical (s.writeSlot n off data) := by
  unfold State.writeSlot
  split
  · exact hs.countHost
  · refine .ite hs.countHost ?_
    split
    · exact hs.modBuffer
    · split
      · exact hs.modSlot.modBuffer.modBuffer
      · exact hs.modSlot

theorem Canonical.execHostSlotDataWrite (hs : Canonical s) : CanonicalOut (Machine.execHostSlotDataWrite s) := by
  unfold Machine.execHostSlotDataWrite
  refine .next ?_
  split
  · exact .ite hs.writeSlot hs
  · exact hs

theorem Canonical.hostCommit {n t : Nat} (hs : Canonical s) : Canonical (s.hostCommit n t) := by
  unfold State.hostCommit
  split
  · exact hs
  · split
    · exact hs.commitSlot.modSlot
    · exact hs.modSlot

theorem Canonical.execHostSlotCommit (hs : Canonical s) : CanonicalOut (Machine.execHostSlotCommit s) := by
  unfold Machine.execHostSlotCommit
  refine .next ?_
  split
  · exact .ite hs.hostCommit hs
  · exact hs

theorem Canonical.execHostSlotRelease (hs : Canonical s) : CanonicalOut (Machine.execHostSlotRelease s) := by
  unfold Machine.execHostSlotRelease
  refine .next ?_
  split
  · exact .ite hs (.ite hs.unlatch.hostCommit hs.unlatch)
  · exact hs

/-! ### BAR2 (R416) -/

theorem Canonical.bar2Access {write : Bool} {off size : Nat} {data : List Byte} (hs : Canonical s) :
    Canonical (s.bar2Access write off size data) := by
  unfold State.bar2Access
  have hread {sp tenant off n : Nat} := hs.rdAny (sp := sp) (tenant := tenant) (off := off) (n := n)
  have hwrite {sp tenant off : Nat} {d : List Byte} := hs.wrAny (sp := sp) (tenant := tenant) (off := off) (l := d)
  revert hread hwrite
  induction State.rdAny using of_forall with | all read =>
  induction State.wrAny using of_forall with | all put =>
  intro hread hwrite
  dsimp only
  split
  · exact .ite hs.countHost hs.countHost.modFront
  · refine .ite (.ite hs.countHost hs.countHost.modFront) (.ite ?_ ?_)
    · split
      · next he =>
          exact hwrite _ _ he
      · exact hs.countHost
    · split
      · next he =>
          exact .ite (hread _ _ he) (hread _ _ he).modFront
      · exact .ite hs.countHost hs.countHost.modFront

theorem Canonical.execHostBar2Access (hs : Canonical s) : CanonicalOut (Machine.execHostBar2Access s) := by
  unfold Machine.execHostBar2Access
  refine Canonical.orWait hs (.next ?_)
  split
  · exact .ite hs.bar2Access hs
  · exact hs

/-! ### The chain cores (R34, R417) -/

theorem Canonical.signalValue {p : Packet} (hs : Canonical s) : InSome (fun r => Canonical r.2) (s.signalValue p) := by
  refine of_body (f := @State.signalValue) (P := fun f => InSome (fun r => Canonical r.2) (f s p)) (by delta State.signalValue; rfl) ?_
  have hread {sp tenant off n : Nat} := hs.rdAny (sp := sp) (tenant := tenant) (off := off) (n := n)
  revert hread
  induction State.rdAny using of_forall with | all read =>
  intro hread
  beta_reduce
  split
  · next he => exact .some (.snd (hread _ _ he))
  · exact .none

theorem Canonical.countCanary {i : Nat} (hs : Canonical s) : Canonical (s.countCanary i) := by
  unfold State.countCanary
  split
  · exact hs.modFront.post
  · exact hs

theorem Canonical.runPacket {p : Packet} (hs : Canonical s) : Canonical (s.runPacket p) := by
  unfold State.runPacket
  split
  · exact hs.post
  · exact (Canonical.ite hs.countCanary hs).completePkt

theorem Canonical.take1 {p : Packet} (hs : Canonical s) : Canonical (s.take1 p) :=
  hs.modFront

theorem Canonical.headOf {k : Nat} {w : Window} (hs : Canonical s) : InSome (fun r => Canonical r.2) (s.headOf k w) := by
  unfold State.headOf
  dsimp only
  split
  · next he =>
      exact .ite .none ((hs.activate.ok _ he).rdStore.map (fun ht => ht))
  · exact .none

theorem Canonical.dropHead {w : Window} (hs : Canonical s) : InSome Canonical (s.dropHead w) := by
  unfold State.dropHead
  dsimp only
  split
  · split
    · next he _ _ _ he2 =>
        exact .some (((hs.activate.ok _ he).takeElem.ok _ he2) _ rfl)
    · exact .none
  · exact .none

theorem Canonical.servePacket {k : Nat} {w : Window} (hs : Canonical s) : Canonical (s.servePacket k w).1 := by
  have hvalue {t : State} {p : Packet} (ht : Canonical t) := ht.signalValue (p := p)
  unfold State.servePacket
  revert hvalue
  induction State.signalValue using of_forall with | all value =>
  intro hvalue
  dsimp only
  split
  · exact hs
  · next he2 =>
      split
      · split
        · next he =>
            exact ((hs.headOf _ he2).dropHead _ he).modFront.modWindow.take1.runPacket
        · exact hs.headOf _ he2
      · split
        · split
          · next he =>
              exact ((hs.headOf _ he2).dropHead _ he).modFront.modWindow.take1.completePkt
          · exact hs.headOf _ he2
        · next he1 =>
            split
            · split
              · next he =>
                  exact ((hvalue (hs.headOf _ he2) _ he1).dropHead _ he).modFront.modWindow.take1.runPacket
              · exact hvalue (hs.headOf _ he2) _ he1
            · exact (hvalue (hs.headOf _ he2) _ he1).modFront.post

theorem Canonical.firstPacket {x : List (Nat × Window)} (hs : Canonical s) : Canonical (s.firstPacket x).1 := by
  induction x generalizing s with
  | nil => exact hs
  | cons a l ih =>
    unfold State.firstPacket
    dsimp only
    split
    · exact hs.servePacket
    · exact ih hs.servePacket

theorem Canonical.serveClass {latency : Bool} (hs : Canonical s) : Canonical (s.serveClass latency).1 := by
  unfold State.serveClass
  dsimp only
  split
  · exact hs.firstPacket
  · split
    · exact hs.firstPacket.modFront.firstPacket
    · exact hs.firstPacket

theorem Canonical.execCommandDispatch (hs : Canonical s) : CanonicalOut (Machine.execCommandDispatch s) := by
  unfold Machine.execCommandDispatch
  refine Canonical.orWait hs (.next ?_)
  split
  · exact .ite hs (Canonical.ite hs.serveClass hs.serveClass.serveClass).post
  · exact hs

theorem Canonical.readSignal {k : Nat} {w : Window} (hs : Canonical s) : Canonical (s.readSignal k w) := by
  have hvalue {t : State} {p : Packet} (ht : Canonical t) := ht.signalValue (p := p)
  unfold State.readSignal
  revert hvalue
  induction State.signalValue using of_forall with | all value =>
  intro hvalue
  dsimp only
  split
  · exact hs.modFront
  · next he1 =>
      split
      · exact (hs.headOf _ he1).modFront
      · next he =>
          exact .ite (hvalue (hs.headOf _ he1) _ he).modFront.modFront (hvalue (hs.headOf _ he1) _ he).modFront.post

theorem Canonical.execPacketSignalRelease (hs : Canonical s) : CanonicalOut (Machine.execPacketSignalRelease s) := by
  unfold Machine.execPacketSignalRelease
  refine Canonical.orWait hs (.next ?_)
  split
  · split
    · exact .ite hs.post hs.readSignal
    · exact hs
  · exact hs

/-! ### Commands (R418) -/

theorem Canonical.execSignal (hs : Canonical s) : CanonicalOut (Machine.execSignal s) := by
  have hwrite {sp tenant off : Nat} {d : List Byte} := hs.wrAny (sp := sp) (tenant := tenant) (off := off) (l := d)
  unfold Machine.execSignal
  revert hwrite
  induction State.wrAny using of_forall with | all write =>
  intro hwrite
  refine Canonical.orWait hs (.next ?_)
  split
  · split
    · next he => exact (hwrite _ _ he).completePkt
    · exact hs.completePkt
    · exact hs.completePkt
  · exact hs

theorem Canonical.execMapq (hs : Canonical s) : CanonicalOut (Machine.execMapq s) := by
  unfold Machine.execMapq
  refine Canonical.orWait hs (.next ?_)
  split
  · refine .ite hs.completePkt (.ite hs.completePkt ?_)
    split
    · exact hs.modWindow.completePkt.tryRebind
    · exact hs.modFront.completePkt
  · exact hs

theorem Canonical.execMapbar (hs : Canonical s) : CanonicalOut (Machine.execMapbar s) := by
  unfold Machine.execMapbar
  refine Canonical.orWait hs (.next ?_)
  split
  · exact .ite hs.completePkt (.ite hs.completePkt hs.modFront.completePkt)
  · exact hs

theorem Canonical.execMapwin (hs : Canonical s) : CanonicalOut (Machine.execMapwin s) := by
  unfold Machine.execMapwin
  refine Canonical.orWait hs (.next ?_)
  split
  · exact .ite hs.completePkt (.ite hs.completePkt hs.pokeDram.pokeDram.homes.completePkt)
  · exact hs

theorem Canonical.execGrant (hs : Canonical s) : CanonicalOut (Machine.execGrant s) := by
  unfold Machine.execGrant
  dsimp only
  refine Canonical.orWait hs (.next ?_)
  split
  · split
    · exact .ite hs.completePkt hs.modSlot.completePkt
    · exact hs.completePkt
  · exact hs

theorem Canonical.execHoldrel (hs : Canonical s) : CanonicalOut (Machine.execHoldrel s) := by
  unfold Machine.execHoldrel
  refine Canonical.orWait hs (.next ?_)
  split
  · exact .ite hs.completePkt hs.modFront.completePkt
  · exact hs

theorem Canonical.execTenantCreate (hs : Canonical s) : CanonicalOut (Machine.execTenantCreate s) := by
  unfold Machine.execTenantCreate
  refine Canonical.orWait hs (.next ?_)
  split
  · exact .ite hs.completePkt (.ite hs.completePkt hs.modFront.completePkt)
  · exact hs

theorem Canonical.execTenantDestroy (hs : Canonical s) : CanonicalOut (Machine.execTenantDestroy s) := by
  unfold Machine.execTenantDestroy
  refine Canonical.orWait hs (.next ?_)
  split
  · exact .ite hs.completePkt (.ite hs.completePkt (.ite hs.completePkt hs.modFront.completePkt))
  · exact hs

theorem Canonical.execAttest (hs : Canonical s) : CanonicalOut (Machine.execAttest s) := by
  unfold Machine.execAttest
  refine Canonical.orWait hs (.next ?_)
  split
  · exact hs.modFront.completePkt
  · exact hs

theorem Canonical.execCap (hs : Canonical s) : CanonicalOut (Machine.execCap s) := by
  unfold Machine.execCap
  refine Canonical.orWait hs (.next ?_)
  split
  · exact .ite hs.completePkt hs.modFront.completePkt
  · exact hs

theorem Canonical.execMsix (hs : Canonical s) : CanonicalOut (Machine.execMsix s) := by
  unfold Machine.execMsix
  refine Canonical.orWait hs (.next ?_)
  split
  · exact .ite hs.completePkt hs.modFront.completePkt
  · exact hs

end Sys2Proof.Claims
end

section
/-! SUPPORT. The canonical form of every memory through reflex entries, boot, updates, recovery, power, resets, and the two modules. -/

namespace Sys2Proof.Claims

open Sys2Proof.Machine

set_option Elab.async false

variable {s : State}

/-! ### Events for the host (R410, R418) -/

theorem Canonical.raiseMsi {e : Nat} (hs : Canonical s) : Canonical (s.raiseMsi e) :=
  hs.modFront

/-! ### ARM and DISARM (R383-R385, R390) -/

theorem Canonical.armEntry {e : Nat} {image : Line} {shadow : Bool} (hs : Canonical s) : Canonical (s.armEntry e image shadow) := by
  unfold State.armEntry
  refine .mirrorOut (.postRelease (.foldl (.foldl ?_ (fun ht => ht.modCore (fun hu => hu.same))) (fun ht => ht.modCore (fun hu => hu.same))))
  split
  · exact hs.modFront.copyText.foldl (fun ht => ht.lockText)
  · exact hs.modFront

theorem Canonical.execArm (hs : Canonical s) : CanonicalOut (Machine.execArm s) := by
  unfold Machine.execArm
  have hread {sp tenant off n : Nat} := hs.rdAny (sp := sp) (tenant := tenant) (off := off) (n := n)
  revert hread
  induction State.rdAny using of_forall with | all read =>
  intro hread
  refine Canonical.orWait hs (.next ?_)
  split
  · split
    · exact hs.completePkt
    · exact hs.completePkt
    · next he =>
        refine .ite (hread _ _ he).completePkt ?_
        split
        · exact (hread _ _ he).completePkt
        · exact (hread _ _ he).armEntry.completePkt
  · exact hs

theorem Canonical.disarmEntry {e : Nat} (hs : Canonical s) : Canonical (s.disarmEntry e) :=
  hs.modReflex.unbindIfDone.mirrorOut

theorem Canonical.execDisarm (hs : Canonical s) : CanonicalOut (Machine.execDisarm s) := by
  unfold Machine.execDisarm
  dsimp only
  refine Canonical.orWait hs (.next ?_)
  split
  · split
    · exact hs.completePkt
    · exact .ite hs.completePkt hs.disarmEntry.completePkt
  · exact hs

/-! ### Boot (R422-R424) -/

theorem wf_bootStore {image : Nat} : Memory.wf (Machine.bootStore image).bytes = true := by
  unfold Machine.bootStore
  refine Memory.wf_wrBlock _ _ _ (wf_foldl rfl (fun ht => ?_))
  split
  · exact Memory.wf_wrBlock _ _ _ ht
  · exact ht

theorem Canonical.applyBlob {image : Nat} (hs : Canonical s) : Canonical (s.applyBlob image) := by
  unfold State.applyBlob
  extract_lets t d i u v cap w ms
  have hu : Canonical u := hs.clearDram.clearDram
  have hv : Canonical v := hu.replace (store := fun _ => wf_bootStore) (cores := fun _ k hk => by
    obtain ⟨c, -, rfl⟩ := List.mem_map.1 hk
    exact ⟨rfl, rfl⟩)
  have hw : Canonical w := hv.modFront
  exact hw.post.post.post.postAt

theorem Canonical.bootStage (hs : Canonical s) : Canonical s.bootStage := by
  unfold State.bootStage
  split
  · exact hs.sameMem.modFront.modFront.post
  · exact hs.modFront.post
  · split
    · exact hs.modFront
    · exact hs.modFront.modFront.post
  · exact hs.modFront.post
  · exact .ite hs.applyBlob hs
  · exact hs

theorem Canonical.execBoot (hs : Canonical s) : CanonicalOut (Machine.execBoot s) :=
  .next (.ite hs hs.bootStage)

theorem Canonical.execDecodeTableLoad (hs : Canonical s) : CanonicalOut (Machine.execDecodeTableLoad s) := by
  unfold Machine.execDecodeTableLoad
  refine .next ?_
  split
  · exact .ite (hs.modCore (fun ht => ht.same)) hs
  · exact hs

/-! ### UPDATE (R427) -/

theorem Canonical.execUpdate (hs : Canonical s) : CanonicalOut (Machine.execUpdate s) := by
  unfold Machine.execUpdate
  refine Canonical.orWait hs (.next ?_)
  split
  · refine .ite hs.completePkt (.ite hs.completePkt ?_)
    split
    · exact hs.completePkt
    · exact hs.completePkt
    · next he =>
        exact .ite (hs.rdAny _ _ he).completePkt (hs.rdAny _ _ he).modFront.post
  · exact hs

theorem Canonical.revertUpdate {b : Nat} (hs : Canonical s) : Canonical (s.revertUpdate b) := by
  unfold State.revertUpdate
  split
  · exact hs
  · exact hs.modFront.unpost.completePkt

theorem Canonical.watchTraps {t s : State} (ht : Canonical t) : Canonical (t.watchTraps s) :=
  .ite ht (.ite ht.countCanary ht)

theorem CanonicalOut.afterStep {o : Out} (ho : CanonicalOut o) : CanonicalOut (Machine.afterStep s o) := by
  unfold Machine.afterStep
  split
  · exact .next (ho _ rfl).syncRecords.watchTraps
  · exact ho

theorem Canonical.execUpdateCommit (hs : Canonical s) : CanonicalOut (Machine.execUpdateCommit s) := by
  unfold Machine.execUpdateCommit
  refine Canonical.orWait hs (.next ?_)
  split
  · exact hs
  · split
    · exact hs.revertUpdate
    · exact hs.modFront.completePkt

theorem Canonical.execUpdateRevert (hs : Canonical s) : CanonicalOut (Machine.execUpdateRevert s) :=
  Canonical.orWait hs (.next hs.revertUpdate)

/-! ### Recovery and checkpoints (R421) -/

theorem Canonical.countLost {p : Packet} (hs : Canonical s) : Canonical (s.countLost p) :=
  .ite hs.countCanary hs

theorem CanonicalCore.restarted {k : Core} (hk : CanonicalCore k) : CanonicalCore k.restarted :=
  hk.same

theorem Canonical.execRecovery (hs : Canonical s) : CanonicalOut (Machine.execRecovery s) :=
  Canonical.orWait hs (.next (.ite hs ((hs.modFront.unpost.foldl (fun ht => ht.countLost.completePkt)).foldl
    (fun ht => ht.modCore (fun hu => hu.restarted))).post))

theorem Canonical.execRecoveryEnd (hs : Canonical s) : CanonicalOut (Machine.execRecoveryEnd s) :=
  .next (.ite hs hs.modFront.post.unpost.post)

theorem Canonical.writeTables (hs : Canonical s) : Canonical s.writeTables := by
  unfold State.writeTables
  exact hs.drawn.wrReflex.modFront

theorem Canonical.execFirmwareCheckpoint (hs : Canonical s) : CanonicalOut (Machine.execFirmwareCheckpoint s) :=
  .next (.ite hs.writeTables.post (.ite hs.post hs))

theorem Canonical.execCounterSnapshot (hs : Canonical s) : CanonicalOut (Machine.execCounterSnapshot s) :=
  .next hs.sameMem.postAt

/-! ### Power and resets (R428, R429) -/

theorem Canonical.execPowerCapCheck (hs : Canonical s) : CanonicalOut (Machine.execPowerCapCheck s) :=
  .next hs.drawn.modFront.post

theorem Canonical.execThermAlert (hs : Canonical s) : CanonicalOut (Machine.execThermAlert s) :=
  .next hs.modFront

theorem Canonical.execThermAlertClear (hs : Canonical s) : CanonicalOut (Machine.execThermAlertClear s) :=
  .next hs.modFront

theorem Canonical.execPerstN (hs : Canonical s) : CanonicalOut (Machine.execPerstN s) := by
  unfold Machine.execPerstN
  refine .next ?_
  split
  · exact hs.modFront
  · exact hs

theorem Canonical.afterReset {power : Bool} : Canonical (s.afterReset power) := by
  unfold State.afterReset
  extract_lets f pins
  exact Proofs.reset_canonical.sameMem

theorem Canonical.execModuleReset (hs : Canonical s) : CanonicalOut (Machine.execModuleReset s) := by
  unfold Machine.execModuleReset
  refine .next ?_
  split
  · exact Canonical.afterReset
  · exact hs.modFront
  · exact hs.modFront
  · exact hs

theorem Canonical.execPtmSynchronisation (hs : Canonical s) : CanonicalOut (Machine.execPtmSynchronisation s) := by
  unfold Machine.execPtmSynchronisation
  refine .next ?_
  split
  · exact hs.sameMem
  · exact hs

/-! ### The two modules (R404-R409) -/

theorem Canonical.nextBeat (hs : Canonical s) : Canonical s.nextBeat :=
  hs.unpost.postAt

theorem Canonical.mirrorAll (hs : Canonical s) : Canonical s.mirrorAll := by
  unfold State.mirrorAll
  refine .foldl (.foldl (hs.foldl (fun ht => ht.foldl (fun hu => hu.mirrorWhole))) (fun ht => ?_)) (fun ht => .ite ht.mirrorOut ht)
  split
  · exact .ite ht.mirrorOut ht
  · exact ht

theorem Canonical.becomeSpare (hs : Canonical s) : Canonical s.becomeSpare :=
  hs.sameMem.modFront.foldl (fun ht => ht.post)

theorem Canonical.becomeActive (hs : Canonical s) : Canonical s.becomeActive :=
  hs.modFront.unpost.mirrorAll.nextBeat

theorem Canonical.execXegarLinkUp (hs : Canonical s) : CanonicalOut (Machine.execXegarLinkUp s) := by
  unfold Machine.execXegarLinkUp
  refine Canonical.orWait hs (.next ?_)
  split
  · exact .ite hs.modFront.post (Canonical.ite hs.modFront.sayPeer.becomeActive hs.modFront.sayPeer.becomeSpare).lendAll
  · exact hs

theorem Canonical.execHeartbeatSend (hs : Canonical s) : CanonicalOut (Machine.execHeartbeatSend s) :=
  .next (.ite hs (Canonical.ite hs.sayPeer hs).modFront.post.nextBeat)

theorem Canonical.expectBeats {t : Nat} (hs : Canonical s) : Canonical (s.expectBeats t) :=
  hs.unpost.foldl (fun ht => ht.postAt)

theorem Canonical.execHeartbeatReceive (hs : Canonical s) : CanonicalOut (Machine.execHeartbeatReceive s) := by
  unfold Machine.execHeartbeatReceive
  refine .next ?_
  split
  · exact .ite (.ite (Canonical.ite hs.becomeSpare hs).modFront (.ite hs.becomeSpare hs))
      (.ite (Canonical.ite (Canonical.ite hs.becomeSpare hs).modFront (.ite hs.becomeSpare hs)).modFront.expectBeats.sayPeer
        (Canonical.ite (Canonical.ite hs.becomeSpare hs).modFront (.ite hs.becomeSpare hs)).modFront.expectBeats)
  · exact hs

theorem Canonical.gapCheck {t0 e : Nat} {r : Reflex} (hs : Canonical s) : Canonical (s.gapCheck t0 e r) := by
  unfold State.gapCheck
  refine .ite hs ?_
  split
  · exact hs.modReflex
  · exact hs

theorem Canonical.activateMirrored (hs : Canonical s) : Canonical s.activateMirrored := by
  unfold State.activateMirrored
  refine .foldl hs.modFront (fun ht => ?_)
  split
  · next he =>
      exact ht.activate.ok _ he
  · next he =>
      exact (ht.activate.error _ he).corrupt _ rfl
  · next he =>
      exact (ht.activate.error _ he).poisoned _ rfl
  · exact ht

theorem Canonical.takeOver (hs : Canonical s) : Canonical s.takeOver :=
  (hs.modFront.activateMirrored.foldl (fun ht => ht.gapCheck)).raiseMsi.nextBeat

theorem Canonical.execHeartbeatMiss (hs : Canonical s) : CanonicalOut (Machine.execHeartbeatMiss s) :=
  Canonical.orWait hs (.next (.ite hs (.ite hs.modFront.takeOver hs.modFront)))

theorem Canonical.execHeartbeatAcknowledgement (hs : Canonical s) : CanonicalOut (Machine.execHeartbeatAcknowledgement s) := by
  unfold Machine.execHeartbeatAcknowledgement
  refine .next ?_
  split
  · exact .ite hs.modFront hs
  · exact hs

theorem Canonical.releaseMirrored {upTo : Option Nat} (hs : Canonical s) : Canonical (s.releaseMirrored upTo) :=
  hs.modFront.foldl (fun ht => ht.post)

theorem Canonical.execHeartbeatAckMiss (hs : Canonical s) : CanonicalOut (Machine.execHeartbeatAckMiss s) :=
  .next (.ite hs (.ite hs.modFront.modFront.releaseMirrored.raiseMsi hs.modFront))

theorem Canonical.execMirrorAcknowledgement (hs : Canonical s) : CanonicalOut (Machine.execMirrorAcknowledgement s) := by
  unfold Machine.execMirrorAcknowledgement
  refine .next ?_
  split
  · exact hs.releaseMirrored
  · exact hs

theorem Canonical.mirrorPublish {n v t epoch : Nat} {data : List Byte} (hs : Canonical s) : Canonical (s.mirrorPublish n v t epoch data) := by
  unfold State.mirrorPublish
  split
  · exact hs
  · split
    · exact hs.post
    · exact hs.modSlot

theorem Canonical.keepMirrored {h qcb sp : Nat} (hs : Canonical s) : Canonical (s.keepMirrored h qcb sp) :=
  hs.modFront

theorem Canonical.mirrorQueueOp {h qcb sp : Nat} {data : Option (List Byte)} (hs : Canonical s) :
    InSome Canonical (s.mirrorQueueOp h qcb sp data) := by
  unfold State.mirrorQueueOp
  split
  · split
    · next he _ _ =>
        exact (hs.activate.ok _ he).appendElem.map (fun ht => ht.elim ht.retire)
    · split
      · next he _ _ _ _ he2 =>
          exact .some ((((hs.activate.ok _ he).takeElem.ok _ he2) _ rfl).elim (((hs.activate.ok _ he).takeElem.ok _ he2) _ rfl).retire)
      · exact .none
  · exact .none

theorem Canonical.mirrorOp {seq h qcb sp : Nat} {data : Option (List Byte)} (hs : Canonical s) : Canonical (s.mirrorOp seq h qcb sp data) := by
  unfold State.mirrorOp
  split
  · next he =>
      exact (hs.modFront.mirrorQueueOp _ he).modFront.keepMirrored.sayPeer
  · exact hs.post

theorem Canonical.mirrorQueueWhole {h qcb sp tenant : Nat} {image storage : List Byte} (hs : Canonical s) :
    Canonical (s.mirrorQueueWhole h qcb sp tenant image storage) :=
  hs.modHome.pokeLine.pokeLine

theorem Canonical.execMirrorUpdate (hs : Canonical s) : CanonicalOut (Machine.execMirrorUpdate s) := by
  unfold Machine.execMirrorUpdate
  refine Canonical.orWait hs (.next ?_)
  split
  · refine .ite hs ?_
    split
    · exact hs.modFront.mirrorPublish
    · exact hs.modFront.armEntry
    · exact hs.modFront.disarmEntry
    · exact hs.modFront.bar2Access
    · exact hs.modFront.mirrorOp
    · exact hs.modFront.mirrorOp
    · exact hs.modFront.sayPeer
    · exact hs.modFront.mirrorQueueWhole.keepMirrored
  · exact hs

end Sys2Proof.Claims
end

section
/-! SUPPORT. The canonical form of every memory through Levain records and invocations, weight regions, and then every instruction, every event and
every step. -/

namespace Sys2Proof.Claims

open Sys2Proof.Machine

set_option Elab.async false

variable {s : State}

/-! ### Headers (R374), as numbers of 512 bits -/

theorem Canonical.cacheHeader {o h : Nat} (hs : Canonical s) : Canonical (s.cacheHeader o h) :=
  hs.sameMem

theorem Canonical.putHeader {o h : Nat} (hs : Canonical s) : Canonical (s.putHeader o h) :=
  hs.wrOwn.cacheHeader

/-! ### LVINIT, LVINV, LVSTAT (R375) -/

theorem Canonical.execLvinit {d a b : BitVec 5} (hs : Canonical s) : CanonicalOut (Machine.execLvinit d a b s) := by
  unfold Machine.execLvinit
  refine Canonical.finish hs ?_
  split
  · exact .trapR
  · refine .ite .trapR ?_
    split
    · exact .trapR
    · exact .ite (.wait hs) (.ite .trapR (.ite .trapR (.ok hs.putHeader.setX)))

theorem Canonical.execLvinv {d a : BitVec 5} (hs : Canonical s) : CanonicalOut (Machine.execLvinv d a s) := by
  unfold Machine.execLvinv
  refine Canonical.finish hs ?_
  split
  · exact .trapR
  · exact .ite (.wait hs) (.ite .trapR (.ite .trapR (.ok hs.putHeader.setX)))

theorem Canonical.execLvstat {d a b : BitVec 5} (hs : Canonical s) : CanonicalOut (Machine.execLvstat d a b s) := by
  unfold Machine.execLvstat
  refine Canonical.finish hs ?_
  split
  · exact .trapR
  · split
    · exact .trapR
    · exact .ite (.wait hs) (Canonical.logged hs (.ok hs.wrOwn.setX))

/-! ### Invocations (R376-R379) -/

theorem Canonical.execMdq {a : BitVec 4} (hs : Canonical s) : CanonicalOut (Machine.execMdq a s) := by
  have hlatch {u : State} {l : Mem} (hu : Canonical u) : Canonical { u with co := { u.co with latch := l } } := hu.sameMem
  refine hs.finish (.ite (.wait hs) ?_)
  split
  · exact .trapR
  · refine hs.engine fun ht => .ok (.putHeader (.foldlFst (hlatch ht) fun hr => ?_))
    dsimp only
    apply Canonical.wrOwn
    exact hlatch hr

theorem Canonical.deltaStep {h t w : Nat} (hs : Canonical s) : Canonical (Machine.deltaStep s h t w).1 := by
  unfold Machine.deltaStep
  extract_lets k h rows u
  have hu : Canonical u := hs.stepWith
  clear_value u
  split
  · exact .fst hs.setMconf
  · split
    · exact .fst hs
    · exact .fst hu

theorem Canonical.execMdelta {t : BitVec 6} {a : BitVec 4} {w : BitVec 6} (hs : Canonical s) : CanonicalOut (Machine.execMdelta t a w s) := by
  unfold Machine.execMdelta
  refine Canonical.finish hs (.ite (.wait hs) ?_)
  split
  · exact .trapR
  · exact .ite (.wait hs) (Canonical.engine hs (fun ht => .ite (.ok (Canonical.ite ht.setTile ht).deltaStep.wrOwn.putHeader)
      (.ok (Canonical.ite ht.setTile ht).deltaStep.putHeader)))

/-! ### WREG, WUNREG (R373) -/

theorem Canonical.regionRequest {d : BitVec 5} {rs : Bool} {index : Nat} {op : Instr} {x : Word} {e : Option Region} (hs : Canonical s) :
    CanonicalRes (s.regionRequest d rs index op x e) := by
  unfold State.regionRequest
  refine Canonical.release hs (fun ht => .ite (.wait ht) (Canonical.ask ht (fun hu => hu.sameMem.sendReq) (fun hu => ?_)))
  split
  · exact .ok hu.setX
  · exact .ok hu

theorem Canonical.regionSide {rs : Bool} {x : Word} {k : State → Res} (hs : Canonical s) (hk : ∀ {t : State}, Canonical t → CanonicalRes (k t)) :
    CanonicalRes (s.regionSide rs x k) :=
  .ite .trapR (.ite .trapR (hk hs))

theorem Canonical.execWreg {d a b : BitVec 5} (hs : Canonical s) : CanonicalOut (Machine.execWreg d a b s) := by
  unfold Machine.execWreg
  refine Canonical.finish hs ?_
  split
  · exact .trapR
  · exact .ite hs.regionRequest (.ite (.wait hs) (.ite .trapR (.ite .trapR (Canonical.regionSide hs (fun ht => .ite .trapR ht.regionRequest)))))

theorem Canonical.execWunreg {d a : BitVec 5} (hs : Canonical s) : CanonicalOut (Machine.execWunreg d a s) :=
  Canonical.finish hs (.ite .trapR (.ite (.wait hs) (hs.regionSide (fun ht => ht.regionRequest))))

/-- Every instruction and every event keeps the form. -/
theorem Canonical.exec {i : Instr} (hs : Canonical s) : CanonicalOut (Machine.exec i s) := by
  unfold Machine.exec
  split
  · exact hs.execBeq
  · exact hs.execBne
  · exact hs.execBlt
  · exact hs.execBge
  · exact hs.execBltu
  · exact hs.execBgeu
  · exact hs.execBpt
  · exact hs.execBpf
  · exact hs.execJ
  · exact hs.execCall
  · exact hs.execJr
  · exact hs.execJalr
  · exact hs.execLoop
  · exact hs.execLiw
  · exact hs.execLiwh
  · exact hs.execLd8
  · exact hs.execLd8u
  · exact hs.execLd16
  · exact hs.execLd16u
  · exact hs.execLd32
  · exact hs.execLd32u
  · exact hs.execLd64
  · exact hs.execSt8
  · exact hs.execSt16
  · exact hs.execSt32
  · exact hs.execSt64
  · exact hs.execLda32
  · exact hs.execLda64
  · exact hs.execStl32
  · exact hs.execStl64
  · exact hs.execLdp
  · exact hs.execStp
  · exact hs.execLdf64
  · exact hs.execStf64
  · exact hs.execVld
  · exact hs.execVldb
  · exact hs.execVlds
  · exact hs.execVldsPi
  · exact hs.execVst
  · exact hs.execVstm
  · exact hs.execAmoadd
  · exact hs.execAmoand
  · exact hs.execAmoor
  · exact hs.execAmoorFence
  · exact hs.execAmoxor
  · exact hs.execAmomin
  · exact hs.execAmomax
  · exact hs.execAmominu
  · exact hs.execAmomaxu
  · exact hs.execAmoswp
  · exact hs.execCas32
  · exact hs.execCas64
  · exact hs.execAmofadd
  · exact hs.execAmofmin
  · exact hs.execAmofmax
  · exact hs.execCwb
  · exact hs.execCinv
  · exact hs.execCinvRc
  · exact hs.execCinvD
  · exact hs.execPref
  · exact hs.execPrefSc
  · exact hs.execIcinv
  · exact hs.execEnq
  · exact hs.execEnqt
  · exact hs.execDeq
  · exact hs.execDeqt
  · exact hs.execQinit
  · exact hs.execQstat
  · exact hs.execQdrain
  · exact hs.execQreset
  · exact hs.execPinit
  · exact hs.execPstat
  · exact hs.execBalloc
  · exact hs.execBfree
  · exact hs.execBtapp
  · exact hs.execBtget
  · exact hs.execBtfork
  · exact hs.execBtrel
  · exact hs.execSend
  · exact hs.execSendAck
  · exact hs.execSendTrap
  · exact hs.execSendv
  · exact hs.execSendvAck
  · exact hs.execSendvTrap
  · exact hs.execRecv
  · exact hs.execRecvt
  · exact hs.execCpy
  · exact hs.execCpy2d
  · exact hs.execCpy2dSt
  · exact hs.execCpyg
  · exact hs.execCpys
  · exact hs.execCpyh
  · exact hs.execCpyq
  · exact hs.execStrm
  · exact hs.execStrmW
  · exact hs.execStrmx
  · exact hs.execXsend
  · exact hs.execXrecv
  · exact hs.execXphase
  · exact hs.execSstep
  · exact hs.execGjoin
  · exact hs.execGleave
  · exact hs.execGbar
  · exact hs.execGarr
  · exact hs.execGwait
  · exact hs.execSpawn
  · exact hs.execMigr
  · exact hs.execMigrLd
  · exact hs.execTgrow
  · exact hs.execTidx
  · exact hs.execTidxNx
  · exact hs.execProbe
  · exact hs.execXmpub
  · exact hs.execXmrd
  · exact hs.execXmrdt
  · exact hs.execStake
  · exact hs.execUnstake
  · exact hs.execLvinit
  · exact hs.execLvinv
  · exact hs.execLvstat
  · exact hs.execWreg
  · exact hs.execWunreg
  · exact hs.execSsrex
  · exact hs.execSsrim
  · exact hs.execCsrr
  · exact hs.execCsrw
  · exact hs.execCsrs
  · exact hs.execCsrc
  · exact hs.execTrap
  · exact hs.execTrapBrk
  · exact hs.execTime
  · exact hs.execTalarm
  · exact hs.execAdd
  · exact hs.execSub
  · exact hs.execAnd
  · exact hs.execOr
  · exact hs.execXor
  · exact hs.execSll
  · exact hs.execSrl
  · exact hs.execSra
  · exact hs.execSlt
  · exact hs.execSltu
  · exact hs.execMin
  · exact hs.execMax
  · exact hs.execMinu
  · exact hs.execMaxu
  · exact hs.execAddi
  · exact hs.execAndi
  · exact hs.execOri
  · exact hs.execXori
  · exact hs.execSlli
  · exact hs.execSrli
  · exact hs.execSrai
  · exact hs.execSlti
  · exact hs.execMul
  · exact hs.execMulh
  · exact hs.execMulhu
  · exact hs.execDiv
  · exact hs.execDivu
  · exact hs.execRem
  · exact hs.execRemu
  · exact hs.execLui
  · exact hs.execAddpc
  · exact hs.execClz
  · exact hs.execCtz
  · exact hs.execPopc
  · exact hs.execBswap
  · exact hs.execPeq
  · exact hs.execPne
  · exact hs.execPlt
  · exact hs.execPge
  · exact hs.execPltu
  · exact hs.execPgeu
  · exact hs.execPand
  · exact hs.execPor
  · exact hs.execPxor
  · exact hs.execPnot
  · exact hs.execSel
  · exact hs.execMovpw
  · exact hs.execMovwp
  · exact hs.execAddsh
  · exact hs.execPart
  · exact hs.execVadd
  · exact hs.execVsub
  · exact hs.execVmul
  · exact hs.execVmin
  · exact hs.execVmax
  · exact hs.execVand
  · exact hs.execVor
  · exact hs.execVxor
  · exact hs.execVshl
  · exact hs.execVshr
  · exact hs.execVsra
  · exact hs.execVfadd
  · exact hs.execVfsub
  · exact hs.execVfmul
  · exact hs.execVfma
  · exact hs.execVfmin
  · exact hs.execVfmax
  · exact hs.execVfabs
  · exact hs.execVfneg
  · exact hs.execVrcp
  · exact hs.execVrsq
  · exact hs.execVsqrt
  · exact hs.execVexp2
  · exact hs.execVlog2
  · exact hs.execVdiv
  · exact hs.execVcvt
  · exact hs.execVcvts
  · exact hs.execVqnt
  · exact hs.execVrsum
  · exact hs.execVrmax
  · exact hs.execVrmin
  · exact hs.execVshuf
  · exact hs.execVbcast
  · exact hs.execVext
  · exact hs.execVins
  · exact hs.execVcmp
  · exact hs.execVsel
  · exact hs.execVrec
  · exact hs.execVema
  · exact hs.execVmovx
  · exact hs.execVmovv
  · exact hs.execVsplat
  · exact hs.execVloop
  · exact hs.execMcfg
  · exact hs.execMlda
  · exact hs.execMldb
  · exact hs.execMma
  · exact hs.execMmas
  · exact hs.execMrot
  · exact hs.execMdq
  · exact hs.execMdelta
  · exact hs.execMzero
  · exact hs.execMst
  · exact hs.execMscale
  · exact hs.execMredMax
  · exact hs.execMredSum
  · exact hs.execMchk
  · exact hs.execNop
  · exact hs.execSynci
  · exact hs.execExit
  · exact hs.execYield
  · exact hs.execTret
  · exact hs.execHalt
  · exact hs.execReflexRelease
  · exact hs.execShadowBankSwitch
  · exact hs.execDeadlineMiss
  · exact hs.execBudgetExceeded
  · exact hs.execStarvationGuard
  · exact hs.execAdmission
  · exact hs.execTaskDispatch
  · exact hs.execBankRelease
  · exact hs.execClearing
  · exact hs.execProgramCompletion
  · exact hs.execMigrationArrival
  · exact hs.execMigrationResend
  · exact hs.execPreemption
  · exact hs.execSeize
  · exact hs.execContextStreamEnd
  · exact hs.execRestore
  · exact hs.execRetryResend
  · exact hs.execStakeRequest
  · exact hs.execStakeGrant
  · exact hs.execStandbyMaskWrite
  · exact hs.execMailboxArrival
  · exact hs.execSendAcknowledgement
  · exact hs.execSavedContextDelivery
  · exact hs.execAlarmFire
  · exact hs.execSliceRequest
  · exact hs.execPageWalkComplete
  · exact hs.execConfirmation
  · exact hs.execAccessReply
  · exact hs.execTranslationFault
  · exact hs.execFaultMessageResend
  · exact hs.execFaultReplyResume
  · exact hs.execFaultReplyRetryLater
  · exact hs.execFaultReplyKill
  · exact hs.execOverflowMessage
  · exact hs.execOverflowRecall
  · exact hs.execOverflowRecallAnswer
  · exact hs.execCacheOpComplete
  · exact hs.execSliceGate
  · exact hs.execSliceWake
  · exact hs.execSliceWakeComplete
  · exact hs.execShootdownDataRange
  · exact hs.execShootdownDataSpace
  · exact hs.execShootdownInstructionRange
  · exact hs.execShootdownInstructionProgram
  · exact hs.execShootdownEverything
  · exact hs.execShootdownNode
  · exact hs.execShootdownCompletion
  · exact hs.execRegionTableUpdate
  · exact hs.execPeerTranslationRequest
  · exact hs.execPeerTranslationReply
  · exact hs.execLeaseExpiry
  · exact hs.execDebugHalt
  · exact hs.execDebugResume
  · exact hs.execDebugStep
  · exact hs.execDebugQuiesce
  · exact hs.execDebugStatus
  · exact hs.execDebugDump
  · exact hs.execCopySectorReply
  · exact hs.execCopyCompletion
  · exact hs.execLandingHandlerInvocation
  · exact hs.execCpyqRetry
  · exact hs.execStreamRefill
  · exact hs.execExchangeWindow
  · exact hs.execExchangeArrival
  · exact hs.execBarrierArrival
  · exact hs.execSstepRelease
  · exact hs.execSuperstepReplay
  · exact hs.execProbeHop
  · exact hs.execAutoProbe
  · exact hs.execXmpubCommit
  · exact hs.execXmrdCompletion
  · exact hs.execHomeControllerOperation
  · exact hs.execHomeControllerReply
  · exact hs.execQueueGrant
  · exact hs.execWaiterWithdrawal
  · exact hs.execWaiterRecordReturn
  · exact hs.execCreditMessage
  · exact hs.execPeerUnreachable
  · exact hs.execSlotFillComplete
  · exact hs.execRotationDataArrival
  · exact hs.execRotationCreditArrival
  · exact hs.execPairHashArrival
  · exact hs.execPairMatchTimeout
  · exact hs.execCounterSnapshot
  · exact hs.execFirmwareCheckpoint
  · exact hs.execRecovery
  · exact hs.execRecoveryEnd
  · exact hs.execHeartbeatSend
  · exact hs.execHeartbeatReceive
  · exact hs.execHeartbeatMiss
  · exact hs.execHeartbeatAckMiss
  · exact hs.execXegarLinkUp
  · exact hs.execMirrorUpdate
  · exact hs.execHostQueueEnqueue
  · exact hs.execHostQueueDequeue
  · exact hs.execHostSlotControlRead
  · exact hs.execHostSlotDataWrite
  · exact hs.execHostSlotCommit
  · exact hs.execHostSlotRelease
  · exact hs.execHostBar2Access
  · exact hs.execHostRegisterWrite
  · exact hs.execCommandDispatch
  · exact hs.execPacketSignalRelease
  · exact hs.execLoad
  · exact hs.execLaunch
  · exact hs.execArm
  · exact hs.execDisarm
  · exact hs.execSignal
  · exact hs.execMapq
  · exact hs.execMapbar
  · exact hs.execMapwin
  · exact hs.execGrant
  · exact hs.execHoldrel
  · exact hs.execTenantCreate
  · exact hs.execTenantDestroy
  · exact hs.execAttest
  · exact hs.execCap
  · exact hs.execUpdate
  · exact hs.execUpdateCommit
  · exact hs.execUpdateRevert
  · exact hs.execMsix
  · exact hs.execDecodeTableLoad
  · exact hs.execPowerCapCheck
  · exact hs.execThermAlert
  · exact hs.execThermAlertClear
  · exact hs.execPerstN
  · exact hs.execModuleReset
  · exact hs.execBoot
  · exact hs.execPtmSynchronisation
  · exact hs.execRemoteAccess
  · exact hs.execLinkWordArrival
  · exact hs.execHeartbeatAcknowledgement
  · exact hs.execMirrorAcknowledgement

theorem Canonical.take {e : Event} (hs : Canonical s) : CanonicalOut (Machine.take s e) :=
  hs.sameMem.exec

/-- So does every step. -/
theorem Canonical.step (hs : Canonical s) : CanonicalOut (Machine.step s) := by
  unfold Machine.step
  refine .afterStep ?_
  split
  · next he =>
      exact (hs.due _ he).take
  · split
    · exact hs.take
    · split
      · exact Canonical.issue (fun ht => ht.exec) hs
      · split
        · exact hs.issueAway (fun ht => ht.exec)
        · exact .ite hs.take (.next hs.pass)

end Sys2Proof.Claims
end

section
/-! PROOF. Every step keeps every memory in its canonical form (R65, R158). -/

namespace Sys2Proof.Proofs

open Sys2Proof.Machine Sys2Proof.Claims

/-- Settles O59: each operation of the model keeps the form, so each instruction and event does (`Canonical.exec`), so a step does
(`Canonical.step`). -/
theorem everyStepKeepsTheMemoriesCanonical : Obligations.EveryStepKeepsTheMemoriesCanonical :=
  ⟨fun _ t hs ht => hs.step t ht, fun _ _ _ => ⟨rfl, rfl, rfl, rfl⟩⟩

end Sys2Proof.Proofs
end

section
/-! PROOF. Products, quotients and remainders (O3): what a late result leaves (R126), and division by the kind of divisor (R118, R141). -/

namespace Sys2Proof.Machine

open Sys2Proof.Claims

/-! ### Results that come later (R126) -/

/-- x[d] := w, ready `l` cycles later, with the core's divider taken until `free`. -/
theorem xLater_readyAt (s : State) (d : BitVec 5) (w : Word) (l free : Nat) :
    XLater s d w l free (stepsPast { s.setX d w with
      th := (s.setX d w).th.readyAt d.toNat (s.cycle + l), co := { s.co with divFree := free } }) := by
  have hframe := Thread.setX_frame s.th d.toNat w
  have hpc : (s.setX d w).th.pc = s.th.pc := by rw [State.setX_th, hframe]
  have hat : (s.setX d w).th.xAt = s.th.xAt := by rw [State.setX_th, hframe]
  refine ⟨Thread.getX_setX_same s.th d.toNat w, fun r hr => Thread.getX_setX_other s.th w hr, ⟨?_, fun r hr => ?_⟩, ?_⟩
  · exact mget_mset_same _ _ _
  · exact (mget_mset_other _ _ hr).trans (by rw [hat])
  · have hpast : pcAfter { s.setX d w with
        th := (s.setX d w).th.readyAt d.toNat (s.cycle + l), co := { s.co with divFree := free } } = pcAfter s :=
      pcAfter_congr rfl rfl hpc
    unfold stepsPast
    rw [hpast, State.setX_th, hframe]
    rfl

theorem writeLater_next (s : State) (d : BitVec 5) (w : Word) (l : Nat) :
    Next (writeLater s d w l) (XLater s d w l s.co.divFree) := by
  rw [writeLater, finish_ok, State.advance_eq_stepsPast]
  exact ⟨_, rfl, xLater_readyAt s d w l s.co.divFree⟩

/-- The divider is free: the quotient or remainder comes after 20 cycles, and it is taken until then. -/
theorem divide_next {s : State} (h : s.co.divFree ≤ s.cycle) (d : BitVec 5) (w : Word) :
    Next (divide s d w) (XLater s d w 20 (s.cycle + 20)) := by
  rw [divide, if_neg (Nat.not_lt.2 h), finish_ok, State.advance_eq_stepsPast]
  exact ⟨_, rfl, xLater_readyAt s d w 20 (s.cycle + 20)⟩

/-- The divider is at work: a divide waits. -/
theorem divide_waits {s : State} (h : s.cycle < s.co.divFree) (d : BitVec 5) (w : Word) :
    Next (divide s d w) fun t => t.stat = .held ∧ t.th.pc = s.th.pc ∧ t.th.x = s.th.x ∧ t.co = s.co := by
  rw [divide, if_pos h, finish_wait]
  exact ⟨_, rfl, rfl, rfl, rfl, rfl⟩

/-! ### Quotients and remainders (R118) -/

/-- The signed quotient is rounded towards zero: the remainder is smaller than the divisor and takes the dividend's sign. -/
theorem tmod_bounds (a : Int) {b : Int} (hb : b ≠ 0) :
    (a.tmod b).natAbs < b.natAbs ∧ (a.tmod b ≠ 0 → (0 < a.tmod b ↔ 0 < a)) := by
  refine ⟨by rw [Int.natAbs_tmod]; exact Nat.mod_lt _ (Int.natAbs_pos.2 hb), fun hr => ⟨fun hpos => ?_, fun ha => ?_⟩⟩
  · by_contra ha
    have hneg : 0 ≤ (-a).tmod b := Int.tmod_nonneg b (by omega)
    rw [Int.neg_tmod] at hneg
    omega
  · exact lt_of_le_of_ne (Int.tmod_nonneg b ha.le) hr.symm

/-- OP 0x42 has no row from fn 7 on (R67). -/
theorem decode42_reserved (c : BitVec 20) (h : 7 ≤ (c.extractLsb' 0 5).toNat) : decode42 c = .error .illegalOpcode := by
  unfold decode42
  split
  case h_8 => rfl
  all_goals omega

end Sys2Proof.Machine

namespace Sys2Proof.Proofs

open Sys2Proof.Machine Sys2Proof.Claims

/-- The words of R141 on their operands, when the divisor is 0 (R118). -/
theorem divisions_by_zero {s : State} (h : s.co.divFree ≤ s.cycle) (d a : BitVec 5) {b : BitVec 5} (hb : src s b = 0) :
    Next (exec (.div d a b) s) (XLater s d (BitVec.ofInt 64 (-1)) 20 (s.cycle + 20)) ∧
    Next (exec (.divu d a b) s) (XLater s d (BitVec.ofNat 64 (2 ^ 64 - 1)) 20 (s.cycle + 20)) ∧
    Next (exec (.rem d a b) s) (XLater s d (src s a) 20 (s.cycle + 20)) ∧
    Next (exec (.remu d a b) s) (XLater s d (src s a) 20 (s.cycle + 20)) := by
  have hdivS : divS (src s a) (src s b) = BitVec.ofInt 64 (-1) := if_pos hb
  have hdivU : divU (src s a) (src s b) = BitVec.ofNat 64 (2 ^ 64 - 1) := if_pos hb
  have hremS : remS (src s a) (src s b) = src s a := if_pos hb
  have hremU : remU (src s a) (src s b) = src s a := if_pos hb
  refine ⟨?_, ?_, ?_, ?_⟩
  · exact hdivS ▸ divide_next h d _
  · exact hdivU ▸ divide_next h d _
  · exact hremS ▸ divide_next h d (remS (src s a) (src s b))
  · exact hremU ▸ divide_next h d (remU (src s a) (src s b))

/-- The signed words on any other divisor. -/
theorem signed_divisions {s : State} (h : s.co.divFree ≤ s.cycle) (d a : BitVec 5) {b : BitVec 5} (hb : src s b ≠ 0) :
    Next (exec (.div d a b) s) (XLater s d (BitVec.ofInt 64 ((src s a).toInt.tdiv (src s b).toInt)) 20 (s.cycle + 20)) ∧
    Next (exec (.rem d a b) s) (XLater s d (BitVec.ofInt 64 ((src s a).toInt.tmod (src s b).toInt)) 20 (s.cycle + 20)) := by
  have hdivS : divS (src s a) (src s b) = BitVec.ofInt 64 ((src s a).toInt.tdiv (src s b).toInt) := if_neg hb
  have hremS : remS (src s a) (src s b) = BitVec.ofInt 64 ((src s a).toInt.tmod (src s b).toInt) := if_neg hb
  exact ⟨hdivS ▸ divide_next h d _, hremS ▸ divide_next h d _⟩

theorem unsigned_divisions {s : State} (h : s.co.divFree ≤ s.cycle) (d a : BitVec 5) {b : BitVec 5} (hb : src s b ≠ 0) :
    Next (exec (.divu d a b) s) (XLater s d (BitVec.ofNat 64 ((src s a).toNat / (src s b).toNat)) 20 (s.cycle + 20)) ∧
    Next (exec (.remu d a b) s) (XLater s d (BitVec.ofNat 64 ((src s a).toNat % (src s b).toNat)) 20 (s.cycle + 20)) := by
  have hdivU : divU (src s a) (src s b) = BitVec.ofNat 64 ((src s a).toNat / (src s b).toNat) := if_neg hb
  have hremU : remU (src s a) (src s b) = BitVec.ofNat 64 ((src s a).toNat % (src s b).toNat) := if_neg hb
  exact ⟨hdivU ▸ divide_next h d _, hremU ▸ divide_next h d _⟩

/-- Settles O3: the products by `writeLater_next`; the quotients and remainders by whether the divider is free and the divisor is 0. -/
theorem multiplyAndDivideResults : Obligations.MultiplyAndDivideResults := by
  refine ⟨?_, fun w lit hop hfn => ?_⟩
  · intro s d a b _ x y product divided
    refine ⟨?_, ?_, ?_, fun hbusy i hi => ?_, fun hfree hy => divisions_by_zero hfree d a hy, fun hfree hy => ⟨?_, ?_⟩⟩
    · have hmul : BitVec.ofNat 64 (x.toNat * y.toNat) = x * y := by simp [BitVec.ofNat_mul]
      exact hmul ▸ writeLater_next s d _ 3
    · exact writeLater_next s d _ 3
    · exact writeLater_next s d _ 3
    · simp only [List.mem_cons, List.not_mem_nil, or_false] at hi
      obtain rfl | rfl | rfl | rfl := hi <;> exact divide_waits hbusy d _
    · have hne : y.toInt ≠ 0 := fun h => hy (BitVec.eq_of_toInt_eq h)
      obtain ⟨hlt, hsign⟩ := tmod_bounds x.toInt hne
      exact ⟨_, _, (Int.tdiv_mul_add_tmod x.toInt y.toInt).symm, hlt, hsign, signed_divisions hfree d a hy⟩
    · have hpos : 0 < y.toNat := Nat.pos_of_ne_zero fun h => hy (BitVec.eq_of_toNat_eq h)
      exact ⟨_, _, (Nat.div_add_mod' _ _).symm, Nat.mod_lt _ hpos, unsigned_divisions hfree d a hy⟩
  · have hfn' : 7 ≤ ((w.extractLsb' 0 20).extractLsb' 0 5).toNat := by
      rwa [Laws.extract_extract _ _ _ _ _ (by decide)]
    rw [decodeCode, hop]
    exact decode42_reserved _ hfn'

end Sys2Proof.Proofs
end

section
/-! PROOF. Floating-point vector words (O24): a vector word that is queued on an idle sequencer leaves what R242-R244 and R122 say, and the
lanes and flags of a gathered result (R108, R122). -/

namespace Sys2Proof.Machine

open Sys2Proof.Claims

/-! ### Vector registers (R65) -/

theorem Thread.getV_setV_same (t : Thread) {d : Nat} (hd : d < 28) (w : Vec) : (t.setV d w).getV d = w := by
  simp [Thread.getV, Thread.setV, hd]

theorem Thread.getV_setV_other (t : Thread) {d n : Nat} (w : Vec) (h : n ≠ d) : (t.setV d w).getV n = t.getV n := by
  unfold Thread.getV Thread.setV
  split
  · split
    · exact Vector.getElem_set_ne ‹_› _ h.symm
    · rfl
  · rfl

/-- Writing a vector register changes the vector registers alone. -/
theorem Thread.setV_frame (t : Thread) (d : Nat) (w : Vec) : t.setV d w = { t with v := (t.setV d w).v } := by
  unfold Thread.setV
  split <;> rfl

/-! ### Lanes (R108) -/

theorem packBits_cons (w x : Nat) (l : List Nat) : packBits w (x :: l) = x % 2 ^ w + 2 ^ w * packBits w l := rfl

theorem packBits_lt (w : Nat) (l : List Nat) : packBits w l < 2 ^ (w * l.length) := by
  induction l with
  | nil => simp [packBits]
  | cons x l ih =>
    have hx : x % 2 ^ w < 2 ^ w := Nat.mod_lt _ (by positivity)
    have hl : 2 ^ w * (packBits w l + 1) ≤ 2 ^ w * 2 ^ (w * l.length) := Nat.mul_le_mul_left _ ih
    rw [packBits_cons, List.length_cons, Nat.mul_succ, Nat.pow_add, Nat.mul_comm (2 ^ (w * l.length))]
    rw [Nat.mul_succ] at hl
    omega

/-- A lane of packed elements is its element. -/
theorem bits_packBits (w : Nat) (l : List Nat) {k : Nat} (hk : k < l.length) : packBits w l / 2 ^ (w * k) % 2 ^ w = l[k] % 2 ^ w := by
  have hpos : 0 < 2 ^ w := by positivity
  induction l generalizing k with
  | nil => cases hk
  | cons x l ih =>
    rw [packBits_cons]
    cases k with
    | zero => simp
    | succ k =>
      have hx : x % 2 ^ w / 2 ^ w = 0 := Nat.div_eq_of_lt (Nat.mod_lt _ hpos)
      rw [Nat.mul_succ, Nat.add_comm (w * k), Nat.pow_add, ← Nat.div_div_eq_div_mul, Nat.add_mul_div_left _ _ hpos, hx, Nat.zero_add]
      exact ih (Nat.lt_of_succ_lt_succ hk)

theorem laneOf_vecOf_packBits (w : Nat) (l : List Nat) {k : Nat} (hl : w * l.length ≤ 128) (hk : k < l.length) :
    laneOf (vecOf (packBits w l)) w k = l[k] % 2 ^ w := by
  have hlt : packBits w l < 2 ^ 128 := (packBits_lt w l).trans_le (Nat.pow_le_pow_right (by decide) hl)
  rw [laneOf, vecOf, BitVec.toNat_ofNat, Nat.mod_eq_of_lt hlt, bits_packBits w l hk]

/-- The flags of a list of results are those that one of them raises (R122). -/
theorem getLsbD_foldl_flags (l : List Flagged) (fl : Flags) (i : Nat) :
    (l.foldl (fun f x => f ||| x.fl) fl).getLsbD i = true ↔ fl.getLsbD i = true ∨ ∃ x ∈ l, x.fl.getLsbD i = true := by
  induction l generalizing fl with
  | nil => simp
  | cons x l ih =>
    rw [List.foldl_cons, ih, BitVec.getLsbD_or, Bool.or_eq_true, List.exists_mem_cons_iff, or_assoc]

/-- A result gathered from all lanes holds each lane's bits and every lane's flags. -/
theorem floats_gather (s : State) (g : Nat → Flagged) :
    Floats s (gather (width s) ((List.range (128 / width s)).map g)).1 (gather (width s) ((List.range (128 / width s)).map g)).2 g := by
  refine ⟨fun k hk => ?_, fun i => ?_⟩
  · have hlen : (((List.range (128 / width s)).map g).map (·.bits)).length = 128 / width s := by simp
    rw [gather, laneOf_vecOf_packBits _ _ (by rw [hlen]; exact Nat.mul_div_le _ _) (by rwa [hlen])]
    simp
  · rw [gather, getLsbD_foldl_flags]
    simp

/-! ### A vector word on an idle sequencer (R242-R244) -/

/-- The word passes its checks and is performed at once, with the result that its operation gives. -/
theorem vecRuns_plain {s : State} (h : VecReady s) {i : Instr} {ops : List Word} {d : BitVec 5} {P : Vec → Flags → Prop}
    (legal : vLegal i s.src.vconf = true) (hr : ∀ n ∈ vReads i, n < 28) (hw : vWrite i = some d.toNat) (hd : d.toNat < 28)
    (hc : vCaptures i ≤ 4) (hp : ServedPlainly i d.toNat)
    (hP : P (vResult i s.src.vconf ops ((vReads i).map s.th.getV)).1 (vResult i s.src.vconf ops ((vReads i).map s.th.getV)).2) :
    VecRuns s d (vec i ops s) P := by
  obtain ⟨hform, hsame, hready, hstreams, ⟨hq, hv⟩, haround⟩ := h
  obtain ⟨hth, hrest, htcm, htiles, hseq⟩ := s.enqueue_plain i ops d.toNat hform hready hstreams hq hv haround hr hw hd hp
  have hnext := vec_next s i ops d.toNat hsame hstreams hq hv legal hr hw hd hc
  generalize vResult i s.src.vconf ops ((vReads i).map s.th.getV) = o at hP hth
  refine ⟨o.1, o.2, hP, _, hnext, ?_⟩
  rw [State.advance_eq_stepsPast]
  generalize s.enqueue i ops = u at hth hrest htcm htiles hseq
  have hframe : u.th = { s.th with v := u.th.v, vconf := u.th.vconf, compared := s.th.compared + 1 } := by
    rw [hth, Thread.setV_frame]
  have hpc : pcAfter u = pcAfter s := pcAfter_congr (by rw [hrest]) (by rw [hrest]) (by rw [hframe])
  exact {
    value := by
      show u.th.getV _ = _
      rw [hth]
      exact Thread.getV_setV_same s.th hd o.1
    others := fun n hn => by
      show u.th.getV n = _
      rw [hth]
      exact Thread.getV_setV_other s.th o.1 hn
    flags := by
      show u.th.vconf = _
      rw [hth]
      rfl
    thread := by
      show ({ u.th with pc := pcAfter u } : Thread) = _
      rw [hpc, hframe]
      rfl
    memories := ⟨htcm, htiles, by show u.pads = _; rw [hrest], by show u.dram = _; rw [hrest]⟩
    machine := ⟨hseq, by show u.agenda = _; rw [hrest], by show u.front = _; rw [hrest], by show u.homes = _; rw [hrest], rfl⟩ }

/-! ### Floating-point words (R254, R255) -/

/-- The format of a floating-point type, its lanes, and its stored bits (R91, R109). -/
theorem floatType_format {s : State} {f : Fmt} (h : floatType s f) :
    isFloat (vtype s.src.vconf) = true ∧ f = vFmt (vtype s.src.vconf) ∧ f.width = width s := by
  have hw : width s = laneBits (vtype s.src.vconf) := rfl
  rw [hw]
  unfold vtype
  obtain ⟨ht, rfl⟩ | ⟨ht, rfl⟩ | ⟨ht, rfl⟩ := h <;> rw [ht] <;> exact ⟨rfl, rfl, rfl⟩

/-- A floating-point word whose result is gathered from the lanes. -/
theorem floatWord_runs {s : State} (h : VecReady s) {i : Instr} {d : BitVec 5} (hp : ServedPlainly i d.toNat) (hd : d.toNat < 28)
    (hfloat : isFloat (vtype s.src.vconf) = true) (hlegal : vLegal i s.src.vconf = isFloat (vtype s.src.vconf))
    (hr : ∀ n ∈ vReads i, n < 28) (hw : vWrite i = some d.toNat) (hc : vCaptures i = 0) {g : Nat → Flagged}
    (hres : vResult i s.src.vconf [] ((vReads i).map s.th.getV) = gather (width s) ((List.range (128 / width s)).map g)) :
    VecRuns s d (vec i [] s) fun res fl => Floats s res fl g :=
  vecRuns_plain h (hlegal.trans hfloat) hr hw hd (by rw [hc]; decide) hp (hres ▸ floats_gather s g)

/-- Turning the top bit over adds its weight. -/
theorem xor_topBit {w x : Nat} (hw : 0 < w) (hx : x < 2 ^ w) : x ^^^ 2 ^ (w - 1) = (x + 2 ^ (w - 1)) % 2 ^ w := by
  obtain ⟨n, rfl⟩ : ∃ n, w = n + 1 := ⟨w - 1, by omega⟩
  rw [Nat.add_sub_cancel, Nat.add_comm x]
  refine Nat.eq_of_testBit_eq fun i => ?_
  rw [Nat.testBit_xor, Nat.testBit_mod_two_pow, Nat.testBit_two_pow]
  obtain hi | rfl | hi := Nat.lt_trichotomy i n
  · simp [Nat.testBit_two_pow_add_gt hi, Nat.lt_succ_of_lt hi, hi.ne']
  · simp [Nat.testBit_two_pow_add_eq]
  · have hz : x.testBit i = false := Nat.testBit_lt_two_pow (hx.trans_le (Nat.pow_le_pow_right (by decide) hi))
    simp [hz, hi.ne, Nat.not_lt.2 hi]

end Sys2Proof.Machine

namespace Sys2Proof.Proofs

open Sys2Proof.Machine Sys2Proof.Claims

/-- Settles O24: each word gathers its lanes' results (`floatWord_runs`); VFNEG turns over the sign bit, which adds its weight. -/
theorem floatLanes : Obligations.FloatLanes := by
  intro s d a b f h hd ha hb hf w r x y z runs
  obtain ⟨hfloat, rfl, hwidth⟩ := floatType_format hf
  have reads1 : ∀ n ∈ [a.toNat], n < 28 := by simpa using ha
  have reads2 : ∀ n ∈ [a.toNat, b.toNat], n < 28 := by simpa using ⟨ha, hb⟩
  have reads3 : ∀ n ∈ [a.toNat, b.toNat, d.toNat], n < 28 := by simpa using ⟨ha, hb, hd⟩
  have habs : ∀ k, x k % 2 ^ ((vFmt (vtype s.src.vconf)).width - 1) = x k % 2 ^ (w - 1) := fun k => by rw [hwidth]
  have hneg : ∀ k, x k ^^^ 2 ^ ((vFmt (vtype s.src.vconf)).width - 1) = (x k + 2 ^ (w - 1)) % 2 ^ w := by
    intro k
    have hpos : 0 < width s := by rw [← hwidth, Fmt.width]; omega
    rw [hwidth]
    exact xor_topBit hpos (Nat.mod_lt _ (Nat.two_pow_pos _))
  refine ⟨?_, ?_, ?_, ?_, ?_, ?_, ?_, ?_, ?_, ?_, ?_, ?_, ?_, ?_⟩
  · exact floatWord_runs h (servedPlainly_vfadd d a b) hd hfloat rfl reads2 rfl rfl rfl
  · exact floatWord_runs h (servedPlainly_vfsub d a b) hd hfloat rfl reads2 rfl rfl rfl
  · exact floatWord_runs h (servedPlainly_vfmul d a b) hd hfloat rfl reads2 rfl rfl rfl
  · exact floatWord_runs h (servedPlainly_vfma d a b) hd hfloat rfl reads3 rfl rfl rfl
  · exact floatWord_runs h (servedPlainly_vfmin d a b) hd hfloat rfl reads2 rfl rfl rfl
  · exact floatWord_runs h (servedPlainly_vfmax d a b) hd hfloat rfl reads2 rfl rfl rfl
  · exact floatWord_runs h (servedPlainly_vfabs d a) hd hfloat rfl reads1 rfl rfl (by simp only [← habs]; rfl)
  · exact floatWord_runs h (servedPlainly_vfneg d a) hd hfloat rfl reads1 rfl rfl (by simp only [← hneg]; rfl)
  · exact floatWord_runs h (servedPlainly_vrcp d a) hd hfloat rfl reads1 rfl rfl rfl
  · exact floatWord_runs h (servedPlainly_vrsq d a) hd hfloat rfl reads1 rfl rfl rfl
  · exact floatWord_runs h (servedPlainly_vsqrt d a) hd hfloat rfl reads1 rfl rfl rfl
  · exact floatWord_runs h (servedPlainly_vexp2 d a) hd hfloat rfl reads1 rfl rfl rfl
  · exact floatWord_runs h (servedPlainly_vlog2 d a) hd hfloat rfl reads1 rfl rfl rfl
  · exact floatWord_runs h (servedPlainly_vdiv d a b) hd hfloat rfl reads2 rfl rfl rfl

end Sys2Proof.Proofs
end

section
/-! SUPPORT. A queued vector word that changes its own core alone: what the drain of an idle sequencer leaves of it (R242-R244). -/

namespace Sys2Proof.Machine

open Sys2Proof.Claims

/-! ### Changes of one core -/

/-- `t` is `s` with core `c` changed to `k`. -/
structure ChangesCore (s t : State) (c : Nat) (k : Core) : Prop where
  core : t.core c = k
  others : ∀ d, d ≠ c → t.core d = s.core d
  frame : t = { s with cores := t.cores }

theorem ChangesCore.refl (s : State) (c : Nat) : ChangesCore s s c (s.core c) := ⟨rfl, fun _ _ => rfl, rfl⟩

theorem ChangesCore.modCore {s t : State} {c : Nat} {k : Core} (h : ChangesCore s t c k) (f : Core → Core) :
    ChangesCore s (t.modCore c f) c (f k) := by
  obtain ⟨hcore, hothers, hframe⟩ := h
  refine ⟨by rw [State.core_modCore_same, hcore], fun d hd => by rw [State.core_modCore_other _ _ hd, hothers d hd], ?_⟩
  rw [State.modCore, State.setCore]
  generalize mset t.cores c (f (t.core c)) = cs
  rw [hframe]

theorem ChangesCore.raise {s t : State} {c : Nat} {k : Core} (h : ChangesCore s t c k) (b : Nat) (fl : Flags) :
    ChangesCore s (t.raise c b fl) c (k.modBank b fun t => { t with vconf := orFlags t.vconf fl }) := h.modCore _

/-- A write to v[n] that no stream takes. -/
theorem ChangesCore.putV {s t : State} {c b n : Nat} {k : Core} {u : Thread} (h : ChangesCore s t c k) (hb : mget k.banks b = some u)
    (hs : u.streams = []) (hn : n < 28) (v : Vec) : ChangesCore s (t.putV c b n v) c (k.modBank b fun t => t.setV n v) := by
  have hput : t.putV c b n v = t.modCore c fun k => k.modBank b fun t => t.setV n v := by
    unfold State.putV
    simp only [h.core, hb, Option.getD_some, Nat.not_le.2 hn, if_false, Thread.stream?, hs, mget_nil]
    rw [State.modCore, h.core]
  rw [hput]
  exact h.modCore _

/-! ### A word on a sequencer that held nothing -/

/-- The queue's entry of a word that issues now. -/
def State.queuedEntry (s : State) (i : Instr) (ops : List Word) : SeqEntry :=
  { s.seqEntry i ops with num := s.th.compared, after := s.nextId }

/-- The module when the word is the only one in its core's queue. -/
def State.queued (s : State) (i : Instr) (ops : List Word) : State :=
  ({ s with
    nextId := s.nextId + 1, th := { s.th with compared := s.th.compared + 1 }
    co := { s.co with seq := [s.queuedEntry i ops] } } : State).store

/-- A core whose queue holds one word, of the thread in bank `b`. -/
def Core.holding (k : Core) (b : Nat) (t : Thread) (e : SeqEntry) : Core := { k with seq := [e], banks := mset k.banks b t }

theorem State.core_queued (s : State) (i : Instr) (ops : List Word) : (s.queued i ops).core s.cid =
    s.co.holding s.bank { s.th with compared := s.th.compared + 1 } (s.queuedEntry i ops) := State.core_store _

theorem State.core_queued_other (s : State) (i : Instr) (ops : List Word) {c : Nat} (hc : c ≠ s.cid) :
    (s.queued i ops).core c = s.core c := State.core_setCore_other _ _ hc

theorem State.enqueue_idle {s : State} (hf : s.form ≠ .par0) (hq : s.co.seq = []) (hv : s.co.vloop = none) (i : Instr) (ops : List Word) :
    s.enqueue i ops = ((s.queued i ops).drain s.cid).reload := by
  have hin : s.co.inBody s.bank = false := by simp [Core.inBody, hv]
  have hf' : (s.form == Form.par0) = false := by simpa using hf
  unfold State.enqueue
  simp only [State.fresh, hin, Bool.false_and, Bool.false_eq_true, if_false, hf', hq, List.nil_append]
  rfl

/-- What the end of a drain leaves of a thread that is Ready. -/
theorem unlinked_ready {t : Thread} (h : t.st = .ready) : unlinked t = t := by
  unfold unlinked
  rw [h]

/-- A word that is served at once and changes its own core alone: its thread and core as they then stand, and an empty queue. -/
theorem State.enqueue_served {s t : State} {i : Instr} {ops : List Word} {k : Core} {u : Thread} (hf : s.form ≠ .par0)
    (hq : s.co.seq = []) (hv : s.co.vloop = none)
    (ha : ∀ p, p < 4 → (s.core (neighbour s.cid p)).seq = [] ∧ (s.core (neighbour s.cid p)).vloop = none)
    (hserve : (s.queued i ops).serve s.cid (s.queuedEntry i ops) = .done t) (hc : ChangesCore (s.queued i ops) t s.cid k)
    (hseq : k.seq = [s.queuedEntry i ops]) (hvl : k.vloop = none) (hb : mget k.banks s.bank = some u) (hu : u.st = .ready) :
    s.enqueue i ops = { s with
      nextId := s.nextId + 1, th := u, co := ({ k with seq := [] } : Core).unlinked, cores := (s.enqueue i ops).cores } := by
  have hcore := s.core_queued i ops
  have hothers : ∀ c, c ≠ s.cid → t.core c = s.core c := fun c hne => (hc.others c hne).trans (s.core_queued_other i ops hne)
  have hlate : (s.queuedEntry i ops).late = false := by
    show (s.seqEntry i ops).late = false
    simp [State.seqEntry, hv]
  have hdrain := State.drain_one (s.queued i ops) t s.cid (s.queuedEntry i ops) (by rw [hcore]; rfl) (by rw [hcore]; exact hv) hlate hserve
    (by rw [hc.core, hseq]) (by rw [hc.core, hvl]) fun hcomp p hp => by
      have hne := neighbour_ne s.cid p hcomp
      rw [hothers _ hne]
      exact ⟨hne, ha p hp⟩
  have hlast := hc.modCore fun k => { k with seq := [] }
  generalize t.modCore s.cid (fun k => { k with seq := [] }) = v at hdrain hlast
  generalize hL : (s.cid :: if isCompute s.cid then (List.range 4).map (neighbour s.cid) else []) = L at hdrain
  have hmem : s.cid ∈ L := by rw [← hL]; simp
  have hidle : ∀ c ∈ L, (v.core c).seq = [] ∧ (v.core c).vloop = none := by
    intro c hcL
    by_cases hne : c = s.cid
    · subst hne; rw [hlast.core]; exact ⟨rfl, hvl⟩
    · rw [hlast.others c hne, s.core_queued_other i ops hne]
      rw [← hL, List.mem_cons] at hcL
      obtain h | h := hcL
      · exact absurd h hne
      · split at h
        · obtain ⟨p, hp, rfl⟩ := List.mem_map.1 h
          exact ha p (by simpa using hp)
        · cases h
  obtain ⟨hall, hrest⟩ := State.linkBlocked_all L v hidle
  rw [← hdrain] at hall hrest
  have hfin : ((s.queued i ops).drain s.cid).core s.cid = ({ k with seq := [] } : Core).unlinked := by
    rw [hall, if_pos hmem, hlast.core]
  have hframe : (s.queued i ops).drain s.cid = { s.queued i ops with cores := ((s.queued i ops).drain s.cid).cores } := by
    generalize (s.queued i ops).drain s.cid = w at hrest
    rw [hrest, hlast.frame]
  have hbank : mget ({ k with seq := [] } : Core).unlinked.banks s.bank = some u := by
    show mget (k.banks.map fun b => (b.1, unlinked b.2)) s.bank = some u
    rw [mget_map, hb, Option.map_some, unlinked_ready hu]
  have hcid : ((s.queued i ops).drain s.cid).cid = s.cid := by rw [hframe]; rfl
  have hbk : ((s.queued i ops).drain s.cid).bank = s.bank := by rw [hframe]; rfl
  rw [State.enqueue_idle hf hq hv, State.reload_eq _ ((congrArg _ hcid).trans hfin) ((congrArg _ hbk).trans hbank)]
  generalize (s.queued i ops).drain s.cid = w at hframe
  rw [hframe]
  rfl

end Sys2Proof.Machine
end


section
/-! SUPPORT. Recurrences (R119, R264): the fold over the lanes, the fields of a stream state record in a memory, and what a VREC or VEMA
writes back. -/

namespace Sys2Proof.Machine

open Sys2Proof.Claims

/-! ### The fold (R119) -/

/-- The state before element `k`: y at first, then the result of each step, which takes ρ in the state's place where `reset` says so. -/
def carriedState (step : Nat → Nat → Flagged) (reset : Nat → Bool) (rho y : Nat) : Nat → Nat
  | 0 => y
  | k + 1 => (step k (if reset k then rho else carriedState step reset rho y k)).bits

theorem exists_carried (step : Nat → Nat → Flagged) (reset : Nat → Bool) (rho y0 : Nat) :
    ∃ y : Nat → Nat, y 0 = y0 ∧ ∀ k, y (k + 1) = (step k (if reset k then rho else y k)).bits :=
  ⟨carriedState step reset rho y0, rfl, fun _ => rfl⟩

/-- The model's fold over a run of elements gives the results that follow the state, the last of them, and every flag. -/
theorem recurrence_range' {f : Fmt} {r : Rnd} {ema : Bool} {rho : Nat} {reset : Nat → Bool} {a x y : Nat → Nat}
    {step : Nat → Nat → Flagged} (hstep : ∀ k v, step k v = recStep f r ema (a k) v (x k))
    (hy : ∀ k, y (k + 1) = (step k (if reset k then rho else y k)).bits) (n j : Nat) :
    let o := recurrence f r ema rho ((List.range' j n).map fun k => (reset k, a k, x k)) (y j)
    o.1 = (List.range' j n).map (fun k => y (k + 1)) ∧ o.2.1 = y (j + n) ∧
    ∀ i, o.2.2.getLsbD i = true ↔ ∃ k ∈ List.range' j n, (step k (if reset k then rho else y k)).fl.getLsbD i = true := by
  induction n generalizing j with
  | zero => exact ⟨rfl, rfl, fun i => by simp [recurrence]⟩
  | succ n ih =>
    obtain ⟨hl, hlast, hfl⟩ := ih (j + 1)
    simp only [List.range'_succ, List.map_cons, recurrence, ← hstep, ← hy j]
    refine ⟨by rw [hl], by rw [hlast]; congr 1; omega, fun i => ?_⟩
    rw [BitVec.getLsbD_or, Bool.or_eq_true, hfl i, List.exists_mem_cons_iff]

/-! ### Fields of a record (R263) -/

theorem bits_zero (v n : Nat) : bits v 0 n = v % 2 ^ n := by rw [bits, pow_zero, Nat.div_one]

theorem leAt_lt (m : Mem) (p n : Nat) : leAt m p n < 2 ^ (8 * n) := by
  induction n generalizing p with
  | zero => simp [leAt]
  | succ n ih =>
    have hb := (rd8 m p).isLt
    have ht := ih (p + 1)
    rw [leAt_succ, show 2 ^ (8 * (n + 1)) = 256 * 2 ^ (8 * n) by rw [Nat.mul_succ, Nat.pow_add, Nat.mul_comm]]
    omega

theorem leAt_add (m : Mem) (p i k : Nat) : leAt m p (i + k) = leAt m p i + 2 ^ (8 * i) * leAt m (p + i) k := by
  induction i generalizing p with
  | zero => simp [leAt]
  | succ i ih =>
    rw [Nat.add_right_comm, leAt_succ, ih, leAt_succ, show 2 ^ (8 * (i + 1)) = 256 * 2 ^ (8 * i) by rw [Nat.mul_succ, Nat.pow_add, Nat.mul_comm],
      Nat.add_right_comm p, Nat.add_assoc p]
    ring

/-- A field of whole bytes of a number in memory is the number those bytes hold. -/
theorem bits_leAt (m : Mem) (p : Nat) {i k n : Nat} (h : i + k ≤ n) : bits (leAt m p n) (8 * i) (8 * k) = leAt m (p + i) k := by
  obtain ⟨j, rfl⟩ := Nat.exists_eq_add_of_le h
  rw [Nat.add_assoc, leAt_add m p i, leAt_add m (p + i) k, bits, Nat.add_mul_div_left _ _ (Nat.two_pow_pos _),
    Nat.div_eq_of_lt (leAt_lt m p i), Nat.zero_add, Nat.add_mul_mod_self_left, Nat.mod_eq_of_lt (leAt_lt m (p + i) k)]

/-- The low bits of a field of eight bytes. -/
theorem bits_leAt_low (m : Mem) (p : Nat) {i n w : Nat} (h : i + 8 ≤ n) (hw : w ≤ 64) :
    bits (leAt m p n) (8 * i) w = leAt m (p + i) 8 % 2 ^ w := by
  rw [← bits_leAt m p h, bits, bits, Nat.mod_mod_of_dvd _ (Nat.pow_dvd_pow 2 hw)]

theorem leAt_one (m : Mem) (p : Nat) : leAt m p 1 = (rd8 m p).toNat := by simp [leAt]

/-! ### What is written back (R264) -/

/-- The byte of flags with those raised: its upper two bits are kept. -/
theorem putBits_flags (b : Byte) (fl : Flags) :
    BitVec.ofNat 8 (putBits b.toNat 0 6 (bits b.toNat 0 6 ||| fl.toNat)) = b ||| fl.setWidth 8 := by
  have hx : bits b.toNat 0 6 ||| fl.toNat < 2 ^ 6 := Nat.or_lt_two_pow (Nat.mod_lt _ (by decide)) fl.isLt
  have hput : putBits b.toNat 0 6 (bits b.toNat 0 6 ||| fl.toNat) = 2 ^ 6 * (b.toNat / 2 ^ 6) + (bits b.toNat 0 6 ||| fl.toNat) := by
    have hb := bits_zero b.toNat 6
    rw [putBits, Nat.mod_eq_of_lt hx, pow_zero, Nat.mul_one, Nat.mul_one]
    have := Nat.div_add_mod b.toNat (2 ^ 6)
    omega
  refine BitVec.eq_of_getLsbD_eq fun i hi => ?_
  have hlow : (bits b.toNat 0 6 ||| fl.toNat).testBit i = (decide (i < 6) && b.getLsbD i || fl.getLsbD i) := by
    rw [Nat.testBit_or, bits_zero, Nat.testBit_mod_two_pow]
    rfl
  rw [hput, BitVec.getLsbD_ofNat, Nat.testBit_two_pow_mul_add _ hx, BitVec.getLsbD_or, BitVec.getLsbD_setWidth]
  by_cases h6 : i < 6
  · rw [if_pos h6, hlow, decide_eq_true h6, Bool.true_and]
    simp [hi]
  · have hhigh : (b.toNat / 2 ^ 6).testBit (i - 6) = b.getLsbD i := by
      rw [Nat.testBit_div_two_pow, Nat.sub_add_cancel (Nat.le_of_not_lt h6)]
      rfl
    rw [if_neg h6, hhigh, BitVec.getLsbD_of_ge fl i (Nat.le_of_not_lt h6)]
    simp [hi]

/-- The memory with a record's state, count and flags written back: the last y, the elements that have passed, and what they raised. -/
def recordWritten (m : Mem) (off y cnt : Nat) (fl : Flags) : Mem :=
  let r := ofBytes (rdBytes m off 64)
  wrBytes (wrBytes (wrBytes m off (toBytes 8 y)) (off + 0x25)
    (toBytes 1 (putBits (bits r (8 * 0x25) 8) 0 6 (bits r (8 * 0x25) 6 ||| fl.toNat)))) (off + 0x28) (toBytes 8 (bits r (8 * 0x28) 64 + cnt))

section
variable (m : Mem) (off y cnt : Nat) (fl : Flags)

theorem state_recordWritten : leAt (recordWritten m off y cnt fl) off 8 = y % 2 ^ 64 := by
  rw [← ofBytes_rdBytes, recordWritten, rdBytes_wrBytes_outside _ (by omega), rdBytes_wrBytes_outside _ (by omega), ← rdN,
    rdN_wrBytes_same _ _ (length_toBytes 8 y), ofBytes_toBytes]

theorem count_recordWritten : leAt (recordWritten m off y cnt fl) (off + 0x28) 8 = (leAt m (off + 0x28) 8 + cnt) % 2 ^ 64 := by
  rw [← ofBytes_rdBytes, recordWritten, ← rdN, rdN_wrBytes_same _ _ (length_toBytes 8 _), ofBytes_toBytes, ofBytes_rdBytes,
    bits_leAt m off (i := 0x28) (k := 8) (by decide)]

theorem flags_recordWritten : rd8 (recordWritten m off y cnt fl) (off + 0x25) = rd8 m (off + 0x25) ||| fl.setWidth 8 := by
  have hbyte : bits (leAt m off 64) (8 * 0x25) 8 = (rd8 m (off + 0x25)).toNat :=
    (bits_leAt m off (i := 0x25) (k := 1) (by decide)).trans (leAt_one _ _)
  have hlow : bits (leAt m off 64) (8 * 0x25) 6 = bits (rd8 m (off + 0x25)).toNat 0 6 := by
    rw [← hbyte, bits_zero, bits, bits, Nat.mod_mod_of_dvd _ (by decide)]
  have hin := rd8_wrBytes_inside (wrBytes m off (toBytes 8 y)) (off + 0x25)
    (toBytes 1 (putBits (bits (leAt m off 64) (8 * 0x25) 8) 0 6 (bits (leAt m off 64) (8 * 0x25) 6 ||| fl.toNat))) 0 (by simp)
  rw [recordWritten, ofBytes_rdBytes, rd8_wrBytes_outside _ _ _ _ (by omega)]
  refine hin.trans ?_
  rw [← putBits_flags, hbyte, hlow]
  simp [toBytes]

theorem rd8_recordWritten {q : Nat} (hy : q < off ∨ off + 8 ≤ q) (hf : q ≠ off + 0x25) (hc : q < off + 0x28 ∨ off + 0x30 ≤ q) :
    rd8 (recordWritten m off y cnt fl) q = rd8 m q := by
  rw [recordWritten, rd8_wrBytes_outside _ _ _ _ (by rw [length_toBytes]; omega), rd8_wrBytes_outside _ _ _ _ (by rw [length_toBytes]; omega),
    rd8_wrBytes_outside _ _ _ _ (by rw [length_toBytes]; omega)]

end

end Sys2Proof.Machine
end


section
/-! PROOF. Recurrences (O29): VREC and VEMA in the sequencer, their checks at issue, and what they leave (R119, R263, R264). -/

namespace Sys2Proof.Machine

open Sys2Proof.Claims

/-! ### A store to the TCM of a core that keeps no undo log -/

/-- The core with bytes stored in its TCM; cached headers of theirs are dropped (R374). -/
def Core.stored (k : Core) (a : Nat) (data : List Byte) : Core :=
  { k with tcm := k.tcm.write a data [], headers := k.headers.filter fun h => !(decide (h.1 < a + data.length) && decide (a < h.1 + 64)) }

@[simp] theorem Core.stored_bytes (k : Core) (a : Nat) (data : List Byte) : (k.stored a data).tcm.bytes = wrBytes k.tcm.bytes a data :=
  wrMasked_whole _ _ _

theorem tcmStore_unlogged (c : Nat) {k : Core} (h : k.undo = none) (m : Sram) (a : Nat) (data : List Byte) :
    tcmStore c (k, m) a data [] = (k.stored a data, m) := by
  have hlog : ∀ l : List Nat, l.foldl (fun k g => logGranule c (rdBytes k.1.tcm.bytes (256 * g) 256) g k) (k, m) = (k, m) := by
    intro l
    induction l with
    | nil => rfl
    | cons g l ih => rwa [List.foldl_cons, logGranule, h]
  rw [tcmStore, hlog]
  rfl

theorem State.wrTcm_unlogged {s : State} {c : Nat} (h : (s.core c).undo = none) (a : Nat) (data : List Byte) :
    s.wrTcm c a data [] = s.modCore c fun k => k.stored a data := by
  simp only [State.wrTcm, tcmStore_unlogged c h, h, Option.isSome_none, Bool.false_eq_true, if_false]
  rfl

theorem ChangesCore.wrTcm {s t : State} {c : Nat} {k : Core} (h : ChangesCore s t c k) (hu : k.undo = none) (a : Nat) (data : List Byte) :
    ChangesCore s (t.wrTcm c a data []) c (k.stored a data) := by
  rw [State.wrTcm_unlogged (by rw [h.core, hu])]
  exact h.modCore _

/-! ### VREC and VEMA in the sequencer (R264) -/

/-- The fold of a chunk with `cnt` elements over the record that the memory holds. -/
def chunkFold (m : Mem) (ema : Bool) (vc ctl : Word) (coef d : Vec) (cnt : Nat) : List Nat × Nat × Flags :=
  let w := laneBits (vtype vc)
  let r := ofBytes (rdBytes m (bits ctl.toNat 0 16) 64)
  recurrence (vFmt (vtype vc)) (vRnd vc) ema (bits r 64 w)
    ((List.range cnt).map fun t => (bit ctl.toNat (48 + t), if ema then bits r 128 w else lane coef w t, lane d w t)) (bits r 0 w)

/-- v[d] after a chunk: its outputs, and the lanes above them as they were. -/
def chunkVector (vc : Word) (d : Vec) (cnt : Nat) (outputs : List Nat) : Vec :=
  let w := laneBits (vtype vc)
  vecOf (packBits w (outputs ++ (List.range (laneCount (vtype vc) - cnt)).map fun i => lane d w (cnt + i)))

/-- A core after a chunk of the thread in bank `b`: the record written back, and the thread with v[d] and its flags. -/
def Core.chunkDone (k : Core) (b off cnt d : Nat) (v : Vec) (y : Nat) (fl : Flags) : Core :=
  let r := ofBytes (rdBytes k.tcm.bytes off 64)
  ((((k.stored off (toBytes 8 y)).stored (off + 0x25) (toBytes 1 (putBits (bits r (8 * 0x25) 8) 0 6 (bits r (8 * 0x25) 6 ||| fl.toNat)))).stored
    (off + 0x28) (toBytes 8 (bits r (8 * 0x28) 64 + cnt))).modBank b fun t => { t with vconf := orFlags t.vconf fl }).modBank b
      fun t => t.setV d v

theorem Core.chunkDone_bytes (k : Core) (b off cnt d : Nat) (v : Vec) (y : Nat) (fl : Flags) :
    (k.chunkDone b off cnt d v y fl).tcm.bytes = recordWritten k.tcm.bytes off y cnt fl := by
  simp only [Core.chunkDone, Core.modBank, Core.stored_bytes]
  rfl

theorem Core.chunkDone_bank {k : Core} {b : Nat} {t : Thread} (h : mget k.banks b = some t) (off cnt d : Nat) (v : Vec) (y : Nat)
    (fl : Flags) : mget (k.chunkDone b off cnt d v y fl).banks b = some (({ t with vconf := orFlags t.vconf fl } : Thread).setV d v) :=
  Core.modBank_bank _ (Core.modBank_bank _ h)

/-- A word that the sequencer serves as a recurrence, with the coefficients that `coef` finds in the vector registers. -/
def ServedAsRecurrence (i : Instr) (ema : Bool) (d : Nat) (coef : (Nat → Vec) → Vec) : Prop :=
  ∀ (s : State) (c : Nat) (e : SeqEntry) (t : Thread), e.word = i → e.old = none → (e.ops.headD 0).toNat % 2 ^ 16 < 0xC000 →
    mget (s.core c).banks e.bank = some t → t.streams = [] → (s.core c).undo = none →
    s.serve c e = .done ((s.runRec c e.bank ema e.vconf (e.ops.headD 0) (coef t.getV) (t.getV d)).2.2.putV c e.bank d
      (s.runRec c e.bank ema e.vconf (e.ops.headD 0) (coef t.getV) (t.getV d)).1)

theorem winFor_ownTcm (c : Nat) {p : Nat} (hp : p < 0xC000) : winFor c (0xFF00 * 2 ^ 48 + p) = some (.ownTcm p) := by
  rw [winFor, window_ownTcm hp]

theorem servedAsRecurrence_vrec {d a : BitVec 5} (hd : d.toNat < 28) (ha : a.toNat < 28) (b : BitVec 5) :
    ServedAsRecurrence (.vrec d a b) false d.toNat fun v => v a.toNat := by
  intro s c e t hword hold hoff hb hs hu
  have hreads : ∀ n ∈ [a.toNat, d.toNat], n < 28 := by simpa using ⟨ha, hd⟩
  have hlink : s.linkWait c (s.core c) (.vrec d a b) = none := State.linkWait_plain s c _ (.vrec d a b) d.toNat hreads rfl hd
  have hpop := State.popAll_plain s c e.bank t [a.toNat, d.toNat] hb hs hreads
  obtain ⟨ea, hplaces, p, hwin⟩ : ∃ ea, e.places.1 = [ea] ∧ ∃ p, winFor c ea = some (.ownTcm p) :=
    ⟨_, by rw [SeqEntry.places, hword], _, winFor_ownTcm c hoff⟩
  simp [State.serve, hb, hword, hold, hlink, stripsReady_unbound t _ hs, SeqEntry.isMem, hplaces, hwin, hu, vReads, hpop, rd]

theorem servedAsRecurrence_vema {d : BitVec 5} (hd : d.toNat < 28) (b : BitVec 5) :
    ServedAsRecurrence (.vema d b) true d.toNat fun _ => 0 := by
  intro s c e t hword hold hoff hb hs hu
  have hreads : ∀ n ∈ [d.toNat], n < 28 := by simpa using hd
  have hlink : s.linkWait c (s.core c) (.vema d b) = none := State.linkWait_plain s c _ (.vema d b) d.toNat hreads rfl hd
  have hpop := State.popAll_plain s c e.bank t [d.toNat] hb hs hreads
  obtain ⟨ea, hplaces, p, hwin⟩ : ∃ ea, e.places.1 = [ea] ∧ ∃ p, winFor c ea = some (.ownTcm p) :=
    ⟨_, by rw [SeqEntry.places, hword], _, winFor_ownTcm c hoff⟩
  simp [State.serve, hb, hword, hold, hlink, stripsReady_unbound t _ hs, SeqEntry.isMem, hplaces, hwin, hu, vReads, hpop, rd]

/-- A recurrence in the sequencer gives v[d] its outputs and changes its own core alone. -/
theorem State.runRec_changes {s : State} {c b : Nat} {t : Thread} (hb : mget (s.core c).banks b = some t) (hs : t.streams = [])
    (hu : (s.core c).undo = none) {d : Nat} (hd : d < 28) (ema : Bool) (vc ctl : Word) (coef old : Vec) :
    let cnt := recCount ctl (laneCount (vtype vc))
    let o := chunkFold (s.core c).tcm.bytes ema vc ctl coef old cnt
    ChangesCore s ((s.runRec c b ema vc ctl coef old).2.2.putV c b d (s.runRec c b ema vc ctl coef old).1) c
      ((s.core c).chunkDone b (bits ctl.toNat 0 16) cnt d (chunkVector vc old cnt o.1) o.2.1 o.2.2) := by
  intro cnt o
  exact (((((ChangesCore.refl s c).wrTcm hu _ _).wrTcm hu _ _).wrTcm hu _ _).raise b _).putV (Core.modBank_bank _ hb) hs hd _

/-! ### The checks at issue (R242, R264) -/

/-- A vector word that reads and writes plain registers passes the checks that every vector word makes. -/
theorem vecChecked_plain {s : State} (h : VecReady s) {i : Instr} {d : Nat} (legal : vLegal i s.src.vconf = true)
    (hr : ∀ n ∈ vReads i, n < 28) (hw : vWrite i = some d) (hd : d < 28) (k : State → Res) : s.vecChecked i k = k s := by
  have hnone : (vReads i ++ (vWrite i).toList).filter (28 ≤ ·) = [] := by
    rw [List.filter_eq_nil_iff]
    intro n hn
    simp only [hw, Option.toList_some, List.mem_append, List.mem_singleton] at hn
    have hlt : n < 28 := hn.elim (hr n) fun hn => hn ▸ hd
    simpa using hlt
  have hlink : s.linkFault? i = none := by simp [State.linkFault?, hnone]
  have hstream : s.streamBad i (s.reps i) = .none := by simp [State.streamBad, Thread.stream?, h.same, h.streams]
  simp only [State.vecChecked, legal, Bool.not_true, Bool.false_eq_true, if_false, hlink, hstream, ite_self]

theorem ownerId_eq (t : Thread) : t.ownerId = t.prog % 2 ^ 16 * 2 ^ 32 + t.serial % 2 ^ 32 := by
  rw [Thread.ownerId, Thread.id, BitVec.toNat_ofNat]
  omega

/-- A VREC or VEMA with plain registers, under a floating-point type. -/
structure RecurrenceWord (s : State) (i : Instr) (ema : Bool) (d : BitVec 5) (coef : (Nat → Vec) → Vec) : Prop where
  legal : vLegal i s.src.vconf = true
  reads : ∀ n ∈ vReads i, n < 28
  writes : vWrite i = some d.toNat
  plain : d.toNat < 28
  captures : vCaptures i = 1
  served : ServedAsRecurrence i ema d.toNat coef

theorem recurrenceWord_vrec {s : State} (hfloat : isFloat (vtype s.src.vconf) = true) {d a : BitVec 5} (hd : d.toNat < 28)
    (ha : a.toNat < 28) (b : BitVec 5) : RecurrenceWord s (.vrec d a b) false d fun v => v a.toNat :=
  ⟨hfloat, show ∀ n ∈ [a.toNat, d.toNat], n < 28 by simpa using ⟨ha, hd⟩, rfl, hd, rfl, servedAsRecurrence_vrec hd ha b⟩

theorem recurrenceWord_vema {s : State} (hfloat : isFloat (vtype s.src.vconf) = true) {d : BitVec 5} (hd : d.toNat < 28)
    (b : BitVec 5) : RecurrenceWord s (.vema d b) true d fun _ => 0 :=
  ⟨hfloat, show ∀ n ∈ [d.toNat], n < 28 by simpa using hd, rfl, hd, rfl, servedAsRecurrence_vema hd b⟩

section
variable {s : State} (h : VecReady s) {i : Instr} {b d : BitVec 5} {ema : Bool} {coef : (Nat → Vec) → Vec}
  (hi : RecurrenceWord s i ema d coef)
include h hi

/-- A count beyond the lanes traps STREAM_FAULT with the control word. -/
theorem recWord_traps (hn : 128 / width s < recCount (src s b) (128 / width s)) :
    Traps s 0x13 (src s b) (trapAddress s) (recWord i b s) := by
  have hctl : s.x b = src s b := rfl
  have hlanes : laneCount (vtype s.src.vconf) = 128 / width s := rfl
  rw [recWord, vecChecked_plain h hi.legal hi.reads hi.writes hi.plain]
  simp only [hctl, hlanes]
  rw [if_pos (.inr (.inr hn))]
  exact traps_trapR s _ _

variable {off : Nat} (hoff : (src s b).toNat % 2 ^ 16 = off) (hrec : RecordReady s off)
  (hn : recCount (src s b) (128 / width s) ≤ 128 / width s)
include hoff hrec hn

/-- A word whose record is ready is queued. -/
theorem recWord_queues : recWord i b s = .next (s.enqueue i [src s b, 0]).advance := by
  obtain ⟨⟨haligned, hinside⟩, ⟨hvalid, hlocked⟩, howner, htype⟩ := hrec
  obtain ⟨hq, hv⟩ := h.idle
  have hctl : s.x b = src s b := rfl
  have hlow : bits (src s b).toNat 0 16 = off := by rw [bits_zero, hoff]
  have hplace : ¬ (off % 64 ≠ 0 ∨ 0xC000 < off + 64 ∨ 128 / width s < recCount (src s b) (128 / width s)) := by
    omega
  have hoverlap : s.overlapsOther off 64 = false := by simp [State.overlapsOther, hq]
  have hrecord : ofBytes (s.rdOwn off 64) = leAt s.co.tcm.bytes off 64 := ofBytes_rdBytes _ _ _
  have howns : bits (leAt s.co.tcm.bytes off 64) (8 * 0x18) 48 = s.src.ownerId := by
    rw [ownerId_eq, h.same, ← howner]
    exact bits_leAt _ _ (i := 0x18) (k := 6) (by decide)
  have hroom : s.seqRoom i = true := by simp [State.seqRoom, Core.seqUsed, Core.captured, Core.seqEntries, hq, hv, hi.captures]
  have hkind : bits (leAt s.co.tcm.bytes off 64) (8 * 0x24 + 2) 3 = vtype s.src.vconf := htype
  have hlanes : laneCount (vtype s.src.vconf) = 128 / width s := rfl
  rw [recWord, vecChecked_plain h hi.legal hi.reads hi.writes hi.plain]
  simp only [hctl, hlow, hlanes]
  rw [if_neg hplace]
  simp only [hoverlap, hrecord, recValid, recLocked, hvalid, hlocked, howns, hkind, hroom, Bool.not_true, ne_eq, not_true_eq_false,
    decide_false, Bool.or_self, Bool.false_eq_true, if_false, if_true, finish_ok]

end

/-- `t` is `s` after a chunk: v[d], the flags and the record have the values given, and memory beside the record is as it was. -/
structure ChunkRan (s : State) (d off cnt : Nat) (v : Vec) (y : Nat) (fl : Flags) (t : State) : Prop where
  thread : t.th = { s.th with
    v := (s.th.setV d v).v, vconf := orFlags s.th.vconf fl, compared := s.th.compared + 1, pc := pcAfter s }
  bytes : t.co.tcm.bytes = recordWritten s.co.tcm.bytes off y cnt fl
  memories : t.dram = s.dram ∧ t.pads = s.pads

/-- The word that is queued on an idle sequencer runs its chunk at once. -/
theorem chunkRan_enqueue {s : State} (h : VecReady s) {i : Instr} {d : Nat} {ema : Bool} {coef : (Nat → Vec) → Vec} {ctl : Word}
    {off cnt : Nat} (hp : ServedAsRecurrence i ema d coef) (hd : d < 28) (hoff : ctl.toNat % 2 ^ 16 = off) (hinside : off < 0xC000)
    (hu : s.co.undo = none) (hcnt : recCount ctl (128 / width s) = cnt) :
    let o := chunkFold s.co.tcm.bytes ema s.src.vconf ctl (coef s.th.getV) (s.th.getV d) cnt
    ChunkRan s d off cnt (chunkVector s.src.vconf (s.th.getV d) cnt o.1) o.2.1 o.2.2 (s.enqueue i [ctl, 0]).advance := by
  intro o
  obtain ⟨hform, -, hready, hstreams, ⟨hq, hv⟩, haround⟩ := h
  let th : Thread := { s.th with compared := s.th.compared + 1 }
  let k : Core := s.co.holding s.bank th (s.queuedEntry i [ctl, 0])
  let v : Vec := chunkVector s.src.vconf (s.th.getV d) cnt o.1
  have hcore : (s.queued i [ctl, 0]).core s.cid = k := s.core_queued i [ctl, 0]
  have hbank : mget k.banks s.bank = some th := mget_mset_same _ _ _
  have hbank' : mget ((s.queued i [ctl, 0]).core s.cid).banks s.bank = some th := hcore ▸ hbank
  have hundo : ((s.queued i [ctl, 0]).core s.cid).undo = none := hcore ▸ hu
  have hlow : bits ctl.toNat 0 16 = off := by rw [bits_zero, hoff]
  have hlanes : laneCount (vtype s.src.vconf) = 128 / width s := rfl
  have hserve := hp (s.queued i [ctl, 0]) s.cid (s.queuedEntry i [ctl, 0]) th rfl rfl (show ctl.toNat % 2 ^ 16 < _ by omega) hbank'
    hstreams hundo
  have hchanges := State.runRec_changes hbank' (t := th) hstreams hundo hd ema s.src.vconf ctl (coef s.th.getV) (s.th.getV d)
  rw [hcore, hlow, hlanes, hcnt] at hchanges
  have hlast := Core.chunkDone_bank hbank off cnt d v o.2.1 o.2.2
  have hbytes := Core.chunkDone_bytes k s.bank off cnt d v o.2.1 o.2.2
  have hqueue := State.enqueue_served hform hq hv haround hserve hchanges rfl hv hlast (by rw [Thread.setV_frame]; exact hready)
  rw [State.advance_eq_stepsPast]
  generalize s.enqueue i [ctl, 0] = u at hqueue
  have hth : u.th = { th with v := (s.th.setV d v).v, vconf := orFlags th.vconf o.2.2 } := by
    rw [hqueue, Thread.setV_frame]
    simp only [Thread.setV, dif_pos hd]
    rfl
  have htcm : u.co.tcm.bytes = recordWritten s.co.tcm.bytes off o.2.1 cnt o.2.2 := by
    rw [hqueue]
    exact hbytes
  have hpc : pcAfter u = pcAfter s := pcAfter_congr (by rw [hqueue]) (by rw [hqueue]) (by rw [hth])
  refine ⟨?_, htcm, by rw [hqueue]; rfl, by rw [hqueue]; rfl⟩
  show ({ u.th with pc := pcAfter u } : Thread) = _
  rw [hpc, hth]

end Sys2Proof.Machine
end

section
/-! PROOF. Recurrences (O29): the fold of a chunk in the statement's words, and the settled obligation (R119, R264). -/

namespace Sys2Proof.Machine

open Sys2Proof.Claims

/-! ### The chunk's fold, lanes and flags -/

/-- What element `k` works on in the state's place: ρ where the mask of the control word has its bit, else the state carried to it. -/
def stateAt (s : State) (off : Nat) (ctl : Word) (y : Nat → Nat) (k : Nat) : Nat :=
  if bit ctl.toNat (48 + k) = true then leAt s.co.tcm.bytes (off + 8) 8 % 2 ^ width s else y k

/-- One element of a chunk: VEMA takes the record's α as its coefficient, VREC the lane of `coef`. -/
def laneStep (s : State) (f : Fmt) (ema : Bool) (off : Nat) (coef old : Vec) (k v : Nat) : Flagged :=
  recStep f (rndOf (s.src.vconf.toNat / 8 % 4)) ema
    (if ema then leAt s.co.tcm.bytes (off + 16) 8 % 2 ^ width s else laneOf coef (width s) k) v (laneOf old (width s) k)

/-- `y` are the states that a chunk of `cnt` elements carries from the record's y, and `fl` the flags that they raise. -/
structure Carries (s : State) (off cnt : Nat) (ctl : Word) (step : Nat → Nat → Flagged) (y : Nat → Nat) (fl : Flags) : Prop where
  first : y 0 = leAt s.co.tcm.bytes off 8 % 2 ^ width s
  next : ∀ k, y (k + 1) = (step k (stateAt s off ctl y k)).bits
  flags : ∀ i, fl.getLsbD i = true ↔ ∃ k, k < cnt ∧ (step k (stateAt s off ctl y k)).fl.getLsbD i = true

/-- The fold of a chunk gives the states that it carries, from the first result on, the last of them, and every flag. -/
theorem chunkFold_carries {s : State} {f : Fmt} (hf : floatType s f) {ctl : Word} {off : Nat} (hoff : ctl.toNat % 2 ^ 16 = off)
    (ema : Bool) (coef old : Vec) (cnt : Nat) :
    let o := chunkFold s.co.tcm.bytes ema s.src.vconf ctl coef old cnt
    ∃ y, o.1 = (List.range cnt).map (fun k => y (k + 1)) ∧ o.2.1 = y cnt ∧ Carries s off cnt ctl (laneStep s f ema off coef old) y o.2.2 := by
  obtain ⟨-, hformat, -⟩ := floatType_format hf
  have hw : width s ≤ 64 := by unfold width; split <;> decide
  have hlow : bits ctl.toNat 0 16 = off := by rw [bits_zero, hoff]
  have hstate := bits_leAt_low s.co.tcm.bytes off (i := 0) (n := 64) (by decide) hw
  have hrho := bits_leAt_low s.co.tcm.bytes off (i := 8) (n := 64) (by decide) hw
  have halpha := bits_leAt_low s.co.tcm.bytes off (i := 16) (n := 64) (by decide) hw
  obtain ⟨y, hy0, hy⟩ := exists_carried (laneStep s f ema off coef old) (fun k => bit ctl.toNat (48 + k))
    (leAt s.co.tcm.bytes (off + 8) 8 % 2 ^ width s) (leAt s.co.tcm.bytes off 8 % 2 ^ width s)
  have hchunk : chunkFold s.co.tcm.bytes ema s.src.vconf ctl coef old cnt = recurrence f (rndOf (s.src.vconf.toNat / 8 % 4)) ema
      (leAt s.co.tcm.bytes (off + 8) 8 % 2 ^ width s) ((List.range' 0 cnt).map fun k => (bit ctl.toNat (48 + k),
        if ema then leAt s.co.tcm.bytes (off + 16) 8 % 2 ^ width s else laneOf coef (width s) k, laneOf old (width s) k)) (y 0) := by
    rw [chunkFold, hlow, ofBytes_rdBytes, ← List.range_eq_range', hformat, hy0, ← hrho, ← halpha]
    exact congrArg _ hstate
  obtain ⟨hout, hlast, hfl⟩ := recurrence_range' (fun _ _ => rfl) hy cnt 0
  rw [← hchunk] at hout hlast hfl
  refine ⟨y, by rw [hout, List.range_eq_range'], by rw [hlast, Nat.zero_add], hy0, hy, fun i => (hfl i).trans ?_⟩
  simp only [List.mem_range'_1, Nat.zero_le, true_and, Nat.zero_add]
  rfl

/-- v[d] after a chunk: the results in the chunk's lanes, and the lanes above as they were. -/
theorem lanes_chunkVector (s : State) (old : Vec) {cnt : Nat} (hn : cnt ≤ 128 / width s) (y : Nat → Nat) :
    Lanes s (chunkVector s.src.vconf old cnt ((List.range cnt).map fun k => y (k + 1)))
      (fun k => if k < cnt then y (k + 1) % 2 ^ width s else laneOf old (width s) k) := by
  intro k hk
  let l : List Nat := (List.range cnt).map (fun k => y (k + 1)) ++ (List.range (128 / width s - cnt)).map fun i => lane old (width s) (cnt + i)
  have hlen : l.length = 128 / width s := by simp [l, Nat.add_sub_cancel' hn]
  have hlane := laneOf_vecOf_packBits (width s) l (k := k) (by rw [hlen]; exact Nat.mul_div_le _ _) (by rwa [hlen])
  refine hlane.trans ?_
  by_cases hc : k < cnt
  · simp [l, hc]
  · have hold : lane old (width s) k % 2 ^ width s = laneOf old (width s) k := Nat.mod_mod _ _
    rw [List.getElem_append_right (by simpa using Nat.le_of_not_lt hc)]
    simp [Nat.add_sub_cancel' (Nat.le_of_not_lt hc), hc, hold]

theorem getLsbD_orFlags (v : Word) (fl : Flags) {i : Nat} (hi : i < 64) :
    (orFlags v fl).getLsbD i = true ↔ v.getLsbD i = true ∨ 8 ≤ i ∧ i < 14 ∧ fl.getLsbD (i - 8) = true := by
  have hfl : fl.getLsbD (i - 8) = true → i - 8 < 6 := BitVec.lt_of_getLsbD
  rw [orFlags, BitVec.getLsbD_or, BitVec.getLsbD_shiftLeft, BitVec.getLsbD_setWidth]
  simp only [Bool.or_eq_true, Bool.and_eq_true, Bool.not_eq_true', decide_eq_true_eq, decide_eq_false_iff_not]
  exact or_congr_right ⟨fun ⟨⟨_, h8⟩, _, h⟩ => ⟨by omega, by have := hfl h; omega, h⟩,
    fun ⟨h8, _, h⟩ => ⟨⟨hi, by omega⟩, by omega, h⟩⟩

theorem getLsbD_flagsByte (b : Byte) (fl : Flags) {i : Nat} (hi : i < 8) :
    (b ||| fl.setWidth 8).getLsbD i = true ↔ b.getLsbD i = true ∨ i < 6 ∧ fl.getLsbD i = true := by
  have hfl : fl.getLsbD i = true → i < 6 := BitVec.lt_of_getLsbD
  rw [BitVec.getLsbD_or, BitVec.getLsbD_setWidth, Bool.or_eq_true, Bool.and_eq_true, decide_eq_true_eq]
  exact or_congr_right ⟨fun ⟨_, h⟩ => ⟨hfl h, h⟩, fun ⟨_, h⟩ => ⟨hi, h⟩⟩

/-- A word whose record is ready and whose count fits runs its chunk: the states that it carries, and what is left. -/
theorem recWord_runs {s : State} (h : VecReady s) {f : Fmt} (hf : floatType s f) {i : Instr} {b d : BitVec 5} {ema : Bool}
    {coef : (Nat → Vec) → Vec} (hi : RecurrenceWord s i ema d coef) {off cnt : Nat} (hoff : (src s b).toNat % 2 ^ 16 = off)
    (hrec : RecordReady s off) (hu : s.co.undo = none) (hcnt : recCount (src s b) (128 / width s) = cnt) (hn : cnt ≤ 128 / width s) :
    ∃ (t : State) (y : Nat → Nat) (fl : Flags), recWord i b s = .next t ∧
      Carries s off cnt (src s b) (laneStep s f ema off (coef s.th.getV) (vsrc s d)) y fl ∧
      ChunkRan s d.toNat off cnt (chunkVector s.src.vconf (vsrc s d) cnt ((List.range cnt).map fun k => y (k + 1))) (y cnt) fl t := by
  have hinside : off < 0xC000 := by have := hrec.place; omega
  have hran := chunkRan_enqueue h hi.served hi.plain hoff hinside hu hcnt
  obtain ⟨y, hout, hlast, hcarries⟩ := chunkFold_carries hf hoff ema (coef s.th.getV) (vsrc s d) cnt
  refine ⟨_, y, _, recWord_queues h hi hoff hrec (by rw [hcnt]; exact hn), hcarries, ?_⟩
  rw [← hout, ← hlast]
  exact hran

/-- The step of VREC is the fused product of the coefficient's lane and the state, and the lane (R119). -/
theorem laneStep_vrec (s : State) (f : Fmt) (off : Nat) (coef old : Vec) (k v : Nat) : laneStep s f false off coef old k v =
    f.fma (rndOf (s.src.vconf.toNat / 8 % 4)) (laneOf coef (width s) k) v (laneOf old (width s) k) := by
  simp [laneStep, recStep]

/-- The step of VEMA takes the record's α (R119). -/
theorem laneStep_vema (s : State) (f : Fmt) (off : Nat) (coef old : Vec) (k v : Nat) : laneStep s f true off coef old k v =
    recStep f (rndOf (s.src.vconf.toNat / 8 % 4)) true (leAt s.co.tcm.bytes (off + 16) 8 % 2 ^ width s) v (laneOf old (width s) k) := by
  simp [laneStep]

end Sys2Proof.Machine

namespace Sys2Proof.Proofs

open Sys2Proof.Machine Sys2Proof.Claims

/-- Settles O29: a word whose count fits is queued and runs its chunk at once, which carries the states of the fold (`recWord_runs`);
a count beyond the lanes traps (`recWord_traps`). -/
theorem recurrencesFoldTheLanes : Obligations.RecurrencesFoldTheLanes := by
  intro s d a b f off h hd ha hf ctl hoff hrec hu w n cnt r m rho alpha x folds
  obtain ⟨hfloat, -, -⟩ := floatType_format hf
  have runs : ∀ {i : Instr} {ema : Bool} {coef : (Nat → Vec) → Vec}, RecurrenceWord s i ema d coef → cnt ≤ n →
      folds (laneStep s f ema off (coef s.th.getV) (vsrc s d)) (recWord i b s) := by
    intro i ema coef hi hcnt
    obtain ⟨t, y, fl, hnext, ⟨hy0, hy, hfl⟩, hth, hbytes, hdram, hpads⟩ := recWord_runs h hf hi hoff hrec hu rfl hcnt
    refine ⟨t, hnext, y, hy0, fun k _ => hy k, ?_, ?_, ?_, fun q hq => ?_, fun q hq => ?_, fun q hq hf hc => ?_, fun v hv => ?_, ?_, ?_,
      hdram, hpads⟩
    · rw [hth]
      exact (Thread.getV_setV_same s.th hd _).symm ▸ lanes_chunkVector s (vsrc s d) hcnt y
    · rw [hbytes, state_recordWritten]
      rfl
    · rw [hbytes, count_recordWritten]
      rfl
    · rw [hbytes, flags_recordWritten, getLsbD_flagsByte _ _ hq, hfl]
      rfl
    · rw [hth, getLsbD_orFlags _ _ hq, hfl]
      rfl
    · rw [hbytes, rd8_recordWritten _ _ _ _ _ hq hf hc]
    · rw [hth]
      exact Thread.getV_setV_other s.th _ hv
    · rw [hth]
    · rw [hth]
  have hvrec := recurrenceWord_vrec hfloat hd ha b
  have hvema := recurrenceWord_vema hfloat hd b
  have vrecStep : (fun k y => f.fma r (laneOf (vsrc s a) w k) y (x k)) = laneStep s f false off (vsrc s a) (vsrc s d) :=
    funext fun k => funext fun y => (laneStep_vrec s f off (vsrc s a) (vsrc s d) k y).symm
  have vemaStep : (fun k y => recStep f r true alpha y (x k)) = laneStep s f true off 0 (vsrc s d) :=
    funext fun k => funext fun y => (laneStep_vema s f off 0 (vsrc s d) k y).symm
  refine ⟨fun hcnt => ⟨?_, ?_⟩, fun hcnt => ⟨?_, ?_⟩⟩
  · have hruns := runs hvrec hcnt
    exact vrecStep ▸ hruns
  · have hruns := runs hvema hcnt
    exact vemaStep ▸ hruns
  · exact recWord_traps h hvrec hcnt
  · exact recWord_traps h hvema hcnt

end Sys2Proof.Proofs
end

section
/-! PROOF. Register results (O1, O2, O4, O5): each word writes the value of its expression, which is the number of its table (R136-R145,
R148), and a row that stands in no table is refused (R67, R68). -/

namespace Sys2Proof.Machine

open Sys2Proof.Claims

/-- A word that writes a value known by another expression. -/
theorem writeX_value (s : State) (d : BitVec 5) {v w : Word} (h : v = w) : Next (writeX s d v) (XWritten s d w) :=
  h ▸ writeX_next s d v

/-! ### Reserved rows (R67) -/

/-- A decoder of an OP that refuses a field's values from `least` on refuses the words of the OP that hold them. -/
theorem refuses_of_decode {op i n least : Nat} {e : DecodeError} {dec : BitVec 20 → Except DecodeError Instr} (hn : i + n ≤ 20)
    (hdec : ∀ c lit, decodeFields op c lit = dec c) (herr : ∀ c, least ≤ (c.extractLsb' i n).toNat → dec c = .error e) :
    Refuses op i n least e := by
  intro w lit hop hleast
  rw [decodeCode, hop, hdec]
  refine herr _ ?_
  rwa [Laws.extract_extract _ _ _ _ _ hn, Nat.zero_add]

theorem decode40_reserved (c : BitVec 20) (h : 14 ≤ (c.extractLsb' 0 5).toNat) : decode40 c = .error .illegalOpcode := by
  unfold decode40
  split
  case h_15 => rfl
  all_goals omega

/-- A shift word with imm7[6] set (R140). -/
theorem decode41_shift (c : BitVec 20) (h4 : 4 ≤ (c.extractLsb' 7 3).toNat) (h6 : (c.extractLsb' 7 3).toNat ≤ 6)
    (hbit : c.extractLsb' 6 1 ≠ 0#1) : decode41 c = .error .illegalOperand := by
  have hfn : (c.extractLsb' 7 3).toNat = 4 ∨ (c.extractLsb' 7 3).toNat = 5 ∨ (c.extractLsb' 7 3).toNat = 6 := by omega
  unfold decode41
  rcases hfn with hfn | hfn | hfn <;> simp [hfn, accept, hbit]

/-! ### Words as numbers -/

theorem word_ofNat_toNat (x : Word) : BitVec.ofNat 64 x.toNat = x := (BitVec.ofNat_toNat 64 x).trans (BitVec.setWidth_eq x)

theorem add_ofInt (x : Word) (i : Int) : x + BitVec.ofInt 64 i = BitVec.ofInt 64 (x.toNat + i) := by
  rw [BitVec.ofInt_add, BitVec.ofInt_natCast, word_ofNat_toNat]

theorem add_eq_ofNat (x y : Word) : x + y = BitVec.ofNat 64 (x.toNat + y.toNat) := by
  rw [BitVec.ofNat_add, word_ofNat_toNat, word_ofNat_toNat]

theorem sub_eq_ofInt (x y : Word) : x - y = BitVec.ofInt 64 (x.toNat - y.toNat) := by
  rw [BitVec.sub_eq_add_neg, Int.sub_eq_add_neg, ← add_ofInt, BitVec.ofInt_neg, BitVec.ofInt_natCast, word_ofNat_toNat]

theorem shiftLeft_eq_ofNat (x : Word) (n : Nat) : x <<< n = BitVec.ofNat 64 (x.toNat * 2 ^ n) := by
  rw [← Nat.shiftLeft_eq]
  rfl

theorem ushiftRight_eq_ofNat (x : Word) (n : Nat) : x >>> n = BitVec.ofNat 64 (x.toNat / 2 ^ n) := by
  rw [← Nat.shiftRight_eq_div_pow, ← BitVec.toNat_ushiftRight, word_ofNat_toNat]

theorem sshiftRight_eq_ofInt (x : Word) (n : Nat) : x.sshiftRight n = BitVec.ofInt 64 (x.toInt / 2 ^ n) := by
  rw [BitVec.sshiftRight, Int.shiftRight_eq_div_pow, Nat.cast_pow]
  rfl

theorem boolWord_decide (p : Prop) [Decidable p] : boolWord (decide p) = if p then 1 else 0 := by
  by_cases h : p <;> simp [boolWord, h]

/-! ### The smaller and the greater (R139) -/

section
variable {α : Type} [LinearOrder α] (f : Word → α) {g : α → Word} (hg : ∀ x, g (f x) = x) (x y : Word)
include hg

/-- Of two words, the one that reads the smaller as `f` reads them. -/
theorem ite_lt_eq_min : (if decide (f y < f x) then y else x) = g (min (f x) (f y)) := by
  simp only [decide_eq_true_eq]
  rw [min_comm, min_def_lt, apply_ite g, hg, hg]

theorem ite_lt_eq_max : (if decide (f x < f y) then y else x) = g (max (f x) (f y)) := by
  simp only [decide_eq_true_eq]
  rw [max_def_lt, apply_ite g, hg, hg]

end

/-! ### Constants (R136) -/

/-- LIWH leaves the low half of x[d] as it was. -/
theorem append_low_eq_ofNat (l : BitVec 32) (x : Word) :
    l ++ x.extractLsb' 0 32 = BitVec.ofNat 64 (l.toNat * 2 ^ 32 + x.toNat % 2 ^ 32) := by
  apply BitVec.eq_of_toNat_eq
  have hl := l.isLt
  have hlow : x.toNat % 2 ^ 32 < 2 ^ 32 := Nat.mod_lt _ (by decide)
  rw [BitVec.toNat_append, BitVec.extractLsb'_toNat, Nat.shiftRight_zero, ← Nat.shiftLeft_add_eq_or_of_lt hlow, Nat.shiftLeft_eq,
    BitVec.toNat_ofNat, Nat.mod_eq_of_lt (a := l.toNat * 2 ^ 32 + x.toNat % 2 ^ 32) (by omega)]

/-- ADDPC: the bundle's address and the offset in bundles. -/
theorem addpc_eq_ofInt (a : IAddr) (imm : BitVec 15) :
    a.setWidth 64 + simm imm * 8 = BitVec.ofInt 64 (a.toNat + imm.toInt * 8) := by
  have hoff : simm imm * 8 = BitVec.ofInt 64 (imm.toInt * 8) := (BitVec.ofInt_mul _ 8).symm
  rw [hoff, add_ofInt, BitVec.toNat_setWidth_of_le (by decide)]

/-! ### Bits and bytes (R142) -/

theorem lt_two_pow_blen (m : Nat) : m < 2 ^ blen m := by
  unfold blen
  split
  · omega
  · exact Nat.lt_log2_self

theorem blen_le {m n : Nat} (h : m < 2 ^ n) : blen m ≤ n := by
  unfold blen
  split
  · exact Nat.zero_le n
  · exact Nat.log2_lt ‹_› |>.2 h

theorem testBit_blen {m : Nat} (h : m ≠ 0) : m.testBit (blen m - 1) = true := by
  rw [blen, if_neg h, Nat.add_sub_cancel]
  exact Nat.testBit_log2 h

/-- The leading zeros of a word are zeros, and a one follows them. -/
theorem leadingZeros_spec (x : Word) : leadingZeros x ≤ 64 ∧ (∀ i < leadingZeros x, x.getLsbD (63 - i) = false) ∧
    (leadingZeros x < 64 → x.getLsbD (63 - leadingZeros x) = true) := by
  have hle : blen x.toNat ≤ 64 := blen_le x.isLt
  unfold leadingZeros
  refine ⟨Nat.sub_le _ _, fun i hi => ?_, fun hlt => ?_⟩
  · exact Nat.testBit_lt_two_pow ((lt_two_pow_blen x.toNat).trans_le (Nat.pow_le_pow_right (by decide) (by omega)))
  · have hne : x.toNat ≠ 0 := fun h => by simp [h, blen] at hlt
    rw [show 63 - (64 - blen x.toNat) = blen x.toNat - 1 by omega]
    exact testBit_blen hne

/-- The trailing zeros of a word are zeros, and a one follows them. -/
theorem trailingZeros_spec (x : Word) : trailingZeros x ≤ 64 ∧ (∀ i < trailingZeros x, x.getLsbD i = false) ∧
    (trailingZeros x < 64 → x.getLsbD (trailingZeros x) = true) := by
  unfold trailingZeros
  cases h : (List.range 64).find? fun i => x.getLsbD i with
  | none =>
    rw [List.find?_range_eq_none] at h
    exact ⟨le_rfl, fun i hi => by simpa using h i hi, fun hlt => absurd hlt (lt_irrefl _)⟩
  | some n =>
    obtain ⟨hone, hmem, hzero⟩ := List.find?_range_eq_some.1 h
    exact ⟨(List.mem_range.1 hmem).le, fun i hi => by simpa using hzero i hi, fun _ => hone⟩

theorem popCount_eq_card (x : Word) : popCount x = ((Finset.range 64).filter fun i => x.getLsbD i).card := by
  unfold popCount
  simp [Finset.card, Finset.filter, Finset.range, Multiset.range]

theorem toBytes_ofBytes (l : List Byte) : toBytes l.length (ofBytes l) = l := by
  induction l with
  | nil => rfl
  | cons b l ih =>
    have hb := b.isLt
    rw [List.length_cons, toBytes_succ, show ofBytes (b :: l) = b.toNat + 256 * ofBytes l from rfl]
    refine congrArg₂ _ (BitVec.eq_of_toNat_eq ?_) ?_
    · rw [BitVec.toNat_ofNat]
      omega
    · rw [show (b.toNat + 256 * ofBytes l) / 256 = ofBytes l by omega, ih]

theorem ofBytes_mod (l : List Byte) : ofBytes l % 2 ^ (8 * l.length) = ofBytes l := by
  rw [← ofBytes_toBytes, toBytes_ofBytes]

/-- The bytes of a word, lowest first (R5). -/
theorem getElem_toBytes_toNat (x : Word) {k : Nat} (hk : k < (toBytes 8 x.toNat).length) :
    (toBytes 8 x.toNat)[k] = x.extractLsb' (8 * k) 8 := by
  simp [toBytes, BitVec.extractLsb', Nat.shiftRight_eq_div_pow]

theorem toNat_byteSwap (x : Word) : (byteSwap x).toNat = ofBytes (toBytes 8 x.toNat).reverse := by
  have hmod := ofBytes_mod (toBytes 8 x.toNat).reverse
  rw [List.length_reverse, length_toBytes] at hmod
  exact hmod

theorem byteSwap_bytes (x : Word) {k : Nat} (hk : k < 8) :
    (byteSwap x).extractLsb' (8 * k) 8 = x.extractLsb' (8 * (7 - k)) 8 := by
  have hbytes : toBytes 8 (byteSwap x).toNat = (toBytes 8 x.toNat).reverse := by
    rw [toNat_byteSwap]
    exact toBytes_ofBytes (toBytes 8 x.toNat).reverse
  have hlen : k < (toBytes 8 (byteSwap x).toNat).length := by simpa using hk
  rw [← getElem_toBytes_toNat (byteSwap x) hlen]
  simp only [hbytes, List.getElem_reverse]
  rw [getElem_toBytes_toNat]
  simp

/-! ### The field of PART (R144) -/

theorem partField_eq (x y : Word) :
    let pos := y.toNat % 64
    let len := min (y.toNat / 256 % 128) 64
    let f := x.toNat / 2 ^ pos % 2 ^ len
    partField x y =
      if y.toNat / 2 ^ 15 % 2 = 1 ∧ 0 < len ∧ 2 ^ (len - 1) ≤ f then BitVec.ofInt 64 (f - 2 ^ len) else BitVec.ofNat 64 f := by
  intro pos len f
  have hbit : y.getLsbD 15 = decide (y.toNat / 2 ^ 15 % 2 = 1) := Nat.testBit_eq_decide_div_mod_eq
  have hmod : f % 2 ^ len = f := Nat.mod_mod _ _
  have hpart : partField x y = if y.toNat / 2 ^ 15 % 2 = 1 ∧ 0 < len then sext len f else BitVec.ofNat 64 f := by
    simp only [partField, hbit, bits_zero, Bool.and_eq_true, decide_eq_true_eq]
    rfl
  rw [hpart, sext, signedOf, hmod]
  by_cases hsign : 2 ^ (len - 1) ≤ f
  · simp [hsign, Nat.not_lt.2 hsign]
  · simp [hsign, Nat.lt_of_not_le hsign]

end Sys2Proof.Machine

namespace Sys2Proof.Proofs

open Sys2Proof.Machine Sys2Proof.Claims

/-- Settles O1: each word's expression is the number of the table; the OP has no row from fn 14 on. -/
theorem aluWritesTheTableResult : Obligations.AluWritesTheTableResult := by
  refine ⟨?words, refuses_of_decode (by decide) (fun _ _ => rfl) decode40_reserved⟩
  intro s d a b _ x y sh
  refine ⟨?add, ?sub, ?and, ?or, ?xor, ?sll, ?srl, ?sra, ?slt, ?sltu, ?min, ?max, ?minu, ?maxu⟩
  case add => exact writeX_value s d (add_eq_ofNat x y)
  case sub => exact writeX_value s d (sub_eq_ofInt x y)
  case and => exact writeX_next s d (x &&& y)
  case or => exact writeX_next s d (x ||| y)
  case xor => exact writeX_next s d (x ^^^ y)
  case sll => exact writeX_value s d (shiftLeft_eq_ofNat x sh)
  case srl => exact writeX_value s d (ushiftRight_eq_ofNat x sh)
  case sra => exact writeX_value s d (sshiftRight_eq_ofInt x sh)
  case slt => exact writeX_value s d (boolWord_decide (x.toInt < y.toInt))
  case sltu => exact writeX_value s d (boolWord_decide (x.toNat < y.toNat))
  case min => exact writeX_value s d (ite_lt_eq_min BitVec.toInt (fun _ => BitVec.ofInt_toInt) x y)
  case max => exact writeX_value s d (ite_lt_eq_max BitVec.toInt (fun _ => BitVec.ofInt_toInt) x y)
  case minu => exact writeX_value s d (ite_lt_eq_min BitVec.toNat word_ofNat_toNat x y)
  case maxu => exact writeX_value s d (ite_lt_eq_max BitVec.toNat word_ofNat_toNat x y)

/-- Settles O2: an immediate is its signed number (R62), and bit 6 of a shift's immediate is checked by the decoder. -/
theorem aluImmediateWritesTheTableResult : Obligations.AluImmediateWritesTheTableResult := by
  refine ⟨?words, fun w lit hop h4 h6 hbit => ?shift⟩
  case' words =>
    intro s d a imm sh _ x i
    refine ⟨?addi, ?andi, ?ori, ?xori, ?slli, ?srli, ?srai, ?slti⟩
  case addi => exact writeX_value s d (add_ofInt x imm.toInt)
  case andi => exact writeX_next s d (x &&& i)
  case ori => exact writeX_next s d (x ||| i)
  case xori => exact writeX_next s d (x ^^^ i)
  case slli => exact writeX_value s d (shiftLeft_eq_ofNat x sh.toNat)
  case srli => exact writeX_value s d (ushiftRight_eq_ofNat x sh.toNat)
  case srai => exact writeX_value s d (sshiftRight_eq_ofInt x sh.toNat)
  case slti =>
    have himm : (simm imm).toInt = imm.toInt := BitVec.toInt_signExtend_of_le (by decide)
    exact himm ▸ writeX_value s d (boolWord_decide (x.toInt < (simm imm).toInt))
  case shift =>
    rw [decodeCode, hop]
    rw [← Laws.extract_extract w 0 20 7 3 (by decide)] at h4 h6
    refine decode41_shift _ h4 h6 fun h0 => ?_
    rw [Laws.extract_extract _ _ _ _ _ (by decide)] at h0
    have h6 : (w.extractLsb' 6 1).getLsbD 0 = false := by rw [h0]; rfl
    rw [BitVec.getLsbD_extractLsb', hbit] at h6
    exact absurd h6 (by decide)

/-- Settles O4: the literals and immediates are their signed numbers, and ADDSH shifts by three places. -/
theorem constantAndAddressResults : Obligations.ConstantAndAddressResults := by
  refine fun s d a b l imm _ => ⟨?liw, ?liwh, ?lui, ?addpc, ?addsh⟩
  case liw => exact writeX_next s d (BitVec.ofInt 64 l.toInt)
  case liwh => exact writeX_value s d (append_low_eq_ofNat l (src s d))
  case lui => exact writeX_value s d (BitVec.ofInt_mul imm.toInt 65536).symm
  case addpc => exact writeX_value s d (addpc_eq_ofInt s.bundle imm)
  case addsh =>
    refine writeX_value s d (v := src s a + src s b <<< 3) ?_
    rw [shiftLeft_eq_ofNat, BitVec.ofNat_add, word_ofNat_toNat]
    rfl

/-- Settles O5: the counts by their words' bits, BSWAP byte by byte, PART by the sign of its field. -/
theorem bitCountAndFieldResults : Obligations.BitCountAndFieldResults := by
  refine ⟨?counts, ?fields⟩
  case' counts =>
    intro s d a _ x
    refine ⟨?clz, ?ctz, ?popc, ?bswap⟩
  case' fields =>
    intro s d a b _ x y pos len f signed
    refine ⟨?part, ?sel, ?movpw⟩
  case clz =>
    obtain ⟨hle, hzero, hone⟩ := leadingZeros_spec x
    exact ⟨_, hle, hzero, hone, writeX_next s d _⟩
  case ctz =>
    obtain ⟨hle, hzero, hone⟩ := trailingZeros_spec x
    exact ⟨_, hle, hzero, hone, writeX_next s d _⟩
  case popc => exact writeX_value s d (congrArg (BitVec.ofNat 64) (popCount_eq_card x))
  case bswap => exact ⟨byteSwap x, fun k hk => byteSwap_bytes x hk, writeX_next s d _⟩
  case part => exact writeX_value s d (partField_eq x y)
  case sel => exact writeX_value s d (ite_not (src s d = 0) x y)
  case movpw => exact writeX_value s d (pw_reads s.src.pw)

end Sys2Proof.Proofs
end

section
/-! PROOF. Predicates and branches (O6, O7): what a word that writes p[d] leaves (R65, R146-R148), and a branch taken or not (R129-R132). -/

namespace Sys2Proof.Machine

open Sys2Proof.Claims

/-! ### Comparisons (R131) -/

theorem not_sless (x y : Word) : (!sless x y) = decide (y.toInt ≤ x.toInt) := by simp only [sless, ← decide_not, not_lt]

theorem not_uless (x y : Word) : (!uless x y) = decide (y.toNat ≤ x.toNat) := by simp only [uless, ← decide_not, not_lt]

/-! ### Predicates (R65, R72) -/

/-- A word that wrote p[d] and did nothing else. -/
theorem pWritten_setP (s : State) {d : BitVec 5} (hd : d.toNat < 8) (b : Bool) : PWritten s d b (stepsPast (s.setP d.toNat b)) := by
  have hframe := Thread.setP_frame s.th d.toNat b
  have hpc : pcAfter (s.setP d.toNat b) = pcAfter s := pcAfter_congr rfl rfl (by rw [State.setP_th, hframe])
  refine ⟨Thread.getP_setP_same s.th b hd, fun p hp => Thread.getP_setP_other s.th b hp, ?_⟩
  show ({ s.setP d.toNat b with stat := .done, th := { s.th.setP d.toNat b with pc := pcAfter (s.setP d.toNat b) } } : State) = _
  rw [hpc, hframe]
  rfl

/-- A word that writes a predicate known by another expression. -/
theorem writeP_value (s : State) {d : BitVec 5} (hd : d.toNat < 8) {b c : Bool} (h : b = c) : Next (writeP s d b) (PWritten s d c) :=
  h ▸ ⟨_, by rw [writeP, finish_ok, State.advance_eq_stepsPast], pWritten_setP s hd b⟩

/-- MOVWP takes every predicate but p0 from the word. -/
theorem getP_movwp {t : Thread} {x : Word} (ht : t.pw = x.setWidth 8 ||| 1) {k : Nat} (h1 : 1 ≤ k) (h8 : k < 8) :
    t.getP k = x.getLsbD k := by
  have hk : k ≠ 0 := by omega
  simp [Thread.getP, ht, hk, h8]

theorem decode46_reserved (c : BitVec 20) (h : 6 ≤ (c.extractLsb' 0 5).toNat) : decode46 c = .error .illegalOpcode := by
  unfold decode46
  split
  case h_7 => rfl
  all_goals omega

theorem decode47_reserved (c : BitVec 20) (h : 4 ≤ (c.extractLsb' 0 5).toNat) : decode47 c = .error .illegalOpcode := by
  unfold decode47
  split
  case h_5 => rfl
  all_goals omega

/-- PNOT has one source: its second source field is zero (R68). -/
theorem decode47_pnot (c : BitVec 20) (hfn : (c.extractLsb' 0 5).toNat = 3) (hb : c.extractLsb' 5 5 ≠ 0#5) :
    decode47 c = .error .illegalOperand := by
  simp [decode47, hfn, accept, hb]

/-! ### Branches (R129-R132) -/

/-- A branch on a condition, to a bundle, to a target that no transfer reaches, and not taken. -/
theorem branch_branches (s : State) (off : BitVec 9) {c : Bool} {P : Prop} (h : c = true ↔ P) :
    Branches s P (s.bundle.toNat + off.toInt * 8) (branch s c off) := by
  refine ⟨fun hP e he => ?_, fun hP hbad => ?_, fun hP => ?_⟩
  · rw [branch, if_pos (h.2 hP)]
    exact transfer_bundle he
  · rw [branch, if_pos (h.2 hP)]
    exact transfer_bad hbad _
  · rw [branch, if_neg (mt h.1 hP), finish_ok, State.advance_eq_stepsPast]

theorem decode01_reserved (c : BitVec 20) (h : 6 ≤ (c.extractLsb' 9 3).toNat) : decode01 c = .error .illegalOpcode := by
  unfold decode01
  split
  case h_7 => rfl
  all_goals omega

end Sys2Proof.Machine

namespace Sys2Proof.Proofs

open Sys2Proof.Machine Sys2Proof.Claims

/-- Settles O6: each comparison is a decision, each logic word a Boolean operation; the rows behind both tables are refused. -/
theorem predicateResults : Obligations.PredicateResults := by
  refine ⟨?words, refuses_of_decode (by decide) (fun _ _ => rfl) decode46_reserved,
    refuses_of_decode (by decide) (fun _ _ => rfl) decode47_reserved, fun w lit hop hfn hb => ?operand⟩
  case' words =>
    intro s d a b hd x y p q
    refine ⟨?peq, ?pne, ?plt, ?pge, ?pltu, ?pgeu, ?pand, ?por, ?pxor, ?pnot, ?movwp, ?nop⟩
  case peq => exact writeP_value s hd rfl
  case pne => exact writeP_value s hd (decide_not (p := x = y)).symm
  case plt => exact writeP_value s hd rfl
  case pge => exact writeP_value s hd (not_sless x y)
  case pltu => exact writeP_value s hd rfl
  case pgeu => exact writeP_value s hd (not_uless x y)
  case pand =>
    have hand : ∀ b c : Bool, (b && c) = decide (b = true ∧ c = true) := by decide
    exact writeP_value s hd (hand p q)
  case por =>
    have hor : ∀ b c : Bool, (b || c) = decide (b = true ∨ c = true) := by decide
    exact writeP_value s hd (hor p q)
  case pxor =>
    have hxor : ∀ b c : Bool, (b != c) = decide (b ≠ c) := by decide
    exact writeP_value s hd (hxor p q)
  case pnot =>
    have hnot : ∀ b : Bool, (!b) = decide (b = false) := by decide
    exact writeP_value s hd (hnot p)
  case movwp =>
    exact ⟨_, congrArg Host.Outcome.next (State.advance_eq_stepsPast _), fun k h1 h8 => getP_movwp rfl h1 h8, rfl, rfl⟩
  case nop => exact congrArg Host.Outcome.next (State.advance_eq_stepsPast s)
  case operand =>
    rw [← Laws.extract_extract w 0 20 0 5 (by decide)] at hfn
    rw [← Laws.extract_extract w 0 20 5 5 (by decide)] at hb
    rw [decodeCode, hop]
    exact decode47_pnot _ hfn hb

/-- Settles O7: each branch is taken on its condition (`branch_branches`). -/
theorem branchesTakeTheirTarget : Obligations.BranchesTakeTheirTarget := by
  refine ⟨?words, refuses_of_decode (by decide) (fun _ _ => rfl) decode01_reserved⟩
  intro s a b off x y t
  have hless : sless x y = true ↔ x.toInt < y.toInt := decide_eq_true_iff
  have hlessU : uless x y = true ↔ x.toNat < y.toNat := decide_eq_true_iff
  refine ⟨?beq, ?bne, ?blt, ?bge, ?bltu, ?bgeu, ?bpt, ?bpf⟩
  case beq => exact branch_branches s off beq_iff_eq
  case bne => exact branch_branches s off bne_iff_ne
  case blt => exact branch_branches s off hless
  case bge => exact branch_branches s off (by rw [not_sless]; exact decide_eq_true_iff)
  case bltu => exact branch_branches s off hlessU
  case bgeu => exact branch_branches s off (by rw [not_uless]; exact decide_eq_true_iff)
  case bpt => exact branch_branches s off Iff.rfl
  case bpf => exact branch_branches s off (iff_of_eq (Bool.not_eq_true' _))

end Sys2Proof.Proofs
end

section
/-! PROOF. Writes of the special registers (O10): a permitted write merges the writable fields (R149); a trap vector is checked before it
goes in (R227). -/

namespace Sys2Proof.Machine

open Sys2Proof.Claims

/-! ### The merge of R149 -/

section
variable (old w : Word) {m : Word}

theorem merge_allOnes : (old &&& ~~~(0xFFFFFFFFFFFFFFFF : Word)) ||| (w &&& 0xFFFFFFFFFFFFFFFF) = w := by
  rw [show (0xFFFFFFFFFFFFFFFF : Word) = BitVec.allOnes 64 from rfl, BitVec.not_allOnes, BitVec.and_zero, BitVec.and_allOnes,
    BitVec.zero_or]

/-- Where every bit of a low field is writable, the field is the new one. -/
theorem setWidth_merge {k : Nat} (hk : k ≤ 64) (hm : m.setWidth k = BitVec.allOnes k) :
    ((old &&& ~~~m) ||| (w &&& m)).setWidth k = w.setWidth k := by
  simp [BitVec.setWidth_or, BitVec.setWidth_and, BitVec.setWidth_not hk, hm]

theorem getLsbD_merge {i : Nat} (hm : m.getLsbD i = true) : ((old &&& ~~~m) ||| (w &&& m)).getLsbD i = w.getLsbD i := by
  simp [hm]

end

/-- PW[7:1] takes the new bits, and p0 stays 1 (R72). -/
theorem pw_merge (old w : Word) : (csrMerge 0x000 old w).setWidth 8 ||| 1 = BitVec.ofNat 8 (w.toNat / 2 * 2 + 1) := by
  have hp0 : ∀ b : Byte, b ||| 1 = BitVec.ofNat 8 (b.toNat / 2 * 2 + 1) := by decide
  have hwritable : ∀ i < 8, i ≠ 0 → (0xFE : Word).getLsbD i = true := by decide
  have hmerge : (csrMerge 0x000 old w).setWidth 8 ||| 1 = w.setWidth 8 ||| 1 := by
    apply BitVec.eq_of_getLsbD_eq
    intro i hi
    rw [BitVec.getLsbD_or, BitVec.getLsbD_or, BitVec.getLsbD_setWidth, BitVec.getLsbD_setWidth]
    by_cases h0 : i = 0
    · simp [h0]
    · rw [show csrMerge 0x000 old w = (old &&& ~~~0xFE) ||| (w &&& 0xFE) from rfl, getLsbD_merge _ _ (hwritable i hi h0)]
  rw [hmerge, hp0]
  apply BitVec.eq_of_toNat_eq
  rw [BitVec.toNat_setWidth, BitVec.toNat_ofNat, BitVec.toNat_ofNat]
  omega

/-- An instruction address has no bits above its forty. -/
theorem vector_merge (a : IAddr) (w : Word) :
    (a.setWidth 64 &&& ~~~(0xFFFFFFFFFF : Word)) ||| (w &&& 0xFFFFFFFFFF) = w &&& 0xFFFFFFFFFF := by
  have hhigh : a.setWidth 64 &&& ~~~(0xFFFFFFFFFF : Word) = 0 := by
    have hmask : ∀ i < 40, (0xFFFFFFFFFF : Word).getLsbD i = true := by decide
    apply BitVec.eq_of_getLsbD_eq
    intro i _
    rw [BitVec.getLsbD_and, BitVec.getLsbD_not, BitVec.getLsbD_setWidth]
    by_cases h40 : i < 40
    · rw [hmask i h40]
      simp
    · rw [BitVec.getLsbD_of_ge a i (Nat.not_lt.1 h40)]
      simp
  rw [hhigh]
  exact BitVec.zero_or

/-- KILLED of the four streams is writable (R290). -/
theorem setStrmst_merge {t : Thread} (h : ∀ e ∈ t.streams, e.1 < 24) (old w : Word) :
    t.setStrmst (csrMerge 0x004 old w) = t.setStrmst w := by
  have hwritable : ∀ k < 4, (0xF00 : Word).getLsbD (8 + k) = true := by decide
  refine congrArg (fun l => { t with streams := l }) (List.map_congr_left fun e he => ?_)
  have hk := h e he
  have hbit := getLsbD_merge old w (hwritable (e.1 - 20) (by omega))
  exact congrArg (fun b => (e.1, { e.2 with killed := b })) hbit

theorem tenant_merge (old w : Word) : (csrMerge 0x006 old w).toNat % 256 = w.toNat % 256 := by
  have h : (csrMerge 0x006 old w).setWidth 8 = w.setWidth 8 := setWidth_merge old w (by decide) rfl
  simpa using congrArg BitVec.toNat h

/-! ### Writes that go in -/

/-- A write that is permitted, waits for nothing and is of no trap vector. -/
theorem csrWrite_goesIn {s : State} {n : Nat} (ha : csrAccess s.src.level n = .rw)
    (hw : ¬((n = 0x003 ∧ s.vconfBusy) ∨ (n = 0x101 ∧ s.seqBusy))) (hn : n ≠ 0x204 ∧ n ≠ 0x214) (w : Word → Word) :
    finish s (csrWrite s n w) = .next (stepsPast (s.setCsr n (csrMerge n (s.csr n) (w (s.csr n))))) := by
  rw [csrWrite, ha]
  simp only [if_neg hw, hn.1, hn.2, false_or, false_and, if_false]
  rw [finish_ok, State.advance_eq_stepsPast]

/-- The three writing instructions put the merged value into the register. -/
theorem csrWrites_merge {s : State} {csr : BitVec 12} {old : Word} {put : Word → State} (d : BitVec 5)
    (ha : csrAccess s.src.level csr.toNat = .rw) (hw : ¬((csr.toNat = 0x003 ∧ s.vconfBusy) ∨ (csr.toNat = 0x101 ∧ s.seqBusy)))
    (hn : csr.toNat ≠ 0x204 ∧ csr.toNat ≠ 0x214) (hold : s.csr csr.toNat = old)
    (hput : ∀ w, stepsPast (s.setCsr csr.toNat (csrMerge csr.toNat old w)) = put w) : CsrWrites s d csr old put := by
  subst hold
  have h := csrWrite_goesIn ha hw hn
  exact ⟨(h _).trans (congrArg _ (hput _)), (h _).trans (congrArg _ (hput _)), (h _).trans (congrArg _ (hput _))⟩

/-- A word that changed its thread, but not the pc, and stepped past itself. -/
theorem stepsPast_thread (s : State) {t : Thread} (hpc : t.pc = s.th.pc) :
    stepsPast { s with th := t } = { s with stat := .done, th := { t with pc := pcAfter s } } := by
  unfold stepsPast
  rw [pcAfter_congr (s := s) (t := { s with th := t }) rfl rfl hpc]

/-- A register that is a field of the thread: `set` puts the field in, `field` takes its value from the merged word, and what it takes of
the word itself is `g`. -/
theorem csrWrites_field {s : State} {csr : BitVec 12} {old : Word} {α : Type} (set : α → Thread → Thread) {field g : Word → α}
    (d : BitVec 5) (ha : csrAccess s.src.level csr.toNat = .rw) (hold : s.csr csr.toNat = old)
    (hset : ∀ w, s.setCsr csr.toNat w = { s with th := set (field w) s.th }) (hmerge : ∀ w, field (csrMerge csr.toNat old w) = g w)
    (hpc : ∀ x, { set x s.th with pc := pcAfter s } = set x { s.th with pc := pcAfter s } ∧ (set x s.th).pc = s.th.pc)
    (hw : ¬((csr.toNat = 0x003 ∧ s.vconfBusy) ∨ (csr.toNat = 0x101 ∧ s.seqBusy)))
    (hn : csr.toNat ≠ 0x204 ∧ csr.toNat ≠ 0x214) : CsrWrites s d csr old fun w => threadAfter s (set (g w)) := by
  refine csrWrites_merge d ha hw hn hold fun w => ?_
  obtain ⟨hcomm, hkeep⟩ := hpc (g w)
  rw [hset, hmerge, stepsPast_thread s hkeep, hcomm]
  rfl

/-- The registers that the levels above task write (R71). -/
theorem csrAccess_above {lv : Level} {n : Nat} (h : lv ≠ .task) (hn : n = 0x004 ∨ n = 0x104 ∨ n = 0x105) : csrAccess lv n = .rw := by
  rw [csrAccess, if_neg (by omega), if_pos hn, if_neg h]

/-! ### Trap banks (R225) -/

section
variable {n b i : Nat} (hb : b < 2) (hi : i < 6) (hn : n = 0x200 + 16 * b + i)
include hb hi hn

theorem csr_trapBank (s : State) : s.csr n = (s.src.trapBank b).reg i := by
  subst hn
  interval_cases b <;> interval_cases i <;> rfl

theorem setCsr_trapBank (s : State) (w : Word) :
    s.setCsr n w = { s with th := s.th.setTrapBank b ((s.th.trapBank b).setReg i w) } := by
  subst hn
  interval_cases b <;> interval_cases i <;> rfl

/-- The writable fields of a bank's register are all that is stored of it. -/
theorem setReg_merge (k : TrapBank) (old w : Word) : k.setReg i (csrMerge n old w) = k.setReg i w := by
  have h8 : ((old &&& ~~~(0xFF : Word)) ||| (w &&& 0xFF)).setWidth 8 = w.setWidth 8 := setWidth_merge old w (by decide) rfl
  have h40 : ((old &&& ~~~(0xFFFFFFFFFF : Word)) ||| (w &&& 0xFFFFFFFFFF)).setWidth 40 = w.setWidth 40 :=
    setWidth_merge old w (by decide) rfl
  have h64 := merge_allOnes old w
  have hfields : csrFields n = match i with | 0 | 1 => 0xFF | 3 | 4 => 0xFFFFFFFFFF | _ => 0xFFFFFFFFFFFFFFFF := by
    subst hn
    interval_cases b <;> interval_cases i <;> rfl
  rw [csrMerge, hfields]
  interval_cases i <;> simp only [TrapBank.setReg, h8, h40, h64]

theorem csrAccess_trapBank {lv : Level} (hlv : b = 0 ∨ lv ≠ .task) : csrAccess lv n = .rw := by
  rw [csrAccess, if_neg (by omega), if_neg (by omega), if_neg (by omega)]
  by_cases h0 : b = 0
  · rw [if_pos (by omega)]
  · rw [if_neg (by omega), if_pos (by omega), if_neg (hlv.resolve_left h0)]

end

/-- A write of a bank's register other than its vector. -/
theorem csrWrites_trapBank {s : State} {csr : BitVec 12} (d : BitVec 5) (b i : Nat) (hlv : b = 0 ∨ s.src.level ≠ .task)
    (hb : b < 2 := by decide) (hi : i < 6 ∧ i ≠ 4 := by decide) (hcsr : csr.toNat = 0x200 + 16 * b + i := by rfl) :
    CsrWrites s d csr ((s.src.trapBank b).reg i) fun w => threadAfter s fun t => t.setTrapBank b ((t.trapBank b).setReg i w) := by
  obtain ⟨hi, hvec⟩ := hi
  refine csrWrites_merge d (csrAccess_trapBank hb hi hcsr hlv) (by omega) (by omega) (csr_trapBank hb hi hcsr s) fun w => ?_
  rw [setCsr_trapBank hb hi hcsr, setReg_merge hb hi hcsr]
  interval_cases b <;> exact stepsPast_thread s rfl

/-! ### Trap vectors (R227) -/

section
variable {s : State} {b : Nat} {v : Word}

theorem tvecCheck_misaligned (h8 : v.toNat % 8 ≠ 0) : s.tvecCheck b v = some (targetMisaligned, v) := if_pos h8

theorem tvecCheck_pinned (h8 : v.toNat % 8 = 0) (h : HandlerPinned s (s.src.trapBank b).scratch v) : s.tvecCheck b v = none := by
  obtain ⟨⟨e, hwalk, hpin⟩, hscratch⟩ := h
  rw [State.tvecCheck, if_neg (not_not.2 h8), hwalk]
  simp only [hpin, Bool.not_true, Bool.false_eq_true, if_false]
  cases hchip : onChip (s.src.trapBank b).scratch.toNat with
  | true => rfl
  | false =>
    obtain ⟨leaf, hleaf, hleafPin⟩ := hscratch hchip
    simp [hleaf, hleafPin]

theorem tvecCheck_unpinned (h8 : v.toNat % 8 = 0) (h : ¬HandlerPinned s (s.src.trapBank b).scratch v) :
    s.tvecCheck b v = some (handlerNotPinned, v) := by
  rw [State.tvecCheck, if_neg (not_not.2 h8)]
  split
  · rfl
  next e hwalk =>
    dsimp only
    split
    · rfl
    next hpin =>
      split
      next hchip => exact absurd ⟨⟨e, hwalk, by simpa using hpin⟩, fun hoff => by simp [hchip] at hoff⟩ h
      next =>
        split
        next leaf hleaf =>
          split
          next hleafPin => exact absurd ⟨⟨e, hwalk, by simpa using hpin⟩, fun _ => ⟨leaf, hleaf, hleafPin⟩⟩ h
          next => rfl
        next => rfl

end

/-! A permitted write of the vector of trap bank `b`, by what the check says of the merged value. -/

section
variable {s : State} {n b : Nat} {v : Word} {w : Word → Word} (hb : b < 2) (hn : n = 0x200 + 16 * b + 4)
  (ha : csrAccess s.src.level n = .rw) (hv : csrMerge n (s.csr n) (w (s.csr n)) = v)
include hb hn ha hv

theorem csrWrite_vector_goesIn (hc : v = 0 ∨ s.tvecCheck b v = none) : csrWrite s n w = .ok (s.setCsr n v) := by
  subst hv hn
  rw [csrWrite, ha]
  interval_cases b <;> rcases hc with hc | hc <;> simp [hc]

theorem csrWrite_vector_traps {c : Nat} (h0 : ¬v = 0#64) (hc : s.tvecCheck b v = some (c, v)) : csrWrite s n w = trapR c v := by
  subst hv hn
  rw [csrWrite, ha]
  interval_cases b <;> simp [h0, hc]

end

/-- The merged value of a vector is the address bits of the new one. -/
theorem csrMerge_vector {n b : Nat} (hb : b < 2) (hn : n = 0x200 + 16 * b + 4) (a : IAddr) (w : Word) :
    csrMerge n (a.setWidth 64) w = w &&& 0xFFFFFFFFFF := by
  subst hn
  interval_cases b <;> exact vector_merge a w

theorem vectorWrites_csrWrite {s : State} {n : Nat} (b : Nat) (hb : b < 2) (hn : n = 0x200 + 16 * b + 4)
    (hlv : b = 0 ∨ s.src.level ≠ .task) (w : Word → Word) :
    VectorWrites s (w ((s.src.trapBank b).tvec.setWidth 64)) (finish s (csrWrite s n w)) (s.src.trapBank b).scratch
      fun a t => t.setTrapBank b { t.trapBank b with tvec := a } := by
  have ha := csrAccess_trapBank hb (by decide) hn hlv
  have hold : s.csr n = (s.src.trapBank b).tvec.setWidth 64 := csr_trapBank hb (by decide) hn s
  have hv := csrMerge_vector hb hn (s.src.trapBank b).tvec (w ((s.src.trapBank b).tvec.setWidth 64))
  rw [← hold] at hv ⊢
  refine ⟨fun h => ?_, fun h8 => ?_, fun h0 h8 hpin => ?_⟩
  · have hc := h.imp_right fun ⟨h8, hpin⟩ => tvecCheck_pinned h8 hpin
    rw [csrWrite_vector_goesIn hb hn ha hv hc, finish_ok, State.advance_eq_stepsPast, setCsr_trapBank hb (by decide) hn]
    interval_cases b <;> exact congrArg Host.Outcome.next (stepsPast_thread s rfl)
  · have h0 : ¬w (s.csr n) &&& 0xFFFFFFFFFF = 0#64 := fun h => h8 (by rw [h]; rfl)
    rw [csrWrite_vector_traps hb hn ha hv h0 (tvecCheck_misaligned h8)]
    exact traps_trapR s _ _
  · rw [csrWrite_vector_traps hb hn ha hv h0 (tvecCheck_unpinned h8 hpin)]
    exact traps_trapR s _ _

/-- The three writing instructions write the vector of bank `b` as R227 says. -/
theorem vectorCsr_trapBank {s : State} {csr : BitVec 12} (d : BitVec 5) (b : Nat) (hlv : b = 0 ∨ s.src.level ≠ .task)
    (hb : b < 2 := by decide) (hcsr : csr.toNat = 0x200 + 16 * b + 4 := by rfl) :
    VectorCsr s d csr (s.src.trapBank b).tvec (s.src.trapBank b).scratch fun a t => t.setTrapBank b { t.trapBank b with tvec := a } :=
  ⟨vectorWrites_csrWrite b hb hcsr hlv fun _ => src s d, vectorWrites_csrWrite b hb hcsr hlv fun old => old ||| src s d,
    vectorWrites_csrWrite b hb hcsr hlv fun old => old &&& ~~~src s d⟩

end Sys2Proof.Machine

namespace Sys2Proof.Proofs

open Sys2Proof.Machine Sys2Proof.Claims

/-- Settles O10: fields of the thread by `csrWrites_field`, the registers of the trap banks by `csrWrites_trapBank`, LINKCFG by
`csrWrites_merge`, and the vectors by `vectorCsr_trapBank`. -/
theorem csrWritesMergeTheWritableFields : Obligations.CsrWritesMergeTheWritableFields := by
  intro s d bank0 bank1
  have merge16 (old w : Word) : ((old &&& ~~~(0xFFFF : Word)) ||| (w &&& 0xFFFF)).setWidth 16 = w.setWidth 16 :=
    setWidth_merge old w (by decide) rfl
  refine ⟨?pw, ?space, ?farsp, fun hq hm => ?vconf, fun hq => ?linkcfg, csrWrites_trapBank d 0 0 (.inl rfl),
    csrWrites_trapBank d 0 1 (.inl rfl), csrWrites_trapBank d 0 2 (.inl rfl), csrWrites_trapBank d 0 3 (.inl rfl),
    csrWrites_trapBank d 0 5 (.inl rfl), vectorCsr_trapBank d 0 (.inl rfl), fun hl => ⟨fun hst => ?strmst, ?planbase, ?gangid,
      csrWrites_trapBank d 1 0 (.inr hl), csrWrites_trapBank d 1 1 (.inr hl), csrWrites_trapBank d 1 2 (.inr hl),
      csrWrites_trapBank d 1 3 (.inr hl), csrWrites_trapBank d 1 5 (.inr hl), vectorCsr_trapBank d 1 (.inr hl)⟩, fun hl => ?tenant⟩
  case pw =>
    exact csrWrites_field (fun x t => { t with pw := x }) d rfl (pw_reads _) (fun _ => rfl) (pw_merge _) (fun _ => ⟨rfl, rfl⟩)
      (by simp) (by simp)
  case space =>
    exact csrWrites_field (fun x t => { t with space := x }) d rfl rfl (fun _ => rfl) (merge16 _) (fun _ => ⟨rfl, rfl⟩)
      (by simp) (by simp)
  case farsp =>
    exact csrWrites_field (fun x t => { t with farsp := x }) d rfl rfl (fun _ => rfl) (merge16 _) (fun _ => ⟨rfl, rfl⟩)
      (by simp) (by simp)
  case vconf =>
    have hidle : s.vconfBusy = false := by simpa [State.vconfBusy, hq] using hm
    exact csrWrites_field (fun x t => { t with vconf := x }) d rfl rfl (fun _ => rfl) (fun _ => rfl) (fun _ => ⟨rfl, rfl⟩)
      (by simp [hidle]) (by simp)
  case linkcfg => exact csrWrites_merge d rfl (by simp [hq]) (by simp) rfl fun _ => rfl
  case strmst =>
    refine csrWrites_merge d (csrAccess_above hl (by simp)) (by simp) (by simp) rfl fun w => ?_
    have hset : s.setCsr 0x004 (csrMerge 0x004 s.src.strmst w) = { s with th := s.th.setStrmst w } :=
      congrArg (fun t => { s with th := t }) (setStrmst_merge hst s.src.strmst w)
    exact (congrArg stepsPast hset).trans (stepsPast_thread s rfl)
  case planbase =>
    exact csrWrites_field (fun x t => { t with planbase := x }) d (csrAccess_above hl (by simp)) rfl (fun _ => rfl) (fun _ => rfl)
      (fun _ => ⟨rfl, rfl⟩) (by simp) (by simp)
  case gangid =>
    exact csrWrites_field (fun x t => { t with gangid := x }) d (csrAccess_above hl (by simp)) rfl (fun _ => rfl) (fun _ => rfl)
      (fun _ => ⟨rfl, rfl⟩) (by simp) (by simp)
  case tenant =>
    have ha : csrAccess s.src.level 0x006 = .rw := by rw [hl]; rfl
    exact csrWrites_field (fun x t => { t with tenant := x }) d ha rfl (fun _ => rfl) (tenant_merge _) (fun _ => ⟨rfl, rfl⟩)
      (by simp) (by simp)

end Sys2Proof.Proofs
end

section
/-! PROOF. Trap words, the return from a trap and HALT (O12, O14): a trap at an address of its own (R151), the bank that TRET leaves
(R152, R229), and the halt of a core or of the datum pair (R17, R153). -/

namespace Sys2Proof.Machine

open Sys2Proof.Claims

/-! ### Traps with a resume address of their own (R151) -/

theorem traps_at (s : State) (c : Nat) (v : Word) (e : IAddr) : Traps s c v e (finish s (.trap c v (some e))) := by
  rintro ⟨hheld, hvec⟩
  rw [finish_trap, Option.getD_some, State.takeTrap_bank0 { s with draw := s.draw + 1 } c v e s.wordAddr hheld hvec]
  exact ⟨_, rfl, { code := rfl, value := rfl, resume := rfl, saved := ⟨rfl, rfl, rfl⟩, kept := ⟨rfl, rfl⟩, pc := rfl, frame := rfl }⟩

theorem State.nextAddr_eq_returnAddress (s : State) : s.nextAddr = returnAddress s := by
  obtain ⟨f, h⟩ : ∃ f, s.form = f := ⟨_, rfl⟩
  rw [State.nextAddr_eq]
  unfold returnAddress
  cases f <;> simp only [h]

/-- The address of a word that is not the second of a parallel bundle. -/
theorem State.selfAddr_eq_trapAddress {s : State} (h : s.form ≠ .par1) : s.selfAddr = trapAddress s := by
  obtain ⟨f, hf⟩ : ∃ f, s.form = f := ⟨_, rfl⟩
  unfold State.selfAddr State.isWord1 trapAddress
  rw [hf] at h ⊢
  cases f with
  | par1 => exact absurd rfl h
  | _ => rfl

/-! ### The return from a trap (R152, R229) -/

/-- An address of a bundle is a target that needs no look at the code. -/
theorem bundleTarget_toNat {a : IAddr} (h8 : a.toNat % 8 = 0) : BundleTarget a.toNat a := by
  have hlt := a.isLt
  refine ⟨by omega, by omega, by omega, ?_⟩
  rw [BitVec.ofInt_natCast, BitVec.ofNat_toNat, BitVec.setWidth_eq]

/-- With a trap in bank `b` and none above it, TRET goes to the bank's resume address, which names a bundle. -/
theorem tret_leavesTrap {s : State} {b : Nat} {a : IAddr} (hb : s.heldTrapBank = some b) (ha : (s.th.trapBank b).tepc = a)
    (h8 : a.toNat % 8 = 0) : exec .tret s = finish s (.jump (s.leaveTrap b) a) := by
  show execTret s = _
  rw [execTret, hb]
  simp only [ha]
  rw [transfer, checkTarget_bundleTarget (bundleTarget_toNat h8)]

theorem tret_traps {s : State} (hb : s.heldTrapBank = none) : Traps s 0x05 (s.raw.setWidth 64) (trapAddress s) (exec .tret s) := by
  show Traps _ _ _ _ (execTret s)
  rw [execTret, hb]
  exact traps_trapR s _ _

/-! ### HALT (R153) -/

theorem halt_above {s : State} (hl : s.src.level ≠ .task) (hc : clusterOf s.cid ≠ 62) :
    exec .halt s = .next (stepsPast { s with co := { s.co with halted := true } }) := by
  show execHalt s = _
  rw [execHalt, if_neg hl]
  simp only [if_neg hc]
  rw [finish_ok, State.advance_eq_stepsPast]

/-- A core of the datum pair takes its partner with it (R17). -/
theorem halt_datumPair {s : State} (hl : s.src.level ≠ .task) (hc : clusterOf s.cid = 62) :
    exec .halt s = .next (stepsPast (({ s with co := { s.co with halted := true } } : State).modCore (coreId 62 (1 - coreNo s.cid))
      fun k => { k with halted := true })) := by
  show execHalt s = _
  rw [execHalt, if_neg hl]
  simp only [if_pos hc]
  rw [finish_ok, State.advance_eq_stepsPast]

theorem halt_task {s : State} (hl : s.src.level = .task) : Traps s 0x05 (s.raw.setWidth 64) (trapAddress s) (exec .halt s) := by
  show Traps _ _ _ _ (execHalt s)
  rw [execHalt, if_pos hl]
  exact traps_trapR s _ _

end Sys2Proof.Machine

namespace Sys2Proof.Proofs

open Sys2Proof.Machine Sys2Proof.Claims

/-- Settles O12: a trap at its resume address (`traps_at`), which is behind the word for TRAP and the word's own for TRAP.BRK. -/
theorem trapInstructionsTakeTheirTrap : Obligations.TrapInstructionsTakeTheirTrap := by
  refine fun s a hf => ⟨?_, ?_⟩
  · rw [← State.nextAddr_eq_returnAddress]
    exact traps_at s _ _ _
  · rw [← State.selfAddr_eq_trapAddress hf]
    exact traps_at s _ _ _

/-- Settles O14: TRET by the highest bank that holds a trap, HALT by level and cluster. -/
theorem trapReturnAndHalt : Obligations.TrapReturnAndHalt := by
  refine ⟨fun s a hsrc => ⟨fun h1 h0 ha h8 => ?bank0, fun h1 ha h8 => ?bank1, fun h1 h0 => ?none⟩,
    fun s => ⟨fun hl hc => ?halts, fun hl hc => ?pair, fun hl => halt_task hl⟩⟩
  case bank0 =>
    have hb : s.heldTrapBank = some 0 := by simp [State.heldTrapBank, hsrc, h1, h0]
    exact tret_leavesTrap hb ha h8
  case bank1 =>
    have hb : s.heldTrapBank = some 1 := by simp [State.heldTrapBank, hsrc, h1]
    exact tret_leavesTrap hb ha h8
  case none =>
    have hb : s.heldTrapBank = none := by simp [State.heldTrapBank, hsrc, h1, h0]
    exact tret_traps hb
  case halts => exact halt_above hl hc
  case pair =>
    refine ⟨_, halt_datumPair hl hc, rfl, rfl, ?_⟩
    exact congrArg (Option.map Core.halted) (mget_mset_same _ _ _)

end Sys2Proof.Proofs
end

section
/-! PROOF. Time and alarms (O15): a thread has at most one alarm under way, which TALARM takes from the agenda or puts there (R155, R156). -/

namespace Sys2Proof.Machine

open Sys2Proof.Claims

/-- TIME reads meridian time, which does not go below 0. -/
theorem ofNat_meridianNow (s : State) : BitVec.ofNat 64 s.meridianNow = BitVec.ofInt 64 (max (s.now + s.meridian) 0) := by
  rw [State.meridianNow, ← BitVec.ofInt_natCast, Int.ofNat_toNat]

/-! ### Alarms in the agenda -/

theorem isAlarmOf_iff (w : Who) (e : Event) : isAlarmOf w e = true ↔ e = .alarmFire w := by
  unfold isAlarmOf
  split
  · simp
  next h => exact ⟨fun hf => absurd hf Bool.false_ne_true, fun he => absurd he (h w)⟩

/-- What is left of an agenda once the alarm of a thread is withdrawn. -/
theorem mem_unpost_isAlarmOf {s : State} {w : Who} {e : Nat × Event} :
    e ∈ (s.unpost (isAlarmOf w)).agenda ↔ e ∈ s.agenda ∧ e.2 ≠ .alarmFire w := by
  rw [State.unpost_agenda, List.mem_filter, Bool.not_eq_true', ← Bool.not_eq_true, isAlarmOf_iff]

/-- An event put into an agenda that holds none of its kind is the one of its kind. -/
theorem filter_insertEvent {p : Nat × Event → Bool} {t : Nat} {e : Event} {l : List (Nat × Event)} (hp : p (t, e) = true)
    (hl : ∀ x ∈ l, p x = false) : (insertEvent t e l).filter p = [(t, e)] := by
  induction l with
  | nil => simp [insertEvent, hp]
  | cons x l ih =>
    obtain ⟨hx, hrest⟩ := List.forall_mem_cons.1 hl
    have hnone : l.filter p = [] := List.filter_eq_nil_iff.2 fun y hy => by simp [hrest y hy]
    unfold insertEvent
    split
    · simp [hp, hx, hnone]
    · simp [hx, ih hrest]

/-- The alarm posted after the thread's last one was withdrawn is the only one of its thread. -/
theorem filter_postAt_alarm (s : State) (w : Who) (t : Nat) :
    ((s.unpost (isAlarmOf w)).postAt t (.alarmFire w)).agenda.filter (fun e => e.2 = .alarmFire w) =
      [(s.now + (t - s.meridianNow), .alarmFire w)] := by
  refine filter_insertEvent (by simp) fun e he => decide_eq_false ?_
  exact (mem_unpost_isAlarmOf.1 he).2

/-! ### TALARM (R156) -/

/-- The issuing thread's alarm becomes `a`, and the one under way is withdrawn. -/
def State.withAlarm (s : State) (a : Option (Nat × Nat)) : State :=
  ({ s with th := { s.th with alarm := a, alarmOn := none } } : State).unpost (isAlarmOf s.th.who)

section
variable {s : State} (d : BitVec 5) {a b : BitVec 5}

theorem talarm_cancels (h0 : (src s a).toNat = 0) :
    exec (.talarm d a b) s = .next (stepsPast ((s.withAlarm none).setX d (boolWord s.th.alarm.isSome))) :=
  (if_pos h0).trans (congrArg Host.Outcome.next (State.advance_eq_stepsPast _))

theorem talarm_refuses (h0 : (src s a).toNat ≠ 0) (hmb : (src s b).toNat < 2 ∨ 13 < (src s b).toNat) :
    exec (.talarm d a b) s = writeX s d 2 := (if_neg h0).trans (if_pos hmb)

theorem talarm_arms (h0 : (src s a).toNat ≠ 0) (hmb : ¬((src s b).toNat < 2 ∨ 13 < (src s b).toNat)) :
    exec (.talarm d a b) s = .next (stepsPast (((s.withAlarm (some ((src s a).toNat, (src s b).toNat))).postAt (src s a).toNat
      (.alarmFire s.th.who)).setX d (boolWord s.th.alarm.isSome))) :=
  ((if_neg h0).trans (if_neg hmb)).trans (congrArg Host.Outcome.next (State.advance_eq_stepsPast _))

end

/-- A word that wrote x[d] over a changed state: its result, and the alarm of that state. -/
theorem stepsPast_setX_alarm (u : State) {d : BitVec 5} (hd : d.toNat < 16) (w : Word) :
    (stepsPast (u.setX d w)).th.getX d.toNat = (if d.toNat = 0 then 0 else w) ∧ (stepsPast (u.setX d w)).th.alarm = u.th.alarm := by
  have hvalue := Thread.getX_setX_same u.th d.toNat w
  rw [Nat.mod_eq_of_lt hd] at hvalue
  refine ⟨hvalue, ?_⟩
  show (u.th.setX d.toNat w).alarm = _
  rw [Thread.setX_frame]

end Sys2Proof.Machine

namespace Sys2Proof.Proofs

open Sys2Proof.Machine Sys2Proof.Claims

/-- Settles O15: TIME by `writeLater_next`, TALARM by its three cases. -/
theorem timeAndAlarmResults : Obligations.TimeAndAlarmResults := by
  intro s d a b hd t mb was
  refine ⟨?time, fun h0 => ?cancels, fun h0 hmb => ?refuses, fun h0 h2 h13 => ?arms⟩
  case time =>
    rw [← ofNat_meridianNow]
    exact writeLater_next s d _ 4
  case cancels =>
    obtain ⟨hvalue, halarm⟩ := stepsPast_setX_alarm (s.withAlarm none) hd was
    exact ⟨_, talarm_cancels d h0, hvalue, halarm, fun e he => (mem_unpost_isAlarmOf.1 he).2,
      fun e he hne => mem_unpost_isAlarmOf.2 ⟨he, hne⟩⟩
  case refuses =>
    rw [talarm_refuses d h0 hmb]
    exact writeX_next s d 2
  case arms =>
    have hnow : s.meridianNow = (max (s.now + s.meridian) 0).toNat := by
      rw [State.meridianNow]
      omega
    obtain ⟨hvalue, halarm⟩ :=
      stepsPast_setX_alarm ((s.withAlarm (some (t, mb))).postAt t (.alarmFire s.th.who)) hd was
    refine ⟨_, talarm_arms d h0 (by omega), hvalue, halarm, ?_⟩
    rw [← hnow]
    exact filter_postAt_alarm { s with th := { s.th with alarm := some (t, mb), alarmOn := none } } s.th.who t

end Sys2Proof.Proofs
end

section
/-! PROOF. Loads and stores of the own TCM (O16, O17): an access that passes the checks of R186 and has nothing to wait for (R174), what
it returns and what it leaves. -/

namespace Sys2Proof.Machine

open Sys2Proof.Claims

/-! ### Addresses and values (R62, R186, R187) -/

/-- The model's effective address is the statements' one. -/
theorem eaOff_eq (s : State) (a : BitVec 5) (off : BitVec 7) (n : Nat) : s.eaOff a off n = ea s a off n := by
  have hoff : simm off * BitVec.ofNat 64 n = BitVec.ofInt 64 (off.toInt * n) := by
    rw [BitVec.ofInt_mul, BitVec.ofInt_natCast]
    rfl
  rw [State.eaOff, hoff]
  rfl

/-- The sign extension of a value that fits (R187). -/
theorem sext_eq_signed {n v : Nat} (h : v < 2 ^ n) : sext n v = signed n v := by
  simp only [sext, signedOf, Nat.mod_eq_of_lt h]
  rfl

/-- The bytes of a store are the low bytes of its register (R187). -/
theorem toBytes_toNat (w : Word) (n : Nat) : toBytes n w.toNat = lowBytes w n :=
  List.map_congr_left fun i _ => by simp [BitVec.extractLsb', Nat.shiftRight_eq_div_pow]

@[simp] theorem length_lowBytes (w : Word) (n : Nat) : (lowBytes w n).length = n := by simp [lowBytes]

/-! ### The access (R174, R186) -/

/-- A release finds every earlier access of the thread performed (R174). -/
def Released (s : State) (rel : Bool) : Prop := rel = true → s.th.unacked = [] ∧ s.th.cacheOps = []

/-- An access that is no release has nothing to find performed. -/
theorem released_false (s : State) : Released s false := fun hrel => nomatch hrel

/-- The checks of R186 lead to the own TCM, for every size of R187-R195. -/
theorem routeFor_tcm {s : State} {space p n : Nat} (hn : n ∣ 16) (haligned : p % n = 0) (hinside : p + n ≤ 0xC000) (hlocal : space < 0xFF00)
    (hspace : s.spaceOk space s.src.tenant = true) (atomic : Bool) : s.routeFor space (0xFF00 * 2 ^ 48 + p) n atomic = .ok (.ownTcm p) := by
  have hpos : 0 < n := Nat.pos_of_dvd_of_pos hn (by decide)
  have hp : p < 0xC000 := by omega
  have hbase : n ∣ 0xFF00 * 2 ^ 48 := hn.trans (by decide)
  have ha : (0xFF00 * 2 ^ 48 + p) % n = 0 := Nat.mod_eq_zero_of_dvd (Nat.dvd_add hbase (Nat.dvd_of_mod_eq_zero haligned))
  unfold State.routeFor State.routeTo
  simp only [ha, onChip_ownTcm hp, window_ownTcm hp, hspace, State.winAllowed, ne_eq, not_true_eq_false, if_false, if_true,
    Bool.not_true, Bool.or_false, Nat.not_le.2 hlocal, decide_false, Bool.false_eq_true]

section
variable {s : State} {space e p n : Nat} (h : OwnTcm s space e p n) (hn : n ∣ 16)
include h hn

/-- A load, a store or an atomic of the statement leads there. -/
theorem routeFor_ownTcm_of_dvd (atomic : Bool) : s.routeFor space e n atomic = .ok (.ownTcm p) := by
  obtain ⟨rfl, haligned, hinside, ⟨hlocal, hspace⟩, -, -, -⟩ := h
  exact routeFor_tcm hn haligned hinside hlocal hspace atomic

/-- An access to the own TCM goes on at once: nothing overlaps it, and a superstep's log finds its scratchpad free (R46, R174). -/
theorem State.access_ownTcm (op : MemOp) {rel : Bool} (hrel : Released s rel) (again : Res) (k : Route → Res) :
    s.access space e n op rel again k = k (.ownTcm p) := by
  have hroute := routeFor_ownTcm_of_dvd h hn op.isAtomic
  obtain ⟨-, -, -, -, -, ⟨hq, hun⟩, hlog⟩ := h
  have hpending : s.pending.isSome = false := by rw [pending_of_unasked hun]; rfl
  have hbusy : s.ownBusy (.ownTcm p) op = false := by
    obtain hlog | hlog := hlog <;> simp [State.ownBusy, hlog]
  have hwait : (rel && s.unreleased) = false := by
    cases rel with
    | false => rfl
    | true =>
      obtain ⟨hu, hc⟩ := hrel rfl
      exact unreleased_of_quiet ⟨hu, hc, hq⟩
  simp only [State.access, hpending, hroute, overlapsQueued_of_noQueue hq, hbusy, hwait, Bool.or_self, Bool.false_eq_true, if_false]

end

/-- What an operation on bytes without poison returns and stores. -/
theorem State.atOwn_clean {s : State} {p n : Nat} (h : s.co.tcm.poisoned p n = false) (op : MemOp) :
    s.atOwn (.ownTcm p) n op = ((op.perform (s.rdOwn p n)).2,
      (op.perform (s.rdOwn p n)).1.elim s fun w => s.wrOwnMasked p w.1 w.2) := by
  simp only [State.atOwn, h, Bool.false_and, Bool.or_self, Bool.false_eq_true, if_false]
  cases (op.perform (s.rdOwn p n)).1 <;> rfl

/-! ### Loads -/

/-- A load from the own TCM goes on at once with the bytes, at every size. -/
theorem State.loadRes_own {s : State} {space e p n : Nat} (h : OwnTcm s space e p n) (hn : n ∣ 16) (k : Nat → State → Res) :
    s.loadRes space e n k = k (leAt s.co.tcm.bytes p n) s := by
  have hown := State.atOwn_clean h.clean .read
  rw [State.loadRes, State.access_ownTcm h hn .read (released_false s)]
  simp only [hown, MemOp.perform, State.rdOwn, Option.elim_none, ofBytes_rdBytes]

/-- A load of `n` bytes writes x[d] with the value that its name makes of them (R187). -/
theorem loadsOwn_loadX (s : State) (d : BitVec 5) (space : Nat) {e e' n : Nat} {f g : Nat → Word} (hn : n ∣ 16) (he : e = e')
    (hf : ∀ v, v < 2 ^ (8 * n) → f v = g v) : LoadsOwn s d space e' n g (finish s (loadX s space e n d f)) := by
  subst he
  intro p h
  rw [loadX, State.loadRes_own h hn, hf _ (leAt_lt _ _ _), finish_ok, State.advance_eq_stepsPast]
  exact ⟨_, rfl, xWritten_setX s d _⟩

/-! ### Stores -/

/-- A store to the own TCM changes the core, and the scratchpad only where a superstep's log keeps what the bytes were (R401). -/
theorem State.wrOwn_spec (s : State) (p : Nat) (data : List Byte) : ∃ k pads, s.wrOwnMasked p data [] = { s with co := k, pads := pads } ∧
    k.tcm.bytes = wrBytes s.co.tcm.bytes p data ∧ (s.co.undo = none → pads = s.pads) := by
  obtain ⟨-, htcm⟩ := tcmStore_core s.cid (s.co, s.pad (clusterOf s.cid)) p data []
  have hbytes : (tcmStore s.cid (s.co, s.pad (clusterOf s.cid)) p data []).1.tcm.bytes = wrBytes s.co.tcm.bytes p data := by
    rw [htcm]
    exact wrMasked_whole _ _ _
  have hundo : s.co.undo = none → (tcmStore s.cid (s.co, s.pad (clusterOf s.cid)) p data []).1.undo = none := by
    intro hu
    rw [tcmStore_unlogged _ hu]
    exact hu
  simp only [State.wrOwnMasked]
  split
  · next hlogged => exact ⟨_, _, rfl, hbytes, fun hu => by rw [hundo hu] at hlogged; cases hlogged⟩
  · exact ⟨_, s.pads, rfl, hbytes, fun _ => rfl⟩

theorem State.storeRes_own {s : State} {space e p : Nat} {data : List Byte} (h : OwnTcm s space e p data.length) (hn : data.length ∣ 16)
    {rel : Bool} (hrel : Released s rel) : s.storeRes space e data [] rel = .ok (s.wrOwnMasked p data []) := by
  have hown := State.atOwn_clean h.clean (.write data [])
  rw [State.storeRes, State.access_ownTcm h hn (.write data []) hrel]
  simp only [hown]
  rfl

/-- A store writes its bytes and leaves everything else (R187). -/
theorem storesOwn_storeRes (s : State) (space : Nat) {e e' : Nat} {data data' : List Byte} (he : e = e') (hd : data = data')
    (hn : data'.length ∣ 16) {rel : Bool} (hrel : Released s rel) : StoresOwn s space e' data' (finish s (s.storeRes space e data [] rel)) := by
  subst he hd
  intro p h
  obtain ⟨k, pads, hstate, hbytes, hpads⟩ := s.wrOwn_spec p data
  rw [State.storeRes_own h hn hrel, hstate, finish_ok, State.advance_eq_stepsPast]
  refine ⟨_, rfl, ?_, fun q hq => ?_, rfl, hpads, ⟨rfl, rfl, rfl, rfl, rfl⟩, rfl, rfl, rfl, rfl, rfl⟩
  · intro i hi
    show rd8 k.tcm.bytes _ = _
    rw [hbytes, rd8_wrBytes_inside _ _ _ _ hi, List.getD_eq_getElem _ _ hi]
  · show rd8 k.tcm.bytes _ = _
    rw [hbytes, rd8_wrBytes_outside _ _ _ _ hq]

/-! ### Register pairs (R189, R194) -/

/-- A write of x[d] changes the registers of the thread alone. -/
theorem State.setX_registers (s : State) (d : BitVec 5) (w : Word) : ∃ x, s.setX d w = { s with th := { s.th with x := x } } :=
  ⟨_, congrArg (fun th : Thread => { s with th := th }) (Thread.setX_frame s.th d.toNat w)⟩

/-- A word that has changed registers alone steps past itself as it would have otherwise. -/
theorem stepsPast_registers {s u : State} {x : Vector Word 16} (h : u = { s with th := { s.th with x := x } }) :
    stepsPast u = { stepsPast s with th := { (stepsPast s).th with x := (stepsPast u).th.x } } := by
  subst h
  rfl

/-- The register after x[d] of a pair. -/
theorem toNat_nextReg {d : BitVec 5} (hd : d.toNat ≤ 14) : (nextReg d).toNat = d.toNat + 1 := by
  rw [nextReg, BitVec.toNat_add]
  show (d.toNat + 1) % 2 ^ 5 = _
  omega

/-- Two words one after the other in memory, as the number of 16 bytes that LDP reads. -/
theorem leAt_pair (m : Mem) (p : Nat) : leAt m p 16 % 2 ^ 64 = leAt m p 8 ∧ leAt m p 16 / 2 ^ 64 = leAt m (p + 8) 8 := by
  have hlow := leAt_lt m p 8
  have hsum : leAt m p 16 = leAt m p 8 + 2 ^ 64 * leAt m (p + 8) 8 := leAt_add m p 8 8
  omega

/-- LDP writes both registers and nothing else (R189). -/
theorem ldp_ownTcm {s : State} {a : BitVec 5} {off : BitVec 7} {p : Nat} (d : BitVec 5)
    (h : OwnTcm s s.src.space.toNat (ea s a off 16) p 16) : exec (.ldp d a off) s =
      .next (stepsPast ((s.setX d (BitVec.ofNat 64 (leAt s.co.tcm.bytes p 8))).setX (nextReg d)
        (BitVec.ofNat 64 (leAt s.co.tcm.bytes (p + 8) 8)))) := by
  obtain ⟨hlow, hhigh⟩ := leAt_pair s.co.tcm.bytes p
  show execLdp d a off s = _
  rw [execLdp, eaOff_eq, State.sp, State.loadRes_own h (by decide), hlow, hhigh, finish_ok, State.advance_eq_stepsPast]
  rfl

/-- STP stores both registers (R189). -/
theorem storeBytes_pair (s : State) {d : BitVec 5} (hd : d.toNat ≤ 14) :
    s.storeBytes d 8 ++ s.storeBytes (nextReg d) 8 = lowBytes (src s d) 8 ++ lowBytes (s.src.getX (d.toNat + 1)) 8 := by
  rw [← toNat_nextReg hd, ← toBytes_toNat, ← toBytes_toNat]
  rfl

end Sys2Proof.Machine

namespace Sys2Proof.Proofs

open Sys2Proof.Machine Sys2Proof.Claims

/-- Settles O16: each form by `loadsOwn_loadX` with its size and extension, LDP by its two registers. -/
theorem loadsReadTheOwnTcm : Obligations.LoadsReadTheOwnTcm := by
  intro s d a off scope hd sp zero
  refine ⟨?_, ?_, ?_, ?_, ?_, ?_, ?_, ?_, ?_, ?_, fun hpair p h => ?_⟩
  · exact loadsOwn_loadX s d sp (by decide) (eaOff_eq s a off 1) fun v => sext_eq_signed
  · exact loadsOwn_loadX s d sp (by decide) (eaOff_eq s a off 1) fun _ _ => rfl
  · exact loadsOwn_loadX s d sp (by decide) (eaOff_eq s a off 2) fun v => sext_eq_signed
  · exact loadsOwn_loadX s d sp (by decide) (eaOff_eq s a off 2) fun _ _ => rfl
  · exact loadsOwn_loadX s d sp (by decide) (eaOff_eq s a off 4) fun v => sext_eq_signed
  · exact loadsOwn_loadX s d sp (by decide) (eaOff_eq s a off 4) fun _ _ => rfl
  · exact loadsOwn_loadX s d sp (by decide) (eaOff_eq s a off 8) fun _ _ => rfl
  · exact loadsOwn_loadX s d sp (by decide) rfl fun _ _ => rfl
  · exact loadsOwn_loadX s d sp (by decide) rfl fun _ _ => rfl
  · exact loadsOwn_loadX s d _ (by decide) (eaOff_eq s a off 8) fun _ _ => rfl
  · have hnext := toNat_nextReg hpair
    refine ⟨_, ldp_ownTcm d h, ?_, ?_, fun r hr hr' => ?_, ?_⟩
    · show Thread.getX (Thread.setX _ _ _) _ = _
      rw [Thread.getX_setX_other _ _ (by omega), State.setX_th, Thread.getX_setX_same, Nat.mod_eq_of_lt hd]
    · show Thread.getX (Thread.setX _ _ _) _ = _
      rw [hnext, Thread.getX_setX_same, if_neg (by omega)]
    · show Thread.getX (Thread.setX _ _ _) _ = _
      rw [Thread.getX_setX_other _ _ (by omega), State.setX_th, Thread.getX_setX_other _ _ (by omega)]
    · obtain ⟨x, hx⟩ := s.setX_registers d (zero (leAt s.co.tcm.bytes p 8))
      obtain ⟨y, hy⟩ := State.setX_registers { s with th := { s.th with x := x } } (nextReg d) (zero (leAt s.co.tcm.bytes (p + 8) 8))
      exact stepsPast_registers ((congrArg (State.setX · _ _) hx).trans hy)

/-- Settles O17: each form by `storesOwn_storeRes` with its bytes; the releases find nothing to wait for. -/
theorem storesWriteTheOwnTcm : Obligations.StoresWriteTheOwnTcm := by
  intro s d a off scope sp x
  have plain := released_false s
  refine ⟨?_, ?_, ?_, ?_, ?_, fun hpair => ?_, fun hu hc => ⟨?_, ?_⟩⟩
  · exact storesOwn_storeRes s sp (eaOff_eq s a off 1) (toBytes_toNat x 1) (by simp) plain
  · exact storesOwn_storeRes s sp (eaOff_eq s a off 2) (toBytes_toNat x 2) (by simp) plain
  · exact storesOwn_storeRes s sp (eaOff_eq s a off 4) (toBytes_toNat x 4) (by simp) plain
  · exact storesOwn_storeRes s sp (eaOff_eq s a off 8) (toBytes_toNat x 8) (by simp) plain
  · exact storesOwn_storeRes s _ (eaOff_eq s a off 8) (toBytes_toNat x 8) (by simp) plain
  · exact storesOwn_storeRes s sp (eaOff_eq s a off 16) (storeBytes_pair s hpair) (by simp) plain
  · exact storesOwn_storeRes s sp rfl (toBytes_toNat x 4) (by simp) fun _ => ⟨hu, hc⟩
  · exact storesOwn_storeRes s sp rfl (toBytes_toNat x 8) (by simp) fun _ => ⟨hu, hc⟩

end Sys2Proof.Proofs
end

section
/-! PROOF. Atomics of the own TCM (O20, O21): what each operation performs on the bytes it finds (R193-R195), and what the word leaves. -/

namespace Sys2Proof.Machine

open Sys2Proof.Claims

/-! ### Bytes of a number (R5) -/

theorem ofBytes_lt {l : List Byte} {n : Nat} (h : l.length = n) : ofBytes l < 2 ^ (8 * n) := by
  rw [← ofBytes_mod l, h]
  exact Nat.mod_lt _ (Nat.two_pow_pos _)

theorem ofBytes_append (l l' : List Byte) : ofBytes (l ++ l') = ofBytes l + 2 ^ (8 * l.length) * ofBytes l' := by
  induction l with
  | nil => simp [ofBytes]
  | cons b l ih =>
    rw [List.cons_append, show ofBytes (b :: (l ++ l')) = b.toNat + 256 * ofBytes (l ++ l') from rfl, ih,
      show ofBytes (b :: l) = b.toNat + 256 * ofBytes l from rfl, List.length_cons, Nat.mul_succ, Nat.pow_add]
    ring

/-- Only the low bytes of a number are stored. -/
theorem toBytes_mod (n v : Nat) : toBytes n (v % 2 ^ (8 * n)) = toBytes n v := by
  have h := toBytes_ofBytes (toBytes n v)
  rwa [length_toBytes, ofBytes_toBytes] at h

/-- Two numbers of four bytes, one after the other. -/
theorem toBytes_pair (x y : Nat) : toBytes 4 x ++ toBytes 4 y = toBytes 8 (x % 2 ^ 32 + y % 2 ^ 32 * 2 ^ 32) := by
  have h := toBytes_ofBytes (toBytes 4 x ++ toBytes 4 y)
  rw [ofBytes_append, ofBytes_toBytes, ofBytes_toBytes, List.length_append, length_toBytes, length_toBytes, Nat.mul_comm (2 ^ _)] at h
  exact h.symm

/-! ### Atomics (R192) -/

/-- On the value of `n` bytes the operation stores `new`, if anything, and returns `ret`. -/
structure Performs (op : MemOp) (n : Nat) (ret : Nat → Word) (new : Nat → Option Nat) : Prop where
  perform : ∀ old : List Byte, old.length = n → ∃ r, op.perform old = ((new (ofBytes old)).map fun x => (toBytes n x, []), r) ∧
    zext64 (ofBytes r) = ret (ofBytes old)
  fits : ∀ old x, old < 2 ^ (8 * n) → new old = some x → x < 2 ^ (8 * n)

/-- An atomic on the own TCM: x[v] receives the old value, the bytes become the new one, and nothing else changes. -/
theorem atomicOwn_atomic {s : State} {v : BitVec 5} (hv : v.toNat < 16) (hu : s.th.unacked = []) (hc : s.th.cacheOps = []) (ord : BitVec 2)
    (e : Nat) {n : Nat} (hn : n ∣ 16) {op : MemOp} {ret : Nat → Word} {new : Nat → Option Nat} (hop : Performs op n ret new) :
    AtomicOwn s v e n ret new (finish s (atomic s ord s.sp e n op v)) := by
  obtain ⟨hperform, hfits⟩ := hop
  intro p h old
  change OwnTcm s s.sp e p n at h
  have hlen : (s.rdOwn p n).length = n := by simp [State.rdOwn, rdBytes]
  have hold : ofBytes (s.rdOwn p n) = old := ofBytes_rdBytes _ _ _
  obtain ⟨r, hr, hret⟩ := hperform (s.rdOwn p n) hlen
  rw [hold] at hr hret
  have hown := State.atOwn_clean h.clean op
  rw [hr] at hown
  rw [atomic, State.atomicRes, State.access_ownTcm h hn op fun _ => ⟨hu, hc⟩]
  simp only [hown, hret, finish_ok, State.advance_eq_stepsPast]
  refine ⟨_, rfl, ?_⟩
  obtain ⟨k, pads, hstate, hthis, hothers, hpads⟩ : ∃ k pads,
      (((new old).map fun x => (toBytes n x, ([] : List Bool))).elim s fun w => s.wrOwnMasked p w.1 w.2) = { s with co := k, pads := pads } ∧
      leAt k.tcm.bytes p n = (new old).getD old ∧
      (∀ q, (q < p ∨ p + n ≤ q) → rd8 k.tcm.bytes q = rd8 s.co.tcm.bytes q) ∧ (s.co.undo = none → pads = s.pads) := by
    cases hnew : new old with
    | none => exact ⟨s.co, s.pads, rfl, rfl, fun _ _ => rfl, fun _ => rfl⟩
    | some x =>
      obtain ⟨k, pads, hstate, hbytes, hpads⟩ := s.wrOwn_spec p (toBytes n x)
      refine ⟨k, pads, hstate, ?_, fun q hq => ?_, hpads⟩
      · rw [hbytes, ← ofBytes_rdBytes, ← rdN, rdN_wrBytes_same _ _ (length_toBytes n x), ofBytes_toBytes]
        exact Nat.mod_eq_of_lt (hfits old x (leAt_lt _ _ _) hnew)
      · rw [hbytes, rd8_wrBytes_outside _ _ _ _ (by rwa [length_toBytes])]
  rw [hstate]
  obtain ⟨x, hx⟩ := State.setX_registers { s with co := k, pads := pads } v (ret old)
  refine ⟨?_, fun r hr => ?_, hthis, hothers, ?_, hpads, rfl, rfl, rfl, rfl, rfl⟩
  · show (s.th.setX v.toNat (ret old)).getX v.toNat = _
    rw [Thread.getX_setX_same, Nat.mod_eq_of_lt hv]
  · show (s.th.setX v.toNat (ret old)).getX r = _
    rw [Thread.getX_setX_other _ _ (by rwa [Nat.mod_eq_of_lt hv])]
  · rw [hx]
    rfl

/-! ### The AMO operations (R193) -/

/-- The signed value of a number that fits. -/
theorem signedOf_eq_sval {w x : Nat} (hx : x < 2 ^ w) : signedOf w x = sval w x := by
  simp only [signedOf, Nat.mod_eq_of_lt hx]
  rfl

/-- Numbers that read the same as signed numbers are the same. -/
theorem eq_of_sval_eq {w x y : Nat} (hx : x < 2 ^ w) (hy : y < 2 ^ w) (h : sval w x = sval w y) : x = y := by
  have hcast : ((2 ^ w : Nat) : Int) = 2 ^ w := by push_cast; rfl
  unfold sval at h
  split at h <;> split at h <;> omega

/-- Of two numbers, the one that reads the smaller: either, where they read the same. -/
theorem ite_sval_lt {w x y : Nat} (hx : x < 2 ^ w) (hy : y < 2 ^ w) :
    (if sval w x < sval w y then x else y) = if sval w y < sval w x then y else x := by
  obtain h | h | h := lt_trichotomy (sval w x) (sval w y)
  · rw [if_pos h, if_neg (not_lt.2 h.le)]
  · rw [eq_of_sval_eq hx hy h]
  · rw [if_neg (not_lt.2 h.le), if_pos h]

/-- `f` is operation `fn` of R193 on numbers of `w` bits. -/
def AmoIs (fn : Nat) (f : Nat → Nat → Nat → Nat) : Prop :=
  ∀ w x y, x < 2 ^ w → y < 2 ^ w → amoNew fn w x y = f w x y ∧ f w x y < 2 ^ w

/-- What an atomic returns is the old value (R193-R195), -/
theorem zext64_toBytes (v : Nat) : zext64 (ofBytes (toBytes 8 v)) = BitVec.ofNat 64 v := by
  rw [ofBytes_toBytes]
  exact BitVec.eq_of_toNat_eq (by simp [zext64])

/-- or, at 32 bits, the old value sign-extended. -/
theorem zext64_sext32 {v : Nat} (h : v < 2 ^ 32) : zext64 (ofBytes (toBytes 8 (sext32 v))) = signed 32 v := by
  rw [zext64_toBytes, sext32, word_ofNat_toNat, sext_eq_signed h]

theorem performs_amo_wide {fn : Nat} {f : Nat → Nat → Nat → Nat} (hf : AmoIs fn f) (a : Word) :
    Performs (.amo fn true a) 8 (BitVec.ofNat 64) fun old => some (f 64 old a.toNat) where
  perform old hold := by
    obtain ⟨hfn, -⟩ := hf 64 (ofBytes old) a.toNat (ofBytes_lt hold) a.isLt
    exact ⟨toBytes 8 (ofBytes old), by rw [← hfn]; rfl, zext64_toBytes _⟩
  fits old x hold hx := by
    obtain rfl := Option.some.inj hx
    exact (hf 64 old a.toNat hold a.isLt).2

theorem performs_amo_narrow {fn : Nat} {f : Nat → Nat → Nat → Nat} (hf : AmoIs fn f) (a : Word) :
    Performs (.amo fn false a) 4 (signed 32) fun old => some (f 32 old (a.toNat % 2 ^ 32)) where
  perform old hold := by
    have hlt : ofBytes old < 2 ^ 32 := ofBytes_lt hold
    obtain ⟨hfn, -⟩ := hf 32 (ofBytes old) (a.toNat % 2 ^ 32) hlt (Nat.mod_lt _ (by decide))
    exact ⟨toBytes 8 (sext32 (ofBytes old)), by rw [← hfn]; rfl, zext64_sext32 hlt⟩
  fits old x hold hx := by
    obtain rfl := Option.some.inj hx
    exact (hf 32 old _ hold (Nat.mod_lt _ (by decide))).2

/-- Both widths of an AMO word. -/
theorem amoOwn_amo {s : State} {v a : BitVec 5} (hv : v.toNat < 16) (hu : s.th.unacked = []) (hc : s.th.cacheOps = []) (ord : BitVec 2)
    {i : BitVec 1 → Instr} {fn : Nat} {f : Nat → Nat → Nat → Nat} (hi : ∀ w, exec (i w) s = amo fn v a w ord s) (hf : AmoIs fn f) :
    AmoOwn s v a i f := by
  rw [AmoOwn, hi, hi]
  exact ⟨atomicOwn_atomic hv hu hc ord _ (by decide) (performs_amo_narrow hf (s.x v)),
    atomicOwn_atomic hv hu hc ord _ (by decide) (performs_amo_wide hf (s.x v))⟩

theorem amoIs_min : AmoIs 4 fun w x y => if sval w y < sval w x then y else x := by
  intro w x y hx hy
  refine ⟨?_, by dsimp only; split <;> assumption⟩
  simp only [amoNew, signedOf_eq_sval hx, signedOf_eq_sval hy, ite_sval_lt hx hy]

theorem amoIs_max : AmoIs 5 fun w x y => if sval w x < sval w y then y else x := by
  intro w x y hx hy
  refine ⟨?_, by dsimp only; split <;> assumption⟩
  simp only [amoNew, signedOf_eq_sval hx, signedOf_eq_sval hy]

/-! ### CAS and AMOF (R194, R195) -/

theorem performs_cas_narrow (e n : Word) : Performs (.cas false e n) 4 (signed 32) fun old =>
    if old = e.toNat % 2 ^ 32 then some (n.toNat % 2 ^ 32) else none where
  perform old hold := by
    refine ⟨toBytes 8 (sext32 (ofBytes old)), ?_, zext64_sext32 (ofBytes_lt hold)⟩
    rw [MemOp.perform, apply_ite (Option.map _), Option.map_some, Option.map_none, toBytes_mod 4]
  fits old x hold hx := by
    obtain ⟨-, ⟨⟩⟩ := Option.ite_none_right_eq_some.1 hx
    exact Nat.mod_lt _ (by decide)

theorem performs_cas_wide (e n : Word) : Performs (.cas true e n) 8 (BitVec.ofNat 64) fun old =>
    if old = e.toNat then some n.toNat else none where
  perform old hold := by
    refine ⟨toBytes 8 (ofBytes old), ?_, zext64_toBytes _⟩
    rw [MemOp.perform, apply_ite (Option.map _), Option.map_some, Option.map_none]
  fits old x hold hx := by
    obtain ⟨-, ⟨⟩⟩ := Option.ite_none_right_eq_some.1 hx
    exact n.isLt

theorem performs_amof_one (fn : Nat) (a : Word) : Performs (.amof fn false a) 4 (BitVec.ofNat 64) fun old =>
    some (amofLane fn old (a.toNat % 2 ^ 32) % 2 ^ 32) where
  perform old hold := ⟨toBytes 8 (ofBytes old), by rw [MemOp.perform, Option.map_some, bits_zero, toBytes_mod 4], zext64_toBytes _⟩
  fits old x hold hx := by
    obtain rfl := Option.some.inj hx
    exact Nat.mod_lt _ (by decide)

theorem performs_amof_two (fn : Nat) (a : Word) : Performs (.amof fn true a) 8 (BitVec.ofNat 64) fun old =>
    some (amofLane fn (old % 2 ^ 32) (a.toNat % 2 ^ 32) % 2 ^ 32 +
      amofLane fn (old / 2 ^ 32) (a.toNat / 2 ^ 32) % 2 ^ 32 * 2 ^ 32) where
  perform old hold := by
    have hlt : ofBytes old < 2 ^ 64 := ofBytes_lt hold
    have hhigh : ∀ v, v < 2 ^ 64 → bits v 32 32 = v / 2 ^ 32 := fun v hv => Nat.mod_eq_of_lt (by omega)
    refine ⟨toBytes 8 (ofBytes old), ?_, zext64_toBytes _⟩
    rw [MemOp.perform, Option.map_some, bits_zero, bits_zero, hhigh _ hlt, hhigh _ a.isLt, toBytes_pair]
  fits old x hold hx := by
    obtain rfl := Option.some.inj hx
    omega

end Sys2Proof.Machine

namespace Sys2Proof.Proofs

open Sys2Proof.Machine Sys2Proof.Claims

/-- Settles O20: each operation is its row of R193; the fence finds nothing to wait for. -/
theorem atomicsReadModifyWrite : Obligations.AtomicsReadModifyWrite := by
  intro s v a ord scope hv hu hc
  have runs : ∀ {i : BitVec 1 → Instr} {fn : Nat} {f : Nat → Nat → Nat → Nat}, (∀ w, exec (i w) s = amo fn v a w ord s) → AmoIs fn f →
      AmoOwn s v a i f := fun hi hf => amoOwn_amo hv hu hc ord hi hf
  refine ⟨?add, ?and, fun _ => ?or, ?xor, ?min, ?max, ?minu, ?maxu, ?swp, fun hq w => ?fence⟩
  case add => exact runs (fun _ => rfl) fun w x y _ _ => ⟨rfl, Nat.mod_lt _ (Nat.two_pow_pos w)⟩
  case and => exact runs (fun _ => rfl) fun w x y _ hy => ⟨rfl, Nat.and_lt_two_pow _ hy⟩
  case or => exact runs (fun _ => rfl) fun w x y hx hy => ⟨rfl, Nat.or_lt_two_pow hx hy⟩
  case xor => exact runs (fun _ => rfl) fun w x y hx hy => ⟨rfl, Nat.xor_lt_two_pow hx hy⟩
  case min => exact runs (fun _ => rfl) amoIs_min
  case max => exact runs (fun _ => rfl) amoIs_max
  case minu => exact runs (fun _ => rfl) fun w x y hx _ => ⟨rfl, (min_le_left x y).trans_lt hx⟩
  case maxu => exact runs (fun _ => rfl) fun w x y hx hy => ⟨rfl, max_lt hx hy⟩
  case swp => exact runs (fun _ => rfl) fun w x y _ hy => ⟨rfl, hy⟩
  case fence =>
    show execAmoorFence a w ord scope s = _
    rw [execAmoorFence, release_of_quiet ⟨hu, hc, hq⟩, ite_self, finish_ok, State.advance_eq_stepsPast]

/-- Settles O21: each width and operation by what it performs on the bytes it finds. -/
theorem compareAndSwapAndFloatAtomics : Obligations.CompareAndSwapAndFloatAtomics := by
  refine ⟨?cas, ?amof⟩
  case cas =>
    intro s v a ord scope hv hu hc e expect new
    have hnew : (s.x (nextReg v)).toNat = new := congrArg (fun r => (s.src.getX r).toNat) (toNat_nextReg hv)
    refine ⟨?_, ?_⟩
    · exact hnew ▸ atomicOwn_atomic (by omega) hu hc ord e (by decide) (performs_cas_narrow (s.x v) (s.x (nextReg v)))
    · exact hnew ▸ atomicOwn_atomic (by omega) hu hc ord e (by decide) (performs_cas_wide (s.x v) (s.x (nextReg v)))
  case amof =>
    intro s v a ord scope hv hu hc y e one two add least most
    have hone : ∀ fn, AtomicOwn s v e 4 (BitVec.ofNat 64) (fun old => some (amofLane fn old (y % 2 ^ 32) % 2 ^ 32))
        (amof fn v a 0 ord s) := fun fn => atomicOwn_atomic hv hu hc ord e (by decide) (performs_amof_one fn (s.x v))
    have htwo : ∀ fn, AtomicOwn s v e 8 (BitVec.ofNat 64) (fun old => some (amofLane fn (old % 2 ^ 32) (y % 2 ^ 32) % 2 ^ 32 +
        amofLane fn (old / 2 ^ 32) (y / 2 ^ 32) % 2 ^ 32 * 2 ^ 32)) (amof fn v a 1 ord s) := fun fn =>
      atomicOwn_atomic hv hu hc ord e (by decide) (performs_amof_two fn (s.x v))
    exact ⟨hone 0, htwo 0, hone 1, htwo 1, hone 2, htwo 2⟩

end Sys2Proof.Proofs
end

section
/-! PROOF. The checks of an access (O18): alignment, the on-chip windows, the spaces of the thread and the path to DRAM (R159, R186, R206),
for scalar and vector words. -/

namespace Sys2Proof.Machine

open Sys2Proof.Claims

/-! ### What the checks of R186 refuse -/

theorem routeFor_misaligned (s : State) (sp : Nat) {ea n : Nat} (h : ea % n ≠ 0) (atomic : Bool) :
    s.routeFor sp ea n atomic = .error (dataMisaligned, BitVec.ofNat 64 ea) := if_pos h

theorem routeFor_aligned (s : State) (sp : Nat) {ea n : Nat} (h : ea % n = 0) (atomic : Bool) :
    s.routeFor sp ea n atomic = s.routeTo sp ea atomic := if_neg (not_not.2 h)

/-- The windows are the offsets whose top byte is 0xFF (R158). -/
theorem onChip_iff {ea : Nat} (h : ea < 2 ^ 64) : onChip ea = true ↔ ea / 2 ^ 56 = 0xFF := by
  rw [onChip, beq_iff_eq, bits, Nat.mod_eq_of_lt (by omega)]

theorem onChip_eq_false {ea : Nat} (h : ea < 2 ^ 64) (ht : ea / 2 ^ 56 ≠ 0xFF) : onChip ea = false :=
  Bool.eq_false_iff.2 fun hc => ht ((onChip_iff h).1 hc)

/-- An own-TCM address under a space that the thread may not use. -/
theorem routeTo_ownTcm_space {s : State} {sp p : Nat} (hp : p < 0xC000) (hlocal : sp < 0xFF00) (hspace : s.spaceOk sp s.src.tenant = false)
    (atomic : Bool) : s.routeTo sp (0xFF00 * 2 ^ 48 + p) atomic = .error (spaceInvalid, BitVec.ofNat 64 sp) := by
  simp only [State.routeTo, onChip_ownTcm hp, window_ownTcm hp, hspace, State.winAllowed, Nat.not_le.2 hlocal, if_true, if_false,
    Bool.not_true, Bool.not_false, Bool.or_self, decide_false, Bool.false_eq_true]

theorem routeTo_noWindow {ea : Nat} (hc : onChip ea = true) (hw : window ea = none) (s : State) (sp : Nat) (atomic : Bool) :
    s.routeTo sp ea atomic = .error (onchipRange, BitVec.ofNat 64 ea) := by
  simp only [State.routeTo, hc, hw, if_true]

theorem routeTo_space {s : State} {sp ea : Nat} (hc : onChip ea = false) (hspace : s.spaceOk sp s.src.tenant = false) (atomic : Bool) :
    s.routeTo sp ea atomic = .error (spaceInvalid, BitVec.ofNat 64 sp) := by
  simp only [State.routeTo, hc, hspace, Bool.not_false, if_true, if_false, Bool.false_eq_true]

theorem noDram_iff (s : State) : s.noDram = true ↔ inReflexArray s.cid = true ∨ s.co.staked ≠ none := by
  rw [State.noDram, Bool.or_eq_true, Option.isSome_iff_ne_none]

theorem noDram_eq_false {s : State} (ha : inReflexArray s.cid = false) (hs : s.co.staked = none) : s.noDram = false := by
  simp [State.noDram, ha, hs]

theorem routeTo_noDram {s : State} {sp ea : Nat} (hc : onChip ea = false) (hspace : s.spaceOk sp s.src.tenant = true)
    (hd : s.noDram = true) (atomic : Bool) : s.routeTo sp ea atomic = .error (reflexDramAccess, BitVec.ofNat 64 ea) := by
  simp only [State.routeTo, hc, hspace, hd, Bool.not_true, if_true, if_false, Bool.false_eq_true]

/-! ### Words whose access is refused -/

section
variable {s : State} (h : Unasked s) {sp ea n c : Nat} {w : Word}
include h

theorem State.access_refused {op : MemOp} (hr : s.routeFor sp ea n op.isAtomic = .error (c, w)) (rel : Bool) (again : Res)
    (k : Route → Res) : s.access sp ea n op rel again k = trapR c w := by
  have hpending : s.pending.isSome = false := by rw [pending_of_unasked h]; rfl
  simp only [State.access, hpending, hr, Bool.false_eq_true, if_false]

theorem traps_loadRes (hr : s.routeFor sp ea n false = .error (c, w)) (k : Nat → State → Res) :
    Traps s c w (trapAddress s) (finish s (s.loadRes sp ea n k)) := by
  rw [State.loadRes, State.access_refused h (op := .read) hr]
  exact traps_trapR s c w

theorem traps_storeRes {data : List Byte} (hr : s.routeFor sp ea data.length false = .error (c, w)) (rel : Bool) :
    Traps s c w (trapAddress s) (finish s (s.storeRes sp ea data [] rel)) := by
  rw [State.storeRes, State.access_refused h (op := .write data []) hr]
  exact traps_trapR s c w

theorem traps_atomicRes {op : MemOp} (hr : s.routeFor sp ea n op.isAtomic = .error (c, w)) (rel : Bool) (k : Nat → State → Res) :
    Traps s c w (trapAddress s) (finish s (s.atomicRes sp ea n op rel k)) := by
  rw [State.atomicRes, State.access_refused h hr]
  exact traps_trapR s c w

end

/-! ### Vector words (R191, R242) -/

/-- A vector word without streams that reads and writes registers below v28 passes the checks that every vector word makes. -/
theorem State.vecChecked_unbound {s : State} (hs : s.src.streams = []) {i : Instr} (legal : vLegal i s.src.vconf = true)
    (hr : ∀ n ∈ vReads i, n < 28) (hw : ∀ n ∈ vWrite i, n < 28) (k : State → Res) : s.vecChecked i k = k s := by
  have hnone : (vReads i ++ (vWrite i).toList).filter (28 ≤ ·) = [] := by
    rw [List.filter_eq_nil_iff]
    intro n hn
    rw [List.mem_append, Option.mem_toList] at hn
    simpa using hn.elim (hr n) (hw n)
  have hlink : s.linkFault? i = none := by simp [State.linkFault?, hnone]
  have hstream : s.streamBad i (s.reps i) = .none := by simp [State.streamBad, Thread.stream?, hs]
  simp only [State.vecChecked, legal, Bool.not_true, Bool.false_eq_true, if_false, hlink, hstream, ite_self]

/-- A vector load or store with plain registers whose first address is refused. -/
theorem traps_vecMem {s : State} (h : Unasked s) (hs : s.src.streams = []) {i : Instr} (legal : vLegal i s.src.vconf = true)
    (hr : ∀ n ∈ vReads i, n < 28) (hw : ∀ n ∈ vWrite i, n < 28) {ea n c : Nat} {w : Word} {l : List Nat}
    (hroute : s.routeFor s.sp ea n false = .error (c, w)) (store : Bool) (ops : List Word) (upd : State → State) :
    Traps s c w (trapAddress s) (vecMem i store (ea :: l) n ops upd s) := by
  have hpending : s.pending.isSome = false := by rw [pending_of_unasked h]; rfl
  have hroutes : s.routesOk s.sp n (ea :: l) = .error (c, w) := by rw [State.routesOk, hroute]
  have htrap : vecMem i store (ea :: l) n ops upd s = finish s (trapR c w) := by
    unfold vecMem
    simp only [hpending, Bool.false_eq_true, if_false, State.vecChecked_unbound hs legal hr hw, hroutes]
    cases hv : vWrite i with
    | none => rfl
    | some v => simp [Thread.stream?, hs]
  rw [htrap]
  exact traps_trapR s c w

theorem elemBytes_cases (vc : Word) : elemBytes vc = 1 ∨ elemBytes vc = 2 ∨ elemBytes vc = 4 ∨ elemBytes vc = 8 := by
  unfold elemBytes laneBits
  split <;> simp

/-- The first element of a strided access lies at its base. -/
theorem State.strided_cons (s : State) (a b : BitVec 5) : ∃ l, s.strided a b = (s.x a).toNat :: l := by
  obtain ⟨m, hm⟩ : ∃ m, 16 / elemBytes s.src.vconf = m + 1 := by
    obtain h | h | h | h := elemBytes_cases s.src.vconf <;> rw [h] <;> exact ⟨_, rfl⟩
  refine ⟨((List.range m).map Nat.succ).map fun i => (s.x a + BitVec.ofNat 64 i * s.x b).toNat, ?_⟩
  rw [State.strided, hm, List.range_succ_eq_map, List.map_cons]
  simp only [BitVec.zero_mul, BitVec.add_zero]

/-- Bytes of an element, as the statement lists them (R109). -/
theorem elemBytes_eq {vc : Word} (h : vc.toNat % 8 ≠ 7) :
    (match vc.toNat % 8 with | 0 => 1 | 1 => 2 | 2 => 4 | 3 => 8 | 6 => 4 | _ => 2) = elemBytes vc := by
  have hlt : vc.toNat % 8 < 8 := Nat.mod_lt _ (by decide)
  unfold elemBytes vtype
  generalize vc.toNat % 8 = ty at h hlt
  obtain rfl | rfl | rfl | rfl | rfl | rfl | rfl : ty = 0 ∨ ty = 1 ∨ ty = 2 ∨ ty = 3 ∨ ty = 4 ∨ ty = 5 ∨ ty = 6 := by omega
  all_goals rfl

end Sys2Proof.Machine

namespace Sys2Proof.Proofs

open Sys2Proof.Machine Sys2Proof.Claims

section
variable {s : State} (h : Unasked s) {d b : BitVec 5} (hp : PlainVector s d b) {c : Nat} {w : Word} (a : BitVec 5) (off : BitVec 7)
include h hp

theorem traps_vld (hr : s.routeFor s.sp (s.eaOff a off 16) 16 false = .error (c, w)) :
    Traps s c w (trapAddress s) (exec (.vld d a off) s) := by
  obtain ⟨hs, hd, -, -⟩ := hp
  exact traps_vecMem h hs (i := .vld d a off) rfl (fun n hn => nomatch hn) (by simpa [vWrite] using hd) hr _ _ _

theorem traps_vst (hr : s.routeFor s.sp (s.eaOff a off 16) 16 false = .error (c, w)) :
    Traps s c w (trapAddress s) (exec (.vst d a off) s) := by
  obtain ⟨hs, hd, -, -⟩ := hp
  exact traps_vecMem h hs (i := .vst d a off) rfl (by simpa [vReads] using hd) (fun n hn => nomatch hn) hr _ _ _

theorem traps_vstm (hr : s.routeFor s.sp (s.x a).toNat 16 false = .error (c, w)) :
    Traps s c w (trapAddress s) (exec (.vstm d a b) s) := by
  obtain ⟨hs, hd, hb, -⟩ := hp
  exact traps_vecMem h hs (i := .vstm d a b) rfl (by simpa [vReads] using ⟨hb, hd⟩) (fun n hn => nomatch hn) hr _ _ _

theorem traps_vldb (hr : s.routeFor s.sp (s.eaOff a off (elemBytes s.src.vconf)) (elemBytes s.src.vconf) false = .error (c, w)) :
    Traps s c w (trapAddress s) (exec (.vldb d a off) s) := by
  obtain ⟨hs, hd, -, hty⟩ := hp
  exact traps_vecMem h hs (i := .vldb d a off) (bne_iff_ne.2 hty) (fun n hn => nomatch hn) (by simpa [vWrite] using hd) hr _ _ _

variable (hr : s.routeFor s.sp (s.x a).toNat (elemBytes s.src.vconf) false = .error (c, w))
include hr

theorem traps_vlds : Traps s c w (trapAddress s) (exec (.vlds d a b) s) := by
  obtain ⟨hs, hd, -, hty⟩ := hp
  obtain ⟨l, hl⟩ := s.strided_cons a b
  show Traps _ _ _ _ (vecMem _ _ (s.strided a b) _ _ _ s)
  rw [hl]
  exact traps_vecMem h hs (i := .vlds d a b) (bne_iff_ne.2 hty) (fun n hn => nomatch hn) (by simpa [vWrite] using hd) hr _ _ _

theorem traps_vldsPi : Traps s c w (trapAddress s) (exec (.vldsPi d a b) s) := by
  obtain ⟨hs, hd, -, hty⟩ := hp
  obtain ⟨l, hl⟩ := s.strided_cons a b
  show Traps _ _ _ _ (vecMem _ _ (s.strided a b) _ _ _ s)
  rw [hl]
  exact traps_vecMem h hs (i := .vldsPi d a b) (bne_iff_ne.2 hty) (fun n hn => nomatch hn) (by simpa [vWrite] using hd) hr _ _ _

end

/-- The scalar forms of the statement, with their addresses and sizes, -/
def scalarForms (s : State) (d a v : BitVec 5) (off : BitVec 7) (ord : BitVec 2) (scope : BitVec 3) : List (Nat × Nat × Instr) :=
  [(ea s a off 8, 8, .ld64 d a off), (ea s a off 8, 8, .st64 d a off), ((src s a).toNat, 8, .amoadd v a 1 ord scope),
    ((src s a).toNat, 8, .cas64 v a ord scope), ((src s a).toNat, 4, .amofadd v a 0 ord scope)]

/-- and its vector forms. -/
def vectorForms (s : State) (d a : BitVec 5) (off : BitVec 7) : List (Nat × Nat × Instr) :=
  [(ea s a off 16, 16, .vld d a off), (ea s a off 16, 16, .vst d a off)]

section
variable {s : State} {d a v : BitVec 5} {off : BitVec 7} {ord : BitVec 2} {scope : BitVec 3} {form : Nat × Nat × Instr}
  (hform : form ∈ scalarForms s d a v off ord scope ∨ form ∈ vectorForms s d a off ∧ PlainVector s d d)
include hform

theorem form_bounds : form.1 < 2 ^ 64 ∧ 0 < form.2.1 := by
  simp only [scalarForms, vectorForms, List.mem_cons, List.not_mem_nil, or_false] at hform
  obtain (rfl | rfl | rfl | rfl | rfl) | ⟨rfl | rfl, -⟩ := hform <;> exact ⟨BitVec.isLt _, Nat.succ_pos _⟩

/-- A form traps as the checks of its address refuse it. -/
theorem traps_form (h : Unasked s) {c : Nat} {w : Word} (hr : ∀ atomic, s.routeFor s.sp form.1 form.2.1 atomic = .error (c, w)) :
    Traps s c w (trapAddress s) (exec form.2.2 s) := by
  rw [scalarForms, vectorForms, ← funext (eaOff_eq s a off)] at hform
  simp only [List.mem_cons, List.not_mem_nil, or_false] at hform
  obtain (rfl | rfl | rfl | rfl | rfl) | ⟨rfl | rfl, hplain⟩ := hform
  · exact traps_loadRes h (hr false) _
  · exact traps_storeRes h ((congrArg (s.routeFor _ _ · _) (length_toBytes _ _)).trans (hr false)) _
  · exact traps_atomicRes h (hr _) _ _
  · exact traps_atomicRes h (hr _) _ _
  · exact traps_atomicRes h (hr _) _ _
  · exact traps_vld h hplain a off (hr false)
  · exact traps_vst h hplain a off (hr false)

end

/-- Settles O18: what the checks refuse (`routeFor_misaligned` and the lemmas on `routeTo`) traps in every form of access. -/
theorem accessAddressesAreChecked : Obligations.AccessAddressesAreChecked := by
  refine ⟨?misaligned, ?address⟩
  case misaligned =>
    intro s d a off scope v ord traps r
    rw [← funext (eaOff_eq s a off)]
    have load : ∀ (sp e n : Nat) (k : Nat → State → Res), Unasked s → e % n ≠ 0 →
        Traps s 0x04 (BitVec.ofNat 64 e) (trapAddress s) (finish s (s.loadRes sp e n k)) :=
      fun sp e n k h he => traps_loadRes h (routeFor_misaligned s sp he false) k
    have store : ∀ (sp e n : Nat) (data : List Byte) (rel : Bool), data.length = n → Unasked s → e % n ≠ 0 →
        Traps s 0x04 (BitVec.ofNat 64 e) (trapAddress s) (finish s (s.storeRes sp e data [] rel)) :=
      fun sp e n data rel hn h he => traps_storeRes h (routeFor_misaligned s sp (by rwa [hn]) false) rel
    have atomics : ∀ (e n : Nat) (op : MemOp) (r : BitVec 5), Unasked s → e % n ≠ 0 →
        Traps s 0x04 (BitVec.ofNat 64 e) (trapAddress s) (finish s (atomic s ord s.sp e n op r)) :=
      fun e n op r h he => traps_atomicRes h (routeFor_misaligned s _ he _) _ _
    refine ⟨load _ _ 2 _, load _ _ 2 _, load _ _ 4 _, load _ _ 4 _, load _ _ 8 _, load _ _ 8 _, load _ _ 16 _,
      store _ _ 2 _ _ (by simp [State.storeBytes]), store _ _ 4 _ _ (by simp [State.storeBytes]),
      store _ _ 8 _ _ (by simp [State.storeBytes]), store _ _ 8 _ _ (by simp [State.storeBytes]),
      store _ _ 16 _ _ (by simp [State.storeBytes]), load _ _ 4 _, load _ _ 8 _,
      store _ _ 4 _ _ (by simp [State.storeBytes]), store _ _ 8 _ _ (by simp [State.storeBytes]), fun i hi => ?_,
      atomics _ 4 _ _, atomics _ 8 _ _, fun hp => ?_⟩
    · simp only [List.mem_cons, List.not_mem_nil, or_false] at hi
      obtain rfl | rfl | rfl | rfl | rfl | rfl | rfl | rfl | rfl | rfl | rfl | rfl := hi <;> exact ⟨atomics _ 4 _ _, atomics _ 8 _ _⟩
    · intro n
      obtain ⟨-, -, -, hty⟩ := id hp
      have hn : n = elemBytes s.src.vconf := elemBytes_eq hty
      clear_value n
      subst hn
      have misaligned : ∀ {e n : Nat}, e % n ≠ 0 → s.routeFor s.sp e n false = .error (0x04, BitVec.ofNat 64 e) :=
        fun he => routeFor_misaligned s _ he false
      refine ⟨fun h he => ?vld, fun h he => ?vst, fun h he => ?vstm, fun h he => ?vldb, fun h he => ?vlds, fun h he => ?vldsPi⟩
      case vld => exact traps_vld h hp a off (misaligned he)
      case vst => exact traps_vst h hp a off (misaligned he)
      case vstm => exact traps_vstm h hp a (misaligned he)
      case vldb => exact traps_vldb h hp a off (misaligned he)
      case vlds => exact traps_vlds h hp a (misaligned he)
      case vldsPi => exact traps_vldsPi h hp a (misaligned he)
  case address =>
    intro s d a v off ord scope form forms vectors hform e o haligned h
    have hrefused : ∀ {c : Nat} {w : Word}, (∀ atomic, s.routeTo s.sp e atomic = .error (c, w)) → Traps s c w (trapAddress s) o := by
      intro c w hr
      have route : ∀ atomic, s.routeFor s.sp e form.2.1 atomic = .error (c, w) := fun atomic =>
        (routeFor_aligned s s.sp haligned atomic).trans (hr atomic)
      exact traps_form hform h route
    obtain ⟨hlt, hpos⟩ : e < 2 ^ 64 ∧ 0 < form.2.1 := form_bounds hform
    refine ⟨fun p hp hin hlocal hspace => ?space, fun hc hw => ?window, fun hc hspace => ?virtual, fun hc hspace hd => ?dram⟩
    case space => exact hrefused fun atomic => hp ▸ routeTo_ownTcm_space (by omega) hlocal hspace atomic
    case window => exact hrefused fun atomic => routeTo_noWindow ((onChip_iff hlt).2 hc) hw s _ atomic
    case virtual => exact hrefused fun atomic => routeTo_space (onChip_eq_false hlt hc) hspace atomic
    case dram => exact hrefused fun atomic => routeTo_noDram (onChip_eq_false hlt hc) hspace ((noDram_iff s).2 hd) atomic

end Sys2Proof.Proofs
end

section
/-! PROOF. Loads of translated addresses (O19): what is asked of a home slice, and a word whose answer has come (R163, R168, R169, R174). -/

namespace Sys2Proof.Machine

open Sys2Proof.Claims

/-! ### What a word asks, and its answer (R169) -/

theorem holdsBack_of_room {s : State} (hu : s.th.unacked = []) (hr : Room s) : s.holdsBack = false := by
  have hroom : s.co.egressRoom s.now 1 = true := decide_eq_true (Nat.succ_le_of_lt hr)
  simp [State.holdsBack, hu, hroom]

theorem egressRoom_of_room {s : State} (hr : Room s) : s.co.egressRoom s.now 1 = true := decide_eq_true (Nat.succ_le_of_lt hr)

/-- The state in which a word sends its request: with a fresh number, under which it waits. -/
def State.asking (s : State) : State :=
  { s with nextId := s.nextId + 1, th := { s.th with pend := ⟨s.widx, s.nextId, none⟩ :: s.th.pend } }

theorem State.request_sends {s : State} (hp : Unasked s) (hb : s.holdsBack = false) (sp : Nat) (op : MemOp) (n : Nat) (todo : List Nat)
    (r : Route) (k : Nat → State → Res) : s.request sp op n todo r k =
      .wait (s.asking.sendAcc s.nextId (s.asking.newAcc (.word s.widx) sp op n todo) r) := by
  have hpending := pending_of_unasked hp
  simp only [State.request, hpending, hb, Bool.and_false, Bool.false_eq_true, if_false, ask]
  rfl

/-- The word whose answer has come goes on with it. -/
theorem State.request_answered {s : State} {w id v : Nat} (hp : s.pending = some ⟨w, id, some (.value v)⟩) (sp : Nat) (op : MemOp) (n : Nat)
    (todo : List Nat) (r : Route) (k : Nat → State → Res) : s.request sp op n todo r k = k v s.dropPending := by
  simp only [State.request, hp, Option.isNone_some, Bool.false_and, Bool.false_eq_true, if_false, ask]
  rfl

/-- The one request of a word 0, or of a bundle that acts as one unit. -/
theorem pending_of_word0 {s : State} (hf : s.form ≠ .par1) {id : Nat} {r : Option Reply} (hp : s.th.pend = [⟨0, id, r⟩]) :
    s.pending = some ⟨0, id, r⟩ := by
  have hw : s.widx = 0 := if_neg (by simpa using hf)
  simp [State.pending, hp, hw]

theorem dropPending_of_word0 {s : State} (hf : s.form ≠ .par1) {id : Nat} {r : Option Reply} (hp : s.th.pend = [⟨0, id, r⟩]) :
    s.dropPending = { s with th := { s.th with pend := [] } } := by
  have hw : s.widx = 0 := if_neg (by simpa using hf)
  simp [State.dropPending, hp, hw]

/-- A request that stores nothing is not compared: it leaves through the egress buffer for the home of its first place. -/
theorem State.sendAcc_virt {s : State} {a : Acc} (ha : a.op = .read ∨ ∃ w, a.op = .probe w) (id : Nat) :
    s.sendAcc id a .virt = ({ s with accs := mset s.accs id a } : State).emitOwn 1
      (({ s with accs := mset s.accs id a } : State).leg .virt a.space (a.todo.headD 0)) (.sliceRequest id) := by
  obtain h | ⟨w, h⟩ := ha <;> simp only [State.sendAcc, h, Bool.and_false, Bool.false_eq_true, if_false]

/-! ### Translated addresses (R186) -/

/-- The checks of R186 send a translated address of a space of the thread to its home, but for an atomic under a host window. -/
theorem routeTo_virt {s : State} {sp ea : Nat} (hc : onChip ea = false) (hspace : s.spaceOk sp s.src.tenant = true)
    (hd : s.noDram = false) : s.routeTo sp ea false = .ok .virt := by
  simp only [State.routeTo, hc, hspace, hd, Bool.not_true, Bool.and_false, Bool.false_eq_true, if_false]

theorem State.access_virt {s : State} (hp : Unasked s) (hq : NoQueue s) {sp ea n : Nat} {op : MemOp} (hr : s.routeFor sp ea n op.isAtomic = .ok .virt)
    (again : Res) (k : Route → Res) : s.access sp ea n op false again k = k .virt := by
  have hpending : s.pending.isSome = false := by rw [pending_of_unasked hp]; rfl
  simp only [State.access, hpending, hr, overlapsQueued_of_noQueue hq, State.ownBusy, Bool.false_and, Bool.and_false, Bool.or_self,
    Bool.false_eq_true, if_false]

theorem State.access_again {s : State} {p : Pend} (hp : s.pending = some p) (sp ea n : Nat) (op : MemOp) (rel : Bool) (again : Res)
    (k : Route → Res) : s.access sp ea n op rel again k = again := by
  simp only [State.access, hp, Option.isSome_some, if_true]

end Sys2Proof.Machine

namespace Sys2Proof.Proofs

open Sys2Proof.Machine Sys2Proof.Claims

/-- Settles O19: a load that misses the L0 cache is asked (`State.request_sends`), and goes on with its answer (`State.request_answered`). -/
theorem translatedLoadsWaitForTheirValue : Obligations.TranslatedLoadsWaitForTheirValue := by
  intro s d a off hd e haligned htop hspace hreflex hstaked hq hl0 hu hroom hform
  have hea : s.eaOff a off 8 = e := eaOff_eq s a off 8
  have hc : onChip e = false := onChip_eq_false (BitVec.isLt _) htop
  have hroute : s.routeFor s.sp e 8 MemOp.read.isAtomic = .ok .virt :=
    (routeFor_aligned s s.sp haligned _).trans (routeTo_virt hc hspace (noDram_eq_false hreflex hstaked))
  have hexec : exec (.ld64 d a off) s = finish s (loadX s s.sp e 8 d zext64) := hea ▸ rfl
  rw [hexec, loadX, State.loadRes]
  refine ⟨fun hp => ?asks, fun id v hp => ?goesOn⟩
  case asks =>
    have hw : s.widx = 0 := if_neg (by simpa using hform)
    change s.l0Line s.sp e = none at hl0
    rw [State.access_virt hp hq hroute]
    simp only [hl0]
    rw [State.request_sends hp (holdsBack_of_room hu hroom), State.sendAcc_virt (.inl rfl), finish_wait]
    refine ⟨_, rfl, rfl, ?_, rfl, rfl, ⟨_, (State.mem_post _ _ _ _).2 (.inl rfl)⟩, _, mget_mset_same _ _ _, rfl, rfl, rfl, rfl, rfl⟩
    show (⟨s.widx, s.nextId, none⟩ :: s.th.pend : List Pend) = _
    rw [hw, hp]
  case goesOn =>
    have hpend := pending_of_word0 hform hp
    rw [State.access_again hpend, State.request_answered hpend, dropPending_of_word0 hform hp, finish_ok, State.advance_eq_stepsPast]
    obtain ⟨x, hx⟩ := State.setX_registers { s with th := { s.th with pend := [] } } d (zext64 v)
    refine ⟨_, rfl, ?_, ?_, rfl, ?_, rfl, rfl⟩
    · show (Thread.setX _ _ _).getX _ = _
      rw [Thread.getX_setX_same, Nat.mod_eq_of_lt hd]
      rfl
    · rw [hx]
      rfl
    · rw [hx]
      rfl

end Sys2Proof.Proofs
end

section
/-! SUPPORT. Work at the slices (R165, R170, R197): lines that are written back, put into a slice or dropped change memories, slices and caches,
and leave every thread where it is. -/

namespace Sys2Proof.Machine

open Sys2Proof.Claims

/-- `t` is `s` after work at the slices: no bank of any core has changed, and nothing else but memories, slices, caches and free values. -/
structure SliceWork (s t : State) : Prop where
  frame : ∃ cores homes dram bad key draw, t = { s with
    cores := cores, homes := homes, dram := dram, dramBad := bad, dramKey := key, draw := draw }
  banks : ∀ c, (t.core c).banks = (s.core c).banks

namespace SliceWork

variable {s t u : State}

theorem refl (s : State) : SliceWork s s := ⟨⟨_, _, _, _, _, _, rfl⟩, fun _ => rfl⟩

theorem trans (h : SliceWork s t) (h' : SliceWork t u) : SliceWork s u := by
  obtain ⟨⟨_, _, _, _, _, _, rfl⟩, hb⟩ := h
  obtain ⟨⟨_, _, _, _, _, _, rfl⟩, hb'⟩ := h'
  exact ⟨⟨_, _, _, _, _, _, rfl⟩, fun c => (hb' c).trans (hb c)⟩

theorem modHome (s : State) (h : Nat) (f : Home → Home) : SliceWork s (s.modHome h f) := ⟨⟨_, _, _, _, _, _, rfl⟩, fun _ => rfl⟩

theorem ite {p : Prop} [Decidable p] (ht : SliceWork s t) (hu : SliceWork s u) : SliceWork s (if p then t else u) := by
  split <;> assumption

theorem drawn (s : State) : SliceWork s s.drawn.2 := ⟨⟨_, _, _, _, _, _, rfl⟩, fun _ => rfl⟩

theorem modCore (s : State) (c : Nat) {f : Core → Core} (hf : ∀ k, (f k).banks = k.banks) : SliceWork s (s.modCore c f) := by
  refine ⟨⟨_, _, _, _, _, _, rfl⟩, fun d => ?_⟩
  by_cases hd : d = c
  · subst hd
    rw [State.core_modCore_same, hf]
  · rw [State.core_modCore_other _ _ hd]

theorem setDramSector (s : State) (a key : Nat) (d : Payload) : SliceWork s (s.setDramSector a key d) :=
  ite (refl s) ⟨⟨_, _, _, _, _, _, rfl⟩, fun _ => rfl⟩

theorem spoil (s : State) (bad : List Nat) : SliceWork s { s with dramBad := bad } := ⟨⟨_, _, _, _, _, _, rfl⟩, fun _ => rfl⟩

theorem pokeDram (s : State) (a key : Nat) (data : List Byte) (mask : List Bool) : SliceWork s (s.pokeDram a key data mask) :=
  (setDramSector s _ _ _).trans (spoil _ _)

theorem orEntry (s : State) (a v : Nat) : SliceWork s (s.orEntry a v) := pokeDram s _ _ _ _

theorem writeBack (s : State) (l : SLine) : SliceWork s (s.writeBack l) := by
  have put : ∀ (s : State) (a : Nat) (c : Sector), SliceWork s { s.setDramSector a l.key c.data with
      dramBad := (s.setDramSector a l.key c.data).dramBad ++ c.bad.map (a / 8 + ·) } :=
    fun s a c => (setDramSector s _ _ _).trans (spoil _ _)
  have half : ∀ (s : State) (o : Option Sector) (a : Nat), SliceWork s (match o with
      | some c => if c.dirty then { s.setDramSector a l.key c.data with
          dramBad := (s.setDramSector a l.key c.data).dramBad ++ c.bad.map (a / 8 + ·) } else s
      | none => s) := by
    intro s o a
    cases o with
    | none => exact refl s
    | some c => exact ite (put s a c) (refl s)
  exact (half s l.lo l.frame).trans (half _ l.hi _)

/-- A map whose entries are changed by their keys. -/
theorem mget_map_if {α : Type} (m : Map α) (p : Nat → Bool) (f : α → α) (k : Nat) :
    mget (m.map fun e => if p e.1 then (e.1, f e.2) else e) k = (mget m k).map fun v => if p k then f v else v := by
  induction m with
  | nil => rfl
  | cons e m ih =>
    rw [List.map_cons, mget_cons, mget_cons, ih]
    by_cases hk : e.1 = k
    · subst hk
      cases p e.1 <;> simp
    · cases p e.1 <;> simp [hk]

theorem dropL0 (s : State) (sp line : Nat) (f : Nat → Bool) : SliceWork s (s.dropL0 sp line f) := by
  refine ⟨⟨_, _, _, _, _, _, rfl⟩, fun c => ?_⟩
  have hget := mget_map_if s.cores f (fun k => { k with l0d := k.l0d.filter fun l => !(l.space == sp && l.line == line) }) c
  show ((mget (s.cores.map _) c).getD ({} : Core)).banks = ((mget s.cores c).getD {}).banks
  rw [hget]
  cases mget s.cores c with
  | none => rfl
  | some k => cases hf : f c <;> rfl

theorem recallLine (s : State) (h : Nat) (l : SLine) : SliceWork s (s.recall h l) :=
  ite (refl s) ((dropL0 s _ _ _).trans (modCore _ _ fun _ => rfl))

theorem dropLine (s : State) (h : Nat) (l : SLine) : SliceWork s (s.dropLine h l) :=
  trans ((recallLine s h l).trans (dropL0 _ _ _ fun _ => true)) (by unfold State.dropLine; exact modHome _ _ _)

theorem putLine (s : State) (h : Nat) (l : SLine) : SliceWork s (s.putLine h l) := by
  unfold State.putLine
  dsimp only
  split
  · exact modHome _ _ _
  · refine ite (refl s) ?_
    split
    · exact ((writeBack s _).trans (dropLine _ _ _)).trans (modHome _ _ _)
    · exact modHome _ _ _

theorem cleanLine (s : State) (h : Nat) (l : SLine) : SliceWork s (s.cleanLine h l) := (writeBack s l).trans (putLine _ _ _)

theorem discardLine (s : State) (sp ea : Nat) : SliceWork s (s.discardLine sp ea) := by
  unfold State.discardLine
  dsimp only
  split
  · exact refl s
  · exact (((drawn s).trans (drawn _)).trans (cleanLine _ _ _)).trans (dropLine _ _ _)

end SliceWork

/-! ### Lines that are gone (R197) -/

/-- A dropped line is in the slice no more. -/
theorem State.not_mem_dropLine {s : State} {h : Nat} {l y : SLine} (hy : y ∈ ((s.dropLine h l).home h).lines) :
    y.is l.instr l.tenant l.space l.line = false := by
  unfold State.dropLine State.modHome at hy
  rw [State.home_setHome_same] at hy
  simpa using (List.mem_filter.1 hy).2

/-- The home of a line holds none of its kind once it is discarded. -/
theorem State.not_mem_discardLine (s : State) (sp ea : Nat) {y : SLine} (hy : y ∈ ((s.discardLine sp ea).home (s.homeOf sp ea)).lines) :
    y.is false (spaceTenant (s.spaceEntry sp)) sp (ea / 64) = false := by
  unfold State.discardLine at hy
  dsimp only at hy
  split at hy
  · next hnone => simpa using List.find?_eq_none.1 hnone y hy
  · next l hsome =>
    have hl := List.find?_some hsome
    simp only [SLine.is, Bool.and_eq_true, beq_iff_eq] at hl
    obtain ⟨⟨⟨hinstr, htenant⟩, hspace⟩, hline⟩ := hl
    have hgone := State.not_mem_dropLine hy
    rwa [hinstr, htenant, hspace, hline] at hgone

end Sys2Proof.Machine
end

section
/-! PROOF. Cache operations and prefetches (O22): what is sent to the home of a line, what traps, and lines that are discarded (R196-R201). -/

namespace Sys2Proof.Machine

open Sys2Proof.Claims

/-! ### On-chip addresses, and cores without a path to DRAM (R201) -/

theorem cacheOp_onChip {s : State} {a : BitVec 5} (h : onChip (s.x a).toNat = true) (kind : Nat) : cacheOp kind a s = .next (stepsPast s) := by
  simp only [cacheOp, h, if_true, finish_ok, State.advance_eq_stepsPast]

theorem prefetch_onChip {s : State} {a : BitVec 5} (h : onChip (s.x a).toNat = true) (l0 : Bool) : prefetch l0 a s = .next (stepsPast s) := by
  simp only [prefetch, h, if_true, finish_ok, State.advance_eq_stepsPast]

theorem execCinvD_onChip {s : State} {a : BitVec 5} (h : onChip (s.x a).toNat = true) : execCinvD a s = .next (stepsPast s) := by
  simp only [execCinvD, h, if_true, finish_ok, State.advance_eq_stepsPast]

section
variable {s : State} {a : BitVec 5} (hd : s.noDram = true)
include hd

theorem icinv_noDram : Traps s 0x08 (s.x a) (trapAddress s) (execIcinv a s) := by
  simp only [execIcinv, hd, if_true]
  exact traps_trapR s _ _

variable (hc : onChip (s.x a).toNat = false)
include hc

theorem cacheOp_noDram (kind : Nat) : Traps s 0x08 (s.x a) (trapAddress s) (cacheOp kind a s) := by
  simp only [cacheOp, hc, hd, if_true, if_false, Bool.false_eq_true]
  exact traps_trapR s _ _

theorem prefetch_noDram (l0 : Bool) : Traps s 0x08 (s.x a) (trapAddress s) (prefetch l0 a s) := by
  simp only [prefetch, hc, hd, if_true, if_false, Bool.false_eq_true]
  exact traps_trapR s _ _

theorem execCinvD_noDram : Traps s 0x08 (s.x a) (trapAddress s) (execCinvD a s) := by
  simp only [execCinvD, hc, hd, if_true, if_false, Bool.false_eq_true]
  exact traps_trapR s _ _

end

/-! ### What is sent (R196, R198) -/

/-- `t` is `s` after a word that sent a request for a line to its home and stepped past itself; `ops` are the thread's cache operations. -/
structure LineSent (s : State) (ops : List Nat) (t : State) : Prop where
  sent : ∃ delay, (s.now + delay, Event.sliceRequest s.nextId) ∈ t.agenda
  thread : t.th = { (stepsPast s).th with cacheOps := ops }
  core : t.co = { s.co with egress := max s.co.egress s.now + 1 }
  memories : t.dram = s.dram ∧ t.pads = s.pads ∧ t.homes = s.homes

theorem issueCacheOp_sends {s : State} (hq : Quiet s) (hr : Room s) (kind sp ea : Nat) :
    Next (finish s (s.issueCacheOp kind sp ea)) (LineSent s (s.nextId :: s.th.cacheOps)) := by
  obtain ⟨hu, hops, -⟩ := hq
  simp only [State.issueCacheOp, holdsBack_of_room hu hr, hops, List.isEmpty_nil, Bool.not_true, Bool.or_self, Bool.false_eq_true, if_false,
    finish_ok, State.advance_eq_stepsPast]
  exact ⟨_, rfl, ⟨_, (State.mem_post _ _ _ _).2 (.inl rfl)⟩, by rw [← hops]; rfl, rfl, rfl, rfl, rfl⟩

section
variable {s : State} {a : BitVec 5} (hc : onChip (s.x a).toNat = false) (hd : s.noDram = false)
  (hspace : s.spaceOk s.sp s.src.tenant = true) (hlocal : s.sp < 0xFF00) (hr : Room s)
include hc hd hspace hlocal hr

theorem cacheOp_sends (hq : Quiet s) (kind : Nat) : Next (cacheOp kind a s) (LineSent s (s.nextId :: s.th.cacheOps)) := by
  have hl : isLocal s.sp = true := decide_eq_true hlocal
  simp only [cacheOp, hc, hd, hspace, hl, overlapsQueued_of_noQueue hq.2.2, Bool.not_true, Bool.or_self, Bool.false_eq_true, if_false]
  exact issueCacheOp_sends hq hr kind _ _

theorem prefetch_sends (l0 : Bool) : Next (prefetch l0 a s) (LineSent s s.th.cacheOps) := by
  have hl : isLocal s.sp = true := decide_eq_true hlocal
  simp only [prefetch, hc, hd, hspace, hl, egressRoom_of_room hr, Bool.not_true, Bool.or_self, Bool.false_eq_true, if_false, finish_ok,
    State.advance_eq_stepsPast]
  exact ⟨_, rfl, ⟨_, (State.mem_post _ _ _ _).2 (.inl rfl)⟩, rfl, rfl, rfl, rfl, rfl⟩

end

/-! ### cinv.d (R197) -/

/-- The thread whose word works on the slices is still there afterwards, as it was. -/
theorem SliceWork.th_onModule {s : State} {f : State → State} (hf : SliceWork s.store (f s.store)) : (s.onModule f).th = s.th := by
  obtain ⟨⟨_, _, _, _, _, _, hframe⟩, hbanks⟩ := hf
  have hcid : (f s.store).cid = s.cid := by rw [hframe]; rfl
  have hbank : (f s.store).bank = s.bank := by rw [hframe]; rfl
  show ((mget ((f s.store).core (f s.store).cid).banks (f s.store).bank).getD (f s.store).th) = s.th
  rw [hcid, hbank, hbanks, State.core_store]
  simp

/-- It goes on where it would have. -/
theorem SliceWork.pcAfter_onModule {s : State} {f : State → State} (hf : SliceWork s.store (f s.store)) :
    pcAfter (s.onModule f) = pcAfter s := by
  have hth := hf.th_onModule
  obtain ⟨⟨_, _, _, _, _, _, hframe⟩, -⟩ := hf
  have hform : (f s.store).form = s.form := by rw [hframe]; rfl
  have hbundle : (f s.store).bundle = s.bundle := by rw [hframe]; rfl
  exact pcAfter_congr hform hbundle (by rw [hth])

end Sys2Proof.Machine

namespace Sys2Proof.Proofs

open Sys2Proof.Machine Sys2Proof.Claims

/-- Settles O22: each word by where its address lies; a line that cinv.d discards is gone from its home (`State.not_mem_discardLine`). -/
theorem cacheOperationResults : Obligations.CacheOperationResults := by
  refine ⟨?words, ?confirmed⟩
  case words =>
    intro s a e sent
    have hlt : e < 2 ^ 64 := BitVec.isLt _
    have sends : ∀ {o : Answer} {op : Bool}, Next o (LineSent s (if op then s.nextId :: s.th.cacheOps else s.th.cacheOps)) →
        Next o (sent op) := by
      rintro o op ⟨t, ht, hsent, hth, hco, hmem⟩
      exact ⟨t, ht, hsent, hth, hco, hmem⟩
    refine ⟨fun htop => ?onChip, fun htop hr hs hroom hspace hlocal => ⟨fun hq => ⟨?cwb, ?cinv⟩, ?pref, ?prefSc⟩,
      fun hpage hr hs hroom hq => ?icinv, fun hpath => ⟨icinv_noDram ((noDram_iff s).2 hpath), fun htop i hi => ?noDram⟩,
      fun hops => ?synciEnds, fun hops => ?synciWaits, ?cinvRc⟩
    case onChip =>
      have hc := (onChip_iff hlt).2 htop
      exact ⟨cacheOp_onChip hc 0, cacheOp_onChip hc 1, execCinvD_onChip hc, prefetch_onChip hc true, prefetch_onChip hc false⟩
    case cwb => exact sends (op := true) (cacheOp_sends (onChip_eq_false hlt htop) (noDram_eq_false hr hs) hspace hlocal hroom hq 0)
    case cinv => exact sends (op := true) (cacheOp_sends (onChip_eq_false hlt htop) (noDram_eq_false hr hs) hspace hlocal hroom hq 1)
    case pref => exact sends (op := false) (prefetch_sends (onChip_eq_false hlt htop) (noDram_eq_false hr hs) hspace hlocal hroom true)
    case prefSc => exact sends (op := false) (prefetch_sends (onChip_eq_false hlt htop) (noDram_eq_false hr hs) hspace hlocal hroom false)
    case icinv =>
      have hexec : exec (.icinv a) s = finish s (s.issueCacheOp 3 s.src.prog e) := by
        show execIcinv a s = _
        simp only [execIcinv, noDram_eq_false hr hs, Bool.false_eq_true, if_false]
        exact congrArg (finish s) (if_neg (Nat.not_le.2 hpage))
      rw [hexec]
      exact sends (op := true) (issueCacheOp_sends hq hroom 3 _ _)
    case noDram =>
      have hd := (noDram_iff s).2 hpath
      have hc := onChip_eq_false hlt htop
      simp only [List.mem_cons, List.not_mem_nil, or_false] at hi
      obtain rfl | rfl | rfl | rfl | rfl := hi
      · exact cacheOp_noDram hd hc 0
      · exact cacheOp_noDram hd hc 1
      · exact execCinvD_noDram hd hc
      · exact prefetch_noDram hd hc true
      · exact prefetch_noDram hd hc false
    case synciEnds =>
      show execSynci s = _
      simp only [execSynci, hops, List.isEmpty_nil, if_true, finish_ok, State.advance_eq_stepsPast]
    case synciWaits =>
      have hops' : s.th.cacheOps.isEmpty = false := by simpa using hops
      show Next (execSynci s) _
      simp only [execSynci, hops', Bool.false_eq_true, if_false, finish_wait]
      exact ⟨_, rfl, rfl, rfl⟩
    case cinvRc =>
      show Next (execCinvRc a s) _
      simp only [execCinvRc, finish_ok, State.advance_eq_stepsPast]
      refine ⟨_, rfl, fun r => ?_, rfl⟩
      show r ∈ s.co.records.filter _ ↔ _
      simp only [List.mem_filter, Bool.not_eq_true', Bool.and_eq_false_iff, beq_eq_false_iff_ne, ne_eq, not_and_or, or_assoc]
      rfl
  case confirmed =>
    intro s a id e h htop hr hs hspace hlocal hform hp hu
    have hc : onChip e = false := onChip_eq_false (BitVec.isLt _) htop
    have hf : s.form ≠ .par1 := by rw [hform]; decide
    have hpend := pending_of_word0 hf hp
    have hwork := SliceWork.discardLine { s with th := { s.th with pend := [] } }.store s.src.space.toNat e
    have hth := SliceWork.th_onModule (f := fun u => u.discardLine u.src.space.toNat e) hwork
    have hexec : exec (.cinvD a) s = .next
        (stepsPast (({ s with th := { s.th with pend := [] } } : State).onModule fun u => u.discardLine u.src.space.toNat e)) := by
      show execCinvD a s = _
      change onChip (s.x a).toNat = false at hc
      simp only [execCinvD, hc, noDram_eq_false hr hs, Bool.false_eq_true, if_false, State.access_again hpend, State.request_answered hpend,
        dropPending_of_word0 hf hp, finish_ok, State.advance_eq_stepsPast]
      rfl
    refine ⟨_, hexec, rfl, ?_, ?_, ?_⟩
    · show (State.onModule _ _).th.pend = []
      rw [hth]
    · have hpc := hwork.pcAfter_onModule (f := fun u => u.discardLine u.src.space.toNat e)
      exact hpc.trans (by simp only [pcAfter, hform])
    · intro y hy ⟨hinstr, htenant, hspace, hline⟩
      have hgone : y.is false (spaceTenant (s.spaceEntry s.src.space.toNat)) s.src.space.toNat (e / 64) = false :=
        State.not_mem_discardLine ({ s with th := { s.th with pend := [] } } : State).store s.src.space.toNat e hy
      simp [SLine.is, hinstr, htenant, hspace, hline] at hgone

end Sys2Proof.Proofs
end

section
/-! SUPPORT. Vector loads and stores in the sequencer (R191): words whose addresses lie in the own TCM are queued, served at once, and change
their own core alone. -/

namespace Sys2Proof.Machine

open Sys2Proof.Claims

/-! ### Places of the own TCM (R158) -/

/-- The own-TCM address of an offset. -/
def tcmAt (p : Nat) : Nat := 0xFF00 * 2 ^ 48 + p

theorem winFor_tcmAt (c : Nat) {p : Nat} (hp : p < 0xC000) : winFor c (tcmAt p) = some (.ownTcm p) := winFor_ownTcm c hp

theorem toNat_tcmAt {p : Nat} (hp : p < 0xC000) : (BitVec.ofNat 64 (tcmAt p)).toNat = tcmAt p := by
  rw [BitVec.toNat_ofNat, tcmAt]
  omega

/-- The bytes of accesses of `n` bytes each, one after the other. -/
def bytesAt (m : Mem) (n : Nat) (ps : List Nat) : List Byte := ps.flatMap fun p => rdBytes m p n

section
variable {s : State} {c : Nat} {ps : List Nat} (hp : ∀ p ∈ ps, p < 0xC000)
include hp

theorem State.ownPlaces_tcm (b : Nat) : s.ownPlaces c b (ps.map tcmAt) = true := by
  rw [State.ownPlaces, List.all_map, List.all_eq_true]
  intro p hmem
  simp only [Function.comp_apply, winFor_tcmAt c (hp p hmem)]

theorem State.rdOwnPlaces_tcm (hbad : (s.core c).tcm.bad = []) (b n : Nat) :
    s.rdOwnPlaces c b n (ps.map tcmAt) = (bytesAt (s.core c).tcm.bytes n ps, s) := by
  induction ps with
  | nil => rfl
  | cons p ps ih =>
    have hclean : (s.core c).tcm.poisoned p n = false := by rw [Sram.poisoned, hbad]; rfl
    rw [List.map_cons, State.rdOwnPlaces]
    simp only [winFor_tcmAt c (hp p (List.mem_cons_self ..)), hclean, Bool.false_eq_true, if_false]
    rw [ih fun q hq => hp q (List.mem_cons_of_mem _ hq)]
    rfl

end

/-- What holds of no address of the own TCM holds of none of these. -/
theorem any_tcm {ps : List Nat} (hp : ∀ p ∈ ps, p < 0xC000) {f : Nat → Bool} (hf : ∀ p, p < 0xC000 → f (tcmAt p) = false) :
    (ps.map tcmAt).any f = false := by
  rw [List.any_map, List.any_eq_false]
  intro p hmem
  rw [Function.comp_apply, hf p (hp p hmem)]
  decide

/-! ### A masked store to the TCM of a core that keeps no undo log -/

/-- The core with the bytes of a mask stored in its TCM. -/
def Core.storedUnder (k : Core) (a : Nat) (data : List Byte) (mask : List Bool) : Core :=
  { k with tcm := k.tcm.write a data mask, headers := k.headers.filter fun h => !(decide (h.1 < a + data.length) && decide (a < h.1 + 64)) }

theorem tcmStore_unlogged_masked (c : Nat) {k : Core} (h : k.undo = none) (m : Sram) (a : Nat) (data : List Byte) (mask : List Bool) :
    tcmStore c (k, m) a data mask = (k.storedUnder a data mask, m) := by
  have hlog : ∀ l : List Nat, l.foldl (fun k g => logGranule c (rdBytes k.1.tcm.bytes (256 * g) 256) g k) (k, m) = (k, m) := by
    intro l
    induction l with
    | nil => rfl
    | cons g l ih => rwa [List.foldl_cons, logGranule, h]
  rw [tcmStore, hlog]
  rfl

theorem ChangesCore.wrTcm_masked {s t : State} {c : Nat} {k : Core} (h : ChangesCore s t c k) (hu : (t.core c).undo = none) (a : Nat)
    (data : List Byte) (mask : List Bool) : ChangesCore s (t.wrTcm c a data mask) c (k.storedUnder a data mask) := by
  have hstore : t.wrTcm c a data mask = t.modCore c fun k => k.storedUnder a data mask := by
    simp only [State.wrTcm, tcmStore_unlogged_masked c hu, hu, Option.isSome_none, Bool.false_eq_true, if_false]
    rfl
  rw [hstore]
  exact h.modCore _

/-! ### The words, and how they are served -/

/-- A word that reads and writes registers below v28 waits for no link port. -/
theorem State.linkWait_below (s : State) (c : Nat) (k : Core) {i : Instr} (hr : ∀ n ∈ vReads i, n < 28) (hw : vWrite i = none) :
    s.linkWait c k i = none := by
  have h28 := times_eq_zero _ 28 hr (by omega)
  have h29 := times_eq_zero _ 29 hr (by omega)
  have h30 := times_eq_zero _ 30 hr (by omega)
  have h31 := times_eq_zero _ 31 hr (by omega)
  simp [State.linkWait, h28, h29, h30, h31, hw]

/-- The vector loads of v[d]. -/
inductive VecLoad (d : BitVec 5) : Instr → Prop
  | vld (a : BitVec 5) (off : BitVec 7) : VecLoad d (.vld d a off)
  | vldb (a : BitVec 5) (off : BitVec 7) : VecLoad d (.vldb d a off)
  | vlds (a b : BitVec 5) : VecLoad d (.vlds d a b)
  | vldsPi (a b : BitVec 5) : VecLoad d (.vldsPi d a b)

/-- The vector stores of v[d], with the mask that the thread's registers give them. -/
inductive VecStore (d : BitVec 5) (t : Thread) : Instr → List Bool → Prop
  | vst (a : BitVec 5) (off : BitVec 7) : VecStore d t (.vst d a off) []
  | vstm (a : BitVec 5) {b : BitVec 5} (hb : b.toNat < 28) : VecStore d t (.vstm d a b) (maskOf (t.getV b.toNat))

theorem VecStore.writes {d : BitVec 5} {t : Thread} {i : Instr} {mask : List Bool} (h : VecStore d t i mask) : vWrite i = none := by
  cases h <;> rfl

theorem VecStore.reads {d : BitVec 5} {t : Thread} {i : Instr} {mask : List Bool} (h : VecStore d t i mask) (hd : d.toNat < 28) :
    ∀ n ∈ vReads i, n < 28 := by
  cases h with
  | vst a off => simpa [vReads] using hd
  | vstm a hb => simpa [vReads] using ⟨hb, hd⟩

theorem VecStore.counted {d : BitVec 5} {t : Thread} {i : Instr} {mask : List Bool} (h : VecStore d t i mask) {n : Nat} :
    VecStore d { t with compared := n } i mask := by
  cases h with
  | vst a off => exact .vst a off
  | vstm a hb => exact .vstm a hb

theorem VecLoad.writes {d : BitVec 5} {i : Instr} (h : VecLoad d i) : vWrite i = some d.toNat := by cases h <;> rfl

theorem VecLoad.reads {d : BitVec 5} {i : Instr} (h : VecLoad d i) : vReads i = [] := by cases h <;> rfl

section
variable {s : State} {c : Nat} {e : SeqEntry} {t : Thread} {d : BitVec 5} (hb : mget (s.core c).banks e.bank = some t) (hs : t.streams = [])
  (hd : d.toNat < 28)
include hb hs hd

/-- A load from the own TCM gives v[d] what it makes of the bytes. -/
theorem State.serve_vecLoad {i : Instr} (hi : VecLoad d i) (hword : e.word = i) {ps : List Nat} {n : Nat}
    (hplaces : e.places = (ps.map tcmAt, n)) (hp : ∀ p ∈ ps, p < 0xC000) (hbad : (s.core c).tcm.bad = []) :
    s.serve c e = .done (s.putV c e.bank d.toNat (e.loaded (ofBytes (bytesAt (s.core c).tcm.bytes n ps)))) := by
  have hlink := State.linkWait_plain s c (s.core c) i d.toNat (by simp [hi.reads]) hi.writes hd
  have hstrips := stripsReady_unbound t i hs
  have hload : s.serveLoad c e = (s, some (ofBytes (bytesAt (s.core c).tcm.bytes n ps))) := by
    simp only [State.serveLoad, hplaces, State.ownPlaces_tcm hp, State.rdOwnPlaces_tcm hp hbad, if_true]
  have hnever : e.writesMem = false := by
    unfold SeqEntry.writesMem
    rw [hword]
    cases hi <;> rfl
  have hown := State.ownPlaces_tcm (s := s) (c := c) hp e.bank
  unfold State.serve
  simp only [hb, hplaces]
  rw [any_tcm hp fun p hin => by simp only [winFor_tcmAt c hin, hnever, Bool.and_false]]
  cases hi <;> simp [hword, hlink, hstrips, hown, hload, vWrite]

/-- A store to the own TCM of a core that keeps no undo log writes v[d] under its mask. -/
theorem State.serve_vecStore {i : Instr} {mask : List Bool} (hi : VecStore d t i mask) (hword : e.word = i) (hold : e.old = none) {p : Nat}
    (hplaces : e.places = ([tcmAt p], 16)) (hp : p < 0xC000) (hu : (s.core c).undo = none) :
    s.serve c e = .done (s.wrTcm c p (toBytes 16 (t.getV d.toNat).toNat) mask) := by
  have hlink := State.linkWait_below s c (s.core c) (hi.reads hd) hi.writes
  have hstrips := stripsReady_unbound t i hs
  have hpop := State.popAll_plain s c e.bank t (vReads i) hb hs (hi.reads hd)
  have hown : s.ownPlaces c e.bank [tcmAt p] = true := State.ownPlaces_tcm (ps := [p]) (by simpa using hp) e.bank
  have hstore : ∀ data mask, s.serveStore c e data mask = s.wrTcm c p data mask := by
    intro data mask
    simp only [State.serveStore, hplaces, List.headD_cons, winFor_tcmAt c hp]
  unfold State.serve
  cases hi with
  | vst a off => 
    simp only [vReads] at hpop
    simp [hb, hword, hplaces, hlink, hstrips, hold, hown, hu, winFor_tcmAt c hp, hpop, hstore, vReads, rd]
  | vstm a hb28 => 
    simp only [vReads] at hpop
    simp [hb, hword, hplaces, hlink, hstrips, hold, hown, hu, winFor_tcmAt c hp, hpop, hstore, vReads, rd]

end

/-! ### The checks at issue (R186, R242) -/

section
variable {s : State} {space n : Nat} {ps : List Nat} (hn : n ∣ 16) (hps : ∀ p ∈ ps, p % n = 0 ∧ p + n ≤ 0xC000) (hlocal : space < 0xFF00)
  (hspace : s.spaceOk space s.src.tenant = true)
include hn hps

theorem tcm_below : ∀ p ∈ ps, p < 0xC000 := by
  intro p hp
  have hpos : 0 < n := Nat.pos_of_dvd_of_pos hn (by decide)
  have := (hps p hp).2
  omega

theorem State.toConfirm_tcm (store : Bool) : s.toConfirm space store (ps.map tcmAt) = [] := by
  rw [State.toConfirm, List.filter_eq_nil_iff]
  intro ea hea
  obtain ⟨p, hp, rfl⟩ := List.mem_map.1 hea
  have hc : onChip (tcmAt p) = true := onChip_ownTcm (tcm_below hn hps p hp)
  simp [hc]

include hlocal hspace

theorem State.routesOk_tcm : s.routesOk space n (ps.map tcmAt) = .ok () := by
  induction ps with
  | nil => rfl
  | cons p ps ih =>
    obtain ⟨haligned, hinside⟩ := hps p (List.mem_cons_self ..)
    have hroute : s.routeFor space (tcmAt p) n false = _ := routeFor_tcm hn haligned hinside hlocal hspace false
    rw [List.map_cons, State.routesOk, hroute]
    exact ih fun q hq => hps q (List.mem_cons_of_mem _ hq)

end

/-- A vector load or store of the own TCM is queued. -/
theorem vecMem_queues {s : State} (h : VecReady s) (hp : s.th.pend = []) {n : Nat} {ps : List Nat} (hn : n ∣ 16)
    (hps : ∀ p ∈ ps, p % n = 0 ∧ p + n ≤ 0xC000) (hlocal : s.src.space.toNat < 0xFF00)
    (hspace : s.spaceOk s.src.space.toNat s.src.tenant = true) {i : Instr} (legal : vLegal i s.src.vconf = true) (hr : ∀ n ∈ vReads i, n < 28)
    (hw : ∀ n ∈ vWrite i, n < 28) (hc : vCaptures i ≤ 4) (store : Bool) (ops : List Word) (upd : State → State) :
    vecMem i store (ps.map tcmAt) n ops upd s = .next (stepsPast ((upd s).enqueue i (ops ++ [BitVec.ofNat 64 s.sp]))) := by
  obtain ⟨-, hsame, -, hstreams, ⟨hq, hv⟩, -⟩ := h
  have hs : s.src.streams = [] := hsame ▸ hstreams
  have hpending : s.pending.isSome = false := by rw [pending_of_unasked hp]; rfl
  have hroom : s.seqRoom i = true := by simp [State.seqRoom, Core.seqUsed, Core.captured, Core.seqEntries, hq, hv, hc]
  have hroutes : s.routesOk s.sp n (ps.map tcmAt) = .ok () := State.routesOk_tcm hn hps hlocal hspace
  have hconfirm : s.toConfirm s.sp store (ps.map tcmAt) = [] := State.toConfirm_tcm hn hps store
  have hgo : ∀ {b : Bool}, b = false → finish s (if b then s.trapOpen streamFault else .ok ((upd s).enqueue i (ops ++ [BitVec.ofNat 64 s.sp]))) =
      .next (stepsPast ((upd s).enqueue i (ops ++ [BitVec.ofNat 64 s.sp]))) := by
    rintro _ rfl
    rw [if_neg Bool.false_ne_true, finish_ok, State.advance_eq_stepsPast]
  unfold vecMem
  simp only [hpending, Bool.false_eq_true, if_false, State.vecChecked_unbound hs legal hr hw, hroutes, hroom, Bool.not_true, hconfirm]
  exact hgo (by cases vWrite i <;> simp [Thread.stream?, hs])

/-! ### What a word leaves (R191, R243, R244) -/

/-- A sequencer on which a word of the thread is performed at once: it and its neighbours' hold nothing. -/
structure SeqIdle (s : State) : Prop where
  form : s.form ≠ .par0
  ready : s.th.st = .ready
  streams : s.th.streams = []
  idle : s.co.seq = [] ∧ s.co.vloop = none
  around : ∀ p, p < 4 → (s.core (neighbour s.cid p)).seq = [] ∧ (s.core (neighbour s.cid p)).vloop = none

theorem seqIdle_of_vecReady {s : State} (h : VecReady s) : SeqIdle s := ⟨h.form, h.ready, h.streams, h.idle, h.around⟩

theorem SeqIdle.setX {s : State} (h : SeqIdle s) (d : BitVec 5) (w : Word) : SeqIdle (s.setX d w) := by
  obtain ⟨x, hx⟩ := s.setX_registers d w
  rw [hx]
  exact ⟨h.form, h.ready, h.streams, h.idle, h.around⟩

/-- `t` is `s` after a queued word of its thread, which is now `u`, has been performed: nothing but this core has changed. -/
structure Performed (s : State) (u : Thread) (t : State) : Prop where
  frame : t = { s with nextId := t.nextId, th := u, co := t.co, cores := t.cores }
  seq : t.co.seq = []

section
variable {s : State} (h : SeqIdle s) {i : Instr} {ops : List Word} {d : BitVec 5} (hd : d.toNat < 28)
include h hd

/-- A load gives v[d] its value and leaves the memories of its core. -/
theorem vecLoad_performed (hi : VecLoad d i) {ps : List Nat} {n : Nat} (hplaces : (s.queuedEntry i ops).places = (ps.map tcmAt, n))
    (hp : ∀ p ∈ ps, p < 0xC000) (hbad : s.co.tcm.bad = []) {v : Vec}
    (hval : (s.queuedEntry i ops).loaded (ofBytes (bytesAt s.co.tcm.bytes n ps)) = v) :
    Performed s { s.th with v := (s.th.setV d.toNat v).v, compared := s.th.compared + 1 } (s.enqueue i ops) ∧
      (s.enqueue i ops).co.tcm = s.co.tcm ∧ (s.enqueue i ops).co.tiles = s.co.tiles := by
  obtain ⟨hform, hready, hstreams, ⟨hq, hv⟩, haround⟩ := h
  let th : Thread := { s.th with compared := s.th.compared + 1 }
  let k : Core := s.co.holding s.bank th (s.queuedEntry i ops)
  have hcore : (s.queued i ops).core s.cid = k := s.core_queued i ops
  have hbank : mget k.banks s.bank = some th := mget_mset_same _ _ _
  have hbank' : mget ((s.queued i ops).core s.cid).banks s.bank = some th := hcore ▸ hbank
  have hserve := State.serve_vecLoad (e := s.queuedEntry i ops) hbank' (t := th) hstreams hd hi rfl hplaces hp (hcore ▸ hbad)
  have hchanges := (ChangesCore.refl (s.queued i ops) s.cid).putV (t := s.queued i ops) (b := s.bank) hbank' hstreams hd v
  rw [hcore] at hchanges hserve
  have hvalk : (s.queuedEntry i ops).loaded (ofBytes (bytesAt k.tcm.bytes n ps)) = v := hval
  rw [hvalk] at hserve
  have hlast : mget (k.modBank s.bank fun t => t.setV d.toNat v).banks s.bank = some (th.setV d.toNat v) := Core.modBank_bank _ hbank
  have hqueue := State.enqueue_served hform hq hv haround hserve hchanges rfl hv hlast (by rw [Thread.setV_frame]; exact hready)
  have hth : th.setV d.toNat v = { s.th with v := (s.th.setV d.toNat v).v, compared := s.th.compared + 1 } := by
    simp only [Thread.setV, dif_pos hd]
    rfl
  rw [hth] at hqueue
  generalize s.enqueue i ops = u at hqueue
  rw [hqueue]
  exact ⟨⟨rfl, rfl⟩, rfl, rfl⟩

/-- A store writes v[d] under its mask; no register of the thread changes. -/
theorem vecStore_performed {mask : List Bool} (hi : VecStore d s.th i mask) {p : Nat}
    (hplaces : (s.queuedEntry i ops).places = ([tcmAt p], 16)) (hp : p < 0xC000) (hu : s.co.undo = none) :
    Performed s { s.th with compared := s.th.compared + 1 } (s.enqueue i ops) ∧
      (s.enqueue i ops).co.tcm.bytes = wrMasked s.co.tcm.bytes p (toBytes 16 (s.th.getV d.toNat).toNat) mask := by
  obtain ⟨hform, hready, hstreams, ⟨hq, hv⟩, haround⟩ := h
  let th : Thread := { s.th with compared := s.th.compared + 1 }
  let k : Core := s.co.holding s.bank th (s.queuedEntry i ops)
  have hcore : (s.queued i ops).core s.cid = k := s.core_queued i ops
  have hbank : mget k.banks s.bank = some th := mget_mset_same _ _ _
  have hbank' : mget ((s.queued i ops).core s.cid).banks s.bank = some th := hcore ▸ hbank
  have hserve := State.serve_vecStore (e := s.queuedEntry i ops) hbank' (t := th) hstreams hd hi.counted rfl rfl hplaces hp (hcore ▸ hu)
  have hchanges := (ChangesCore.refl (s.queued i ops) s.cid).wrTcm_masked (t := s.queued i ops) (hcore ▸ hu) p
    (toBytes 16 (th.getV d.toNat).toNat) mask
  rw [hcore] at hchanges
  have hqueue := State.enqueue_served hform hq hv haround hserve hchanges rfl hv hbank hready
  generalize s.enqueue i ops = u at hqueue
  rw [hqueue]
  exact ⟨⟨rfl, rfl⟩, rfl⟩

end

/-! ### Lanes of what is loaded (R108, R191) -/

theorem width_cases (s : State) : width s = 8 ∨ width s = 16 ∨ width s = 32 ∨ width s = 64 := by
  unfold width
  split <;> simp

theorem elemBytes_width (s : State) : elemBytes s.src.vconf = width s / 8 := rfl

theorem laneBits_width (s : State) : laneBits (vtype s.src.vconf) = width s := rfl

/-- Elements in a row are packed as lanes. -/
theorem ofBytes_bytesAt (m : Mem) (n : Nat) (ps : List Nat) : ofBytes (bytesAt m n ps) = packBits (8 * n) (ps.map fun p => leAt m p n) := by
  induction ps with
  | nil => rfl
  | cons p ps ih =>
    have hlen : (rdBytes m p n).length = n := by simp [rdBytes]
    rw [List.map_cons, packBits_cons, ← ih, Nat.mod_eq_of_lt (leAt_lt m p n), bytesAt, List.flatMap_cons, ofBytes_append, hlen,
      ofBytes_rdBytes]
    rfl

/-- Byte `k` of 16 bytes that are loaded. -/
theorem laneOf_vecOf_leAt (m : Mem) (p : Nat) {k : Nat} (hk : k < 16) : laneOf (vecOf (leAt m p 16)) 8 k = (rd8 m (p + k)).toNat := by
  have hlt : leAt m p 16 < 2 ^ 128 := leAt_lt m p 16
  have hbyte : bits (leAt m p 16) (8 * k) (8 * 1) = leAt m (p + k) 1 := bits_leAt m p (by omega)
  rw [laneOf, vecOf, BitVec.toNat_ofNat, Nat.mod_eq_of_lt hlt, ← leAt_one, ← hbyte]
  rfl

/-- An element in every lane. -/
theorem lanes_splat (s : State) (x : Nat) : Lanes s (splat (vtype s.src.vconf) x) fun _ => x % 2 ^ width s := by
  intro k hk
  have hlen : (List.replicate (128 / width s) x).length = 128 / width s := List.length_replicate
  have hlane := laneOf_vecOf_packBits (width s) (List.replicate (128 / width s) x) (k := k) (by rw [hlen]; exact Nat.mul_div_le _ _)
    (by rwa [hlen])
  rwa [List.getElem_replicate] at hlane

/-- Elements in a row, one in each lane. -/
theorem lanes_bytesAt (s : State) (m : Mem) (q : Nat → Nat) :
    Lanes s (vecOf (ofBytes (bytesAt m (width s / 8) ((List.range (16 / (width s / 8))).map q)))) fun k => leAt m (q k) (width s / 8) := by
  have hw : 8 * (width s / 8) = width s ∧ 16 / (width s / 8) = 128 / width s := by
    obtain h | h | h | h := width_cases s <;> rw [h] <;> decide
  intro k hk
  have hlen : (((List.range (128 / width s)).map q).map fun p => leAt m p (width s / 8)).length = 128 / width s := by simp
  have hlane := laneOf_vecOf_packBits (width s) (((List.range (128 / width s)).map q).map fun p => leAt m p (width s / 8)) (k := k)
    (by rw [hlen]; exact Nat.mul_div_le _ _) (by rwa [hlen])
  have hlt := leAt_lt m (q k) (width s / 8)
  rw [hw.1] at hlt
  rw [ofBytes_bytesAt, hw.1, hw.2, hlane]
  simp [Nat.mod_eq_of_lt hlt]

/-! ### Bytes under a mask (R191) -/

theorem rd8_wrMasked_outside (m : Mem) (a : Nat) (data : List Byte) (mask : List Bool) {q : Nat} (h : q < a ∨ a + data.length ≤ q) :
    rd8 (wrMasked m a data mask) q = rd8 m q := by
  induction data generalizing m a mask with
  | nil => cases mask <;> rfl
  | cons x data ih =>
    have hq : q ≠ a := by rw [List.length_cons] at h; omega
    have ht : q < a + 1 ∨ a + 1 + data.length ≤ q := by rw [List.length_cons] at h; omega
    have hput : ∀ b : Bool, rd8 (if b then wr8 m a x else m) q = rd8 m q := by
      rintro ⟨⟩
      · rfl
      · exact rd8_wr8_other m x hq
    cases mask with
    | nil => exact (ih _ _ _ ht).trans (rd8_wr8_other m x hq)
    | cons b mask => exact (ih _ _ _ ht).trans (hput b)

/-- A byte in a masked store's range is stored where its mask bit is set; without one it is stored too. -/
theorem rd8_wrMasked_inside (m : Mem) (a : Nat) (data : List Byte) (mask : List Bool) {k : Nat} (hk : k < data.length) :
    rd8 (wrMasked m a data mask) (a + k) = if mask.getD k true then data[k] else rd8 m (a + k) := by
  induction data generalizing m a mask k with
  | nil => cases hk
  | cons x data ih =>
    cases k with
    | zero =>
      cases mask with
      | nil => exact (rd8_wrMasked_outside _ _ _ _ (.inl (Nat.lt_succ_self a))).trans (rd8_wr8_same m a x)
      | cons b mask =>
        refine (rd8_wrMasked_outside _ _ _ _ (.inl (Nat.lt_succ_self a))).trans ?_
        cases b <;> simp
    | succ k =>
      have hk' : k < data.length := Nat.lt_of_succ_lt_succ hk
      have hother : ∀ b : Bool, rd8 (if b then wr8 m a x else m) (a + 1 + k) = rd8 m (a + 1 + k) := by
        rintro ⟨⟩
        · rfl
        · exact rd8_wr8_other m x (by omega)
      rw [show a + (k + 1) = a + 1 + k by omega]
      cases mask with
      | nil =>
        refine (ih (wr8 m a x) (a + 1) [] hk').trans ?_
        simp
      | cons b mask =>
        have htail := ih (if b then wr8 m a x else m) (a + 1) mask hk'
        rw [hother b] at htail
        refine htail.trans ?_
        simp

end Sys2Proof.Machine
end

section
/-! PROOF. Vector loads and stores (O27, O28): each word on the own TCM is queued and performed at once (R191). -/

namespace Sys2Proof.Machine

open Sys2Proof.Claims

/-- The registers of a thread whose load has been performed. -/
theorem registers_of_performed {s u : State} {d : Nat} (hd : d < 28) {v : Vec}
    (h : Performed s { s.th with v := (s.th.setV d v).v, compared := s.th.compared + 1 } u) :
    (stepsPast u).th.getV d = v ∧ (∀ r, (stepsPast u).th.getX r = s.th.getX r) ∧ (stepsPast u).dram = s.dram := by
  obtain ⟨hframe, -⟩ := h
  have hth : u.th = { s.th with v := (s.th.setV d v).v, compared := s.th.compared + 1 } := by rw [hframe]
  refine ⟨?_, fun r => ?_, by show u.dram = _; rw [hframe]⟩
  · show u.th.getV d = v
    rw [hth]
    exact Thread.getV_setV_same s.th hd v
  · show u.th.getX r = _
    rw [hth]
    rfl

/-- After a word that has been performed, what a vector word leaves. -/
theorem vecDone_of_performed {s u : State} {d : Nat} (hd : d < 28) {v : Vec}
    (h : Performed s { s.th with v := (s.th.setV d v).v, compared := s.th.compared + 1 } u) (htcm : u.co.tcm = s.co.tcm)
    (htiles : u.co.tiles = s.co.tiles) : VecDone s d v 0 (stepsPast u) := by
  obtain ⟨hvalue, -, -⟩ := registers_of_performed hd h
  obtain ⟨hframe, hseq⟩ := h
  have hth : u.th = { s.th with v := (s.th.setV d v).v, compared := s.th.compared + 1 } := by rw [hframe]
  have hpc : pcAfter u = pcAfter s := pcAfter_congr (by rw [hframe]) (by rw [hframe]) (by rw [hth])
  exact {
    value := hvalue
    others := fun n hn => by
      show u.th.getV n = s.th.getV n
      rw [hth]
      exact Thread.getV_setV_other s.th v hn
    flags := by
      show u.th.vconf = _
      rw [hth]
      simp
    thread := by
      have hself : u.th = { s.th with v := u.th.v, vconf := u.th.vconf, compared := s.th.compared + 1 } := by rw [hth]
      show ({ u.th with pc := pcAfter u } : Thread) = _
      rw [hpc, hself]
      rfl
    memories := ⟨htcm, htiles, by show u.pads = _; rw [hframe], by show u.dram = _; rw [hframe]⟩
    machine := ⟨hseq, by show u.agenda = _; rw [hframe], by show u.front = _; rw [hframe], by show u.homes = _; rw [hframe], rfl⟩ }

/-- The queue's entry of a strided load names the addresses that were checked at issue, which lie in the own TCM. -/
theorem strided_places {p n stride : Nat} (h : p + (16 / n - 1) * stride + n ≤ 0xC000) :
    ((List.range (16 / n)).map fun i => (tcmAt p + i * stride) % 2 ^ 64) = ((List.range (16 / n)).map fun i => p + i * stride).map tcmAt := by
  rw [List.map_map]
  refine List.map_congr_left fun i hi => ?_
  have hlast : i * stride ≤ (16 / n - 1) * stride := Nat.mul_le_mul_right _ (by have := List.mem_range.1 hi; omega)
  simp only [Function.comp_apply, tcmAt]
  omega

/-- The addresses of a strided access are the base and multiples of the stride beyond it. -/
theorem State.strided_eq (s : State) (a b : BitVec 5) : s.strided a b =
    (List.range (16 / elemBytes s.src.vconf)).map fun i => ((s.x a).toNat + i * (s.x b).toNat) % 2 ^ 64 := by
  refine List.map_congr_left fun i _ => ?_
  rw [BitVec.toNat_add, BitVec.toNat_mul, BitVec.toNat_ofNat]
  simp

theorem VecLoad.captures {d : BitVec 5} {i : Instr} (h : VecLoad d i) : vCaptures i ≤ 4 := by cases h <;> simp [vCaptures]

/-- The load of a vector register from the own TCM. -/
structure TcmLoad (s : State) (d : BitVec 5) (i : Instr) (n : Nat) (ps : List Nat) (ops : List Word) : Prop where
  load : VecLoad d i
  legal : vLegal i s.src.vconf = true
  plain : d.toNat < 28
  places : (s.queuedEntry i (ops ++ [BitVec.ofNat 64 s.sp])).places = (ps.map tcmAt, n)
  size : n ∣ 16
  inside : ∀ p ∈ ps, p % n = 0 ∧ p + n ≤ 0xC000
  local_ : s.src.space.toNat < 0xFF00
  space : s.spaceOk s.src.space.toNat s.src.tenant = true
  clean : s.co.tcm.bad = []

section
variable {s : State} (h : VecReady s) (hp : s.th.pend = []) {d : BitVec 5} {i : Instr} {n : Nat} {ps : List Nat} {ops : List Word}
  (hi : TcmLoad s d i n ps ops)
include h hp hi

/-- It is queued. -/
theorem TcmLoad.queues (upd : State → State) : vecMem i false (ps.map tcmAt) n ops upd s =
    .next (stepsPast ((upd s).enqueue i (ops ++ [BitVec.ofNat 64 s.sp]))) :=
  vecMem_queues h hp hi.size hi.inside hi.local_ hi.space hi.legal (by simp [hi.load.reads]) (by simpa [hi.load.writes] using hi.plain)
    hi.load.captures false ops upd

/-- It gives v[d] what it makes of the bytes. -/
theorem TcmLoad.runs {P : Vec → Flags → Prop}
    (hP : P ((s.queuedEntry i (ops ++ [BitVec.ofNat 64 s.sp])).loaded (ofBytes (bytesAt s.co.tcm.bytes n ps))) 0) :
    VecRuns s d (vecMem i false (ps.map tcmAt) n ops (fun s => s) s) P := by
  obtain ⟨hdone, htcm, htiles⟩ := vecLoad_performed (seqIdle_of_vecReady h) hi.plain hi.load hi.places (tcm_below hi.size hi.inside) hi.clean rfl
  exact ⟨_, 0, hP, _, hi.queues h hp _, vecDone_of_performed hi.plain hdone htcm htiles⟩

end

end Sys2Proof.Machine

namespace Sys2Proof.Proofs

open Sys2Proof.Machine Sys2Proof.Claims

/-- Settles O27: the bytes at each word's places fill the lanes; VLDS.PI is queued with x[a] already moved. -/
theorem vectorLoadsReadTheOwnTcm : Obligations.VectorLoadsReadTheOwnTcm := by
  intro s d a b off p h hd hp hlocal hspace hbad w n base m
  obtain ⟨hn, hw⟩ : n ∣ 16 ∧ 8 * n = w := by
    obtain h | h | h | h := width_cases s <;> simp only [n, w, h] <;> decide
  have single : ∀ {k : Nat}, p % k = 0 → p + k ≤ 0xC000 → ∀ q ∈ [p], q % k = 0 ∧ q + k ≤ 0xC000 := by
    intro k haligned hinside q hq
    obtain rfl := List.mem_singleton.1 hq
    exact ⟨haligned, hinside⟩
  have hpos : 0 < n := Nat.pos_of_dvd_of_pos hn (by decide)
  refine ⟨fun he haligned hinside => ?vld, fun hty he haligned hinside => ?vldb,
    fun hty stride hbase hstride haligned hsteps hinside => ?strided⟩
  case vld =>
    have hplace : ([(BitVec.ofNat 64 (tcmAt p)).toNat], 16) = ([p].map tcmAt, 16) := by rw [toNat_tcmAt (by omega)]; rfl
    have hi : TcmLoad s d (.vld d a off) 16 [p] [BitVec.ofNat 64 (tcmAt p)] :=
      ⟨.vld a off, rfl, hd, hplace, by decide, single haligned hinside, hlocal, hspace, hbad⟩
    have hexec : exec (.vld d a off) s = vecMem (.vld d a off) false ([p].map tcmAt) 16 [BitVec.ofNat 64 (tcmAt p)] (fun s => s) s := by
      show execVld d a off s = _
      rw [execVld, eaOff_eq, he]
      rfl
    rw [hexec]
    refine hi.runs h hp ⟨rfl, fun k hk => ?_⟩
    have hbytes : ofBytes (bytesAt m 16 [p]) = leAt m p 16 := by simp [bytesAt, ofBytes_rdBytes]
    rw [hbytes]
    exact laneOf_vecOf_leAt m p hk
  case vldb =>
    have hplace : ([(BitVec.ofNat 64 (tcmAt p)).toNat], n) = ([p].map tcmAt, n) := by rw [toNat_tcmAt (by omega)]; rfl
    have hi : TcmLoad s d (.vldb d a off) n [p] [BitVec.ofNat 64 (tcmAt p)] :=
      ⟨.vldb a off, bne_iff_ne.2 hty, hd, hplace, hn, single haligned hinside, hlocal, hspace, hbad⟩
    have hexec : exec (.vldb d a off) s = vecMem (.vldb d a off) false ([p].map tcmAt) n [BitVec.ofNat 64 (tcmAt p)] (fun s => s) s := by
      show execVldb d a off s = _
      simp only [execVldb, eaOff_eq, elemBytes_width]
      change ea s a off (width s / 8) = base at he
      rw [he]
      rfl
    have hbytes : ofBytes (bytesAt m n [p]) = leAt m p n := by simp [bytesAt, ofBytes_rdBytes]
    have hlt := leAt_lt m p n
    have hlanes := lanes_splat s (leAt m p n)
    rw [hw] at hlt
    rw [Nat.mod_eq_of_lt hlt, ← hbytes] at hlanes
    rw [hexec]
    exact hi.runs h hp ⟨rfl, hbytes ▸ hlanes⟩
  case strided =>
    intro lanes
    let ps : List Nat := (List.range (16 / n)).map fun i => p + i * stride
    have hin : ∀ q ∈ ps, q % n = 0 ∧ q + n ≤ 0xC000 := by
      intro q hq
      obtain ⟨i, hi, rfl⟩ := List.mem_map.1 hq
      have hlast : i * stride ≤ (16 / n - 1) * stride := Nat.mul_le_mul_right _ (by have := List.mem_range.1 hi; omega)
      refine ⟨Nat.mod_eq_zero_of_dvd ?_, by omega⟩
      exact Nat.dvd_add (Nat.dvd_of_mod_eq_zero haligned) (Dvd.dvd.mul_left (Nat.dvd_of_mod_eq_zero hsteps) i)
    have hplaces : (List.range (16 / n)).map (fun i => ((s.x a).toNat + i * (s.x b).toNat) % 2 ^ 64) = ps.map tcmAt := by
      rw [← strided_places hinside]
      change (s.x a).toNat = base at hbase
      change (s.x b).toNat = stride at hstride
      rw [hbase, hstride]
      rfl
    have hstrided : s.strided a b = ps.map tcmAt := (s.strided_eq a b).trans hplaces
    have hload : ∀ {i : Instr}, VecLoad d i → (s.queuedEntry i ([s.x a, s.x b] ++ [BitVec.ofNat 64 s.sp])).places = (ps.map tcmAt, n) →
        vLegal i s.src.vconf = true → TcmLoad s d i n ps [s.x a, s.x b] :=
      fun hi hplaces legal => ⟨hi, legal, hd, hplaces, hn, hin, hlocal, hspace, hbad⟩
    refine ⟨?vlds, fun ha => ?vldsPi⟩
    case vlds =>
      have hi := hload (.vlds a b) (congrArg (·, n) hplaces) (bne_iff_ne.2 hty)
      have hexec : exec (.vlds d a b) s = vecMem (.vlds d a b) false (ps.map tcmAt) n [s.x a, s.x b] (fun s => s) s := by
        rw [← hstrided]
        rfl
      rw [hexec]
      exact hi.runs h hp ⟨rfl, lanes_bytesAt s m _⟩
    case vldsPi =>
      have hi := hload (.vldsPi a b) (congrArg (·, n) hplaces) (bne_iff_ne.2 hty)
      let moved : State := s.setX a (s.x a + BitVec.ofNat 64 (16 / n) * s.x b)
      have hexec : exec (.vldsPi d a b) s = vecMem (.vldsPi d a b) false (ps.map tcmAt) n [s.x a, s.x b]
          (fun s => s.setX a (s.x a + BitVec.ofNat 64 (16 / n) * s.x b)) s := by
        rw [← hstrided]
        rfl
      obtain ⟨hdone, htcm, -⟩ := vecLoad_performed (s := moved) ((seqIdle_of_vecReady h).setX a _) hd (VecLoad.vldsPi a b)
        (ops := [s.x a, s.x b] ++ [BitVec.ofNat 64 s.sp]) (congrArg (·, n) hplaces) (tcm_below hn hin) hbad rfl
      refine ⟨_, hexec.trans (hi.queues h hp _), ?_⟩
      obtain ⟨hvalue, hx, hdram⟩ := registers_of_performed hd hdone
      refine ⟨?value, (hx a.toNat).trans ?base, fun r hr => (hx r).trans ?others, htcm, hdram⟩
      case value =>
        rw [hvalue]
        exact lanes_bytesAt s m _
      case base => exact (Thread.getX_setX_same s.th a.toNat _).trans (by rw [Nat.mod_eq_of_lt ha]; rfl)
      case others => exact Thread.getX_setX_other s.th _ (by rwa [Nat.mod_eq_of_lt ha])

end Sys2Proof.Proofs
end

section
/-! PROOF. Vector stores (O28): v[d] is written under the mask, byte by byte (R191). -/

namespace Sys2Proof.Machine

open Sys2Proof.Claims

/-- Byte `k` of a register's bytes is its lane of 8 bits. -/
theorem getElem_toBytes (v : Vec) {k : Nat} (hk : k < (toBytes 16 v.toNat).length) : ((toBytes 16 v.toNat)[k]).toNat = laneOf v 8 k := by
  simp [toBytes, laneOf]

/-- VSTM stores the bytes whose mask byte has its top bit set. -/
theorem getD_maskOf (v : Vec) {k : Nat} (hk : k < 16) : (maskOf v).getD k true = true ↔ 128 ≤ laneOf v 8 k := by
  have hbit : v.getLsbD (8 * k + 7) = decide (v.toNat / 2 ^ (8 * k) / 2 ^ 7 % 2 = 1) := by
    rw [← BitVec.testBit_toNat, Nat.testBit_eq_decide_div_mod_eq, Nat.pow_add, Nat.div_div_eq_div_mul]
  have hget : (maskOf v).getD k true = v.getLsbD (8 * k + 7) := by simp [maskOf, hk]
  rw [hget, hbit, decide_eq_true_eq, laneOf]
  omega

/-- The bytes of the TCM after a store of v[d] at `p`, those of the mask's positions. -/
theorem bytes_wrMasked (m : Mem) (p : Nat) (v : Vec) (mask : List Bool) :
    (∀ k, k < 16 → mask.getD k true = true → (rd8 (wrMasked m p (toBytes 16 v.toNat) mask) (p + k)).toNat = laneOf v 8 k) ∧
    (∀ k, k < 16 → mask.getD k true ≠ true → rd8 (wrMasked m p (toBytes 16 v.toNat) mask) (p + k) = rd8 m (p + k)) ∧
    ∀ q, (q < p ∨ p + 16 ≤ q) → rd8 (wrMasked m p (toBytes 16 v.toNat) mask) q = rd8 m q := by
  have hlen : (toBytes 16 v.toNat).length = 16 := length_toBytes _ _
  refine ⟨fun k hk hset => ?_, fun k hk hclear => ?_, fun q hq => rd8_wrMasked_outside _ _ _ _ (hlen.symm ▸ hq)⟩
  · rw [rd8_wrMasked_inside m p _ mask (hlen.symm ▸ hk), if_pos hset, getElem_toBytes]
  · rw [rd8_wrMasked_inside m p _ mask (hlen.symm ▸ hk), if_neg hclear]

/-- What a word that has stored leaves beside the TCM. -/
theorem rest_of_performed {s u : State} (h : Performed s { s.th with compared := s.th.compared + 1 } u) :
    (stepsPast u).th = { (stepsPast s).th with compared := s.th.compared + 1 } ∧ u.pads = s.pads ∧ u.dram = s.dram := by
  obtain ⟨hframe, -⟩ := h
  have hth : u.th = { s.th with compared := s.th.compared + 1 } := by rw [hframe]
  have hpc : pcAfter u = pcAfter s := pcAfter_congr (by rw [hframe]) (by rw [hframe]) (by rw [hth])
  refine ⟨?_, by rw [hframe], by rw [hframe]⟩
  show ({ u.th with pc := pcAfter u } : Thread) = _
  rw [hpc, hth]
  rfl

end Sys2Proof.Machine

namespace Sys2Proof.Proofs

open Sys2Proof.Machine Sys2Proof.Claims

/-- Settles O28: v[d] is stored under each word's mask (`vecStore_performed`), byte by byte (`bytes_wrMasked`). -/
theorem vectorStoresWriteTheOwnTcm : Obligations.VectorStoresWriteTheOwnTcm := by
  intro s d a b off p h hd hb hp hlocal hspace hu haligned hinside base stored
  have hbelow : p < 0xC000 := by omega
  have hin : ∀ q ∈ [p], q % 16 = 0 ∧ q + 16 ≤ 0xC000 := by
    intro q hq
    obtain rfl := List.mem_singleton.1 hq
    exact ⟨haligned, hinside⟩
  have hplace : ([(BitVec.ofNat 64 (tcmAt p)).toNat], 16) = ([tcmAt p], 16) := by rw [toNat_tcmAt hbelow]
  have stores : ∀ {i : Instr} {mask : List Bool} {keep : Nat → Prop}, VecStore d s.th i mask → vLegal i s.src.vconf = true →
      vCaptures i = 1 → (s.queuedEntry i [BitVec.ofNat 64 (tcmAt p), BitVec.ofNat 64 s.sp]).places = ([tcmAt p], 16) →
      (∀ k, k < 16 → (mask.getD k true = true ↔ keep k)) →
      Next (vecMem i true ([p].map tcmAt) 16 [BitVec.ofNat 64 (tcmAt p)] (fun s => s) s) (stored keep) := by
    intro i mask keep hi legal hc hplaces hkeep
    obtain ⟨hdone, hbytes⟩ := vecStore_performed (seqIdle_of_vecReady h) hd hi hplaces hbelow hu
    obtain ⟨hth, hpads, hdram⟩ := rest_of_performed hdone
    obtain ⟨hset, hclear, hout⟩ := bytes_wrMasked s.co.tcm.bytes p (vsrc s d) mask
    have hqueues := vecMem_queues h hp (by decide) hin hlocal hspace legal (hi.reads hd) (by simp [hi.writes]) (by rw [hc]; decide) true
      [BitVec.ofNat 64 (tcmAt p)] fun s => s
    rw [← hbytes] at hset hclear hout
    exact ⟨_, hqueues, fun k hk hkp => hset k hk ((hkeep k hk).2 hkp), fun k hk hkp => hclear k hk fun hm => hkp ((hkeep k hk).1 hm),
      hout, hth, hpads, hdram⟩
  refine ⟨fun he => ?vst, fun he => ?vstm⟩
  case vst =>
    have hexec : exec (.vst d a off) s = vecMem (.vst d a off) true ([p].map tcmAt) 16 [BitVec.ofNat 64 (tcmAt p)] (fun s => s) s := by
      show execVst d a off s = _
      rw [execVst, eaOff_eq, he]
      rfl
    rw [hexec]
    exact stores (.vst a off) rfl rfl hplace fun k _ => by simp
  case vstm =>
    have hexec : exec (.vstm d a b) s = vecMem (.vstm d a b) true ([p].map tcmAt) 16 [BitVec.ofNat 64 (tcmAt p)] (fun s => s) s := by
      show execVstm d a b s = _
      change s.eaReg a = base at he
      rw [execVstm, he]
      rfl
    rw [hexec]
    exact stores (.vstm a hb) rfl rfl hplace fun k hk => getD_maskOf _ hk

end Sys2Proof.Proofs
end

section
/-! The counterexample to O52: the completion of a write stream that was refused, which had to wait for its mailbox. -/

namespace Sys2Proof.Proofs

open Sys2Proof.Machine Sys2Proof.Claims

/-- The copy of a write stream that was refused after one strip and has met a full mailbox: its entry is not placed yet, its work is over. -/
def refusedStream : Copy :=
  { kind := 7, state := 2, slot := 0, who := ⟨1, 1⟩, space := 0, tenant := 0, level := .task, work := .refused, entry := 2, status := 6
    a := 1, kind_ := .spawned }

/-- Its thread. -/
def streamOwner : Thread := { prog := 1, serial := 1 }

/-- Core 0 holds the thread and the copy; mailbox 0 has room again. -/
def refusedStreamWaits : State := { cores := [(0, { banks := [(0, streamOwner)], copies := [(3, refusedStream)] })] }

/-- The entries of mailbox 0 of core 0 in a next state. -/
def mailboxOf (o : Answer) : List Payload := match o with
  | .next t => (t.core 0).box 0
  | _ => []

theorem lives_streamOwner : Lives refusedStreamWaits ⟨1, 1⟩ 0 0 streamOwner := by
  constructor <;> decide +kernel

/-- The entry shows the 16 bytes of the strip, not one strip (R281, R293). -/
theorem copyCompletion_refusedStream : mailboxOf (exec .copyCompletion (On refusedStreamWaits (.copyCompletion 0 3))) =
    [entryOf 2 6 3 16 0 0 (streamOwner.id 0)] := by decide +kernel

/-- Refutes O52: its clause on completions of refused work shows the copy's count A as it is. The entry of a write stream that was killed or
refused shows bytes, 16 for each strip counted (`Copy.shownA`, R281, R293). -/
theorem not_copyEnginesMoveOn : ¬ Obligations.CopyEnginesMoveOn := by
  intro h
  obtain ⟨-, -, -, -, -, hcompletes⟩ := h refusedStreamWaits 0 3 refusedStream (by decide) rfl
  obtain ⟨t, ht, -, hbox⟩ := hcompletes 0 0 streamOwner rfl rfl rfl rfl lives_streamOwner (by decide) (by decide)
  have hshown : (t.core 0).box 0 = [entryOf 2 6 3 16 0 0 (streamOwner.id 0)] := by
    simpa only [ht, mailboxOf] using copyCompletion_refusedStream
  rw [hshown] at hbox
  exact absurd hbox (by decide +kernel)

end Sys2Proof.Proofs
end

section
/-! SUPPORT. Accesses at their places (R160, R166, R168-R171, R192, R213, R219): requests that wait for a slice, walks, confirmations, replies. -/

namespace Sys2Proof.Machine

open Sys2Proof.Claims

/-- An event that leaves a state known by another expression. -/
theorem next_of_eq {t u : State} {P : State → Prop} (h : t = u) (hp : P u) : Next (.next t) P := ⟨u, by rw [h], hp⟩

/-! ### Events that are added -/

/-- `t` is `s` with more events to come. -/
structure Posts (s t : State) : Prop where
  frame : t = { s with agenda := t.agenda }
  keeps : ∀ p ∈ s.agenda, p ∈ t.agenda

namespace Posts

variable {s t u : State}

theorem refl (s : State) : Posts s s := ⟨rfl, fun _ h => h⟩

theorem trans (h : Posts s t) (h' : Posts t u) : Posts s u := by
  obtain ⟨hf, hk⟩ := h
  obtain ⟨hf', hk'⟩ := h'
  refine ⟨?_, fun p hp => hk' p (hk p hp)⟩
  rw [hf'] at *
  rw [hf]

theorem post (s : State) (d : Nat) (e : Event) : Posts s (s.post d e) := ⟨rfl, fun _ hp => (State.mem_post _ _ _ _).2 (.inr hp)⟩

theorem ite {p : Prop} [Decidable p] (ht : Posts s t) (hu : Posts s u) : Posts s (if p then t else u) := by
  split <;> assumption

theorem homes (h : Posts s t) : t.homes = s.homes := by rw [h.frame]

theorem home (h : Posts s t) (n : Nat) : t.home n = s.home n := by rw [h.frame]; rfl

theorem pads (h : Posts s t) : t.pads = s.pads := by rw [h.frame]

theorem pad (h : Posts s t) (n : Nat) : t.pad n = s.pad n := by rw [h.frame]; rfl

theorem accs (h : Posts s t) : t.accs = s.accs := by rw [h.frame]

theorem front (h : Posts s t) : t.front = s.front := by rw [h.frame]

end Posts

theorem comes_post (s : State) (d : Nat) (e : Event) : Comes (s.post d e) (s.now + d) e := (State.mem_post _ _ _ _).2 (.inl rfl)

/-! ### A slice that is not awake (R166) -/

/-- A request that waits for a slice leaves everything but the agenda and the slice's waiting requests. -/
theorem State.awaitWake_posts (s : State) (h : Nat) (e : Event) :
    Posts (s.modHome h fun x => { x with waking := x.waking ++ [e] }) (s.awaitWake h e) := .ite (.post _ _ _) (.refl _)

/-- A request for a gated slice wakes it. -/
theorem State.awaitWake_wakes {s : State} {h : Nat} (hg : (s.home h).power = .gated) (e : Event) :
    Comes (s.awaitWake h e) s.now (.sliceWake h) ∧ ((s.awaitWake h e).home h).waking = (s.home h).waking ++ [e] := by
  have hwaking := congrArg Home.waking (((s.awaitWake_posts h e).home h).trans (State.home_modHome_same s h _))
  refine ⟨?_, hwaking⟩
  simp only [State.awaitWake, hg, if_true]
  exact comes_post _ 0 _

/-! ### An access that is done at its last place (R168, R169) -/

section
variable {s : State} {id : Nat} {a : Acc} {ea : Nat} (htodo : a.todo.drop 1 = []) (got : List Byte) (extra : Nat)
include htodo

/-- It takes what it got, and events are added. -/
theorem State.accGot_posts : Posts { s with accs := mset s.accs id { a with todo := [], done := a.done ++ got } } (s.accGot id a ea got extra) := by
  unfold State.accGot
  simp only [htodo]
  exact .ite (.ite (.refl _) (.post _ _ _)) (.trans (.ite (.refl _) (.post _ _ _)) (.post _ _ _))

/-- Off chip, the word that waits is told of the confirmation. -/
theorem State.accGot_confirms (hword : a.forWhom.isWord = true) (hea : onChip ea = false) (hprobe : a.op.isProbe = true) :
    Comes (s.accGot id a ea got extra) (s.now + s.legOf a ea) (.confirmation id) := by
  unfold State.accGot
  simp only [htodo, hea, hword, hprobe, Bool.not_true, Bool.or_self, Bool.false_eq_true, if_false, Bool.and_self, if_true]
  exact comes_post _ _ _

/-- A load or a store is answered. -/
theorem State.accGot_replies (hprobe : a.op.isProbe = false) (hplain : a.op.isAtomic = false) :
    Comes (s.accGot id a ea got 0) (s.now + s.legOf a ea) (.accessReply id) := by
  unfold State.accGot
  simp only [htodo, hprobe, hplain, Bool.false_and, Bool.false_eq_true, if_false, Nat.add_zero]
  split
  · exact comes_post _ _ _
  · exact comes_post _ _ _

end

/-! ### Answers and fault messages (R168, R221) -/

theorem State.answer_single {s : State} {w : Who} {id c b : Nat} {u : Thread} (h : Lives s w c b u) (hs : Single s id) (r : Reply) :
    s.answer w id r = s.answer1 w id r := by
  have hpairs : mget (s.answer1 w id r).pairs id = none := by
    rw [State.answer1_live h]
    exact hs
  simp only [State.answer, hpairs]

/-- The message of a fault, from its core to the service core. -/
def faultMsg (c : Nat) (f : FaultRec) (fid : Nat) : Msg :=
  ⟨c, faultTarget c, 4, BitVec.ofNat 256 (ofBytes (faultBody f fid)), .firmware, ⟨f.who.prog, 0⟩, 0, 3⟩

theorem State.mailFault_eq (s : State) (c : Nat) (f : FaultRec) (fid : Nat) : s.mailFault c f fid =
    if isCore c then s.emit c 1 (2 * (6 + 2 * hops (clusterOf c) (clusterOf (faultTarget c)))) (.mailboxArrival (faultMsg c f fid))
    else s.post (2 * (6 + 2 * hops (clusterOf c) (clusterOf (faultTarget c)))) (.mailboxArrival (faultMsg c f fid)) := rfl

theorem faultMail_mailFault (s : State) (c : Nat) (f : FaultRec) (fid : Nat) : FaultMail s (s.mailFault c f fid) c f fid := by
  refine ⟨faultMsg c f fid, rfl, rfl, rfl, rfl, ?_⟩
  rw [State.mailFault_eq]
  split
  · exact comes_emit s c 1 _ _
  · exact comes_post s _ _

/-- The clock and the core's egress buffer are what a fault message takes from the state. -/
theorem faultMail_of_eq {s s' t : State} {c fid : Nat} {f : FaultRec} (h : FaultMail s' t c f fid) (hnow : s'.now = s.now)
    (hegress : (s'.core c).egress = (s.core c).egress) : FaultMail s t c f fid := by
  unfold FaultMail at h ⊢
  rwa [hnow, hegress] at h

/-- A core that sends a fault message changes its egress buffer alone. -/
theorem State.core_mailFault (s : State) (c : Nat) (f : FaultRec) (fid : Nat) :
    ∃ e, (s.mailFault c f fid).core c = { s.core c with egress := e } := by
  rw [State.mailFault_eq]
  split
  · exact ⟨_, State.core_setCore_same _ _ _⟩
  · exact ⟨_, rfl⟩

/-! ### A request of a word at its home (R213) -/

section
variable {s : State} {id h n ea : Nat} {a : Acc} (hword : a.forWhom = .word n)
include hword

theorem State.serveSlice_local (hlocal : isLocal a.space = true) : s.serveSlice id a h ea =
    ((s.tlbHit h a.space ea).elim (s.dramTime.2.post s.dramTime.1 (.pageWalkComplete id)) fun t => s.translated id a h t ea 0) := by
  have hlt : a.space < 0xFF00 := of_decide_eq_true hlocal
  have hhost : isHost a.space = false := decide_eq_false (by omega)
  have hpeer : isPeer a.space = false := by simp [isPeer]; omega
  unfold State.serveSlice
  simp only [hword, hhost, hpeer, Bool.false_eq_true, if_false]
  cases s.tlbHit h a.space ea <;> rfl

/-- A probe that its translation permits is done there. -/
theorem State.translated_probe {t : Tlb} {wr : Bool} (hp : t.permits a.op.need = true) (hop : a.op = .probe wr) (extra : Nat) :
    s.translated id a h t ea extra = s.accGot id a ea [] extra := by
  have hprobe : a.op.isProbe = true := by rw [hop]; rfl
  have hslice : s.performSlice id a h t ea extra = s.accGot id a ea [] extra := by simp only [State.performSlice, hop]
  unfold State.translated
  simp only [hp, hword, hprobe, hslice, Bool.not_true, Bool.and_false, Bool.false_eq_true, if_false]

theorem State.failAcc_word (reason : Nat) : s.failAcc id a ea reason = s.post (s.legOf a ea) (.translationFault
    { core := a.core, who := a.who, bank := a.bank, of_ := .access id, offset := ea, space := a.space, kind := a.op.faultKind
      reason := reason, tenant := a.tenant, word := a.wordAddr }) := by
  unfold State.failAcc
  simp [hword]

end

/-! ### Walks and translations (R207, R210, R213) -/

/-- The walk does not read the event. -/
theorem State.walk_on (s : State) (e : Event) (sp ea : Nat) : (On s e).walk sp ea = s.walk sp ea := by
  have hfrom : ∀ tenant fuel table, (On s e).walkFrom sp tenant ea fuel table = s.walkFrom sp tenant ea fuel table := by
    intro tenant fuel
    induction fuel with
    | zero => exact fun _ => rfl
    | succ fuel ih =>
      intro table
      have hentry : ∀ p, (On s e).entry8 p = s.entry8 p := fun _ => rfl
      simp only [State.walkFrom, hentry, ih]
  exact hfrom _ _ _

theorem State.homes_orEntry (s : State) (a v : Nat) : (s.orEntry a v).homes = s.homes := by
  unfold State.orEntry State.pokeDram State.setDramSector
  dsimp only
  split <;> rfl

theorem SliceWork.now {s t : State} (h : SliceWork s t) : t.now = s.now := by
  obtain ⟨⟨_, _, _, _, _, _, rfl⟩, -⟩ := h
  rfl

theorem SliceWork.front {s t : State} (h : SliceWork s t) : t.front = s.front := by
  obtain ⟨⟨_, _, _, _, _, _, rfl⟩, -⟩ := h
  rfl

theorem SliceWork.legOf {s t : State} (h : SliceWork s t) (a : Acc) (ea : Nat) : t.legOf a ea = s.legOf a ea := by
  obtain ⟨⟨_, _, _, _, _, _, rfl⟩, -⟩ := h
  rfl

theorem SliceWork.addTlb (s : State) (h : Nat) (t : Tlb) : SliceWork s (s.addTlb h t) := (modHome s h _).trans (orEntry _ _ _)

theorem State.mem_addTlb (s : State) (h : Nat) (t : Tlb) : t ∈ ((s.addTlb h t).home h).tlb := by
  have hhome : ((s.addTlb h t).home h).tlb = (t :: (s.home h).tlb).take 1024 := by
    unfold State.addTlb State.home
    rw [State.homes_orEntry]
    exact congrArg Home.tlb (State.home_modHome_same s h _)
  rw [hhome, List.take_succ_cons]
  exact List.mem_cons_self ..

end Sys2Proof.Machine
end

section
/-! PROOF. Accesses of words (O51): requests at a slice, walks, remote memories, confirmations and replies. -/

namespace Sys2Proof.Machine

open Sys2Proof.Claims

section
variable {s : State} {id n : Nat} {a : Acc} {ea : Nat} (ha : mget s.accs id = some a) (htodo : a.todo = [ea])
include ha htodo

/-! ### At the home slice (R166, R213) -/

theorem State.sliceRequest_awake (hpower : (s.home (s.homeOf a.space ea)).power = .awake) :
    s.sliceRequest id = s.serveSlice id a (s.homeOf a.space ea) ea := by
  simp only [State.sliceRequest, ha, htodo, List.headD_cons, hpower, if_true]

theorem State.sliceRequest_asleep (hpower : (s.home (s.homeOf a.space ea)).power ≠ .awake) :
    s.sliceRequest id = s.awaitWake (s.homeOf a.space ea) (.sliceRequest id) := by
  simp only [State.sliceRequest, ha, htodo, List.headD_cons, hpower, if_false]

theorem sliceRequest_wakes (hpower : (s.home (s.homeOf a.space ea)).power = .gated) :
    Next (exec .sliceRequest (On s (.sliceRequest id))) fun t => Comes t s.now (.sliceWake (s.homeOf a.space ea)) ∧
      (t.home (s.homeOf a.space ea)).waking = (s.home (s.homeOf a.space ea)).waking ++ [.sliceRequest id] := by
  have hasleep : ((On s (.sliceRequest id)).home (s.homeOf a.space ea)).power ≠ .awake := by
    rw [show ((On s (.sliceRequest id)).home (s.homeOf a.space ea)).power = .gated from hpower]
    decide
  exact next_of_eq (State.sliceRequest_asleep (s := On s (.sliceRequest id)) ha htodo hasleep)
    (State.awaitWake_wakes (s := On s (.sliceRequest id)) hpower _)

variable (hword : a.forWhom = .word n)
include hword

section
variable (hlocal : isLocal a.space = true) (hpower : (s.home (s.homeOf a.space ea)).power = .awake)
include hlocal hpower

/-- The request as the slice serves it. -/
theorem sliceRequest_served : (On s (.sliceRequest id)).sliceRequest id =
    ((s.tlbHit (s.homeOf a.space ea) a.space ea).elim ((On s (.sliceRequest id)).dramTime.2.post s.dramTime.1 (.pageWalkComplete id))
      fun t => (On s (.sliceRequest id)).translated id a (s.homeOf a.space ea) t ea 0) :=
  (State.sliceRequest_awake (s := On s (.sliceRequest id)) ha htodo hpower).trans
    (State.serveSlice_local (s := On s (.sliceRequest id)) hword hlocal)

theorem sliceRequest_walks (hmiss : s.tlbHit (s.homeOf a.space ea) a.space ea = none) :
    Next (exec .sliceRequest (On s (.sliceRequest id))) fun t => Comes t (s.now + (1 + Config.dramDelay s.draw)) (.pageWalkComplete id) := by
  have hserved := sliceRequest_served ha htodo hword hlocal hpower
  rw [hmiss] at hserved
  exact next_of_eq hserved (comes_post _ _ _)

theorem sliceRequest_confirms {x : Tlb} {wr : Bool} (hhit : s.tlbHit (s.homeOf a.space ea) a.space ea = some x)
    (hp : x.permits a.op.need = true) (hop : a.op = .probe wr) (hea : onChip ea = false) :
    Next (exec .sliceRequest (On s (.sliceRequest id))) fun t => Comes t (s.now + s.legOf a ea) (.confirmation id) := by
  have hserved := sliceRequest_served ha htodo hword hlocal hpower
  rw [hhit] at hserved
  exact next_of_eq (hserved.trans (State.translated_probe hword hp hop 0))
    (State.accGot_confirms (s := On s (.sliceRequest id)) (by rw [htodo]; rfl) [] 0 (by rw [hword]; rfl) hea (by rw [hop]; rfl))

end

/-! ### Walks (R207-R210) -/

theorem State.walkDone_fails {r : Nat} (hwalk : s.walk a.space ea = .fail r) : s.walkDone id = s.failAcc id a ea r := by
  simp only [State.walkDone, ha, htodo, List.headD_cons, hword, reduceCtorEq, if_false, hwalk]

theorem State.walkDone_enters {t : Tlb} (hwalk : s.walk a.space ea = .leaf t) (hp : t.permits a.op.need = true) : s.walkDone id =
    (s.dramTime.2.addTlb (s.homeOf a.space ea) t).translated id a (s.homeOf a.space ea) t ea s.dramTime.1 := by
  simp only [State.walkDone, ha, htodo, List.headD_cons, hword, reduceCtorEq, if_false, hwalk, hp, if_true]

theorem pageWalkComplete_faults {r : Nat} (hwalk : s.walk a.space ea = .fail r) :
    Next (exec .pageWalkComplete (On s (.pageWalkComplete id))) fun t => ∃ f : FaultRec, f.of_ = .access id ∧ f.who = a.who ∧
      f.offset = ea ∧ f.space = a.space ∧ f.reason = r ∧ Comes t (s.now + s.legOf a ea) (.translationFault f) := by
  have hdone := State.walkDone_fails (s := On s (.pageWalkComplete id)) ha htodo hword ((s.walk_on _ _ _).trans hwalk)
  exact next_of_eq (hdone.trans (State.failAcc_word hword r)) ⟨_, rfl, rfl, rfl, rfl, rfl, comes_post _ _ _⟩

theorem pageWalkComplete_confirms {x : Tlb} {wr : Bool} (hwalk : s.walk a.space ea = .leaf x) (hp : x.permits a.op.need = true)
    (hop : a.op = .probe wr) (hea : onChip ea = false) :
    Next (exec .pageWalkComplete (On s (.pageWalkComplete id))) fun t => x ∈ (t.home (s.homeOf a.space ea)).tlb ∧
      Comes t (s.now + s.legOf a ea) (.confirmation id) := by
  have hdone := State.walkDone_enters (s := On s (.pageWalkComplete id)) ha htodo hword ((s.walk_on _ _ _).trans hwalk) hp
  rw [State.translated_probe hword hp hop] at hdone
  have hlast : a.todo.drop 1 = [] := by rw [htodo]; rfl
  refine next_of_eq hdone ⟨?_, ?_⟩
  · rw [(State.accGot_posts hlast [] _).home]
    exact State.mem_addTlb _ _ x
  · have hcomes := State.accGot_confirms (s := (On s (.pageWalkComplete id)).dramTime.2.addTlb (s.homeOf a.space ea) x) (id := id) hlast []
      s.dramTime.1 (by rw [hword]; rfl) hea (by rw [hop]; rfl)
    have hwork := SliceWork.addTlb (On s (.pageWalkComplete id)).dramTime.2 (s.homeOf a.space ea) x
    rwa [hwork.now, hwork.legOf] at hcomes

/-! ### A scratchpad of another cluster (R160, R192) -/

section
variable {cl off : Nat} (hwin : window ea = some (.pad cl off)) (hfree : s.padBusy cl = false)
include hwin hfree

omit hword in
theorem State.remoteAccess_pad : s.remoteAccess id = s.performAt id a ea (rdBytes (s.pad cl).bytes off a.size, (s.pad cl).poisoned off a.size)
    fun s d m => s.setPad cl ((s.pad cl).write off d m) := by
  simp only [State.remoteAccess, ha, htodo, List.headD_cons, hwin, hfree, Bool.false_eq_true, if_false]

theorem remoteAccess_writes {d : List Byte} {m : List Bool} (hop : a.op = .write d m) :
    Next (exec .remoteAccess (On s (.remoteAccess id))) fun t => t.pad cl = (s.pad cl).write off d m ∧
      Comes t (s.now + s.legOf a ea) (.accessReply id) := by
  have hpad := State.remoteAccess_pad (s := On s (.remoteAccess id)) ha htodo hwin hfree
  have hnote : ∀ bad tag, a.noteLine bad tag = a := by simp [Acc.noteLine, hword]
  simp only [State.performAt, hop, MemOp.isPlainWrite, hnote, MemOp.perform, Bool.not_true, Bool.and_false, Bool.false_eq_true, if_false] at hpad
  have hlast : a.todo.drop 1 = [] := by rw [htodo]; rfl
  refine next_of_eq hpad ⟨?_, ?_⟩
  · rw [(State.accGot_posts hlast [] 0).pad]
    exact State.pad_setPad_same _ _ _
  · exact State.accGot_replies hlast [] (by rw [hop]; rfl) (by rw [hop]; rfl)

theorem remoteAccess_reads (hop : a.op = .read) (hclean : (s.pad cl).poisoned off a.size = false) :
    Next (exec .remoteAccess (On s (.remoteAccess id))) fun t =>
      (mget t.accs id).map (·.done) = some (a.done ++ rdBytes (s.pad cl).bytes off a.size) ∧ t.pads = s.pads ∧
      Comes t (s.now + s.legOf a ea) (.accessReply id) := by
  have hpad := State.remoteAccess_pad (s := On s (.remoteAccess id)) ha htodo hwin hfree
  have hnote : ∀ bad tag, a.noteLine bad tag = a := by simp [Acc.noteLine, hword]
  have hclean' : ((On s (.remoteAccess id)).pad cl).poisoned off a.size = false := hclean
  simp only [State.performAt, hop, hclean', hnote, MemOp.perform, Bool.false_and, Bool.false_eq_true, if_false] at hpad
  have hlast : a.todo.drop 1 = [] := by rw [htodo]; rfl
  have hposts := State.accGot_posts (s := On s (.remoteAccess id)) (id := id) (ea := ea) hlast (rdBytes (s.pad cl).bytes off a.size) 0
  refine next_of_eq hpad ⟨?_, hposts.pads, ?_⟩
  · refine (congrArg (fun m => (mget m id).map (·.done)) hposts.accs).trans ?_
    show (mget (mset s.accs id _) id).map _ = _
    rw [mget_mset_same]
    rfl
  · exact State.accGot_replies hlast _ (by rw [hop]; rfl) (by rw [hop]; rfl)

end

/-! ### What reaches the thread (R168, R169) -/

section
variable {w : Who} {c b : Nat} {u : Thread} (hlives : Lives s w c b u) (hwho : a.who = w) (hs : Single s id)
include hlives hwho hs

omit htodo hword in
theorem confirmation_answers {wr : Bool} (hop : a.op = .probe wr) :
    Next (exec .confirmation (On s (.confirmation id))) fun t => mget t.accs id = none ∧
      mget (t.core c).banks b = some (u.answer id (.value 0)) := by
  subst hwho
  have hprobe : a.op.isProbe = true := by rw [hop]; rfl
  let v : State := { On s (.confirmation id) with accs := mdel s.accs id }
  have hv : Lives v a.who c b u := hlives.congr rfl
  have hconf : (On s (.confirmation id)).confirmed id = v.answer1 a.who id (.value 0) := by
    rw [← State.answer_single hv hs]
    have ha' : mget (On s (.confirmation id)).accs id = some a := ha
    simp only [State.confirmed, ha', hprobe, if_true]
    rfl
  refine next_of_eq hconf ⟨?_, hv.bank_answer1 _ _⟩
  rw [State.answer1_live hv]
  exact mget_mdel_same _ _

omit htodo in
theorem accessReply_answers (hacked : s.isUnacked w id = false) :
    Next (exec .accessReply (On s (.accessReply id))) fun t => mget t.accs id = none ∧
      mget (t.core c).banks b = some (u.answer id (.value (ofBytes a.done))) := by
  subst hwho
  let v : State := { On s (.accessReply id) with accs := mdel s.accs id }
  have hv : Lives v a.who c b u := hlives.congr rfl
  have ha' : mget (On s (.accessReply id)).accs id = some a := ha
  have hacked' : (On s (.accessReply id)).isUnacked a.who id = false := hacked
  have hrep : (On s (.accessReply id)).replied id = (v.answer1 a.who id (.value (ofBytes a.done))).releaseIfDrained a.who := by
    rw [← State.answer_single hv hs]
    simp only [State.replied, ha', hword, hacked', Bool.false_eq_true, if_false]
    rfl
  obtain ⟨l, hl⟩ := (v.answer1 a.who id (.value (ofBytes a.done))).releaseIfDrained_agenda a.who
  refine next_of_eq (hrep.trans hl) ⟨?_, hv.bank_answer1 _ _⟩
  rw [State.answer1_live hv]
  exact mget_mdel_same _ _

end

end

end Sys2Proof.Machine
end

section
/-! PROOF. Faults, cache operations and recalls of accesses (O51): what their events leave (R171, R196, R221). -/

namespace Sys2Proof.Machine

open Sys2Proof.Claims

/-- With no context at its place, a core sends for itself (R221). -/
theorem State.senderOf_core (s : State) {c : Nat} (hc : c < 2 ^ 20) : s.senderOf c = c := by
  simp only [State.senderOf, ctxOf?_of_lt hc]

section
variable {s : State} {id : Nat} {a : Acc} (ha : mget s.accs id = some a)
include ha

/-! ### The fault of a thread's access (R221) -/

/-- The thread waits for the reply to the fault that its core has numbered. -/
def blockedOn (fid : Nat) (f : FaultRec) (now : Nat) (t : Thread) : Thread := { t with fault := some (fid, f), st := .blocked .faultReply, since := now }

theorem translationFault_blocks {w : Who} {c b : Nat} {u : Thread} (hlives : Lives s w c b u) {f : FaultRec} (hof : f.of_ = .access id)
    (hwho : f.who = w) (hcore : f.core = c) (hnone : u.fault = none) :
    Next (exec .translationFault (On s (.translationFault f))) fun t => FaultMail s t c f ((s.core c).faultIds + 1) ∧
      mget (t.core c).banks b = some (blockedOn ((s.core c).faultIds + 1) f s.now u) := by
  subst hwho
  have hlives' : Lives (On s (.translationFault f)) f.who c b u := hlives.congr rfl
  obtain ⟨hc, hloc, hbankOf, hget, -⟩ := hlives'
  have ha' : mget (On s (.translationFault f)).accs id = some a := ha
  let fid := (s.core c).faultIds + 1
  let v : State := (On s (.translationFault f)).modCore c fun k => { k with faultIds := fid }
  have hv : Lives v f.who c b u := (hlives.congr (t := On s (.translationFault f)) rfl).setCore hbankOf hget
  let x : State := v.modThread f.who (blockedOn fid f s.now)
  have hx : x = v.modCore c fun k => k.modBank b (blockedOn fid f s.now) := hv.modThread _
  have hfault : (On s (.translationFault f)).threadFault f id = x.mailFault c f fid := by
    have hthread : (On s (.translationFault f)).thread? f.who = some u := (hlives.congr (t := On s (.translationFault f)) rfl).thread
    simp only [State.threadFault, ha', Option.isNone_some, Bool.false_and, Bool.false_eq_true, if_false, hthread, hnone, Option.isSome_none,
      hloc, State.newFaultId, hcore]
    rw [State.senderOf_core _ hc]
    rfl
  have hexec : exec .translationFault (On s (.translationFault f)) = .next (x.mailFault c f fid) := by
    rw [← hfault]
    show execTranslationFault (On s (.translationFault f)) = _
    simp only [execTranslationFault, hof]
  have hxcore : x.core c = ({ s.core c with faultIds := fid } : Core).modBank b (blockedOn fid f s.now) := by
    rw [hx, State.core_modCore_same, State.core_modCore_same]
    rfl
  refine ⟨_, hexec, faultMail_of_eq (faultMail_mailFault x c f fid) (by rw [hx]; rfl) (by rw [hxcore]; rfl), ?_⟩
  obtain ⟨e, he⟩ := x.core_mailFault c f fid
  rw [he, hxcore]
  exact Core.modBank_bank _ hget

/-! ### Cache operations and recalls (R171, R196) -/

theorem cacheOpComplete_ends {c b : Nat} {u : Thread} (hc : c < 2 ^ 20) (hloc : s.locateAny a.who = some (c, b))
    (hu : mget (s.core c).banks b = some u) : Next (exec .cacheOpComplete (On s (.cacheOpComplete id))) fun t => mget t.accs id = none ∧
      mget (t.core c).banks b = some { u with cacheOps := u.cacheOps.filter (· != id) } := by
  let v : State := { On s (.cacheOpComplete id) with accs := mdel s.accs id }
  have ha' : mget (On s (.cacheOpComplete id)).accs id = some a := ha
  have hdone : (On s (.cacheOpComplete id)).cacheOpDone id =
      v.modCore c fun k => k.modBank b fun t => { t with cacheOps := t.cacheOps.filter (· != id) } := by
    rw [← State.modAny_of_lt (s := v) (w := a.who) hc hloc]
    simp only [State.cacheOpDone, ha']
    rfl
  refine next_of_eq hdone ⟨mget_mdel_same _ _, ?_⟩
  rw [State.core_modCore_same]
  exact Core.modBank_bank _ hu

theorem overflowRecall_frees : Next (exec .overflowRecall (On s (.overflowRecall id))) fun t => Comes t (s.now + 2 * 6) (.overflowRecallAnswer id) ∧
    ∀ e ∈ (t.core (coreId (s.homeOf a.space (a.todo.headD 0)) 16)).overflow, e.1 ≠ s.lineKey a := by
  have ha' : mget (On s (.overflowRecall id)).accs id = some a := ha
  have hhome : (On s (.overflowRecall id)).homeOf a.space (a.todo.headD 0) = s.homeOf a.space (a.todo.headD 0) := rfl
  show Next (execOverflowRecall (On s (.overflowRecall id))) _
  simp only [execOverflowRecall, ha', hhome]
  refine ⟨_, rfl, comes_post _ _ _, fun e he => ?_⟩
  rw [State.core_post, State.core_modCore_same] at he
  have hne := (List.mem_filter.1 he).2
  exact bne_iff_ne.1 hne

theorem overflowRecallAnswer_goesOn :
    let key := s.lineKey a
    let recalled (l : SLine) : SLine := if l.is false key.1 key.2.1 key.2.2 = true then { l with overflowed := false } else l
    exec .overflowRecallAnswer (On s (.overflowRecallAnswer id)) = .next
      (((On s (.overflowRecallAnswer id)).modHome (s.homeOf a.space (a.todo.headD 0)) fun x =>
        { x with lines := x.lines.map recalled }).sliceRequest id) := by
  intro key recalled
  have ha' : mget (On s (.overflowRecallAnswer id)).accs id = some a := ha
  have hclear : (On s (.overflowRecallAnswer id)).clearOverflowBit (s.homeOf a.space (a.todo.headD 0)) key [] =
      (On s (.overflowRecallAnswer id)).modHome (s.homeOf a.space (a.todo.headD 0)) fun x => { x with lines := x.lines.map recalled } := by
    have hall : ∀ l : List Nat, l.filter (fun c => !([] : List Nat).contains (clusterOf c)) = l := fun l => by simp
    unfold State.clearOverflowBit
    simp only [hall]
    rfl
  rw [← hclear]
  show execOverflowRecallAnswer (On s (.overflowRecallAnswer id)) = _
  simp only [execOverflowRecallAnswer, ha']
  rfl

end

end Sys2Proof.Machine
end

section
/-! PROOF. Leased translations (O51): what the peer's reply leaves at the home slice (R219). -/

namespace Sys2Proof.Machine

open Sys2Proof.Claims

/-- From `s` to `t` no slice's translations change, and no event is lost. -/
structure Asks (s t : State) : Prop where
  tlb : ∀ h, (t.home h).tlb = (s.home h).tlb
  keeps : ∀ p ∈ s.agenda, p ∈ t.agenda

namespace Asks

variable {s t u : State}

theorem refl (s : State) : Asks s s := ⟨fun _ => rfl, fun _ h => h⟩

theorem trans (h : Asks s t) (h' : Asks t u) : Asks s u := ⟨fun n => (h'.tlb n).trans (h.tlb n), fun p hp => h'.keeps p (h.keeps p hp)⟩

theorem of_posts (h : Posts s t) : Asks s t := ⟨fun n => congrArg Home.tlb (h.home n), h.keeps⟩

theorem ite {p : Prop} [Decidable p] (ht : Asks s t) (hu : Asks s u) : Asks s (if p then t else u) := by
  split <;> assumption

/-- Requests, what leaves through a port, and free values have no part in it. -/
theorem of_frame (s : State) (m : Map Acc) (f : Front) (d : Nat) : Asks s { s with accs := m, front := f, draw := d } :=
  ⟨fun _ => rfl, fun _ h => h⟩

theorem post (s : State) (d : Nat) (e : Event) : Asks s (s.post d e) := of_posts (.post _ _ _)

theorem failAcc (s : State) (id : Nat) (a : Acc) (ea reason : Nat) : Asks s (s.failAcc id a ea reason) := by
  unfold State.failAcc
  split
  · exact of_frame _ _ _ _
  · exact post _ _ _

theorem accGot (s : State) (id : Nat) (a : Acc) (ea : Nat) (got : List Byte) (extra : Nat) : Asks s (s.accGot id a ea got extra) := by
  unfold State.accGot
  dsimp only
  split
  · exact (of_frame s _ _ _).trans (post _ _ _)
  · refine (of_frame s (mset s.accs id { a with todo := a.todo.drop 1, done := a.done ++ got }) s.front s.draw).trans ?_
    have hconfirm : ∀ (p : Prop) [Decidable p] (v : State) (d : Nat) (e : Event), Asks v (if p then v else v.post d e) :=
      fun p _ v d e => ite (refl v) (post v d e)
    exact (hconfirm _ _ _ _).trans (ite (refl _) (post _ _ _))

theorem foreign (s : State) (f : Nat → Byte) (n : Nat) : Asks s (s.foreign f n).2 := by
  induction n generalizing s with
  | zero => exact refl s
  | succ n ih => exact (of_frame s s.accs s.front (s.draw + 1)).trans (ih _)

theorem performAway (s : State) (id : Nat) (a : Acc) (ea : Nat) (f : Nat → Byte) : Asks s (s.performAway id a ea f) := by
  have hport : Asks s s.portTime.2 := of_frame s _ _ _
  unfold State.performAway
  dsimp only
  split
  · exact hport.trans (accGot _ _ _ _ _ _)
  · exact hport.trans (accGot _ _ _ _ _ _)
  · exact hport.trans (accGot _ _ _ _ _ _)
  · exact (hport.trans (foreign _ _ _)).trans (accGot _ _ _ _ _ _)

theorem peerAccess (s : State) (id : Nat) (a : Acc) (h ea : Nat) : Asks s (s.peerAccess id a h ea) := by
  unfold State.peerAccess
  dsimp only
  split
  · exact failAcc _ _ _ _ _
  · refine ite (failAcc _ _ _ _ _) ?_
    split
    · exact ite (failAcc _ _ _ _ _) ((of_frame s _ _ _).trans (performAway _ _ _ _ _))
    · exact (of_frame s _ _ _).trans (post _ _ _)

/-- A request for a slice under a peer window. -/
theorem sliceRequest {id n : Nat} {a : Acc} (ha : mget s.accs id = some a) (hword : a.forWhom = .word n) (hpeer : isPeer a.space = true) :
    Asks s (s.sliceRequest id) := by
  have hhost : isHost a.space = false := by
    unfold isPeer at hpeer
    unfold isHost
    simp at hpeer ⊢
    omega
  have hserve : ∀ h ea, s.serveSlice id a h ea = s.peerAccess id a h ea := by
    intro h ea
    simp only [State.serveSlice, hword, hhost, hpeer, Bool.false_eq_true, if_false, if_true]
  have hwait : ∀ h e, Asks s (s.awaitWake h e) := by
    intro h e
    refine trans (t := s.modHome h fun x => { x with waking := x.waking ++ [e] }) ⟨fun k => ?_, fun _ hp => hp⟩
      (of_posts (s.awaitWake_posts h e))
    by_cases hk : k = h
    · subst hk
      rw [State.home_modHome_same]
    · exact congrArg Home.tlb (State.home_setHome_other _ _ hk)
  simp only [State.sliceRequest, ha, hserve]
  exact ite (peerAccess _ _ _ _ _) (hwait _ _)

end Asks

/-- The offsets of a window that lie in the page that the peer has lent. -/
def State.leasedPage (s : State) (sp ea : Nat) (rd wr : Bool) (size : Nat) : Tlb :=
  let n := leafSize size
  let before := min ea (((s.spaceEntry sp).2 + ea) % n)
  { tenant := spaceTenant (s.spaceEntry sp), space := sp, page := ea - before
    size := n - ((s.spaceEntry sp).2 + ea) % n + before, frame := 0, rd := rd, wr := wr, hint := false, pinned := false, region := 0
    key := 0, entry := 0, lease := some (s.meridianNow + leaseTime s.front.lease) }

theorem State.takeLease_eq (s : State) (sp ea : Nat) (rd wr : Bool) (size : Nat) : s.takeLease sp ea rd wr size =
    (s.modHome (s.homeOf sp ea) fun x => { x with tlb := (s.leasedPage sp ea rd wr size :: x.tlb).take 1024 }).postAt
      (s.meridianNow + leaseTime s.front.lease) (.leaseExpiry (s.homeOf sp ea) sp (s.leasedPage sp ea rd wr size).page) := rfl

theorem State.comes_takeLease (s : State) (sp ea : Nat) (rd wr : Bool) (size : Nat) : Comes (s.takeLease sp ea rd wr size)
    (s.now + leaseTime s.front.lease) (.leaseExpiry (s.homeOf sp ea) sp (s.leasedPage sp ea rd wr size).page) := by
  refine (State.mem_post _ _ _ _).2 (.inl (congrArg (·, _) ?_))
  show s.now + leaseTime s.front.lease = s.now + (s.meridianNow + leaseTime s.front.lease - s.meridianNow)
  omega

theorem State.mem_takeLease (s : State) (sp ea : Nat) (rd wr : Bool) (size : Nat) :
    s.leasedPage sp ea rd wr size ∈ ((s.takeLease sp ea rd wr size).home (s.homeOf sp ea)).tlb := by
  have hhome : ((s.takeLease sp ea rd wr size).home (s.homeOf sp ea)).tlb =
      (s.leasedPage sp ea rd wr size :: (s.home (s.homeOf sp ea)).tlb).take 1024 :=
    congrArg Home.tlb (State.home_modHome_same s (s.homeOf sp ea) fun x =>
      { x with tlb := (s.leasedPage sp ea rd wr size :: x.tlb).take 1024 })
  rw [hhome, List.take_succ_cons]
  exact List.mem_cons_self ..

/-- They end where the page of the peer does. -/
theorem State.leasedPage_ends (s : State) (sp ea : Nat) (rd wr : Bool) (size : Nat) :
    (s.spaceEntry sp).2 + (s.leasedPage sp ea rd wr size).page + (s.leasedPage sp ea rd wr size).size =
      ((s.spaceEntry sp).2 + ea) / leafSize size * leafSize size + leafSize size := by
  have hpos : 0 < leafSize size := by
    unfold leafSize
    split <;> decide
  unfold State.leasedPage
  dsimp only
  generalize (s.spaceEntry sp).2 = base
  generalize leafSize size = n at hpos ⊢
  have hmod := Nat.mod_lt (base + ea) hpos
  have hdiv := Nat.div_add_mod' (base + ea) n
  have hmin := Nat.min_le_left ea ((base + ea) % n)
  generalize min ea ((base + ea) % n) = before at hmin ⊢
  omega

section
variable {s : State} {id n : Nat} {a : Acc} (ha : mget s.accs id = some a) (hword : a.forWhom = .word n)
include ha hword

/-- The page that the peer has lent, as the slice enters it. -/
theorem peerTranslationReply_leases (hpeer : isPeer a.space = true) (rd wr : Bool) (size : Nat) :
    let ea := a.todo.headD 0
    let h := s.homeOf a.space ea
    let stop := leaseTime s.front.lease
    let page := ea - min ea (((s.spaceEntry a.space).2 + ea) % leafSize size)
    Next (exec .peerTranslationReply (On s (.peerTranslationReply id none rd wr size))) fun t =>
      Comes t (s.now + stop) (.leaseExpiry h a.space page) ∧ ∃ x ∈ (t.home h).tlb, x.space = a.space ∧ x.page = page ∧
        (s.spaceEntry a.space).2 + x.page + x.size = ((s.spaceEntry a.space).2 + ea) / leafSize size * leafSize size + leafSize size ∧
        x.rd = rd ∧ x.wr = wr ∧ x.lease = some (s.meridianNow + stop) := by
  intro ea h stop page
  have ha' : mget (On s (.peerTranslationReply id none rd wr size)).accs id = some a := ha
  let v := (On s (.peerTranslationReply id none rd wr size)).takeLease a.space ea rd wr size
  have hexec : exec .peerTranslationReply (On s (.peerTranslationReply id none rd wr size)) = .next (v.sliceRequest id) := by
    show execPeerTranslationReply (On s (.peerTranslationReply id none rd wr size)) = _
    simp only [execPeerTranslationReply, ha']
    rfl
  obtain ⟨htlb, hkeeps⟩ := Asks.sliceRequest (s := v) (id := id) ha hword hpeer
  have hentered := State.mem_takeLease (On s (.peerTranslationReply id none rd wr size)) a.space ea rd wr size
  have hexpires := State.comes_takeLease (On s (.peerTranslationReply id none rd wr size)) a.space ea rd wr size
  exact ⟨_, hexec, hkeeps _ hexpires, s.leasedPage a.space ea rd wr size, (htlb h).symm ▸ hentered, rfl, rfl, s.leasedPage_ends _ _ _ _ _,
    rfl, rfl, rfl⟩

theorem peerTranslationReply_faults (r : Nat) (rd wr : Bool) (size : Nat) :
    Next (exec .peerTranslationReply (On s (.peerTranslationReply id (some r) rd wr size))) fun t => ∃ f : FaultRec,
      f.of_ = .access id ∧ f.who = a.who ∧ f.offset = a.todo.headD 0 ∧ f.reason = r ∧
      Comes t (s.now + s.legOf a (a.todo.headD 0)) (.translationFault f) := by
  have ha' : mget (On s (.peerTranslationReply id (some r) rd wr size)).accs id = some a := ha
  have hfail := State.failAcc_word (s := On s (.peerTranslationReply id (some r) rd wr size)) (id := id) (ea := a.todo.headD 0) hword r
  show Next (execPeerTranslationReply (On s (.peerTranslationReply id (some r) rd wr size))) _
  simp only [execPeerTranslationReply, ha', hfail]
  exact ⟨_, rfl, _, rfl, rfl, rfl, rfl, comes_post _ _ _⟩

end

end Sys2Proof.Machine
end

section
/-! PROOF. Replies to faults (O51): a fault that is outstanding on its core, and the copy that it stopped (R221-R223). -/

namespace Sys2Proof.Machine

open Sys2Proof.Claims

/-! ### The copy of a fault -/

theorem State.clearCopyFault_core {s : State} {c : Nat} (hc : c < 2 ^ 20) (k state : Nat) : s.clearCopyFault c k state =
    s.modCore c fun x => { x with
      copies := mmod x.copies k fun y => { y with state := state, faultId := 0, fault := none }
      banks := x.banks.map fun b => (b.1, { b.2 with
        streams := b.2.streams.map fun e => if e.2.copy == k then (e.1, { e.2 with fault := false }) else e }) } :=
  State.modCoreAt_of_lt _ hc _

/-- A copy that is no stream's ends KILLED. -/
theorem State.killCopy_core {s : State} {c k : Nat} {z : Copy} (hc : c < 2 ^ 20) (hz : mget (s.core c).copies k = some z)
    (hstream : ∀ reg, z.work ≠ .stream reg) : ∃ u : State, s.killCopy c k = u.post 2 (.copyCompletion c k) ∧ u.now = s.now ∧
      mget (u.core c).copies k = some { z with state := 3, status := 1, faultId := 0, fault := none } := by
  let v : State := s.clearCopyFault c k 3
  let u : State := v.modCore c fun x => { x with
    copies := mmod x.copies k fun y => { y with status := 1 }
    banks := x.banks.map fun b => (b.1, { b.2 with
      streams := b.2.streams.map fun e => if e.2.copy == k then (e.1, { e.2 with killed := true }) else e }) }
  have hv : mget (v.core c).copies k = some { z with state := 3, faultId := 0, fault := none } := by
    show mget ((s.clearCopyFault c k 3).core c).copies k = _
    rw [State.clearCopyFault_core hc, State.core_modCore_same]
    exact mget_mmod_same _ hz
  have hu : mget (u.core c).copies k = some { z with state := 3, status := 1, faultId := 0, fault := none } := by
    rw [State.core_modCore_same]
    exact mget_mmod_same _ hv
  refine ⟨u, ?_, ?_, hu⟩
  · have hstep : ∀ x : State, x = u → (match mget (x.coreAt c).copies k with
        | some { work := .stream _, .. } => x
        | _ => x.post 2 (.copyCompletion c k)) = u.post 2 (.copyCompletion c k) := by
      rintro _ rfl
      rw [State.coreAt_of_lt _ hc, hu]
      split
      · next hwork => exact absurd (congrArg Copy.work (Option.some.inj hwork)) (hstream _)
      · rfl
    exact hstep _ (State.modCoreAt_of_lt _ hc _)
  · show (s.clearCopyFault c k 3).now = _
    rw [State.clearCopyFault_core hc]
    rfl

section
variable {s : State} {c id : Nat} {f : FaultRec} {y : Option Nat} (hc : c < 2 ^ 20) (hfault : (s.core c).faultOf c id = some (f, y))
include hc hfault

/-- A fault that its own core has outstanding is found there. -/
theorem State.faultPlace_core : s.faultPlace c id = some c := by
  have hsome : ((s.coreAt c).faultOf c id).isSome = true := by
    rw [State.coreAt_of_lt _ hc, hfault]
    rfl
  simp only [State.faultPlace, State.placesOf, List.cons_append, List.find?_cons, hsome]

theorem faultMessageResend_sends : Next (exec .faultMessageResend (On s (.faultMessageResend c id))) fun t => FaultMail s t c f id ∧
    id ∉ (t.core c).keptFaults := by
  let v : State := (On s (.faultMessageResend c id)).modCore c fun k => { k with keptFaults := k.keptFaults.filter (· != id) }
  have hcore : v.core c = { s.core c with keptFaults := (s.core c).keptFaults.filter (· != id) } := State.core_modCore_same _ _ _
  have hfault' : (v.core c).faultOf c id = some (f, y) := by
    rw [hcore]
    exact hfault
  have hplace : v.faultPlace c id = some c := State.faultPlace_core hc hfault'
  have hexec : exec .faultMessageResend (On s (.faultMessageResend c id)) = .next (v.mailFault c f id) := by
    show execFaultMessageResend (On s (.faultMessageResend c id)) = _
    simp only [execFaultMessageResend]
    rw [show (On s (.faultMessageResend c id)).modCore c (fun k => { k with keptFaults := k.keptFaults.filter (· != id) }) = v from rfl]
    simp only [hplace, State.coreAt_of_lt _ hc, hfault', State.senderOf_core _ hc]
  obtain ⟨e, he⟩ := v.core_mailFault c f id
  refine ⟨_, hexec, faultMail_of_eq (faultMail_mailFault v c f id) rfl (by rw [hcore]), ?_⟩
  rw [he, hcore]
  simp

variable (hseized : (s.core c).seized = none)
include hseized

/-- A reply acts on the core that has the fault, out of whose mailbox 1 it is taken. -/
theorem State.onReply_core (code : Nat) (act : State → Nat → FaultRec → Option Nat → State) :
    s.onReply c id code act = act (s.modCore c fun k => k.takeReply id) c f y := by
  have hstream : s.streaming c = false := by
    rw [State.streaming_of_lt _ hc, hseized]
    rfl
  simp only [State.onReply, State.faultPlace_core hc hfault, State.coreAt_of_lt _ hc, hfault, hstream, ctxOf?_of_lt hc, Option.isSome_none,
    Bool.or_self, Bool.false_eq_true, if_false, State.modCoreAt_of_lt _ hc]

theorem faultReplyRetryLater_takes : exec .faultReplyRetryLater (On s (.faultReplyRetryLater c id)) =
    .next ((On s (.faultReplyRetryLater c id)).modCore c fun k => k.takeReply id) := by
  rw [← State.onReply_core (s := On s (.faultReplyRetryLater c id)) hc hfault hseized 1 fun s _ _ _ => s]
  rfl

section
variable {k : Nat} {z : Copy} (hy : y = some k) (hz : mget (s.core c).copies k = some z)
include hy hz

theorem faultReplyResume_resumes : Next (exec .faultReplyResume (On s (.faultReplyResume c id))) fun t =>
    Comes t (s.now + 2) (.copySectorReply c k) ∧
      (mget (t.core c).copies k).map (fun z => (z.state, z.faultId, z.fault)) = some (0, 0, none) := by
  subst hy
  let v : State := (On s (.faultReplyResume c id)).modCore c fun k => k.takeReply id
  have hreply := State.onReply_core (s := On s (.faultReplyResume c id)) hc hfault hseized 0 fun s p f y => s.resumeFault p f y
  have hz' : mget (v.core c).copies k = some z := by
    rw [State.core_modCore_same]
    exact hz
  have hresume : v.resumeFault c f (some k) = (v.clearCopyFault c k 0).post 2 (.copySectorReply c k) := rfl
  refine next_of_eq (hreply.trans hresume) ⟨?_, ?_⟩
  · rw [State.clearCopyFault_core hc]
    exact comes_post _ _ _
  · rw [State.clearCopyFault_core hc, State.core_post, State.core_modCore_same, mget_mmod_same _ hz']
    rfl

theorem faultReplyKill_kills (hstream : ∀ reg, z.work ≠ .stream reg) : Next (exec .faultReplyKill (On s (.faultReplyKill c id))) fun t =>
    Comes t (s.now + 2) (.copyCompletion c k) ∧
      (mget (t.core c).copies k).map (fun z => (z.state, z.status, z.faultId)) = some (3, 1, 0) := by
  subst hy
  let v : State := (On s (.faultReplyKill c id)).modCore c fun k => k.takeReply id
  have hreply := State.onReply_core (s := On s (.faultReplyKill c id)) hc hfault hseized 2 fun s p f y => match y, f.of_ with
    | some y, _ => s.killCopy p y
    | none, .access id => s.killAcc f id
    | none, .copy _ => s
  have hz' : mget (v.core c).copies k = some z := by
    rw [State.core_modCore_same]
    exact hz
  obtain ⟨u, hkill, hnow, hu⟩ := State.killCopy_core hc hz' hstream
  refine next_of_eq (hreply.trans hkill) ⟨?_, ?_⟩
  · rw [← show u.now = s.now from hnow]
    exact comes_post _ _ _
  · rw [State.core_post, hu]
    rfl

end

end

end Sys2Proof.Machine
end

section
/-! PROOF. Slices and the tree (O51): the overflow handler, the power of a slice, shoot-downs, region updates, what a peer asks for, and
leases that end (R166, R171, R215-R219, R373). -/

namespace Sys2Proof.Machine

open Sys2Proof.Claims

/-! ### The overflow handler (R171) -/

theorem overflowMessage_notes {s : State} {c n : Nat} {key : Nat × Nat × Nat} (hnew : ∀ e ∈ (s.core (coreId c 16)).overflow, e.1 ≠ key)
    (hroom : (s.core (coreId c 16)).overflow.length < 2048) :
    Next (exec .overflowMessage (On s (.overflowMessage c key.1 key.2.1 key.2.2 n))) fun t =>
      (t.core (coreId c 16)).overflow = (s.core (coreId c 16)).overflow ++ [(key, [n])] := by
  have hany : (s.core (coreId c 16)).overflow.any (fun e => e.1 == key) = false := by simpa using hnew
  have hnote : ∀ v : State, v.core (coreId c 16) = s.core (coreId c 16) → v.overflowNote c key n =
      v.modCore (coreId c 16) fun k => { k with overflow := k.overflow ++ [(key, [n])] } := by
    intro v hv
    unfold State.overflowNote
    simp only [hv, hany, Bool.false_eq_true, if_false]
    cases htable : (s.core (coreId c 16)).overflow with
    | nil => rfl
    | cons e l => simp only [if_neg (Nat.not_le.2 (htable ▸ hroom))]
  refine next_of_eq (hnote (On s (.overflowMessage c key.1 key.2.1 key.2.2 n)) rfl) ?_
  rw [State.core_modCore_same]
  rfl

/-! ### The power of a slice (R166) -/

theorem sliceGate_gates {s : State} {c : Nat} (hc : c < 32) (hidle : s.clusterIdle c = true) (hpower : (s.home c).power = .awake)
    (hqueues : (s.home c).queues = []) (hpools : (s.home c).pools = []) (hspilled : (s.home c).spilled = [])
    (hlines : ∀ l ∈ (s.home c).lines, l.overflowed = false) : Next (exec .sliceGate (On s (.sliceGate c))) fun t =>
      (t.home c).power = .gated ∧ (t.home c).lines = [] ∧ (t.home c).tlb = [] := by
  have hany : (s.home c).lines.any (·.overflowed) = false := by simpa using hlines
  have hhome : (On s (.sliceGate c)).home c = s.home c := rfl
  have hidle' : (On s (.sliceGate c)).clusterIdle c = true := hidle
  show Next (execSliceGate (On s (.sliceGate c))) _
  simp only [execSliceGate, hhome, hpower, hqueues, hpools, hspilled, hany, hidle', Nat.not_le.2 hc, ne_eq, not_true_eq_false,
    List.isEmpty_nil, Bool.not_true, Bool.or_self, decide_false, Bool.false_eq_true, if_false]
  refine ⟨_, rfl, ?_⟩
  beta_reduce
  rw [State.home_modHome_same]
  exact ⟨rfl, rfl, rfl⟩

theorem sliceWake_wakes {s : State} {c : Nat} (hpower : (s.home c).power = .gated) : Next (exec .sliceWake (On s (.sliceWake c))) fun t =>
    (t.home c).power = .waking ∧ Comes t (s.now + 2 * 1200) (.sliceWakeComplete c) := by
  have hpower' : ((On s (.sliceWake c)).home c).power = .gated := hpower
  show Next (execSliceWake (On s (.sliceWake c))) _
  simp only [execSliceWake, hpower', ne_eq, not_true_eq_false, if_false]
  refine ⟨_, rfl, ?_, comes_post _ _ _⟩
  rw [(Posts.post _ _ _).home, State.home_modHome_same]

/-- Events that come about at once. -/
theorem posts_foldl (l : List Event) (s : State) : Posts s (l.foldl (fun s e => s.post 0 e) s) ∧
    ∀ e ∈ l, Comes (l.foldl (fun s e => s.post 0 e) s) s.now e := by
  induction l generalizing s with
  | nil => exact ⟨.refl s, fun e he => nomatch he⟩
  | cons x l ih =>
    obtain ⟨hposts, hcomes⟩ := ih (s.post 0 x)
    refine ⟨(Posts.post s 0 x).trans hposts, fun e he => ?_⟩
    obtain rfl | he := List.mem_cons.1 he
    · exact hposts.keeps _ (comes_post s 0 e)
    · exact hcomes e he

theorem State.power_wakeNow (s : State) (h : Nat) : ((s.wakeNow h).home h).power = .awake := by
  unfold State.wakeNow
  split
  · assumption
  · rw [State.home_modHome_same]

theorem State.now_wakeNow (s : State) (h : Nat) : (s.wakeNow h).now = s.now := by
  unfold State.wakeNow
  split <;> rfl

theorem sliceWakeComplete_wakes (s : State) (c : Nat) : Next (exec .sliceWakeComplete (On s (.sliceWakeComplete c))) fun t =>
    (t.home c).power = .awake ∧ (t.home c).waking = [] ∧ ∀ e ∈ (s.home c).waking, Comes t s.now e := by
  let v : State := ((On s (.sliceWakeComplete c)).wakeNow c).modHome c fun x => { x with waking := [] }
  obtain ⟨hposts, hcomes⟩ := posts_foldl (s.home c).waking v
  have hv : v.home c = { ((On s (.sliceWakeComplete c)).wakeNow c).home c with waking := [] } := State.home_modHome_same _ _ _
  have hnow : v.now = s.now := (On s (.sliceWakeComplete c)).now_wakeNow c
  refine ⟨(s.home c).waking.foldl (fun s e => s.post 0 e) v, rfl, ?_, ?_, fun e he => hnow ▸ hcomes e he⟩
  · rw [hposts.home, hv]
    exact State.power_wakeNow _ _
  · rw [hposts.home, hv]

/-! ### Leases that end (R219) -/

theorem leaseExpiry_drops (s : State) (c sp page : Nat) : Next (exec .leaseExpiry (On s (.leaseExpiry c sp page))) fun t =>
    ∀ x, x ∈ (t.home c).tlb ↔ x ∈ (s.home c).tlb ∧ ¬(x.space = sp ∧ x.page = page ∧ ∃ e, x.lease = some e ∧ e ≤ s.meridianNow) := by
  refine ⟨_, rfl, fun x => ?_⟩
  rw [State.home_modHome_same]
  refine List.mem_filter.trans (and_congr_right fun _ => ?_)
  cases hlease : x.lease with
  | none => simp
  | some e =>
    simp only [Bool.not_eq_true', ← Bool.not_eq_true, Bool.and_eq_true, beq_iff_eq, decide_eq_true_eq, and_assoc, Option.some.injEq,
      exists_eq_left']
    rfl

/-! ### Shoot-downs (R215-R218) -/

/-- Each node of the tree is sent the request. -/
theorem posts_nodes (e : Nat → Event) (d : Nat → Nat) (l : List Nat) (s : State) :
    Posts s (l.foldl (fun s k => s.post (d k) (e k)) s) ∧ ∀ k ∈ l, Comes (l.foldl (fun s k => s.post (d k) (e k)) s) (s.now + d k) (e k) := by
  induction l generalizing s with
  | nil => exact ⟨.refl s, fun k hk => nomatch hk⟩
  | cons x l ih =>
    obtain ⟨hposts, hcomes⟩ := ih (s.post (d x) (e x))
    refine ⟨(Posts.post s _ _).trans hposts, fun k hk => ?_⟩
    obtain rfl | hk := List.mem_cons.1 hk
    · exact hposts.keeps _ (comes_post s _ _)
    · exact hcomes k hk

theorem rootPush_shoot (s : State) (r : Shoot) : (s.rootPush (.shoot r)).front.rootQ = s.front.rootQ ++ [.shoot r] ∧
    (s.front.rootQ = [] → (s.rootPush (.shoot r)).front.rootWait = List.range 34 ∧
      ∀ k, k < 34 → Comes (s.rootPush (.shoot r)) (s.now + 2 * (2 * treeDepth k)) (.shootdownNode k)) := by
  cases hq : s.front.rootQ with
  | nil =>
    let v : State := (s.modFront fun f => { f with rootQ := [.shoot r] }).modFront fun f => { f with rootWait := List.range 34, skipped := 0 }
    have hpush : s.rootPush (.shoot r) = (List.range 34).foldl (fun s k => s.post (2 * (2 * treeDepth k)) (.shootdownNode k)) v := by
      simp only [State.rootPush, State.rootStart, State.modFront, hq, List.nil_append, List.isEmpty_nil, if_true]
      rfl
    obtain ⟨hposts, hcomes⟩ := posts_nodes .shootdownNode (fun k => 2 * (2 * treeDepth k)) (List.range 34) v
    rw [hpush]
    refine ⟨?_, fun _ => ⟨?_, fun k hk => hcomes k (List.mem_range.2 hk)⟩⟩
    · rw [hposts.front]
      rfl
    · rw [hposts.front]
      rfl
  | cons q l =>
    refine ⟨?_, fun h => nomatch h⟩
    simp only [State.rootPush, State.modFront, hq, List.isEmpty_cons, Bool.false_eq_true, if_false]

/-- Every kind of request reaches the root alike. -/
theorem shootdown_reaches (s : State) (r : Shoot) : ∀ p ∈ [(Instr.shootdownDataRange, Event.shootdownDataRange r),
    (.shootdownDataSpace, .shootdownDataSpace r), (.shootdownInstructionRange, .shootdownInstructionRange r),
    (.shootdownInstructionProgram, .shootdownInstructionProgram r), (.shootdownEverything, .shootdownEverything r)],
    Next (exec p.1 (On s p.2)) fun t => t.front.rootQ = s.front.rootQ ++ [.shoot r] ∧ (s.front.rootQ = [] →
      t.front.rootWait = List.range 34 ∧ ∀ k, k < 34 → Comes t (s.now + 2 * (2 * treeDepth k)) (.shootdownNode k)) := by
  intro p hp
  have hexec : exec p.1 (On s p.2) = .next ((On s p.2).rootPush (.shoot r)) := by
    simp only [List.mem_cons, List.not_mem_nil, or_false] at hp
    obtain rfl | rfl | rfl | rfl | rfl := hp <;> rfl
  exact ⟨_, hexec, rootPush_shoot (On s p.2) r⟩

theorem SliceWork.foldl (c : Nat) (l : List SLine) (s : State) : SliceWork s (l.foldl (fun s l => (s.cleanLine c l).dropLine c l) s) := by
  induction l generalizing s with
  | nil => exact refl s
  | cons x l ih => exact ((cleanLine s c x).trans (dropLine _ c x)).trans (ih _)

/-- What a node of an awake slice does: work at the slice, which has lost the translations that the request names, then the instruction
caches of its cluster, where the request concerns them (R216). -/
theorem State.shootNode_awake {s : State} {r : Shoot} {c : Nat} (hc : c < 32) (hpower : (s.home c).power = .awake) :
    ∃ u ibuf cores, SliceWork s u ∧ s.shootNode r c = { u with ibuf := ibuf, cores := cores } ∧
      (r.keep = true → (u.home c).tlb = (s.home c).tlb.filter fun x => !shootNamesData r x.space x.page x.size) := by
  let a : State := s.modHome c fun x => { x with tlb := x.tlb.filter fun t => !(shootNamesData r t.space t.page t.size) }
  let b : State := if r.keep then a
    else ((a.home c).lines.filter fun l => !l.instr && shootNamesData r l.space (64 * l.line) 64).foldl
      (fun s l => (s.cleanLine c l).dropLine c l) a
  let d : State := if r.kind < 2 then b else b.modHome c fun x => { x with lines := x.lines.filter fun l => !l.instr }
  have ha : SliceWork s a := .modHome _ _ _
  have hb : SliceWork a b := .ite (.refl a) (.foldl c _ a)
  have hd : SliceWork b d := .ite (.refl b) (.modHome _ _ _)
  have hawake : ¬ ((decide (32 ≤ c) || decide ((s.home c).power = .gated)) = true) := by simp [hpower, hc]
  have hshoot : s.shootNode r c = if r.kind < 2 then d else { d with
      ibuf := mdel d.ibuf c
      cores := d.cores.map fun k => if clusterOf k.1 = c then (k.1, { k.2 with l0i := [] }) else k } := by
    unfold State.shootNode
    rw [if_neg hawake]
  have htlb : r.keep = true → (d.home c).tlb = (a.home c).tlb := by
    intro hkeep
    have hab : b = a := if_pos hkeep
    show ((if r.kind < 2 then b else _).home c).tlb = _
    split
    · rw [hab]
    · rw [State.home_modHome_same, hab]
  have hfilter : (a.home c).tlb = (s.home c).tlb.filter fun x => !shootNamesData r x.space x.page x.size := by
    rw [State.home_modHome_same]
  by_cases hkind : r.kind < 2
  · exact ⟨d, d.ibuf, d.cores, (ha.trans hb).trans hd, by rw [hshoot, if_pos hkind], fun hkeep => (htlb hkeep).trans hfilter⟩
  · exact ⟨d, _, _, (ha.trans hb).trans hd, by rw [hshoot, if_neg hkind], fun hkeep => (htlb hkeep).trans hfilter⟩

section
variable {s : State} {r : Shoot} {l : List RootOp} (hq : s.front.rootQ = .shoot r :: l)
include hq

theorem shootdownNode_acknowledges {c : Nat} (hc : c < 32) (hpower : (s.home c).power = .awake) :
    Next (exec .shootdownNode (On s (.shootdownNode c))) fun t => t.front.rootWait = s.front.rootWait.filter (· != c) ∧
      (s.front.rootWait = [c] → Comes t (s.now + 2 * 20) .shootdownCompletion) ∧
      (r.keep = true → (t.home c).tlb = (s.home c).tlb.filter fun x => !shootNamesData r x.space x.page x.size) := by
  have hawake : ((On s (.shootdownNode c)).home c).power = .awake := hpower
  obtain ⟨u, ib, cs, hwork, hshoot, htlb⟩ := State.shootNode_awake (s := On s (.shootdownNode c)) (r := r) hc hawake
  let v : State := ({ u with ibuf := ib, cores := cs, front := s.front } : State).modFront fun f => { f with rootWait := s.front.rootWait.filter (· != c) }
  have hfront : u.front = s.front := hwork.front
  have hexec : exec .shootdownNode (On s (.shootdownNode c)) = .next
      (if ((s.front.rootWait.filter (· != c)).isEmpty && !s.front.rootWait.isEmpty) then v.post (2 * 20) .shootdownCompletion else v) := by
    show execShootdownNode (On s (.shootdownNode c)) = _
    simp only [execShootdownNode, hq, hawake, hshoot, State.rootAck, hfront, ne_eq, not_true_eq_false, decide_false, Bool.and_false,
      Bool.false_eq_true, if_false]
    rfl
  have hposts : Posts v (if ((s.front.rootWait.filter (· != c)).isEmpty && !s.front.rootWait.isEmpty) then
      v.post (2 * 20) .shootdownCompletion else v) := .ite (.post _ _ _) (.refl _)
  refine ⟨_, hexec, ?_, fun hlast => ?_, fun hkeep => ?_⟩
  · rw [hposts.front]
    rfl
  · have hnow : v.now = s.now := hwork.now
    rw [if_pos (by simp [hlast]), ← hnow]
    exact comes_post _ _ _
  · rw [hposts.home]
    exact htlb hkeep

omit hq in
/-- The next request of the queue starts without changing it. -/
theorem State.rootStart_keeps (s : State) : s.rootStart.front.rootQ = s.front.rootQ ∧ ∀ p ∈ s.agenda, p ∈ s.rootStart.agenda := by
  unfold State.rootStart
  split
  · exact ⟨rfl, fun _ hp => hp⟩
  · obtain ⟨hposts, -⟩ := posts_nodes .shootdownNode (fun k => 2 * (2 * treeDepth k)) (List.range 34)
      (s.modFront fun f => { f with rootWait := List.range 34, skipped := 0 })
    have hQ := congrArg Front.rootQ hposts.front
    exact ⟨hQ, hposts.keeps⟩
  · next id _ _ =>
    obtain ⟨hposts, -⟩ := posts_nodes (.regionTableUpdate · id) (fun k => 2 * (2 * treeDepth k)) (List.range 32)
      (s.modFront fun f => { f with rootWait := List.range 32 })
    have hQ := congrArg Front.rootQ hposts.front
    exact ⟨hQ, hposts.keeps⟩

theorem shootdownCompletion_completes : Next (exec .shootdownCompletion (On s .shootdownCompletion)) fun t => t.front.rootQ = l ∧
    ∃ m : Msg, m.dst = r.core ∧ m.mb = r.mb ∧ m.body = BitVec.ofNat 256 (ofBytes (toBytes 4 r.seq ++ toBytes 4 s.front.skipped)) ∧
      Comes t (s.now + 2 * (6 + 2 * hops 3 (clusterOf r.core))) (.mailboxArrival m) := by
  let m : Msg := ⟨coreId 3 31, r.core, r.mb, BitVec.ofNat 256 (ofBytes (toBytes 4 r.seq ++ toBytes 4 s.front.skipped)), .firmware, ⟨0, 0⟩, 0, 5⟩
  let v : State := (On s .shootdownCompletion).post (2 * (6 + 2 * hops 3 (clusterOf r.core))) (.mailboxArrival m)
  have hexec : exec .shootdownCompletion (On s .shootdownCompletion) = .next v.rootNext := by
    show execShootdownCompletion (On s .shootdownCompletion) = _
    simp only [execShootdownCompletion, hq]
    rfl
  obtain ⟨hrootQ, hkeeps⟩ := (v.modFront fun f => { f with rootQ := f.rootQ.drop 1 }).rootStart_keeps
  refine ⟨_, hexec, ?_, m, rfl, rfl, rfl, hkeeps _ (comes_post (On s .shootdownCompletion) _ _)⟩
  refine hrootQ.trans ?_
  show s.front.rootQ.drop 1 = l
  rw [hq]
  rfl

end

/-! ### Region updates (R373) -/

theorem regionTableUpdate_reflex {s : State} {id : Nat} {q : RegionReq} (hq : mget s.front.regionReqs id = some q)
    (hheld : regionHeld ((mget (s.home 32).regions q.index).getD {}) q.tenant = false) :
    Next (exec .regionTableUpdate (On s (.regionTableUpdate 32 id))) fun t =>
      mget (t.home 32).regions q.index = some (updateRegion ((mget (s.home 32).regions q.index).getD {}) q) ∧
      mget t.front.regionReqs id = none ∧ Comes t (s.now + 2 * (6 + hops (clusterOf q.core) 3)) (.homeControllerReply id none) := by
  let v : State := (On s (.regionTableUpdate 32 id)).modHome 32 fun h => h.setRegion q
  let old : Region := (mget (s.home 32).regions q.index).getD {}
  have hheld' : regionHeld ((mget ((On s (.regionTableUpdate 32 id)).home 32).regions q.index).getD {}) q.tenant = false := hheld
  have hexec : exec .regionTableUpdate (On s (.regionTableUpdate 32 id)) =
      .next (v.answerRegion id q (BitVec.ofNat 64 ((old.version + 1) % 2 ^ 32))) := by
    show execRegionTableUpdate (On s (.regionTableUpdate 32 id)) = _
    simp only [execRegionTableUpdate, hq, hheld', Bool.false_eq_true, if_false, if_true]
    rfl
  have hhome : v.home 32 = (s.home 32).setRegion q := State.home_modHome_same _ _ _
  refine ⟨_, hexec, ?_, mget_mdel_same _ _, comes_post (v.modFront fun f => { f with regionReqs := mdel f.regionReqs id }) _ _⟩
  show mget (v.home 32).regions q.index = _
  rw [hhome]
  exact mget_mset_same _ _ _

/-! ### What a peer asks for (R219) -/

section
variable {s : State} {id sp off : Nat} (hpower : (s.home (s.homeOf sp off)).power = .awake)
include hpower

theorem peerTranslationRequest_asks (x : Option (Nat × MemOp)) : exec .peerTranslationRequest (On s (.peerTranslationRequest id sp off x)) =
    .next (x.elim ((On s (.peerTranslationRequest id sp off x)).lendPeer id sp off) fun p =>
      (On s (.peerTranslationRequest id sp off x)).servePeer id sp off p.1 p.2) := by
  have hpower' : ((On s (.peerTranslationRequest id sp off x)).home ((On s (.peerTranslationRequest id sp off x)).homeOf sp off)).power =
      .awake := hpower
  show execPeerTranslationRequest (On s (.peerTranslationRequest id sp off x)) = _
  simp only [execPeerTranslationRequest, hpower', ne_eq, not_true_eq_false, if_false]
  cases x <;> rfl

section
variable (hlocal : isLocal sp = true) (hvalid : spaceValid (s.spaceEntry sp) = true)
include hlocal hvalid

theorem peerTranslationRequest_lends {x : Tlb} (hwalk : s.walk sp off = .leaf x) :
    Next (exec .peerTranslationRequest (On s (.peerTranslationRequest id sp off none))) fun t =>
      t.front.peerOut = s.front.peerOut ++ [.translation id none x.rd x.wr x.size s.front.peerLease] := by
  have hwalk' := (s.walk_on (.peerTranslationRequest id sp off none) sp off).trans hwalk
  have hvalid' : spaceValid ((On s (.peerTranslationRequest id sp off none)).spaceEntry sp) = true := hvalid
  refine ⟨_, peerTranslationRequest_asks hpower none, ?_⟩
  show ((On s (.peerTranslationRequest id sp off none)).lendPeer id sp off).front.peerOut = _
  simp only [State.lendPeer, hlocal, hvalid', hwalk', Bool.not_true, Bool.or_self, Bool.false_eq_true, if_false, State.sayPeer,
    State.modFront_front, State.front_orEntry]

theorem peerTranslationRequest_denies {r : Nat} (hwalk : s.walk sp off = .fail r) :
    Next (exec .peerTranslationRequest (On s (.peerTranslationRequest id sp off none))) fun t =>
      t.front.peerOut = s.front.peerOut ++ [.translation id (some r) false false 0 s.front.peerLease] := by
  have hwalk' := (s.walk_on (.peerTranslationRequest id sp off none) sp off).trans hwalk
  have hvalid' : spaceValid ((On s (.peerTranslationRequest id sp off none)).spaceEntry sp) = true := hvalid
  refine ⟨_, peerTranslationRequest_asks hpower none, ?_⟩
  show ((On s (.peerTranslationRequest id sp off none)).lendPeer id sp off).front.peerOut = _
  simp only [State.lendPeer, hlocal, hvalid', hwalk', Bool.not_true, Bool.or_self, Bool.false_eq_true, if_false, State.sayPeer,
    State.modFront_front]

end

/-- An access under a lease that has ended. -/
theorem peerTranslationRequest_refuses (x : Nat × MemOp) (hended : ∀ e ∈ s.front.lent, e.2 ≤ s.meridianNow) :
    Next (exec .peerTranslationRequest (On s (.peerTranslationRequest id sp off (some x)))) fun t =>
      t.front.peerOut = s.front.peerOut ++ [.accessReply id (some 0) []] := by
  have hfind : (On s (.peerTranslationRequest id sp off (some x))).front.lent.find? (fun e =>
      decide ((On s (.peerTranslationRequest id sp off (some x))).meridianNow < e.2) && e.1.covers sp e.1.tenant off) = none := by
    refine List.find?_eq_none.2 fun e he => ?_
    have hlt : decide ((On s (.peerTranslationRequest id sp off (some x))).meridianNow < e.2) = false :=
      decide_eq_false (Nat.not_lt.2 (hended e he))
    simp [hlt]
  refine ⟨_, peerTranslationRequest_asks hpower (some x), ?_⟩
  show ((On s (.peerTranslationRequest id sp off (some x))).servePeer id sp off x.1 x.2).front.peerOut = _
  unfold State.servePeer
  rw [hfind]
  rfl

end

end Sys2Proof.Machine
end

section
/-! PROOF. Settlement: the events of the memory system (O51), from the rules of each event above. -/

namespace Sys2Proof.Proofs

open Sys2Proof.Machine Sys2Proof.Claims

/-- Settles O51: what is stated of an access follows event by event, then the replies to faults and the events of the slices and the tree. -/
theorem memoryEventsServeTheirAccess : Obligations.MemoryEventsServeTheirAccess := by
  unfold Obligations.MemoryEventsServeTheirAccess
  intro s w c b id u a n hc bank ea h key
  refine ⟨fun ha => ⟨fun hword htodo => ⟨sliceRequest_wakes ha htodo, ?requests, ?walkFails, ?walkFinds, ?pads, ?answers⟩,
      ?cacheOp, ?recalls, ?recallAnswer, ?peerReplies⟩,
    fun f y hfault => ⟨faultMessageResend_sends hc hfault, fun hseized => faultReplyRetryLater_takes hc hfault hseized, ?copies⟩,
    overflowMessage_notes, sliceGate_gates, sliceWake_wakes, sliceWakeComplete_wakes s c, shootdown_reaches s,
    fun r l hq => ⟨fun hnode hpower => shootdownNode_acknowledges hq hnode hpower, shootdownCompletion_completes hq⟩,
    fun q hq => regionTableUpdate_reflex hq, ?peerAsks, leaseExpiry_drops s c id n⟩
  case requests =>
    exact fun hlocal hpower => ⟨sliceRequest_walks ha htodo hword hlocal hpower,
      fun x wr hhit hp hop hea => sliceRequest_confirms ha htodo hword hlocal hpower hhit hp hop hea⟩
  case walkFails => exact fun r hwalk => pageWalkComplete_faults ha htodo hword hwalk
  case walkFinds => exact fun x wr hwalk hp hop hea => pageWalkComplete_confirms ha htodo hword hwalk hp hop hea
  case pads =>
    exact fun cl off hwin hfree => ⟨fun d m hop => remoteAccess_writes ha htodo hword hwin hfree hop,
      remoteAccess_reads ha htodo hword hwin hfree⟩
  case answers =>
    exact fun hlives hwho hs => ⟨fun wr hop => confirmation_answers ha hlives hwho hs hop, accessReply_answers ha hword hlives hwho hs,
      fun f hof hfor hcore hnone => translationFault_blocks ha hlives hof hfor hcore hnone⟩
  case cacheOp => exact fun hloc hu => cacheOpComplete_ends ha hc hloc hu
  case recalls => exact overflowRecall_frees ha
  case recallAnswer => exact overflowRecallAnswer_goesOn ha
  case peerReplies =>
    exact fun rd wr size hword hpeer => ⟨peerTranslationReply_leases ha hword hpeer rd wr size,
      fun r => peerTranslationReply_faults ha hword r rd wr size⟩
  case copies =>
    exact fun k z hseized hy hz hstream => ⟨faultReplyResume_resumes hc hfault hseized hy hz,
      faultReplyKill_kills hc hfault hseized hy hz hstream⟩
  case peerAsks =>
    exact fun hpower => ⟨fun hlocal hvalid => ⟨fun x hwalk => peerTranslationRequest_lends hpower hlocal hvalid hwalk,
      fun r hwalk => peerTranslationRequest_denies hpower hlocal hvalid hwalk⟩, peerTranslationRequest_refuses hpower⟩

end Sys2Proof.Proofs
end
